-- ==== Sys2Proof/Word.lean ====
section
/-!
DEFINITION. The word types of the macro and the small closed sets of names that every later file uses.
-/
namespace Sys2Proof

/-- A 32-bit register word. -/
abbrev W32 := BitVec 32
/-- A 64-bit memory or frond word. -/
abbrev W64 := BitVec 64
/-- One byte. -/
abbrev Byte := BitVec 8

/-- Sparse data by key: a list of key and value pairs with strictly rising keys. -/
abbrev KV (α : Type) := List (Nat × α)

/-- A register field: its lowest bit and its width. -/
structure Fld where
  lo : Nat
  w  : Nat
deriving DecidableEq, Repr

/-- The three configurations of R1 and R4. -/
inductive KCfg where
  | kn4S | kn4M | kn4L
deriving DecidableEq, Repr

/-- The two worlds of R328. -/
inductive World where
  | keeper | tenant
deriving DecidableEq, Repr

/-- The agents of R30 that write or read registers, with the configuration loader beside them. -/
inductive Agent where
  | frond (f : Nat)   -- frond Ff, codes 0x0 to 0x7
  | host              -- any host port, code 0x8
  | debugger          -- the debugger session, code 0x9
  | hw                -- macro hardware, code 0xA
  | loader            -- the configuration loader of the start-up sequence
deriving DecidableEq, Repr

/-- Who makes a register access: the agent, its world (for a session, its level) and whether it stands at supervisor level (for the host, whether
its request carries hpN_sreq_priv = 1); for the host, also the port it comes through. -/
structure Who where
  agent : Agent
  world : World
  sup   : Bool
  port  : Nat := 0
deriving DecidableEq, Repr

/-- The masters of the mat and the cushion that the commands of this model name (R47, R57). -/
inductive Master where
  | frond (f : Nat)             -- a frond's LSU
  | fetchA (ch : Nat)           -- chain operand A stream
  | fetchB (ch : Nat)           -- chain operand B stream
  | store (ch : Nat)            -- chain result stream
  | mover (hp : Nat)            -- host-port mover
  | rxWriter (lk : Nat)         -- link receive writer
  | txReader (lk : Nat)         -- link transmit reader
  | march (r : Nat)             -- the march engine of a region
  | debugger (f : Nat)          -- the debug port, under the windows of the frond it names
  | queueEngine (r : Nat)       -- the queue engine of a region
  | traceSink (r : Nat)         -- the trace sink writer of a region
  | hostB (hp : Nat)            -- a host access through cushion port B
deriving DecidableEq, Repr

/-- What the parity check of one 64-bit word finds: good, good on the repeat, bad on both reads (R51). -/
inductive Check where
  | good | retried | failed
deriving DecidableEq, Repr

/-- The beat that carries an access of a streaming master: as it should be, with a sideband parity error (R25), or with an EPOCH that is not the receiving region's (R24). -/
inductive Beat where
  | fine | sideband | stale
deriving DecidableEq, Repr

/-- What the memory and the stream bus give to an access: the check of each 64-bit word it touches, in address order (a word not listed is good), and its beat. -/
structure Par where
  words : List Check
  beat  : Beat
deriving DecidableEq, Repr

/-- Every word is good. -/
def Par.good : Par := ⟨[], .fine⟩
/-- The first word passes on its repeat. -/
def Par.retried : Par := ⟨[.retried], .fine⟩
/-- The first word fails both reads. -/
def Par.failed : Par := ⟨[.failed], .fine⟩
/-- The beat fails its sideband parity. -/
def Par.sideband : Par := ⟨[], .sideband⟩
/-- The beat carries another epoch. -/
def Par.stale : Par := ⟨[], .stale⟩
/-- The check of word i. -/
def Par.check (p : Par) (i : Nat) : Check := p.words[i]?.getD .good

/-- The arrival order of the two requests of a cushion collision (R55), seen from the access that carries it. -/
inductive Arrival where
  | equal | thisLater | otherLater
deriving DecidableEq, Repr

/-- An access of the other port that meets this one on a cushion word in one cycle (R55): the word, counted from the first that this access touches, the index or port of the
other access, whether it writes, which bytes it enables, and which request arrived later. -/
structure Meet where
  word    : Nat
  other   : Nat
  write   : Bool
  enables : BitVec 8
  order   : Arrival
deriving DecidableEq, Repr

/-- How the memory serves an access that a command names by its master: the checks of its words with its beat, and the accesses of the other port that it meets. -/
structure Served where
  par   : Par
  meets : List Meet
deriving DecidableEq, Repr

/-- The access of a frond or a chain, by the number of that unit, with how the memory serves it. -/
structure UnitAccess where
  unit  : Nat
  par   : Par
  meets : List Meet
deriving DecidableEq, Repr

/-- A word that a march reads (R66, R73): its place (physical rows from 512, cushion from 256, are spares), whether the test expects the complement of its background, and
the 65 bits read, the parity column last. -/
structure MarchFail where
  cush : Bool
  bank : Nat
  prow : Nat
  word : Nat
  inv  : Bool
  read : BitVec 65
deriving DecidableEq, Repr

/-- A spore's tag and payload (R194, R195). `len` is LEN; the payload holds the bytes before the padding. -/
structure Frame where
  typ     : Nat
  epoch   : Nat
  ctx     : Nat
  step    : Nat
  seq     : Nat
  offset  : Nat
  fmt     : Nat
  len     : Nat
  crdTc   : Nat
  crdN    : Nat
  tc      : Nat
  rpl     : Bool
  lst     : Bool
  rsnd    : Bool
  payload : List Byte
deriving DecidableEq, Repr

/-- What comes with a received slot beside its frame: the acknowledgement word (R197), with whether its ACRC checks, the lane's figures since the slot before (FEC symbols
corrected, uncorrectable codewords, and the eye margin, R222), whether the slot's HCRC failed (R204, read where the slot is not good), and the deskew of its ALIGN frame in eighths
of a frame time (R206, read for ALIGN alone). -/
structure AckWord where
  ok   : Bool
  av   : Bool
  nk   : Bool
  aseq : Nat
  cor  : Nat
  unc  : Nat
  eye  : Nat
  hcrc : Bool
  skew : Nat
deriving DecidableEq, Repr

/-- A receive post (R175): the context and step it takes, and its target: a waiting chain input, or a landing range of `len` bytes of which `got` have landed. -/
structure Post where
  ctx   : Nat
  step  : Nat
  chain : Bool
  base  : Nat
  len   : Nat
  got   : Nat
deriving DecidableEq, Repr

/-- What the memory array and the fetch path give while one control-store word is fetched (R284, R294, R295): the quarters of 64 bits that the first and the repeated fetch deliver with an
odd number of wrong bits, data or stored parity; how many words were fetched beyond on a path that is left, and how many of those failed parity. -/
structure FetchEnv where
  bad1    : BitVec 4
  bad2    : BitVec 4
  spec    : Nat
  specBad : Nat
deriving DecidableEq, Repr

end Sys2Proof
end

