-- ==== Sys2Proof/Syntax.lean ====
section
/-!
DEFINITION. The commands of the block, one constructor for each row of the table of operations and events, in its order. The operands are what the world outside brings to the
step: the agent and the value of a register write, the frame and the acknowledgement word of a received slot, the data of a response, the outcome of a parity check.
-/
namespace Sys2Proof

/-- The commands. -/
inductive Instr where
  /-- POR_ASSERT (R490): Assertion of por_n takes every on-die output to its reset value within 20 ns and stops the core PLL. -/
  | porAssert
  /-- POR_RELEASE (R490): Synchronised release of por_n starts the timebase and the beat, puts every region in OFF and begins a cold start. -/
  | porRelease
  /-- RST_ASSERT (R491): Assertion of rst_n drives kn_lock, kn_fatal, wdt_rst_req, kn_boot_done, kn_boot_fail, kn_irq_out and hpN_busy low and abandons any start in progress. -/
  | rstAssert
  /-- RST_RELEASE (R491): Synchronised release of rst_n resets the state listed in R431, increments every epoch and begins a warm or cold start. -/
  | rstRelease
  /-- TEST_EN_HIGH (R489): While TEST_EN is 1 the macro holds itself in power-on reset whatever por_n does. -/
  | testEnHigh
  /-- PLL_LOCK (R493): The core PLL locks within 100 µs of por_n release, or the start fails with code 0x11. -/
  | pllLock (ok : Bool)
  /-- PLL_LOSS_OF_LOCK (R495): Loss of core PLL lock sets CLK_STAT.LOL and stops CK_D, CK_F, CK_M and CK_S without a glitch. -/
  | pllLossOfLock
  /-- CLOCK_RESTART (R495): 1,000 CK_A ticks after the PLL relocks, the stopped clocks restart and the data plane continues. -/
  | clockRestart
  /-- FLASH_COMMAND_DONE (R434): A flash command completes and the loader goes on with discovery or with the image read. -/
  | flashCommandDone (octal : Bool)
  /-- FLASH_COMMAND_TIMEOUT (R442): A flash command exceeds 10 ms and the start fails with code 0x12 or 0x33. -/
  | flashCommandTimeout
  /-- IMAGE_FIRST_READ_DONE (R442): The first read of the slot ends with the certificate and image signature checked and the sections shadowed, or with a failure that may move on to slot B. -/
  | imageFirstReadDone (image : List Byte)
  /-- STARTUP_MARCH_DONE (R444): The start-up destructive march of the MREG regions ends, with repair or a failure under MFAIL. -/
  | startupMarchDone (fails : List (Nat × MarchFail))
  /-- IMAGE_SECOND_READ_DONE (R442): The second read of sections 0x02 and 0x03 into the control stores ends and is checked against the step 1 digests. -/
  | imageSecondReadDone (patch cust : List Byte)
  /-- BOOT_LINK_WAIT_EXPIRE (R442): LWAIT passes from step 5 and keeper microcode stops waiting for the links to come UP. -/
  | bootLinkWaitExpire
  /-- BOOTTMO_EXPIRE (R442): BOOTTMO expires before BOOTX is accepted and the start fails with code 0x71. -/
  | boottmoExpire
  /-- BOOTX (R412): A keeper write of LCH_MAINT.BOOTX in the start window clears LOADER, and kn_boot_done asserts in the next tick. -/
  | bootx (w : Who)
  /-- BEAT_BOUNDARY (R17): Every 50,000 CK_A ticks the island copies and clears the per-beat counters, sets TASK or counts an overrun, and raises the beat interrupt. -/
  | beatBoundary
  /-- BEAT_TASK_DONE (R17): A write of 1 to SYS_BEATST.TASK marks the tasks of the current beat done. -/
  | beatTaskDone (w : Who) (v : W32)
  /-- CLAIM_REQ (R32): A write with REQ = 1 to a claim register claims a free resource, or is refused and sets the feature's CLAIM bit. -/
  | claimReq (w : Who) (a : Nat) (v : W32)
  /-- CLAIM_REL (R34): A write with REL = 1 from the holder frees the resource and runs the release effects of its chapter. -/
  | claimRel (w : Who) (a : Nat) (v : W32)
  /-- REGISTER_WRITE (R8): A write to a register that has no behaviour of its own sets its writable fields, subject to the writers the register names. -/
  | registerWrite (w : Who) (a : Nat) (v : W32)
  /-- RC_FIELD_READ (R8): A read returns an RC field and then clears it, unless hardware sets it in the same cycle. -/
  | rcFieldRead (w : Who) (a : Nat) (sets : W32)
  /-- MAT_READ (R51): A master's read of a mat or cushion word is checked against the region windows, served and parity-checked, with one immediate retry. -/
  | matRead (m : Master) (a len : Nat) (par : Par) (meets : List Meet)
  /-- MAT_WRITE (R50): A master's write of a mat or cushion word, merged as read and write when partial, after the window check. -/
  | matWrite (m : Master) (a : Nat) (data : List (Option Byte)) (par : Par) (meets : List Meet)
  /-- MCH_START (R69): MCH_CTL.START starts a march run, or is refused with MCH_STAT.REFUSE set. -/
  | mchStart (w : Who) (r : Nat) (v : W32) (busy : Bool)
  /-- MCH_ABORT (R69): MCH_CTL.ABORT stops the run at the end of the current row. -/
  | mchAbort (w : Who) (r : Nat) (v : W32)
  /-- MARCH_ROW_LOCK (R68): A transparent run wins a bank cycle and locks the current row in all 64 banks for 160 CK_M cycles before restoring it. -/
  | marchRowLock (r group : Nat) (fails : List MarchFail)
  /-- MARCH_RUN_END (R67): A march run ends, with its clear pass done when destructive, and sets MCH_STAT.DONE and FAIL or ABORTED. -/
  | marchRunEnd (r : Nat) (spares fails : List MarchFail)
  /-- SUSPECT_SERVICE_RUN (R70): With SVC_REPAIR = 1 and no run busy, the engine takes the oldest suspect bank and tests it transparently with repair. -/
  | suspectServiceRun (r : Nat)
  /-- MAT_SUSP_POP (R70): A read of MAT_SUSP pops the oldest suspect-queue entry. -/
  | matSuspPop (w : Who) (r : Nat)
  /-- REPAIR_LOG_POP (R74): A read of RPL_DATA pops the oldest repair-log entry. -/
  | repairLogPop (w : Who) (r : Nat)
  /-- CHAIN_TRIGGER (R76): A move to CMD.TRGc latches a descriptor address in chain c, or refuses it with CHN_STAT.TREF set. -/
  | chainTrigger (f c : Nat) (v : W64)
  /-- DESCRIPTOR_FETCH_DONE (R79): The descriptor arrives; a fetch error ends the command DESC_FETCH, and otherwise the descriptor is checked. -/
  | descriptorFetchDone (ch : Nat) (x : Served)
  /-- PENDING_PROMOTE (R78): When the running command has issued its last fetch request, the pending command becomes the running command. -/
  | pendingPromote (ch : Nat)
  /-- CHAIN_STOP (R108): CHN_CTL.STOP stops the running command at its next segment boundary with status STOPPED. -/
  | chainStop (w : Who) (ch : Nat) (v : W32)
  /-- CHAIN_ABORT (R108): CHN_CTL.ABORT ends the running command, or a command waiting in PAIR, within 64 CK_D cycles with status ABORTED. -/
  | chainAbort (w : Who) (ch : Nat) (v : W32)
  /-- SEGMENT_REREAD (R107): A fetched word marked with a parity or error response makes the chain re-read and recompute the whole segment once. -/
  | segmentReread (x : Nat × Option Nat)
  /-- PROGRESS_WORD_WRITE (R105): After every store of a segment is acknowledged, the sink writes the progress word to the descriptor. -/
  | progressWordWrite (x : UnitAccess)
  /-- CHAIN_COMMAND_END (R108): A command enters ENDING with its status, captures CHN_ERR, raises its interrupts and passes its record to the queue engine. -/
  | chainCommandEnd (ch : Nat)
  /-- COMPLETION_RECORD_WRITE (R252): The queue engine writes a ready record to its completion ring in join order. -/
  | completionRecordWrite (x : Nat × List Meet)
  /-- COMPLETION_RECORD_WRITE_DONE (R255): The response to a record write advances CQ_TAIL and HEAD, or puts the queue in ERR on an error response. -/
  | completionRecordWriteDone (q : Nat) (err : Bool)
  /-- QUEUE_ISSUE (R250): The queue engine issues entry FETCH to its bound chain or to the collective service when the rings allow. -/
  | queueIssue (q : Nat)
  /-- DB_SQ (R249): A doorbell write of a new TAIL is accepted or ignored with SQ_STAT.DBERR set. -/
  | dbSq (w : Who) (q : Nat) (v : W32)
  /-- DB_CQ (R249): A doorbell write of a new CQ_HEAD frees completion records already written, or is ignored with DBERR set. -/
  | dbCq (w : Who) (q : Nat) (v : W32)
  /-- QUEUE_ENABLE (R246): A write of SQ_CFG.EN = 1 zeroes the indices and puts the queue in RUN, or fails with CFGERR set. -/
  | queueEnable (w : Who) (q : Nat) (v : W32)
  /-- QUEUE_DISABLE (R251): A write of SQ_CFG.EN = 0 takes the queue to OFF, or to DRAIN while commands still run. -/
  | queueDisable (w : Who) (q : Nat) (v : W32)
  /-- COLLECTIVE_REQUEST (R163): The service pops a request from CMD.SQIN, checks it and starts its steps, or ends it CX_ERR. -/
  | collectiveRequest (f : Nat) (words : List W64)
  /-- COLLECTIVE_REQUEST_END (R184): A request ends, writes word 7 and its completion record, and returns the context to IDLE or HALTED. -/
  | collectiveRequestEnd (n : Nat) (par : Par) (meets : List Meet)
  /-- STEP_TIMEOUT (R185): TMO_STEP expires without progress and the request ends TIMEOUT. -/
  | stepTimeout (n : Nat)
  /-- FENCE_TIMEOUT (R186): TMO_FENCE expires before every FENCE has arrived and RESTART ends TIMEOUT with the context HALTED. -/
  | fenceTimeout (n : Nat)
  /-- CONTEXT_VALIDATE (R166): A write of CXE_CTL.V = 1 takes a context from FREE to IDLE, or is refused with WREF set. -/
  | contextValidate (w : Who) (n : Nat) (v : W32)
  /-- CX_HALT (R185): A keeper write of CX_HALT ends the context's running request PEER_ABORT or moves an IDLE context to HALTED. -/
  | cxHalt (w : Who) (r : Nat) (v : W32)
  /-- CXE_ARDY_UPDATE (R180): The service frond raises CXE_ARDY, and chains waiting in ANCWAIT for those blocks proceed in the next cycle. -/
  | cxeArdyUpdate (f n v : Nat)
  /-- RECEIVE_POST (R175): The service places a receive post on a link and may then send READY for its step. -/
  | receivePost (f lk : Nat) (p : Post)
  /-- TOKEN_SEND (R174): The service queues a token frame through its CMD unit. -/
  | tokenSend (f lk n step code opid : Nat) (payload : List Byte)
  /-- FRAME_TRANSMIT (R214): Each transmit slot goes to the first candidate in the order replay, link control, TC2, TC1, TC3, TC0, IDLE. -/
  | frameTransmit (lk pos : Nat)
  /-- FRAME_RECEIVE_FAILED (R208): A slot that fails HCRC or CRC or holds a bad block is discarded and the receiver enters NAK. -/
  | frameReceiveFailed (lk pos : Nat) (aw : AckWord)
  /-- IDLE (R198): A received IDLE frame carries only its acknowledgement word. -/
  | idle (lk pos : Nat) (f : Frame) (aw : AckWord)
  /-- DATA (R208): A good DATA frame is sequenced, and in order it goes to a matching post, chain input or relay, or is dropped as stray. -/
  | data (lk pos : Nat) (f : Frame) (aw : AckWord)
  /-- AREC (R198): A good AREC frame of anchor records is sequenced and delivered like DATA. -/
  | arec (lk pos : Nat) (f : Frame) (aw : AckWord)
  /-- READY (R176): A READY token lets the sender transmit data of the step, or ends the request OPID_MISMATCH. -/
  | ready (lk pos : Nat) (f : Frame) (aw : AckWord)
  /-- BARRIER (R177): A BARRIER token marks a round of the barrier reached. -/
  | barrier (lk pos : Nat) (f : Frame) (aw : AckWord)
  /-- ABORT (R185): An ABORT token for the running OPID ends the request PEER_ABORT or CX_ERR, and any other OPID is counted. -/
  | abort (lk pos : Nat) (f : Frame) (aw : AckWord)
  /-- FENCE (R186): A FENCE token counts toward the RESTART fence, which returns the context to IDLE once every link and class has delivered one. -/
  | fence (lk pos : Nat) (f : Frame) (aw : AckWord)
  /-- DONE (R184): A DONE token completes a PUT at the requester. -/
  | done (lk pos : Nat) (f : Frame) (aw : AckWord)
  /-- GETREQ (R176): A GETREQ token is checked against the exposure window and answered with data or with ABORT carrying CX_ERR. -/
  | getreq (lk pos : Nat) (f : Frame) (aw : AckWord)
  /-- CREDIT (R213): A CREDIT frame returns the transmit credits of each class. -/
  | credit (lk pos : Nat) (f : Frame) (aw : AckWord)
  /-- EPOCH (R215): An EPOCH frame replaces the link's RXEP. -/
  | epoch (lk pos : Nat) (f : Frame) (aw : AckWord)
  /-- SNAK (R217): A SNAK is answered with RSND copies from the retry buffer, or with SREF. -/
  | snak (lk pos : Nat) (f : Frame) (aw : AckWord)
  /-- SREF (R217): An SREF fails the segment re-read, and the chain command ends PARITY. -/
  | sref (lk pos : Nat) (f : Frame) (aw : AckWord)
  /-- MGMT (R199): A MGMT frame is placed in the region's management queue, or waits holding its credit. -/
  | mgmt (lk pos : Nat) (f : Frame) (aw : AckWord)
  /-- INIT (R219): A received INIT sets RXEP and credits, is answered with INITACK, or is a protocol error in a loop without LOOP. -/
  | init (lk pos : Nat) (f : Frame) (aw : AckWord)
  /-- INITACK (R219): INITACK received after the partner's INIT makes the link UP. -/
  | initack (lk pos : Nat) (f : Frame) (aw : AckWord)
  /-- ALIGN (R206): An ALIGN frame sets a lane's deskew and position. -/
  | align (lk pos : Nat) (f : Frame) (aw : AckWord)
  /-- LANESET (R224): A LANESET is answered with LSACK and the new receive mask, or with LSREF. -/
  | laneset (lk pos : Nat) (f : Frame) (aw : AckWord)
  /-- LSACK (R224): An LSACK makes the transmitter send on the new mask from the next row. -/
  | lsack (lk pos : Nat) (f : Frame) (aw : AckWord)
  /-- LSREF (R224): An LSREF makes the transmitter keep the old mask. -/
  | lsref (lk pos : Nat) (f : Frame) (aw : AckWord)
  /-- LREQ (R224): An LREQ removes the named lanes from the receiver's own transmit set. -/
  | lreq (lk pos : Nat) (f : Frame) (aw : AckWord)
  /-- DOWN (R220): A DOWN frame takes the link down after its acceptance. -/
  | down (lk pos : Nat) (f : Frame) (aw : AckWord)
  /-- REPLAY_TIMEOUT (R209): RPL_TMO expires with frames held and replay starts from the oldest held frame. -/
  | replayTimeout (lk : Nat)
  /-- NAK_TIMEOUT (R208): NAK_TMO expires in NAK and the receiver sends NK again. -/
  | nakTimeout (lk : Nat)
  /-- LANESET_TIMEOUT (R224): No answer to LANESET within 10 µs takes the link down with cause protocol error. -/
  | lanesetTimeout (lk : Nat)
  /-- LINK_UP (R219): LK_CTL.UP begins bring-up, reclaiming the lane test engines, or is refused by a claim. -/
  | linkUp (w : Who) (lk : Nat) (v : W32)
  /-- LINK_DOWN_CMD (R220): LK_CTL.DOWN sends DOWN and takes the link down. -/
  | linkDownCmd (w : Who) (lk : Nat) (v : W32)
  /-- LINK_RETRAIN (R220): LK_CTL.RETRAIN takes the link to DOWN and runs bring-up without AN. -/
  | linkRetrain (w : Who) (lk : Nat) (v : W32)
  /-- LANE_RETRAIN (R222): LN_CTL.RETRAIN removes one lane of a wider link, retrains it alone and restores it. -/
  | laneRetrain (w : Who) (l : Nat) (v : W32)
  /-- AN_DONE (R219): Auto-negotiation agrees the lane rate and the link enters TRAIN. -/
  | anDone (lk : Nat) (fallback : Bool)
  /-- TRAIN_DONE (R219): PAM4 training completes on every lane and the link enters ALIGN, or training fails. -/
  | trainDone (lk failed precode : Nat)
  /-- TRAIN_TIMEOUT (R219): The standard's timers or TRAIN_MAX expire and the link goes DOWN with cause training failed. -/
  | trainTimeout (lk : Nat)
  /-- INIT_TIMEOUT (R219): INIT_TMO expires in ALIGN or INIT and the link goes DOWN with cause INIT timeout. -/
  | initTimeout (lk : Nat)
  /-- INIT_RESEND (R219): INIT is sent again every 1 µs on position 0 until INITACK arrives. -/
  | initResend (lk : Nat)
  /-- LANE_SYNC_LOSS (R223): A lane of an UP link leaves SYNC or loses signal and is removed at once, or takes an x1 link down. -/
  | laneSyncLoss (l : Nat) (signal : Bool)
  /-- LT_SCAN (R226): LT_CTL.SCAN starts the measurement of one eye point. -/
  | ltScan (w : Who) (l : Nat) (v : W32)
  /-- LT_SCAN_DONE (R226): The scan point completes, writes LT_SCAN and sets SDONE. -/
  | ltScanDone (l : Nat) (errs : W32)
  /-- LT_CLR (R226): LT_CTL.CLR clears LT_ERR and LT_UI. -/
  | ltClr (w : Who) (l : Nat) (v : W32)
  /-- HOST_S_READ (R239): A host S read of the cushion or a register view is decoded, checked and answered with data or an error. -/
  | hostSRead (port addr len tag : Nat) (priv parErr : Bool) (par : Par) (meets : List Meet)
  /-- HOST_S_WRITE (R239): A host S write with its data beats is decoded, checked, performed and answered. -/
  | hostSWrite (port addr tag op : Nat) (priv parErr : Bool) (data : List (Option Byte)) (badWords : List Nat) (par : Par) (meets : List Meet)
  /-- M_READ_DATA (R236): An M read-data beat is parity-checked and delivered to its master, freeing the tag on the last beat. -/
  | mReadData (port tag : Nat) (data : List Byte) (bad : List Nat) (st : Nat) (last : Bool)
  /-- M_WRITE_RESPONSE (R236): An M write response completes the write toward its master and frees the tag. -/
  | mWriteResponse (port tag st : Nat) (parErr : Bool)
  /-- M_CAS_RESPONSE (R238): The read-data beat of a CAS64 returns the old 8 bytes to the walker. -/
  | mCasResponse (port tag : Nat) (old : W64) (parErr : Bool) (st : Nat)
  /-- HOST_CREDIT_RETURN (R232): An asserted credit signal returns one request or write-data credit to the requester. -/
  | hostCreditReturn (port : Nat) (writeData : Bool)
  /-- M_REQUEST_TIMEOUT (R234): An M request outstanding for RTMO beats has its tag retired and completes as ERR. -/
  | mRequestTimeout (port tag : Nat)
  /-- HOST_CLOCK_LOSS (R496): No HCKn edge for 64 CK_S cycles holds the port in reset, failing M requests and discarding S requests. -/
  | hostClockLoss (port : Nat)
  /-- HOST_CLOCK_RETURN (R496): After 64 running cycles of HCKn the port leaves reset and grants credits again. -/
  | hostClockReturn (port : Nat)
  /-- TRANSLATION_LOOKUP (R272): A micro-buffer miss looks up the translation cache, and a miss starts a demand walk. -/
  | translationLookup (ch stream : Nat)
  /-- TRANSLATION_WALK (R265): The walker starts a walk from the deepest cached level. -/
  | translationWalk (r : Nat)
  /-- LOOKAHEAD_WALK (R274): A chain asks for a look-ahead walk up to LADEPTH pages ahead, with the SE handling of its configuration. -/
  | lookaheadWalk (ch stream : Nat)
  /-- WALK_TABLE_READ_DONE (R263): A table read returns and the entry is judged, continuing the walk, reaching a leaf or ending in a fault. -/
  | walkTableReadDone (r k : Nat)
  /-- MARK_CAS_DONE (R270): The CAS64 setting A or D returns; a match fills the caches and a mismatch restarts the walk. -/
  | markCasDone (r k : Nat)
  /-- XLT_INV (R278): A frond move to XLT.INV queues an invalidation, or refuses it. -/
  | xltInv (f : Nat) (v : W64)
  /-- XLT_INV_GO (R278): A host write of XLT_INV_CTL.GO queues an invalidation, or refuses it with INVREF set. -/
  | xltInvGo (w : Who) (r : Nat) (v : W32)
  /-- INVALIDATION_DONE (R277): An invalidation completes once its entries are gone, its walks are stale and its accesses are done, and it reports DONE or INVDONE. -/
  | invalidationDone (r : Nat)
  /-- XLT_PRB (R282): A move to XLT.PRB starts a probe that looks up and walks without filling. -/
  | xltPrb (f : Nat) (v : W64)
  /-- PROBE_DONE (R282): The probe result is written to XLT.PR with DONE = 1. -/
  | probeDone (f : Nat)
  /-- XLT_DIR_WRITE (R260): A write of XLT_TDIR or XLT_KDIR sets the directory base, or is refused for PA[52] = 1. -/
  | xltDirWrite (w : Who) (a : Nat) (v : W32)
  /-- SEQ (R285): A control-store word with NAM SEQ is transported and execution continues at A + 1. -/
  | seq (f : Nat) (e : FetchEnv)
  /-- JMP (R285): A word with NAM JMP transfers to TARGET after its delay word. -/
  | jmp (f : Nat) (e : FetchEnv)
  /-- JMPC (R285): A word with NAM JMPC tests COND and transfers or falls through, annulling the delay word when asked. -/
  | jmpc (f : Nat) (e : FetchEnv)
  /-- MWAY (R285): A word with NAM MWAY transfers to TARGET ORed with the selected condition bits. -/
  | mway (f : Nat) (e : FetchEnv)
  /-- CALL (R285): A word with NAM CALL pushes A + 2 and transfers to TARGET. -/
  | call (f : Nat) (e : FetchEnv)
  /-- RET (R285): A word with NAM RET pops the return-address stack and transfers there. -/
  | ret (f : Nat) (e : FetchEnv)
  /-- RETX (R349): A word with NAM RETX checks SST and SRA and returns from a handler, or raises RET_STATE. -/
  | retx (f : Nat) (e : FetchEnv)
  /-- WAIT (R322): A word with NAM WAIT stops fetch until an interrupt or an enabled event. -/
  | wait (f : Nat) (e : FetchEnv)
  /-- WAIT_WAKE (R322): An enabled SYS.WEV event becomes true and a waiting frond continues past its WAIT word. -/
  | waitWake (f : Nat)
  /-- HALT (R322): A word with NAM HALT stops the frond in the halted state, or raises PRIV at user level. -/
  | halt (f : Nat) (e : FetchEnv)
  /-- REP (R305): A word with REP = 1 makes the next word execute RPT.C times, or raises ILLEGAL_REP. -/
  | rep (f : Nat) (e : FetchEnv)
  /-- REPEAT_ITERATION (R305): One iteration of a repeated word executes and RPT.C decrements. -/
  | repeatIteration (f : Nat) (e : FetchEnv)
  /-- KN_FATAL (R348): In the CK_A tick after every keeper frond is in LOCKUP, kn_fatal asserts and stays asserted until reset. -/
  | knFatal
  /-- FATAL_RECOVERY (R430): In the tick after kn_fatal, every region in run or idle runs recovery to RESET, sends DOWN and enters HALTED. -/
  | fatalRecovery
  /-- SYS_GATE (R344): A write to SYS.GATE enters the handler of the gate table entry, or raises GATE_INV. -/
  | sysGate (f : Nat) (v : W64)
  /-- SYS_ST_WRITE (R336): A write of SYS.ST changes S, ML, FTE and HOLD after one shadow word. -/
  | sysStWrite (f : Nat) (v : W64)
  /-- SYS_PFL (R303): A write of 1 to SYS.PFL empties the return-address stack and discards the words fetched ahead. -/
  | sysPfl (f : Nat) (v : W64)
  /-- SYS_FPBAR (R316): SYS.FPBAR holds the next word until earlier FPU results are written and earlier chain commands have reported. -/
  | sysFpbar (f : Nat) (v : W64)
  /-- SYS_MBXS (R323): A write to SYS.MBXS appends to the mailbox toward the other world, or is discarded with OVF set. -/
  | sysMbxs (f : Nat) (v : W64)
  /-- SYS_MBXR (R323): A read of SYS.MBXR pops the mailbox toward the frond's own world. -/
  | sysMbxr (f : Nat)
  /-- CMD_SQIN (R308): A read of CMD.SQIN pops the next collective request address handed over by the queue engine. -/
  | cmdSqin (f : Nat)
  /-- CMD_MGQ (R308): A read of CMD.MGQ takes the next MGMT frame from the management queue. -/
  | cmdMgq (f : Nat)
  /-- CMD_MGS (R308): A trigger of CMD.MGS sends a MGMT frame. -/
  | cmdMgs (f lk : Nat) (payload : List Byte)
  /-- STIM_WRITE (R472): A write to STIM.k emits a trace packet when enabled, or drops it when the trace queue is full. -/
  | stimWrite (f k : Nat) (v : W64)
  /-- ALU_ADD (R311): ALU.ADD computes O + T and sets Z, N, C and V. -/
  | aluAdd (f : Nat) (t : W64)
  /-- ALU_SUB (R311): ALU.SUB computes O − T and sets Z, N, C and V. -/
  | aluSub (f : Nat) (t : W64)
  /-- ALU_AND (R311): ALU.AND computes O AND T. -/
  | aluAnd (f : Nat) (t : W64)
  /-- ALU_OR (R311): ALU.OR computes O OR T. -/
  | aluOr (f : Nat) (t : W64)
  /-- ALU_XOR (R311): ALU.XOR computes O XOR T. -/
  | aluXor (f : Nat) (t : W64)
  /-- ALU_ANDN (R311): ALU.ANDN computes O AND NOT T. -/
  | aluAndn (f : Nat) (t : W64)
  /-- ALU_SHL (R311): ALU.SHL shifts O left by T[5:0]. -/
  | aluShl (f : Nat) (t : W64)
  /-- ALU_SHR (R311): ALU.SHR shifts O right logically by T[5:0]. -/
  | aluShr (f : Nat) (t : W64)
  /-- ALU_SAR (R311): ALU.SAR shifts O right arithmetically by T[5:0]. -/
  | aluSar (f : Nat) (t : W64)
  /-- ALU_ROR (R311): ALU.ROR rotates O right by T[5:0]. -/
  | aluRor (f : Nat) (t : W64)
  /-- ALU_EQ (R311): ALU.EQ gives 1 when O equals T. -/
  | aluEq (f : Nat) (t : W64)
  /-- ALU_NE (R311): ALU.NE gives 1 when O differs from T. -/
  | aluNe (f : Nat) (t : W64)
  /-- ALU_LTS (R311): ALU.LTS gives 1 when O is signed-less than T. -/
  | aluLts (f : Nat) (t : W64)
  /-- ALU_LTU (R311): ALU.LTU gives 1 when O is unsigned-less than T. -/
  | aluLtu (f : Nat) (t : W64)
  /-- ALU_GES (R311): ALU.GES gives 1 when O is signed-greater or equal to T. -/
  | aluGes (f : Nat) (t : W64)
  /-- ALU_GEU (R311): ALU.GEU gives 1 when O is unsigned-greater or equal to T. -/
  | aluGeu (f : Nat) (t : W64)
  /-- MSTEP_MUL (R312): MSTEP.MUL performs one shift-and-add multiply step. -/
  | mstepMul (f : Nat) (v : W64)
  /-- MSTEP_DIV (R312): MSTEP.DIV performs one shift-and-subtract divide step. -/
  | mstepDiv (f : Nat) (v : W64)
  /-- FPU_FMA (R314): FPU.FMA starts A × B + T with one rounding. -/
  | fpuFma (f : Nat) (t : W64)
  /-- FPU_ADD (R314): FPU.ADD starts A + T. -/
  | fpuAdd (f : Nat) (t : W64)
  /-- FPU_MUL (R314): FPU.MUL starts A × T. -/
  | fpuMul (f : Nat) (t : W64)
  /-- FPU_MAX (R314): FPU.MAX starts the IEEE maximum of A and T. -/
  | fpuMax (f : Nat) (t : W64)
  /-- FPU_MIN (R314): FPU.MIN starts the IEEE minimum of A and T. -/
  | fpuMin (f : Nat) (t : W64)
  /-- FPU_RCP (R133): FPU.RCP starts the reciprocal estimate of T. -/
  | fpuRcp (f : Nat) (t : W64)
  /-- FPU_CVW (R314): FPU.CVW converts T from the other precision into the selected precision. -/
  | fpuCvw (f : Nat) (t : W64)
  /-- FPU_CVI (R314): FPU.CVI converts T to a signed 64-bit integer. -/
  | fpuCvi (f : Nat) (t : W64)
  /-- FPU_CVF (R314): FPU.CVF converts the signed 64-bit integer T to floating point. -/
  | fpuCvf (f : Nat) (t : W64)
  /-- FPU_RESULT_WRITE (R315): Four cycles after its trigger, an FPU result is written to its Y port and its flags are ORed into FPU.FLG. -/
  | fpuResultWrite (f : Nat)
  /-- LSU_LD8 (R317): LSU.LD8 starts an 8-byte load from the physical address moved. -/
  | lsuLd8 (f : Nat) (pa : W64)
  /-- LSU_LD4 (R317): LSU.LD4 starts a zero-extended 4-byte load from the physical address moved. -/
  | lsuLd4 (f : Nat) (pa : W64)
  /-- LSU_ST8 (R317): LSU.ST8 buffers an 8-byte store of LSU.SD. -/
  | lsuSt8 (f : Nat) (pa : W64)
  /-- LSU_ST4 (R317): LSU.ST4 buffers a 4-byte store of LSU.SD. -/
  | lsuSt4 (f : Nat) (pa : W64)
  /-- LSU_LOAD_DONE (R318): Load data arrives in LSU.D, or a failed load records LSU.ERR and owes LSU_ERR. -/
  | lsuLoadDone (f : Nat) (x : Served)
  /-- LSU_STORE_ACK (R318): A buffered store is acknowledged, or its failure raises LSU_ERR. -/
  | lsuStoreAck (x : UnitAccess)
  /-- LSU_LOCK (R320): LSU.LOCK asks for a lock on a 64-byte line of the own region, or fails with cause 6. -/
  | lsuLock (f : Nat) (pa : W64)
  /-- LSU_LOCK_ACQUIRED (R320): The line lock is acquired and the waiting word proceeds with HELD = 1. -/
  | lsuLockAcquired (f : Nat)
  /-- LSU_UNLOCK (R320): LSU.UNLOCK releases the line lock. -/
  | lsuUnlock (f : Nat) (v : W64)
  /-- LSU_LOCK_BREAK (R320): 256 CK_F cycles after acquisition the lock breaks and LKST.BRK becomes 1. -/
  | lsuLockBreak (f : Nat)
  /-- IRQ_EOI (R369): A move to IRQ.EOI pops the top source and completes it, or raises EOI_ORDER. -/
  | irqEoi (f : Nat) (v : W64)
  /-- EVENT_SOURCE_FIRE (R357): An event source fires and sets its pending bit, or counts in IRQ_CNT while pending or active. -/
  | eventSourceFire (s : Nat)
  /-- LEVEL_SOURCE_SAMPLE (R357): A level source whose condition is true sets its pending bit when neither active nor pending. -/
  | levelSourceSample (s : Nat)
  /-- KN_IRQ_IN_EDGE (R358): A synchronised change on kn_irq_in[k] fires or raises licensee source 448 + k. -/
  | knIrqInEdge (k : Nat) (lvl : Bool)
  /-- INTERRUPT_PRESENT (R364): In a CK_S cycle the controller presents each pending, enabled request to its best eligible frond. -/
  | interruptPresent
  /-- INTERRUPT_ENTRY (R365): A frond takes a presented request at a permitted boundary, saves SRA and SST, and pushes the source. -/
  | interruptEntry (f : Nat) (late : Option Nat) (e : FetchEnv)
  /-- HOLDOFF_END (R373): The hold-off interval of a group ends and its pending requests may be presented again. -/
  | holdoffEnd (g : Nat)
  /-- IRQ_PEND_WRITE (R374): A write of IRQ_PEND sets every writable pending bit to the written value. -/
  | irqPendWrite (w : Who) (g : Nat) (v : W32)
  /-- TIMER_MATCH (R380): A counting tick with CMP = CNT issues the match actions and sets the output level. -/
  | timerMatch (c : Nat)
  /-- TIMER_WRAP (R380): A counting tick with CNT = PER wraps CNT to 0, loads CMP from PRE, stops a one-shot and issues the overflow actions. -/
  | timerWrap (c : Nat)
  /-- TIMER_MOVER_RESPONSE (R385): The response to a mover write arrives, with MERR set on an error. -/
  | timerMoverResponse (c : Nat) (err : Bool)
  /-- TIMER_LINK_OPERATION (R386): In the tick after its event, a link operation starts, stops or captures the named channel. -/
  | timerLinkOperation
  /-- TIMER_CAPTURE (R388): A capture event copies CNT into TMR_CAP and sets CAPF, or CAPOVR when unread. -/
  | timerCapture (c : Nat) (levels : Nat)
  /-- TMR_CAP_READ (R389): A read of TMR_CAP returns CAP and clears CAPF. -/
  | tmrCapRead (w : Who) (c : Nat) (capture : Bool)
  /-- TIMER_START (R381): TMR_CMD.START zeroes CNT, loads CMP and runs the channel, or is refused with CFGERR set. -/
  | timerStart (w : Who) (c : Nat) (v : W32)
  /-- TIMER_STOP (R381): TMR_CMD.STOP clears RUN and leaves CNT unchanged. -/
  | timerStop (w : Who) (c : Nat) (v : W32)
  /-- STAGGER_GO (R387): TMR_STG.GO sets up and starts a stagger group of channels in one tick, or is refused. -/
  | staggerGo (w : Who) (v : W32)
  /-- TB_LO_READ (R392): A privileged read of TB_LO copies TB_HI into the reading agent's snapshot. -/
  | tbLoRead (w : Who)
  /-- WDT_SVC (R395): A write of 0x0000_A55A to WDT_SVC returns the watchdog to the start of stage one, or sets BADKEY or EARLY. -/
  | wdtSvc (w : Who) (v : W32)
  /-- WATCHDOG_STAGE1_EXPIRE (R394): Stage one expires, fires source 447 and enters stage two, or is latched in halt. -/
  | watchdogStage1Expire
  /-- WATCHDOG_STAGE2_EXPIRE (R394): Stage two expires and asserts wdt_rst_req, or is latched in halt. -/
  | watchdogStage2Expire
  /-- WATCHDOG_HALT_RELEASE (R398): At the end of debug halt a latched expiry fires source 447 and starts stage two, or asserts wdt_rst_req. -/
  | watchdogHaltRelease
  /-- WDT_WIN_WRITE (R397): A write of WDT_CTL.WIN = 1 enters window mode, or is refused with CLAIM set. -/
  | wdtWinWrite (w : Who) (v : W32)
  /-- PROPOSE (R405): LCH_CMD.PROPOSE freezes the staging registers, increments PSEQ, draws a salt and starts the digest. -/
  | propose (w : Who) (v : W32)
  /-- LICHEN_HASH_DONE (R406): 200 ticks after PROPOSE the digest and salt are shown and the proposal enters PENDING with its window armed. -/
  | lichenHashDone
  /-- WITHDRAW (R410): LCH_CMD.WITHDRAW ends a proposal in HASH or PENDING as WITHDRAWN. -/
  | withdraw (w : Who) (v : W32)
  /-- LCH_HGO (R408): A host confirmation is checked and enters VERIFY, or fails with its code. -/
  | lchHgo (w : Who) (v : W32)
  /-- LCH_DGO (R408): A debugger confirmation is checked and goes straight to APPLY, or fails with its code. -/
  | lchDgo (w : Who) (v : W32)
  /-- LICHEN_VERIFY_DONE (R408): The host signature check ends and the proposal is applied, returned to PENDING, or expired. -/
  | lichenVerifyDone
  /-- LICHEN_APPLY (R411): The protected item is written after the value checks, or the change is refused. -/
  | lichenApply
  /-- LICHEN_WINDOW_EXPIRE (R409): The 8-beat confirmation window expires and a pending proposal ends EXPIRED. -/
  | lichenWindowExpire
  /-- CONTROL_PARITY_ERROR (R418): A parity error in region control state drops a cache entry or starts region recovery with cause CTLPERR. -/
  | controlParityError (r unit addr : Nat)
  /-- STREAM_PROTOCOL_ERROR (R26): A beat with KIND 0b11 is discarded and starts region recovery with cause PROTO. -/
  | streamProtocolError (r unit addr : Nat)
  /-- RECOVER (R419): A write of RGN_CMD.RECOVER starts region recovery, or is refused with RREF set. -/
  | recover (w : Who) (r : Nat) (v : W32)
  /-- REGION_RECOVERY_START (R420): The region enters QUIESCE, stops issuing, stops the fronds, quiesces its links and awaits its outstanding requests. -/
  | regionRecoveryStart (r : Nat)
  /-- QUIESCE_DRAIN_DONE (R420): The last awaited response arrives and DISCARD ends every command DISCARDED and writes the records. -/
  | quiesceDrainDone (r : Nat)
  /-- DRAIN_TIMEOUT (R423): DRAIN beats pass in QUIESCE, the awaited responses are abandoned and the region enters HALTED with no record written. -/
  | drainTimeout (r : Nat)
  /-- DISCARD_DONE (R420): Every DISCARDED record write is acknowledged and the region's units are reset for 100 ticks. -/
  | discardDone (r : Nat)
  /-- REJOIN (R420): At the end of RESET the epoch increments, links send EPOCH and the fronds restart. -/
  | rejoin (r : Nat)
  /-- REGISTER_FABRIC_PARITY_ERROR (R428): A register-fabric parity error drops the write or zeroes the read and is logged in MEU_LOG. -/
  | registerFabricParityError (w : Who) (write : Bool) (a : Nat)
  /-- RGN_LOG_POP (R432): A read of RGN_LOG_INFO pops the oldest region log entry. -/
  | rgnLogPop (w : Who) (r : Nat)
  /-- MEU_LOG_POP (R428): A read of MEU_LOG_INFO pops the oldest macro error log entry. -/
  | meuLogPop (w : Who)
  /-- DEBUG_NOP (R452): A NOP request frame is answered with DBG_STAT. -/
  | debugNop
  /-- DEBUG_RD (R460): An RD request frame reads one aligned word of the local space, or is refused. -/
  | debugRd (frn : Nat) (eff : Bool) (a : Nat) (x : Served)
  /-- DEBUG_WR (R460): A WR request frame writes one aligned word of the local space, or is refused. -/
  | debugWr (frn a : Nat) (v : W32) (x : Served)
  /-- DEBUG_PRD (R461): A PRD request frame reads half of a port of a halted frond. -/
  | debugPrd (frn : Nat) (eff hi : Bool) (port : Nat)
  /-- DEBUG_PWR (R461): A PWR request frame writes half of a port of a halted frond. -/
  | debugPwr (frn : Nat) (hi : Bool) (port : Nat) (v : W32)
  /-- DEBUG_CRC_FAIL (R453): A request frame whose CRC fails is not answered, sets CRCERR, and the line is ignored until a line reset. -/
  | debugCrcFail
  /-- DEBUG_LINE_RESET (R453): 128 cycles with DBG_IO high reset the debug line. -/
  | debugLineReset
  /-- CHAL (R456): DBG_AUTH.CHAL draws a fresh 32-byte nonce, or is held off after a failure. -/
  | chal (v : W32)
  /-- GO (R456): DBG_AUTH.GO consumes the nonce and starts verification of the probe's key and signature. -/
  | go (v : W32)
  /-- DEBUG_VERIFY_DONE (R457): Verification ends and opens a session at LEVEL, or sets AFAIL and holds CHAL off for 4 beats. -/
  | debugVerifyDone
  /-- CLOSE (R458): DBG_AUTH.CLOSE ends the session, releasing its claims and resuming its halted fronds. -/
  | close (v : W32)
  /-- DEBUG_IDLE_TIMEOUT (R458): ITMO × 256 beats without a good request frame end the session. -/
  | debugIdleTimeout
  /-- DEBUG_HALT_REQ (R464): DBG_FCTL.HALT asks a frond to halt at its next permitted boundary, or is refused with REFUSE set. -/
  | debugHaltReq (f : Nat) (v : W32)
  /-- DEBUG_HALT_TAKEN (R464): The frond reaches a permitted boundary, or its lock ends, and enters debug halt. -/
  | debugHaltTaken (f : Nat)
  /-- DEBUG_RESUME (R466): DBG_FCTL.RESUME restarts a frond in debug halt or HALT at DBG_FPC. -/
  | debugResume (f : Nat) (v : W32)
  /-- DEBUG_STEP (R467): DBG_FCTL.STEP runs one step of the frond and halts it again with SDONE set. -/
  | debugStep (f : Nat) (v : W32)
  /-- DBG_TPKT_POP (R475): A read of DBG_TPKT0 with EFF = 1 moves the head packet of the debug FIFO into DBG_TPKT0 to 3. -/
  | dbgTpktPop (w : Who)
  /-- TRACE_SINK_WRITE (R477): The sink writer writes queued packets to the ring, stopping in FILL mode or on a write error. -/
  | traceSinkWrite (r : Nat) (x : Bool × List Meet)
  /-- TS_ENABLE (R476): A holder's write of TS_CTL.EN = 1 starts the trace sink, or is refused with CFGERR set. -/
  | tsEnable (w : Who) (r : Nat) (v : W32)
  /-- PWR_SLEEP (R500): PWR_CTL.CMD = SLEEP puts the region in ENTER toward SLEEP, or is refused. -/
  | pwrSleep (w : Who) (r : Nat) (v : W32)
  /-- PWR_OFF (R500): PWR_CTL.CMD = OFF puts the region in ENTER toward OFF, or is refused. -/
  | pwrOff (w : Who) (r : Nat) (v : W32)
  /-- PWR_WAKE (R501): PWR_CTL.CMD = WAKE is a wake event for the region. -/
  | pwrWake (w : Who) (r : Nat) (v : W32)
  /-- ENTER_CONDITIONS_MET (R500): The region's units are idle, it takes its links down and awaits its outstanding host-port requests. -/
  | enterConditionsMet (r : Nat)
  /-- ENTER_TIMEOUT (R500): 1,000 ticks pass without the conditions or the drain and the request is refused with REF set. -/
  | enterTimeout (r : Nat)
  /-- SLEEP_COMMIT (R500): Ten ticks after the drain, the region saves its state, switches VDD off, lowers pwr_req and enters SLEEP or OFF. -/
  | sleepCommit (r : Nat)
  /-- WAKE_START (R503): A wake event for a region in SLEEP or OFF starts a wake, raising pwr_req. -/
  | wakeStart (r : Nat)
  /-- PWR_ACK_RISE (R503): pwr_ack is seen high and VDD ramps, followed by the array power-up and clear when waking from OFF. -/
  | pwrAckRise (r : Nat)
  /-- PWR_ACK_FALL (R499): pwr_ack is seen low, letting the macro raise pwr_req again later. -/
  | pwrAckFall (r : Nat)
  /-- WAKE_COMPLETE (R503): The region reaches RUN, sets WDONE and delivers the wake event. -/
  | wakeComplete (r : Nat)
  /-- POWERUP_CLEAR_DONE (R64): The clear of every mat and cushion word ends and the region accepts accesses. -/
  | powerupClearDone (r : Nat)
  /-- WAKE_ACK_TIMEOUT (R504): No pwr_ack by tick 10,000 abandons the wake and sets HSTMO. -/
  | wakeAckTimeout (r : Nat)
  /-- IDLE_ENTRY (R502): After IDLEDLY × 16 idle CK_S cycles with AUTOIDLE set, the region gates its clocks and enters IDLE. -/
  | idleEntry (r : Nat)
  /-- IDLE_EXIT (R502): A demand on an idle region restarts its clocks in 8 CK_M cycles and returns it to RUN. -/
  | idleExit (r : Nat)
  /-- SENSOR_SAMPLE (R527): Every 10,000 CK_A ticks each sensor is sampled into WR_SENS. -/
  | sensorSample (r : Nat) (v : W32)
  /-- LANE_SYNC_ACQUIRED (R204): A lane's delineation passes from HUNT to PRESYNC on a window whose HCRC checks, and from PRESYNC to SYNC after 7 successive good boundaries, from which point its frames are processed. -/
  | laneSyncAcquired (l : Nat)
  /-- STARTUP_POWER_HANDSHAKE_TIMEOUT (R442): During a start, a region's pwr_ack is not seen within 100 µs of pwr_req and the start fails with code 0x22 in step 2 or 0x31 in step 3. -/
  | startupPowerHandshakeTimeout (r : Nat)
  /-- TB_WRAP (R473): TB[47:0] wraps to zero and every frond with trace enabled emits a SYNC packet. -/
  | tbWrap
deriving DecidableEq, Repr

end Sys2Proof
end

