-- ==== Sys2Proof/Decode.lean ====
section
/-!
DEFINITION. The command that a word spells. The table of operations and events gives no row any bits, so no word spells a command: commands come from the
world outside with their operands.
-/
namespace Sys2Proof

/-- The command that a word of `nbits` bits spells by the bits of the table: none, since no row has any. -/
def decodeTableWord (_nbits _w : Nat) : Option Instr := none

end Sys2Proof
end

