-- ==== Sys2Proof/Config.lean ====
section
/-!
DEFINITION. What the specification leaves to the implementation or calls undefined, as constants with no body: nothing can be proved of
their values, so a statement that mentions one holds whatever it is.
-/
namespace Sys2Proof.Config

/-- The free values: the value of each use of an undefined or unstated 64-bit result, numbered by the counter `free` of the state (R7). -/
opaque freeValue : Nat → BitVec 64

/-- The vendor's ROM words by control-store address, 0x0000 to 0x7FFF (R289); the specification does not list them. -/
opaque romWord : Nat → BitVec 256

/-- The fixed attributes of an unpublished ROM word, in the layout of CS_ATTR (R292); the published entries admit both worlds at either level. -/
opaque romAttr : Nat → BitVec 3

/-- SHA-384 of a byte string (R405, R439), 48 bytes. -/
opaque sha384 : List (BitVec 8) → List (BitVec 8)

/-- ECDSA verification on P-384 (R407, R439, R456): key, digest and signature bytes. -/
opaque ecdsaVerify : List (BitVec 8) → List (BitVec 8) → List (BitVec 8) → Bool

/-- Whether 96 bytes are a valid P-384 public key (R401). -/
opaque p384Valid : List (BitVec 8) → Bool

/-- The Breley root public key held in ROM (R438), 97 bytes; the specification does not print it. -/
opaque rootKey : List (BitVec 8)

/-- The reciprocal estimates of R133, by format (FP64?) and significand: the table is fixed, and its entries are not printed. -/
opaque rcpEst : Bool → Nat → Nat

/-- Symbols of the test patterns PRBS13Q, PRBS31Q and SSPRQ, which IEEE Std 802.3 defines (R226): the specification does not print them. -/
opaque testPattern : Nat → Nat → Nat

/-- Cycles of a host port's clock in one CK_A tick: the licensee supplies it at 100 MHz to 2 GHz (R229). -/
opaque hckTick : Nat → Nat

/-- The temperature factor AF of R529 for a temperature in units of 0.0625 °C, in units of 2^-32: the specification gives a real exponential and no rounding. -/
opaque lifeFactor : Nat → Nat

end Sys2Proof.Config
end

