-- ==== Sys2Proof/Machine/Registers.lean ====
section
/-!
DEFINITION. The register file's names: one definition per register of the specification (its privileged local
offset, as a function of the indices of its block), one per field (its lowest bit and its width), and the table of what a plain write sets,
a read clears and reset leaves (R8, R10, R515). Unlisted bits are reserved (R10).
-/
namespace Sys2Proof.Machine

/-- SYS_IDENT (R2). -/
def SYS_IDENT : Nat := 0x20000000
def SYS_IDENT_MAGIC : Fld := ⟨16, 16⟩
def SYS_IDENT_MAJOR : Fld := ⟨8, 8⟩
def SYS_IDENT_MINOR : Fld := ⟨4, 4⟩
def SYS_IDENT_PATCH : Fld := ⟨0, 4⟩
/-- SYS_CONFIG (R3). -/
def SYS_CONFIG : Nat := 0x20000004
def SYS_CONFIG_MAT_MIB : Fld := ⟨16, 8⟩
def SYS_CONFIG_CHAINS : Fld := ⟨8, 8⟩
def SYS_CONFIG_LASEF : Fld := ⟨3, 1⟩
def SYS_CONFIG_REGIONS : Fld := ⟨0, 3⟩
/-- SYS_BEAT (R12). -/
def SYS_BEAT : Nat := 0x20000008
def SYS_BEAT_COUNT : Fld := ⟨0, 32⟩
/-- SYS_BEATST (R17). -/
def SYS_BEATST : Nat := 0x2000000C
def SYS_BEATST_OVR : Fld := ⟨8, 8⟩
def SYS_BEATST_TASK : Fld := ⟨0, 1⟩
/-- SYS_LOCK (R347/R348). -/
def SYS_LOCK : Nat := 0x20000010
def SYS_LOCK_FATAL : Fld := ⟨8, 1⟩
def SYS_LOCK_LOCK : Fld := ⟨0, 8⟩
/-- MAT_CTL (R51/R52). -/
def MAT_CTL (r : Nat) : Nat := 0x20100000 + 0x10000 * r
def MAT_CTL_SVC_REPAIR : Fld := ⟨7, 1⟩
def MAT_CTL_COLL_IE : Fld := ⟨6, 1⟩
def MAT_CTL_PROT_IE : Fld := ⟨5, 1⟩
def MAT_CTL_PERR_IE : Fld := ⟨4, 1⟩
def MAT_CTL_SUSP_THR : Fld := ⟨0, 4⟩
/-- MAT_STAT (R51/R52). -/
def MAT_STAT (r : Nat) : Nat := 0x20100000 + 0x10000 * r + 0x4
def MAT_STAT_SUSPOVF : Fld := ⟨8, 1⟩
def MAT_STAT_CLAIM : Fld := ⟨7, 1⟩
def MAT_STAT_WMERGE : Fld := ⟨6, 1⟩
def MAT_STAT_RPLOVF : Fld := ⟨5, 1⟩
def MAT_STAT_NOSPARE : Fld := ⟨4, 1⟩
def MAT_STAT_SUSP : Fld := ⟨3, 1⟩
def MAT_STAT_COLL : Fld := ⟨2, 1⟩
def MAT_STAT_PROT : Fld := ⟨1, 1⟩
def MAT_STAT_PERR : Fld := ⟨0, 1⟩
/-- MAT_PERR_ADDR (R51/R52). -/
def MAT_PERR_ADDR (r : Nat) : Nat := 0x20100000 + 0x10000 * r + 0x8
def MAT_PERR_ADDR_ADDR : Fld := ⟨0, 29⟩
/-- MAT_PERR_INFO (R51/R52). -/
def MAT_PERR_INFO (r : Nat) : Nat := 0x20100000 + 0x10000 * r + 0xC
def MAT_PERR_INFO_VALID : Fld := ⟨31, 1⟩
def MAT_PERR_INFO_CUSH : Fld := ⟨30, 1⟩
def MAT_PERR_INFO_PORTB : Fld := ⟨29, 1⟩
def MAT_PERR_INFO_CLASS : Fld := ⟨28, 1⟩
def MAT_PERR_INFO_MASTER : Fld := ⟨16, 8⟩
def MAT_PERR_INFO_COUNT : Fld := ⟨0, 8⟩
/-- MAT_ERRCNT (R51/R52). -/
def MAT_ERRCNT (r : Nat) : Nat := 0x20100000 + 0x10000 * r + 0x10
def MAT_ERRCNT_RETRY : Fld := ⟨16, 16⟩
def MAT_ERRCNT_UNCOR : Fld := ⟨0, 16⟩
/-- MAT_ERRCNT_LAST (R14). -/
def MAT_ERRCNT_LAST (r : Nat) : Nat := 0x20100000 + 0x10000 * r + 0x14
def MAT_ERRCNT_LAST_RETRY : Fld := ⟨16, 16⟩
def MAT_ERRCNT_LAST_UNCOR : Fld := ⟨0, 16⟩
/-- PROT_ADDR (R58). -/
def PROT_ADDR (r : Nat) : Nat := 0x20100000 + 0x10000 * r + 0x18
def PROT_ADDR_ADDR : Fld := ⟨0, 29⟩
/-- PROT_INFO (R58). -/
def PROT_INFO (r : Nat) : Nat := 0x20100000 + 0x10000 * r + 0x1C
def PROT_INFO_VALID : Fld := ⟨31, 1⟩
def PROT_INFO_WRITE : Fld := ⟨30, 1⟩
def PROT_INFO_CAUSE : Fld := ⟨28, 2⟩
def PROT_INFO_MASTER : Fld := ⟨24, 4⟩
def PROT_INFO_COUNT : Fld := ⟨0, 8⟩
/-- CSH_COLL_ADDR (R55). -/
def CSH_COLL_ADDR (r : Nat) : Nat := 0x20100000 + 0x10000 * r + 0x20
def CSH_COLL_ADDR_ADDR : Fld := ⟨0, 29⟩
/-- CSH_COLL_INFO (R55). -/
def CSH_COLL_INFO (r : Nat) : Nat := 0x20100000 + 0x10000 * r + 0x24
def CSH_COLL_INFO_VALID : Fld := ⟨31, 1⟩
def CSH_COLL_INFO_BUSY : Fld := ⟨29, 2⟩
def CSH_COLL_INFO_AREAD : Fld := ⟨28, 1⟩
def CSH_COLL_INFO_AMASTER : Fld := ⟨20, 8⟩
def CSH_COLL_INFO_BPORT : Fld := ⟨16, 4⟩
def CSH_COLL_INFO_COUNT : Fld := ⟨0, 8⟩
/-- MAT_SUSP (R70). -/
def MAT_SUSP (r : Nat) : Nat := 0x20100000 + 0x10000 * r + 0x28
def MAT_SUSP_VALID : Fld := ⟨31, 1⟩
def MAT_SUSP_CUSH : Fld := ⟨30, 1⟩
def MAT_SUSP_BANK : Fld := ⟨0, 10⟩
/-- MCH_CTL (R69). -/
def MCH_CTL (r : Nat) : Nat := 0x20100000 + 0x10000 * r + 0x40
def MCH_CTL_GLAST : Fld := ⟨16, 5⟩
def MCH_CTL_GFIRST : Fld := ⟨8, 5⟩
def MCH_CTL_TARGET : Fld := ⟨7, 1⟩
def MCH_CTL_REPAIR : Fld := ⟨6, 1⟩
def MCH_CTL_BKG : Fld := ⟨4, 2⟩
def MCH_CTL_MODE : Fld := ⟨2, 2⟩
def MCH_CTL_ABORT : Fld := ⟨1, 1⟩
def MCH_CTL_START : Fld := ⟨0, 1⟩
/-- MCH_STAT (R69). -/
def MCH_STAT (r : Nat) : Nat := 0x20100000 + 0x10000 * r + 0x44
def MCH_STAT_FAILS : Fld := ⟨16, 16⟩
def MCH_STAT_GROUP : Fld := ⟨8, 5⟩
def MCH_STAT_ABORTED : Fld := ⟨4, 1⟩
def MCH_STAT_REFUSE : Fld := ⟨3, 1⟩
def MCH_STAT_FAIL : Fld := ⟨2, 1⟩
def MCH_STAT_DONE : Fld := ⟨1, 1⟩
def MCH_STAT_BUSY : Fld := ⟨0, 1⟩
/-- MCH_FAIL (R69). -/
def MCH_FAIL (r : Nat) : Nat := 0x20100000 + 0x10000 * r + 0x48
def MCH_FAIL_VALID : Fld := ⟨31, 1⟩
def MCH_FAIL_CUSH : Fld := ⟨30, 1⟩
def MCH_FAIL_BANK : Fld := ⟨20, 10⟩
def MCH_FAIL_PROW : Fld := ⟨10, 10⟩
def MCH_FAIL_WORD : Fld := ⟨7, 3⟩
def MCH_FAIL_BIT : Fld := ⟨0, 7⟩
/-- MCH_TGT (R69). -/
def MCH_TGT (r : Nat) : Nat := 0x20100000 + 0x10000 * r + 0x4C
def MCH_TGT_CUSH : Fld := ⟨16, 1⟩
def MCH_TGT_BANK : Fld := ⟨0, 10⟩
/-- RPL_STAT (R74). -/
def RPL_STAT (r : Nat) : Nat := 0x20100000 + 0x10000 * r + 0x50
def RPL_STAT_COUNT : Fld := ⟨0, 7⟩
/-- RPL_DATA (R74). -/
def RPL_DATA (r : Nat) : Nat := 0x20100000 + 0x10000 * r + 0x54
def RPL_DATA_VALID : Fld := ⟨31, 1⟩
def RPL_DATA_CUSH : Fld := ⟨30, 1⟩
def RPL_DATA_BANK : Fld := ⟨20, 10⟩
def RPL_DATA_PROW : Fld := ⟨11, 9⟩
def RPL_DATA_SPARE : Fld := ⟨9, 2⟩
def RPL_DATA_SRC : Fld := ⟨6, 3⟩
/-- RMAP_SEL (R71). -/
def RMAP_SEL (r : Nat) : Nat := 0x20100000 + 0x10000 * r + 0x58
def RMAP_SEL_CUSH : Fld := ⟨16, 1⟩
def RMAP_SEL_BANK : Fld := ⟨0, 10⟩
/-- RMAP_DATA0 (R71). -/
def RMAP_DATA0 (r : Nat) : Nat := 0x20100000 + 0x10000 * r + 0x5C
def RMAP_DATA0_USED1 : Fld := ⟨31, 1⟩
def RMAP_DATA0_BAD1 : Fld := ⟨30, 1⟩
def RMAP_DATA0_PROW1 : Fld := ⟨16, 9⟩
def RMAP_DATA0_USED0 : Fld := ⟨15, 1⟩
def RMAP_DATA0_BAD0 : Fld := ⟨14, 1⟩
def RMAP_DATA0_PROW0 : Fld := ⟨0, 9⟩
/-- RMAP_DATA1 (R71). -/
def RMAP_DATA1 (r : Nat) : Nat := 0x20100000 + 0x10000 * r + 0x60
def RMAP_DATA1_USED1 : Fld := ⟨31, 1⟩
def RMAP_DATA1_BAD1 : Fld := ⟨30, 1⟩
def RMAP_DATA1_PROW1 : Fld := ⟨16, 9⟩
def RMAP_DATA1_USED0 : Fld := ⟨15, 1⟩
def RMAP_DATA1_BAD0 : Fld := ⟨14, 1⟩
def RMAP_DATA1_PROW0 : Fld := ⟨0, 9⟩
/-- CSH_WCLAIM (R61). -/
def CSH_WCLAIM (r n : Nat) : Nat := 0x20100000 + 0x10000 * r + 0x100 + 0x10 * n
def CSH_WCLAIM_HELD : Fld := ⟨31, 1⟩
def CSH_WCLAIM_REL : Fld := ⟨30, 1⟩
def CSH_WCLAIM_REQ : Fld := ⟨29, 1⟩
def CSH_WCLAIM_FEATURE : Fld := ⟨16, 8⟩
def CSH_WCLAIM_WORLD : Fld := ⟨12, 1⟩
def CSH_WCLAIM_AGENT : Fld := ⟨8, 4⟩
def CSH_WCLAIM_GEN : Fld := ⟨0, 8⟩
/-- CSH_WIN (R61). -/
def CSH_WIN (r n : Nat) : Nat := 0x20100000 + 0x10000 * r + 0x104 + 0x10 * n
def CSH_WIN_LAST : Fld := ⟨8, 8⟩
def CSH_WIN_FIRST : Fld := ⟨0, 8⟩
/-- RWIN_LO (R60). -/
def RWIN_LO (r m n : Nat) : Nat := 0x20100000 + 0x10000 * r + 0x400 + 0x40 * m + 8 * n
def RWIN_LO_EN : Fld := ⟨31, 1⟩
def RWIN_LO_RD : Fld := ⟨30, 1⟩
def RWIN_LO_WR : Fld := ⟨29, 1⟩
def RWIN_LO_BASE : Fld := ⟨0, 17⟩
/-- RWIN_HI (R60). -/
def RWIN_HI (r m n : Nat) : Nat := 0x20100000 + 0x10000 * r + 0x404 + 0x40 * m + 8 * n
def RWIN_HI_LIMIT : Fld := ⟨0, 17⟩
/-- CHN_CTL (R108). -/
def CHN_CTL (r c : Nat) : Nat := 0x20200000 + 0x10000 * r + 0x400 * c
def CHN_CTL_ERR_IE : Fld := ⟨7, 1⟩
def CHN_CTL_TREF_IE : Fld := ⟨6, 1⟩
def CHN_CTL_ABORT : Fld := ⟨1, 1⟩
def CHN_CTL_STOP : Fld := ⟨0, 1⟩
/-- CHN_STAT (R78). -/
def CHN_STAT (r c : Nat) : Nat := 0x20200000 + 0x10000 * r + 0x400 * c + 0x4
def CHN_STAT_STATE : Fld := ⟨28, 4⟩
def CHN_STAT_PEND : Fld := ⟨27, 1⟩
def CHN_STAT_GRP : Fld := ⟨26, 1⟩
def CHN_STAT_SINK : Fld := ⟨25, 1⟩
def CHN_STAT_HELD : Fld := ⟨24, 1⟩
def CHN_STAT_LAST : Fld := ⟨16, 6⟩
def CHN_STAT_TREF : Fld := ⟨7, 1⟩
def CHN_STAT_DFERR : Fld := ⟨6, 1⟩
def CHN_STAT_ENDED : Fld := ⟨0, 1⟩
/-- CHN_DESC_LO (R76). -/
def CHN_DESC_LO (r c : Nat) : Nat := 0x20200000 + 0x10000 * r + 0x400 * c + 0x8
def CHN_DESC_LO_PA : Fld := ⟨6, 26⟩
/-- CHN_DESC_HI (R76). -/
def CHN_DESC_HI (r c : Nat) : Nat := 0x20200000 + 0x10000 * r + 0x400 * c + 0xC
def CHN_DESC_HI_PA : Fld := ⟨0, 21⟩
/-- CHN_IDX (R94). -/
def CHN_IDX (r c : Nat) : Nat := 0x20200000 + 0x10000 * r + 0x400 * c + 0x10
def CHN_IDX_IDX : Fld := ⟨0, 32⟩
/-- CHN_CTX (R82). -/
def CHN_CTX (r c : Nat) : Nat := 0x20200000 + 0x10000 * r + 0x400 * c + 0x14
def CHN_CTX_QUEUE : Fld := ⟨16, 10⟩
def CHN_CTX_EPOCH : Fld := ⟨12, 4⟩
def CHN_CTX_CTX : Fld := ⟨0, 12⟩
/-- CHN_FLAGS (R104/R119). -/
def CHN_FLAGS (r c : Nat) : Nat := 0x20200000 + 0x10000 * r + 0x400 * c + 0x18
def CHN_FLAGS_AL : Fld := ⟨7, 1⟩
def CHN_FLAGS_PS : Fld := ⟨6, 1⟩
def CHN_FLAGS_FLG : Fld := ⟨0, 5⟩
/-- CHN_ALOSS (R104). -/
def CHN_ALOSS (r c : Nat) : Nat := 0x20200000 + 0x10000 * r + 0x400 * c + 0x1C
def CHN_ALOSS_COUNT : Fld := ⟨0, 32⟩
/-- CHN_ERR (R109). -/
def CHN_ERR (r c : Nat) : Nat := 0x20200000 + 0x10000 * r + 0x400 * c + 0x20
def CHN_ERR_VALID : Fld := ⟨31, 1⟩
def CHN_ERR_STREAM : Fld := ⟨28, 3⟩
def CHN_ERR_STATUS : Fld := ⟨22, 6⟩
def CHN_ERR_SUB : Fld := ⟨17, 5⟩
/-- CHN_ERRVA_LO (R109). -/
def CHN_ERRVA_LO (r c : Nat) : Nat := 0x20200000 + 0x10000 * r + 0x400 * c + 0x24
def CHN_ERRVA_LO_VA : Fld := ⟨0, 32⟩
/-- CHN_ERRVA_HI (R109). -/
def CHN_ERRVA_HI (r c : Nat) : Nat := 0x20200000 + 0x10000 * r + 0x400 * c + 0x28
def CHN_ERRVA_HI_VA : Fld := ⟨0, 21⟩
/-- CHN_GROUP (R99). -/
def CHN_GROUP (r c : Nat) : Nat := 0x20200000 + 0x10000 * r + 0x400 * c + 0x2C
def CHN_GROUP_UPA : Fld := ⟨21, 3⟩
def CHN_GROUP_UPA_V : Fld := ⟨20, 1⟩
def CHN_GROUP_UPB : Fld := ⟨17, 3⟩
def CHN_GROUP_UPB_V : Fld := ⟨16, 1⟩
def CHN_GROUP_DOWN : Fld := ⟨13, 3⟩
def CHN_GROUP_DOWN_V : Fld := ⟨12, 1⟩
def CHN_GROUP_DOWN_OPB : Fld := ⟨11, 1⟩
/-- CHN_ELEMS (R14). -/
def CHN_ELEMS (r c : Nat) : Nat := 0x20200000 + 0x10000 * r + 0x400 * c + 0x30
def CHN_ELEMS_COUNT : Fld := ⟨0, 32⟩
/-- CHN_ELEMS_LAST (R14). -/
def CHN_ELEMS_LAST (r c : Nat) : Nat := 0x20200000 + 0x10000 * r + 0x400 * c + 0x34
def CHN_ELEMS_LAST_COUNT : Fld := ⟨0, 32⟩
/-- CHN_STALL (R14). -/
def CHN_STALL (r c : Nat) : Nat := 0x20200000 + 0x10000 * r + 0x400 * c + 0x38
def CHN_STALL_IN : Fld := ⟨16, 16⟩
def CHN_STALL_OUT : Fld := ⟨0, 16⟩
/-- CHN_STALL_LAST (R14). -/
def CHN_STALL_LAST (r c : Nat) : Nat := 0x20200000 + 0x10000 * r + 0x400 * c + 0x3C
def CHN_STALL_LAST_IN : Fld := ⟨16, 16⟩
def CHN_STALL_LAST_OUT : Fld := ⟨0, 16⟩
/-- CXE_CTL (R164/R166). -/
def CXE_CTL (n : Nat) : Nat := 0x20400000 + 0x40000 * (n / 1024) + 0x40 * (n % 1024)
def CXE_CTL_V : Fld := ⟨31, 1⟩
def CXE_CTL_WORLD : Fld := ⟨30, 1⟩
def CXE_CTL_AGENT : Fld := ⟨29, 1⟩
def CXE_CTL_STATE : Fld := ⟨24, 4⟩
def CXE_CTL_ALG : Fld := ⟨20, 4⟩
def CXE_CTL_FROND : Fld := ⟨16, 1⟩
def CXE_CTL_ASID : Fld := ⟨0, 12⟩
/-- CXE_MEMB (R164/R166). -/
def CXE_MEMB (n : Nat) : Nat := 0x20400000 + 0x40000 * (n / 1024) + 0x40 * (n % 1024) + 0x4
def CXE_MEMB_NPART : Fld := ⟨21, 11⟩
def CXE_MEMB_RANK : Fld := ⟨0, 10⟩
/-- CXE_OPT (R164/R166). -/
def CXE_OPT (n : Nat) : Nat := 0x20400000 + 0x40000 * (n / 1024) + 0x40 * (n % 1024) + 0x8
def CXE_OPT_TRAPEN : Fld := ⟨27, 5⟩
def CXE_OPT_TMO_STEP : Fld := ⟨16, 8⟩
def CXE_OPT_TMO_FENCE : Fld := ⟨8, 8⟩
def CXE_OPT_ALEAD : Fld := ⟨0, 7⟩
/-- CXE_PEER (R164/R166). -/
def CXE_PEER (n : Nat) : Nat := 0x20400000 + 0x40000 * (n / 1024) + 0x40 * (n % 1024) + 0xC
def CXE_PEER_PEERBASE : Fld := ⟨6, 23⟩
/-- CXE_BUF (R164/R166). -/
def CXE_BUF (n : Nat) : Nat := 0x20400000 + 0x40000 * (n / 1024) + 0x40 * (n % 1024) + 0x10
def CXE_BUF_BUFBASE : Fld := ⟨12, 17⟩
/-- CXE_BUFSZ (R164/R166). -/
def CXE_BUFSZ (n : Nat) : Nat := 0x20400000 + 0x40000 * (n / 1024) + 0x40 * (n % 1024) + 0x14
def CXE_BUFSZ_BUFSIZE : Fld := ⟨0, 16⟩
/-- CXE_AW (R164/R166). -/
def CXE_AW (n : Nat) : Nat := 0x20400000 + 0x40000 * (n / 1024) + 0x40 * (n % 1024) + 0x18
def CXE_AW_AWBASE : Fld := ⟨6, 23⟩
/-- CXE_AWBLK (R164/R166). -/
def CXE_AWBLK (n : Nat) : Nat := 0x20400000 + 0x40000 * (n / 1024) + 0x40 * (n % 1024) + 0x1C
def CXE_AWBLK_AWBLK : Fld := ⟨0, 24⟩
/-- CXE_XW (R164/R166). -/
def CXE_XW (n : Nat) : Nat := 0x20400000 + 0x40000 * (n / 1024) + 0x40 * (n % 1024) + 0x20
def CXE_XW_XBASE : Fld := ⟨12, 17⟩
/-- CXE_XWSZ (R164/R166). -/
def CXE_XWSZ (n : Nat) : Nat := 0x20400000 + 0x40000 * (n / 1024) + 0x40 * (n % 1024) + 0x24
def CXE_XWSZ_XSIZE : Fld := ⟨0, 16⟩
/-- CXE_ROLE_LO (R164/R166). -/
def CXE_ROLE_LO (n : Nat) : Nat := 0x20400000 + 0x40000 * (n / 1024) + 0x40 * (n % 1024) + 0x28
def CXE_ROLE_LO_ROLE : Fld := ⟨0, 32⟩
/-- CXE_ROLE_HI (R164/R166). -/
def CXE_ROLE_HI (n : Nat) : Nat := 0x20400000 + 0x40000 * (n / 1024) + 0x40 * (n % 1024) + 0x2C
def CXE_ROLE_HI_ROLE : Fld := ⟨0, 32⟩
/-- CXE_RUN (R164/R166). -/
def CXE_RUN (n : Nat) : Nat := 0x20400000 + 0x40000 * (n / 1024) + 0x40 * (n % 1024) + 0x30
def CXE_RUN_STEP : Fld := ⟨20, 12⟩
def CXE_RUN_OPID : Fld := ⟨0, 16⟩
/-- CXE_ARDY (R164/R166). -/
def CXE_ARDY (n : Nat) : Nat := 0x20400000 + 0x40000 * (n / 1024) + 0x40 * (n % 1024) + 0x34
def CXE_ARDY_ARDY : Fld := ⟨0, 24⟩
/-- CXE_LAST (R164/R166). -/
def CXE_LAST (n : Nat) : Nat := 0x20400000 + 0x40000 * (n / 1024) + 0x40 * (n % 1024) + 0x38
def CXE_LAST_STATUS : Fld := ⟨26, 6⟩
def CXE_LAST_EPOCH : Fld := ⟨22, 4⟩
def CXE_LAST_PEER : Fld := ⟨12, 10⟩
def CXE_LAST_STEP : Fld := ⟨0, 12⟩
/-- CXE_CNT (R164/R166). -/
def CXE_CNT (n : Nat) : Nat := 0x20400000 + 0x40000 * (n / 1024) + 0x40 * (n % 1024) + 0x3C
def CXE_CNT_ABORTS : Fld := ⟨16, 16⟩
def CXE_CNT_STRAY : Fld := ⟨0, 16⟩
/-- RLY_LO (R171). -/
def RLY_LO (r e : Nat) : Nat := 0x20410000 + 0x40000 * r + 8 * e
def RLY_LO_V : Fld := ⟨31, 1⟩
def RLY_LO_IN : Fld := ⟨24, 7⟩
def RLY_LO_CTX : Fld := ⟨0, 12⟩
/-- RLY_HI (R171). -/
def RLY_HI (r e : Nat) : Nat := 0x20410000 + 0x40000 * r + 8 * e + 0x4
def RLY_HI_OUT : Fld := ⟨0, 7⟩
/-- CX_SVC_CTL (R185). -/
def CX_SVC_CTL (r : Nat) : Nat := 0x20420000 + 0x40000 * r
def CX_SVC_CTL_HALT_IE : Fld := ⟨2, 1⟩
def CX_SVC_CTL_WREF_IE : Fld := ⟨1, 1⟩
/-- CX_SVC_STAT (R185). -/
def CX_SVC_STAT (r : Nat) : Nat := 0x20420000 + 0x40000 * r + 0x4
def CX_SVC_STAT_HCTX : Fld := ⟨16, 12⟩
def CX_SVC_STAT_PROTO : Fld := ⟨2, 1⟩
def CX_SVC_STAT_HALT : Fld := ⟨1, 1⟩
def CX_SVC_STAT_WREF : Fld := ⟨0, 1⟩
/-- CX_HALT (R185). -/
def CX_HALT (r : Nat) : Nat := 0x20420000 + 0x40000 * r + 0x8
def CX_HALT_CTX : Fld := ⟨0, 12⟩
/-- LN_CTL (R222). -/
def LN_CTL (l : Nat) : Nat := 0x20300000 + 0x10000 * (l / 32) + 0x40 * (l % 32)
def LN_CTL_LOOP : Fld := ⟨4, 2⟩
def LN_CTL_TXOFF : Fld := ⟨3, 1⟩
def LN_CTL_RETRAIN : Fld := ⟨2, 1⟩
/-- LN_STAT (R222). -/
def LN_STAT (l : Nat) : Nat := 0x20300000 + 0x10000 * (l / 32) + 0x40 * (l % 32) + 0x4
def LN_STAT_STATE : Fld := ⟨28, 4⟩
def LN_STAT_RATE : Fld := ⟨27, 1⟩
def LN_STAT_PRECODE : Fld := ⟨26, 1⟩
def LN_STAT_DLN : Fld := ⟨24, 2⟩
def LN_STAT_SKEW : Fld := ⟨16, 8⟩
def LN_STAT_EYE : Fld := ⟨8, 8⟩
def LN_STAT_RTRY : Fld := ⟨4, 4⟩
def LN_STAT_LOS : Fld := ⟨3, 1⟩
def LN_STAT_DLOSS : Fld := ⟨2, 1⟩
def LN_STAT_TFAIL : Fld := ⟨1, 1⟩
/-- LN_COR (R222). -/
def LN_COR (l : Nat) : Nat := 0x20300000 + 0x10000 * (l / 32) + 0x40 * (l % 32) + 0x8
def LN_COR_COR : Fld := ⟨0, 32⟩
/-- LN_COR_LAST (R222). -/
def LN_COR_LAST (l : Nat) : Nat := 0x20300000 + 0x10000 * (l / 32) + 0x40 * (l % 32) + 0xC
def LN_COR_LAST_COR : Fld := ⟨0, 32⟩
/-- LN_ERR (R222). -/
def LN_ERR (l : Nat) : Nat := 0x20300000 + 0x10000 * (l / 32) + 0x40 * (l % 32) + 0x10
def LN_ERR_UNCOR : Fld := ⟨16, 16⟩
def LN_ERR_CRCF : Fld := ⟨0, 16⟩
/-- LN_ERR_LAST (R222). -/
def LN_ERR_LAST (l : Nat) : Nat := 0x20300000 + 0x10000 * (l / 32) + 0x40 * (l % 32) + 0x14
def LN_ERR_LAST_UNCOR : Fld := ⟨16, 16⟩
def LN_ERR_LAST_CRCF : Fld := ⟨0, 16⟩
/-- LN_EYE (R222). -/
def LN_EYE (l : Nat) : Nat := 0x20300000 + 0x10000 * (l / 32) + 0x40 * (l % 32) + 0x18
def LN_EYE_LASTMIN : Fld := ⟨8, 8⟩
def LN_EYE_MIN : Fld := ⟨0, 8⟩
/-- LT_CLAIM (R226). -/
def LT_CLAIM (l : Nat) : Nat := 0x20300000 + 0x10000 * (l / 32) + 0x40 * (l % 32) + 0x20
def LT_CLAIM_HELD : Fld := ⟨31, 1⟩
def LT_CLAIM_REL : Fld := ⟨30, 1⟩
def LT_CLAIM_REQ : Fld := ⟨29, 1⟩
def LT_CLAIM_FEATURE : Fld := ⟨16, 8⟩
def LT_CLAIM_WORLD : Fld := ⟨12, 1⟩
def LT_CLAIM_AGENT : Fld := ⟨8, 4⟩
def LT_CLAIM_GEN : Fld := ⟨0, 8⟩
/-- LT_CTL (R226). -/
def LT_CTL (l : Nat) : Nat := 0x20300000 + 0x10000 * (l / 32) + 0x40 * (l % 32) + 0x24
def LT_CTL_DWELL : Fld := ⟨24, 8⟩
def LT_CTL_PHASE : Fld := ⟨18, 6⟩
def LT_CTL_LEVEL : Fld := ⟨12, 6⟩
def LT_CTL_EYESEL : Fld := ⟨10, 2⟩
def LT_CTL_PAT : Fld := ⟨5, 3⟩
def LT_CTL_GEN : Fld := ⟨4, 1⟩
def LT_CTL_CHK : Fld := ⟨3, 1⟩
def LT_CTL_SCAN : Fld := ⟨1, 1⟩
def LT_CTL_CLR : Fld := ⟨0, 1⟩
/-- LT_STAT (R226). -/
def LT_STAT (l : Nat) : Nat := 0x20300000 + 0x10000 * (l / 32) + 0x40 * (l % 32) + 0x28
def LT_STAT_CLAIM : Fld := ⟨3, 1⟩
def LT_STAT_SDONE : Fld := ⟨2, 1⟩
def LT_STAT_LOCK : Fld := ⟨1, 1⟩
def LT_STAT_BUSY : Fld := ⟨0, 1⟩
/-- LT_ERR (R226). -/
def LT_ERR (l : Nat) : Nat := 0x20300000 + 0x10000 * (l / 32) + 0x40 * (l % 32) + 0x2C
def LT_ERR_ERRS : Fld := ⟨0, 32⟩
/-- LT_SCAN (R226). -/
def LT_SCAN (l : Nat) : Nat := 0x20300000 + 0x10000 * (l / 32) + 0x40 * (l % 32) + 0x30
def LT_SCAN_ERRS : Fld := ⟨0, 32⟩
/-- LT_UI (R226). -/
def LT_UI (l : Nat) : Nat := 0x20300000 + 0x10000 * (l / 32) + 0x40 * (l % 32) + 0x34
def LT_UI_UI : Fld := ⟨0, 32⟩
/-- LK_CFG (R218). -/
def LK_CFG (l : Nat) : Nat := 0x20301000 + 0x10000 * (l / 32) + 0x40 * (l % 32)
def LK_CFG_EN : Fld := ⟨31, 1⟩
def LK_CFG_LOOP : Fld := ⟨30, 1⟩
def LK_CFG_FB100 : Fld := ⟨29, 1⟩
def LK_CFG_FBONLY : Fld := ⟨28, 1⟩
def LK_CFG_LANES : Fld := ⟨20, 4⟩
/-- LK_CTL (R219/R220). -/
def LK_CTL (l : Nat) : Nat := 0x20301000 + 0x10000 * (l / 32) + 0x40 * (l % 32) + 0x4
def LK_CTL_ST_IE : Fld := ⟨3, 1⟩
def LK_CTL_UP : Fld := ⟨2, 1⟩
def LK_CTL_DOWN : Fld := ⟨1, 1⟩
def LK_CTL_RETRAIN : Fld := ⟨0, 1⟩
/-- LK_STAT (R219/R220). -/
def LK_STAT (l : Nat) : Nat := 0x20301000 + 0x10000 * (l / 32) + 0x40 * (l % 32) + 0x8
def LK_STAT_STATE : Fld := ⟨28, 4⟩
def LK_STAT_TXACT : Fld := ⟨24, 4⟩
def LK_STAT_RXACT : Fld := ⟨20, 4⟩
def LK_STAT_TXEP : Fld := ⟨16, 4⟩
def LK_STAT_RXEP : Fld := ⟨12, 4⟩
def LK_STAT_RATE : Fld := ⟨11, 1⟩
def LK_STAT_LOOP : Fld := ⟨10, 1⟩
def LK_STAT_DCAUSE : Fld := ⟨7, 3⟩
def LK_STAT_CLAIM : Fld := ⟨6, 1⟩
def LK_STAT_PROTO : Fld := ⟨5, 1⟩
def LK_STAT_RPLX : Fld := ⟨4, 1⟩
def LK_STAT_WCHG : Fld := ⟨3, 1⟩
def LK_STAT_WENT_DOWN : Fld := ⟨2, 1⟩
def LK_STAT_INITF : Fld := ⟨1, 1⟩
/-- LK_TXSEQ (R219/R220). -/
def LK_TXSEQ (l : Nat) : Nat := 0x20301000 + 0x10000 * (l / 32) + 0x40 * (l % 32) + 0xC
def LK_TXSEQ_HELD : Fld := ⟨24, 7⟩
def LK_TXSEQ_NEXT : Fld := ⟨0, 20⟩
/-- LK_RXSEQ (R219/R220). -/
def LK_RXSEQ (l : Nat) : Nat := 0x20301000 + 0x10000 * (l / 32) + 0x40 * (l % 32) + 0x10
def LK_RXSEQ_NAKST : Fld := ⟨31, 1⟩
def LK_RXSEQ_EXP : Fld := ⟨0, 20⟩
/-- LK_CRED (R219/R220). -/
def LK_CRED (l : Nat) : Nat := 0x20301000 + 0x10000 * (l / 32) + 0x40 * (l % 32) + 0x14
def LK_CRED_TC3 : Fld := ⟨24, 8⟩
def LK_CRED_TC2 : Fld := ⟨16, 8⟩
def LK_CRED_TC1 : Fld := ⟨8, 8⟩
def LK_CRED_TC0 : Fld := ⟨0, 8⟩
/-- LK_CNT (R219/R220). -/
def LK_CNT (l : Nat) : Nat := 0x20301000 + 0x10000 * (l / 32) + 0x40 * (l % 32) + 0x18
def LK_CNT_RPL : Fld := ⟨16, 16⟩
def LK_CNT_NAK : Fld := ⟨0, 16⟩
/-- LK_CNT_LAST (R219/R220). -/
def LK_CNT_LAST (l : Nat) : Nat := 0x20301000 + 0x10000 * (l / 32) + 0x40 * (l % 32) + 0x1C
def LK_CNT_LAST_RPL : Fld := ⟨16, 16⟩
def LK_CNT_LAST_NAK : Fld := ⟨0, 16⟩
/-- LK_DROP (R219/R220). -/
def LK_DROP (l : Nat) : Nat := 0x20301000 + 0x10000 * (l / 32) + 0x40 * (l % 32) + 0x20
def LK_DROP_EPOCH : Fld := ⟨16, 16⟩
def LK_DROP_DUP : Fld := ⟨0, 16⟩
/-- LK_SNAK (R219/R220). -/
def LK_SNAK (l : Nat) : Nat := 0x20301000 + 0x10000 * (l / 32) + 0x40 * (l % 32) + 0x24
def LK_SNAK_SERVED : Fld := ⟨16, 16⟩
def LK_SNAK_REFUSED : Fld := ⟨0, 16⟩
/-- LK_PEER (R219/R220). -/
def LK_PEER (l : Nat) : Nat := 0x20301000 + 0x10000 * (l / 32) + 0x40 * (l % 32) + 0x28
def LK_PEER_VER : Fld := ⟨16, 16⟩
def LK_PEER_PLINK : Fld := ⟨8, 7⟩
def LK_PEER_PW : Fld := ⟨0, 3⟩
/-- LK_PEERID_LO (R219/R220). -/
def LK_PEERID_LO (l : Nat) : Nat := 0x20301000 + 0x10000 * (l / 32) + 0x40 * (l % 32) + 0x2C
def LK_PEERID_LO_ID : Fld := ⟨0, 32⟩
/-- LK_PEERID_HI (R219/R220). -/
def LK_PEERID_HI (l : Nat) : Nat := 0x20301000 + 0x10000 * (l / 32) + 0x40 * (l % 32) + 0x30
def LK_PEERID_HI_ID : Fld := ⟨0, 32⟩
/-- LNK_THR0 (R222/R219). -/
def LNK_THR0 (r : Nat) : Nat := 0x20302000 + 0x10000 * r
def LNK_THR0_COR_THR : Fld := ⟨16, 16⟩
def LNK_THR0_UNC_THR : Fld := ⟨8, 8⟩
def LNK_THR0_CRC_THR : Fld := ⟨0, 8⟩
/-- LNK_THR1 (R222/R219). -/
def LNK_THR1 (r : Nat) : Nat := 0x20302000 + 0x10000 * r + 0x4
def LNK_THR1_EYE_THR : Fld := ⟨24, 8⟩
def LNK_THR1_RPL_THR : Fld := ⟨16, 8⟩
def LNK_THR1_BADBEATS : Fld := ⟨12, 4⟩
def LNK_THR1_RETRAIN_MAX : Fld := ⟨8, 4⟩
def LNK_THR1_REPLAY_MAX : Fld := ⟨4, 4⟩
/-- LNK_TMR (R222/R219). -/
def LNK_TMR (r : Nat) : Nat := 0x20302000 + 0x10000 * r + 0x8
def LNK_TMR_RPL_TMO : Fld := ⟨24, 8⟩
def LNK_TMR_NAK_TMO : Fld := ⟨16, 8⟩
def LNK_TMR_TRAIN_MAX : Fld := ⟨8, 8⟩
def LNK_TMR_INIT_TMO : Fld := ⟨0, 8⟩
/-- LNK_NODE_LO (R222/R219). -/
def LNK_NODE_LO (r : Nat) : Nat := 0x20302000 + 0x10000 * r + 0xC
def LNK_NODE_LO_ID : Fld := ⟨0, 32⟩
/-- LNK_NODE_HI (R222/R219). -/
def LNK_NODE_HI (r : Nat) : Nat := 0x20302000 + 0x10000 * r + 0x10
def LNK_NODE_HI_ID : Fld := ⟨0, 32⟩
/-- SQ_CFG (R246). -/
def SQ_CFG (q : Nat) : Nat := 0x20500000 + 0x10000 * (q / 256) + 0x40 * (q % 256)
def SQ_CFG_EN : Fld := ⟨31, 1⟩
def SQ_CFG_WORLD : Fld := ⟨30, 1⟩
def SQ_CFG_BIND : Fld := ⟨28, 2⟩
def SQ_CFG_CHAIN : Fld := ⟨25, 3⟩
def SQ_CFG_PRI : Fld := ⟨23, 2⟩
def SQ_CFG_IE : Fld := ⟨22, 1⟩
def SQ_CFG_CQSZ : Fld := ⟨8, 4⟩
def SQ_CFG_SQSZ : Fld := ⟨4, 4⟩
/-- SQ_BASE_LO (R246). -/
def SQ_BASE_LO (q : Nat) : Nat := 0x20500000 + 0x10000 * (q / 256) + 0x40 * (q % 256) + 0x4
def SQ_BASE_LO_PA : Fld := ⟨6, 26⟩
/-- SQ_BASE_HI (R246). -/
def SQ_BASE_HI (q : Nat) : Nat := 0x20500000 + 0x10000 * (q / 256) + 0x40 * (q % 256) + 0x8
def SQ_BASE_HI_PA : Fld := ⟨0, 21⟩
/-- CQ_BASE_LO (R246). -/
def CQ_BASE_LO (q : Nat) : Nat := 0x20500000 + 0x10000 * (q / 256) + 0x40 * (q % 256) + 0xC
def CQ_BASE_LO_PA : Fld := ⟨5, 27⟩
/-- CQ_BASE_HI (R246). -/
def CQ_BASE_HI (q : Nat) : Nat := 0x20500000 + 0x10000 * (q / 256) + 0x40 * (q % 256) + 0x10
def CQ_BASE_HI_PA : Fld := ⟨0, 21⟩
/-- SQ_STAT (R246). -/
def SQ_STAT (q : Nat) : Nat := 0x20500000 + 0x10000 * (q / 256) + 0x40 * (q % 256) + 0x14
def SQ_STAT_STATE : Fld := ⟨28, 4⟩
def SQ_STAT_INFL : Fld := ⟨16, 12⟩
def SQ_STAT_CFGERR : Fld := ⟨3, 1⟩
def SQ_STAT_FETCHERR : Fld := ⟨2, 1⟩
def SQ_STAT_CQERR : Fld := ⟨1, 1⟩
def SQ_STAT_DBERR : Fld := ⟨0, 1⟩
/-- SQ_FETCH (R246). -/
def SQ_FETCH (q : Nat) : Nat := 0x20500000 + 0x10000 * (q / 256) + 0x40 * (q % 256) + 0x18
def SQ_FETCH_FETCH : Fld := ⟨0, 16⟩
/-- HP_CTL (R232-R243). -/
def HP_CTL (n : Nat) : Nat := 0x20600000 + 0x1000 * n
def HP_CTL_RTMO : Fld := ⟨8, 8⟩
def HP_CTL_PERR_IE : Fld := ⟨7, 1⟩
def HP_CTL_ERR_IE : Fld := ⟨6, 1⟩
def HP_CTL_ISEL : Fld := ⟨4, 2⟩
/-- HP_STAT (R232-R243). -/
def HP_STAT (n : Nat) : Nat := 0x20600000 + 0x1000 * n + 0x4
def HP_STAT_RTMO : Fld := ⟨5, 1⟩
def HP_STAT_CRDOVF : Fld := ⟨4, 1⟩
def HP_STAT_SREF : Fld := ⟨3, 1⟩
def HP_STAT_MERR : Fld := ⟨2, 1⟩
def HP_STAT_MPERR : Fld := ⟨1, 1⟩
def HP_STAT_SPERR : Fld := ⟨0, 1⟩
/-- HP_CRED (R232-R243). -/
def HP_CRED (n : Nat) : Nat := 0x20600000 + 0x1000 * n + 0x8
def HP_CRED_MREQ : Fld := ⟨21, 11⟩
def HP_CRED_MWD : Fld := ⟨10, 11⟩
/-- HP_OUT (R232-R243). -/
def HP_OUT (n : Nat) : Nat := 0x20600000 + 0x1000 * n + 0xC
def HP_OUT_MOUT : Fld := ⟨16, 11⟩
def HP_OUT_SOUT : Fld := ⟨0, 11⟩
/-- HP_ERR_ADDR_LO (R232-R243). -/
def HP_ERR_ADDR_LO (n : Nat) : Nat := 0x20600000 + 0x1000 * n + 0x10
def HP_ERR_ADDR_LO_ADDR : Fld := ⟨0, 32⟩
/-- HP_ERR_ADDR_HI (R232-R243). -/
def HP_ERR_ADDR_HI (n : Nat) : Nat := 0x20600000 + 0x1000 * n + 0x14
def HP_ERR_ADDR_HI_ADDR : Fld := ⟨0, 20⟩
/-- HP_ERR_INFO (R232-R243). -/
def HP_ERR_INFO (n : Nat) : Nat := 0x20600000 + 0x1000 * n + 0x18
def HP_ERR_INFO_VALID : Fld := ⟨31, 1⟩
def HP_ERR_INFO_SDIR : Fld := ⟨30, 1⟩
def HP_ERR_INFO_ST : Fld := ⟨28, 2⟩
def HP_ERR_INFO_OP : Fld := ⟨26, 2⟩
def HP_ERR_INFO_CLASS : Fld := ⟨23, 3⟩
def HP_ERR_INFO_TAG : Fld := ⟨0, 10⟩
/-- HP_BYTES (R232-R243). -/
def HP_BYTES (n : Nat) : Nat := 0x20600000 + 0x1000 * n + 0x1C
def HP_BYTES_OUT : Fld := ⟨16, 16⟩
def HP_BYTES_IN : Fld := ⟨0, 16⟩
/-- HP_BYTES_LAST (R232-R243). -/
def HP_BYTES_LAST (n : Nat) : Nat := 0x20600000 + 0x1000 * n + 0x20
def HP_BYTES_LAST_OUT : Fld := ⟨16, 16⟩
def HP_BYTES_LAST_IN : Fld := ⟨0, 16⟩
/-- HP_BUSYCNT (R232-R243). -/
def HP_BUSYCNT (n : Nat) : Nat := 0x20600000 + 0x1000 * n + 0x24
def HP_BUSYCNT_BUSY : Fld := ⟨0, 16⟩
/-- HP_BUSYCNT_LAST (R232-R243). -/
def HP_BUSYCNT_LAST (n : Nat) : Nat := 0x20600000 + 0x1000 * n + 0x28
def HP_BUSYCNT_LAST_BUSY : Fld := ⟨0, 16⟩
/-- XLT_CTL (R269/R278). -/
def XLT_CTL (r : Nat) : Nat := 0x20700000 + 0x10000 * r
def XLT_CTL_INV_IE : Fld := ⟨7, 1⟩
def XLT_CTL_FLT_IE : Fld := ⟨6, 1⟩
def XLT_CTL_LADEPTH : Fld := ⟨0, 5⟩
/-- XLT_STAT (R269/R278). -/
def XLT_STAT (r : Nat) : Nat := 0x20700000 + 0x10000 * r + 0x4
def XLT_STAT_MAINT : Fld := ⟨31, 1⟩
def XLT_STAT_WALKS : Fld := ⟨24, 5⟩
def XLT_STAT_INVQ : Fld := ⟨16, 4⟩
def XLT_STAT_INVBUSY : Fld := ⟨3, 1⟩
def XLT_STAT_INVREF : Fld := ⟨2, 1⟩
def XLT_STAT_INVDONE : Fld := ⟨1, 1⟩
def XLT_STAT_FLT : Fld := ⟨0, 1⟩
/-- XLT_KDIR_LO (R260). -/
def XLT_KDIR_LO (r : Nat) : Nat := 0x20700000 + 0x10000 * r + 0x8
def XLT_KDIR_LO_PA : Fld := ⟨15, 17⟩
def XLT_KDIR_LO_V : Fld := ⟨0, 1⟩
/-- XLT_KDIR_HI (R260). -/
def XLT_KDIR_HI (r : Nat) : Nat := 0x20700000 + 0x10000 * r + 0xC
def XLT_KDIR_HI_PA : Fld := ⟨0, 21⟩
/-- XLT_TDIR_LO (R260). -/
def XLT_TDIR_LO (r : Nat) : Nat := 0x20700000 + 0x10000 * r + 0x10
def XLT_TDIR_LO_PA : Fld := ⟨15, 17⟩
def XLT_TDIR_LO_V : Fld := ⟨0, 1⟩
/-- XLT_TDIR_HI (R260). -/
def XLT_TDIR_HI (r : Nat) : Nat := 0x20700000 + 0x10000 * r + 0x14
def XLT_TDIR_HI_PA : Fld := ⟨0, 21⟩
/-- XLT_INV_VA_LO (R269/R278). -/
def XLT_INV_VA_LO (r : Nat) : Nat := 0x20700000 + 0x10000 * r + 0x18
def XLT_INV_VA_LO_VA : Fld := ⟨12, 20⟩
/-- XLT_INV_VA_HI (R269/R278). -/
def XLT_INV_VA_HI (r : Nat) : Nat := 0x20700000 + 0x10000 * r + 0x1C
def XLT_INV_VA_HI_VA : Fld := ⟨0, 16⟩
/-- XLT_INV_CTL (R269/R278). -/
def XLT_INV_CTL (r : Nat) : Nat := 0x20700000 + 0x10000 * r + 0x20
def XLT_INV_CTL_GO : Fld := ⟨31, 1⟩
def XLT_INV_CTL_KIND : Fld := ⟨26, 2⟩
def XLT_INV_CTL_WORLD : Fld := ⟨25, 1⟩
def XLT_INV_CTL_ASID : Fld := ⟨0, 12⟩
/-- XLT_FLT_VA_LO (R269/R278). -/
def XLT_FLT_VA_LO (r : Nat) : Nat := 0x20700000 + 0x10000 * r + 0x24
def XLT_FLT_VA_LO_VA : Fld := ⟨0, 32⟩
/-- XLT_FLT_VA_HI (R269/R278). -/
def XLT_FLT_VA_HI (r : Nat) : Nat := 0x20700000 + 0x10000 * r + 0x28
def XLT_FLT_VA_HI_VA : Fld := ⟨0, 16⟩
/-- XLT_FLT_EA_LO (R269/R278). -/
def XLT_FLT_EA_LO (r : Nat) : Nat := 0x20700000 + 0x10000 * r + 0x2C
def XLT_FLT_EA_LO_PA : Fld := ⟨3, 29⟩
/-- XLT_FLT_EA_HI (R269/R278). -/
def XLT_FLT_EA_HI (r : Nat) : Nat := 0x20700000 + 0x10000 * r + 0x30
def XLT_FLT_EA_HI_PA : Fld := ⟨0, 21⟩
/-- XLT_FLT_INFO (R269/R278). -/
def XLT_FLT_INFO (r : Nat) : Nat := 0x20700000 + 0x10000 * r + 0x34
def XLT_FLT_INFO_VALID : Fld := ⟨31, 1⟩
def XLT_FLT_INFO_CLASS : Fld := ⟨28, 3⟩
def XLT_FLT_INFO_LEVEL : Fld := ⟨25, 3⟩
def XLT_FLT_INFO_MALF : Fld := ⟨24, 1⟩
def XLT_FLT_INFO_WRITE : Fld := ⟨23, 1⟩
def XLT_FLT_INFO_PROBE : Fld := ⟨22, 1⟩
def XLT_FLT_INFO_SRCID : Fld := ⟨19, 3⟩
def XLT_FLT_INFO_WORLD : Fld := ⟨12, 1⟩
def XLT_FLT_INFO_ASID : Fld := ⟨0, 12⟩
/-- XLT_CNT (R269/R278). -/
def XLT_CNT (r : Nat) : Nat := 0x20700000 + 0x10000 * r + 0x38
def XLT_CNT_WALKS : Fld := ⟨16, 16⟩
def XLT_CNT_MISS : Fld := ⟨0, 16⟩
/-- XLT_CNT_LAST (R269/R278). -/
def XLT_CNT_LAST (r : Nat) : Nat := 0x20700000 + 0x10000 * r + 0x3C
def XLT_CNT_LAST_WALKS : Fld := ⟨16, 16⟩
def XLT_CNT_LAST_MISS : Fld := ⟨0, 16⟩
/-- XLT_EVT (R269/R278). -/
def XLT_EVT (r : Nat) : Nat := 0x20700000 + 0x10000 * r + 0x40
def XLT_EVT_CASF : Fld := ⟨16, 16⟩
def XLT_EVT_LASE : Fld := ⟨0, 16⟩
/-- FRN_STAT (R293-R294). -/
def FRN_STAT (f : Nat) : Nat := 0x20800000 + 0x1000 * f
def FRN_STAT_STATE : Fld := ⟨28, 4⟩
def FRN_STAT_WORLD : Fld := ⟨27, 1⟩
def FRN_STAT_S : Fld := ⟨26, 1⟩
def FRN_STAT_RPI : Fld := ⟨25, 1⟩
def FRN_STAT_PBAR : Fld := ⟨24, 1⟩
def FRN_STAT_RASD : Fld := ⟨16, 5⟩
def FRN_STAT_PC : Fld := ⟨0, 16⟩
/-- FRN_FETCH (R293-R294). -/
def FRN_FETCH (f : Nat) : Nat := 0x20800000 + 0x1000 * f + 0x4
def FRN_FETCH_FETCH : Fld := ⟨0, 32⟩
/-- FRN_RETIRE (R293-R294). -/
def FRN_RETIRE (f : Nat) : Nat := 0x20800000 + 0x1000 * f + 0x8
def FRN_RETIRE_RETIRE : Fld := ⟨0, 32⟩
/-- FRN_PMHIT (R293-R294). -/
def FRN_PMHIT (f : Nat) : Nat := 0x20800000 + 0x1000 * f + 0xC
def FRN_PMHIT_PMHIT : Fld := ⟨0, 32⟩
/-- FRN_CSPERR (R293-R294). -/
def FRN_CSPERR (f : Nat) : Nat := 0x20800000 + 0x1000 * f + 0x10
def FRN_CSPERR_SPEC : Fld := ⟨16, 16⟩
def FRN_CSPERR_COR : Fld := ⟨0, 16⟩
/-- FRN_CLASH (R293-R294). -/
def FRN_CLASH (f : Nat) : Nat := 0x20800000 + 0x1000 * f + 0x14
def FRN_CLASH_CLASH : Fld := ⟨0, 16⟩
/-- FRN_CSERR (R293-R294). -/
def FRN_CSERR (f : Nat) : Nat := 0x20800000 + 0x1000 * f + 0x18
def FRN_CSERR_VALID : Fld := ⟨31, 1⟩
def FRN_CSERR_ADDR : Fld := ⟨0, 16⟩
/-- FRN_LOCK (R347). -/
def FRN_LOCK (f : Nat) : Nat := 0x20800000 + 0x1000 * f + 0x20
def FRN_LOCK_VALID : Fld := ⟨31, 1⟩
def FRN_LOCK_WHY : Fld := ⟨28, 3⟩
def FRN_LOCK_FAULT : Fld := ⟨22, 6⟩
def FRN_LOCK_PC : Fld := ⟨0, 16⟩
/-- FRN_LOCKST (R347). -/
def FRN_LOCKST (f : Nat) : Nat := 0x20800000 + 0x1000 * f + 0x24
def FRN_LOCKST_ST : Fld := ⟨0, 32⟩
/-- FRN_FCNT (R342). -/
def FRN_FCNT (f : Nat) : Nat := 0x20800000 + 0x1000 * f + 0x28
def FRN_FCNT_ESC : Fld := ⟨16, 16⟩
def FRN_FCNT_FAULTS : Fld := ⟨0, 16⟩
/-- FRN_LASTF (R342). -/
def FRN_LASTF (f : Nat) : Nat := 0x20800000 + 0x1000 * f + 0x2C
def FRN_LASTF_INDEX : Fld := ⟨26, 6⟩
def FRN_LASTF_ENT : Fld := ⟨24, 2⟩
def FRN_LASTF_PC : Fld := ⟨0, 16⟩
/-- CS_LOAD (R291). -/
def CS_LOAD (r : Nat) : Nat := 0x20900000 + 0x10000 * r
def CS_LOAD_VALID : Fld := ⟨31, 1⟩
def CS_LOAD_CUSTW : Fld := ⟨16, 14⟩
def CS_LOAD_PATCHW : Fld := ⟨0, 11⟩
/-- CS_MATCH (R293). -/
def CS_MATCH (r n : Nat) : Nat := 0x20900000 + 0x10000 * r + 0x100 + 4 * n
def CS_MATCH_V : Fld := ⟨31, 1⟩
def CS_MATCH_ROM : Fld := ⟨16, 15⟩
def CS_MATCH_PATCH : Fld := ⟨0, 10⟩
/-- CS_ATTR (R292). -/
def CS_ATTR (r b : Nat) : Nat := 0x20900000 + 0x10000 * r + 0x200 + 4 * b
def CS_ATTR_UONLY : Fld := ⟨2, 1⟩
def CS_ATTR_WLD : Fld := ⟨0, 2⟩
/-- IRQ_CTL (R366). -/
def IRQ_CTL : Nat := 0x20A00000
def IRQ_CTL_SPLIT : Fld := ⟨0, 3⟩
/-- IRQ_STAT (R366). -/
def IRQ_STAT : Nat := 0x20A00004
def IRQ_STAT_CLAIM : Fld := ⟨4, 1⟩
def IRQ_STAT_OUT : Fld := ⟨0, 4⟩
/-- IRQ_PEND (R357-R375). -/
def IRQ_PEND (g : Nat) : Nat := 0x20A00000 + 0x100 + 4 * g
def IRQ_PEND_PEND : Fld := ⟨0, 32⟩
/-- IRQ_EN (R357-R375). -/
def IRQ_EN (g : Nat) : Nat := 0x20A00000 + 0x140 + 4 * g
def IRQ_EN_EN : Fld := ⟨0, 32⟩
/-- IRQ_ACT (R357-R375). -/
def IRQ_ACT (g : Nat) : Nat := 0x20A00000 + 0x180 + 4 * g
def IRQ_ACT_ACT : Fld := ⟨0, 32⟩
/-- IRQ_DEFER (R357-R375). -/
def IRQ_DEFER (g : Nat) : Nat := 0x20A00000 + 0x1c0 + 4 * g
def IRQ_DEFER_DEFER : Fld := ⟨0, 32⟩
/-- IRQ_HOFF (R357-R375). -/
def IRQ_HOFF (g : Nat) : Nat := 0x20A00000 + 0x200 + 4 * g
def IRQ_HOFF_INT : Fld := ⟨0, 16⟩
/-- IRQ_GRPHOLD (R375). -/
def IRQ_GRPHOLD (g : Nat) : Nat := 0x20A00000 + 0x240 + 4 * g
def IRQ_GRPHOLD_HELD : Fld := ⟨31, 1⟩
def IRQ_GRPHOLD_REL : Fld := ⟨30, 1⟩
def IRQ_GRPHOLD_REQ : Fld := ⟨29, 1⟩
def IRQ_GRPHOLD_FEATURE : Fld := ⟨16, 8⟩
def IRQ_GRPHOLD_WORLD : Fld := ⟨12, 1⟩
def IRQ_GRPHOLD_AGENT : Fld := ⟨8, 4⟩
def IRQ_GRPHOLD_GEN : Fld := ⟨0, 8⟩
/-- IRQ_STK (R368). -/
def IRQ_STK (f e : Nat) : Nat := 0x20A00000 + 0x300 + 0x20 * f + 4 * e
def IRQ_STK_V1 : Fld := ⟨31, 1⟩
def IRQ_STK_PRI1 : Fld := ⟨25, 4⟩
def IRQ_STK_SRC1 : Fld := ⟨16, 9⟩
def IRQ_STK_V0 : Fld := ⟨15, 1⟩
def IRQ_STK_PRI0 : Fld := ⟨9, 4⟩
def IRQ_STK_SRC0 : Fld := ⟨0, 9⟩
/-- IRQ_STKD (R368). -/
def IRQ_STKD (f : Nat) : Nat := 0x20A00000 + 0x400 + 4 * f
def IRQ_STKD_DEPTH : Fld := ⟨0, 5⟩
/-- IRQ_SCLAIM (R359). -/
def IRQ_SCLAIM (s : Nat) : Nat := 0x20A00000 + 0x1000 + 0x10 * s
def IRQ_SCLAIM_HELD : Fld := ⟨31, 1⟩
def IRQ_SCLAIM_REL : Fld := ⟨30, 1⟩
def IRQ_SCLAIM_REQ : Fld := ⟨29, 1⟩
def IRQ_SCLAIM_FEATURE : Fld := ⟨16, 8⟩
def IRQ_SCLAIM_WORLD : Fld := ⟨12, 1⟩
def IRQ_SCLAIM_AGENT : Fld := ⟨8, 4⟩
def IRQ_SCLAIM_GEN : Fld := ⟨0, 8⟩
/-- IRQ_CFG (R361). -/
def IRQ_CFG (s : Nat) : Nat := 0x20A00000 + 0x1004 + 0x10 * s
def IRQ_CFG_ROUTE : Fld := ⟨31, 1⟩
def IRQ_CFG_OUT : Fld := ⟨28, 2⟩
def IRQ_CFG_FMASK : Fld := ⟨16, 8⟩
def IRQ_CFG_LVL : Fld := ⟨9, 1⟩
def IRQ_CFG_TRIG : Fld := ⟨8, 1⟩
def IRQ_CFG_PRI : Fld := ⟨0, 4⟩
/-- IRQ_VEC (R361). -/
def IRQ_VEC (s : Nat) : Nat := 0x20A00000 + 0x1008 + 0x10 * s
def IRQ_VEC_VEC : Fld := ⟨0, 16⟩
/-- IRQ_CNT (R357). -/
def IRQ_CNT (s : Nat) : Nat := 0x20A00000 + 0x100C + 0x10 * s
def IRQ_CNT_EVC : Fld := ⟨0, 4⟩
/-- TMR_CLAIM (R377-R390). -/
def TMR_CLAIM (c : Nat) : Nat := 0x20B00000 + 0x40 * c
def TMR_CLAIM_HELD : Fld := ⟨31, 1⟩
def TMR_CLAIM_REL : Fld := ⟨30, 1⟩
def TMR_CLAIM_REQ : Fld := ⟨29, 1⟩
def TMR_CLAIM_FEATURE : Fld := ⟨16, 8⟩
def TMR_CLAIM_WORLD : Fld := ⟨12, 1⟩
def TMR_CLAIM_AGENT : Fld := ⟨8, 4⟩
def TMR_CLAIM_GEN : Fld := ⟨0, 8⟩
/-- TMR_CTL (R377-R390). -/
def TMR_CTL (c : Nat) : Nat := 0x20B00000 + 0x40 * c + 0x4
def TMR_CTL_OS : Fld := ⟨31, 1⟩
def TMR_CTL_OMODE : Fld := ⟨29, 2⟩
def TMR_CTL_GLVL : Fld := ⟨28, 1⟩
def TMR_CTL_GSEL : Fld := ⟨22, 6⟩
def TMR_CTL_CAPSEL : Fld := ⟨15, 7⟩
/-- TMR_CMD (R377-R390). -/
def TMR_CMD (c : Nat) : Nat := 0x20B00000 + 0x40 * c + 0x8
def TMR_CMD_STOP : Fld := ⟨1, 1⟩
def TMR_CMD_START : Fld := ⟨0, 1⟩
/-- TMR_STAT (R377-R390). -/
def TMR_STAT (c : Nat) : Nat := 0x20B00000 + 0x40 * c + 0xC
def TMR_STAT_RUN : Fld := ⟨31, 1⟩
def TMR_STAT_OUT : Fld := ⟨30, 1⟩
def TMR_STAT_CLAIM : Fld := ⟨7, 1⟩
def TMR_STAT_WREF : Fld := ⟨6, 1⟩
def TMR_STAT_CFGERR : Fld := ⟨5, 1⟩
def TMR_STAT_TREF : Fld := ⟨4, 1⟩
def TMR_STAT_MOVOVF : Fld := ⟨3, 1⟩
def TMR_STAT_MERR : Fld := ⟨2, 1⟩
def TMR_STAT_CAPOVR : Fld := ⟨1, 1⟩
def TMR_STAT_CAPF : Fld := ⟨0, 1⟩
/-- TMR_CNT (R377-R390). -/
def TMR_CNT (c : Nat) : Nat := 0x20B00000 + 0x40 * c + 0x10
def TMR_CNT_CNT : Fld := ⟨0, 32⟩
/-- TMR_PER (R377-R390). -/
def TMR_PER (c : Nat) : Nat := 0x20B00000 + 0x40 * c + 0x14
def TMR_PER_PER : Fld := ⟨0, 32⟩
/-- TMR_PRE (R377-R390). -/
def TMR_PRE (c : Nat) : Nat := 0x20B00000 + 0x40 * c + 0x18
def TMR_PRE_PRE : Fld := ⟨0, 32⟩
/-- TMR_CMP (R377-R390). -/
def TMR_CMP (c : Nat) : Nat := 0x20B00000 + 0x40 * c + 0x1C
def TMR_CMP_CMP : Fld := ⟨0, 32⟩
/-- TMR_CAP (R377-R390). -/
def TMR_CAP (c : Nat) : Nat := 0x20B00000 + 0x40 * c + 0x20
def TMR_CAP_CAP : Fld := ⟨0, 32⟩
/-- TMR_ACT (R377-R390). -/
def TMR_ACT (c : Nat) : Nat := 0x20B00000 + 0x40 * c + 0x24
def TMR_ACT_MACT : Fld := ⟨28, 4⟩
def TMR_ACT_OACT : Fld := ⟨24, 4⟩
def TMR_ACT_MLOP : Fld := ⟨22, 2⟩
def TMR_ACT_MLCH : Fld := ⟨17, 5⟩
def TMR_ACT_OLOP : Fld := ⟨15, 2⟩
def TMR_ACT_OLCH : Fld := ⟨10, 5⟩
/-- TMR_ADR_LO (R377-R390). -/
def TMR_ADR_LO (c : Nat) : Nat := 0x20B00000 + 0x40 * c + 0x28
def TMR_ADR_LO_PA : Fld := ⟨3, 29⟩
/-- TMR_ADR_HI (R377-R390). -/
def TMR_ADR_HI (c : Nat) : Nat := 0x20B00000 + 0x40 * c + 0x2C
def TMR_ADR_HI_TGT : Fld := ⟨24, 5⟩
def TMR_ADR_HI_PA : Fld := ⟨0, 21⟩
/-- TMR_STG (R387/R391). -/
def TMR_STG : Nat := 0x20B00800
def TMR_STG_GO : Fld := ⟨31, 1⟩
def TMR_STG_N : Fld := ⟨8, 5⟩
def TMR_STG_FIRST : Fld := ⟨0, 5⟩
/-- STG_PER (R387/R391). -/
def STG_PER : Nat := 0x20B00804
def STG_PER_P : Fld := ⟨0, 32⟩
/-- TB_LO (R387/R391). -/
def TB_LO : Nat := 0x20B00900
def TB_LO_TB : Fld := ⟨0, 32⟩
/-- TB_HI (R387/R391). -/
def TB_HI : Nat := 0x20B00904
def TB_HI_TB : Fld := ⟨0, 32⟩
/-- TB_HI_SNAP (R387/R391). -/
def TB_HI_SNAP : Nat := 0x20B00908
def TB_HI_SNAP_SNAP : Fld := ⟨0, 32⟩
/-- WDT_CTL (R394). -/
def WDT_CTL : Nat := 0x20B00A00
def WDT_CTL_EN : Fld := ⟨31, 1⟩
def WDT_CTL_HSVC : Fld := ⟨30, 1⟩
def WDT_CTL_WIN : Fld := ⟨29, 1⟩
def WDT_CTL_WCH : Fld := ⟨27, 2⟩
/-- WDT_T1 (R394). -/
def WDT_T1 : Nat := 0x20B00A04
def WDT_T1_T1 : Fld := ⟨0, 32⟩
/-- WDT_T2 (R394). -/
def WDT_T2 : Nat := 0x20B00A08
def WDT_T2_T2 : Fld := ⟨0, 32⟩
/-- WDT_SVC (R394). -/
def WDT_SVC : Nat := 0x20B00A0C
def WDT_SVC_KEY : Fld := ⟨0, 32⟩
/-- WDT_STAT (R394). -/
def WDT_STAT : Nat := 0x20B00A10
def WDT_STAT_STAGE : Fld := ⟨30, 2⟩
def WDT_STAT_HALTL : Fld := ⟨29, 1⟩
def WDT_STAT_REQ : Fld := ⟨28, 1⟩
def WDT_STAT_CLAIM : Fld := ⟨7, 1⟩
def WDT_STAT_EARLY : Fld := ⟨6, 1⟩
def WDT_STAT_BADKEY : Fld := ⟨5, 1⟩
def WDT_STAT_S1 : Fld := ⟨4, 1⟩
def WDT_STAT_WDRST : Fld := ⟨3, 1⟩
/-- LCH_STAT (R403-R410). -/
def LCH_STAT : Nat := 0x20C00000
def LCH_STAT_STATE : Fld := ⟨28, 4⟩
def LCH_STAT_LAST : Fld := ⟨24, 4⟩
def LCH_STAT_ITEM : Fld := ⟨16, 8⟩
def LCH_STAT_DONE : Fld := ⟨2, 1⟩
def LCH_STAT_CFAIL : Fld := ⟨1, 1⟩
def LCH_STAT_PREF : Fld := ⟨0, 1⟩
/-- LCH_CMD (R403-R410). -/
def LCH_CMD : Nat := 0x20C00004
def LCH_CMD_WITHDRAW : Fld := ⟨1, 1⟩
def LCH_CMD_PROPOSE : Fld := ⟨0, 1⟩
/-- LCH_PITEM (R403-R410). -/
def LCH_PITEM : Nat := 0x20C00008
def LCH_PITEM_INDEX : Fld := ⟨16, 16⟩
def LCH_PITEM_ITEM : Fld := ⟨0, 8⟩
/-- LCH_PNONCE_LO (R405). -/
def LCH_PNONCE_LO : Nat := 0x20C0000C
def LCH_PNONCE_LO_NONCE : Fld := ⟨0, 32⟩
/-- LCH_PNONCE_HI (R405). -/
def LCH_PNONCE_HI : Nat := 0x20C00010
def LCH_PNONCE_HI_NONCE : Fld := ⟨0, 32⟩
/-- LCH_PSEQ (R403-R412). -/
def LCH_PSEQ : Nat := 0x20C00014
def LCH_PSEQ_PSEQ : Fld := ⟨0, 32⟩
/-- LCH_CTL (R403-R412). -/
def LCH_CTL : Nat := 0x20C00018
def LCH_CTL_IE : Fld := ⟨0, 1⟩
/-- LCH_CFAIL (R403-R412). -/
def LCH_CFAIL : Nat := 0x20C00020
def LCH_CFAIL_AGENT : Fld := ⟨8, 4⟩
def LCH_CFAIL_CODE : Fld := ⟨0, 4⟩
/-- LCH_MAINT (R403-R412). -/
def LCH_MAINT : Nat := 0x20C00024
def LCH_MAINT_BOOTX : Fld := ⟨3, 1⟩
def LCH_MAINT_RECOV : Fld := ⟨2, 1⟩
def LCH_MAINT_CONSENT : Fld := ⟨1, 1⟩
def LCH_MAINT_LOADER : Fld := ⟨0, 1⟩
/-- LCH_CNT (R403-R412). -/
def LCH_CNT : Nat := 0x20C00028
def LCH_CNT_CFAILS : Fld := ⟨16, 16⟩
def LCH_CNT_APPLIED : Fld := ⟨0, 16⟩
/-- LCH_PVAL (R405-R408). -/
def LCH_PVAL (k : Nat) : Nat := 0x20C00000 + 0x40 + 4 * k
def LCH_PVAL_VALUE : Fld := ⟨0, 32⟩
/-- LCH_SALT (R405-R408). -/
def LCH_SALT (k : Nat) : Nat := 0x20C00000 + 0x80 + 4 * k
def LCH_SALT_SALT : Fld := ⟨0, 32⟩
/-- LCH_DIG (R405-R408). -/
def LCH_DIG (k : Nat) : Nat := 0x20C00000 + 0xc0 + 4 * k
def LCH_DIG_DIG : Fld := ⟨0, 32⟩
/-- LCH_HDIG (R405-R408). -/
def LCH_HDIG (k : Nat) : Nat := 0x20C00000 + 0x100 + 4 * k
def LCH_HDIG_DIG : Fld := ⟨0, 32⟩
/-- LCH_HSIG (R405-R408). -/
def LCH_HSIG (k : Nat) : Nat := 0x20C00000 + 0x140 + 4 * k
def LCH_HSIG_SIG : Fld := ⟨0, 32⟩
/-- LCH_DDIG (R405-R408). -/
def LCH_DDIG (k : Nat) : Nat := 0x20C00000 + 0x200 + 4 * k
def LCH_DDIG_DIG : Fld := ⟨0, 32⟩
/-- LCH_HGO (R408). -/
def LCH_HGO : Nat := 0x20C001A0
def LCH_HGO_GO : Fld := ⟨0, 1⟩
/-- LCH_DGO (R408). -/
def LCH_DGO : Nat := 0x20C00230
def LCH_DGO_GO : Fld := ⟨0, 1⟩
/-- RGN_CTL (R419). -/
def RGN_CTL (r : Nat) : Nat := 0x20D00000 + 0x10000 * r
def RGN_CTL_DRAIN : Fld := ⟨8, 8⟩
def RGN_CTL_QHOLD : Fld := ⟨3, 1⟩
def RGN_CTL_LKREC : Fld := ⟨2, 1⟩
def RGN_CTL_IE : Fld := ⟨1, 1⟩
/-- RGN_CMD (R419). -/
def RGN_CMD (r : Nat) : Nat := 0x20D00000 + 0x10000 * r + 0x4
def RGN_CMD_RECOVER : Fld := ⟨0, 1⟩
/-- RGN_STAT (R420-R432). -/
def RGN_STAT (r : Nat) : Nat := 0x20D00000 + 0x10000 * r + 0x8
def RGN_STAT_STATE : Fld := ⟨28, 4⟩
def RGN_STAT_EPOCH : Fld := ⟨24, 4⟩
def RGN_STAT_RCNT : Fld := ⟨16, 8⟩
def RGN_STAT_CAUSE : Fld := ⟨12, 4⟩
def RGN_STAT_LOVF : Fld := ⟨4, 1⟩
def RGN_STAT_RREF : Fld := ⟨3, 1⟩
def RGN_STAT_DRAINF : Fld := ⟨2, 1⟩
def RGN_STAT_REC : Fld := ⟨1, 1⟩
def RGN_STAT_LOG : Fld := ⟨0, 1⟩
/-- RGN_LOG_INFO (R420-R432). -/
def RGN_LOG_INFO (r : Nat) : Nat := 0x20D00000 + 0x10000 * r + 0xC
def RGN_LOG_INFO_VALID : Fld := ⟨31, 1⟩
def RGN_LOG_INFO_CLASS : Fld := ⟨28, 3⟩
def RGN_LOG_INFO_UNIT : Fld := ⟨20, 8⟩
def RGN_LOG_INFO_EPOCH : Fld := ⟨16, 4⟩
def RGN_LOG_INFO_TBLO : Fld := ⟨0, 16⟩
/-- RGN_LOG_ADDR (R420-R432). -/
def RGN_LOG_ADDR (r : Nat) : Nat := 0x20D00000 + 0x10000 * r + 0x10
def RGN_LOG_ADDR_ADDR : Fld := ⟨0, 29⟩
/-- RGN_DISC (R420-R432). -/
def RGN_DISC (r : Nat) : Nat := 0x20D00000 + 0x10000 * r + 0x14
def RGN_DISC_RECS : Fld := ⟨16, 16⟩
def RGN_DISC_NOREC : Fld := ⟨0, 16⟩
/-- RGN_DRAIN (R420-R432). -/
def RGN_DRAIN (r : Nat) : Nat := 0x20D00000 + 0x10000 * r + 0x18
def RGN_DRAIN_TICKS : Fld := ⟨0, 32⟩
/-- RGN_ECNT (R420-R432). -/
def RGN_ECNT (r : Nat) : Nat := 0x20D00000 + 0x10000 * r + 0x1C
def RGN_ECNT_SEGRR : Fld := ⟨16, 16⟩
def RGN_ECNT_CACHE : Fld := ⟨0, 16⟩
/-- RGN_ECNT_LAST (R420-R432). -/
def RGN_ECNT_LAST (r : Nat) : Nat := 0x20D00000 + 0x10000 * r + 0x20
/-- MEU_CTL (R429). -/
def MEU_CTL : Nat := 0x20E00000
def MEU_CTL_IE : Fld := ⟨0, 1⟩
/-- MEU_STAT (R428). -/
def MEU_STAT : Nat := 0x20E00004
def MEU_STAT_FATAL : Fld := ⟨31, 1⟩
def MEU_STAT_HALTED : Fld := ⟨8, 4⟩
def MEU_STAT_LOVF : Fld := ⟨3, 1⟩
def MEU_STAT_DRAINF : Fld := ⟨2, 1⟩
def MEU_STAT_XBPERR : Fld := ⟨1, 1⟩
def MEU_STAT_RFPERR : Fld := ⟨0, 1⟩
/-- MEU_LOG_INFO (R428). -/
def MEU_LOG_INFO : Nat := 0x20E00008
def MEU_LOG_INFO_VALID : Fld := ⟨31, 1⟩
def MEU_LOG_INFO_CLASS : Fld := ⟨28, 3⟩
def MEU_LOG_INFO_REGION : Fld := ⟨26, 2⟩
def MEU_LOG_INFO_TBLO : Fld := ⟨0, 16⟩
/-- MEU_LOG_ADDR (R428). -/
def MEU_LOG_ADDR : Nat := 0x20E0000C
def MEU_LOG_ADDR_ADDR : Fld := ⟨0, 30⟩
/-- BOOT_STAT (R447). -/
def BOOT_STAT : Nat := 0x20F00000
def BOOT_STAT_STEP : Fld := ⟨28, 4⟩
def BOOT_STAT_SLOT : Fld := ⟨27, 1⟩
def BOOT_STAT_WARM : Fld := ⟨26, 1⟩
def BOOT_STAT_OCT : Fld := ⟨25, 1⟩
def BOOT_STAT_DBGK : Fld := ⟨24, 1⟩
def BOOT_STAT_LCHK : Fld := ⟨23, 1⟩
def BOOT_STAT_CODEA : Fld := ⟨8, 8⟩
def BOOT_STAT_CODE : Fld := ⟨0, 8⟩
/-- BOOT_IMG (R447). -/
def BOOT_IMG : Nat := 0x20F00004
def BOOT_IMG_IMGSEQ : Fld := ⟨0, 32⟩
/-- BOOT_LIC_LO (R447). -/
def BOOT_LIC_LO : Nat := 0x20F00008
def BOOT_LIC_LO_LIC : Fld := ⟨0, 32⟩
/-- BOOT_LIC_HI (R447). -/
def BOOT_LIC_HI : Nat := 0x20F0000C
def BOOT_LIC_HI_LIC : Fld := ⟨0, 32⟩
/-- BOOT_TIME (R447). -/
def BOOT_TIME : Nat := 0x20F00010
def BOOT_TIME_TICKS : Fld := ⟨0, 32⟩
/-- BOOT_SHD (R447). -/
def BOOT_SHD : Nat := 0x20F00014
def BOOT_SHD_RECS : Fld := ⟨18, 14⟩
def BOOT_SHD_CTXS : Fld := ⟨9, 9⟩
def BOOT_SHD_LINKS : Fld := ⟨0, 8⟩
/-- DB_SQ (R249). -/
def DB_SQ (q : Nat) : Nat := 0x21000000 + 0x100000 * (q / 256) + 0x1000 * (q % 256)
def DB_SQ_HEAD : Fld := ⟨16, 16⟩
def DB_SQ_TAIL : Fld := ⟨0, 16⟩
/-- DB_CQ (R249). -/
def DB_CQ (q : Nat) : Nat := 0x21000000 + 0x100000 * (q / 256) + 0x1000 * (q % 256) + 0x4
def DB_CQ_CQ_HEAD : Fld := ⟨16, 16⟩
def DB_CQ_CQ_TAIL : Fld := ⟨0, 16⟩
/-- DBG_STAT (R456-R458). -/
def DBG_STAT : Nat := 0x21800000
def DBG_STAT_SESS : Fld := ⟨30, 2⟩
def DBG_STAT_AST : Fld := ⟨28, 2⟩
def DBG_STAT_KEYV : Fld := ⟨27, 1⟩
def DBG_STAT_SEND : Fld := ⟨4, 1⟩
def DBG_STAT_AFAIL : Fld := ⟨3, 1⟩
def DBG_STAT_CRCERR : Fld := ⟨2, 1⟩
def DBG_STAT_AHOLD : Fld := ⟨1, 1⟩
/-- DBG_CTL (R456-R458). -/
def DBG_CTL : Nat := 0x21800004
def DBG_CTL_ITMO : Fld := ⟨8, 8⟩
/-- DBG_AUTH (R456-R458). -/
def DBG_AUTH : Nat := 0x21800008
def DBG_AUTH_CHAL : Fld := ⟨31, 1⟩
def DBG_AUTH_GO : Fld := ⟨30, 1⟩
def DBG_AUTH_CLOSE : Fld := ⟨29, 1⟩
def DBG_AUTH_LEVEL : Fld := ⟨0, 2⟩
/-- DBG_NONCE (R456). -/
def DBG_NONCE (k : Nat) : Nat := 0x21800000 + 0x20 + 4 * k
def DBG_NONCE_NONCE : Fld := ⟨0, 32⟩
/-- DBG_PUB (R456). -/
def DBG_PUB (k : Nat) : Nat := 0x21800000 + 0x40 + 4 * k
def DBG_PUB_PUB : Fld := ⟨0, 32⟩
/-- DBG_SIG (R456). -/
def DBG_SIG (k : Nat) : Nat := 0x21800000 + 0x500 + 4 * k
def DBG_SIG_SIG : Fld := ⟨0, 32⟩
/-- DBG_FCTL (R464-R467). -/
def DBG_FCTL (f : Nat) : Nat := 0x21800000 + 0x100 + 0x10 * f
def DBG_FCTL_STEPIRQ : Fld := ⟨4, 1⟩
def DBG_FCTL_RHALT : Fld := ⟨3, 1⟩
def DBG_FCTL_STEP : Fld := ⟨2, 1⟩
def DBG_FCTL_RESUME : Fld := ⟨1, 1⟩
def DBG_FCTL_HALT : Fld := ⟨0, 1⟩
/-- DBG_FSTAT (R464-R467). -/
def DBG_FSTAT (f : Nat) : Nat := 0x21800000 + 0x104 + 0x10 * f
def DBG_FSTAT_STATE : Fld := ⟨28, 4⟩
def DBG_FSTAT_WORLD : Fld := ⟨27, 1⟩
def DBG_FSTAT_LOCKBRK : Fld := ⟨3, 1⟩
def DBG_FSTAT_REFUSE : Fld := ⟨2, 1⟩
def DBG_FSTAT_SDONE : Fld := ⟨1, 1⟩
def DBG_FSTAT_HALTED : Fld := ⟨0, 1⟩
/-- DBG_FPC (R464-R467). -/
def DBG_FPC (f : Nat) : Nat := 0x21800000 + 0x108 + 0x10 * f
def DBG_FPC_RPI : Fld := ⟨16, 1⟩
def DBG_FPC_PC : Fld := ⟨0, 16⟩
/-- DBG_TCTL (R473). -/
def DBG_TCTL (f : Nat) : Nat := 0x21800000 + 0x10c + 0x10 * f
def DBG_TCTL_LOST : Fld := ⟨16, 16⟩
def DBG_TCTL_DEST : Fld := ⟨1, 1⟩
def DBG_TCTL_EN : Fld := ⟨0, 1⟩
/-- DBG_TEN_LO (R473). -/
def DBG_TEN_LO (f : Nat) : Nat := 0x21800000 + 0x200 + 8 * f
def DBG_TEN_LO_TEN : Fld := ⟨0, 32⟩
/-- DBG_TEN_HI (R473). -/
def DBG_TEN_HI (f : Nat) : Nat := 0x21800000 + 0x204 + 8 * f
def DBG_TEN_HI_TEN : Fld := ⟨0, 32⟩
/-- DBG_TPKT (R475). -/
def DBG_TPKT (k : Nat) : Nat := 0x21800000 + 0x300 + 4 * k
def DBG_TPKT_PKT : Fld := ⟨0, 32⟩
/-- DBG_TCNT (R475). -/
def DBG_TCNT : Nat := 0x21800310
def DBG_TCNT_COUNT : Fld := ⟨0, 9⟩
/-- TS_CLAIM (R476/R477). -/
def TS_CLAIM (r : Nat) : Nat := 0x21800000 + 0x400 + 0x40 * r
def TS_CLAIM_HELD : Fld := ⟨31, 1⟩
def TS_CLAIM_REL : Fld := ⟨30, 1⟩
def TS_CLAIM_REQ : Fld := ⟨29, 1⟩
def TS_CLAIM_FEATURE : Fld := ⟨16, 8⟩
def TS_CLAIM_WORLD : Fld := ⟨12, 1⟩
def TS_CLAIM_AGENT : Fld := ⟨8, 4⟩
def TS_CLAIM_GEN : Fld := ⟨0, 8⟩
/-- TS_CTL (R476/R477). -/
def TS_CTL (r : Nat) : Nat := 0x21800000 + 0x404 + 0x40 * r
def TS_CTL_EN : Fld := ⟨31, 1⟩
def TS_CTL_MODE : Fld := ⟨30, 1⟩
def TS_CTL_SIZE : Fld := ⟨0, 5⟩
/-- TS_BASE_LO (R476/R477). -/
def TS_BASE_LO (r : Nat) : Nat := 0x21800000 + 0x408 + 0x40 * r
def TS_BASE_LO_PA : Fld := ⟨0, 32⟩
/-- TS_BASE_HI (R476/R477). -/
def TS_BASE_HI (r : Nat) : Nat := 0x21800000 + 0x40c + 0x40 * r
def TS_BASE_HI_PA : Fld := ⟨0, 21⟩
/-- TS_WR (R476/R477). -/
def TS_WR (r : Nat) : Nat := 0x21800000 + 0x410 + 0x40 * r
def TS_WR_WR : Fld := ⟨0, 32⟩
/-- TS_STAT (R476/R477). -/
def TS_STAT (r : Nat) : Nat := 0x21800000 + 0x414 + 0x40 * r
def TS_STAT_CFGERR : Fld := ⟨4, 1⟩
def TS_STAT_CLAIM : Fld := ⟨3, 1⟩
def TS_STAT_ERR : Fld := ⟨2, 1⟩
def TS_STAT_FULL : Fld := ⟨1, 1⟩
def TS_STAT_ACT : Fld := ⟨0, 1⟩
/-- PWR_CTL (R500-R505). -/
def PWR_CTL (r : Nat) : Nat := 0x21900000 + 0x20 * r
def PWR_CTL_IDLEDLY : Fld := ⟨16, 8⟩
def PWR_CTL_AUTOIDLE : Fld := ⟨8, 1⟩
def PWR_CTL_CMD : Fld := ⟨0, 3⟩
/-- PWR_STAT (R500-R505). -/
def PWR_STAT (r : Nat) : Nat := 0x21900000 + 0x20 * r + 0x4
def PWR_STAT_STATE : Fld := ⟨28, 4⟩
def PWR_STAT_TGT : Fld := ⟨26, 2⟩
def PWR_STAT_PREQ : Fld := ⟨25, 1⟩
def PWR_STAT_PACK : Fld := ⟨24, 1⟩
def PWR_STAT_HSTMO : Fld := ⟨7, 1⟩
def PWR_STAT_ACKLATE : Fld := ⟨6, 1⟩
def PWR_STAT_REF : Fld := ⟨4, 1⟩
def PWR_STAT_SLPABT : Fld := ⟨3, 1⟩
def PWR_STAT_WDONE : Fld := ⟨2, 1⟩
def PWR_STAT_SDONE : Fld := ⟨1, 1⟩
/-- PWR_WAKE (R500-R505). -/
def PWR_WAKE (r : Nat) : Nat := 0x21900000 + 0x20 * r + 0x8
def PWR_WAKE_BEAT : Fld := ⟨2, 1⟩
def PWR_WAKE_DB : Fld := ⟨1, 1⟩
def PWR_WAKE_IRQ : Fld := ⟨0, 1⟩
/-- PWR_WLAST (R500-R505). -/
def PWR_WLAST (r : Nat) : Nat := 0x21900000 + 0x20 * r + 0xC
def PWR_WLAST_TB : Fld := ⟨8, 24⟩
def PWR_WLAST_CAUSE : Fld := ⟨0, 3⟩
/-- PWR_TIME (R500-R505). -/
def PWR_TIME (r : Nat) : Nat := 0x21900000 + 0x20 * r + 0x10
def PWR_TIME_WAKE : Fld := ⟨16, 16⟩
def PWR_TIME_ENTER : Fld := ⟨0, 16⟩
/-- CLK_STAT (R493/R495). -/
def CLK_STAT : Nat := 0x21900100
def CLK_STAT_PLLLOCK : Fld := ⟨31, 1⟩
def CLK_STAT_LOL : Fld := ⟨30, 1⟩
def CLK_STAT_HCKP : Fld := ⟨8, 8⟩
/-- WR_SENS (R527-R530). -/
def WR_SENS (r : Nat) : Nat := 0x21900200 + 0x20 * r
def WR_SENS_VDDM : Fld := ⟨22, 10⟩
def WR_SENS_VDD : Fld := ⟨12, 10⟩
def WR_SENS_TEMP : Fld := ⟨0, 12⟩
/-- WR_HOURS (R527-R530). -/
def WR_HOURS (r : Nat) : Nat := 0x21900200 + 0x20 * r + 0x4
def WR_HOURS_HOURS : Fld := ⟨0, 32⟩
/-- WR_EQH (R527-R530). -/
def WR_EQH (r : Nat) : Nat := 0x21900200 + 0x20 * r + 0x8
def WR_EQH_EQH : Fld := ⟨0, 32⟩
/-- WR_EVT (R527-R530). -/
def WR_EVT (r : Nat) : Nat := 0x21900200 + 0x20 * r + 0xC
def WR_EVT_HOT : Fld := ⟨16, 16⟩
def WR_EVT_VOUT : Fld := ⟨0, 16⟩
/-- WR_TMAX (R527-R530). -/
def WR_TMAX (r : Nat) : Nat := 0x21900200 + 0x20 * r + 0x10
def WR_TMAX_TMAX : Fld := ⟨0, 12⟩
/-- WR_THR (R528). -/
def WR_THR : Nat := 0x219002C0
def WR_THR_HOT : Fld := ⟨0, 8⟩
/-- WR_STAT (R528). -/
def WR_STAT : Nat := 0x219002C4
def WR_STAT_VOUT : Fld := ⟨5, 5⟩
def WR_STAT_HOT : Fld := ⟨0, 5⟩

/-- What the generic rules of R8 need to know of a register: the bits a write sets, the bits a read clears, the bits that are write-only, and whether the
unprivileged view holds it (R517). -/
structure RegInfo where
  rw : BitVec 32
  rc : BitVec 32
  wo : BitVec 32
  unpriv : Bool
deriving DecidableEq, Repr

/-- Registers of one element of the block, by offset inside it. -/
def sysTab : List (Nat × RegInfo) :=
  [(0x0, ⟨0x0, 0x0, 0x0, true⟩),
   (0x4, ⟨0x0, 0x0, 0x0, true⟩),
   (0x8, ⟨0x0, 0x0, 0x0, true⟩),
   (0xC, ⟨0x0, 0xFF00, 0x0, false⟩),
   (0x10, ⟨0x0, 0x0, 0x0, false⟩)]
/-- Registers of one element of the block, by offset inside it. -/
def matTab : List (Nat × RegInfo) :=
  [(0x0, ⟨0xFF, 0x0, 0x0, false⟩),
   (0x4, ⟨0x0, 0x1FF, 0x0, false⟩),
   (0x8, ⟨0x0, 0x0, 0x0, false⟩),
   (0xC, ⟨0x0, 0xF0FF00FF, 0x0, false⟩),
   (0x10, ⟨0x0, 0x0, 0x0, false⟩),
   (0x14, ⟨0x0, 0x0, 0x0, false⟩),
   (0x18, ⟨0x0, 0x0, 0x0, false⟩),
   (0x1C, ⟨0x0, 0xFF0000FF, 0x0, false⟩),
   (0x20, ⟨0x0, 0x0, 0x0, false⟩),
   (0x24, ⟨0x0, 0xFFFF00FF, 0x0, false⟩),
   (0x28, ⟨0x0, 0x0, 0x0, false⟩),
   (0x40, ⟨0x1F1FFC, 0x0, 0x0, false⟩),
   (0x44, ⟨0x0, 0x1E, 0x0, false⟩),
   (0x48, ⟨0x0, 0x0, 0x0, false⟩),
   (0x4C, ⟨0x103FF, 0x0, 0x0, false⟩),
   (0x50, ⟨0x0, 0x0, 0x0, false⟩),
   (0x54, ⟨0x0, 0x0, 0x0, false⟩),
   (0x58, ⟨0x103FF, 0x0, 0x0, false⟩),
   (0x5C, ⟨0x0, 0x0, 0x0, false⟩),
   (0x60, ⟨0x0, 0x0, 0x0, false⟩)]
/-- Registers of one element of the block, by offset inside it. -/
def chnTab : List (Nat × RegInfo) :=
  [(0x0, ⟨0xC0, 0x0, 0x0, false⟩),
   (0x4, ⟨0x0, 0xC1, 0x0, true⟩),
   (0x8, ⟨0x0, 0x0, 0x0, false⟩),
   (0xC, ⟨0x0, 0x0, 0x0, false⟩),
   (0x10, ⟨0x0, 0x0, 0x0, true⟩),
   (0x14, ⟨0x0, 0x0, 0x0, true⟩),
   (0x18, ⟨0x0, 0x0, 0x0, false⟩),
   (0x1C, ⟨0x0, 0x0, 0x0, false⟩),
   (0x20, ⟨0x0, 0xFFFE0000, 0x0, false⟩),
   (0x24, ⟨0x0, 0x0, 0x0, false⟩),
   (0x28, ⟨0x0, 0x0, 0x0, false⟩),
   (0x2C, ⟨0x0, 0x0, 0x0, false⟩),
   (0x30, ⟨0x0, 0x0, 0x0, false⟩),
   (0x34, ⟨0x0, 0x0, 0x0, false⟩),
   (0x38, ⟨0x0, 0x0, 0x0, false⟩),
   (0x3C, ⟨0x0, 0x0, 0x0, false⟩)]
/-- Registers of one element of the block, by offset inside it. -/
def cxTab : List (Nat × RegInfo) :=
  [(0x0, ⟨0xE0F10FFF, 0x0, 0x0, false⟩),
   (0x4, ⟨0xFFE003FF, 0x0, 0x0, false⟩),
   (0x8, ⟨0xF8FFFF7F, 0x0, 0x0, false⟩),
   (0xC, ⟨0x1FFFFFC0, 0x0, 0x0, false⟩),
   (0x10, ⟨0x1FFFF000, 0x0, 0x0, false⟩),
   (0x14, ⟨0xFFFF, 0x0, 0x0, false⟩),
   (0x18, ⟨0x1FFFFFC0, 0x0, 0x0, false⟩),
   (0x1C, ⟨0xFFFFFF, 0x0, 0x0, false⟩),
   (0x20, ⟨0x1FFFF000, 0x0, 0x0, false⟩),
   (0x24, ⟨0xFFFF, 0x0, 0x0, false⟩),
   (0x28, ⟨0xFFFFFFFF, 0x0, 0x0, false⟩),
   (0x2C, ⟨0xFFFFFFFF, 0x0, 0x0, false⟩),
   (0x30, ⟨0x0, 0x0, 0x0, true⟩),
   (0x34, ⟨0x0, 0x0, 0x0, false⟩),
   (0x38, ⟨0x0, 0x0, 0x0, true⟩),
   (0x3C, ⟨0x0, 0xFFFFFFFF, 0x0, false⟩)]
/-- Registers of one element of the block, by offset inside it. -/
def rlyTab : List (Nat × RegInfo) :=
  [(0x0, ⟨0xFF000FFF, 0x0, 0x0, false⟩),
   (0x4, ⟨0x7F, 0x0, 0x0, false⟩)]
/-- Registers of one element of the block, by offset inside it. -/
def cxsTab : List (Nat × RegInfo) :=
  [(0x0, ⟨0x6, 0x0, 0x0, false⟩),
   (0x4, ⟨0x0, 0x7, 0x0, false⟩),
   (0x8, ⟨0x0, 0x0, 0x0, false⟩)]
/-- Registers of one element of the block, by offset inside it. -/
def lnTab : List (Nat × RegInfo) :=
  [(0x0, ⟨0x38, 0x0, 0x0, false⟩),
   (0x4, ⟨0x0, 0xE, 0x0, false⟩),
   (0x8, ⟨0x0, 0x0, 0x0, false⟩),
   (0xC, ⟨0x0, 0x0, 0x0, false⟩),
   (0x10, ⟨0x0, 0x0, 0x0, false⟩),
   (0x14, ⟨0x0, 0x0, 0x0, false⟩),
   (0x18, ⟨0x0, 0x0, 0x0, false⟩),
   (0x20, ⟨0x0, 0x0, 0x0, false⟩),
   (0x24, ⟨0xFFFFFCF8, 0x0, 0x0, false⟩),
   (0x28, ⟨0x0, 0xC, 0x0, false⟩),
   (0x2C, ⟨0x0, 0x0, 0x0, false⟩),
   (0x30, ⟨0x0, 0x0, 0x0, false⟩),
   (0x34, ⟨0x0, 0x0, 0x0, false⟩)]
/-- Registers of one element of the block, by offset inside it. -/
def lkTab : List (Nat × RegInfo) :=
  [(0x0, ⟨0x0, 0x0, 0x0, false⟩),
   (0x4, ⟨0x8, 0x0, 0x0, false⟩),
   (0x8, ⟨0x0, 0x7E, 0x0, true⟩),
   (0xC, ⟨0x0, 0x0, 0x0, false⟩),
   (0x10, ⟨0x0, 0x0, 0x0, false⟩),
   (0x14, ⟨0x0, 0x0, 0x0, false⟩),
   (0x18, ⟨0x0, 0x0, 0x0, false⟩),
   (0x1C, ⟨0x0, 0x0, 0x0, false⟩),
   (0x20, ⟨0x0, 0xFFFFFFFF, 0x0, false⟩),
   (0x24, ⟨0x0, 0xFFFFFFFF, 0x0, false⟩),
   (0x28, ⟨0x0, 0x0, 0x0, false⟩),
   (0x2C, ⟨0x0, 0x0, 0x0, false⟩),
   (0x30, ⟨0x0, 0x0, 0x0, false⟩)]
/-- Registers of one element of the block, by offset inside it. -/
def lnrTab : List (Nat × RegInfo) :=
  [(0x0, ⟨0xFFFFFFFF, 0x0, 0x0, false⟩),
   (0x4, ⟨0xFFFFFFF0, 0x0, 0x0, false⟩),
   (0x8, ⟨0xFFFFFFFF, 0x0, 0x0, false⟩),
   (0xC, ⟨0x0, 0x0, 0x0, false⟩),
   (0x10, ⟨0x0, 0x0, 0x0, false⟩)]
/-- Registers of one element of the block, by offset inside it. -/
def qeTab : List (Nat × RegInfo) :=
  [(0x0, ⟨0xFFC00FF0, 0x0, 0x0, false⟩),
   (0x4, ⟨0xFFFFFFC0, 0x0, 0x0, false⟩),
   (0x8, ⟨0x1FFFFF, 0x0, 0x0, false⟩),
   (0xC, ⟨0xFFFFFFE0, 0x0, 0x0, false⟩),
   (0x10, ⟨0x1FFFFF, 0x0, 0x0, false⟩),
   (0x14, ⟨0x0, 0xF, 0x0, false⟩),
   (0x18, ⟨0x0, 0x0, 0x0, false⟩)]
/-- Registers of one element of the block, by offset inside it. -/
def hpTab : List (Nat × RegInfo) :=
  [(0x0, ⟨0xFFF0, 0x0, 0x0, false⟩),
   (0x4, ⟨0x0, 0x3F, 0x0, false⟩),
   (0x8, ⟨0x0, 0x0, 0x0, false⟩),
   (0xC, ⟨0x0, 0x0, 0x0, false⟩),
   (0x10, ⟨0x0, 0x0, 0x0, false⟩),
   (0x14, ⟨0x0, 0x0, 0x0, false⟩),
   (0x18, ⟨0x0, 0xFF8003FF, 0x0, false⟩),
   (0x1C, ⟨0x0, 0x0, 0x0, false⟩),
   (0x20, ⟨0x0, 0x0, 0x0, false⟩),
   (0x24, ⟨0x0, 0x0, 0x0, false⟩),
   (0x28, ⟨0x0, 0x0, 0x0, false⟩)]
/-- Registers of one element of the block, by offset inside it. -/
def xltTab : List (Nat × RegInfo) :=
  [(0x0, ⟨0xDF, 0x0, 0x0, false⟩),
   (0x4, ⟨0x0, 0x7, 0x0, false⟩),
   (0x8, ⟨0x0, 0x0, 0x0, false⟩),
   (0xC, ⟨0x0, 0x0, 0x0, false⟩),
   (0x10, ⟨0xFFFF8001, 0x0, 0x0, false⟩),
   (0x14, ⟨0x1FFFFF, 0x0, 0x0, false⟩),
   (0x18, ⟨0xFFFFF000, 0x0, 0x0, false⟩),
   (0x1C, ⟨0xFFFF, 0x0, 0x0, false⟩),
   (0x20, ⟨0xE000FFF, 0x0, 0x0, false⟩),
   (0x24, ⟨0x0, 0x0, 0x0, false⟩),
   (0x28, ⟨0x0, 0x0, 0x0, false⟩),
   (0x2C, ⟨0x0, 0x0, 0x0, false⟩),
   (0x30, ⟨0x0, 0x0, 0x0, false⟩),
   (0x34, ⟨0x0, 0xFFF81FFF, 0x0, false⟩),
   (0x38, ⟨0x0, 0x0, 0x0, false⟩),
   (0x3C, ⟨0x0, 0x0, 0x0, false⟩),
   (0x40, ⟨0x0, 0xFFFFFFFF, 0x0, false⟩)]
/-- Registers of one element of the block, by offset inside it. -/
def frnTab : List (Nat × RegInfo) :=
  [(0x0, ⟨0x0, 0x0, 0x0, false⟩),
   (0x4, ⟨0x0, 0x0, 0x0, false⟩),
   (0x8, ⟨0x0, 0x0, 0x0, false⟩),
   (0xC, ⟨0x0, 0x0, 0x0, false⟩),
   (0x10, ⟨0x0, 0x0, 0x0, false⟩),
   (0x14, ⟨0x0, 0x0, 0x0, false⟩),
   (0x18, ⟨0x0, 0x80000000, 0x0, false⟩),
   (0x20, ⟨0x0, 0x0, 0x0, false⟩),
   (0x24, ⟨0x0, 0x0, 0x0, false⟩),
   (0x28, ⟨0x0, 0x0, 0x0, false⟩),
   (0x2C, ⟨0x0, 0x0, 0x0, false⟩)]
/-- Registers of one element of the block, by offset inside it. -/
def tmrTab : List (Nat × RegInfo) :=
  [(0x0, ⟨0x0, 0x0, 0x0, false⟩),
   (0x4, ⟨0xFFFF8000, 0x0, 0x0, false⟩),
   (0x8, ⟨0x0, 0x0, 0x0, false⟩),
   (0xC, ⟨0x0, 0xFE, 0x0, false⟩),
   (0x10, ⟨0xFFFFFFFF, 0x0, 0x0, false⟩),
   (0x14, ⟨0xFFFFFFFF, 0x0, 0x0, false⟩),
   (0x18, ⟨0xFFFFFFFF, 0x0, 0x0, false⟩),
   (0x1C, ⟨0x0, 0x0, 0x0, false⟩),
   (0x20, ⟨0x0, 0x0, 0x0, false⟩),
   (0x24, ⟨0xFFFFFC00, 0x0, 0x0, false⟩),
   (0x28, ⟨0xFFFFFFF8, 0x0, 0x0, false⟩),
   (0x2C, ⟨0x1F1FFFFF, 0x0, 0x0, false⟩)]
/-- Registers of one element of the block, by offset inside it. -/
def tmbTab : List (Nat × RegInfo) :=
  [(0x800, ⟨0x1F1F, 0x0, 0x0, false⟩),
   (0x804, ⟨0xFFFFFFFF, 0x0, 0x0, false⟩),
   (0x900, ⟨0x0, 0x0, 0x0, true⟩),
   (0x904, ⟨0x0, 0x0, 0x0, true⟩),
   (0x908, ⟨0x0, 0x0, 0x0, false⟩),
   (0xA00, ⟨0xF8000000, 0x0, 0x0, false⟩),
   (0xA04, ⟨0xFFFFFFFF, 0x0, 0x0, false⟩),
   (0xA08, ⟨0xFFFFFFFF, 0x0, 0x0, false⟩),
   (0xA0C, ⟨0x0, 0x0, 0x0, false⟩),
   (0xA10, ⟨0x0, 0xF0, 0x0, false⟩)]
/-- Registers of one element of the block, by offset inside it. -/
def lchTab : List (Nat × RegInfo) :=
  [(0x0, ⟨0x0, 0x7, 0x0, false⟩),
   (0x4, ⟨0x0, 0x0, 0x0, false⟩),
   (0x8, ⟨0xFFFF00FF, 0x0, 0x0, false⟩),
   (0xC, ⟨0xFFFFFFFF, 0x0, 0x0, false⟩),
   (0x10, ⟨0xFFFFFFFF, 0x0, 0x0, false⟩),
   (0x14, ⟨0x0, 0x0, 0x0, false⟩),
   (0x18, ⟨0x1, 0x0, 0x0, false⟩),
   (0x20, ⟨0x0, 0x0, 0x0, false⟩),
   (0x24, ⟨0x0, 0x0, 0x0, false⟩),
   (0x28, ⟨0x0, 0xFFFFFFFF, 0x0, false⟩),
   (0x1A0, ⟨0x0, 0x0, 0x0, false⟩),
   (0x230, ⟨0x0, 0x0, 0x0, false⟩)]
/-- Registers of one element of the block, by offset inside it. -/
def rgnTab : List (Nat × RegInfo) :=
  [(0x0, ⟨0xFF0E, 0x0, 0x0, false⟩),
   (0x4, ⟨0x0, 0x0, 0x0, false⟩),
   (0x8, ⟨0x0, 0x1F, 0x0, false⟩),
   (0xC, ⟨0x0, 0x0, 0x0, false⟩),
   (0x10, ⟨0x0, 0x0, 0x0, false⟩),
   (0x14, ⟨0x0, 0x0, 0x0, false⟩),
   (0x18, ⟨0x0, 0x0, 0x0, false⟩),
   (0x1C, ⟨0x0, 0x0, 0x0, false⟩),
   (0x20, ⟨0x0, 0x0, 0x0, false⟩)]
/-- Registers of one element of the block, by offset inside it. -/
def meuTab : List (Nat × RegInfo) :=
  [(0x0, ⟨0x1, 0x0, 0x0, false⟩),
   (0x4, ⟨0x0, 0xF, 0x0, false⟩),
   (0x8, ⟨0x0, 0x0, 0x0, false⟩),
   (0xC, ⟨0x0, 0x0, 0x0, false⟩)]
/-- Registers of one element of the block, by offset inside it. -/
def bootTab : List (Nat × RegInfo) :=
  [(0x0, ⟨0x0, 0x0, 0x0, true⟩),
   (0x4, ⟨0x0, 0x0, 0x0, false⟩),
   (0x8, ⟨0x0, 0x0, 0x0, false⟩),
   (0xC, ⟨0x0, 0x0, 0x0, false⟩),
   (0x10, ⟨0x0, 0x0, 0x0, false⟩),
   (0x14, ⟨0x0, 0x0, 0x0, false⟩)]
/-- Registers of one element of the block, by offset inside it. -/
def dbTab : List (Nat × RegInfo) :=
  [(0x0, ⟨0xFFFF, 0x0, 0x0, true⟩),
   (0x4, ⟨0xFFFF0000, 0x0, 0x0, true⟩)]
/-- Registers of one element of the block, by offset inside it. -/
def dbgTab : List (Nat × RegInfo) :=
  [(0x0, ⟨0x0, 0x1C, 0x0, false⟩),
   (0x4, ⟨0xFF00, 0x0, 0x0, false⟩),
   (0x8, ⟨0x3, 0x0, 0x0, false⟩),
   (0x310, ⟨0x0, 0x0, 0x0, false⟩)]
/-- Registers of one element of the block, by offset inside it. -/
def pwrTab : List (Nat × RegInfo) :=
  [(0x0, ⟨0xFF0100, 0x0, 0x0, false⟩),
   (0x4, ⟨0x0, 0xDE, 0x0, false⟩),
   (0x8, ⟨0x7, 0x0, 0x0, false⟩),
   (0xC, ⟨0x0, 0x0, 0x0, false⟩),
   (0x10, ⟨0x0, 0x0, 0x0, false⟩),
   (0x100, ⟨0x0, 0x40000000, 0x0, false⟩),
   (0x2C0, ⟨0xFF, 0x0, 0x0, false⟩),
   (0x2C4, ⟨0x0, 0x3FF, 0x0, false⟩)]
/-- Registers of one element of the block, by offset inside it. -/
def wrTab : List (Nat × RegInfo) :=
  [(0x0, ⟨0x0, 0x0, 0x0, false⟩),
   (0x4, ⟨0xFFFFFFFF, 0x0, 0x0, false⟩),
   (0x8, ⟨0xFFFFFFFF, 0x0, 0x0, false⟩),
   (0xC, ⟨0xFFFFFFFF, 0x0, 0x0, false⟩),
   (0x10, ⟨0xFFF, 0x0, 0x0, false⟩)]
def info_CSH_WCLAIM : RegInfo := ⟨0x0, 0x0, 0x0, false⟩
def info_CSH_WIN : RegInfo := ⟨0xFFFF, 0x0, 0x0, false⟩
def info_RWIN_LO : RegInfo := ⟨0x0, 0x0, 0x0, false⟩
def info_RWIN_HI : RegInfo := ⟨0x0, 0x0, 0x0, false⟩
def info_CS_LOAD : RegInfo := ⟨0x0, 0x0, 0x0, false⟩
def info_CS_MATCH : RegInfo := ⟨0x0, 0x0, 0x0, false⟩
def info_CS_ATTR : RegInfo := ⟨0x0, 0x0, 0x0, false⟩
def info_IRQ_CTL : RegInfo := ⟨0x7, 0x0, 0x0, false⟩
def info_IRQ_STAT : RegInfo := ⟨0x0, 0x10, 0x0, false⟩
def info_IRQ_PEND : RegInfo := ⟨0xFFFFFFFF, 0x0, 0x0, false⟩
def info_IRQ_EN : RegInfo := ⟨0xFFFFFFFF, 0x0, 0x0, false⟩
def info_IRQ_ACT : RegInfo := ⟨0x0, 0x0, 0x0, false⟩
def info_IRQ_DEFER : RegInfo := ⟨0x0, 0x0, 0x0, false⟩
def info_IRQ_HOFF : RegInfo := ⟨0xFFFF, 0x0, 0x0, false⟩
def info_IRQ_GRPHOLD : RegInfo := ⟨0x0, 0x0, 0x0, false⟩
def info_IRQ_STK : RegInfo := ⟨0x0, 0x0, 0x0, false⟩
def info_IRQ_STKD : RegInfo := ⟨0x0, 0x0, 0x0, false⟩
def info_IRQ_SCLAIM : RegInfo := ⟨0x0, 0x0, 0x0, false⟩
def info_IRQ_CFG : RegInfo := ⟨0xB0FF010F, 0x0, 0x0, false⟩
def info_IRQ_VEC : RegInfo := ⟨0xFFFF, 0x0, 0x0, false⟩
def info_IRQ_CNT : RegInfo := ⟨0xF, 0x0, 0x0, false⟩
def info_LCH_PVAL : RegInfo := ⟨0xFFFFFFFF, 0x0, 0x0, false⟩
def info_LCH_SALT : RegInfo := ⟨0x0, 0x0, 0x0, false⟩
def info_LCH_DIG : RegInfo := ⟨0x0, 0x0, 0x0, false⟩
def info_LCH_HDIG : RegInfo := ⟨0x0, 0x0, 0xFFFFFFFF, false⟩
def info_LCH_HSIG : RegInfo := ⟨0x0, 0x0, 0xFFFFFFFF, false⟩
def info_LCH_DDIG : RegInfo := ⟨0x0, 0x0, 0xFFFFFFFF, false⟩
def info_DBG_NONCE : RegInfo := ⟨0x0, 0x0, 0x0, false⟩
def info_DBG_PUB : RegInfo := ⟨0x0, 0x0, 0xFFFFFFFF, false⟩
def info_DBG_SIG : RegInfo := ⟨0x0, 0x0, 0xFFFFFFFF, false⟩
def info_DBG_FCTL : RegInfo := ⟨0x18, 0x0, 0x0, false⟩
def info_DBG_FSTAT : RegInfo := ⟨0x0, 0xE, 0x0, false⟩
def info_DBG_FPC : RegInfo := ⟨0xFFFF, 0x0, 0x0, false⟩
def info_DBG_TCTL : RegInfo := ⟨0x3, 0xFFFF0000, 0x0, false⟩
def info_DBG_TEN_LO : RegInfo := ⟨0xFFFFFFFF, 0x0, 0x0, false⟩
def info_DBG_TEN_HI : RegInfo := ⟨0xFFFFFFFF, 0x0, 0x0, false⟩
def info_DBG_TPKT : RegInfo := ⟨0x0, 0x0, 0x0, false⟩
def info_TS_CLAIM : RegInfo := ⟨0x0, 0x0, 0x0, false⟩
def info_TS_CTL : RegInfo := ⟨0xC000001F, 0x0, 0x0, false⟩
def info_TS_BASE_LO : RegInfo := ⟨0xFFFFFFFF, 0x0, 0x0, false⟩
def info_TS_BASE_HI : RegInfo := ⟨0x1FFFFF, 0x0, 0x0, false⟩
def info_TS_WR : RegInfo := ⟨0x0, 0x0, 0x0, false⟩
def info_TS_STAT : RegInfo := ⟨0x0, 0x1E, 0x0, false⟩

end Sys2Proof.Machine
end

