-- ==== Sys2Proof/Machine/State.lean ====
section
/-!
DEFINITION. The state of the block as plain data: every register (one sparse file keyed by privileged local offset), every memory, latch,
buffer, queue, counter and pin the specification gives the macro, and the queue of the commands that wait.
-/
namespace Sys2Proof.Machine

/-! ### Mat, cushion and march engine (R41 to R75) -/

/-- A run of the march engine (R66 to R70). -/
structure MarchRun where
  destructive : Bool
  repair      : Bool
  src         : Nat                       -- RPL_DATA.SRC: 1 start-up, 2 requested, 3 suspect bank
  single      : Option (Bool × Nat)       -- a single-bank run: cushion?, bank
  gfirst      : Nat
  glast       : Nat
  abortReq    : Bool
  bkg         : Nat                       -- background (R66)
  since       : Nat                       -- TB at its start
  rows        : List ((Bool × Nat × Nat) × Bool)  -- failing rows found so far: cushion?, bank, physical row; whether the run has replaced it
deriving DecidableEq, Repr

/-- What the memory of one region holds beside its words (R52, R70, R74). -/
structure MatRgn where
  bankCnt : KV Nat                        -- uncorrected errors of this beat, by bank (cushion banks from 1024)
  susp    : List (Bool × Nat)             -- suspect queue, oldest first
  repLog  : List W32                      -- repair log in the layout of RPL_DATA, oldest first
  march   : Option MarchRun
deriving DecidableEq, Repr

/-- The memory side state of a region at reset. -/
def MatRgn.empty : MatRgn := ⟨[], [], [], none⟩

/-- The response of the last mat or cushion access: its master, 0 good, 1 protection error, 2 parity error, whether CSH_BUSY came with it (R55), and the data. -/
structure MatResp where
  master : Master
  status : Nat
  busy   : Bool
  data   : List Byte
deriving DecidableEq, Repr

/-! ### Power (R498 to R506) -/

/-- A host S request that waits: to a register that the register fabric holds (R421, R501), or behind such a one of its port (R237). A write keeps its data, less the words that
came with a parity error, whether there were such words (R235), and what its access of the cushion meets. -/
structure HeldReq where
  port  : Nat
  tag   : Nat
  addr  : Nat
  len   : Nat
  write : Bool
  priv  : Bool
  data  : List (Option Byte)
  bad   : Bool
  par   : Par
  meets : List Meet
deriving DecidableEq, Repr

/-- What the power controller holds of a region beside PWR_STAT. -/
structure PwrRgn where
  phase   : Nat                           -- of ENTER: 0 none, 1 conditions awaited, 2 draining, 3 clocks stopped and state being saved
  back    : Nat                           -- the state a refused entry returns to
  wait    : Option Nat                    -- a SLEEP (1) or OFF (2) request that waits for recovery or debug halt
  wake    : Option Nat                    -- a wake event recorded in SLEEP or OFF, by cause
  since   : BitVec 64                     -- TB at the acceptance of an entry or at tick 0 of a wake
  mark    : BitVec 64                     -- TB at tick c, then at tick d of an entry (R500)
  fromOff : Bool                          -- the wake is from OFF: arrays and the clear of R64 come in between
  acked   : Bool                          -- pwr_ack was seen in this wake
  ackAt   : BitVec 64                     -- TB when it was
  cleared : Bool                          -- the clear of R64 is done in this wake
  still   : Nat                           -- ticks for which the conditions of automatic idle have held (R502)
  held    : List HeldReq                  -- host register requests held in the register fabric (R421, R501), oldest first
deriving DecidableEq, Repr

def PwrRgn.zero : PwrRgn := ⟨0, 0, none, none, 0, 0, false, false, 0, false, 0, []⟩

/-! ### Fronds (R284 to R354) -/

/-- FRN_STAT.STATE. -/
inductive FrondRun where
  | reset | run | wait | halt | debugHalt | lockup
deriving DecidableEq, Repr

/-- An outstanding LSU load (R317 to R319): its address, size, the status it was issued under, its place in program order and, once the target
has answered, the data and the cause (0 for none). -/
structure LsuLoad where
  pa     : Nat
  size   : Nat
  world  : World
  sup    : Bool
  seq    : Nat
  served : Option (W64 × Nat)
deriving DecidableEq, Repr

/-- A buffered LSU store (R318). -/
structure LsuStore where
  pa     : Nat
  size   : Nat
  data   : W64
  world  : World
  sup    : Bool
  seq    : Nat
  served : Option Nat
deriving DecidableEq, Repr

/-- An FPU operation on its way (R315): the Y port it fills, its result, its flags NV, DZ, OF, UF, NX, and the words transported since its trigger. -/
structure FpuOp where
  y   : Nat
  val : W64
  flg : BitVec 5
  age : Nat
deriving DecidableEq, Repr

/-- A control transfer whose delay word has not yet retired (R299, R351): its NAM, the next address, what it pushes, whether it pops, the branch decision,
the multi-way bits and whether the delay word is annulled. -/
structure Xfer where
  nam   : Nat
  next  : BitVec 16
  push  : Option (BitVec 16)
  pop   : Bool
  taken : Bool
  mw    : BitVec 4
  annul : Bool
deriving DecidableEq, Repr

/-- One frond. -/
structure Frond where
  world   : World                         -- assigned world (R328)
  run     : FrondRun
  pc      : BitVec 16                     -- address of the next word
  lastPc  : BitVec 16                     -- FRN_STAT.PC
  g       : KV W64                        -- g0 to g63, unlisted zero
  p       : BitVec 16
  aluO    : W64
  aluR    : W64
  aluF    : BitVec 4                      -- Z, N, C, V
  msM     : W64
  msACC   : W64
  msQ     : W64
  fA      : W64
  fB      : W64
  fCtl    : W64
  fFlg    : BitVec 5
  fYN     : Nat
  fY      : KV W64                        -- Y0 to Y3
  fPend   : List FpuOp                    -- oldest first
  fpOwed  : Bool                          -- an FP_TRAP is owed (R316)
  fpbar   : Bool                          -- SYS.FPBAR holds the next word (R316)
  lsuSD   : W64
  lsuD    : W64
  lsuErr  : W64
  load    : Option LsuLoad
  stores  : List LsuStore                 -- oldest first, at most 4
  lsuSeq  : Nat
  loadErr : Bool                          -- LSU_ERR owed to the next reader of LSU.D or LSU trigger (R319)
  storeErr : Bool                         -- LSU_ERR owed before the next word (R319)
  lockLine : Option Nat                   -- 64-byte line held
  lockWait : Option Nat                   -- line a LOCK waits for
  lockBrk : Bool                          -- LKST.BRK
  lockAt  : Nat                           -- TB when the line was acquired
  heldWas : Bool                          -- HELD as an UNLOCK found it, for the word after it (R320)
  mbxOvf  : Bool                          -- SYS.MBXST.OVF
  cmdRes  : W64
  resOld  : W64                           -- CMD.RES as seen before its last change, for `resWait` more words (R76)
  resWait : Nat
  postV   : W64                           -- CMD.POSTV, CMD.TOKV, CMD.ACTX as last written (R321)
  tokV    : W64
  actX    : W64
  xIVA    : W64
  xIST    : W64
  istOld  : W64                           -- XLT.IST likewise (R282)
  istWait : Nat
  xPVA    : W64
  xPR     : W64
  st      : W64
  stNext  : Option W64                    -- an ST write that takes effect after its shadow word (R336)
  sra     : BitVec 16
  sst     : W64
  xbaseK  : BitVec 16                     -- the two XBASEs (R339)
  xbaseT  : BitVec 16
  pbar    : Bool
  wev     : BitVec 6
  wevHit  : BitVec 6                      -- events that came true during this wait
  ras     : List (BitVec 16)              -- top first, at most 16
  rptC    : Nat
  rep     : Option Bool                   -- the next word is repeated; NOINT
  repBusy : Bool                          -- an iteration has been executed
  xfer    : Option Xfer
  retx    : Bool                          -- the next word is the delay word of a RETX
  pstack  : List (Nat × Nat)              -- priority stack, top first: source, priority at entry (R368)
  presented : Option Nat                  -- request the controller presents
  -- debug (R464 to R467)
  haltReq : Bool
  stepReq : Bool
  dfpc    : BitVec 16                     -- DBG_FPC.PC
  dfrpi   : Bool
deriving DecidableEq, Repr

/-- A frond at power-on reset: held in reset, ST at supervisor level with ML 15 (R310, R335). -/
def Frond.zero : Frond :=
  { world := .keeper, run := .reset, pc := 0, lastPc := 0, g := [], p := 0, aluO := 0, aluR := 0, aluF := 0, msM := 0, msACC := 0, msQ := 0,
    fA := 0, fB := 0, fCtl := 0, fFlg := 0, fYN := 0, fY := [], fPend := [], fpOwed := false, fpbar := false, lsuSD := 0, lsuD := 0, lsuErr := 0,
    load := none, stores := [], lsuSeq := 0, loadErr := false, storeErr := false, lockLine := none, lockWait := none, lockBrk := false, lockAt := 0, heldWas := false, mbxOvf := false, cmdRes := 0, resOld := 0, resWait := 0,
    postV := 0, tokV := 0, actX := 0, xIVA := 0, xIST := 0, istOld := 0, istWait := 0, xPVA := 0, xPR := 0, st := 0x7D000000, stNext := none, sra := 0, sst := 0, xbaseK := 0,
    xbaseT := 0, pbar := false, wev := 0, wevHit := 0, ras := [], rptC := 0, rep := none, repBusy := false, xfer := none, retx := false, pstack := [],
    presented := none, haltReq := false, stepReq := false, dfpc := 0, dfrpi := false }


/-! ### Links (R189 to R228) -/

/-- When the timers of a link were armed, as values of TB (R208, R209, R219, R224): at the start of AN, or of TRAIN without AN; at the entry to ALIGN; at the last advance of ASEQ,
replay, or first frame held; at the last NK of the NAK state; when a LANESET left; and when INIT was last queued. -/
structure LinkTm where
  train : Nat
  init  : Nat
  rpl   : Nat
  nak   : Nat
  lset  : Nat
  again : Option Nat
deriving DecidableEq, Repr

def LinkTm.zero : LinkTm := ⟨0, 0, 0, 0, 0, none⟩

/-- What a link holds beside its registers. -/
structure LinkSt where
  retry   : List Frame                    -- frames held for replay, oldest first (R209)
  hist    : List Frame                    -- the last 64 sequenced frames sent (R217)
  replay  : Option Nat                    -- REPLAY: place in `retry` of the next frame to resend
  rplSeq  : Option Nat                    -- frame the previous replay started from (R210)
  rplCnt  : Nat
  accSeq  : Option Nat                    -- ASEQ of the own acknowledgement word (R197)
  nkDue   : Bool                          -- the next trailer carries NK = 1
  txq     : List Frame                    -- local and relayed frames waiting, oldest first
  ctlq    : List Frame                    -- sequenced LCTL, EPOCH, SNAK, SREF waiting
  unseq   : List Frame                    -- INIT and INITACK waiting
  owed    : KV Nat                        -- credits owed to the partner, by class
  tc0wait : Nat                           -- slots a TC0 frame with credit has waited (R214)
  mgmt    : List Frame                    -- MGMT frames that wait for the management queue (R199)
  rbuf    : List Frame                    -- DATA and AREC frames accepted and not yet delivered, oldest first: each holds a place of the receive buffer (R213)
  strays  : List Nat                      -- contexts of frames that found no target when they came to be delivered (R175)
  posts   : List Post                     -- at most 8 (R175)
  gotInit : Bool
  gotAck  : Bool
  txRow   : Nat
  txAt    : Nat                           -- first position of the present transmit row that has not had its slot (R205)
  rxAt    : Nat                           -- the same of the row being read, by the sender's positions
  rxRow   : Nat                           -- row number of the last ALIGN frame (R206)
  txNew   : Option Nat                    -- transmit lane set from the next row (R224)
  rxNew   : Option Nat                    -- receive lane set from the next row (R228)
  newSet  : Option Nat                    -- the mask of a LANESET sent and not yet answered (R224)
  lsSent  : Bool                          -- that LANESET has left
  noAn    : Bool                          -- bring-up without AN (R220)
  fbTried : Bool
  want    : Option Nat                    -- the lane set to ask for once the LANESET in progress is answered (R224)
  depth   : Nat                           -- the partner's retry depth, from its INIT (R203, R207)
  tm      : LinkTm
deriving DecidableEq, Repr

def LinkSt.empty : LinkSt :=
  ⟨[], [], none, none, 0, none, false, [], [], [], [], 0, [], [], [], [], false, false, 0, 0, 0, 0, none, none, none, false, false, false, none, 64, LinkTm.zero⟩

/-- What a lane holds beside its registers: bad beats in succession (R222), its deskew (R206), HCRC failures in succession in SYNC (R204), whether it retrains alone, the last frame
it sent, and of its test engine the symbols generated and the quarter symbols compared below the 2^20 symbols of LT_UI (R226). -/
structure LaneSt where
  bad    : Nat
  desk   : Bool
  hfail  : Nat
  alone  : Bool
  outPos : Nat                            -- position the partner's ALIGN frames give
  sent   : List Byte
  gen    : Nat
  ui     : Nat
deriving DecidableEq, Repr

def LaneSt.zero : LaneSt := ⟨0, false, 0, false, 0, [], 0, 0⟩

/-! ### Contexts (R161 to R188) -/

/-- A chain command that the collective service issues: its descriptor words, the operands (0 A, 1 B, 2 D) whose VA is a local offset of the context's mat areas, the link and
STEP it sends on, the step of the schedule it belongs to, and the byte offset of a PUT's first frame (R176). -/
structure SvcCmd where
  words : List Nat
  phys  : List Nat
  send  : Option (Nat × Nat)
  step  : Nat
  put   : Option Nat
deriving DecidableEq, Repr

/-- One act of the collective service in the expansion of a request (R175 to R180). -/
inductive SvcAct where
  | post (lk step : Nat) (chain : Bool) (base len : Nat) (ready : Bool)  -- place a receive post, and send READY for it
  | issue (c : SvcCmd)                                                   -- issue a chain command once the peer's READY for the step it sends has come
  | token (lk step code : Nat) (payload : List Byte)
  | awaitBarrier (lk step : Nat)
  | awaitLanded (lk step base : Nat)                                        -- the landing post of a step is filled
  | awaitChains                                                          -- the request's chain commands have ended
  | awaitDone                                                            -- DONE of a PUT
  | ardy (v : Nat)                                                       -- raise CXE_ARDY
  | awaitArdy (v : Nat)
deriving DecidableEq, Repr

/-- The running request of a context. -/
structure CtxRun where
  words  : List Nat                       -- the request's eight words (R162)
  pa     : Nat
  queue  : Nat                            -- queue it came from
  sqIdx  : Nat
  trapen : Nat                            -- CXE_OPT.TRAPEN at its start (R168)
  block  : Nat                            -- next part of its schedule
  todo   : List SvcAct                    -- acts of the part under way
  last   : Nat                            -- last step completed (R184)
  armed  : Option Nat                     -- TB at which TMO_STEP or TMO_FENCE was armed; none while no wait is under way
  flags  : Nat
  aloss  : Nat
  elems  : Nat
  gotDone : Bool                          -- DONE of its PUT has come
  fail   : Option Nat                     -- status of a chain command of it that failed
  ended  : Option (Nat × Nat)             -- the status it ends with and the rank that caused an abort, once decided
  w7     : Nat                            -- word 7: 0 not written, 1 its M write is unanswered, 2 written and the record handed to its queue
deriving DecidableEq, Repr

/-- What a context holds beside its registers. -/
structure CtxSt where
  run     : Option CtxRun
  ready   : List (Nat × Nat × Nat)        -- READY tokens received: link, STEP, OPID
  barrier : List (Nat × Nat × Nat)        -- BARRIER tokens received
  fences  : List (Nat × Nat × Nat)        -- FENCE tokens received: link, class, OPID
  putBad  : List Nat                      -- links whose present PUT was refused (R176)
  sub     : Nat                           -- subcode of the last CX_ERR (R163)
  gets    : List (Nat × Nat × Nat × Nat × Nat)  -- GET requests admitted: link, STEP, OPID, WOFF, bytes
deriving DecidableEq, Repr

def CtxSt.empty : CtxSt := ⟨none, [], [], [], [], 0, []⟩

/-! ### Host ports and queues (R229 to R256) -/

/-- Which master waits for an M request, with what identifies its access. -/
inductive MUse where
  | walk (r k : Nat)                      -- table read of walk k
  | cas (r k : Nat)                       -- CAS64 of walk k
  | desc (ch id : Nat)
  | prog (ch id : Nat)
  | item (ch id stream item : Nat) (w : World) (asid va : Nat)  -- a piece of a stream access, and the address it was translated from
  | load (f seq : Nat)
  | store (f seq : Nat)
  | record (q : Nat)
  | mover (c : Nat)
  | trace (r : Nat)
  | service (n : Nat)                     -- word 7 of a collective request
deriving DecidableEq, Repr

/-- An M request (R230, R241): waiting for its grant while `tag` is none, then outstanding. -/
structure MReq where
  port    : Nat
  tag     : Option Nat
  op      : Nat                           -- 0 READ, 1 WRITE, 2 CAS64
  addr    : Nat
  len     : Nat
  se      : Bool
  wlk     : Bool
  cls     : Nat
  data    : List Byte                     -- bytes written; for CAS64 the compare and the swap value
  got     : List Byte                     -- bytes read so far
  bad     : List Nat                      -- 64-bit words read whose parity failed, counted from the one that holds the first byte (R235)
  came    : Nat                           -- TB at its arrival
  since   : Nat                           -- TB at its grant
  st      : Nat                           -- error status received so far, 0 for none
  use     : MUse
deriving DecidableEq, Repr

/-- The answer to an S request (R230, R239): its tag, status, data, and the busy indication of each of its beats, or of the response of a write (R243). -/
structure SResp where
  tag    : Nat
  write  : Bool
  status : Nat
  data   : List Byte
  busy   : List Bool
deriving DecidableEq, Repr

/-- A beat of the outbound bus (R230, R231): S read data or M write data, the bytes it carries from their first lane on, the byte enables, and of S read data the tag, the status
and whether busy comes with it. -/
structure OBeat where
  sread : Bool
  lane  : Nat
  data  : List Byte
  be    : BitVec 128
  tag   : Nat
  last  : Bool
  err   : Nat
  busy  : Bool
deriving DecidableEq, Repr

/-- The pins of an M request (R230). -/
structure MPin where
  addr : BitVec 52
  len  : BitVec 12
  tag  : BitVec 10
  op   : BitVec 2
  attr : BitVec 4
deriving DecidableEq, Repr

/-- What a host port drives in one HCK cycle: an M request, an outbound beat, the response to an S write by tag and status, and hpN_busy. -/
structure OCyc where
  mreq : Option MPin
  beat : Option OBeat
  rsp  : Option (Nat × Nat)
  busy : Bool
deriving DecidableEq, Repr

/-- The outbound side of a host port: what waits to be driven, in order, and the last cycle driven. -/
structure PortOut where
  mq    : List MPin
  rd    : List OBeat                      -- S read-data beats
  wr    : List (Nat × OBeat)              -- M write-data beats, with the tag of their request
  rsp   : List (Nat × Nat × Bool)         -- responses to S writes: tag, status, busy
  wwait : Nat                             -- cycles that the oldest M write-data beat has waited (R242)
  hold  : Nat                             -- cycles for which the oldest response, a busy one, has been held (R243)
  pins  : OCyc
deriving DecidableEq, Repr

def OCyc.idle : OCyc := ⟨none, none, none, false⟩
def PortOut.empty : PortOut := ⟨[], [], [], [], 0, 0, OCyc.idle⟩

/-- A completion record before its phase bit (R254). -/
structure Rec where
  status : Nat
  flg    : Nat
  al     : Bool
  src    : Nat
  epoch  : Nat
  ctx    : Nat
  sidx   : Nat
  queue  : Nat
  aloss  : Nat
  crc    : Nat
  chain  : Nat
  elems  : Nat
  prog   : Nat
  rgn    : Nat                            -- region that ran the command (RGN_DISC); no part of the record
deriving DecidableEq, Repr

/-- A command that has joined the completion order of a queue (R252): the command, its CMODE, the queue entry it came from, and its ending: not ended, ended without a
record, or ended with one. -/
structure Join where
  id    : Nat
  ord   : Nat                             -- order of joining: the acceptance number of a chain command, or its like for a collective request
  cmode : Nat
  fromQ : Option (Nat × Nat)              -- the queue and the entry it came from, for HEAD
  done  : Bool
  recd  : Option Rec
deriving DecidableEq, Repr

/-- What the queue engine holds of a queue beside its registers. -/
structure QueueSt where
  joins   : List Join                     -- in join order
  ended   : List (Nat × Bool)             -- entries issued, by index, and whether they are over, oldest first (HEAD, R248)
  writing : Option Rec                    -- the record whose write awaits its response
  wrErr   : Bool                          -- that write, to the cushion, has failed
  mute    : Bool                          -- the queue has been in ERR since it was enabled: no further record of it is written (R251)
  stamp   : Nat                           -- order of the last issue or of becoming non-empty (R250)
  stampTB : Nat                           -- TB of that
  toErr   : Bool                          -- a command was discarded under QHOLD = 1 (R427)
deriving DecidableEq, Repr

def QueueSt.empty : QueueSt := ⟨[], [], none, false, false, 0, 0, false⟩

/-! ### Translation (R257 to R283) -/

/-- A cached translation (R271, R272): size 0 4 KiB, 1 64 KiB, 2 2 MiB, 3 1 GiB; `pa` is the physical address of its first byte; one A and one D bit for each page. -/
structure TcEnt where
  world : World
  asid  : Nat
  size  : Nat
  vpn   : Nat
  pa    : Nat
  ea    : Nat                             -- physical address of the leaf it was filled from (R269)
  r     : Bool
  w     : Bool
  se    : Bool
  a     : BitVec 16
  d     : BitVec 16
  ru    : Bool
deriving DecidableEq, Repr

/-- An entry of the root cache (level 4) or of the pointer cache (levels 0 to 2): the table it points to (R265). -/
structure PtrEnt where
  world : World
  asid  : Nat
  level : Nat
  key   : Nat                             -- VA bits above the level's table
  addr  : Nat
  ru    : Bool
deriving DecidableEq, Repr

/-- Who asked for a walk. -/
inductive WalkFor where
  | chain (ch : Nat) (stream : Nat)
  | probe (f : Nat)
deriving DecidableEq, Repr

/-- A walk (R265 to R274). -/
structure Walk where
  k      : Nat                            -- slot
  who    : WalkFor
  demand : Bool
  write  : Bool
  world  : World
  asid   : Nat
  va     : Nat
  level  : Nat                            -- entry being read: 4 directory, then 0 to 3
  ea     : Nat                            -- its physical address
  phase  : Nat                            -- 0 waiting to start, 1 read outstanding, 2 data arrived, 3 CAS64 outstanding, 4 CAS64 answered, 5 over
  again  : Bool                           -- the read has been repeated (R266)
  entry  : Nat                            -- entry as read, or the value the CAS64 returned
  leaf   : Nat                            -- the leaf as read, while a CAS64 is outstanding
  st     : Nat                            -- status of the answer
  bad    : Bool                           -- it came with a parity error
  stale  : Bool
  setsD  : Bool                           -- the mark under way sets D (R270)
  came   : Nat                            -- TB at its arrival
deriving DecidableEq, Repr

/-- An invalidation (R276 to R279): who issued it (a frond; none for the host), and the accesses it waits for. -/
structure Inval where
  kind   : Nat
  world  : World
  asid   : Nat
  va     : Nat
  by_    : Option Nat
  bcast  : Bool
  awaits : List (Nat × Nat × Nat × Nat)   -- chain, command, stream, item
  begun  : Bool
  home   : Nat                            -- region it was issued in
  uid    : Nat
deriving DecidableEq, Repr

/-- The translation unit of a region. -/
structure XltSt where
  tc    : KV TcEnt                        -- by set × 8 + way
  root  : KV PtrEnt                       -- 256 entries
  ptr   : KV PtrEnt                       -- 512 entries
  walks : List Walk                       -- oldest first
  inv   : List Inval                      -- oldest first, the first in progress
  miss  : Nat                             -- misses of this beat below the 16 of XLT_CNT.MISS
deriving DecidableEq, Repr

def XltSt.empty : XltSt := ⟨[], [], [], [], [], 0⟩

/-! ### Chains (R76 to R111) -/

/-- The source of a chain command (R76, R77, R384). -/
inductive CmdSrc where
  | frond (f : Nat)
  | queue (q : Nat)
  | timer (c : Nat)
deriving DecidableEq, Repr

/-- An access a chain has outstanding: the stream (0 A, 1 B, 2 D, 3 index vector, 5 progress word), the item it serves, the physical pieces still awaited with
the bytes a store writes, what has arrived, and the page's SE bit. -/
structure Acc where
  stream : Nat
  item   : Nat
  va     : Nat
  pieces : List (Nat × Nat)
  data   : List Byte                      -- bytes still to be written (a store)
  got    : List Byte                      -- bytes read so far
  err    : Nat                            -- 0, or the status a failure gives (R107)
  se     : Bool
  seg    : Nat
  badAt  : Nat                            -- local offset of the word that failed, 0 for none (RGN_LOG_ADDR)
deriving DecidableEq, Repr

/-- A computed item that waits for its translation: its item number, virtual address, bytes and segment. -/
structure OutItem where
  item : Nat
  va   : Nat
  data : List Byte
  seg  : Nat
deriving DecidableEq, Repr

/-- What the progress word carries at a segment boundary (R104). -/
structure Bound where
  seg : Nat
  ps  : Bool
  al  : Bool
  flg : Nat
  crc : Nat
deriving DecidableEq, Repr

/-- How a command ends (R108): status, failing stream, DESC_ERR subcode and the address captured. -/
structure Ending where
  status : Nat
  stream : Nat
  sub    : Nat
  va     : Nat
deriving DecidableEq, Repr

/-- A command accepted by a chain. -/
structure Exec where
  id      : Nat                           -- acceptance number, unique in the macro
  src     : CmdSrc
  world   : World                         -- world of the issuer (R90 subcode 0x0C)
  sqIdx   : Nat                           -- submission index of a queue's command (R252)
  descPA  : Nat
  epoch   : Nat
  words   : List Nat                      -- the descriptor's eight words once fetched
  checked : Bool
  started : Bool
  pairOk  : Bool                          -- its group has formed, or it needs none (R99)
  sl      : Nat                           -- segment length (R100)
  idx     : Nat                           -- next element to process
  base    : Nat                           -- element at which this issue began (R109)
  fetchA  : Nat                           -- next item each fetch stream asks for
  fetchB  : Nat
  fetchI  : Nat
  bufA    : List (List Byte)              -- items that have arrived, in order from the next to process
  bufB    : List (List Byte)
  bufI    : List (List Byte)
  accs    : List Acc
  recs    : KV Nat                        -- anchor records read, by block of the command
  outQ    : List OutItem                  -- items to store, not yet requested
  frame   : List Byte                     -- bytes packed toward the next frame of a link destination (R98)
  frameIx : Nat                           -- element index of its first element
  flags   : Nat
  al      : Bool
  aloss   : Nat
  crc     : Nat
  snap    : Bound                         -- values at the start of the present segment
  snapLoss : Nat
  older   : List (Bound × Nat)            -- the same of the segments before, newest first, at most 66
  rereads : List Nat                      -- segments that have been re-read once (R107)
  fail    : Option Ending                 -- a failed read of the present segment
  failSE  : Bool
  failAt  : Nat × Nat                     -- arbitration index and local offset of the failed read (RGN_LOG_INFO, RGN_LOG_ADDR)
  again   : Option (Nat × Nat)            -- the failed read that the re-read under way answers
  bounds  : List Bound                    -- boundaries whose progress word is not yet written
  prog    : Bound                         -- as last written
  storedSeg : Option Nat                  -- highest segment with an acknowledged store
  stopReq : Bool
  ending  : Option Ending
  pgSeg   : Nat                           -- segment of D whose pages are looked at (R96)
  pgIt    : Nat                           -- its first item whose pages are not known yet
  seSegs  : List Nat                      -- segments found to store to a page with side effects
  seRead  : Option Nat                    -- last segment in which a page with side effects was read (R94)
  trapDue : Bool
  gid     : Nat                           -- the group it runs in, 0 for none (R99)
  wrote   : Bool                          -- this issue has written the progress word
  finalW  : Bool                          -- the last progress word of a command that stopped early is written
  rsA     : Option (List (List Byte))     -- items past the segment held while a resend of link input A is awaited (R217)
  rsB     : Option (List (List Byte))
  rsTo    : Nat                           -- element after the last one asked for again
  svc     : Option SvcCmd                 -- a command of the collective service
  getRsp  : Bool                          -- it answers a peer's GET (R176)
deriving DecidableEq, Repr

/-- One chain: the commands in execution, oldest first (the last is the one in the running place), and the pending one (R78). -/
structure Chain where
  act   : List Exec
  pend  : Option Exec
  ubuf  : List TcEnt                      -- micro-buffer, most recently used first, at most 64 (R273)
  elemAcc : Nat                           -- elements of this beat below the 256 of CHN_ELEMS
deriving DecidableEq, Repr

def Chain.empty : Chain := ⟨[], none, [], 0⟩

/-! ### Timers, lichen, start-up, debug and trace -/

/-- What a timer channel holds beside its registers: whether a mover write awaits its response (R385). -/
structure TmrSt where
  mover : Bool
deriving DecidableEq, Repr

def TmrSt.zero : TmrSt := ⟨false⟩

/-- The contents of an accepted Alvos image that the always-on island shadows (R442). -/
structure Shadow where
  march  : Bool
  mreg   : Nat
  repair : Bool
  mfail  : Bool
  lwait  : Nat
  bootT  : Nat
  node   : Nat
  worlds : Nat
  lanes  : List W32
  recs   : List (Nat × W32)
  ctxs   : List (Nat × List W32)
  digP   : List Byte                      -- digest of the patch section
  digC   : List Byte                      -- digest of the customer section
  hasP   : Bool
  hasC   : Bool
deriving DecidableEq, Repr

/-- The configuration loader. -/
structure BootSt where
  shadow  : Option Shadow
  reached : Bool                          -- a cold start since por_n has reached step 5
  t0      : BitVec 64                     -- TB at the release that began this start
  waitEnd : Bool                          -- keeper microcode no longer waits for links (step 6)
  step5   : BitVec 64                     -- TB at step 5
  busy    : List Nat                      -- regions whose power-up this step awaits
  bootx   : Bool                          -- BOOTX may be accepted (R412)
  secs    : List Byte                     -- what the second read gave of section 0x03, kept until the regions are up
  secsP   : List Byte
  read2   : Bool                          -- the second read is complete
  flash   : Nat                           -- 0 no discovery yet, 1 single SPI, 2 octal DTR
deriving DecidableEq, Repr

def BootSt.zero : BootSt := ⟨none, false, 0, false, 0, [], false, [], [], false, 0⟩

/-- A trace packet (R473): VALUE, and TYPE to TIME. -/
structure Pkt where
  w0 : W64
  w1 : W64
deriving DecidableEq, Repr

/-- The answer to a debug request frame (R452). -/
structure DbgRsp where
  ack  : Nat
  peek : Bool
  data : W32
deriving DecidableEq, Repr

/-- The debug logic beside its registers. -/
structure DbgSt where
  key     : Option (List Byte)            -- debug key hash
  ignore  : Bool                          -- DBG_IO ignored until a line reset (R453)
  rsp     : Option DbgRsp                 -- last response
  last    : Nat                           -- TB of the last good request frame (R458)
  hold    : Option Nat                    -- TB at a failed verification, while CHAL stays refused (R457)
  fifo    : List Pkt                      -- debug FIFO (R475)
  goLevel : Nat                           -- LEVEL under verification
  goOk    : Bool                          -- a challenge was outstanding at GO
  wrap    : Bool                          -- TB[47:0] has wrapped in this tick, and no SYNC packet marks it yet (R473)
deriving DecidableEq, Repr

def DbgSt.zero : DbgSt := ⟨none, false, none, 0, none, [], 0, false, false⟩

/-- The trace queue of a frond (R474): its packets, and the packets dropped since the last delivered one. -/
structure TraceQ where
  pkts : List Pkt
  lost : Nat
deriving DecidableEq, Repr

def TraceQ.empty : TraceQ := ⟨[], 0⟩

/-- A region recovery under way (R419 to R430): the beat at which its drain began, and whether kn_fatal caused it. -/
structure RecSt where
  since : Nat
  fatal : Bool
  want  : Nat                             -- cause of a trigger that waits for the region to be in run or idle, 0 for none (R419)
  clear : Nat                             -- TB at the start of RESET (R420)
deriving DecidableEq, Repr

def RecSt.zero : RecSt := ⟨0, false, 0, 0⟩

/-! ### The block -/

/-- Everything but the queue of waiting commands. -/
structure Hw where
  cfg       : KCfg
  regs      : KV W32                      -- the register file by privileged local offset
  mem       : KV Byte                     -- mat and cushion by local offset
  marked    : KV Unit                     -- words holding bad parity, by address / 8
  undefBank : List Nat                    -- banks whose contents are undefined (R69)
  defd      : KV Unit                     -- words of such banks written since
  mats      : KV MatRgn
  rmap      : KV Nat
  matResp   : Option MatResp
  rgnLogs   : KV (List (W32 × W32))
  meuLogs   : List (W32 × W32)
  fronds    : KV Frond
  scratch   : KV Byte                     -- frond f × 65,536 + offset
  csRam     : KV (BitVec 256)             -- region × 65,536 + word address
  mbxK      : KV (List W64)               -- mailbox toward the keeper world, by region
  mbxT      : KV (List W64)
  mgmtQ     : KV (List Frame)             -- management queue by region (R199)
  svcQ      : KV (List (Nat × Nat × Nat)) -- requests handed to the service by region: queue, index, address
  svcTaken  : KV (List (Nat × Nat × Nat)) -- requests a frond has popped from CMD.SQIN and not yet started, by region
  chains    : KV Chain
  links     : KV LinkSt
  lanes     : KV LaneSt
  ctxs      : KV CtxSt
  queues    : KV QueueSt
  mreqs     : List MReq                   -- in order of arrival
  sresp     : KV SResp                    -- last S response by port
  out       : KV PortOut                  -- outbound side by port (R230, R242, R243)
  scred     : KV (Nat × Nat)              -- S request and write-data credits granted by port
  retired   : List (Nat × Nat)            -- retired tags: port, tag (R234)
  hpAcc     : KV (Nat × Nat)              -- bytes of this beat below the 4 KiB of HP_BYTES, outbound and inbound, by port
  xlts      : KV XltSt
  irqAge    : KV Nat
  irqHoff   : KV Nat                      -- groups in hold-off: TB when the interval began (R373)
  irqIn     : Nat
  tmrs      : KV TmrSt
  tmrLink   : List (Nat × Nat)            -- link operations due: operation, channel (R386)
  tgate     : Nat
  snaps     : KV W32                      -- TB_HI snapshots: frond f, host port 16 + n, session 32
  wdtLim    : Nat                         -- ticks of the watchdog stage in force
  tb        : BitVec 64
  beatDiv   : Nat                         -- CK_A ticks since the last beat boundary; at 50,000 the next one is due (R12)
  lchKey    : Option (List Byte)          -- second-party key
  lchArm    : Nat                         -- TB at PROPOSE, then at the entry to PENDING, which arms the window (R405, R409)
  lchSalt   : List Byte                   -- salt of the proposal (R406)
  lchExp    : Bool                        -- the window expired in VERIFY
  boot      : BootSt
  dbg       : DbgSt
  trace     : KV TraceQ
  pwr       : KV PwrRgn
  recs      : KV RecSt
  wearBeats : Nat                         -- beats since the last wear interval ended (R530)
  wear      : KV (Nat × Nat)              -- by region: beats in RUN or IDLE not yet an hour, and the equivalent life not yet a unit of WR_EQH (R530)
  porN      : Bool                        -- pins
  rstN      : Bool
  testEn    : Bool
  clkStop   : Bool                        -- CK_D, CK_F, CK_M and CK_S stand still (R495)
  pllLost   : Bool                        -- the core PLL has lost lock and the clocks have not restarted since (R495)
  pllAt     : Nat                         -- TB at its last lock
  busRd     : W32                         -- data of the last register read
  seq       : Nat                         -- next acceptance number
  free      : Nat                         -- free values used
deriving DecidableEq, Repr

/-- The state of the model: the block, and the commands that wait, first in first out. -/
structure State where
  hw      : Hw
  pending : List Instr
deriving DecidableEq, Repr

/-- No command of this model stops with a fault: a command whose precondition fails has no effect, as the specification's own refusals say. Nothing raises it. -/
inductive Fault where
  | unused
deriving DecidableEq, Repr

/-- Reasons to give no meaning. -/
inductive Refusal where
  /-- Raised by an arm of `exec` whose command has no meaning yet; safe: nothing can be proved of such a command's effect. -/
  | notModelled (mnemonic : String)
deriving DecidableEq, Repr

/-- The block while por_n is low: every register at its power-on reset value, every memory empty, every region OFF, no clock but CK_A (R431, R490). The configuration is
KN4-L (R5). -/
def Hw.reset : Hw :=
  { cfg := .kn4L, regs := [], mem := [], marked := [], undefBank := [], defd := [], mats := [], rmap := [], matResp := none, rgnLogs := [],
    meuLogs := [], fronds := [], scratch := [], csRam := [], mbxK := [], mbxT := [], mgmtQ := [], svcQ := [], svcTaken := [], chains := [],
    links := [], lanes := [], ctxs := [], queues := [], mreqs := [], sresp := [], out := [], scred := [], retired := [], hpAcc := [], xlts := [], irqAge := [],
    irqHoff := [], irqIn := 0, tmrs := [], tmrLink := [], tgate := 0, snaps := [], wdtLim := 0, tb := 0, beatDiv := 0, lchKey := none, lchArm := 0,
    lchSalt := [], lchExp := false, boot := BootSt.zero, dbg := DbgSt.zero, trace := [], pwr := [], recs := [], wearBeats := 0, wear := [], porN := false, rstN := true,
    testEn := false, clkStop := false, pllLost := false, pllAt := 0, busRd := 0, seq := 0, free := 0 }

/-- The machine right after reset. -/
def State.reset : State := { hw := Hw.reset, pending := [] }

end Sys2Proof.Machine
end

