-- ==== Sys2Proof/Machine/Ops.lean ====
section
/-!
DEFINITION. The named operations every family uses: sparse maps, register fields, the register file with its reset values, byte memory in canonical form,
which resources a configuration has, claims (R29 to R34), the error logs (R428, R432) and free values.
-/
namespace Sys2Proof.Machine

/-! ### Sparse maps -/

/-- The value stored at a key. -/
def kvFind {α : Type} : KV α → Nat → Option α
  | [], _ => none
  | (k', v) :: m, k => if k = k' then some v else kvFind m k

/-- The value at a key, or the default of an unlisted key. -/
def kvGet {α : Type} (d : α) (m : KV α) (k : Nat) : α := (kvFind m k).getD d

/-- Store a value, keeping the keys strictly rising. -/
def kvIns {α : Type} : KV α → Nat → α → KV α
  | [], k, v => [(k, v)]
  | (k', v') :: m, k, v =>
    if k < k' then (k, v) :: (k', v') :: m
    else if k = k' then (k, v) :: m
    else (k', v') :: kvIns m k v

/-- Remove a key. -/
def kvDel {α : Type} (m : KV α) (k : Nat) : KV α := m.filter (fun e => e.1 != k)

/-- Keep the entries whose key satisfies a test. -/
def kvKeep {α : Type} (p : Nat → Bool) (m : KV α) : KV α := m.filter (fun e => p e.1)

/-- Keys of a sparse map in strictly rising order. -/
def kvSorted {α : Type} (m : KV α) : Bool := decide ((m.map (·.1)).Pairwise (· < ·))

/-- Fold a state transformer over a list of indices, in order. -/
def forEach {σ : Type} (is : List Nat) (s : σ) (f : σ → Nat → σ) : σ := is.foldl f s

/-- The numbers from a to b inclusive. -/
def rangeIncl (a b : Nat) : List Nat := (List.range (b + 1 - a)).map (· + a)

/-! ### Bits and fields -/

/-- Bits hi..lo of a natural number. -/
def bits (v hi lo : Nat) : Nat := (v >>> lo) % 2 ^ (hi + 1 - lo)

/-- One bit of a natural number. -/
def bit (v i : Nat) : Bool := (v >>> i) % 2 == 1

/-- A Boolean as 0 or 1. -/
def b2n (b : Bool) : Nat := if b then 1 else 0

/-- The value of a register field. -/
def fldGet (f : Fld) (v : W32) : Nat := bits v.toNat (f.lo + f.w - 1) f.lo

/-- A register word with one field replaced. -/
def fldSet (f : Fld) (v : W32) (n : Nat) : W32 :=
  let m : W32 := BitVec.ofNat 32 ((2 ^ f.w - 1) <<< f.lo)
  (v &&& ~~~m) ||| (BitVec.ofNat 32 (n <<< f.lo) &&& m)

/-- The low 32 bits. -/
def lo32 (v : W64) : W32 := v.setWidth 32
/-- The high 32 bits. -/
def hi32 (v : W64) : W32 := (v >>> 32).setWidth 32
/-- A 64-bit value from its two words. -/
def join64 (hi lo : W32) : W64 := (hi.setWidth 64 <<< 32) ||| lo.setWidth 64

/-- Bytes of a natural number, least significant first (R317: little-endian). -/
def leBytes : Nat → Nat → List Byte
  | 0, _ => []
  | n + 1, v => BitVec.ofNat 8 v :: leBytes n (v / 256)

/-- The number spelled by bytes, least significant first. -/
def leNat : List Byte → Nat
  | [] => 0
  | b :: bs => b.toNat + 256 * leNat bs

/-- The number spelled by bytes, most significant first. -/
def beNat (bs : List Byte) : Nat := leNat bs.reverse

/-! ### Configuration (R4, R19) -/

end Sys2Proof.Machine

namespace Sys2Proof

/-- Number of regions. -/
def KCfg.regions : KCfg → Nat
  | .kn4S => 1 | .kn4M => 2 | .kn4L => 4

/-- Look-ahead walks drop SE translations (R6, SYS_CONFIG.LASEF). -/
def KCfg.lasef : KCfg → Bool
  | .kn4L => true | _ => false

end Sys2Proof

namespace Sys2Proof.Machine

/-- SYS_CONFIG of each configuration (R3). -/
def sysConfig : KCfg → W32
  | .kn4L => 0x0080200C | .kn4M => 0x00401002 | .kn4S => 0x00200801

def Hw.nRegions (h : Hw) : Nat := h.cfg.regions
def Hw.hasRegion (h : Hw) (r : Nat) : Bool := r < h.nRegions
def Hw.hasFrond (h : Hw) (f : Nat) : Bool := f < 2 * h.nRegions
def Hw.hasChain (h : Hw) (ch : Nat) : Bool := ch < 8 * h.nRegions
def Hw.hasLane (h : Hw) (l : Nat) : Bool := l < 32 * h.nRegions
def Hw.hasPort (h : Hw) (n : Nat) : Bool := n < 2 * h.nRegions
def Hw.hasQueue (h : Hw) (q : Nat) : Bool := q < 256 * h.nRegions
def Hw.hasCtx (h : Hw) (n : Nat) : Bool := n < 1024 * h.nRegions
/-- Indices of the regions the configuration has. -/
def Hw.regionList (h : Hw) : List Nat := List.range h.nRegions
/-- Fronds of a region. -/
def frondsOf (r : Nat) : List Nat := [2 * r, 2 * r + 1]

/-! ### Reset values of registers -/

/-- A source of the interrupt controller that the configuration has (R356). -/
def srcExists (c : KCfg) (s : Nat) : Bool :=
  if s < 416 then s / 104 < c.regions && s % 104 < 98 else s < 483

/-- Level source or event source (R356); TRIG decides for sources 448 to 479. -/
def srcLevelFixed (s : Nat) : Bool :=
  if s < 416 then
    let n := s % 104
    (48 ≤ n && n ≤ 55) || (88 ≤ n && n ≤ 97)
  else s == 481 || s == 482

/-- The value a register holds after reset (each register's own table in the specification). -/
def regReset (c : KCfg) (a : Nat) : W32 :=
  if a = SYS_IDENT then 0x4B4E0410
  else if a = SYS_CONFIG then sysConfig c
  else if a / 0x100000 = 0x201 then (if a % 0x10000 = 0 then 0x84 else 0)
  else if a / 0x100000 = 0x203 then
    (let o := a % 0x10000
     if o < 0x800 then
       (if o % 0x40 = 0x18 then 0xFFFF else if o % 0x40 = 0x20 then 0x80010A00 else 0)
     else if o = 0x2000 then 0x04000410
     else if o = 0x2004 then 0x20402380
     else if o = 0x2008 then 0x40407D7D
     else 0)
  else if a / 0x100000 = 0x204 then
    (if a % 0x40000 < 0x10000 && a % 0x40 == 8 then 0x40 else 0)
  else if a / 0x100000 = 0x207 then (if a % 0x10000 = 0 then 0x10 else 0)
  else if a / 0x100000 = 0x20A then
    (let o := a - 0x20A00000
     if 0x1000 ≤ o && o < 0x3000 then
       (let s := (o - 0x1000) / 0x10
        if !srcExists c s then 0
        else if o % 0x10 = 0 then 0x800A0A00
        else if o % 0x10 = 4 then
          (if s < 416 then BitVec.ofNat 32 (0x00030000 <<< (2 * (s / 104))) else 0x00FF0000)
        else 0)
     else 0)
  else if a = TMR_CLAIM 31 then 0x80030A00
  else if a = WDT_T1 then 0x05F5E100
  else if a = WDT_T2 then 0x00989680
  else if a / 0x100000 = 0x20D then (if a % 0x10000 = 0 && a / 0x10000 % 16 < c.regions then 0x0808 else 0)
  else if a = DBG_CTL then 0x800
  else if a / 0x1000 = 0x21900 then
    (let o := a % 0x1000
     if o < 0x80 && o / 0x20 < c.regions then (if o % 0x20 = 0 then 0x00040100 else if o % 0x20 = 8 then 1 else 0)
     else if a = WR_THR then 0x64
     else 0)
  else 0

/-- The stored value of a register. -/
def Hw.rd (h : Hw) (a : Nat) : W32 := (kvFind h.regs a).getD (regReset h.cfg a)
/-- Store a register word. -/
def Hw.wr (h : Hw) (a : Nat) (v : W32) : Hw := { h with regs := kvIns h.regs a v }
/-- The value of a field of a register. -/
def Hw.rf (h : Hw) (a : Nat) (f : Fld) : Nat := fldGet f (h.rd a)
/-- Replace a field of a register. -/
def Hw.wf (h : Hw) (a : Nat) (f : Fld) (n : Nat) : Hw := h.wr a (fldSet f (h.rd a) n)
/-- A one-bit field as a Boolean. -/
def Hw.rb (h : Hw) (a : Nat) (f : Fld) : Bool := h.rf a f == 1
/-- Set a one-bit field. -/
def Hw.sb (h : Hw) (a : Nat) (f : Fld) : Hw := h.wf a f 1
/-- Add to a saturating field. -/
def Hw.addSat (h : Hw) (a : Nat) (f : Fld) (n : Nat) : Hw := h.wf a f (min (2 ^ f.w - 1) (h.rf a f + n))
/-- Add to a wrapping field. -/
def Hw.addWrap (h : Hw) (a : Nat) (f : Fld) (n : Nat) : Hw := h.wf a f ((h.rf a f + n) % 2 ^ f.w)
/-- A 64-bit value held in a LO and a HI register. -/
def Hw.rdPair (h : Hw) (lo hi : Nat) : Nat := (h.rd lo).toNat + 2 ^ 32 * (h.rd hi).toNat
/-- Return every register whose address satisfies a test to its reset value. -/
def Hw.resetRegs (h : Hw) (p : Nat → Bool) : Hw := { h with regs := kvKeep (fun a => !p a) h.regs }
/-- Copy a per-beat counter to its last-beat copy and clear it (R14). -/
def Hw.beatCopy (h : Hw) (a last : Nat) : Hw := (h.wr last (h.rd a)).wr a 0

/-! ### Byte memory -/

/-- Store a byte in the canonical form: an unlisted address reads as zero (R64). -/
def memSet (m : KV Byte) (a : Nat) (v : Byte) : KV Byte := if v = 0 then kvDel m a else kvIns m a v
/-- Read a byte. -/
def memGet (m : KV Byte) (a : Nat) : Byte := kvGet 0 m a
/-- Store consecutive bytes. -/
def memSets : KV Byte → Nat → List Byte → KV Byte
  | m, _, [] => m
  | m, a, b :: bs => memSets (memSet m a b) (a + 1) bs
/-- Read consecutive bytes. -/
def memGets (m : KV Byte) (a n : Nat) : List Byte := (List.range n).map (fun i => memGet m (a + i))
/-- The canonical form of a memory: keys strictly rising and no listed zero. -/
def Memory.wf (m : KV Byte) : Bool := kvSorted m && m.all (fun e => e.2 != 0)

/-! ### Address classes (R511, R512) -/

end Sys2Proof.Machine

namespace Sys2Proof

/-- Bytes of mat and of cushion in the configuration. -/
def KCfg.matSize (c : KCfg) : Nat := c.regions * 0x2000000
def KCfg.cushSize (c : KCfg) : Nat := c.regions * 0x100000

end Sys2Proof

namespace Sys2Proof.Machine

/-- A local offset in the mat (R44). -/
def Hw.inMat (h : Hw) (a : Nat) : Bool := a < h.cfg.matSize
/-- A local offset in the cushion (R53). -/
def Hw.inCush (h : Hw) (a : Nat) : Bool := 0x10000000 ≤ a && a < 0x10000000 + h.cfg.cushSize
/-- Mat or cushion. -/
def Hw.inMem (h : Hw) (a : Nat) : Bool := h.inMat a || h.inCush a
/-- The region that holds a mat or cushion offset. -/
def memRegion (a : Nat) : Nat := if a < 0x10000000 then a / 0x2000000 else bits a 21 20
/-- The bank of a mat offset (R44), or of a cushion offset (R53). -/
def memBank (a : Nat) : Nat :=
  if a < 0x10000000 then
    let w := bits a 24 3
    Nat.xor (bits w 9 0) (bits w 19 10)
  else bits (bits a 19 3) 5 0
/-- The in-bank index. -/
def memIndex (a : Nat) : Nat :=
  if a < 0x10000000 then bits (bits a 24 3) 21 10 else bits (bits a 19 3) 16 6
/-- The local offset of a bank's word: the decode of R44 and R53 read backwards. -/
def memWordAt (r : Nat) (cush : Bool) (bank x : Nat) : Nat :=
  if cush then 0x10000000 + r * 0x100000 + 8 * (x * 64 + bank)
  else r * 0x2000000 + 8 * (x * 1024 + Nat.xor bank (x % 1024))
/-- A 53-bit physical address in the local space (R511), as its offset. -/
def paLocal (pa : Nat) : Option Nat := if bit pa 52 then some (pa % 2 ^ 52) else none

/-! ### Fronds, power and region state -/

def Hw.frond (h : Hw) (f : Nat) : Frond := kvGet Frond.zero h.fronds f
def Hw.setFrond (h : Hw) (f : Nat) (x : Frond) : Hw := { h with fronds := kvIns h.fronds f x }
def Hw.mat (h : Hw) (r : Nat) : MatRgn := kvGet MatRgn.empty h.mats r
def Hw.setMat (h : Hw) (r : Nat) (x : MatRgn) : Hw := { h with mats := kvIns h.mats r x }

/-- PWR_STAT.STATE codes (R498). -/
def psOff : Nat := 0
def psPowerup : Nat := 1
def psRun : Nat := 2
def psIdle : Nat := 3
def psEnter : Nat := 4
def psSleep : Nat := 5
def psWake : Nat := 6

/-- The power state of a region. -/
def Hw.pwrState (h : Hw) (r : Nat) : Nat := h.rf (PWR_STAT r) PWR_STAT_STATE
/-- RGN_STAT.STATE: 0 RUN, 1 QUIESCE, 2 DISCARD, 3 RESET, 4 REJOIN, 5 HALTED. -/
def Hw.rgnState (h : Hw) (r : Nat) : Nat := h.rf (RGN_STAT r) RGN_STAT_STATE
/-- The region's current epoch (R422). -/
def Hw.epoch (h : Hw) (r : Nat) : Nat := h.rf (RGN_STAT r) RGN_STAT_EPOCH

/-- Out of both resets with the core clocks running (R490, R491, R495). -/
def Hw.clocked (h : Hw) : Bool := h.porN && h.rstN && !h.clkStop

/-- A region in run or idle (R364, R419, R501). -/
def Hw.inService (h : Hw) (r : Nat) : Bool := h.hasRegion r && (h.pwrState r == psRun || h.pwrState r == psIdle)
/-- A region whose units may begin work: in run or idle, or in ENTER before the conditions of R500 hold. -/
def Hw.working (h : Hw) (r : Nat) : Bool :=
  h.inService r || (h.hasRegion r && h.pwrState r == psEnter && (kvGet PwrRgn.zero h.pwr r).phase == 1)
/-- Whether the mat and cushion of a region are served: RUN, IDLE or ENTER (R498, R63). -/
def Hw.memServed (h : Hw) (r : Nat) : Bool :=
  h.hasRegion r && (h.pwrState r == psRun || h.pwrState r == psIdle || h.pwrState r == psEnter)
/-- A demand on a region in IDLE returns it to RUN (R502). -/
def Hw.idleLeave (h : Hw) (r : Nat) : Hw := if h.pwrState r = psIdle then h.wf (PWR_STAT r) PWR_STAT_STATE psRun else h

end Sys2Proof.Machine

namespace Sys2Proof

/-- A supervisor of the keeper world: a frond, or a keeper-level debug session (R455); the loader and macro hardware write below any such check. -/
def Who.keeperSup (w : Who) : Bool :=
  match w.agent with
  | .frond _ => w.sup && w.world == .keeper
  | .debugger => w.world == .keeper
  | .host => false
  | .hw => true
  | .loader => true
/-- A supervisor frond of the keeper world only. -/
def Who.keeperFrond (w : Who) : Bool :=
  match w.agent with
  | .frond _ => w.sup && w.world == .keeper
  | _ => false
/-- The host with hpN_sreq_priv = 1. -/
def Who.hostPriv (w : Who) : Bool := w.agent == .host && w.sup
/-- A supervisor of either world: a frond, or a session (R455). -/
def Who.anySup (w : Who) : Bool :=
  match w.agent with
  | .frond _ => w.sup
  | .debugger => true
  | .host => false
  | .hw => true
  | .loader => true

end Sys2Proof

namespace Sys2Proof.Machine

/-- The next free value (R7), and the state with the counter advanced. -/
def Hw.fresh (h : Hw) : W64 × Hw := (Config.freeValue h.free, { h with free := h.free + 1 })

/-! ### Claims (R29 to R34) -/

/-- The agent code of R30; the configuration loader acts as macro hardware, 0xA (chapter 15, opening words). -/
def agentCode : Agent → Nat
  | .frond f => f | .host => 8 | .debugger => 9 | .hw => 0xA | .loader => 0xA

/-- WORLD of a claim: 0 for the host and macro hardware (R29). -/
def claimWorld (w : Who) : Nat :=
  match w.agent with
  | .host => 0 | .hw => 0 | .loader => 0
  | _ => if w.world = .tenant then 1 else 0

/-- What a write to a claim register did. -/
inductive ClaimOut where
  | none | claimed | kept | released | refused
deriving DecidableEq, Repr

def cHELD : Fld := ⟨31, 1⟩
def cREL : Fld := ⟨30, 1⟩
def cREQ : Fld := ⟨29, 1⟩
def cFEAT : Fld := ⟨16, 8⟩
def cWORLD : Fld := ⟨12, 1⟩
def cAGENT : Fld := ⟨8, 4⟩
def cGEN : Fld := ⟨0, 8⟩

/-- The holder of a claim register is this agent (R30, R34); the agent is the code alone, so a frond that changes its world keeps what it holds (R329). -/
def Hw.holds (h : Hw) (a : Nat) (w : Who) : Bool := h.rf a cHELD == 1 && h.rf a cAGENT == agentCode w.agent

/-- A write to a claim register (R32, R33, R34); `admits` is the resource's own condition on a new claim. -/
def claimWrite (h : Hw) (a : Nat) (w : Who) (v : W32) (admits : Bool) : Hw × ClaimOut :=
  let req := fldGet cREQ v == 1
  let rel := fldGet cREL v == 1
  let feat := fldGet cFEAT v
  if req && rel then (h, .none)
  else if req then
    (if h.rf a cHELD = 0 then
      (if admits then
        (h.wr a (fldSet cHELD (fldSet cFEAT (fldSet cAGENT (fldSet cWORLD (fldSet cGEN 0 ((h.rf a cGEN + 1) % 256))
          (claimWorld w)) (agentCode w.agent)) feat) 1), .claimed)
       else (h, .refused))
     else if h.holds a w && h.rf a cFEAT == feat then (h, .kept)
     else (h, .refused))
  else if rel then
    (if h.holds a w then (h.wr a (fldSet cGEN 0 (h.rf a cGEN)), .released) else (h, .refused))
  else (h, .none)

/-- Free a claim without a REL write (R35). -/
def claimFree (h : Hw) (a : Nat) : Hw := h.wr a (fldSet cGEN 0 (h.rf a cGEN))

/-! ### Beats (R12, R15) -/

/-- CK_A ticks of a beat (R12). -/
def beatTicks : Nat := 50000
/-- A beat boundary is due: its tick has come, and it has not been performed (R12). -/
def Hw.beatDue (h : Hw) : Bool := h.beatDiv == beatTicks
/-- The CK_A tick of a beat boundary, before or after the boundary within it. -/
def Hw.atBeat (h : Hw) : Bool := h.beatDue || (h.beatDiv == 0 && h.tb != 0)
/-- An interval of n beats that was armed at a value of TB expires at this boundary: at least n times 500 µs have passed (R15). -/
def Hw.beatsOver (h : Hw) (armed n : Nat) : Bool := h.atBeat && decide (n * beatTicks ≤ (h.tb - BitVec.ofNat 64 armed).toNat)

/-! ### Error logs -/

/-- TB[15:0]. -/
def Hw.tblo (h : Hw) : Nat := h.tb.toNat % 2 ^ 16

/-- Append to the region error log: 16 entries, a full log drops the entry and sets LOVF (R432, RGN_LOG_INFO). -/
def rgnLog (h : Hw) (r cls unit addr : Nat) : Hw :=
  let log := kvGet [] h.rgnLogs r
  let e : W32 := fldSet RGN_LOG_INFO_VALID (fldSet RGN_LOG_INFO_CLASS (fldSet RGN_LOG_INFO_UNIT
    (fldSet RGN_LOG_INFO_EPOCH (fldSet RGN_LOG_INFO_TBLO 0 h.tblo) (h.epoch r)) unit) cls) 1
  if log.length < 16 then
    ({ h with rgnLogs := kvIns h.rgnLogs r (log ++ [(e, BitVec.ofNat 32 (addr % 2 ^ 29))]) }).sb (RGN_STAT r) RGN_STAT_LOG
  else h.sb (RGN_STAT r) RGN_STAT_LOVF

/-- Append to the macro error log (R428). -/
def meuLog (h : Hw) (cls r addr : Nat) : Hw :=
  let e : W32 := fldSet MEU_LOG_INFO_VALID (fldSet MEU_LOG_INFO_CLASS (fldSet MEU_LOG_INFO_REGION
    (fldSet MEU_LOG_INFO_TBLO 0 h.tblo) r) cls) 1
  if h.meuLogs.length < 16 then
    { h with meuLogs := h.meuLogs ++ [(e, BitVec.ofNat 32 (addr % 2 ^ 30))] }
  else h.sb MEU_STAT MEU_STAT_LOVF

end Sys2Proof.Machine
end

