-- ==== Sys2Proof/Machine/Arith.lean ====
section
/-!
DEFINITION. Number formats and arithmetic (R112 to R160): decoding and encoding of the floating formats, one rounding function for every attribute,
the operations of rounded mode, conversions to and from integers, division by N, block scaling, stochastic rounding and anchored summation. Finite values
are exact: a sign, a natural mantissa and an integer exponent.
-/
namespace Sys2Proof.Machine

/-! ### Flags (R119): NV 16, DZ 8, OF 4, UF 2, NX 1 -/

def fNV : Nat := 16
def fDZ : Nat := 8
def fOF : Nat := 4
def fUF : Nat := 2
def fNX : Nat := 1

/-- The union of two flag sets. -/
def orF (a b : Nat) : Nat := Nat.lor a b

/-! ### Formats (R112, R113) -/

/-- How a floating format encodes infinity and NaN. -/
inductive Special where
  | ieee    -- exponent of all ones: infinity and NaNs
  | e4m3    -- no infinity; S.1111.111 is NaN
  | none    -- neither
deriving DecidableEq, Repr

/-- A floating format. -/
structure FF where
  eb   : Nat
  fb   : Nat
  bias : Nat
  spec : Special
deriving DecidableEq, Repr

def ffFP64 : FF := ⟨11, 52, 1023, .ieee⟩
def ffFP32 : FF := ⟨8, 23, 127, .ieee⟩
def ffFP16 : FF := ⟨5, 10, 15, .ieee⟩
def ffBF16 : FF := ⟨8, 7, 127, .ieee⟩
def ffE4M3 : FF := ⟨4, 3, 7, .e4m3⟩
def ffE5M2 : FF := ⟨5, 2, 15, .ieee⟩
def ffE3M2 : FF := ⟨3, 2, 3, .none⟩
def ffE2M3 : FF := ⟨2, 3, 1, .none⟩

/-- A floating value: an exact finite value ±m·2^e, an infinity, or a NaN with its sign, quiet bit and payload below the quiet bit, left-aligned in 51 bits. -/
inductive FNum where
  | fin (neg : Bool) (m : Nat) (e : Int)
  | inf (neg : Bool)
  | nan (neg quiet : Bool) (payload : Nat)
deriving DecidableEq, Repr

/-- Bits of an encoding. -/
def FF.width (f : FF) : Nat := 1 + f.eb + f.fb
/-- The exponent of the smallest normal. -/
def FF.emin (f : FF) : Int := 1 - (f.bias : Int)
/-- The largest exponent of a finite value. -/
def FF.emax (f : FF) : Int :=
  match f.spec with
  | .ieee => 2 ^ f.eb - 2 - (f.bias : Int)
  | _ => 2 ^ f.eb - 1 - (f.bias : Int)
/-- The mantissa of MAXF in units of 2^(emax − fb). -/
def FF.maxM (f : FF) : Nat :=
  match f.spec with
  | .e4m3 => 2 ^ (f.fb + 1) - 2
  | _ => 2 ^ (f.fb + 1) - 1

/-- Decode an encoding (R112). -/
def fDecode (f : FF) (v : Nat) : FNum :=
  let neg := bit v (f.eb + f.fb)
  let ex := bits v (f.eb + f.fb - 1) f.fb
  let fr := v % 2 ^ f.fb
  let ones := ex == 2 ^ f.eb - 1
  if f.spec == .ieee && ones then
    (if fr = 0 then .inf neg
     else .nan neg (bit fr (f.fb - 1)) ((fr % 2 ^ (f.fb - 1)) <<< (52 - f.fb)))
  else if f.spec == .e4m3 && ones && fr == 7 then .nan neg true 0
  else if ex = 0 then .fin neg fr (1 - (f.bias : Int) - f.fb)
  else .fin neg (2 ^ f.fb + fr) ((ex : Int) - f.bias - f.fb)

/-- The sign bit in place. -/
def signBit (f : FF) (neg : Bool) : Nat := b2n neg * 2 ^ (f.eb + f.fb)
/-- MAXF of a sign. -/
def maxfBits (f : FF) (neg : Bool) : Nat :=
  signBit f neg + (match f.spec with
    | .ieee => (2 ^ f.eb - 2) * 2 ^ f.fb + (2 ^ f.fb - 1)
    | .e4m3 => (2 ^ f.eb - 1) * 2 ^ f.fb + (2 ^ f.fb - 2)
    | .none => 2 ^ (f.eb + f.fb) - 1)
/-- Infinity of a sign. -/
def infBits (f : FF) (neg : Bool) : Nat := signBit f neg + (2 ^ f.eb - 1) * 2 ^ f.fb
/-- The default NaN (R113), with a positive sign (R121). -/
def dNaN : FNum := .nan false true 0
/-- Encode a NaN, quieted, with the payload bits that fit (R121). -/
def nanBits (f : FF) (neg : Bool) (payload : Nat) : Nat :=
  match f.spec with
  | .ieee => signBit f neg + (2 ^ f.eb - 1) * 2 ^ f.fb + 2 ^ (f.fb - 1) + payload >>> (52 - f.fb)
  | .e4m3 => signBit f neg + 0x7F
  | .none => 0

/-! ### Rounding (R118 to R120, R122, R126, R142) -/

/-- Rounding attributes; codes 0 to 5 as RND, and round to odd (R118). -/
inductive Rnd where
  | rne | rtz | ru | rd | rna | sr | rto
deriving DecidableEq, Repr

/-- RND of a descriptor; the reserved codes never reach a rounding (R90). -/
def rndOf : Nat → Rnd
  | 0 => .rne | 1 => .rtz | 2 => .ru | 3 => .rd | 4 => .rna | 5 => .sr | _ => .rne

/-- The power 2^n for an integer exponent that is not negative. -/
def pow2 (n : Int) : Nat := 2 ^ n.toNat

/-- Number of bits of a positive natural number. -/
def bitLen (m : Nat) : Nat := if m = 0 then 0 else Nat.log2 m + 1

/-- Round m·2^e to a multiple of 2^q: the multiple and whether anything was discarded. `u` is the random word of R141. -/
def roundQ (rnd : Rnd) (u : Nat) (neg : Bool) (m : Nat) (e q : Int) : Nat × Bool :=
  if q ≤ e then (m * pow2 (e - q), false)
  else
    let sh := (q - e).toNat
    let n := m >>> sh
    let rem := m % 2 ^ sh
    let half := 2 ^ (sh - 1)
    let inexact := rem != 0
    let up : Bool := match rnd with
      | .rne => decide (rem > half) || (rem == half && n % 2 == 1)
      | .rtz => false
      | .ru => !neg && inexact
      | .rd => neg && inexact
      | .rna => decide (rem ≥ half)
      | .sr => decide ((rem * 2 ^ 32) >>> sh + u ≥ 2 ^ 32)
      | .rto => inexact && n % 2 == 0
    (n + b2n up, inexact)

/-- a·2^x compared with b·2^y. -/
def ltScaled (a : Nat) (x : Int) (b : Nat) (y : Int) : Bool :=
  let lo := min x y
  decide (a * pow2 (x - lo) < b * pow2 (y - lo))

/-- Whether an overflow of this sign goes to infinity (R120). -/
def ovfToInf (rnd : Rnd) (neg : Bool) : Bool :=
  match rnd with
  | .rtz => false
  | .ru => !neg
  | .rd => neg
  | _ => true

/-- Round an exact value to a format: its encoding and the flags OF, UF, NX (R119, R120, R126). Tininess is judged after rounding to the format's precision with an
unbounded exponent, or, in SR, on the exact magnitude (R142). -/
def fRound (f : FF) (rnd : Rnd) (u : Nat) (ftz : Bool) (neg : Bool) (m : Nat) (e : Int) : Nat × Nat :=
  if m = 0 then (signBit f neg, 0)
  else
    let E : Int := (bitLen m : Int) - 1 + e
    let q := max E f.emin - f.fb
    let (n, inexact) := roundQ rnd u neg m e q
    let nx := if inexact then fNX else 0
    if ltScaled f.maxM (f.emax - f.fb) n q then
      (match f.spec with
       | .ieee => (if ovfToInf rnd neg then infBits f neg else maxfBits f neg, fOF + fNX)
       | _ => (maxfBits f neg, fOF + fNX))
    else
      let (nu, _) := roundQ rnd u neg m e (E - f.fb)
      let tiny := match rnd with
        | .sr => ltScaled m e 1 f.emin
        | _ => ltScaled nu (E - f.fb) 1 f.emin
      let sub := n != 0 && decide (n < 2 ^ f.fb)
      if ftz && sub then (signBit f neg, fUF + fNX)
      else
        let fl := nx + (if tiny && inexact then fUF else 0)
        if n < 2 ^ f.fb then (signBit f neg + n, fl)
        else if n = 2 ^ (f.fb + 1) then
          (signBit f neg + (q + 1 + f.fb + f.bias).toNat * 2 ^ f.fb, fl)
        else (signBit f neg + (q + f.fb + f.bias).toNat * 2 ^ f.fb + (n - 2 ^ f.fb), fl)

/-- Encode a value into a format with one rounding (R121, R128): a signalling NaN raises NV, and an infinity into a format without one gives its NaN with NV. -/
def fEncode (f : FF) (rnd : Rnd) (u : Nat) (ftz : Bool) (x : FNum) : Nat × Nat :=
  match x with
  | .nan neg quiet p => (nanBits f neg p, if quiet then 0 else fNV)
  | .inf neg => (match f.spec with
      | .ieee => (infBits f neg, 0)
      | .e4m3 => (0x7F, fNV)
      | .none => (0, fNV))
  | .fin neg m e => fRound f rnd u ftz neg m e

/-- A conversion of a magnitude above the destination's MAXF overflows in the attributes that would truncate it, and in SR (R156; DEDUCED for the magnitudes between the two MAXF, log 38). -/
def convOvf (f : FF) (rnd : Rnd) (neg : Bool) (m : Nat) (e : Int) : Bool :=
  (rnd == .rtz || rnd == .sr || (rnd == .rd && !neg) || (rnd == .ru && neg)) && ltScaled f.maxM (f.emax - f.fb) m e

/-- A conversion into a format with one rounding (R120, R121, R128, R156). -/
def fConvert (f : FF) (rnd : Rnd) (u : Nat) (ftz : Bool) (x : FNum) : Nat × Nat :=
  match x with
  | .fin neg m e =>
    if convOvf f rnd neg m e then (if f.spec == .ieee && ovfToInf rnd neg then infBits f neg else maxfBits f neg, fOF + fNX)
    else fEncode f rnd u ftz x
  | _ => fEncode f rnd u ftz x

/-! ### Operations of rounded mode -/

/-- Quieted NaN operand. -/
def quietNaN : FNum → FNum
  | .nan s _ p => .nan s true p
  | x => x
def isNaN : FNum → Bool
  | .nan _ _ _ => true
  | _ => false
def isSNaN : FNum → Bool
  | .nan _ q _ => !q
  | _ => false
def isZeroF : FNum → Bool
  | .fin _ m _ => m == 0
  | _ => false
def isInfF : FNum → Bool
  | .inf _ => true
  | _ => false
def negF : FNum → Bool
  | .fin s _ _ => s
  | .inf s => s
  | .nan s _ _ => s

/-- The first NaN operand, quieted, with NV when any operand is signalling (R121). -/
def nanOut (xs : List FNum) : Option (FNum × Nat) :=
  match xs.find? isNaN with
  | some x => some (quietNaN x, if xs.any isSNaN then fNV else 0)
  | none => none

/-- The exact sum of two finite values, as a signed mantissa and an exponent. -/
def exactSum (s1 : Bool) (m1 : Nat) (e1 : Int) (s2 : Bool) (m2 : Nat) (e2 : Int) : Int × Int :=
  let lo := min e1 e2
  let a : Int := (m1 * pow2 (e1 - lo) : Nat)
  let b : Int := (m2 * pow2 (e2 - lo) : Nat)
  ((if s1 then -a else a) + (if s2 then -b else b), lo)

/-- Addition before the final rounding, with the sign of an exact zero sum (R122) and the flags of the special cases. -/
def addF (rnd : Rnd) (a b : FNum) : FNum × Nat :=
  match nanOut [a, b] with
  | some r => r
  | none =>
    match a, b with
    | .inf s, .inf t => if s = t then (.inf s, 0) else (dNaN, fNV)
    | .inf s, _ => (.inf s, 0)
    | _, .inf t => (.inf t, 0)
    | .fin s1 m1 e1, .fin s2 m2 e2 =>
      let (v, e) := exactSum s1 m1 e1 s2 m2 e2
      if v = 0 then
        (.fin (if m1 = 0 ∧ m2 = 0 ∧ s1 = s2 then s1 else rnd == .rd) 0 0, 0)
      else (.fin (decide (v < 0)) v.natAbs e, 0)
    | _, _ => (dNaN, 0)

/-- Multiplication before the final rounding. -/
def mulF (a b : FNum) : FNum × Nat :=
  match nanOut [a, b] with
  | some r => r
  | none =>
    let s := negF a != negF b
    match a, b with
    | .fin _ m1 e1, .fin _ m2 e2 => (.fin s (m1 * m2) (e1 + e2), 0)
    | _, _ => if isZeroF a || isZeroF b then (dNaN, fNV) else (.inf s, 0)

/-- A + S × B before the final rounding (R124): a zero times an infinity raises NV whatever A is. -/
def fmaF (rnd : Rnd) (a s b : FNum) : FNum × Nat :=
  let bad := (isZeroF s && isInfF b) || (isInfF s && isZeroF b)
  if bad then (if isNaN a then quietNaN a else dNaN, fNV)
  else match nanOut [a, b, s] with
    | some r => r
    | none => addF rnd a (mulF s b).1

/-- a < b on values that are not NaNs, with −0 below +0 (R123). -/
def ltF (a b : FNum) : Bool :=
  match a, b with
  | .inf s, .inf t => s && !t
  | .inf s, _ => s
  | _, .inf t => !t
  | .fin s1 m1 e1, .fin s2 m2 e2 =>
    let (v, _) := exactSum s1 m1 e1 (!s2) m2 e2
    if v = 0 then m1 == 0 && m2 == 0 && s1 && !s2 else decide (v < 0)
  | _, _ => false

/-- MAX and MIN (R123). -/
def maxminF (isMax : Bool) (a b : FNum) : FNum × Nat :=
  match nanOut [a, b] with
  | some r => r
  | none => (if isMax then (if ltF a b then b else a) else (if ltF b a then b else a), 0)

/-- x / N before the final rounding (R131): 160 quotient bits beyond the dividend's and one bit for the remainder, so that every rounding to a supported
format is the rounding of the exact quotient. -/
def divNF (n : Nat) (x : FNum) : FNum × Nat :=
  match x with
  | .nan _ _ _ => (quietNaN x, if isSNaN x then fNV else 0)
  | .inf s => (.inf s, 0)
  | .fin s m e =>
    if m = 0 then (.fin s 0 0, 0)
    else
      let big := m * 2 ^ 160
      (.fin s (big / n * 2 + b2n (big % n != 0)) (e - 161), 0)

/-- Flush a subnormal of a format to a zero of its sign (R126). -/
def flushF (f : FF) (ftz : Bool) (x : FNum) : FNum :=
  match x with
  | .fin s m e => if ftz && m != 0 && ltScaled m e 1 f.emin then .fin s 0 0 else x
  | _ => x

/-- Round a stage's result into the combine format and read it back (R125). -/
def stageF (f : FF) (rnd : Rnd) (ftz : Bool) (r : FNum × Nat) : FNum × Nat :=
  let (v, fl) := fEncode f rnd 0 ftz r.1
  (fDecode f v, orF fl r.2)

/-- Round a converted value into the combine format and read it back (R125). -/
def convF (f : FF) (rnd : Rnd) (ftz : Bool) (x : FNum) : FNum × Nat :=
  let (v, fl) := fConvert f rnd 0 ftz x
  (fDecode f v, fl)

/-! ### Integers (R114, R127, R129, R130) -/

/-- An integer format: width and signedness. -/
structure IF where
  n      : Nat
  signed : Bool
deriving DecidableEq, Repr

/-- The value of an integer encoding. -/
def iDecode (f : IF) (v : Nat) : Int :=
  let u := v % 2 ^ f.n
  if f.signed && bit u (f.n - 1) then (u : Int) - 2 ^ f.n else u
/-- The encoding of an integer modulo 2^n. -/
def iEncode (f : IF) (v : Int) : Nat := (v % (2 ^ f.n : Int)).toNat
def IF.lo (f : IF) : Int := if f.signed then -(2 ^ (f.n - 1)) else 0
def IF.hi (f : IF) : Int := if f.signed then 2 ^ (f.n - 1) - 1 else 2 ^ f.n - 1

/-- Saturate to an integer format, with NV when it does (R130). -/
def iSat (f : IF) (v : Int) : Int × Nat :=
  if v < f.lo then (f.lo, fNV) else if f.hi < v then (f.hi, fNV) else (v, 0)

/-- A floating value to an integer (R129). A value in range converts as R129 says, FP16's MAXF among them: the cell of R157 that saturates every source but FP8 contradicts step 2
of R129 there (DEDUCED, log 38). -/
def fToInt (f : IF) (rnd : Rnd) (x : FNum) : Int × Nat :=
  match x with
  | .nan _ _ _ => (0, fNV)
  | .inf s => (if s then f.lo else f.hi, fNV)
  | .fin s m e =>
    let (n, inexact) := roundQ (if rnd = .sr then .rne else rnd) 0 s m e 0
    let v : Int := if s then -(n : Int) else n
    let (r, fl) := iSat f v
    if fl ≠ 0 then (r, fNV) else (r, if inexact then fNX else 0)

/-- The exact floating value of an integer. -/
def intToF (v : Int) : FNum := .fin (decide (v < 0)) v.natAbs 0

/-- Integer combine operations (R127). -/
def intOp (f : IF) (comb : Nat) (a b : Int) : Int :=
  match comb with
  | 1 => iDecode f (iEncode f (a + b))
  | 2 => max a b
  | 3 => min a b
  | 4 => iDecode f (Nat.land (iEncode f a) (iEncode f b))
  | 5 => iDecode f (Nat.lor (iEncode f a) (iEncode f b))
  | 6 => iDecode f (Nat.xor (iEncode f a) (iEncode f b))
  | _ => a

/-! ### Seeded stochastic rounding (R141) -/

/-- The random word of an element. -/
def srWord (seed ctx i : Nat) : Nat :=
  let m := 2 ^ 64
  let x := Nat.xor (Nat.xor seed (ctx * 2 ^ 32 % m)) i % m
  let z := (x + 0x9E3779B97F4A7C15) % m
  let z := Nat.xor z (z >>> 30) * 0xBF58476D1CE4E5B9 % m
  let z := Nat.xor z (z >>> 27) * 0x94D049BB133111EB % m
  let z := Nat.xor z (z >>> 31)
  z % 2 ^ 32

/-! ### Block-scaled formats (R116, R136 to R139) -/

/-- ⌊log2⌋ of a positive finite magnitude. -/
def ilog2 (m : Nat) (e : Int) : Int := (bitLen m : Int) - 1 + e

/-- The largest exponent of a list of finite values, none when all are zero. -/
def maxExp (xs : List FNum) : Option Int :=
  xs.foldl (fun acc x => match x with
    | .fin _ m e => if m = 0 then acc else
        (match acc with | none => some (ilog2 m e) | some a => some (max a (ilog2 m e)))
    | _ => acc) none

/-- Emax of R136 by element format. -/
def mxEmax (f : FF) : Int := if f.eb = 4 then 8 else if f.eb = 5 then 15 else if f.eb = 3 then 4 else 2

/-- One element of a block: rounded to the element format and clamped at MAXF with NX, and OF when the scale was clamped (R137). -/
def mxElem (f : FF) (rnd : Rnd) (u : Nat) (clampedScale : Bool) (x : FNum) (X : Int) : Nat × Nat :=
  match x with
  | .fin s m e =>
    let (v, fl) := fRound f rnd u false s m (e - X)
    if fl / fOF % 2 = 1 then (maxfBits f s, fNX + (if clampedScale then fOF else 0)) else (v, fl)
  | _ => (0, 0)

/-- Pack one block: the scale byte, the 32 element encodings and the flags (R136 to R138). `us` gives the random word of each element. -/
def mxPack (f : FF) (rnd : Rnd) (us : Nat → Nat) (xs : List FNum) : Nat × List Nat × Nat :=
  if xs.any (fun x => isNaN x || isInfF x) then
    (0xFF, xs.map (fun _ => 0), if xs.any (fun x => isInfF x || isSNaN x) then fNV else 0)
  else
    let raw : Int := match maxExp xs with | none => -127 | some a => a - mxEmax f
    let X := max (-127) (min 127 raw)
    let es := (xs.zip (List.range xs.length)).map (fun p => mxElem f rnd (us p.2) (decide (raw > 127)) p.1 X)
    ((X + 127).toNat, es.map (·.1), es.foldl (fun a e => orF a e.2) 0)

/-- The bytes of a packed block (R116). -/
def mxBytes (f : FF) (scale : Nat) (es : List Nat) : List Byte :=
  BitVec.ofNat 8 scale ::
    (if f.width = 8 then es.map (BitVec.ofNat 8)
     else leBytes 24 (es.reverse.foldl (fun acc v => acc * 64 + v) 0))

/-- The values of a block's 32 elements (R139); a scale of 0xFF gives NaNs and no flag. -/
def mxUnpack (f : FF) (bs : List Byte) : List FNum :=
  let scale := (bs.headD 0).toNat
  let body := bs.drop 1
  if scale = 0xFF then List.replicate 32 dNaN
  else (List.range 32).map (fun j =>
    let v := if f.width = 8 then ((body[j]?).getD 0).toNat else (leNat body >>> (6 * j)) % 64
    match fDecode f v with
    | .fin s m e => .fin s m (e + ((scale : Int) - 127))
    | x => x)

/-! ### Anchored summation (R143 to R151) -/

/-- Markers of a width (R147). -/
def anchNaN (w : Nat) : Int := -(2 ^ (w - 1))
def anchNInf (w : Nat) : Int := -(2 ^ (w - 1)) + 1
def anchPInf (w : Nat) : Int := 2 ^ (w - 1) - 1
/-- Value bits of a width (R147). -/
def anchV (w : Nat) : Nat := w - 9

/-- Read an anchored container: upper bits that are not copies of bit W − 1 give the NaN marker with NV (R115). -/
def anchLoad (w cont v : Nat) : Int × Nat :=
  let q := iDecode ⟨w, true⟩ v
  if iDecode ⟨8 * cont, true⟩ v = q then (q, 0) else (anchNaN w, fNV)

/-- EXP, G64, NAN, PINF and NINF of an anchor record (R145). -/
def recEXP (r : Nat) : Nat := bits r 15 8
def recG64 (r : Nat) : Bool := bit r 7

/-- The anchor top T of a record (R144). -/
def recT (r : Nat) : Int :=
  if recG64 r then (if recEXP r = 0 then -1008 else 8 * (recEXP r : Int) - 1016)
  else (if recEXP r = 0 then -125 else (recEXP r : Int) - 126)

/-- The record serves no conversion of a command of this scale: the other scale, or EXP 255 in S32 (R144, R146). -/
def recBad (g64 : Bool) (r : Nat) : Bool := recG64 r != g64 || (!recG64 r && recEXP r == 255)

/-- Convert-in against a block's record: the integer, the flags and whether low bits were lost (R148). -/
def anchIn (w : Nat) (g64 : Bool) (r : Nat) (x : FNum) : Int × Nat × Bool :=
  if recBad g64 r then (anchNaN w, fNV, false)
  else match x with
    | .nan _ q _ => (anchNaN w, if q then 0 else fNV, false)
    | .inf s => (if s then anchNInf w else anchPInf w, 0, false)
    | .fin s m e =>
      if m = 0 then (0, 0, false)
      else if !ltScaled m e 1 (recT r) then (anchNaN w, fNV, false)
      else
        let (n, inexact) := roundQ .rtz 0 s m e (recT r - anchV w)
        (if s then -(n : Int) else n, if inexact then fNX else 0, inexact)

/-- AADD (R149). -/
def aadd (w : Nat) (a b : Int) : Int × Nat :=
  let big : Int := 2 ^ (w - 1) - 2
  if a = anchNaN w ∨ b = anchNaN w then (anchNaN w, 0)
  else if (a = anchPInf w ∧ b = anchNInf w) ∨ (a = anchNInf w ∧ b = anchPInf w) then (anchNaN w, 0)
  else if a = anchPInf w ∨ b = anchPInf w then (anchPInf w, 0)
  else if a = anchNInf w ∨ b = anchNInf w then (anchNInf w, 0)
  else if big < a + b then (anchPInf w, fOF + fNX)
  else if a + b < -big then (anchNInf w, fOF + fNX)
  else (a + b, 0)

/-- Convert-out of an anchored sum, exact but for division by n, before the rounding into FMTD (R150). -/
def anchOut (w : Nat) (g64 : Bool) (r n : Nat) (q : Int) : FNum × Nat :=
  if recBad g64 r then (dNaN, fNV)
  else if q = anchNaN w then (dNaN, 0)
  else if q = anchPInf w then (.inf false, 0)
  else if q = anchNInf w then (.inf true, 0)
  else if q = 0 then (.fin false 0 0, 0)
  else ((divNF n (.fin (decide (q < 0)) q.natAbs (recT r - anchV w))).1, 0)

/-- NV once for a block whose record has both PINF and NINF (R150). -/
def blockNV (r : Nat) : Nat := if bit r 5 && bit r 4 then fNV else 0

/-- The anchor record of one block of a contributor (R144, R145). -/
def anchRecord (g64 : Bool) (xs : List FNum) : Nat :=
  let ex : Nat := match maxExp xs with
    | none => 0
    | some a => if g64 then ((max a (-1016) + 1024) / 8).toNat else (max a (-126) + 127).toNat
  ex * 256 + b2n g64 * 128 + b2n (xs.any isNaN) * 64 +
    b2n (xs.any (fun x => isInfF x && !negF x)) * 32 + b2n (xs.any (fun x => isInfF x && negF x)) * 16

/-- COMB MAX on records (R145). -/
def recMax (a b : Nat) : Nat := max (recEXP a) (recEXP b) * 256 + Nat.lor (bits a 7 4) (bits b 7 4) * 16

/-! ### CRC-32C (R106) -/

/-- One bit of the reflected register. -/
def crcBit (c : Nat) : Nat := if c % 2 = 1 then Nat.xor (c / 2) 0x82F63B78 else c / 2
/-- One byte. -/
def crcByte (c : Nat) (b : Byte) : Nat :=
  crcBit (crcBit (crcBit (crcBit (crcBit (crcBit (crcBit (crcBit (Nat.xor c b.toNat))))))))
/-- The register after a run of bytes. -/
def crcBytes (c : Nat) (bs : List Byte) : Nat := bs.foldl crcByte c

/-! ### Reciprocal estimate (R133, R158) -/

/-- The estimates n·2^-(fb+1) of the reciprocal of a significand M of fb + 1 bits whose relative error is strictly below 2^-12: the least n and the number of them (R133). -/
def rcpRange (f : FF) (M : Nat) : Nat × Nat :=
  let one := 2 ^ (2 * f.fb + 1)
  let lo := one / 4096 * 4095 / M + 1
  (lo, min (2 ^ (f.fb + 1)) ((one / 4096 * 4097 - 1) / M) - lo + 1)

/-- The reciprocal estimate of a value of a format: exact for a power of two; otherwise the fixed table's choice among all estimates whose relative error is
below 2^−12, with NX, and UF when it is subnormal (R133, R158). -/
def rcpF (f : FF) (ftz : Bool) (x : FNum) : Nat × Nat :=
  match x with
  | .nan neg q p => (nanBits f neg p, if q then 0 else fNV)
  | .inf s => (signBit f s, 0)
  | .fin s m e =>
    if m = 0 then (infBits f s, fDZ)
    else
      let L := bitLen m
      if m = 2 ^ (L - 1) then fRound f .rne 0 ftz s 1 (-(ilog2 m e))
      else
        let M := m * 2 ^ (f.fb + 1 - L)
        let (lo, k) := rcpRange f M
        let n := lo + Config.rcpEst (f.fb == 52) M % k
        let x : Int := -(ilog2 m e) - (f.fb + 1)
        let (v, fl) := fRound f .rne 0 ftz s n x
        (v, orF fl (fNX + (if ltScaled n x 1 f.emin then fUF else 0)))

end Sys2Proof.Machine
end

