-- ==== Sys2Proof/Machine/Flags.lean ====
section
/-!
DEFINITION. The arithmetic of a frond's units with every flag it sets: ALU (R311), MSTEP (R312) and FPU (R314).
-/
namespace Sys2Proof.Machine

/-! ### ALU (R311) -/

/-- Z, N, C and V as ALU.F holds them. -/
def aluFlags (r : W64) (c v : Bool) : BitVec 4 := BitVec.ofNat 4 (b2n (r == 0) * 8 + b2n r.msb * 4 + b2n c * 2 + b2n v)

/-- ADD: C is the carry out, V signed overflow. -/
def addOp (o t : W64) : W64 × BitVec 4 :=
  let r := o + t
  (r, aluFlags r (decide (2 ^ 64 ≤ o.toNat + t.toNat)) (o.msb == t.msb && r.msb != o.msb))

/-- SUB: C is 1 when no borrow occurs, V signed overflow. -/
def subOp (o t : W64) : W64 × BitVec 4 :=
  let r := o - t
  (r, aluFlags r (decide (t.toNat ≤ o.toNat)) (o.msb != t.msb && r.msb != o.msb))

/-- An operation that clears C and V. -/
def logicOp (r : W64) : W64 × BitVec 4 := (r, aluFlags r false false)

/-- The result of a comparison. -/
def cmpOp (b : Bool) : W64 × BitVec 4 := logicOp (if b then 1 else 0)

/-- The shift amount T[5:0]. -/
def shAmt (t : W64) : Nat := t.toNat % 64

/-- The ALU trigger with index k, in the order of R308: ADD, SUB, AND, OR, XOR, ANDN, SHL, SHR, SAR, ROR, EQ, NE, LTS, LTU, GES, GEU. -/
def aluCompute (k : Nat) (o t : W64) : W64 × BitVec 4 :=
  match k with
  | 0 => addOp o t
  | 1 => subOp o t
  | 2 => logicOp (o &&& t)
  | 3 => logicOp (o ||| t)
  | 4 => logicOp (o ^^^ t)
  | 5 => logicOp (o &&& ~~~t)
  | 6 => logicOp (o <<< shAmt t)
  | 7 => logicOp (o >>> shAmt t)
  | 8 => logicOp (o.sshiftRight (shAmt t))
  | 9 => logicOp (o.rotateRight (shAmt t))
  | 10 => cmpOp (o == t)
  | 11 => cmpOp (o != t)
  | 12 => cmpOp (o.slt t)
  | 13 => cmpOp (o.ult t)
  | 14 => cmpOp (!o.slt t)
  | _ => cmpOp (!o.ult t)

/-! ### MSTEP (R312) -/

/-- One multiply step: ACC and Q after it. -/
def mulStep (m acc q : W64) : W64 × W64 :=
  let s := if bit q.toNat 0 then acc.toNat + m.toNat else acc.toNat
  let all := (s * 2 ^ 64 + q.toNat) / 2
  (BitVec.ofNat 64 (all / 2 ^ 64), BitVec.ofNat 64 all)

/-- One divide step: ACC and Q after it. -/
def divStep (m acc q : W64) : W64 × W64 :=
  let a := acc.toNat * 2 + q.toNat / 2 ^ 63
  let q1 := q.toNat * 2 % 2 ^ 64
  if m.toNat ≤ a then (BitVec.ofNat 64 (a - m.toNat), BitVec.ofNat 64 (q1 + 1)) else (BitVec.ofNat 64 a, BitVec.ofNat 64 q1)

/-! ### FPU (R314) -/

/-- Fields of FPU.CTL. -/
def fpuTEN (c : W64) : Nat := bits c.toNat 9 5
def fpuFTZ (c : W64) : Bool := bit c.toNat 4
def fpuS (c : W64) : Bool := bit c.toNat 3
def fpuRnd (c : W64) : Rnd := if c.toNat % 8 ≤ 4 then rndOf (c.toNat % 8) else .rne
/-- The selected precision. -/
def fpuFF (c : W64) : FF := if fpuS c then ffFP32 else ffFP64

/-- An operand of a precision, flushed under FTZ. -/
def fpuIn (f : FF) (c v : W64) : FNum := flushF f (fpuFTZ c) (fDecode f (v.toNat % 2 ^ f.width))

/-- A × B + T with one rounding: of several NaN operands the first of A, B and T. -/
def fpuMulAdd (rnd : Rnd) (a b t : FNum) : FNum × Nat :=
  let bad := (isZeroF a && isInfF b) || (isInfF a && isZeroF b)
  if bad then (if isNaN t then quietNaN t else dNaN, fNV)
  else match nanOut [a, b, t] with
    | some r => r
    | none => addF rnd (mulF a b).1 t

/-- A result rounded into the selected precision, zero-extended, with its flags. -/
def fpuOut (f : FF) (c : W64) (r : FNum × Nat) : W64 × Nat :=
  let (v, fl) := fEncode f (fpuRnd c) 0 (fpuFTZ c) r.1
  (BitVec.ofNat 64 v, orF fl r.2)

/-- The FPU trigger with index k, in the order of R308: FMA, ADD, MUL, MAX, MIN, RCP, CVW, CVI, CVF. -/
def fpuCompute (k : Nat) (c a b t : W64) : W64 × Nat :=
  let f := fpuFF c
  let A := fpuIn f c a
  let T := fpuIn f c t
  match k with
  | 0 => fpuOut f c (fpuMulAdd (fpuRnd c) A (fpuIn f c b) T)
  | 1 => fpuOut f c (addF (fpuRnd c) A T)
  | 2 => fpuOut f c (mulF A T)
  | 3 => fpuOut f c (maxminF true A T)
  | 4 => fpuOut f c (maxminF false A T)
  | 5 =>
    let (v, fl) := rcpF f (fpuFTZ c) T
    (BitVec.ofNat 64 v, fl)
  | 6 =>
    let g := if fpuS c then ffFP64 else ffFP32
    let (v, fl) := fConvert f (fpuRnd c) 0 (fpuFTZ c) (fpuIn g c t)
    (BitVec.ofNat 64 v, fl)
  | 7 =>
    let (v, fl) := fToInt ⟨64, true⟩ (fpuRnd c) T
    (BitVec.ofInt 64 v, fl)
  | _ => fpuOut f c (intToF t.toInt, 0)

end Sys2Proof.Machine
end

