-- ==== Sys2Proof/Machine/Operands.lean ====
section
/-!
DEFINITION. The control-store word (R284 to R288): its fields, its leaflets with short and long immediates, and the port space with the kind and level of every port (R307, R308).
-/
namespace Sys2Proof.Machine

/-! ### Fields of a word (R284) -/

/-- A 256-bit control-store word. -/
abbrev CsWord := BitVec 256

def wNAM (w : CsWord) : Nat := bits w.toNat 255 252
def wANNUL (w : CsWord) : Bool := bit w.toNat 251
def wCOND (w : CsWord) : Nat := bits w.toNat 250 245
def wMWN (w : CsWord) : Nat := bits w.toNat 244 243
def wMWSRC (w : CsWord) : Nat := bits w.toNat 242 237
def wTARGET (w : CsWord) : Nat := bits w.toNat 236 221
def wREP (w : CsWord) : Bool := bit w.toNat 220
def wNOINT (w : CsWord) : Bool := bit w.toNat 219
def wZERO (w : CsWord) : Nat := bits w.toNat 218 216
def wLeaflet (w : CsWord) (k : Nat) : Nat := bits w.toNat (36 * k + 35) (36 * k)

/-- NAM (R285). -/
def nSEQ : Nat := 0
def nJMP : Nat := 1
def nJMPC : Nat := 2
def nMWAY : Nat := 3
def nCALL : Nat := 4
def nRET : Nat := 5
def nRETX : Nat := 6
def nWAIT : Nat := 7
def nHALT : Nat := 8

/-- A word whose NAM is a control transfer with a delay word. -/
def isTransfer (w : CsWord) : Bool := decide (1 ≤ wNAM w) && decide (wNAM w ≤ 6)

/-- Even parity over a quarter of a word: its stored parity bit (R284). -/
def quarterParity (w : CsWord) (j : Nat) : Bool := (List.range 64).foldl (fun b i => b != bit w.toNat (64 * j + i)) false

/-- The four parity bits stored with a word. -/
def wordParity (w : CsWord) : BitVec 4 := BitVec.ofNat 4 ((List.range 4).foldl (fun n j => n + b2n (quarterParity w j) * 2 ^ j) 0)

/-- The parity check of a fetch (R284, R294): `upset` names the quarters that come with an odd number of wrong bits. -/
def fetchBad (w : CsWord) (upset : BitVec 4) : Bool := wordParity w ^^^ upset != wordParity w

/-! ### Leaflets (R286, R287) -/

/-- Where a move takes its value. -/
inductive MvSrc where
  | imm (v : W64)
  | port (p : Nat)
deriving DecidableEq, Repr

/-- One move: its leaflet, its guard (none, or a predicate and its negation), its source and its destination. -/
structure Move where
  k     : Nat
  guard : Option (Nat × Bool)
  src   : MvSrc
  dst   : Nat
deriving DecidableEq, Repr

/-- Sign extension of the low n bits. -/
def sext64 (n v : Nat) : W64 := BitVec.ofInt 64 (if bit v (n - 1) then (v % 2 ^ n : Nat) - (2 ^ n : Nat) else ((v % 2 ^ n : Nat) : Int))

/-- A short immediate: {SRC[10:0], EXT} of 17 bits. -/
def shortImm (src ext : Nat) : W64 := sext64 17 (src % 2048 * 64 + ext)

/-- A long immediate with carrier c. -/
def longImm (src ext c : Nat) : W64 :=
  let n := ext * 2 ^ 36 + c
  if src = 0x7FB then BitVec.ofNat 64 (2 ^ 52 + n)
  else if src = 0x7FC then BitVec.ofNat 64 n
  else if src = 0x7FD then sext64 42 n
  else BitVec.ofNat 64 (c % 2 ^ 32 * 2 ^ 32)

/-- A source field names a long immediate. -/
def isLong (src : Nat) : Bool := decide (0x7FB ≤ src) && decide (src ≤ 0x7FE)

/-- The moves of a word from leaflet k on; none when a long immediate stands in leaflet 5. -/
def movesFrom : Nat → CsWord → Nat → Option (List Move)
  | 0, _, _ => some []
  | n + 1, w, k =>
    if k ≥ 6 then some []
    else
      let l := wLeaflet w k
      let src := bits l 29 18
      let ext := l % 64
      let g := if bit l 35 then some (bits l 33 30, bit l 34) else none
      let dst := bits l 17 6
      if isLong src then
        (if k = 5 then none
         else (movesFrom n w (k + 2)).map (fun ms => ⟨k, g, .imm (longImm src ext (wLeaflet w (k + 1))), dst⟩ :: ms))
      else (movesFrom n w (k + 1)).map (fun ms => ⟨k, g, if src ≥ 0x800 then .imm (shortImm src ext) else .port src, dst⟩ :: ms)

/-- The moves of a word in ascending leaflet order. -/
def wMoves (w : CsWord) : Option (List Move) := movesFrom 6 w 0

/-- Reserved conditions (R300) and multi-way sources (R301). -/
def condReserved (c : Nat) : Bool := decide (0x2F ≤ c) && decide (c ≤ 0x3D)
def mwReserved (s : Nat) : Bool := (decide (0xA ≤ s) && decide (s ≤ 0xF)) || decide (0x20 ≤ s)

/-- A word that raises ILLEGAL_WORD (R288). -/
def wordIllegal (w : CsWord) : Bool :=
  decide (wNAM w ≥ 9) || wZERO w != 0 || (wNAM w == nJMPC && condReserved (wCOND w)) || (wNAM w == nMWAY && mwReserved (wMWSRC w)) || (wMoves w).isNone

/-! ### Ports (R307, R308) -/

/-- Kinds of port. -/
inductive PKind where
  | r | w | rw | t | rs | rc
deriving DecidableEq, Repr

/-- Levels of port. -/
inductive PLevel where
  | u | s | v
deriving DecidableEq, Repr

/-- The kind of a port with its level for a read and for a write; none for a reserved port or an immediate. -/
def portOf (p : Nat) : Option (PKind × PLevel × PLevel) :=
  let all := fun (k : PKind) (l : PLevel) => some (k, l, l)
  if p = 0 then all .rw .u
  else if 0x040 ≤ p ∧ p ≤ 0x07F then all .rw .u
  else if 0x080 ≤ p ∧ p ≤ 0x090 then all .rw .u
  else if p = 0x100 then all .w .u
  else if 0x101 ≤ p ∧ p ≤ 0x110 then all .t .u
  else if p = 0x111 ∨ p = 0x112 then all .r .u
  else if p = 0x140 then all .w .u
  else if p = 0x141 ∨ p = 0x142 then all .rw .u
  else if p = 0x143 ∨ p = 0x144 then all .t .u
  else if p = 0x180 ∨ p = 0x181 then all .w .u
  else if p = 0x182 then all .rw .u
  else if p = 0x183 then all .rc .u
  else if p = 0x184 then all .r .u
  else if 0x188 ≤ p ∧ p ≤ 0x18B then all .r .u
  else if 0x190 ≤ p ∧ p ≤ 0x198 then all .t .u
  else if p = 0x200 then all .w .u
  else if 0x201 ≤ p ∧ p ≤ 0x204 then all .t .u
  else if p = 0x205 then all .r .u
  else if p = 0x206 ∨ p = 0x207 then all .t .u
  else if p = 0x208 then all .r .u
  else if p = 0x209 then all .rc .u
  else if 0x280 ≤ p ∧ p ≤ 0x287 then all .t .u
  else if p = 0x288 then all .r .u
  else if p = 0x290 then all .rs .v
  else if p = 0x291 ∨ p = 0x293 ∨ p = 0x295 then all .w .v
  else if p = 0x292 ∨ p = 0x294 ∨ p = 0x296 then all .t .v
  else if p = 0x297 then all .rs .v
  else if p = 0x298 then all .t .v
  else if p = 0x2C0 ∨ p = 0x2C3 then all .w .s
  else if p = 0x2C1 ∨ p = 0x2C4 then all .t .s
  else if p = 0x2C2 ∨ p = 0x2C5 then all .r .s
  else if 0x300 ≤ p ∧ p ≤ 0x302 then all .r .u
  else if p = 0x320 then all .t .s
  else if p = 0x321 ∨ p = 0x322 then all .r .s
  else if p = 0x380 then some (.rw, .u, .s)
  else if 0x381 ≤ p ∧ p ≤ 0x383 then all .rw .s
  else if p = 0x384 then all .t .u
  else if p = 0x385 then all .rw .s
  else if p = 0x386 then all .t .s
  else if p = 0x387 then all .t .u
  else if p = 0x388 then all .rw .u
  else if 0x389 ≤ p ∧ p ≤ 0x38F then all .r .u
  else if p = 0x390 then all .w .s
  else if p = 0x391 then all .rs .s
  else if p = 0x392 then all .r .s
  else if 0x3C0 ≤ p ∧ p ≤ 0x3FF then all .w .u
  else if p = 0x400 then all .rw .u
  else none

def PKind.readable (k : PKind) : Bool := k == .r || k == .rw || k == .rs || k == .rc
def PKind.writable (k : PKind) : Bool := k == .w || k == .rw || k == .t

/-- A trigger port. -/
def isTrigger (p : Nat) : Bool := match portOf p with | some (k, _, _) => k == .t | none => false

/-- Two moves of one word that R297 lets only the later take effect: the same port, or two triggers of one unit. -/
def clashes (a b : Nat) : Bool := (a == b && a != 0) || (isTrigger a && isTrigger b && a / 0x40 == b / 0x40)

/-- Drop the moves that a later one overrides. -/
def keepMoves : List Move → List Move
  | [] => []
  | m :: ms => if ms.any (fun x => clashes m.dst x.dst) then keepMoves ms else m :: keepMoves ms

end Sys2Proof.Machine
end

