-- ==== Sys2Proof/Machine/Irq.lean ====
section
/-!
DEFINITION. The interrupt controller (R356 to R376): pending, enable and active bits, ownership, event counters, group hold and hold-off, routing
to fronds and to kn_irq_out, and the wake events that a pending request is for a sleeping region (R501, R505).
-/
namespace Sys2Proof.Machine

/-- The register and bit of a source in a group register file. -/
def srcBit (h : Hw) (reg : Nat → Nat) (s : Nat) : Bool := bit (h.rd (reg (s / 32))).toNat (s % 32)
/-- Set or clear the bit of a source. -/
def putSrcBit (h : Hw) (reg : Nat → Nat) (s : Nat) (v : Bool) : Hw := if s < 512 then h.wf (reg (s / 32)) ⟨s % 32, 1⟩ (b2n v) else h

/-- A source is fixed to the keeper world (R359). -/
def srcFixedKeeper (s : Nat) : Bool :=
  if s < 416 then
    let n := s % 104
    n == 93 || n == 95 || n == 96 || n == 97
  else s == 447 || s == 480 || s == 481 || s == 482

/-- Level source in its present configuration (R356, R358). -/
def srcIsLevel (h : Hw) (s : Nat) : Bool :=
  if 448 ≤ s && s < 480 then h.rf (IRQ_CFG s) IRQ_CFG_TRIG == 0 else srcLevelFixed s

/-- The world that owns a source; none when the source is free (R359, R360). -/
def srcWorld (h : Hw) (s : Nat) : Option World :=
  if h.rf (IRQ_SCLAIM s) cHELD = 0 then none
  else if h.rf (IRQ_SCLAIM s) cWORLD = 1 then some .tenant else some .keeper

/-- A source held by the host: its route is forced to kn_irq_out (R359). -/
def srcHostHeld (h : Hw) (s : Nat) : Bool := h.rf (IRQ_SCLAIM s) cHELD == 1 && h.rf (IRQ_SCLAIM s) cAGENT == 8

/-- A source that drives kn_irq_out and never a frond (R366). -/
def srcRouted (h : Hw) (s : Nat) : Bool := h.rf (IRQ_CFG s) IRQ_CFG_ROUTE == 1 || srcHostHeld h s

/-- The condition of a level source (R356). -/
def levelCond (h : Hw) (s : Nat) : Bool :=
  if s < 416 then
    let r := s / 104
    let n := s % 104
    if 48 ≤ n && n ≤ 55 then
      (List.range 4).any (fun i => h.rb (LT_STAT (4 * (8 * r + (n - 48)) + i)) LT_STAT_SDONE)
    else if n = 88 then
      (h.rb (XLT_CTL r) XLT_CTL_FLT_IE && h.rb (XLT_STAT r) XLT_STAT_FLT) ||
      (h.rb (XLT_CTL r) XLT_CTL_INV_IE && (h.rb (XLT_STAT r) XLT_STAT_INVDONE || h.rb (XLT_STAT r) XLT_STAT_INVREF))
    else if n = 89 then
      (h.rb (MAT_CTL r) MAT_CTL_COLL_IE && h.rb (MAT_STAT r) MAT_STAT_COLL) ||
      (h.rb (MAT_CTL r) MAT_CTL_PROT_IE && h.rb (MAT_STAT r) MAT_STAT_PROT) ||
      (h.rb (MAT_CTL r) MAT_CTL_PERR_IE &&
        (h.rb (MAT_STAT r) MAT_STAT_PERR || h.rb (MAT_STAT r) MAT_STAT_WMERGE || h.rb (MAT_STAT r) MAT_STAT_SUSP || h.rb (MAT_STAT r) MAT_STAT_NOSPARE))
    else if n = 90 then
      (h.rb (CX_SVC_CTL r) CX_SVC_CTL_HALT_IE && h.rb (CX_SVC_STAT r) CX_SVC_STAT_HALT) ||
      (h.rb (CX_SVC_CTL r) CX_SVC_CTL_WREF_IE && h.rb (CX_SVC_STAT r) CX_SVC_STAT_WREF)
    else if n = 91 || n = 92 then
      let p := 2 * r + (n - 91)
      (h.rb (HP_CTL p) HP_CTL_PERR_IE && (h.rb (HP_STAT p) HP_STAT_SPERR || h.rb (HP_STAT p) HP_STAT_MPERR)) ||
      (h.rb (HP_CTL p) HP_CTL_ERR_IE && (h.rb (HP_STAT p) HP_STAT_MERR || h.rb (HP_STAT p) HP_STAT_RTMO || h.rb (HP_STAT p) HP_STAT_CRDOVF))
    else if n = 93 then (kvGet [] h.mbxK r).length != 0
    else if n = 94 then (kvGet [] h.mbxT r).length != 0
    else if n = 95 then
      h.rb (RGN_CTL r) RGN_CTL_IE &&
      (h.rb (RGN_STAT r) RGN_STAT_REC || h.rb (RGN_STAT r) RGN_STAT_DRAINF || h.rb (RGN_STAT r) RGN_STAT_RREF || h.rb (RGN_STAT r) RGN_STAT_LOG)
    else if n = 96 || n = 97 then (h.frond (2 * r + (n - 96))).run == .lockup
    else false
  else if 448 ≤ s && s < 480 then bit h.irqIn (s - 448)
  else if s = 481 then
    h.rb MEU_CTL MEU_CTL_IE &&
    (h.rb MEU_STAT MEU_STAT_LOVF || h.rb MEU_STAT MEU_STAT_DRAINF || h.rb MEU_STAT MEU_STAT_XBPERR || h.rb MEU_STAT MEU_STAT_RFPERR)
  else if s = 482 then
    h.rb LCH_CTL LCH_CTL_IE && (h.rb LCH_STAT LCH_STAT_DONE || h.rb LCH_STAT LCH_STAT_CFAIL || h.rb LCH_STAT LCH_STAT_PREF)
  else false

/-! ### Wake events (R501, R503, R505, R506) -/

/-- A wake event of a region: it abandons an entry under way or waiting (R505), and in SLEEP or OFF it is recorded for WAKE_START (R503) unless kn_fatal holds (R506). -/
def wakeEvent (h : Hw) (r cause : Nat) : Hw :=
  let p := kvGet PwrRgn.zero h.pwr r
  if h.pwrState r = psEnter then
    { (((h.wf (PWR_STAT r) PWR_STAT_STATE psRun).wf (PWR_STAT r) PWR_STAT_TGT 0).sb (PWR_STAT r) PWR_STAT_SLPABT) with
      pwr := kvIns h.pwr r { p with phase := 0 } }
  else if (h.pwrState r = psSleep ∨ h.pwrState r = psOff) ∧ h.rb SYS_LOCK SYS_LOCK_FATAL = false then
    { h with pwr := kvIns h.pwr r { p with wake := some cause } }
  else if p.wait.isSome then
    { (h.sb (PWR_STAT r) PWR_STAT_SLPABT) with pwr := kvIns h.pwr r { p with wait := none } }
  else h

/-- The wake events that a pending and enabled source is (R501): each region whose PWR_WAKE.IRQ is set and one of whose fronds, assigned to the source's
world, is named by IRQ_CFG.FMASK. -/
def wakeOnIrq (h : Hw) (s : Nat) : Hw :=
  if srcBit h IRQ_PEND s && srcBit h IRQ_EN s then
    match srcWorld h s with
    | none => h
    | some w =>
      forEach h.regionList h (fun h r =>
        if h.rb (PWR_WAKE r) PWR_WAKE_IRQ &&
           (frondsOf r).any (fun f => bit (h.rf (IRQ_CFG s) IRQ_CFG_FMASK) f && (h.frond f).world == w)
        then wakeEvent h r 1 else h)
  else h

/-! ### Pending bits -/

/-- A group hold is claimed. -/
def grpClaimed (h : Hw) (g : Nat) : Bool := h.rf (IRQ_GRPHOLD g) cHELD == 1

/-- A group hold is in force: its holder is the host, or a frond in RUN or WAIT (R375). -/
def grpHeld (h : Hw) (g : Nat) : Bool :=
  grpClaimed h g &&
  (let a := h.rf (IRQ_GRPHOLD g) cAGENT
   if a < 8 then (h.frond a).run == .run || (h.frond a).run == .wait else a == 8)

/-- The sets collected for a group whose hold is no longer in force fall into IRQ_PEND (R375): its holder released it, or is halted or in LOCKUP. -/
def deferApply (h : Hw) (g : Nat) : Hw :=
  if h.rd (IRQ_DEFER g) = 0 ∨ grpHeld h g then h
  else
    let d := h.rd (IRQ_DEFER g)
    let h1 := (h.wr (IRQ_PEND g) (h.rd (IRQ_PEND g) ||| d)).wr (IRQ_DEFER g) 0
    forEach (List.range 32) h1 (fun h k => if bit d.toNat k then wakeOnIrq h (32 * g + k) else h)

/-- Hardware sets the pending bit of a source; under a hold the set is collected in IRQ_DEFER (R375). -/
def irqSetPend (h : Hw) (s : Nat) : Hw :=
  if !srcExists h.cfg s then h
  else if grpHeld h (s / 32) then putSrcBit h IRQ_DEFER s true
  else wakeOnIrq (putSrcBit (deferApply h (s / 32)) IRQ_PEND s true) s

/-- An event source fires (R357, R370): its pending bit is set, or its counter counts while it is pending or active. -/
def irqFire (h : Hw) (s : Nat) : Hw :=
  if !srcExists h.cfg s || srcIsLevel h s then h
  else if srcBit h IRQ_PEND s || srcBit h IRQ_ACT s then h.addSat (IRQ_CNT s) IRQ_CNT_EVC 1
  else irqSetPend h s

/-- A level source is sampled (R357). -/
def irqSample (h : Hw) (s : Nat) : Hw :=
  if srcExists h.cfg s && srcIsLevel h s && levelCond h s && !srcBit h IRQ_ACT s && !srcBit h IRQ_PEND s
  then irqSetPend h s else h

/-- What completion judges again (R370): a level source is sampled again, an event source re-delivers one counted firing. -/
def irqRejudge (h : Hw) (s : Nat) : Hw :=
  if !srcExists h.cfg s then h
  else if srcIsLevel h s then irqSample h s
  else if h.rf (IRQ_CNT s) IRQ_CNT_EVC = 0 then h
  else irqSetPend (h.wf (IRQ_CNT s) IRQ_CNT_EVC (h.rf (IRQ_CNT s) IRQ_CNT_EVC - 1)) s

/-- Completion of a source by the frond whose stack held it (R369, R370). -/
def irqComplete (h : Hw) (s : Nat) : Hw := irqRejudge (putSrcBit h IRQ_ACT s false) s

/-- Source number n of region r (R356). -/
def rSrc (r n : Nat) : Nat := 104 * r + n

/-! ### Outputs and firmware's writes -/

/-- The level of kn_irq_out[k] (R366). -/
def knIrqOut (h : Hw) (k : Nat) : Bool :=
  (List.range 483).any (fun s =>
    srcExists h.cfg s && srcBit h IRQ_PEND s && srcBit h IRQ_EN s && srcRouted h s &&
    (srcWorld h s).isSome && h.rf (IRQ_CFG s) IRQ_CFG_OUT == k)

/-- Whether an agent's write of IRQ_PEND or IRQ_EN changes the bit of a source (R361). -/
def irqBitWritable (h : Hw) (w : Who) (s : Nat) : Bool :=
  srcExists h.cfg s &&
  (match w.agent with
   | .host => srcRouted h s
   | .hw => true
   | .loader => true
   | _ => srcWorld h s == some w.world)

/-- A write of IRQ_EN of a group (R361); a request it enables may be a wake event (R501). -/
def irqEnWrite (h : Hw) (g : Nat) (w : Who) (v : W32) : Hw :=
  forEach (List.range 32) h (fun h k =>
    let s := 32 * g + k
    if irqBitWritable h w s then
      (let on := bit v.toNat k
       let was := srcBit h IRQ_EN s
       let h1 := putSrcBit h IRQ_EN s on
       if on && !was then wakeOnIrq h1 s else h1)
    else h)

/-- A write of IRQ_PEND of a group (R374): every writable bit takes the written value; clearing the pending bit of a source routed to kn_irq_out completes it (R366). A source that a
frond entered before it was routed out stays active until that frond completes it (R360). -/
def irqPendWrite (h : Hw) (g : Nat) (w : Who) (v : W32) : Hw :=
  forEach (List.range 32) h (fun h k =>
    let s := 32 * g + k
    if irqBitWritable h w s then
      (let on := bit v.toNat k
       let was := srcBit h IRQ_PEND s
       let h1 := putSrcBit h IRQ_PEND s on
       if on && !was then wakeOnIrq h1 s
       else if was && !on && srcRouted h s then irqRejudge h1 s
       else h1)
    else h)

/-- May the agent write IRQ_CFG, IRQ_VEC and IRQ_CNT of a source (R361)? -/
def irqSrcWriter (h : Hw) (w : Who) (s : Nat) : Bool :=
  h.holds (IRQ_SCLAIM s) w ||
  (w.keeperSup && h.rf (IRQ_SCLAIM s) cHELD == 1 && h.rf (IRQ_SCLAIM s) cAGENT == 0xA)

/-- A write of one of the configuration registers of a source, by offset inside the source (R361). -/
def irqSrcWrite (h : Hw) (s off : Nat) (w : Who) (v : W32) : Hw :=
  if !srcExists h.cfg s then h
  else if !irqSrcWriter h w s then h.sb IRQ_STAT IRQ_STAT_CLAIM
  else if off = 4 then
    let m : W32 := if 448 ≤ s && s < 480 then 0xB0FF010F else 0xB0FF000F
    let v1 := v &&& m
    h.wr (IRQ_CFG s) (if srcHostHeld h s then fldSet IRQ_CFG_ROUTE v1 1 else v1)
  else if off = 8 then h.wf (IRQ_VEC s) IRQ_VEC_VEC (fldGet IRQ_VEC_VEC v)
  else if off = 0xC then (if srcIsLevel h s then h else h.wf (IRQ_CNT s) IRQ_CNT_EVC (fldGet IRQ_CNT_EVC v))
  else h

/-- A write of a source's ownership claim (R359, R360). -/
def irqSclaimWrite (h : Hw) (s : Nat) (w : Who) (v : W32) : Hw :=
  if !srcExists h.cfg s then h
  else
    let isRel := fldGet cREL v == 1 && fldGet cREQ v == 0
    if isRel && h.rf (IRQ_SCLAIM s) cHELD == 1 && h.rf (IRQ_SCLAIM s) cAGENT == 0xA then
      (if w.keeperFrond && !srcFixedKeeper s then claimFree h (IRQ_SCLAIM s) else h.sb IRQ_STAT IRQ_STAT_CLAIM)
    else
      let admits := fldGet cFEAT v == 0x0A && (match w.agent with | .frond _ => true | .host => w.sup | _ => false)
      let (h1, o) := claimWrite h (IRQ_SCLAIM s) w v admits
      match o with
      | .refused => h1.sb IRQ_STAT IRQ_STAT_CLAIM
      | .claimed => if w.agent == .host then h1.sb (IRQ_CFG s) IRQ_CFG_ROUTE else h1
      | _ => h1

/-- A write of a group hold claim (R375). -/
def grpHoldWrite (h : Hw) (g : Nat) (w : Who) (v : W32) : Hw :=
  let admits := fldGet cFEAT v == 0x09 && (match w.agent with | .frond _ => true | .host => true | _ => false)
  let (h1, o) := claimWrite h (IRQ_GRPHOLD g) w v admits
  match o with
  | .refused => h1.sb IRQ_STAT IRQ_STAT_CLAIM
  | .released => deferApply h1 g
  | _ => h1

/-! ### Routing (R362 to R364, R373) -/

/-- The pre-emption level of a priority (R362). -/
def preLevel (h : Hw) (p : Nat) : Nat :=
  let b := min 4 (h.rf IRQ_CTL IRQ_CTL_SPLIT)
  p / 2 ^ b * 2 ^ b

/-- ST fields of R334. -/
def stW (v : W64) : Bool := bit v.toNat 31
def stS (v : W64) : Bool := bit v.toNat 30
def stML (v : W64) : Nat := bits v.toNat 29 26
def stFTE (v : W64) : Bool := bit v.toNat 25
def stHOLD (v : W64) : Bool := bit v.toNat 24

/-- A source requests delivery to a frond: pending, enabled, not active, owned, not routed out, priority above zero, its group neither held nor in hold-off. -/
def srcRequests (h : Hw) (s : Nat) : Bool :=
  srcExists h.cfg s && srcBit h IRQ_PEND s && srcBit h IRQ_EN s && !srcBit h IRQ_ACT s && (srcWorld h s).isSome &&
  !srcRouted h s && h.rf (IRQ_CFG s) IRQ_CFG_PRI != 0 && !grpHeld h (s / 32)

/-- A request is deliverable against a status word (R340, R362). -/
def deliverable (h : Hw) (s : Nat) (st : W64) : Bool :=
  !stHOLD st && decide (preLevel h (h.rf (IRQ_CFG s) IRQ_CFG_PRI) > stML st)

/-- A frond is eligible for a request (R364). -/
def eligible (h : Hw) (s f : Nat) : Bool :=
  let x := h.frond f
  h.hasFrond f && srcWorld h s == some x.world && bit (h.rf (IRQ_CFG s) IRQ_CFG_FMASK) f &&
  (x.run == .run || x.run == .wait) && h.inService (f / 2) && h.rgnState (f / 2) == 0 &&
  deliverable h s x.st && decide (x.pstack.length < 16)

/-- The order of R363: higher priority, then greater age, then lower source. -/
def reqBefore (h : Hw) (a b : Nat) : Bool :=
  let pa := h.rf (IRQ_CFG a) IRQ_CFG_PRI
  let pb := h.rf (IRQ_CFG b) IRQ_CFG_PRI
  let ga := kvGet 0 h.irqAge a
  let gb := kvGet 0 h.irqAge b
  decide (pa > pb) || (pa == pb && (decide (ga > gb) || (ga == gb && decide (a < b))))

/-- Insert a request into an ordered list. -/
def reqInsert (h : Hw) (a : Nat) : List Nat → List Nat
  | [] => [a]
  | b :: bs => if reqBefore h a b then a :: b :: bs else b :: reqInsert h a bs

/-- The pending requests in the order of R363. -/
def reqOrder (h : Hw) : List Nat := ((List.range 483).filter (srcRequests h)).foldl (fun l a => reqInsert h a l) []

/-- Of the eligible fronds not given a request, the one with the lowest ST.ML, the lower number on a tie (R364). -/
def bestFrond (h : Hw) (s : Nat) (given : List Nat) : Option Nat :=
  (List.range 8).foldl (fun best f =>
    if eligible h s f && !given.contains f then
      match best with
      | none => some f
      | some b => if stML (h.frond f).st < stML (h.frond b).st then some f else best
    else best) none

/-- A group in hold-off presents only what it presented already (R373). -/
def hoffBlocks (h : Hw) (shown : List Nat) (s : Nat) : Bool :=
  (kvFind h.irqHoff (s / 32)).isSome && h.rf (IRQ_HOFF (s / 32)) IRQ_HOFF_INT != 0 && !shown.contains s

/-- The presentation of a request starts the hold-off interval of its group (R373). -/
def hoffStart (h : Hw) (s : Nat) : Hw :=
  if h.rf (IRQ_HOFF (s / 32)) IRQ_HOFF_INT != 0 && (kvFind h.irqHoff (s / 32)).isNone
  then { h with irqHoff := kvIns h.irqHoff (s / 32) h.tb.toNat } else h

/-- The hold-off interval of a group that began at a value of TB may be over (`slack` 1) or is over (`slack` 0): IRQ_HOFF.INT CK_S cycles,
of which two CK_A ticks hold five (R493), counted from a cycle somewhere in the tick in which it began. -/
def hoffOver (h : Hw) (g since slack : Nat) : Bool :=
  decide (2 * h.rf (IRQ_HOFF g) IRQ_HOFF_INT ≤ 5 * ((h.tb - BitVec.ofNat 64 since).toNat + 2 * slack - 1))

/-- One CK_S cycle of presentation (R364). -/
def irqPresent (h : Hw) : Hw :=
  let h := forEach (List.range 16) h deferApply
  let shown := (List.range 8).filterMap (fun f => (h.frond f).presented)
  let order := reqOrder h
  let h0 := forEach (List.range (2 * h.nRegions)) h (fun h f => h.setFrond f { h.frond f with presented := none })
  let (h1, _) := order.foldl (fun (acc : Hw × List Nat) s =>
    let (h, given) := acc
    if hoffBlocks h shown s then acc
    else match bestFrond h s given with
      | none => acc
      | some f =>
        (hoffStart ((h.setFrond f { h.frond f with presented := some s }).idleLeave (f / 2)) s, f :: given)) (h0, [])
  { h1 with irqAge := order.map (fun s => (s, min 255 (kvGet 0 h.irqAge s + 1))) |>.foldl (fun m e => kvIns m e.1 e.2) [] }

/-! ### Commands of the interrupt controller -/

/-- EVENT_SOURCE_FIRE (R357, R370). -/
def eventSourceFire (s : Nat) (h : Hw) : Hw := irqFire h s

/-- LEVEL_SOURCE_SAMPLE (R357). -/
def levelSourceSample (s : Nat) (h : Hw) : Hw := irqSample h s

/-- KN_IRQ_IN_EDGE (R358): a synchronised change of kn_irq_in[k] to a level. -/
def knIrqInEdge (k : Nat) (lvl : Bool) (h : Hw) : Hw :=
  if k < 32 then
    let was := bit h.irqIn k
    let h1 := { h with irqIn := if lvl then (if was then h.irqIn else h.irqIn + 2 ^ k) else (if was then h.irqIn - 2 ^ k else h.irqIn) }
    if h.rf (IRQ_CFG (448 + k)) IRQ_CFG_TRIG = 1 then
      (if lvl && !was then irqFire h1 (448 + k) else h1)
    else irqSample h1 (448 + k)
  else h

/-- HOLDOFF_END (R373): the interval of a group is over; no effect where too few ticks have passed since it began. -/
def holdoffEnd (g : Nat) (h : Hw) : Hw :=
  match kvFind h.irqHoff g with
  | some t => if hoffOver h g t 1 then { h with irqHoff := kvDel h.irqHoff g } else h
  | none => h

/-- The hold-off intervals that a tick of CK_A sees over (R373). -/
def hoffTick (h : Hw) : Hw := { h with irqHoff := h.irqHoff.filter (fun e => !hoffOver h e.1 e.2 0) }

end Sys2Proof.Machine
end

