-- ==== Sys2Proof/Machine/LinkOps.lean ====
section
/-!
DEFINITION. Operations on lanes, links and contexts that the chains and the fronds also use: the bytes of a spore and its three checks (R194 to R197), lane sets, link
states, the transmit queues and the credits owed.
-/
namespace Sys2Proof.Machine

def Hw.link (h : Hw) (lk : Nat) : LinkSt := kvGet LinkSt.empty h.links lk
def Hw.setLink (h : Hw) (lk : Nat) (x : LinkSt) : Hw := { h with links := kvIns h.links lk x }
def Hw.lane (h : Hw) (l : Nat) : LaneSt := kvGet LaneSt.zero h.lanes l
def Hw.setLane (h : Hw) (l : Nat) (x : LaneSt) : Hw := { h with lanes := kvIns h.lanes l x }
def Hw.ctx (h : Hw) (n : Nat) : CtxSt := kvGet CtxSt.empty h.ctxs n
def Hw.setCtx (h : Hw) (n : Nat) (x : CtxSt) : Hw := { h with ctxs := kvIns h.ctxs n x }

/-! ### Checks (R196) -/

/-- One bit of a CRC that shifts left. -/
def crcStep (width poly c : Nat) (b : Bool) : Nat :=
  let top := bit c (width - 1) != b
  let c1 := c * 2 % 2 ^ width
  if top then Nat.xor c1 poly else c1
/-- One byte, most significant bit first. -/
def crcByteMsb (width poly c : Nat) (b : Byte) : Nat :=
  [7, 6, 5, 4, 3, 2, 1, 0].foldl (fun c i => crcStep width poly c (bit b.toNat i)) c
/-- One byte, least significant bit first. -/
def crcByteLsb (width poly c : Nat) (b : Byte) : Nat :=
  [0, 1, 2, 3, 4, 5, 6, 7].foldl (fun c i => crcStep width poly c (bit b.toNat i)) c
/-- The bits of a number of a width in reverse order. -/
def revBits (w v : Nat) : Nat := (List.range w).foldl (fun a i => a * 2 + b2n (bit v i)) 0
/-- HCRC. -/
def hcrc (bs : List Byte) : Nat := bs.foldl (crcByteMsb 16 0x1021) 0xFFFF
/-- CRC of a frame. -/
def crc32 (bs : List Byte) : Nat := Nat.xor (revBits 32 (bs.foldl (crcByteLsb 32 0x04C11DB7) 0xFFFFFFFF)) 0xFFFFFFFF
/-- ACRC, also the CRC of a debug frame's polynomial. -/
def acrc (bs : List Byte) : Nat := bs.foldl (crcByteMsb 8 0x07) 0

/-! ### The spore (R194, R195, R197) -/

/-- Bytes of a natural number, most significant first. -/
def beBytes (n v : Nat) : List Byte := (leBytes n v).reverse

/-- The acknowledgement word of a transmitter. -/
def ackBits (accSeq : Option Nat) (nk : Bool) : Nat :=
  let up := b2n accSeq.isSome * 2 ^ 31 + b2n nk * 2 ^ 30 + accSeq.getD 0 % 2 ^ 20 * 2 ^ 8
  up + acrc (beBytes 3 (up / 256))

/-- Tag bits [127:16]. -/
def tagHigh (f : Frame) : Nat :=
  ((((((((f.typ % 16 * 16 + f.epoch % 16) * 4096 + f.ctx % 4096) * 4096 + f.step % 4096) * 2 ^ 20 + f.seq % 2 ^ 20) * 2 ^ 32 + f.offset % 2 ^ 32) * 64 +
    f.fmt % 64) * 512 + f.len % 512) * 256 + (f.crdTc % 4 * 64 + f.crdN % 64)) * 32 +
    (f.tc % 4 * 8 + b2n f.rpl * 4 + b2n f.lst * 2 + b2n f.rsnd)

/-- The 280 bytes of a frame with an acknowledgement word. -/
def frameBytes (f : Frame) (aw : Nat) : List Byte :=
  let head := beBytes 14 (tagHigh f)
  let tag := head ++ beBytes 2 (hcrc head)
  let body := tag ++ (f.payload.take (min f.len 256) ++ List.replicate 256 0).take 256
  body ++ beBytes 8 (crc32 body * 2 ^ 32 + aw)

/-- A frame with every field zero. -/
def Frame.blank : Frame := ⟨0, 0, 0, 0, 0, 0, 0, 0, 0, 0, 0, false, false, false, []⟩

def ftIDLE : Nat := 0
def ftDATA : Nat := 1
def ftAREC : Nat := 2
def ftTOKEN : Nat := 3
def ftCREDIT : Nat := 4
def ftEPOCH : Nat := 5
def ftSNAK : Nat := 6
def ftSREF : Nat := 7
def ftMGMT : Nat := 8
def ftLCTL : Nat := 9

/-- Credited frame types (R198). -/
def credited (f : Frame) : Bool := f.typ == ftDATA || f.typ == ftAREC || f.typ == ftTOKEN || f.typ == ftMGMT
/-- Sequenced frames (R198, R203). -/
def sequenced (f : Frame) : Bool := f.typ != ftIDLE && (f.typ != ftLCTL || decide (4 ≤ f.fmt))

/-! ### Lanes and link states -/

def lsDown : Nat := 0
def lsAn : Nat := 1
def lsTrain : Nat := 2
def lsAlign : Nat := 3
def lsInit : Nat := 4
def lsUp : Nat := 5
def lsChange : Nat := 6
def lsQuiesce : Nat := 7

/-- LK_STAT.STATE. -/
def Hw.lkState (h : Hw) (lk : Nat) : Nat := h.rf (LK_STAT lk) LK_STAT_STATE
/-- The link carries sequenced traffic. -/
def Hw.lkUp (h : Hw) (lk : Nat) : Bool := h.lkState lk == lsUp || h.lkState lk == lsChange || h.lkState lk == lsQuiesce

/-! ### The phases of a region's recovery (R420) -/

def rpRun : Nat := 0
def rpQuiesce : Nat := 1
def rpDiscard : Nat := 2
def rpReset : Nat := 3
def rpHalted : Nat := 5

/-- A region in one of the phases of recovery. -/
def inRecovery (h : Hw) (r : Nat) : Bool := h.rgnState r == rpQuiesce || h.rgnState r == rpDiscard || h.rgnState r == rpReset

/-- Lanes of a link by position, ascending (R20, R203). -/
def lanesOfCfg (lk : Nat) (v : W32) : List Nat := ((List.range 4).filter (fun k => bit (fldGet LK_CFG_LANES v) k)).map (fun k => lk / 4 * 4 + k)
def Hw.linkLanes (h : Hw) (lk : Nat) : List Nat := lanesOfCfg lk (h.rd (LK_CFG lk))
/-- The lane at a position of a link. -/
def Hw.laneAt (h : Hw) (lk pos : Nat) : Option Nat := (h.linkLanes lk)[pos]?
/-- The position of a lane in its link. -/
def Hw.posOf (h : Hw) (lk l : Nat) : Nat := (h.linkLanes lk).findIdx (· == l)
/-- The mask of all positions. -/
def Hw.fullSet (h : Hw) (lk : Nat) : Nat := 2 ^ (h.linkLanes lk).length - 1
/-- The enabled link a lane belongs to. -/
def Hw.linkOfLane (h : Hw) (l : Nat) : Option Nat :=
  ((List.range 4).map (fun k => l / 4 * 4 + k)).find? (fun lk => h.rb (LK_CFG lk) LK_CFG_EN && (h.linkLanes lk).contains l)
/-- Links of a region. -/
def linksOf (r : Nat) : List Nat := (List.range 32).map (fun j => 32 * r + j)

/-- Set the state of a link; any change fires its interrupt source under ST_IE (R218, R356). -/
def linkSetState (h : Hw) (lk s : Nat) : Hw :=
  if h.lkState lk = s then h
  else
    let h1 := h.wf (LK_STAT lk) LK_STAT_STATE s
    if h1.rb (LK_CTL lk) LK_CTL_ST_IE then irqFire h1 (rSrc (lk / 32) (16 + lk % 32)) else h1

/-- Set the STATE of every lane of a link. -/
def lanesSetState (h : Hw) (lk s : Nat) : Hw := forEach (h.linkLanes lk) h (fun h l => h.wf (LN_STAT l) LN_STAT_STATE s)

/-! ### Transmit queues and credits -/

/-- Queue a frame of a class for transmission. -/
def linkSend (h : Hw) (lk : Nat) (f : Frame) : Hw :=
  let x := h.link lk
  h.setLink lk { x with txq := x.txq ++ [f] }
/-- Queue a sequenced control frame. -/
def linkCtl (h : Hw) (lk : Nat) (f : Frame) : Hw :=
  let x := h.link lk
  h.setLink lk { x with ctlq := x.ctlq ++ [f] }
/-- Owe the partner a credit of a class (R213). -/
def linkOwe (h : Hw) (lk tc : Nat) : Hw :=
  let x := h.link lk
  h.setLink lk { x with owed := kvIns x.owed tc (kvGet 0 x.owed tc + 1) }
/-- The place of a received frame is freed. -/
def freePlace (h : Hw) (lk : Nat) (f : Frame) : Hw := if credited f then linkOwe h lk f.tc else h

/-- Remove the frame at a place of a list. -/
def dropAt {α : Type} (l : List α) (i : Nat) : List α := l.take i ++ l.drop (i + 1)

/-- The first receive post that takes a frame (R175). -/
def postOf (x : LinkSt) (f : Frame) : Option Post := x.posts.find? (fun p => p.ctx == f.ctx && p.step == f.step)

/-- The frame at a place of the receive buffer is the oldest of its class: frames of a class are delivered in SEQ order (R211). -/
def rbufHead (x : LinkSt) (i : Nat) : Bool :=
  match x.rbuf[i]? with
  | some f => (x.rbuf.take i).all (fun g => g.tc != f.tc)
  | none => false

/-- The frame at a place leaves the receive buffer, and its credit is owed (R213). -/
def rbufFree (h : Hw) (lk i : Nat) : Hw :=
  let x := h.link lk
  match x.rbuf[i]? with
  | some f => freePlace (h.setLink lk { x with rbuf := dropAt x.rbuf i }) lk f
  | none => h

/-- The field of LK_CRED that holds a class. -/
def credFld (tc : Nat) : Fld := ⟨8 * tc, 8⟩
/-- Credits held to transmit in a class. -/
def Hw.cred (h : Hw) (lk tc : Nat) : Nat := h.rf (LK_CRED lk) (credFld tc)

/-- A token frame (R201). -/
def tokenFrame (n step code opid tc : Nat) (payload : List Byte) : Frame :=
  { Frame.blank with typ := ftTOKEN, ctx := n, step := step, offset := opid, fmt := code, len := payload.length, tc := tc, payload := payload }

/-! ### Contexts (R164 to R169) -/

def csFree : Nat := 0
def csIdle : Nat := 1
def csFence : Nat := 2
def csRun : Nat := 3
def csHalted : Nat := 4

/-- CXE_CTL.STATE. -/
def Hw.cxState (h : Hw) (n : Nat) : Nat := h.rf (CXE_CTL n) CXE_CTL_STATE
/-- The role of link LK32r + j in a context (R169). -/
def Hw.cxRole (h : Hw) (n j : Nat) : Nat :=
  if j < 16 then bits (h.rd (CXE_ROLE_LO n)).toNat (2 * j + 1) (2 * j) else bits (h.rd (CXE_ROLE_HI n)).toNat (2 * (j - 16) + 1) (2 * (j - 16))
/-- The peer table's entry for a rank (R169). -/
def Hw.peerWord (h : Hw) (n q : Nat) : Nat := leNat (memGets h.mem (h.rf (CXE_PEER n) CXE_PEER_PEERBASE * 64 + 4 * q) 4)
/-- The link toward a rank. -/
def Hw.peerLink (h : Hw) (n q : Nat) : Option Nat :=
  let w := h.peerWord n q
  if bit w 31 then some (w % 128) else none
/-- World of a context. -/
def Hw.cxWorld (h : Hw) (n : Nat) : World := if h.rb (CXE_CTL n) CXE_CTL_WORLD then .tenant else .keeper
/-- NPART and RANK. -/
def Hw.cxN (h : Hw) (n : Nat) : Nat := h.rf (CXE_MEMB n) CXE_MEMB_NPART
def Hw.cxRank (h : Hw) (n : Nat) : Nat := h.rf (CXE_MEMB n) CXE_MEMB_RANK

/-- The links a context uses: those with a role, and those its peer table names for another rank (R169, R185). -/
def Hw.cxLinks (h : Hw) (n : Nat) : List Nat :=
  let r := n / 1024
  (linksOf r).filter (fun lk => h.cxRole n (lk % 32) != 0 ||
    (List.range (h.cxN n)).any (fun q => q != h.cxRank n && h.peerLink n q == some lk))

/-- Progress re-arms a timeout that is armed (R185). -/
def cxProgress (h : Hw) (n : Nat) : Hw :=
  let x := h.ctx n
  match x.run with
  | none => h
  | some u => h.setCtx n { x with run := some { u with armed := u.armed.map (fun _ => h.tb.toNat) } }

end Sys2Proof.Machine
end

