-- ==== Sys2Proof/Machine/Mat.lean ====
section
/-!
DEFINITION. The mat, the cushion and the march engine (R41 to R75): the region windows, word reads and writes with parity, suspect banks, cushion
collisions, march runs, repair and the two logs a read pops.
-/
namespace Sys2Proof.Machine

/-! ### Masters and windows (R47, R57, R58) -/

/-- The region in which a master's accesses are checked, and its protection master number (R57). -/
def protMaster : Master → Nat × Nat
  | .frond f => (f / 2, f % 2)
  | .fetchA c => (c / 8, 2 + c % 8)
  | .fetchB c => (c / 8, 2 + c % 8)
  | .store c => (c / 8, 2 + c % 8)
  | .mover p => (p / 2, 10 + p % 2)
  | .hostB p => (p / 2, 10 + p % 2)
  | .queueEngine r => (r, 12)
  | .rxWriter l => (l / 32, 13)
  | .txReader l => (l / 32, 13)
  | .traceSink r => (r, 14)
  | .march r => (r, 15)
  | .debugger f => (f / 2, f % 2)

/-- The arbitration index of a master (R47); a host access on port B is named by its port. -/
def arbIndex : Master → Nat
  | .frond f => f
  | .debugger _ => 8
  | .fetchA c => 3 * (c % 8)
  | .fetchB c => 3 * (c % 8) + 1
  | .store c => 3 * (c % 8) + 2
  | .mover p => 24 + p % 2
  | .rxWriter l => 26 + l % 32
  | .txReader l => 58 + l % 32
  | .queueEngine _ => 90
  | .traceSink _ => 91
  | .march _ => 92
  | .hostB p => p

/-- Class P (R47). -/
def isClassP : Master → Bool
  | .frond _ => true
  | .debugger _ => true
  | _ => false

/-- Port B of the cushion. -/
def isPortB : Master → Bool
  | .hostB _ => true
  | _ => false

/-- A streaming master (class D of R47). -/
def isStream (ms : Master) : Bool := !isClassP ms && !isPortB ms

/-- The arbitration index under which an access at an offset is known at its bank: a stream of another region comes through the crossbar input of that region, 96 to 99 (R47). -/
def arbAt (ms : Master) (a : Nat) : Nat :=
  if isStream ms && (protMaster ms).1 != memRegion a then 96 + (protMaster ms).1 else arbIndex ms

/-- The memories a master has a path to (R54): the link units none to the cushion, the host through port B none to the mat. -/
def hasPath (h : Hw) (ms : Master) (a : Nat) : Bool :=
  match ms with
  | .rxWriter _ => h.inMat a
  | .txReader _ => h.inMat a
  | .hostB _ => h.inCush a
  | _ => h.inMem a

/-- Window n of protection master m contains the pages p to q. -/
def winContains (h : Hw) (r m n p q : Nat) : Bool :=
  h.rb (RWIN_LO r m n) RWIN_LO_EN && decide (h.rf (RWIN_LO r m n) RWIN_LO_BASE ≤ p) && decide (q ≤ h.rf (RWIN_HI r m n) RWIN_HI_LIMIT)

/-- Window n allows the access. -/
def winAllows (h : Hw) (r m n : Nat) (write : Bool) : Bool :=
  if write then h.rb (RWIN_LO r m n) RWIN_LO_WR else h.rb (RWIN_LO r m n) RWIN_LO_RD

/-- The bank group of a mat offset, 16 for the cushion (R66). -/
def memGroup (a : Nat) : Nat := if a < 0x10000000 then memBank a / 64 else 16

/-- A destructive run has this offset under test (R67): the group that MCH_STAT.GROUP shows, or of a targeted run its bank alone (DEDUCED from "Test only the bank in MCH_TGT"). -/
def underTest (h : Hw) (a : Nat) : Bool :=
  match (h.mat (memRegion a)).march with
  | none => false
  | some mr =>
    mr.destructive &&
    (match mr.single with
     | some (c, b) => c == decide (0x10000000 ≤ a) && memBank a == b
     | none => memGroup a == h.rf (MCH_STAT (memRegion a)) MCH_STAT_GROUP)

/-- The cause that refuses an access of `len` bytes at a mapped mat or cushion offset (R58, R63, R67), as PROT_INFO.CAUSE; none when it is permitted. The march engine has no windows
and is always permitted (R57), though not in a region out of service (R63). -/
def protCause (h : Hw) (ms : Master) (a len : Nat) (write : Bool) : Option Nat :=
  let (r, m) := protMaster ms
  if !h.memServed (memRegion a) then some 3
  else if m = 15 then none
  else if underTest h a then some 3
  else
    let p := a / 4096
    let q := (a + len - 1) / 4096
    if (List.range 8).any (fun n => winContains h r m n p q && winAllows h r m n write) then none
    else if (List.range 8).any (fun n => winContains h r m n p q) then some 1
    else if (List.range 8).any (fun n => winContains h r m n p p) && (List.range 8).any (fun n => winContains h r m n q q) then some 2
    else some 0

/-- A refused access is logged in the region of its master (R59). -/
def protLog (h : Hw) (ms : Master) (a cause : Nat) (write : Bool) : Hw :=
  let (r, m) := protMaster ms
  let h1 := h.sb (MAT_STAT r) MAT_STAT_PROT
  let h2 := h1.addSat (PROT_INFO r) PROT_INFO_COUNT 1
  if h.rb (PROT_INFO r) PROT_INFO_VALID then h2
  else
    ((((h2.wf (PROT_ADDR r) PROT_ADDR_ADDR a).wf (PROT_INFO r) PROT_INFO_WRITE (b2n write)).wf (PROT_INFO r) PROT_INFO_CAUSE cause).wf
      (PROT_INFO r) PROT_INFO_MASTER m).sb (PROT_INFO r) PROT_INFO_VALID

/-! ### Words (R43, R49 to R52) -/

/-- Word addresses touched by an access. -/
def wordsOf (a len : Nat) : List Nat := (rangeIncl (a / 8) ((a + len - 1) / 8)).map (· * 8)

/-- The key of a bank among all banks of the macro, cushion banks from 1024 on. -/
def bankKey (r : Nat) (cush : Bool) (b : Nat) : Nat := r * 2048 + 1024 * b2n cush + b
/-- The key of the bank of an offset. -/
def bankKeyOf (a : Nat) : Nat := bankKey (memRegion a) (decide (0x10000000 ≤ a)) (memBank a)

/-- Contents of a bank that an aborted destructive run left undefined (R69) and that no write has defined since. -/
def isUndef (h : Hw) (a : Nat) : Bool :=
  h.undefBank.contains (bankKeyOf a) && (kvFind h.defd (a / 8)).isNone

/-- A stored byte of the mat or the cushion; an undefined one is a free value of its address. -/
def Hw.byteAt (h : Hw) (a : Nat) : Byte :=
  if isUndef h a then (Config.freeValue (2 ^ 64 + a)).setWidth 8 else memGet h.mem a

/-- Stored bytes from an address on. -/
def Hw.bytesAt (h : Hw) (a n : Nat) : List Byte := (List.range n).map (fun i => h.byteAt (a + i))

/-- The word holds bad parity (R73, R415). -/
def isMarked (h : Hw) (a : Nat) : Bool := (kvFind h.marked (a / 8)).isSome

/-- Store one whole word with good parity. -/
def putWord (h : Hw) (a : Nat) (bs : List Byte) : Hw :=
  { h with
    mem := memSets h.mem (a / 8 * 8) (bs.take 8)
    marked := kvDel h.marked (a / 8)
    defd := if h.undefBank.contains (bankKeyOf a) then kvIns h.defd (a / 8) () else h.defd }

/-- A bank collects an uncorrected error; at SUSP_THR it is marked suspect and queued (R52). -/
def suspectCount (h : Hw) (a : Nat) : Hw :=
  let r := memRegion a
  let cush : Bool := decide (0x10000000 ≤ a)
  let b := memBank a
  let key := if cush then 1024 + b else b
  let mr := h.mat r
  let old := kvGet 0 mr.bankCnt key
  let new := min 15 (old + 1)
  let thr := h.rf (MAT_CTL r) MAT_CTL_SUSP_THR
  let h1 := h.setMat r { mr with bankCnt := kvIns mr.bankCnt key new }
  if thr ≠ 0 ∧ old < thr ∧ thr ≤ new then
    (let h2 := h1.sb (MAT_STAT r) MAT_STAT_SUSP
     let mr1 := h2.mat r
     if mr1.susp.contains (cush, b) then h2
     else if mr1.susp.length < 16 then h2.setMat r { mr1 with susp := mr1.susp ++ [(cush, b)] }
     else h2.sb (MAT_STAT r) MAT_STAT_SUSPOVF)
  else h1

/-- A read that fails its repeat is logged (R51). -/
def perrLog (h : Hw) (ms : Master) (a : Nat) : Hw :=
  let r := memRegion a
  let cush : Bool := decide (0x10000000 ≤ a)
  let h1 := (h.addSat (MAT_ERRCNT r) MAT_ERRCNT_UNCOR 1).sb (MAT_STAT r) MAT_STAT_PERR
  let h2 := h1.addSat (MAT_PERR_INFO r) MAT_PERR_INFO_COUNT 1
  let h3 := if h.rb (MAT_PERR_INFO r) MAT_PERR_INFO_VALID then h2
    else
      (((((h2.wf (MAT_PERR_ADDR r) MAT_PERR_ADDR_ADDR (a / 8 * 8)).wf (MAT_PERR_INFO r) MAT_PERR_INFO_CUSH (b2n cush)).wf
        (MAT_PERR_INFO r) MAT_PERR_INFO_PORTB (b2n (isPortB ms))).wf (MAT_PERR_INFO r) MAT_PERR_INFO_CLASS (b2n (isClassP ms))).wf
        (MAT_PERR_INFO r) MAT_PERR_INFO_MASTER (arbAt ms a)).sb (MAT_PERR_INFO r) MAT_PERR_INFO_VALID
  let h4 := { h3 with marked := kvIns h3.marked (a / 8) () }
  suspectCount h4 a

/-- One word of a read: a marked word fails both reads (R51, R415), and the other outcomes are the array's. -/
def wordCheck (h : Hw) (ms : Master) (w : Nat) (c : Check) : Hw × Bool :=
  match if isMarked h w then Check.failed else c with
  | .good => (h, false)
  | .retried => (h.addSat (MAT_ERRCNT (memRegion w)) MAT_ERRCNT_RETRY 1, false)
  | .failed => (perrLog h ms w, true)

/-- The words of a read, each with its own check (R51): whether one of them is bad. -/
def parityRead (h : Hw) (ms : Master) (a len : Nat) (par : Par) : Hw × Bool :=
  (wordsOf a len).foldl (fun (acc : Hw × Bool) w =>
    let (h1, bad) := wordCheck acc.1 ms w (par.check (w / 8 - a / 8))
    (h1, acc.2 || bad)) (h, false)

/-- An access whose beat arrives with a sideband parity error (R25): a streaming master's, or one between two regions. -/
def sideHit (ms : Master) (a : Nat) (par : Par) : Bool := par.beat == .sideband && (isStream ms || (protMaster ms).1 != memRegion a)

/-- A streaming master's beat with another epoch than the receiving region's is dropped without report (R24). -/
def staleHit (ms : Master) (par : Par) : Bool := par.beat == .stale && isStream ms

/-- The log of a discarded beat: the macro error log between regions (R428), else the region error log. -/
def sideLog (h : Hw) (ms : Master) (a : Nat) : Hw :=
  let r := memRegion a
  if (protMaster ms).1 = r then rgnLog h r 3 (arbIndex ms) (a / 8 * 8) else meuLog (h.sb MEU_STAT MEU_STAT_XBPERR) 2 r (a / 8 * 8)

/-- A read of the array whose answer travels on a beat (R25, R51). -/
def beatRead (h : Hw) (ms : Master) (a len : Nat) (par : Par) : Hw × Bool :=
  let (h1, bad) := parityRead h ms a len par
  if sideHit ms a par then (sideLog h1 ms a, true) else (h1, bad)

/-- The line locks of R320: an access of the other frond of the region, or of the debugger, to a locked line waits (R48). -/
def lineWaits (h : Hw) (ms : Master) (a : Nat) : Bool :=
  match ms with
  | .frond f => (frondsOf (f / 2)).any (fun f' => f' != f && (h.frond f').lockLine == some (a / 64))
  | .debugger _ => (List.range 8).any (fun f' => (h.frond f').lockLine == some (a / 64))
  | _ => false

/-! ### Collisions (R55) -/

/-- Busy toward the access that carries the meeting. -/
def meetBusy (write : Bool) (x : Meet) : Bool := (write || x.write) && (x.order == .equal || x.order == .thisLater)

/-- Busy on some word of an access. -/
def anyBusy (write : Bool) (ms : List Meet) : Bool := ms.any (meetBusy write)

/-- One collision on the word w; the port A access writes the log. -/
def collOne (ms : Master) (w : Nat) (write : Bool) (h : Hw) (x : Meet) : Hw :=
  if (!write && !x.write) || isPortB ms || !h.inCush w then h
  else
    let r := memRegion w
    let busy := match x.order with | .equal => 3 | .thisLater => 1 | .otherLater => 2
    let h1 := (h.sb (MAT_STAT r) MAT_STAT_COLL).addSat (CSH_COLL_INFO r) CSH_COLL_INFO_COUNT 1
    if h.rb (CSH_COLL_INFO r) CSH_COLL_INFO_VALID then h1
    else
      (((((h1.wf (CSH_COLL_ADDR r) CSH_COLL_ADDR_ADDR w).wf (CSH_COLL_INFO r) CSH_COLL_INFO_BUSY busy).wf
        (CSH_COLL_INFO r) CSH_COLL_INFO_AREAD (b2n (!write))).wf (CSH_COLL_INFO r) CSH_COLL_INFO_AMASTER (arbAt ms w)).wf
        (CSH_COLL_INFO r) CSH_COLL_INFO_BPORT x.other).sb (CSH_COLL_INFO r) CSH_COLL_INFO_VALID

/-- The address of the word of a meeting. -/
def meetWord (a : Nat) (x : Meet) : Nat := 8 * (a / 8 + x.word)

/-- The collisions of an access. -/
def collLog (h : Hw) (ms : Master) (a : Nat) (write : Bool) (meets : List Meet) : Hw := meets.foldl (fun h x => collOne ms (meetWord a x) write h x) h

/-- A read of this word meets a write, so its data is undefined (R55). -/
def meetUndef (h : Hw) (a : Nat) (meets : List Meet) (w : Nat) : Bool := h.inCush w && meets.any (fun x => x.write && meetWord a x == w)

/-- Whether this access's value of byte i of the word w stands after a write against write collision (R55). -/
def meetWins (ms : Master) (a : Nat) (meets : List Meet) (w i : Nat) : Bool :=
  meets.all (fun x =>
    if meetWord a x != w || !x.write || !bit x.enables.toNat i then true
    else match x.order with
      | .thisLater => true
      | .otherLater => false
      | .equal => !isPortB ms)

/-! ### Accesses -/

/-- A read of `len` bytes of a mapped mat or cushion offset (R24, R25, R51, R55, R59), refused by the cause given: status 0 good, 1 protection, 2 parity, with the data; a
discarded beat brings none. A word that a port B write meets gives free bytes. -/
def memReadAs (cause : Option Nat) (h : Hw) (ms : Master) (a len : Nat) (par : Par) (meets : List Meet) : Hw × Nat × List Byte :=
  match cause with
  | some c => (protLog h ms a c false, 1, List.replicate len 0)
  | none =>
    let h0 := collLog (h.idleLeave (memRegion a)) ms a false meets
    let (h1, bad) := beatRead h0 ms a len par
    let undef := meetUndef h a meets
    let data := (List.range len).map (fun i =>
      if undef ((a + i) / 8 * 8) then (Config.freeValue (h1.free + i)).setWidth 8 else h1.byteAt (a + i))
    (if (wordsOf a len).any undef then { h1 with free := h1.free + len } else h1, if bad then 2 else 0, if sideHit ms a par then [] else data)

/-- A read under the region windows (R57, R58, R63). -/
def memRead (h : Hw) (ms : Master) (a len : Nat) (par : Par) (meets : List Meet) : Hw × Nat × List Byte :=
  memReadAs (protCause h ms a len false) h ms a len par meets

/-- The cause that refuses an access the windows do not check (R79, R105): the region out of service, or the bank under test (R63, R67). -/
def rawCause (h : Hw) (a : Nat) : Option Nat := if !h.memServed (memRegion a) || underTest h a then some 3 else none

/-- A read that the windows do not check. -/
def rawRead (h : Hw) (ms : Master) (a len : Nat) (par : Par) (meets : List Meet) : Hw × Nat × List Byte :=
  memReadAs (rawCause h a) h ms a len par meets

/-- Write one word under byte enables (R50): a partial write merges, and is not performed when the read it needs fails. -/
def wordWrite (h : Hw) (ms : Master) (w : Nat) (bs : List (Option Byte)) (partialW : Bool) (c : Check) : Hw × Bool :=
  let (h1, bad) := if partialW then wordCheck h ms w c else (h, false)
  if bad then (h1.sb (MAT_STAT (memRegion w)) MAT_STAT_WMERGE, true)
  else
    let old := h1.bytesAt w 8
    let new := (List.range 8).map (fun i => ((bs[i]?).join).getD (old.getD i 0))
    (putWord h1 w new, false)

/-- The bytes an access gives to one word, less those that a colliding write takes. -/
def wordBytes (a : Nat) (data : List (Option Byte)) (ms : Master) (meets : List Meet) (w : Nat) : List (Option Byte) :=
  (List.range 8).map (fun i =>
    if w + i < a then none
    else if !meetWins ms a meets w i then none
    else (data[w + i - a]?).join)

/-- A write of a mapped mat or cushion offset under byte enables (R25, R50, R55, R59), refused by the cause given: status 0 good, 1 protection, 2 parity; a discarded beat writes
nothing. -/
def memWriteAs (cause : Option Nat) (h : Hw) (ms : Master) (a : Nat) (data : List (Option Byte)) (par : Par) (meets : List Meet) : Hw × Nat :=
  match cause with
  | some c => (protLog h ms a c true, 1)
  | none => if sideHit ms a par then (sideLog (h.idleLeave (memRegion a)) ms a, 2) else
    let h0 := collLog (h.idleLeave (memRegion a)) ms a true meets
    let (h1, bad) := (wordsOf a (max 1 data.length)).foldl (fun (acc : Hw × Bool) w =>
      let bs := wordBytes a data ms meets w
      if bs.all (·.isNone) then acc
      else
        let (h2, b2) := wordWrite acc.1 ms w bs ((wordBytes a data ms [] w).any (·.isNone)) (par.check (w / 8 - a / 8))
        (h2, acc.2 || b2)) (h0, false)
    (h1, if bad then 2 else 0)

/-- A write under the region windows (R57, R58, R63). -/
def memWriteEn (h : Hw) (ms : Master) (a : Nat) (data : List (Option Byte)) (par : Par) (meets : List Meet) : Hw × Nat :=
  memWriteAs (protCause h ms a (max 1 data.length) true) h ms a data par meets

/-- A write that the windows do not check (R105). -/
def rawWrite (h : Hw) (ms : Master) (a : Nat) (data : List Byte) (par : Par) (meets : List Meet) : Hw × Nat :=
  memWriteAs (rawCause h a) h ms a (data.map some) par meets

/-- A write with every byte enabled. -/
def memWrite (h : Hw) (ms : Master) (a : Nat) (data : List Byte) (par : Par) (meets : List Meet) : Hw × Nat :=
  memWriteEn h ms a (data.map some) par meets

/-! ### March engine (R66 to R74) -/

/-- The key of a spare's map entry. -/
def rmapKey (r : Nat) (cush : Bool) (bank spare : Nat) : Nat := ((r * 2 + b2n cush) * 1024 + bank) * 4 + spare
/-- A spare's map entry in the layout of RMAP_DATA: USED 15, BAD 14, PROW 8..0. -/
def rmapGet (h : Hw) (r : Nat) (cush : Bool) (bank spare : Nat) : Nat := kvGet 0 h.rmap (rmapKey r cush bank spare)
def rmapSet (h : Hw) (r : Nat) (cush : Bool) (bank spare v : Nat) : Hw := { h with rmap := kvIns h.rmap (rmapKey r cush bank spare) v }
/-- Spares of a bank (R71). -/
def spareCount (cush : Bool) : Nat := if cush then 2 else 4
/-- Data rows of a bank (R42, R53). -/
def dataRows (cush : Bool) : Nat := if cush then 256 else 512

/-- The lowest-numbered spare that is neither USED nor BAD (R73). -/
def freeSpare (h : Hw) (r : Nat) (cush : Bool) (bank : Nat) : Option Nat :=
  (List.range (spareCount cush)).find? (fun s => !bit (rmapGet h r cush bank s) 15 && !bit (rmapGet h r cush bank s) 14)

/-- Append to the repair log: 64 entries, a further one is lost and sets RPLOVF (R74). -/
def repairLog (h : Hw) (r : Nat) (cush : Bool) (bank prow spare src : Nat) : Hw :=
  let e : W32 := fldSet RPL_DATA_VALID (fldSet RPL_DATA_CUSH (fldSet RPL_DATA_BANK (fldSet RPL_DATA_PROW
    (fldSet RPL_DATA_SPARE (fldSet RPL_DATA_SRC 0 src) spare) prow) bank) (b2n cush)) 1
  let mr := h.mat r
  if mr.repLog.length < 64 then
    (h.setMat r { mr with repLog := mr.repLog ++ [e] }).wf (RPL_STAT r) RPL_STAT_COUNT (mr.repLog.length + 1)
  else h.sb (MAT_STAT r) MAT_STAT_RPLOVF

/-- The 65-bit word that a background writes, or its complement: the data, with the parity column of R66 as bit 64. -/
def marchWord (bkg : Nat) (inv : Bool) : BitVec 65 :=
  let d : BitVec 65 := match bkg with
    | 0 => 0
    | 1 => 0x15555555555555555
    | 2 => 0x13333333333333333
    | _ => 0x10F0F0F0F0F0F0F0F
  if inv then ~~~d else d

/-- The 65 bits that a data row's word holds: the stored word and its parity, which is even unless the word is marked (R43, R73). -/
def storedWord (h : Hw) (w : Nat) : BitVec 65 :=
  let d := leNat (h.bytesAt w 8)
  let odd := (List.range 64).foldl (fun (b : Bool) i => b != bit d i) false
  BitVec.ofNat 65 (d + 2 ^ 64 * b2n (odd != isMarked h w))

/-- What the test expects of a word (R66, R67): a destructive run its background or the complement; a transparent one the stored word or its complement, so that BKG plays no part
there (DEDUCED). A spare's contents are no register's or address's: a free value. -/
def marchWant (h : Hw) (r : Nat) (mr : MarchRun) (f : MarchFail) : BitVec 65 :=
  if mr.destructive then marchWord mr.bkg f.inv
  else
    let s := if f.prow < dataRows f.cush then storedWord h (memWordAt r f.cush f.bank (f.prow * 8 + f.word))
      else (Config.freeValue (2 ^ 65 + ((bankKey r f.cush f.bank * 4 + f.prow) * 8 + f.word))).setWidth 65
    if f.inv then ~~~s else s

/-- The lowest bit in which a word read differs from the word expected (R66: all 65 bits are compared); that BIT names the lowest of several is a DESIGN CHOICE. -/
def marchBit (h : Hw) (r : Nat) (mr : MarchRun) (f : MarchFail) : Option Nat :=
  let d := (f.read ^^^ marchWant h r mr f).toNat
  (List.range 65).find? (bit d)

/-- The bank group of a bank (R66). -/
def bankGroup (cush : Bool) (bank : Nat) : Nat := if cush then 16 else bank / 64

/-- A place that the run tests while the groups from `lo` to `hi` are under test: a bank of them or of the target, a data or spare row, one of its eight words. -/
def marchPlace (mr : MarchRun) (lo hi : Nat) (f : MarchFail) : Bool :=
  decide (f.bank < (if f.cush then 64 else 1024)) && decide (f.prow < dataRows f.cush + spareCount f.cush) && decide (f.word < 8) &&
  (match mr.single with
   | some (c, b) => f.cush == c && f.bank == b
   | none => decide (lo ≤ bankGroup f.cush f.bank) && decide (bankGroup f.cush f.bank ≤ hi))

/-- A spare that is not BAD serves this data row already (R71). -/
def rowServed (h : Hw) (r : Nat) (cush : Bool) (bank prow : Nat) : Bool :=
  (List.range (spareCount cush)).any (fun s =>
    bit (rmapGet h r cush bank s) 15 && !bit (rmapGet h r cush bank s) 14 && rmapGet h r cush bank s % 512 == prow % 512)

/-- The failing word of a row copied to its spare in a transparent run carries inverted parity (R73). -/
def marchCopy (h : Hw) (r : Nat) (mr : MarchRun) (f : MarchFail) : Hw :=
  if mr.destructive then h else { h with marked := kvIns h.marked (memWordAt r f.cush f.bank (f.prow * 8 + f.word) / 8) () }

/-- A failing row is found (R73): it is counted, and the first one captured. A failing spare is marked BAD, with REPAIR = 0 too: that repairs nothing (DEDUCED from "A spare that fails
its own test is marked BAD"). With REPAIR a data row takes the lowest usable spare; a row that a good spare serves already keeps it and takes no other (DESIGN CHOICE, log 32).
Whether the row was replaced comes back too. -/
def marchRow (h : Hw) (r : Nat) (mr : MarchRun) (f : MarchFail) (b : Nat) : Hw × Bool :=
  let h1 := h.addSat (MCH_STAT r) MCH_STAT_FAILS 1
  let h2 := if h1.rb (MCH_FAIL r) MCH_FAIL_VALID then h1
    else (((((h1.wf (MCH_FAIL r) MCH_FAIL_CUSH (b2n f.cush)).wf (MCH_FAIL r) MCH_FAIL_BANK f.bank).wf (MCH_FAIL r) MCH_FAIL_PROW f.prow).wf
      (MCH_FAIL r) MCH_FAIL_WORD f.word).wf (MCH_FAIL r) MCH_FAIL_BIT b).sb (MCH_FAIL r) MCH_FAIL_VALID
  if f.prow ≥ dataRows f.cush then
    (let s := f.prow - dataRows f.cush
     (rmapSet h2 r f.cush f.bank s (rmapGet h2 r f.cush f.bank s % 2 ^ 14 + 2 ^ 14 + 2 ^ 15 * b2n (bit (rmapGet h2 r f.cush f.bank s) 15)), false))
  else if !mr.repair || rowServed h2 r f.cush f.bank f.prow then (h2, false)
  else match freeSpare h2 r f.cush f.bank with
    | none => (h2.sb (MAT_STAT r) MAT_STAT_NOSPARE, false)
    | some s => (marchCopy (repairLog (rmapSet h2 r f.cush f.bank s (2 ^ 15 + f.prow % 512)) r f.cush f.bank f.prow s mr.src) r mr f, true)

/-- A word that the run reads: it fails when it differs from the word expected; a row counts once in a run. -/
def marchFail (r lo hi : Nat) (acc : Hw × MarchRun) (f : MarchFail) : Hw × MarchRun :=
  let (h, mr) := acc
  match marchBit h r mr f with
  | none => (h, mr)
  | some b =>
    if !marchPlace mr lo hi f then (h, mr)
    else match mr.rows.find? (fun e => e.1 == (f.cush, f.bank, f.prow)) with
      | some e => (if e.2 then marchCopy h r mr f else h, mr)
      | none =>
        let (h1, rep) := marchRow h r mr f b
        (h1, { mr with rows := mr.rows ++ [((f.cush, f.bank, f.prow), rep)] })

/-- A write to MCH_CTL (R69): the plain fields are set by a keeper-world supervisor or the loader; START starts a run or is refused; START with ABORT is ignored.
`idle` says that the chains, link units, queue engine and movers of the region are idle (R67). -/
def mchCtlWrite (h : Hw) (r : Nat) (w : Who) (v : W32) (idle startup : Bool) : Hw :=
  let start := fldGet MCH_CTL_START v == 1
  let abort := fldGet MCH_CTL_ABORT v == 1
  let h1 := if w.keeperSup then h.wr (MCH_CTL r) (v &&& 0x001F1FFC) else h
  let mr := h1.mat r
  if start && abort then h1
  else if start then
    (let mode := fldGet MCH_CTL_MODE v
     let target := fldGet MCH_CTL_TARGET v == 1
     let gf := fldGet MCH_CTL_GFIRST v
     let gl := fldGet MCH_CTL_GLAST v
     if mr.march.isSome || mode ≥ 2 || (!target && (gl < gf || gl > 16)) || !w.keeperSup ||
        (mode == 0 && !(startup || (idle && h1.rb LCH_MAINT LCH_MAINT_CONSENT))) then
       h1.sb (MCH_STAT r) MCH_STAT_REFUSE
     else
       let single := if target then some (h1.rb (MCH_TGT r) MCH_TGT_CUSH, h1.rf (MCH_TGT r) MCH_TGT_BANK % (if h1.rb (MCH_TGT r) MCH_TGT_CUSH then 64 else 1024)) else none
       let run : MarchRun := ⟨mode == 0, fldGet MCH_CTL_REPAIR v == 1, if startup then 1 else 2, single, gf, gl, false, fldGet MCH_CTL_BKG v, h1.tb.toNat, []⟩
       ((((h1.setMat r { mr with march := some run }).wr (MCH_FAIL r) 0).wf (MCH_STAT r) MCH_STAT_FAILS 0).wf
         (MCH_STAT r) MCH_STAT_GROUP (match single with | some (c, b) => bankGroup c b | none => gf)).sb
         (MCH_STAT r) MCH_STAT_BUSY)
  else if abort && w.keeperSup then
    match mr.march with
    | none => h1
    | some run => h1.setMat r { mr with march := some { run with abortReq := true } }
  else h1

/-- MARCH_ROW_LOCK (R66, R68, R73): a transparent run holds one physical row of a group, judges it and restores it. The groups follow in ascending order; a targeted run stays in its own. -/
def marchRowLock (r group : Nat) (fails : List MarchFail) (h : Hw) : Hw :=
  match (h.mat r).march with
  | none => h
  | some run =>
    let now := h.rf (MCH_STAT r) MCH_STAT_GROUP
    if run.destructive || decide (group < now) || (match run.single with | some (c, b) => group != bankGroup c b | none => decide (run.glast < group)) then h
    else
      let (h1, run1) := fails.foldl (marchFail r group group) (h.wf (MCH_STAT r) MCH_STAT_GROUP group, run)
      h1.setMat r { h1.mat r with march := some run1 }

/-- Offsets tested by a run while the groups from `lo` to `hi` are under test. -/
def runCovers (run : MarchRun) (r lo hi a : Nat) : Bool :=
  memRegion a == r &&
  (match run.single with
   | some (c, b) => c == decide (0x10000000 ≤ a) && memBank a == b
   | none => decide (lo ≤ memGroup a) && decide (memGroup a ≤ hi))

/-- Banks of a run in those groups. -/
def runBanks (run : MarchRun) (r lo hi : Nat) : List Nat :=
  match run.single with
  | some (c, b) => [bankKey r c b]
  | none => (rangeIncl lo hi).flatMap (fun g =>
      (List.range 64).map (fun i => if g < 16 then bankKey r false (64 * g + i) else bankKey r true i))

/-- The groups from `lo` to `hi` end a destructive test: zero with correct parity by the clear pass (R67), or undefined with correct parity (R69). -/
def marchLeave (h : Hw) (r : Nat) (run : MarchRun) (lo hi : Nat) (undef : Bool) : Hw :=
  let banks := runBanks run r lo hi
  let hit := fun a => runCovers run r lo hi a
  { h with
    mem := kvKeep (fun a => !hit a) h.mem
    marked := kvKeep (fun k => !hit (k * 8)) h.marked
    defd := kvKeep (fun k => !hit (k * 8)) h.defd
    undefBank := if undef
      then h.undefBank ++ banks.filter (fun g => !h.undefBank.contains g)
      else h.undefBank.filter (fun g => !banks.contains g) }

/-- CK_M cycles that a destructive run spends on a mat group, clear pass included (R67). -/
def marchGroupCycles : Nat := 45408

/-- A CK_A tick of a destructive run (R66, R67): every 45,408 CK_M cycles, of which a tick holds ten, the next group is under test, and the group left holds zeros. -/
def marchTick (h : Hw) (r : Nat) : Hw :=
  match (h.mat r).march with
  | none => h
  | some run =>
    let now := h.rf (MCH_STAT r) MCH_STAT_GROUP
    let due := min run.glast (run.gfirst + 10 * (h.tb - BitVec.ofNat 64 run.since).toNat / marchGroupCycles)
    if run.destructive && run.single.isNone && decide (now < due) then
      (marchLeave h r run now (due - 1) false).wf (MCH_STAT r) MCH_STAT_GROUP due
    else h

/-- MARCH_RUN_END (R66, R67, R69, R73): a destructive run ends with every tested word zero with correct parity, or, when aborted, with undefined contents and correct parity in the
groups tested, the one under test among them. `spares` are the failing words of the spare rows' own test, which precedes the data rows (R73), `fails` those of the data rows. -/
def marchRunEnd (r : Nat) (spares fails : List MarchFail) (h : Hw) : Hw :=
  match (h.mat r).march with
  | none => h
  | some run =>
    let now := h.rf (MCH_STAT r) MCH_STAT_GROUP
    let (h1, _) := (spares ++ fails).foldl (marchFail r run.gfirst (if run.abortReq then now else run.glast)) (h, run)
    let h2 := if !run.destructive then h1
      else if run.abortReq then marchLeave h1 r run run.gfirst now true
      else marchLeave h1 r run now run.glast false
    let h3 := (h2.wf (MCH_STAT r) MCH_STAT_BUSY 0).setMat r { h2.mat r with march := none }
    let h3a := if run.single.isNone && !run.abortReq then h3.wf (MCH_STAT r) MCH_STAT_GROUP run.glast else h3
    let h4 := if run.abortReq then h3a.sb (MCH_STAT r) MCH_STAT_ABORTED else h3a
    let h5 := if h4.rf (MCH_STAT r) MCH_STAT_FAILS = 0 then h4 else h4.sb (MCH_STAT r) MCH_STAT_FAIL
    h5.sb (MCH_STAT r) MCH_STAT_DONE

/-- SUSPECT_SERVICE_RUN (R70): the oldest suspect bank is taken and tested transparently with background 0b00 and repair. -/
def suspectServiceRun (r : Nat) (h : Hw) : Hw :=
  let mr := h.mat r
  match mr.susp, mr.march with
  | (c, b) :: rest, none =>
    if h.rb (MAT_CTL r) MAT_CTL_SVC_REPAIR && h.memServed r then
      ((((h.setMat r { mr with susp := rest, march := some ⟨false, true, 3, some (c, b), 0, 0, false, 0, h.tb.toNat, []⟩ }).wr (MCH_FAIL r) 0).wf
        (MCH_STAT r) MCH_STAT_FAILS 0).wf (MCH_STAT r) MCH_STAT_GROUP (bankGroup c b)).sb (MCH_STAT r) MCH_STAT_BUSY
    else h
  | _, _ => h

/-- A read of MAT_SUSP (R70): it pops the oldest entry while SVC_REPAIR = 0. -/
def suspPop (r : Nat) (h : Hw) : W32 × Hw :=
  let mr := h.mat r
  match mr.susp with
  | (c, b) :: rest =>
    if h.rb (MAT_CTL r) MAT_CTL_SVC_REPAIR then (0, h)
    else (fldSet MAT_SUSP_VALID (fldSet MAT_SUSP_CUSH (fldSet MAT_SUSP_BANK 0 b) (b2n c)) 1, h.setMat r { mr with susp := rest })
  | [] => (0, h)

/-- A read of RPL_DATA pops the oldest repair-log entry (R74). -/
def repairPop (r : Nat) (h : Hw) : W32 × Hw :=
  let mr := h.mat r
  match mr.repLog with
  | e :: rest => (e, (h.setMat r { mr with repLog := rest }).wf (RPL_STAT r) RPL_STAT_COUNT rest.length)
  | [] => (0, h)

/-- The two spares a RMAP_DATA register shows for the bank that RMAP_SEL names (R71). -/
def rmapData (h : Hw) (r k : Nat) : W32 :=
  let cush := h.rb (RMAP_SEL r) RMAP_SEL_CUSH
  let bank := h.rf (RMAP_SEL r) RMAP_SEL_BANK
  if cush && k = 1 then 0
  else BitVec.ofNat 32 (rmapGet h r cush bank (2 * k) + 2 ^ 16 * rmapGet h r cush bank (2 * k + 1))

/-- A write of a cushion window's claim (R61). -/
def cshClaimWrite (h : Hw) (r n : Nat) (w : Who) (v : W32) : Hw :=
  let f := fldGet cFEAT v
  let (h1, o) := claimWrite h (CSH_WCLAIM r n) w v (f == 7 || f == 8 || decide (0x80 ≤ f))
  if o == .refused then h1.sb (MAT_STAT r) MAT_STAT_CLAIM else h1

/-- A write of a cushion window's range: the holder alone (R61). -/
def cshWinWrite (h : Hw) (r n : Nat) (w : Who) (v : W32) : Hw :=
  if h.holds (CSH_WCLAIM r n) w then h.wr (CSH_WIN r n) (v &&& 0xFFFF) else h.sb (MAT_STAT r) MAT_STAT_CLAIM

end Sys2Proof.Machine
end

