-- ==== Sys2Proof/Machine/HostOps.lean ====
section
/-!
DEFINITION. The requests of the macro to licensee memory (R229 to R241): the port they leave through, their grant under credits and tags, and the writes to a physical
address in either space; and the outbound side of a host port, cycle by cycle (R230, R231, R242, R243).
-/
namespace Sys2Proof.Machine

/-! ### The outbound side of a port (R230, R231, R242, R243) -/

def Hw.po (h : Hw) (p : Nat) : PortOut := kvGet PortOut.empty h.out p
def Hw.setPo (h : Hw) (p : Nat) (x : PortOut) : Hw := { h with out := kvIns h.out p x }

/-- Even parity of n bits of a number: the bit that makes their count even. -/
def evenPar (n v : Nat) : Bool := (List.range n).foldl (fun (b : Bool) i => b != bit v i) false

/-- hpN_mreq_par: [0] over addr, [1] over len, tag, op and attr (R230). -/
def mreqPar (x : MPin) : BitVec 2 :=
  BitVec.ofNat 2 (b2n (evenPar 52 x.addr.toNat) + 2 * b2n (evenPar 28 ((x.len ++ x.tag ++ x.op ++ x.attr).toNat)))

/-- hpN_odata: the 128 lanes of a beat, of which those that carry no byte of the request hold whatever `fill` gives. -/
def oData (fill : Nat → Byte) (b : OBeat) : List Byte :=
  (List.range 128).map (fun i => if b.lane ≤ i ∧ i < b.lane + b.data.length then b.data.getD (i - b.lane) 0 else fill i)

/-- hpN_opar: one even parity bit per 64-bit word (R230). -/
def oPar (fill : Nat → Byte) (b : OBeat) : BitVec 16 :=
  BitVec.ofNat 16 ((List.range 16).foldl (fun n k => n + 2 ^ k * b2n (evenPar 64 (leNat (((oData fill b).drop (8 * k)).take 8)))) 0)

/-- Bytes of the first beat of a request. -/
def beatLen (addr len : Nat) : Nat := min len (128 - addr % 128)

/-- Byte enables of n lanes from a lane on. -/
def beOf (lane n : Nat) : BitVec 128 := BitVec.ofNat 128 ((2 ^ n - 1) * 2 ^ lane)

/-- The data of a request in beats of 128 bytes aligned to 128 bytes, in ascending address order (R231): the first lane and the bytes of each; at most 33 of them. -/
def beatCut : Nat → Nat → List Byte → List (Nat × List Byte)
  | 0, _, _ => []
  | n + 1, addr, bs =>
    let k := beatLen addr bs.length
    if bs.length ≤ k then [(addr % 128, bs)] else (addr % 128, bs.take k) :: beatCut n (addr + k) (bs.drop k)

/-- The S read-data beats of an answer: every byte enabled, the tag, the status on each beat, and the last one marked. -/
def sBeats (addr tag st : Nat) (data : List Byte) (busy : List Bool) : List OBeat :=
  let cut := beatCut 33 addr data
  (List.range cut.length).map (fun i =>
    let c := cut.getD i (0, [])
    ⟨true, c.1, c.2, beOf 0 128, tag, i + 1 == cut.length, st, busy.getD i false⟩)

/-- The write-data beats of an M request: no tag and no status, and the byte enables mark the bytes. Of a CAS64 the compare value stands at the lanes of the address and the swap
value in the other half of the aligned 16 bytes (R238). -/
def mwBeats (q : MReq) : List OBeat :=
  if q.op = 2 then
    let lane := q.addr % 128 / 16 * 16
    [⟨false, lane, if q.addr % 16 = 0 then q.data else q.data.drop 8 ++ q.data.take 8, beOf lane 16, 0, true, 0, false⟩]
  else
    let cut := beatCut 33 q.addr q.data
    (List.range cut.length).map (fun i =>
      let c := cut.getD i (0, [])
      ⟨false, c.1, c.2, beOf c.1 c.2.length, 0, i + 1 == cut.length, 0, false⟩)

/-- The pins of an M request: attr is SE, WLK and two zeros. -/
def mPins (q : MReq) (t : Nat) : MPin :=
  ⟨BitVec.ofNat 52 q.addr, BitVec.ofNat 12 (q.len - 1), BitVec.ofNat 10 t, BitVec.ofNat 2 q.op, BitVec.ofNat 4 (8 * b2n q.se + 4 * b2n q.wlk)⟩

/-- An M request, and of a WRITE or a CAS64 its write-data beats, go to the outbound side. -/
def outReq (h : Hw) (p t : Nat) (q : MReq) : Hw :=
  let x := h.po p
  h.setPo p { x with mq := x.mq ++ [mPins q t], wr := x.wr ++ (if q.op = 0 then [] else (mwBeats q).map (fun b => (t, b))) }

/-- The beat of an HCK cycle (R242, R243): S read data goes first, but for an M write-data beat that has waited 8 cycles, and but for the cycle left free of S read data once a busy
response has been held through one cycle more than the one it fell due in. An M write-data beat does not come before its request (R231). -/
def outBeat (x : PortOut) : Option OBeat × PortOut :=
  let wrOk := match x.wr with | [] => false | (t, _) :: _ => !x.mq.any (fun q => q.tag == BitVec.ofNat 10 t && q.op != 0)
  let wr := match x.wr with | [] => (none, x) | (_, b) :: rest => (some b, { x with wr := rest, wwait := 0 })
  let later := { x with wwait := if wrOk then x.wwait + 1 else x.wwait }
  if wrOk && decide (8 ≤ x.wwait) then wr
  else match x.rd with
    | b :: rest => if decide (2 ≤ x.hold) then (if wrOk then wr else (none, later)) else (some b, { later with rd := rest })
    | [] => if wrOk then wr else (none, later)

/-- One HCK cycle of a port (R242, R243): a request, a beat, and a response, which a cycle with S read data does not carry when it is busy. -/
def outCycle (x : PortOut) : PortOut :=
  let (b, y) := outBeat { x with mq := x.mq.drop 1 }
  let sread := match b with | some o => o.sread | none => false
  let beatBusy := match b with | some o => o.busy | none => false
  match y.rsp with
  | [] => { y with pins := ⟨x.mq.head?, b, none, beatBusy⟩ }
  | (t, st, busy) :: rest =>
    if busy && sread then { y with hold := y.hold + 1, pins := ⟨x.mq.head?, b, none, beatBusy⟩ }
    else { y with rsp := rest, hold := 0, pins := ⟨x.mq.head?, b, some (t, st), beatBusy || busy⟩ }

/-- The port a request of region r for a licensee address leaves through (R241). -/
def mPort (h : Hw) (r pa : Nat) : Nat :=
  let i := h.rf (HP_CTL (2 * r)) HP_CTL_ISEL
  if i = 1 then 2 * r else if i = 2 then 2 * r + 1 else if bit pa 12 then 2 * r + 1 else 2 * r

/-- Beats of a request (R231). -/
def mBeats (addr len : Nat) : Nat := (addr % 128 + len + 127) / 128

/-- Write-data beats that a request takes: one for a CAS64 (R238). -/
def mWriteBeats (q : MReq) : Nat := if q.op = 0 then 0 else if q.op = 2 then 1 else mBeats q.addr q.len

/-- HP_BYTES counts in units of 4 KiB, saturating. -/
def hpBytes (h : Hw) (p : Nat) (outb : Bool) (n : Nat) : Hw :=
  let acc := kvGet (0, 0) h.hpAcc p
  let v := (if outb then acc.1 else acc.2) + n
  let h1 := { h with hpAcc := kvIns h.hpAcc p (if outb then (v % 4096, acc.2) else (acc.1, v % 4096)) }
  if v / 4096 = 0 then h1 else h1.addSat (HP_BYTES p) (if outb then HP_BYTES_OUT else HP_BYTES_IN) (v / 4096)

/-- A port whose HCK runs is out of reset and accepts credits (R496); HP_CKP of CLK_STAT shows it. -/
def hpRunning (h : Hw) (p : Nat) : Bool := bit (h.rf CLK_STAT CLK_STAT_HCKP) p

/-- The lowest tag of a port that is neither outstanding nor retired (R233, R234). -/
def freeTag (h : Hw) (p : Nat) : Option Nat :=
  (List.range 1024).find? (fun t => !(h.mreqs.any (fun q => q.port == p && q.tag == some t)) && !h.retired.contains (p, t))

/-- HCK cycles of a port in a CK_A tick, within the range of R229. -/
def hckCycles (p : Nat) : Nat := max 1 (min 20 (Config.hckTick p))

/-- n HCK cycles of a port; HP_BUSYCNT counts those with hpN_busy asserted. -/
def outCycles : Nat → Hw → Nat → Hw
  | 0, h, _ => h
  | n + 1, h, p =>
    let x := outCycle (h.po p)
    let h1 := h.setPo p x
    outCycles n (if x.pins.busy then h1.addSat (HP_BUSYCNT p) HP_BUSYCNT_BUSY 1 else h1) p

/-- The HCK cycles of a CK_A tick; a port that has nothing to drive and drives nothing stays as it is. -/
def outTick (h : Hw) (p : Nat) : Hw := if h.po p = PortOut.empty ∨ !hpRunning h p then h else outCycles (hckCycles p) h p

/-- Age of a waiting request in cycles of its port's clock, saturating at 255 (R37). -/
def mAge (h : Hw) (q : MReq) : Nat := min 255 ((h.tb - BitVec.ofNat 64 q.came).toNat * hckCycles q.port)

/-- The index of a request within its class (R241): the queue, the local chain, or the arbitration index. -/
def mIndex (q : MReq) : Nat :=
  match q.use with
  | .record k => k
  | .desc ch _ => ch % 8
  | .prog ch _ => ch % 8
  | .item ch _ s _ _ _ _ => 3 * (ch % 8) + (if s = 2 then 2 else if s = 1 ∨ s = 3 then 1 else 0)
  | .load f _ => f
  | .store f _ => f
  | _ => 0

/-- The better of two waiting requests, `a` having arrived first: the higher class, then the greater age, then, both ages saturated, the lower index (R36, R37). -/
def mBetter (h : Hw) (a b : MReq) : MReq :=
  if b.cls < a.cls then b
  else if a.cls < b.cls then a
  else if mIndex b < mIndex a ∧ mAge h b = 255 then b
  else a

/-- The best of a list in order of arrival. -/
def mBest (h : Hw) : List MReq → Option MReq
  | [] => none
  | q :: qs => some (qs.foldl (mBetter h) q)

/-- The waiting request of a port that is granted next (R241): a class 4 or 5 request that has waited 64 HCK cycles goes ahead of classes 2 and 3. -/
def mNext (h : Hw) (p : Nat) : Option MReq :=
  let ws := h.mreqs.filter (fun q => q.port == p && q.tag.isNone)
  match mBest h ws with
  | none => none
  | some q =>
    if q.cls = 2 ∨ q.cls = 3 then
      (match mBest h (ws.filter (fun x => (x.cls == 4 || x.cls == 5) && decide (64 ≤ mAge h x))) with
       | some x => some x
       | none => some q)
    else some q

/-- Give a tag to the first waiting request that satisfies a test. -/
def mTag (t now : Nat) (q : MReq) : List MReq → List MReq
  | [] => []
  | x :: xs => if x = q then { x with tag := some t, since := now } :: xs else x :: mTag t now q xs

/-- Present the waiting requests of a port while it holds credits and tags (R232, R233, R241). -/
def mGrant : Nat → Hw → Nat → Hw
  | 0, h, _ => h
  | n + 1, h, p =>
    match mNext h p, freeTag h p with
    | some q, some t =>
      let nb := mWriteBeats q
      if hpRunning h p && decide (0 < h.rf (HP_CRED p) HP_CRED_MREQ) && decide (nb ≤ h.rf (HP_CRED p) HP_CRED_MWD) then
        (let h1 := { h with mreqs := mTag t h.tb.toNat q h.mreqs }
         let h2 := (h1.wf (HP_CRED p) HP_CRED_MREQ (h.rf (HP_CRED p) HP_CRED_MREQ - 1)).wf (HP_CRED p) HP_CRED_MWD (h.rf (HP_CRED p) HP_CRED_MWD - nb)
         let h3 := outReq (h2.wf (HP_OUT p) HP_OUT_MOUT (h.rf (HP_OUT p) HP_OUT_MOUT + 1)) p t q
         mGrant n (if q.op = 0 then h3 else hpBytes h3 p true (if q.op = 2 then 16 else q.len)) p)
      else h
    | _, _ => h

/-- Present what can be presented on a port. -/
def mGrantAll (h : Hw) (p : Nat) : Hw := mGrant h.mreqs.length h p

/-- A request arrives at the arbiter of a port (R231, R241). -/
def mIssue (h : Hw) (port cls op addr len : Nat) (data : List Byte) (se wlk : Bool) (use : MUse) : Hw :=
  let q : MReq := ⟨port, none, op, addr, len, se, wlk, cls, data, [], [], h.tb.toNat, 0, 0, use⟩
  mGrantAll { h with mreqs := h.mreqs ++ [q] } port

/-- A request of a region for a licensee address. -/
def mRegion (h : Hw) (r cls op pa len : Nat) (data : List Byte) (se wlk : Bool) (use : MUse) : Hw :=
  mIssue h (mPort h r pa) cls op (pa % 2 ^ 52) len data se wlk use

/-- Free the tag of an outstanding request. -/
def mFree (h : Hw) (p t : Nat) : Hw :=
  let h1 := { h with mreqs := h.mreqs.filter (fun q => !(q.port == p && q.tag == some t)) }
  mGrantAll (h1.wf (HP_OUT p) HP_OUT_MOUT (h1.rf (HP_OUT p) HP_OUT_MOUT - 1)) p

/-- Write bytes to a physical address for a master of a region: in the local space at once, in licensee space through a host port. -/
def physWrite (h : Hw) (ms : Master) (pa : Nat) (bs : List Byte) (cls : Nat) (use : MUse) (par : Par) (meets : List Meet) : Hw :=
  match paLocal pa with
  | some off => if h.inMem off then (memWrite h ms off bs par meets).1 else h
  | none => mRegion h (protMaster ms).1 cls 1 pa bs.length bs false false use

end Sys2Proof.Machine
end

