-- ==== Sys2Proof/Machine/QueueOps.lean ====
section
/-!
DEFINITION. The completion order of the queues (R248, R251 to R255): commands join a queue, end, and their records are written in join order; entries leave the ring at HEAD.
-/
namespace Sys2Proof.Machine

def Hw.queue (h : Hw) (q : Nat) : QueueSt := kvGet QueueSt.empty h.queues q
def Hw.setQueue (h : Hw) (q : Nat) (x : QueueSt) : Hw := { h with queues := kvIns h.queues q x }

/-- SQ_STAT.STATE codes. -/
def sqOff : Nat := 0
def sqRun : Nat := 1
def sqDrain : Nat := 2
def sqErr : Nat := 3
/-- The state of a queue. -/
def Hw.sqState (h : Hw) (q : Nat) : Nat := h.rf (SQ_STAT q) SQ_STAT_STATE
/-- The world of a queue (R247). -/
def Hw.sqWorld (h : Hw) (q : Nat) : World := if h.rb (SQ_CFG q) SQ_CFG_WORLD then .tenant else .keeper

/-- The acceptance number of a collective request, apart from those of chain commands. -/
def svcId (q idx : Nat) : Nat := 2 ^ 40 + q * 65536 + idx

/-- Place a command in join order: one whose queue is known late goes before those that joined after its acceptance (R252). -/
def joinInsert (j : Join) : List Join → List Join
  | [] => [j]
  | x :: xs => if j.ord < x.ord then j :: x :: xs else x :: joinInsert j xs

/-- A command joins the completion order of a queue. -/
def queueJoin (h : Hw) (q : Nat) (j : Join) : Hw := h.setQueue q { h.queue q with joins := joinInsert j (h.queue q).joins }

/-- Move HEAD past the entries that are over (R248). -/
def advanceHead : List (Nat × Bool) → Nat → List (Nat × Bool) × Nat
  | [], hd => ([], hd)
  | (i, gone) :: rest, hd => if gone then advanceHead rest ((i + 1) % 2 ^ 16) else ((i, gone) :: rest, hd)

/-- Commands of a queue issued and not yet recorded or released (R250). -/
def sqIssued (h : Hw) (q : Nat) : Nat := ((h.queue q).ended.filter (fun e => !e.2)).length

/-- SQ_STAT.INFL shows that number; that its 12 bits saturate is a DESIGN CHOICE (log 36). -/
def inflSync (h : Hw) (q : Nat) : Hw := h.wf (SQ_STAT q) SQ_STAT_INFL (min 4095 (sqIssued h q))

/-- An issued entry is over: INFL falls, HEAD advances, and a draining queue with nothing issued goes OFF (R248, R251). -/
def entryOver (h : Hw) (q idx : Nat) : Hw :=
  let x := h.queue q
  let marked := x.ended.map (fun e => if e.1 = idx then (e.1, true) else e)
  let (rest, hd) := advanceHead marked (h.rf (DB_SQ q) DB_SQ_HEAD)
  let h1 := inflSync ((h.setQueue q { x with ended := rest }).wf (DB_SQ q) DB_SQ_HEAD hd) q
  if h1.sqState q = sqDrain ∧ sqIssued h1 q = 0 then h1.wf (SQ_STAT q) SQ_STAT_STATE sqOff else h1

/-- The completion record of a collective request is written, or none is due: its context takes the next one, from IDLE unless it is HALTED (R182, R183). A request that was refused
and named no context of the region stands at 4,096 plus the region. -/
def cxRelease (h : Hw) (q idx : Nat) : Hw :=
  match h.ctxs.find? (fun c => match c.2.run with | some u => u.queue == q && u.sqIdx == idx && u.w7 == 2 | none => false) with
  | some (n, x) =>
    let h1 := h.setCtx n { x with run := none }
    if n < 4096 ∧ h.cxState n = csRun then h1.wf (CXE_CTL n) CXE_CTL_STATE csIdle else h1
  | none => h

/-- Release the entry a command came from. -/
def joinOver (h : Hw) (j : Join) : Hw :=
  match j.fromQ with
  | some (q, idx) => cxRelease (entryOver h q idx) q idx
  | none => h

/-- A queue that runs or drains takes ERR, and writes no further record until it is enabled again (R251). -/
def queueErr (h : Hw) (q : Nat) : Hw :=
  if h.sqState q = sqRun ∨ h.sqState q = sqDrain then (h.wf (SQ_STAT q) SQ_STAT_STATE sqErr).setQueue q { h.queue q with mute := true } else h

/-- Release the commands at the front of the order that have ended and write no record: without one by CMODE, or with the queue OFF or since an ERR (R251, R252). -/
def queueSettle : Nat → Hw → Nat → Hw
  | 0, h, _ => h
  | n + 1, h, q =>
    let x := h.queue q
    match x.joins with
    | [] => if x.toErr then queueErr (h.setQueue q { x with toErr := false }) q else h
    | j :: rest =>
      if x.writing.isSome || !j.done then h
      else if j.recd.isNone || h.sqState q == sqOff || x.mute then
        queueSettle n (joinOver (h.setQueue q { x with joins := rest }) j) q
      else h
/-- Settle the whole queue. -/
def queueTidy (h : Hw) (q : Nat) : Hw := queueSettle ((h.queue q).joins.length + 1) h q

/-- Whether a command produces a record (R252, R424). -/
def wantsRecord (cmode status : Nat) : Bool := status == 4 || cmode == 0 || cmode == 3 || (cmode == 1 && status != 0)

/-- A command ends: its record, if it produces one, takes its place in the order of the queue it names (R252). -/
def queueEnded (h : Hw) (id qn : Nat) (fromQ : Option (Nat × Nat)) (cmode status : Nat) (rec_ : Rec) : Hw :=
  let recd := if wantsRecord cmode status then some rec_ else none
  if h.hasQueue qn then
    (let x := h.queue qn
     let h1 := if x.joins.any (fun j => j.id == id) then
         h.setQueue qn { x with joins := x.joins.map (fun j => if j.id = id then { j with cmode := cmode, fromQ := fromQ, done := true, recd := recd } else j) }
       else queueJoin h qn ⟨id, ((fromQ.bind (fun e => (h.queue e.1).joins.find? (fun j => j.id == id))).map (·.ord)).getD id, cmode, fromQ, true, recd⟩
     let h2 := match fromQ with
       | some (q, _) => if q = qn then h1 else h1.setQueue q { h1.queue q with joins := (h1.queue q).joins.filter (fun j => j.id != id) }
       | none => h1
     let h3 := queueTidy h2 qn
     match fromQ with
     | some (q, _) => if q = qn then h3 else queueTidy h3 q
     | none => h3)
  else match fromQ with
    | some (q, idx) => queueTidy (entryOver (h.setQueue q { h.queue q with joins := (h.queue q).joins.filter (fun j => j.id != id) }) q idx) q
    | none => h

/-- The queue a descriptor names becomes known (R252): a frond's or a timer's command joins it, and a queue's command that names another queue moves there. -/
def queueNamed (h : Hw) (id qn cmode : Nat) (fromQ : Option (Nat × Nat)) : Hw :=
  if !h.hasQueue qn then h
  else match fromQ with
    | none => queueJoin h qn ⟨id, id, cmode, none, false, none⟩
    | some (q, idx) =>
      if q = qn then h.setQueue q { h.queue q with joins := (h.queue q).joins.map (fun j => if j.id = id then { j with cmode := cmode } else j) }
      else queueTidy (queueJoin (h.setQueue q { h.queue q with joins := (h.queue q).joins.filter (fun j => j.id != id) }) qn ⟨id, id, cmode, some (q, idx), false, none⟩) q

/-- The four words of a record with index i in a ring of 2^j slots (R254). -/
def recWords (r : Rec) (i j : Nat) : List Nat :=
  [b2n (!bit i j) * 2 ^ 63 + r.status % 64 * 2 ^ 56 + r.flg % 32 * 2 ^ 51 + b2n r.al * 2 ^ 50 + r.src % 4 * 2 ^ 48 + r.epoch % 16 * 2 ^ 44 +
     r.ctx % 4096 * 2 ^ 32 + r.sidx % 65536 * 2 ^ 16 + r.queue % 1024,
   r.aloss % 2 ^ 32 * 2 ^ 32 + r.crc % 2 ^ 32,
   r.chain % 8 * 2 ^ 37 + r.elems % 2 ^ 33,
   r.prog % 2 ^ 64]
/-- The 32 bytes of a record. -/
def recBytes (r : Rec) (i j : Nat) : List Byte := (recWords r i j).flatMap (leBytes 8)

/-- Records of a region that wait to be written (R252). -/
def recsWaiting (h : Hw) (r : Nat) : Nat :=
  h.queues.foldl (fun n e => if e.1 / 256 = r then n + (e.2.joins.filter (fun j => j.done && j.recd.isSome)).length else n) 0

/-- The response to a record write (R251, R255): CQ_TAIL advances and the entry is released, or the queue enters ERR. -/
def recordDone (h : Hw) (q : Nat) (err : Bool) : Hw :=
  let x := h.queue q
  match x.writing, x.joins with
  | some rc, j :: rest =>
    let h1 := h.setQueue q { x with writing := none, wrErr := false, joins := rest }
    let h2 := if err then queueErr (h1.sb (SQ_STAT q) SQ_STAT_CQERR) q
      else
        let t := h1.wf (DB_CQ q) DB_CQ_CQ_TAIL ((h1.rf (DB_CQ q) DB_CQ_CQ_TAIL + 1) % 2 ^ 16)
        let t1 := if rc.status = 4 then t.addSat (RGN_DISC rc.rgn) RGN_DISC_RECS 1 else t
        if j.cmode = 3 ∧ t1.rb (SQ_CFG q) SQ_CFG_IE then irqFire t1 (rSrc (q / 256) (56 + q % 32)) else t1
    queueTidy (joinOver h2 j) q
  | _, _ => h

/-- No chain command of the macro accepted before this one has its descriptor still to come, so that every earlier command of the queue has joined it: a descriptor may name a queue
of another region (R252). -/
def allNamed (h : Hw) (ord : Nat) : Bool :=
  h.chains.all (fun x => (x.2.act ++ x.2.pend.toList).all (fun e => e.checked || e.ending.isSome || decide (ord ≤ e.id)))

/-- COMPLETION_RECORD_WRITE (R252, R255): the record at the front of the order is written when it is ready, the ring has room and no earlier write is under way. -/
def completionRecordWrite (q : Nat) (meets : List Meet) (h0 : Hw) : Hw :=
  if !h0.hasQueue q then h0
  else
    let h := queueTidy h0 q
    let x := h.queue q
    match x.joins with
    | j :: _ =>
      (match j.recd with
       | some rc =>
         let k := h.rf (SQ_CFG q) SQ_CFG_CQSZ
         let t := h.rf (DB_CQ q) DB_CQ_CQ_TAIL
         let room := (h.rf (DB_CQ q) DB_CQ_CQ_HEAD + 2 ^ k + 2 ^ 16 - t) % 2 ^ 16
         let rs := h.rgnState (q / 256)
         if !j.done || x.writing.isSome || room == 0 || !allNamed h j.ord || rs == 1 || rs == 5 then h
         else
           let pa := h.rdPair (CQ_BASE_LO q) (CQ_BASE_HI q) + 32 * (t % 2 ^ k)
           let bs := recBytes rc t k
           let h1 := h.setQueue q { x with writing := some rc }
           (match paLocal pa with
            | some off =>
              if h1.inCush off then
                (let (h2, st) := memWrite h1 (.queueEngine (q / 256)) off bs .good meets
                 h2.setQueue q { h2.queue q with wrErr := st != 0 })
              else h1.setQueue q { h1.queue q with wrErr := true }
            | none => mRegion h1 (q / 256) 2 1 pa 32 bs false false (.record q))
       | none => h)
    | [] => h

/-- COMPLETION_RECORD_WRITE_DONE (R255): the response to the record write under way in the cushion; that of a ring in licensee memory comes through the host port. -/
def completionRecordWriteDone (q : Nat) (err : Bool) (h : Hw) : Hw :=
  if h.hasQueue q && h.mreqs.all (fun m => m.use != .record q) then recordDone h q (err || (h.queue q).wrErr) else h

/-- Indices of queues in the order of the ring: the free-running difference of R248. -/
def idxDiff (a b : Nat) : Nat := (a + 2 ^ 16 - b % 2 ^ 16) % 2 ^ 16

/-- May this agent ring a doorbell of the queue (R249)? -/
def dbWorldOk (h : Hw) (q : Nat) (w : Who) : Bool :=
  match w.agent with
  | .frond _ => w.world == h.sqWorld q
  | _ => true

/-- DB_SQ (R249, R251); the doorbells of a HALTED region are ignored (R423). -/
def dbSq (w : Who) (q : Nat) (v : W32) (h : Hw) : Hw :=
  if !h.hasQueue q then h
  else
    let t := fldGet DB_SQ_TAIL v
    let sz := 2 ^ h.rf (SQ_CFG q) SQ_CFG_SQSZ
    if h.sqState q == sqRun && h.rgnState (q / 256) != 5 && dbWorldOk h q w && decide (idxDiff t (h.rf (DB_SQ q) DB_SQ_HEAD) ≤ sz) && decide (idxDiff t (h.rf (DB_SQ q) DB_SQ_TAIL) ≤ sz) then
      (let empty := h.rf (SQ_FETCH q) SQ_FETCH_FETCH == h.rf (DB_SQ q) DB_SQ_TAIL
       let h1 := (h.wf (DB_SQ q) DB_SQ_TAIL t).idleLeave (q / 256)
       if empty then { (h1.setQueue q { h1.queue q with stamp := h1.seq, stampTB := h1.tb.toNat }) with seq := h1.seq + 1 } else h1)
    else h.sb (SQ_STAT q) SQ_STAT_DBERR

/-- DB_CQ (R249, R251, R423). -/
def dbCq (w : Who) (q : Nat) (v : W32) (h : Hw) : Hw :=
  if !h.hasQueue q then h
  else
    let nh := fldGet DB_CQ_CQ_HEAD v
    let t := h.rf (DB_CQ q) DB_CQ_CQ_TAIL
    if (h.sqState q == sqRun || h.sqState q == sqErr) && h.rgnState (q / 256) != 5 && dbWorldOk h q w && decide (idxDiff t nh ≤ idxDiff t (h.rf (DB_CQ q) DB_CQ_CQ_HEAD)) then
      (h.wf (DB_CQ q) DB_CQ_CQ_HEAD nh).idleLeave (q / 256)
    else h.sb (SQ_STAT q) SQ_STAT_DBERR

/-- A base register pair names an aligned ring that lies in the cushion of the queue's region or in licensee memory (R246). -/
def ringOk (h : Hw) (r pa size : Nat) : Bool :=
  pa % size == 0 &&
  (match paLocal pa with
   | some off => h.inCush off && memRegion off == r && decide (memRegion (off + size - 1) = r)
   | none => true)

/-- Fields of SQ_CFG other than EN. -/
def sqCfgMask : W32 := 0x7FC00FF0

/-- The agents that configure a queue (R246). -/
def sqWriter (w : Who) : Bool := w.keeperSup || w.hostPriv

/-- A write of SQ_CFG with EN = 1 (R246 to R248). -/
def queueEnable (w : Who) (q : Nat) (v : W32) (h : Hw) : Hw :=
  if !h.hasQueue q || !sqWriter w || fldGet SQ_CFG_EN v == 0 || h.sqState q != sqOff then h
  else
    let r := q / 256
    let h1 := h.wr (SQ_CFG q) (v &&& sqCfgMask)
    let k := fldGet SQ_CFG_SQSZ v
    let j := fldGet SQ_CFG_CQSZ v
    let b := fldGet SQ_CFG_BIND v
    let szOk := decide (4 ≤ k) && decide (k ≤ 14) && decide (4 ≤ j) && decide (j ≤ 14)
    if (b == 1 || b == 2) && szOk && ringOk h1 r (h1.rdPair (SQ_BASE_LO q) (SQ_BASE_HI q)) (64 * 2 ^ k) &&
       ringOk h1 r (h1.rdPair (CQ_BASE_LO q) (CQ_BASE_HI q)) (32 * 2 ^ j) then
      (let h2 := (((h1.sb (SQ_CFG q) SQ_CFG_EN).wr (DB_SQ q) 0).wr (DB_CQ q) 0).wr (SQ_FETCH q) 0
       ((h2.wf (SQ_STAT q) SQ_STAT_INFL 0).wf (SQ_STAT q) SQ_STAT_STATE sqRun).setQueue q { QueueSt.empty with joins := (h2.queue q).joins, stampTB := h2.tb.toNat })
    else h1.sb (SQ_STAT q) SQ_STAT_CFGERR

/-- A write of SQ_CFG with EN = 0 (R246, R251). -/
def queueDisable (w : Who) (q : Nat) (v : W32) (h : Hw) : Hw :=
  if !h.hasQueue q || !sqWriter w || fldGet SQ_CFG_EN v == 1 then h
  else if h.sqState q = sqOff then h.wr (SQ_CFG q) (v &&& sqCfgMask)
  else if h.sqState q = sqDrain then h
  else
    let h1 := h.wf (SQ_CFG q) SQ_CFG_EN 0
    let h2 := h1.wf (SQ_STAT q) SQ_STAT_STATE (if sqIssued h1 q = 0 then sqOff else sqDrain)
    queueTidy h2 q

/-- Writes of the ring bases (R246). -/
def sqBaseWrite (h : Hw) (q a : Nat) (w : Who) (v : W32) : Hw :=
  if h.hasQueue q && sqWriter w && h.sqState q == sqOff then
    h.wr a (if a = SQ_BASE_LO q then v &&& 0xFFFFFFC0 else if a = CQ_BASE_LO q then v &&& 0xFFFFFFE0 else v &&& 0x001FFFFF)
  else h

end Sys2Proof.Machine
end

