-- ==== Sys2Proof/Machine/XltOps.lean ====
section
/-!
DEFINITION. The caches and the walker of address translation (R257 to R274): lookups and fills with their recently-used bits, the judgement of directory and table entries,
accessed and dirty marks, and the capture of faults.
-/
namespace Sys2Proof.Machine

def Hw.xlt (h : Hw) (r : Nat) : XltSt := kvGet XltSt.empty h.xlts r
def Hw.setXlt (h : Hw) (r : Nat) (x : XltSt) : Hw := { h with xlts := kvIns h.xlts r x }

/-- WORLD as a bit. -/
def worldBit (w : World) : Nat := if w = .tenant then 1 else 0

/-! ### Cached translations (R271, R272) -/

/-- Address bits below the page of a size. -/
def pgShift (size : Nat) : Nat := match size with | 0 => 12 | 1 => 16 | 2 => 21 | _ => 30

/-- An entry's tag matches an address of a space. -/
def TcEnt.covers (e : TcEnt) (w : World) (asid va : Nat) : Bool := e.world == w && e.asid == asid && e.vpn == va / 2 ^ pgShift e.size

/-- The page of the entry whose A and D govern an address. -/
def TcEnt.page (e : TcEnt) (va : Nat) : Nat := if e.size = 1 then bits va 15 12 else 0
/-- A and D of the page of an address. -/
def TcEnt.aBit (e : TcEnt) (va : Nat) : Bool := bit e.a.toNat (e.page va)
def TcEnt.dBit (e : TcEnt) (va : Nat) : Bool := bit e.d.toNat (e.page va)
/-- The physical address of a virtual one. -/
def TcEnt.phys (e : TcEnt) (va : Nat) : Nat := e.pa + va % 2 ^ pgShift e.size
/-- The level of the leaf of an entry. -/
def TcEnt.level (e : TcEnt) : Nat := match e.size with | 0 => 3 | 1 => 3 | 2 => 2 | _ => 1

/-- The set of a virtual page number. -/
def tcSet (asid vpn : Nat) : Nat := Nat.xor (vpn % 4096) asid % 4096

/-- A hit in the translation cache: its place and entry. -/
def tcFind (x : XltSt) (w : World) (asid va : Nat) : Option (Nat × TcEnt) :=
  (List.range 32).findSome? (fun i =>
    let size := i / 8
    let key := tcSet asid (va / 2 ^ pgShift size) * 8 + i % 8
    match kvFind x.tc key with
    | some e => if e.size = size ∧ e.covers w asid va then some (key, e) else none
    | none => none)

/-- Set the recently-used bit of a way; when all eight bits of its set are 1, the others are cleared. -/
def tcTouch (tc : KV TcEnt) (key : Nat) : KV TcEnt :=
  let base := key / 8 * 8
  let tc1 := match kvFind tc key with | some e => kvIns tc key { e with ru := true } | none => tc
  if (List.range 8).all (fun i => match kvFind tc1 (base + i) with | some e => e.ru | none => false) then
    (List.range 8).foldl (fun t i => if base + i = key then t else match kvFind t (base + i) with | some e => kvIns t (base + i) { e with ru := false } | none => t) tc1
  else tc1

/-- The way a fill takes: the one that already holds the tag, else the lowest invalid one, else the lowest not recently used. -/
def tcVictim (tc : KV TcEnt) (e : TcEnt) : Nat :=
  let base := tcSet e.asid e.vpn * 8
  let same := (List.range 8).find? (fun i => match kvFind tc (base + i) with | some x => x.size == e.size && x.vpn == e.vpn && x.world == e.world && x.asid == e.asid | none => false)
  let free := (List.range 8).find? (fun i => (kvFind tc (base + i)).isNone)
  let old := (List.range 8).find? (fun i => match kvFind tc (base + i) with | some x => !x.ru | none => false)
  base + (same.getD (free.getD (old.getD 0)))

/-- The marks an entry takes over from the one it replaces, when both describe the same run (R271). -/
def tcMerge (old : Option TcEnt) (e : TcEnt) : TcEnt :=
  match old with
  | some o => if o.size = 1 ∧ e.size = 1 ∧ o.pa = e.pa ∧ o.r = e.r ∧ o.w = e.w ∧ o.se = e.se ∧ o.vpn = e.vpn ∧ o.world = e.world ∧ o.asid = e.asid
      then
        let own : BitVec 16 := BitVec.ofNat 16 (2 ^ (e.ea / 8 % 16))
        { e with a := e.a ||| (o.a &&& ~~~own), d := e.d ||| (o.d &&& ~~~own) }
      else e
  | none => e

/-- Fill the translation cache; the entry as it then stands there comes back too (R273). -/
def tcFill (x : XltSt) (e : TcEnt) : XltSt × TcEnt :=
  let k := tcVictim x.tc e
  let t := tcMerge (kvFind x.tc k) e
  ({ x with tc := tcTouch (kvIns x.tc k t) k }, t)

/-- A cached translation of the same address that another one replaces: the leaf read for a mark may have another size than the page that asked for it (R271). -/
def TcEnt.outdated (e : TcEnt) (w : World) (asid va : Nat) (t : TcEnt) : Bool := e.covers w asid va && e.size != t.size

/-- Put an entry at the front of a micro-buffer of 64 entries (R273). -/
def ubPut (ub : List TcEnt) (e : TcEnt) : List TcEnt :=
  (e :: ub.filter (fun x => !(x.size == e.size && x.vpn == e.vpn && x.world == e.world && x.asid == e.asid))).take 64
/-- A hit in a micro-buffer. -/
def ubFind (ub : List TcEnt) (w : World) (asid va : Nat) : Option TcEnt := ub.find? (fun e => e.covers w asid va)

/-! ### Root and pointer caches (R265) -/

/-- The VA bits above the table that an entry of a level points to. -/
def ptrKey (level va : Nat) : Nat := if level = 4 then 0 else va / 2 ^ (39 - 9 * level)
def ptrFind (c : KV PtrEnt) (w : World) (asid level va : Nat) : Option (Nat × PtrEnt) :=
  c.find? (fun e => e.2.world == w && e.2.asid == asid && e.2.level == level && e.2.key == ptrKey level va)
/-- Set the recently-used bit of an entry of a cache of n entries. -/
def ptrTouch (n : Nat) (c : KV PtrEnt) (k : Nat) : KV PtrEnt :=
  let c1 := c.map (fun e => if e.1 = k then (e.1, { e.2 with ru := true }) else e)
  if c1.length = n ∧ c1.all (fun e => e.2.ru) then c1.map (fun e => if e.1 = k then e else (e.1, { e.2 with ru := false })) else c1
/-- The lowest key from k on that a sorted list of keys does not hold. -/
def firstFree : List Nat → Nat → Nat
  | [], k => k
  | x :: xs, k => if x = k then firstFree xs (k + 1) else k
/-- Fill a cache of n entries. -/
def ptrFill (n : Nat) (c : KV PtrEnt) (e : PtrEnt) : KV PtrEnt :=
  let same := c.find? (fun x => x.2.world == e.world && x.2.asid == e.asid && x.2.level == e.level && x.2.key == e.key)
  let k := match same with
    | some x => x.1
    | none =>
      let f := firstFree (c.map (·.1)) 0
      if f < n then f else (match c.find? (fun x => !x.2.ru) with | some x => x.1 | none => 0)
  ptrTouch n (kvIns c k e) k

/-! ### Walks -/

/-- Walks that have started. -/
def walksIn (x : XltSt) : Nat := (x.walks.filter (fun w => w.k < 16)).length

/-- The counts of XLT_STAT follow the walks and invalidations the unit holds. -/
def xltSync (h : Hw) (r : Nat) : Hw :=
  let x := h.xlt r
  ((h.wf (XLT_STAT r) XLT_STAT_WALKS (walksIn x)).wf (XLT_STAT r) XLT_STAT_INVQ (min 15 x.inv.length)).wf (XLT_STAT r) XLT_STAT_INVBUSY
    (b2n (x.inv.any (fun i => i.by_.isNone && i.home == r)))

/-- Replace a walk. -/
def walkPut (h : Hw) (r : Nat) (w : Walk) : Hw :=
  let x := h.xlt r
  h.setXlt r { x with walks := x.walks.map (fun y => if y.k = w.k then w else y) }
/-- Drop a walk. -/
def walkDrop (h : Hw) (r k : Nat) : Hw :=
  let x := h.xlt r
  xltSync (h.setXlt r { x with walks := x.walks.filter (fun y => y.k != k) }) r
/-- A started walk by slot. -/
def walkAt (h : Hw) (r k : Nat) : Option Walk := (h.xlt r).walks.find? (fun w => w.k == k)

/-- A key that no walk of the unit has; a walk that has not started has one from 16 on. -/
def freshKey (x : XltSt) : Nat := x.walks.foldl (fun m y => max m y.k) 15 + 1

/-- Ask for a walk (R267, R274): a demand joins a look-ahead walk of the same page, and a request already made is not repeated. -/
def walkAsk (h : Hw) (r : Nat) (who : WalkFor) (demand write : Bool) (w : World) (asid va : Nat) : Hw :=
  let x := h.xlt r
  let samePage := fun (y : Walk) => y.world == w && y.asid == asid && y.va / 4096 == va / 4096
  if x.walks.any (fun y => samePage y && y.who == who && (y.demand || !demand) && (y.write == write || !demand)) then h
  else if demand && x.walks.any (fun y => samePage y && !y.demand) then
    h.setXlt r { x with walks := x.walks.map (fun y => if samePage y && !y.demand then { y with demand := true, who := who, write := write, va := va } else y) }
  else if !demand && x.walks.any samePage then h
  else
    h.setXlt r { x with walks := x.walks ++ [⟨freshKey x, who, demand, write, w, asid, va, 4, 0, 0, false, 0, 0, 0, false, false, false, h.tb.toNat⟩] }

/-- The directory base of a world: none when V = 0 (R260). -/
def dirBase (h : Hw) (r : Nat) (w : World) : Option Nat :=
  let (lo, hi) := if w = .keeper then (XLT_KDIR_LO r, XLT_KDIR_HI r) else (XLT_TDIR_LO r, XLT_TDIR_HI r)
  if bit (h.rd lo).toNat 0 then some (h.rdPair lo hi / 2 ^ 15 * 2 ^ 15) else none

/-- The table read after the root is known: below the deepest level that the pointer cache holds, which is touched, else level 0 (R265). -/
def walkDeep (x : XltSt) (w : World) (asid va root : Nat) : XltSt × (Nat × Nat) :=
  match [2, 1, 0].findSome? (fun l => (ptrFind x.ptr w asid l va).map (fun e => (l, e))) with
  | some (l, (k, e)) => ({ x with ptr := ptrTouch 512 x.ptr k }, (l + 1, e.addr))
  | none => (x, (0, root))

/-- The start of a walk: the level whose entry is read next and its table, with the caches touched; none when the root cache lacks the directory entry (R265). -/
def walkStart (x : XltSt) (w : World) (asid va : Nat) : XltSt × Option (Nat × Nat) :=
  match ptrFind x.root w asid 4 va with
  | some (k, e) =>
    let (x1, s) := walkDeep { x with root := ptrTouch 256 x.root k } w asid va e.addr
    (x1, some s)
  | none => (x, none)

/-- The address of the entry a level reads in a table. -/
def entryAddr (level table va : Nat) : Nat := table + 8 * (va / 2 ^ (39 - 9 * level) % 512)

/-- Capture a translation fault (R269). -/
def xltFault (h : Hw) (r cls level ea : Nat) (malf write : Bool) (ch : Nat) (w : World) (asid va : Nat) : Hw :=
  if h.rb (XLT_FLT_INFO r) XLT_FLT_INFO_VALID then h
  else
    let v : W32 := fldSet XLT_FLT_INFO_VALID (fldSet XLT_FLT_INFO_CLASS (fldSet XLT_FLT_INFO_LEVEL (fldSet XLT_FLT_INFO_MALF (fldSet XLT_FLT_INFO_WRITE
      (fldSet XLT_FLT_INFO_SRCID (fldSet XLT_FLT_INFO_WORLD (fldSet XLT_FLT_INFO_ASID 0 asid) (worldBit w)) (ch % 8)) (b2n write)) (b2n malf)) level) cls) 1
    ((((((h.wr (XLT_FLT_INFO r) v).wr (XLT_FLT_VA_LO r) (BitVec.ofNat 32 va)).wr (XLT_FLT_VA_HI r) (BitVec.ofNat 32 (va / 2 ^ 32 % 2 ^ 16))).wr
      (XLT_FLT_EA_LO r) (BitVec.ofNat 32 (ea / 8 * 8))).wr (XLT_FLT_EA_HI r) (BitVec.ofNat 32 (ea / 2 ^ 32 % 2 ^ 21))).sb (XLT_STAT r) XLT_STAT_FLT)

/-- Where a walk stands after a step: it goes on, or it is over with a fault class (0 for translated), the level, whether the entry was malformed and the translation. -/
inductive WalkOut where
  | goes
  | over (cls level : Nat) (malf : Bool) (ent : Option TcEnt)
deriving DecidableEq, Repr

/-- Issue the read of a table entry (R265). -/
def walkRead (h : Hw) (r : Nat) (w : Walk) (level ea : Nat) : Hw :=
  mRegion (walkPut h r { w with level := level, ea := ea, phase := 1, again := false, st := 0, bad := false }) r 1 0 ea 8 [] false true (.walk r w.k)

/-- Start a walk, or start it again, from the deepest cached level (R265, R270). -/
def walkBegin (h : Hw) (r : Nat) (w : Walk) : Hw × WalkOut :=
  let (x, s) := walkStart (h.xlt r) w.world w.asid w.va
  let h1 := h.setXlt r x
  match s with
  | some (l, table) => (walkRead h1 r { w with stale := false } l (entryAddr l table w.va), .goes)
  | none =>
    match dirBase h1 r w.world with
    | some b => (walkRead h1 r { w with stale := false } 4 (b + 8 * w.asid), .goes)
    | none =>
      let (lo, hi) := if w.world = .keeper then (XLT_KDIR_LO r, XLT_KDIR_HI r) else (XLT_TDIR_LO r, XLT_TDIR_HI r)
      (walkPut h1 r { w with level := 4, ea := h1.rdPair lo hi / 2 ^ 15 * 2 ^ 15 + 8 * w.asid, phase := 5 }, .over 1 4 false none)

/-- PA[52:12] of an entry as an address. -/
def entAddr (e : Nat) : Nat := bits e 52 12 * 4096

/-- The judgement of one entry (R261, R263): a fault class with MALF, the next table, or a leaf. -/
inductive Judged where
  | fault (cls : Nat) (malf : Bool)
  | table (addr : Nat)
  | leaf
deriving DecidableEq, Repr

def judge (level e : Nat) : Judged :=
  if !bit e 0 then .fault 1 false
  else if level = 4 then
    (if e % 2 ^ 64 ≠ bits e 52 12 * 4096 + b2n (bit e 5) * 32 + 1 then .fault 1 true
     else if bit e 5 || bit e 52 then .fault 4 false
     else .table (entAddr e))
  else
    let t := bit e 1
    if bits e 63 53 != 0 || bits e 11 9 != 0 || bit e 4 || (!t && level == 0) || (t && level == 3) || (!t && level == 1 && bits e 29 12 != 0) ||
       (!t && level == 2 && bits e 20 12 != 0) then .fault 1 true
    else if t then (if bit e 5 || bit e 52 then .fault 4 false else .table (entAddr e))
    else .leaf

/-- R259: a leaf of the local space maps the mat or the cushion of the configuration. -/
def leafSpaceOk (h : Hw) (size pa : Nat) : Bool :=
  match paLocal pa with
  | some off => h.inMem off && h.inMem (off + 2 ^ pgShift size - 1)
  | none => true

/-- The translation a leaf gives (R263, R264). -/
def leafEnt (w : Walk) (e : Nat) : TcEnt :=
  let size := if w.level = 1 then 3 else if w.level = 2 then 2 else if bit e 8 then 1 else 0
  let pg := if size = 1 then bits w.va 15 12 else 0
  ⟨w.world, w.asid, size, w.va / 2 ^ pgShift size, if size = 1 then entAddr e / 65536 * 65536 else entAddr e, w.ea, bit e 2, bit e 3, bit e 5,
    BitVec.ofNat 16 (b2n (bit e 6) * 2 ^ pg), BitVec.ofNat 16 (b2n (bit e 7) * 2 ^ pg), false⟩

/-- The access kind is permitted, and the leaf maps what it may (R263, R259). -/
def entPermits (h : Hw) (e : TcEnt) (write : Bool) : Bool := (if write then e.w else e.r) && leafSpaceOk h e.size e.pa

/-- A probe's answer in the layout of XLT.PR without DONE (R282). -/
def probeBits (cls level size : Nat) (se : Bool) (pa rwad : Nat) : Nat :=
  cls * 2 ^ 60 + level * 2 ^ 57 + size * 2 ^ 55 + b2n se * 2 ^ 54 + bits pa 52 12 * 2 ^ 12 + rwad * 2 ^ 8

/-- A leaf read by a walk that is not stale (R268, R270, R274, R282). -/
def walkLeaf (h : Hw) (r : Nat) (w : Walk) (e : Nat) : Hw × WalkOut :=
  let t := leafEnt w e
  let ok := entPermits h t w.write
  match w.who with
  | .probe _ =>
    let rwad := b2n t.r * 8 + b2n t.w * 4 + b2n (bit e 6) * 2 + b2n (bit e 7)
    (walkPut h r { w with phase := 5, entry := probeBits (if ok then 0 else 2) w.level t.size t.se (t.phys w.va) rwad }, .goes)
  | .chain _ _ =>
    if w.demand then
      (if !ok then (h, .over 2 w.level false none)
       else if !bit e 6 || (w.write && !bit e 7) then
         (let swap := (if bit e 6 then e else e + 64) + (if w.write && !bit e 7 then 128 else 0)
          (mRegion (walkPut h r { w with phase := 3, leaf := e, setsD := w.write && !bit e 7 }) r 1 2 w.ea 8 (leBytes 8 e ++ leBytes 8 swap) false true (.cas r w.k), .goes))
       else (h, .over 0 w.level false (some t)))
    else
      let h1 := if t.se then h.addSat (XLT_EVT r) XLT_EVT_LASE 1 else h
      if !ok then (h1, .over 2 w.level false none)
      else if t.se && (h.cfg.lasef || !bit e 6) then (h1, .over 0 w.level false none)
      else if !bit e 6 then
        (mRegion (walkPut h1 r { w with phase := 3, leaf := e, setsD := false }) r 1 2 w.ea 8 (leBytes 8 e ++ leBytes 8 (e + 64)) false true (.cas r w.k), .goes)
      else (h1, .over 0 w.level false (some t))

/-- A walk is a probe's. -/
def Walk.isProbe (w : Walk) : Bool := match w.who with | .probe _ => true | _ => false

/-- A table read has returned (R263, R266, R277). -/
def walkJudge (h : Hw) (r : Nat) (w : Walk) : Hw × WalkOut :=
  if w.stale then walkBegin h r w
  else if w.st ≠ 0 then (h, .over 3 w.level false none)
  else if w.bad then
    (if w.again then (h, .over 3 w.level false none)
     else (mRegion (walkPut h r { w with phase := 1, again := true, bad := false }) r 1 0 w.ea 8 [] false true (.walk r w.k), .goes))
  else match judge w.level w.entry with
    | .fault c m => (h, .over c w.level m none)
    | .table a =>
      let p : PtrEnt := ⟨w.world, w.asid, w.level, ptrKey w.level w.va, a, false⟩
      let x := h.xlt r
      let h1 := if w.isProbe then h
        else if w.level = 4 then h.setXlt r { x with root := ptrFill 256 x.root p }
        else h.setXlt r { x with ptr := ptrFill 512 x.ptr p }
      let (x1, next, table) := if w.level = 4 then walkDeep (h1.xlt r) w.world w.asid w.va a else (h1.xlt r, w.level + 1, a)
      (walkRead (h1.setXlt r x1) r w next (entryAddr next table w.va), .goes)
    | .leaf => walkLeaf h r w w.entry

/-- The CAS64 of a mark has returned (R270, R277, R283). -/
def walkMarked (h : Hw) (r : Nat) (w : Walk) : Hw × WalkOut :=
  let fail := w.bad || w.entry != w.leaf
  if w.st ≠ 0 then (if w.stale then walkBegin h r w else (h, .over 3 w.level false none))
  else
    let h1 := if fail then h.addSat (XLT_EVT r) XLT_EVT_CASF 1 else h
    if w.stale then walkBegin h1 r w
    else if fail then (if w.demand then walkBegin h1 r w else (h1, .over 0 w.level false none))
    else
      let e := (if bit w.leaf 6 then w.leaf else w.leaf + 64) + (if w.setsD then 128 else 0)
      (h1, .over 0 w.level false (some (leafEnt w e)))

/-! ### Invalidations (R276 to R279) -/

/-- An invalidation names an entry of a space. -/
def Inval.names (i : Inval) (w : World) (asid : Nat) : Bool :=
  match i.kind with
  | 0 => w == i.world && asid == i.asid
  | 1 => w == i.world && asid == i.asid
  | 2 => w == i.world
  | _ => true
/-- It removes a cached translation. -/
def Inval.hits (i : Inval) (e : TcEnt) : Bool := if i.kind = 0 then e.covers i.world i.asid i.va else i.names e.world e.asid

/-- Maintenance state: any cause of LCH_MAINT (R412). -/
def maint (h : Hw) : Bool := h.rd LCH_MAINT != 0

end Sys2Proof.Machine
end

