-- ==== Sys2Proof/Machine/Desc.lean ====
section
/-!
DEFINITION. The chain descriptor (R81 to R90): its fields, the formats and their codes, the carried width and the anchor scale, the checks at issue in the order of the table, and the
rules between the members of a group (R99).
-/
namespace Sys2Proof.Machine

/-! ### Formats (R83, R85) -/

/-- The class of a format code. -/
inductive FmtKind where
  | none | flt | int | mx | anch | ancrec | reserved
deriving DecidableEq, Repr

def fmtKind (c : Nat) : FmtKind :=
  if c = 0 then .none
  else if 1 ≤ c ∧ c ≤ 6 then .flt
  else if c = 8 ∨ c = 9 ∨ c = 0xA ∨ c = 0xC ∨ c = 0xD ∨ c = 0xE then .int
  else if 0x10 ≤ c ∧ c ≤ 0x13 then .mx
  else if 0x18 ≤ c ∧ c ≤ 0x1B then .anch
  else if c = 0x20 then .ancrec
  else .reserved

/-- The floating format of a code: the elements of a block for a block-scaled one. -/
def fmtFF (c : Nat) : FF :=
  match c with
  | 1 => ffFP64 | 2 => ffFP32 | 3 => ffFP16 | 4 => ffBF16 | 5 => ffE4M3 | 6 => ffE5M2
  | 0x10 => ffE4M3 | 0x11 => ffE5M2 | 0x12 => ffE3M2 | _ => ffE2M3
/-- The integer format of a code. -/
def fmtIF (c : Nat) : IF :=
  match c with
  | 8 => ⟨32, true⟩ | 9 => ⟨16, true⟩ | 0xA => ⟨8, true⟩ | 0xC => ⟨32, false⟩ | 0xD => ⟨16, false⟩ | _ => ⟨8, false⟩
/-- The width of an anchored format. -/
def fmtAW (c : Nat) : Nat := match c with | 0x18 => 24 | 0x19 => 32 | 0x1A => 48 | _ => 64
/-- Container bytes of an element, or of a block of 32. -/
def fmtCont (c : Nat) : Nat :=
  match c with
  | 1 => 8 | 2 => 4 | 3 => 2 | 4 => 2 | 5 => 1 | 6 => 1 | 8 => 4 | 9 => 2 | 0xA => 1 | 0xC => 4 | 0xD => 2 | 0xE => 1
  | 0x10 => 33 | 0x11 => 33 | 0x12 => 25 | 0x13 => 25 | 0x18 => 4 | 0x19 => 4 | 0x1A => 8 | 0x1B => 8 | 0x20 => 2 | _ => 1
/-- Segment length of a format. -/
def fmtSL (c : Nat) : Nat :=
  match c with
  | 1 => 512 | 2 => 1024 | 3 => 2048 | 4 => 2048 | 5 => 4096 | 6 => 4096 | 8 => 1024 | 9 => 2048 | 0xA => 4096 | 0xC => 1024 | 0xD => 2048 | 0xE => 4096
  | 0x10 => 4096 | 0x11 => 4096 | 0x12 => 4096 | 0x13 => 4096 | 0x18 => 1024 | 0x19 => 1024 | 0x1A => 512 | 0x1B => 512 | 0x20 => 2048 | _ => 4096
/-- Elements in one item of a stream. -/
def fmtItem (c : Nat) : Nat := if fmtKind c = .mx then 32 else 1
/-- The default carried width of a floating format (R88). -/
def fmtDefW (c : Nat) : Nat := if c = 1 then 64 else if c = 2 then 48 else if c = 5 ∨ c = 6 then 24 else 32

def cfANCHORED : Nat := 0xC
def cfIsFlt (c : Nat) : Bool := decide (c ≤ 5)
def cfIsInt (c : Nat) : Bool := decide (6 ≤ c) && decide (c ≤ 0xB)
/-- The floating combine format. -/
def cfFF (c : Nat) : FF := fmtFF (c + 1)
/-- The integer combine format. -/
def cfIF (c : Nat) : IF :=
  match c with
  | 6 => ⟨32, true⟩ | 7 => ⟨16, true⟩ | 8 => ⟨8, true⟩ | 9 => ⟨32, false⟩ | 0xA => ⟨16, false⟩ | _ => ⟨8, false⟩

/-! ### Fields (R82, R87, R88) -/

def dW (ws : List Nat) (k : Nat) : Nat := ws.getD k 0
def dOPC (ws : List Nat) : Nat := bits (dW ws 0) 63 58
def dFMTA (ws : List Nat) : Nat := bits (dW ws 0) 57 52
def dFMTB (ws : List Nat) : Nat := bits (dW ws 0) 51 46
def dFMTD (ws : List Nat) : Nat := bits (dW ws 0) 45 40
def dCFMT (ws : List Nat) : Nat := bits (dW ws 0) 39 36
def dCOMB (ws : List Nat) : Nat := bits (dW ws 0) 35 32
def dSCL (ws : List Nat) : Nat := bits (dW ws 0) 31 30
def dRND (ws : List Nat) : Nat := bits (dW ws 0) 29 27
def dAW (ws : List Nat) : Nat := bits (dW ws 0) 26 24
def dKA (ws : List Nat) : Nat := bits (dW ws 0) 23 22
def dKB (ws : List Nat) : Nat := bits (dW ws 0) 21 20
def dKD (ws : List Nat) : Nat := bits (dW ws 0) 19 18
def dCMODE (ws : List Nat) : Nat := bits (dW ws 0) 17 16
def dRESUME (ws : List Nat) : Bool := bit (dW ws 0) 15
def dFPBAR (ws : List Nat) : Bool := bit (dW ws 0) 14
def dORD (ws : List Nat) : Bool := bit (dW ws 0) 13
def dFTZ (ws : List Nat) : Bool := bit (dW ws 0) 12
def dCRC (ws : List Nat) : Bool := bit (dW ws 0) 11
def dNOLA (ws : List Nat) : Bool := bit (dW ws 0) 10
def dCOUNT (ws : List Nat) : Nat := if bits (dW ws 1) 63 32 = 0 then 2 ^ 32 else bits (dW ws 1) 63 32
def dCTX (ws : List Nat) : Nat := bits (dW ws 1) 31 20
def dQUEUE (ws : List Nat) : Nat := bits (dW ws 1) 19 10
def dN (ws : List Nat) : Nat := if dSCL ws = 2 then dW ws 5 % 2 ^ 16 else 1
def dABLK (ws : List Nat) : Nat := dW ws 6 % 2 ^ 24

def opCOPY : Nat := 1
def opCOMB : Nat := 2
def opFILL : Nat := 3
def opGATHER : Nat := 4
def opSCATTER : Nat := 5
def opANCREC : Nat := 6
def opFENCE : Nat := 7
def kMem : Nat := 0
def kLink : Nat := 1
def kChain : Nat := 2
def kNone : Nat := 3

/-- The kind, format and word of stream A (0), B (1) or D (2). -/
def dKind (ws : List Nat) (s : Nat) : Nat := if s = 0 then dKA ws else if s = 1 then dKB ws else dKD ws
def dFmt (ws : List Nat) (s : Nat) : Nat := if s = 0 then dFMTA ws else if s = 1 then dFMTB ws else dFMTD ws
def dOp (ws : List Nat) (s : Nat) : Nat := dW ws (2 + s)
/-- Fields of an operand word. -/
def opVA (w : Nat) : Nat := w % 2 ^ 48
def opSTRIDE (w : Nat) : Int := let s := bits w 63 48; if s < 2 ^ 15 then s else (s : Int) - 2 ^ 16
def opLINK (w : Nat) : Nat := w % 128
def opSTEP (w : Nat) : Nat := bits w 18 7
def opTC (w : Nat) : Nat := bits w 20 19
def opCHAIN (w : Nat) : Nat := w % 8
def opOPB (w : Nat) : Bool := bit w 3

def dGS (ws : List Nat) : Bool := dOPC ws == opGATHER || dOPC ws == opSCATTER
/-- MAX on ANREC streams (R86). -/
def dRecMax (ws : List Nat) : Bool := dOPC ws == opCOMB && dCOMB ws == 2 && dFMTA ws == 0x20 && dFMTB ws == 0x20 && dFMTD ws == 0x20
/-- A command that moves or merges records. -/
def dRec (ws : List Nat) : Bool := dRecMax ws || (dOPC ws == opCOPY && dFMTA ws == 0x20 && dFMTD ws == 0x20)
/-- A direct conversion (R84). -/
def dDirect (ws : List Nat) : Bool := dGS ws || (dOPC ws == opCOPY && dSCL ws == 0)
/-- Anchored command (R88). -/
def dAnchored (ws : List Nat) : Bool :=
  dCFMT ws == cfANCHORED || fmtKind (dFMTA ws) == .anch || fmtKind (dFMTB ws) == .anch || fmtKind (dFMTD ws) == .anch

/-- A floating or block-scaled format. -/
def fmtFloaty (c : Nat) : Bool := fmtKind c == .flt || fmtKind c == .mx

/-- The formats of the floating streams that the command converts into or out of anchored form (R88). -/
def dConvStreams (ws : List Nat) : List Nat :=
  let o := dOPC ws
  let keep := fun (l : List Nat) => l.filter fmtFloaty
  if !dAnchored ws then []
  else if o = opCOMB then keep [dFMTA ws, dFMTB ws, dFMTD ws]
  else if o = opCOPY ∧ dSCL ws ≠ 0 then keep [dFMTA ws, dFMTD ws]
  else if o = opCOPY ∨ dGS ws then
    (if fmtKind (dFMTD ws) = .anch then keep [dFMTA ws] else if fmtKind (dFMTA ws) = .anch then keep [dFMTD ws] else [])
  else if o = opFILL ∧ dCFMT ws = cfANCHORED then keep [dFMTD ws]
  else []

/-- The carried width: 0 when none follows (R88). -/
def dWidth (ws : List Nat) : Nat :=
  match dAW ws with
  | 4 => 24 | 5 => 32 | 6 => 48 | 7 => 64
  | _ =>
    match dConvStreams ws with
    | [] => (match [dFMTA ws, dFMTB ws, dFMTD ws].find? (fun c => fmtKind c == .anch) with | some c => fmtAW c | none => 0)
    | l => l.foldl (fun m c => max m (fmtDefW c)) 0

/-- The command's anchor scale is S64 (R88, R146). -/
def dG64 (ws : List Nat) : Bool := (dConvStreams ws).contains 1

/-- The segment length of a command by itself (R100): 0 for a FENCE. -/
def dSL (ws : List Nat) : Nat := if dOPC ws = opFENCE then 0 else fmtSL (if dOPC ws = opFILL then dFMTD ws else dFMTA ws)

/-! ### Checks (R86, R90, R163) -/

/-- COMB is allowed for CFMT (R86). -/
def combAllowed (comb cf : Nat) : Bool :=
  if comb = 0 then true
  else if comb ≤ 3 then cfIsFlt cf || cfIsInt cf
  else if comb ≤ 6 then cfIsInt cf
  else if comb = 7 then cf == cfANCHORED
  else if comb = 8 then cfIsFlt cf
  else false

/-- The reduction parameters of a collective request break none of R85, R86 and R90 (R163, subcode 0x04): an anchored one has COMB ADD and no stochastic rounding. -/
def combineOk (fmt comb cfmt rnd aw : Nat) : Bool :=
  decide (cfmt ≤ cfANCHORED) && decide (rnd ≤ 5) && (aw == 0 || decide (4 ≤ aw)) &&
  (if cfmt = cfANCHORED then comb == 1 && rnd != 5 && fmtKind fmt == .flt
   else comb != 0 && combAllowed comb cfmt && !(cfIsInt cfmt && fmtKind fmt == .flt))

/-- Streams of the command that are present: those not of kind none. -/
def dPresent (ws : List Nat) : List Nat := [0, 1, 2].filter (fun s => dKind ws s != kNone)

/-- A stream has a format: an operand that is present, or the packing of a command that only checksums its output. -/
def dWantsFmt (ws : List Nat) (s : Nat) : Bool := dKind ws s != kNone || (s == 2 && dCRC ws && dOPC ws != opFENCE)

/-- Subcode 0x02. -/
def chkFormats (ws : List Nat) : Bool :=
  let fs := [0, 1, 2].map (dFmt ws)
  let recs := fs.map (fun c => c == 0x20)
  [0, 1, 2].any (fun s => fmtKind (dFmt ws s) == .reserved || ((dFmt ws s != 0) != dWantsFmt ws s)) ||
  (dGS ws && (fmtKind (dFMTA ws) == .mx || fmtKind (dFMTD ws) == .mx || dFMTB ws != 0x0C)) ||
  (if dOPC ws = opANCREC then !fmtFloaty (dFMTA ws) || dFMTD ws != 0x20 || dFMTB ws == 0x20
   else recs.any id && !(dOPC ws == opCOPY && recs == [true, false, true] && dSCL ws == 0) && !dRecMax ws)

/-- Subcode 0x03. -/
def chkCfmt (ws : List Nat) : Bool :=
  let cf := dCFMT ws
  decide (cf > cfANCHORED) ||
  (dOPC ws == opCOMB && !dRecMax ws && cfIsInt cf && (fmtFloaty (dFMTA ws) || fmtFloaty (dFMTB ws))) ||
  (dAnchored ws && cf != cfANCHORED && (dOPC ws == opCOMB || dSCL ws != 0)) ||
  (cf == cfANCHORED && [0, 1, 2].any (fun s => fmtKind (dFmt ws s) == .int))

/-- Subcode 0x04. -/
def chkComb (ws : List Nat) : Bool :=
  let o := dOPC ws
  decide (dCOMB ws > 8) || (!dRecMax ws && !combAllowed (dCOMB ws) (dCFMT ws)) ||
  (dCOMB ws != 0 && (o == opCOPY || o == opFILL || o == opGATHER || o == opSCATTER || o == opANCREC)) || (o == opCOMB && dCOMB ws == 0)

/-- Subcode 0x05. -/
def chkScl (ws : List Nat) : Bool :=
  let o := dOPC ws
  let s := dSCL ws
  s == 3 || (s != 0 && (cfIsInt (dCFMT ws) || dCOMB ws == 8 || o == opFILL || dGS ws || o == opANCREC)) ||
  (s == 1 && dAnchored ws) || (s == 2 && dAnchored ws && fmtKind (dFMTD ws) == .anch) || (s == 2 && dW ws 5 % 2 ^ 16 == 0)

/-- Subcode 0x07. -/
def chkWidth (ws : List Nat) : Bool :=
  (dAW ws != 0 && decide (dAW ws < 4)) ||
  (dAnchored ws && (dWidth ws == 0 || [0, 1, 2].any (fun s => fmtKind (dFmt ws s) == .anch && fmtAW (dFmt ws s) != dWidth ws)))

/-- Subcode 0x08. -/
def chkKinds (ws : List Nat) : Bool :=
  let o := dOPC ws
  if o = opFENCE then false
  else
    (dKA ws == kNone && o != opFILL) || (o == opFILL && (dKA ws != kNone || dKB ws != kNone)) || (o == opCOMB && dKB ws == kNone) ||
    (dGS ws && (dKB ws != kMem || [0, 1, 2].any (fun s => dKind ws s == kLink || dKind ws s == kChain))) || (o == opSCATTER && dKD ws != kMem) ||
    (dKD ws == kNone && !dCRC ws)

/-- Subcode 0x09. -/
def chkAlign (ws : List Nat) : Bool :=
  (dPresent ws).any (fun s => dKind ws s == kMem && fmtKind (dFmt ws s) != .mx && opVA (dOp ws s) % fmtCont (dFmt ws s) != 0)

/-- Subcode 0x0A. -/
def chkStride (ws : List Nat) : Bool :=
  let o := dOPC ws
  (dKD ws == kMem && o != opSCATTER && opSTRIDE (dOp ws 2) == 0 && decide (dCOUNT ws > 1)) ||
  (dPresent ws).any (fun s => dKind ws s == kMem && fmtKind (dFmt ws s) == .mx && opSTRIDE (dOp ws s) != 1) ||
  (dGS ws && opSTRIDE (dOp ws 1) == 0) || (o == opGATHER && opSTRIDE (dOp ws 0) != 0) || (o == opSCATTER && opSTRIDE (dOp ws 2) != 0)

/-- CTX is a valid context of the region of the issuer's world (subcode 0x0C). -/
def ctxOk (h : Hw) (r n : Nat) (w : World) : Bool := n / 1024 == r && h.hasCtx n && h.rb (CXE_CTL n) CXE_CTL_V && h.cxWorld n == w

/-- Subcode 0x0B. -/
def chkCount (h : Hw) (r : Nat) (w : World) (ws : List Nat) : Bool :=
  ([0, 1, 2].any (fun s => fmtKind (dFmt ws s) == .mx) && dCOUNT ws % 32 != 0) ||
  (dAnchored ws && dOPC ws != opANCREC && ctxOk h r (dCTX ws) w &&
    decide (dABLK ws + (dCOUNT ws + 255) / 256 > h.rf (CXE_AWBLK (dCTX ws)) CXE_AWBLK_AWBLK))

/-- Subcode 0x0D. -/
def chkLink (r : Nat) (ws : List Nat) : Bool := (dPresent ws).any (fun s => dKind ws s == kLink && opLINK (dOp ws s) / 32 != r)

/-- An operand is of chain kind. -/
def dChained (ws : List Nat) : Bool := dOPC ws != opFENCE && [0, 1, 2].any (fun s => dKind ws s == kChain)

/-- Subcode 0x0E, the rules of one member alone (R99). -/
def chkMember (c : Nat) (ws : List Nat) : Bool :=
  let o := dOPC ws
  dChained ws && (!(o == opCOPY || o == opCOMB || o == opANCREC) || [0, 1, 2].any (fun s => dKind ws s == kChain && opCHAIN (dOp ws s) == c))

/-- A progress word allows a resumed command (R109). -/
def resumeOk (prog count sl : Nat) : Bool := bit prog 63 && decide (bits prog 55 32 * sl < count)

/-- Subcode 0x0F, of a command that runs alone; that of a group is judged when it forms (R109). -/
def chkResume (ws : List Nat) : Bool := dRESUME ws && !dChained ws && !resumeOk (dW ws 7) (dCOUNT ws) (dSL ws)

/-- Subcode 0x10: reserved bits of words 0 to 6; the word of a stream of kind none is ignored. -/
def chkReserved (ws : List Nat) : Bool :=
  dW ws 0 % 2 ^ 10 != 0 || dW ws 1 % 2 ^ 10 != 0 ||
  [0, 1, 2].any (fun s =>
    (dKind ws s == kLink && dOp ws s / (if s = 2 then 2 ^ 21 else 2 ^ 19) != 0) ||
    (dKind ws s == kChain && dOp ws s / (if s = 2 then 2 ^ 4 else 2 ^ 3) != 0)) ||
  (dAnchored ws && dW ws 6 / 2 ^ 24 != 0)

/-- The checks of R90 for a command of local chain c: the subcode of the first that fails, or none. -/
def descCheck (h : Hw) (r c : Nat) (w : World) (ws : List Nat) : Option Nat :=
  if dOPC ws = 0 ∨ dOPC ws > 7 then some 1
  else if chkFormats ws then some 2
  else if chkCfmt ws then some 3
  else if chkComb ws then some 4
  else if chkScl ws then some 5
  else if dRND ws > 5 ∨ (dAnchored ws ∧ dRND ws = 5) then some 6
  else if chkWidth ws then some 7
  else if chkKinds ws then some 8
  else if chkAlign ws then some 9
  else if chkStride ws then some 0xA
  else if chkCount h r w ws then some 0xB
  else if !ctxOk h r (dCTX ws) w then some 0xC
  else if chkLink r ws then some 0xD
  else if chkMember c ws then some 0xE
  else if chkResume ws then some 0xF
  else if chkReserved ws then some 0x10
  else if !h.hasQueue (dQUEUE ws) then some 0x11
  else none

/-! ### Groups (R99) -/

/-- The local chains a command names. -/
def dNames (ws : List Nat) : List Nat := [0, 1, 2].filterMap (fun s => if dKind ws s = kChain then some (opCHAIN (dOp ws s)) else none)

/-- The rules between members, of a set closed under naming (R99). -/
def groupOk (ms : List (Nat × List Nat)) : Bool :=
  let find := fun c => (ms.find? (fun m => m.1 == c)).map (·.2)
  let first := (ms.headD (0, [])).2
  decide (ms.length ≤ 4) && decide (2 ≤ ms.length) &&
  (ms.filter (fun m => dKD m.2 != kChain)).length == 1 &&
  ms.all (fun m =>
    dCOUNT m.2 == dCOUNT first && dCTX m.2 == dCTX first && dRESUME m.2 == dRESUME first &&
    [0, 1].all (fun s => if dKind m.2 s = kChain then
      (match find (opCHAIN (dOp m.2 s)) with
       | some u => dKD u == kChain && opCHAIN (dOp u 2) == m.1 && opOPB (dOp u 2) == (s == 1) && dFMTD u == dFmt m.2 s
       | none => false) else true) &&
    (if dKD m.2 = kChain then
      (match find (opCHAIN (dOp m.2 2)) with
       | some d => let s := if opOPB (dOp m.2 2) then 1 else 0
                   dKind d s == kChain && opCHAIN (dOp d s) == m.1
       | none => false) else true))

/-- Items in a data frame of a stream (R98). -/
def frameCap (c : Nat) : Nat := if fmtKind c = .mx then 7 * fmtCont c else if fmtKind c = .ancrec then 256 else 256 / fmtCont c * fmtCont c
/-- Elements in a frame by its FMT and LEN. -/
def frameItems (f : Frame) : Nat := min f.len 256 / fmtCont f.fmt * fmtItem f.fmt

end Sys2Proof.Machine
end

