-- ==== Sys2Proof/Machine/Compute.lean ====
section
/-!
DEFINITION. What a chain computes from one group of elements (R84 to R89, R112 to R151): unpack and convert in, combine, scale, convert out and pack, with the sticky flags and the anchor
losses it raises.
-/
namespace Sys2Proof.Machine

/-- A value inside a chain: a floating value, an integer, an anchored integer or an anchor record. -/
inductive CVal where
  | f (x : FNum)
  | i (v : Int)
  | q (v : Int)
  | r (v : Nat)
deriving DecidableEq, Repr

/-- A value with the flags raised so far and the losses counted. -/
structure COut where
  v    : CVal
  flg  : Nat
  loss : Nat
deriving DecidableEq, Repr

/-- RND of the command, and the attribute of every rounding but a narrowing convert-out (R89, R125). -/
def dRnd (ws : List Nat) : Rnd := rndOf (dRND ws)
def dRin (ws : List Nat) : Rnd := if dRnd ws = .sr then .rne else dRnd ws
/-- The attribute of the combine and scale stages (R125). An integer FMTD counts its full width as significand bits, so INT16 is narrower than an FP32 CFMT and INT32 is not
(DESIGN CHOICE, log 38: the spec gives significand bits of floating formats only). -/
def dMode (ws : List Nat) : Rnd :=
  if dRnd ws = .sr then .rne
  else
    let sig := match fmtKind (dFMTD ws) with
      | .flt => (fmtFF (dFMTD ws)).fb + 1
      | .mx => (fmtFF (dFMTD ws)).fb + 1
      | .int => (fmtIF (dFMTD ws)).n
      | _ => 64
    if sig < (cfFF (dCFMT ws)).fb + 1 then .rto else dRnd ws

/-- The elements of one stored item, as read (R112 to R116, R126, R139). -/
def readItem (fmt : Nat) (ftz : Bool) (w : Nat) (bs : List Byte) : List COut :=
  match fmtKind fmt with
  | .flt => [⟨.f (flushF (fmtFF fmt) ftz (fDecode (fmtFF fmt) (leNat bs))), 0, 0⟩]
  | .int => [⟨.i (iDecode (fmtIF fmt) (leNat bs)), 0, 0⟩]
  | .mx => (mxUnpack (fmtFF fmt) bs).map (fun x => ⟨.f x, 0, 0⟩)
  | .anch => let (q, fl) := anchLoad w (fmtCont fmt) (leNat bs); [⟨.q q, fl, 0⟩]
  | .ancrec => [⟨.r (leNat bs), 0, 0⟩]
  | _ => []

/-- An element of a block-scaled stream as the FP32 value that anchored conversion sees (R140). -/
def mxAs32 (ws : List Nat) (x : FNum) : FNum × Nat := stageF ffFP32 (dRin ws) (dFTZ ws) (flushF ffFP32 (dFTZ ws) x, 0)

/-- Conversion into anchored form against a record (R140, R148). -/
def cinAnch (ws : List Nat) (fmt rec_ : Nat) (c : COut) : COut :=
  match c.v with
  | .f x =>
    let (y, fl) := if fmtKind fmt = .mx then mxAs32 ws x else (x, 0)
    let (q, fl2, lost) := anchIn (dWidth ws) (dG64 ws) rec_ y
    ⟨.q q, orF c.flg (orF fl fl2), c.loss + b2n lost⟩
  | .i v =>
    let (q, fl, lost) := anchIn (dWidth ws) (dG64 ws) rec_ (intToF v)
    ⟨.q q, orF c.flg fl, c.loss + b2n lost⟩
  | _ => c

/-- Conversion into CFMT (R125, R126, R129, R130, R139). -/
def cinFmt (ws : List Nat) (fmt rec_ : Nat) (c : COut) : COut :=
  let cf := dCFMT ws
  if cf = cfANCHORED then cinAnch ws fmt rec_ c
  else if cfIsInt cf then
    (match c.v with
     | .f x => let (v, fl) := fToInt (cfIF cf) (dRin ws) x; ⟨.i v, orF c.flg fl, c.loss⟩
     | .i v => let (u, fl) := iSat (cfIF cf) v; ⟨.i u, orF c.flg fl, c.loss⟩
     | _ => c)
  else
    let g := cfFF cf
    match c.v with
    | .f x =>
      let y := if fmtKind fmt = .mx then flushF g (dFTZ ws) x else x
      let s := fmtFF fmt
      if fmtKind fmt = .flt ∧ s.fb ≤ g.fb ∧ s.eb ≤ g.eb then ⟨.f y, c.flg, c.loss⟩
      else let (z, fl) := convF g (dRin ws) (dFTZ ws) y; ⟨.f z, orF c.flg fl, c.loss⟩
    | .i v => let (z, fl) := stageF g (dRin ws) (dFTZ ws) (intToF v, 0); ⟨.f z, orF c.flg fl, c.loss⟩
    | _ => c

/-- SCALAR as a value in CFMT (R87). With FTZ = 1 a subnormal SCALAR is flushed like an input, without a flag (DESIGN CHOICE, log 38: SCALAR passes no convert-in). -/
def scalarVal (ws : List Nat) : COut :=
  let cf := dCFMT ws
  let s := dW ws 5
  if cf = cfANCHORED then (let (q, fl) := anchLoad (dWidth ws) ((dWidth ws + 7) / 8) (s % 2 ^ dWidth ws); ⟨.q q, fl, 0⟩)
  else if cfIsInt cf then ⟨.i (iDecode (cfIF cf) s), 0, 0⟩
  else ⟨.f (flushF (cfFF cf) (dFTZ ws) (fDecode (cfFF cf) (s % 2 ^ (cfFF cf).width))), 0, 0⟩

/-- SCALAR as a floating value. -/
def scalarF (ws : List Nat) : FNum := match (scalarVal ws).v with | .f x => x | _ => dNaN

/-- The combine stage (R86, R122 to R127, R145, R149). An exact zero sum takes its sign by RND, also where the stage rounds to odd, so that the result is "rounded once in RND"
(DEDUCED, log 38: R122 names the attribute RD, R125 says RTO acts in between). -/
def combStage (ws : List Nat) (a b : COut) : COut :=
  let fl := orF a.flg b.flg
  let ls := a.loss + b.loss
  match a.v, b.v with
  | .r x, .r y => ⟨.r (recMax x y), fl, ls⟩
  | .q x, .q y => let (z, f) := aadd (dWidth ws) x y; ⟨.q z, orF fl f, ls⟩
  | .i x, .i y => ⟨.i (intOp (cfIF (dCFMT ws)) (dCOMB ws) x y), fl, ls⟩
  | .f x, .f y =>
    let g := cfFF (dCFMT ws)
    (match dCOMB ws with
     | 1 => let (z, f) := stageF g (dMode ws) (dFTZ ws) (addF (dRin ws) x y); ⟨.f z, orF fl f, ls⟩
     | 2 => let (z, f) := maxminF true x y; ⟨.f z, orF fl f, ls⟩
     | 3 => let (z, f) := maxminF false x y; ⟨.f z, orF fl f, ls⟩
     | 8 => let (z, f) := stageF g (dMode ws) (dFTZ ws) (fmaF (dRin ws) x (scalarF ws) y); ⟨.f z, orF fl f, ls⟩
     | _ => ⟨a.v, fl, ls⟩)
  | _, _ => ⟨a.v, fl, ls⟩

/-- The scale stage (R125, R131, R132); in an anchored command the division acts in convert-out (R150). -/
def sclStage (ws : List Nat) (a : COut) : COut :=
  match a.v with
  | .f x =>
    let g := cfFF (dCFMT ws)
    if dSCL ws = 1 then (let (z, f) := stageF g (dMode ws) (dFTZ ws) (mulF x (scalarF ws)); ⟨.f z, orF a.flg f, a.loss⟩)
    else if dSCL ws = 2 then (let (z, f) := stageF g (dMode ws) (dFTZ ws) (divNF (dN ws) x); ⟨.f z, orF a.flg f, a.loss⟩)
    else a
  | _ => a

/-- The value that convert-out rounds, with the record applied to an anchored sum (R150). -/
def outVal (ws : List Nat) (rec_ : Nat) (a : COut) : COut :=
  match a.v with
  | .q v =>
    if fmtKind (dFMTD ws) = .anch then a
    else let (x, fl) := anchOut (dWidth ws) (dG64 ws) rec_ (dN ws) v; ⟨.f x, orF (orF a.flg fl) (blockNV rec_), a.loss⟩
  | _ => a

/-- One element packed in FMTD (R114, R115, R121, R128 to R130, R142): its bytes and flags. `i` is the element's index in the command.
Where FMTD has no fewer significand bits than CFMT but a smaller range, as FP16 after BF16, convert-out is not exact; it rounds in RND, SR too (DESIGN CHOICE, log 38: R125 calls it
exact). -/
def packElem (ws : List Nat) (i : Nat) (a : COut) : List Byte × Nat :=
  let fmt := dFMTD ws
  let u := if dRnd ws = .sr then srWord (dW ws 6) (dCTX ws) i else 0
  match fmtKind fmt, a.v with
  | .flt, .f x => let (v, fl) := fConvert (fmtFF fmt) (dRnd ws) u (dFTZ ws) x; (leBytes (fmtCont fmt) v, orF a.flg fl)
  | .flt, .i v => let (e, fl) := fEncode (fmtFF fmt) (dRin ws) 0 (dFTZ ws) (intToF v); (leBytes (fmtCont fmt) e, orF a.flg fl)
  | .int, .f x => let (v, fl) := fToInt (fmtIF fmt) (dRnd ws) x; (leBytes (fmtCont fmt) (iEncode (fmtIF fmt) v), orF a.flg fl)
  | .int, .i v => let (x, fl) := iSat (fmtIF fmt) v; (leBytes (fmtCont fmt) (iEncode (fmtIF fmt) x), orF a.flg fl)
  | .anch, .q v => (leBytes (fmtCont fmt) (iEncode ⟨8 * fmtCont fmt, true⟩ v), a.flg)
  | .ancrec, .r v => (leBytes 2 v, a.flg)
  | _, _ => (List.replicate (fmtCont fmt) 0, a.flg)

/-- A value as the packing of a block takes it. -/
def asF (a : COut) : FNum := match a.v with | .f x => x | .i v => intToF v | _ => dNaN

/-- The results of a group: one packed item for each element or block, with the flags and losses of the group. -/
structure GroupOut where
  items : List (List Byte)
  flg   : Nat
  loss  : Nat
deriving DecidableEq, Repr

/-- Compute a group of elements (R84). In a direct conversion of a block-scaled stream CFMT is ignored, so FTZ flushes no input there, only a subnormal result in FMTD (DESIGN CHOICE,
log 38: R126 judges "the scaled value in CFMT"). `i0` is the index of its first element, `recAt` the record of an element's anchor block. -/
def computeGroup (ws : List Nat) (i0 n : Nat) (recAt : Nat → Nat) (as_ bs : List (List Byte)) : GroupOut :=
  let w := dWidth ws
  let ea := as_.flatMap (readItem (dFMTA ws) (dFTZ ws && fmtKind (dFMTA ws) != FmtKind.mx) w)
  let eb := bs.flatMap (readItem (dFMTB ws) (dFTZ ws && fmtKind (dFMTB ws) != FmtKind.mx) w)
  if dOPC ws = opANCREC then
    (let conv : List (FNum × Nat) := ea.map (fun c => match c.v with
        | .f x => if fmtKind (dFMTA ws) = .mx then mxAs32 ws x else (x, 0)
        | _ => (dNaN, 0))
     ⟨[leBytes 2 (anchRecord (dFMTA ws == 1) (conv.map (·.1)))], conv.foldl (fun a c => orF a c.2) 0, 0⟩)
  else
    let vals : List COut := (List.range n).map (fun k =>
      let i := i0 + k
      let a := ea.getD k ⟨.f dNaN, 0, 0⟩
      let b := eb.getD k ⟨.f dNaN, 0, 0⟩
      if dRec ws then (if dRecMax ws then combStage ws a b else a)
      else if dDirect ws then
        (if fmtKind (dFMTD ws) = .anch then cinAnch ws (dFMTA ws) (recAt i) a
         else outVal ws (recAt i) a)
      else if dOPC ws = opFILL then
        (let s := scalarVal ws
         if fmtKind (dFMTD ws) = .anch then cinAnch ws 0 (recAt i) s else outVal ws (recAt i) s)
      else
        let x := cinFmt ws (dFMTA ws) (recAt i) a
        let y := if dOPC ws = opCOMB then combStage ws x (cinFmt ws (dFMTB ws) (recAt i) b) else x
        outVal ws (recAt i) (sclStage ws y))
    let loss := vals.foldl (fun s c => s + c.loss) 0
    if fmtKind (dFMTD ws) = .mx then
      (let us := fun k => if dRnd ws = .sr then srWord (dW ws 6) (dCTX ws) (i0 + k) else 0
       let (sc, es, fl) := mxPack (fmtFF (dFMTD ws)) (if vals.any (fun c => match c.v with | .i _ => true | _ => false) then dRin ws else dRnd ws) us (vals.map asF)
       ⟨[mxBytes (fmtFF (dFMTD ws)) sc es], vals.foldl (fun a c => orF a c.flg) fl, loss⟩)
    else
      let ps := (vals.zip (List.range n)).map (fun p => packElem ws (i0 + p.2) p.1)
      ⟨ps.map (·.1), ps.foldl (fun a p => orF a p.2) 0, loss⟩

/-- Elements in one group: the least that yields whole items on every stream. -/
def groupLen (ws : List Nat) : Nat :=
  if dOPC ws = opANCREC then 256
  else if [0, 1, 2].any (fun s => fmtKind (dFmt ws s) == .mx) then 32
  else 1

/-- The command needs the record of each anchor block it converts against (R103). -/
def needsRec (ws : List Nat) : Bool :=
  dAnchored ws && dOPC ws != opANCREC && dOPC ws != opFENCE && !dRec ws &&
  ((dConvStreams ws).length != 0 ||
    (dDirect ws && (fmtKind (dFMTA ws) == .int || fmtKind (dFMTD ws) == .int) && (fmtKind (dFMTA ws) == .anch || fmtKind (dFMTD ws) == .anch)) ||
    (dOPC ws == opFILL && ((fmtKind (dFMTD ws) == .anch) != (dCFMT ws == cfANCHORED))))

end Sys2Proof.Machine
end

