-- ==== Sys2Proof/Machine/Chains.lean ====
section
/-!
DEFINITION. The chains (R76 to R111): acceptance of a trigger, descriptor fetch and checks, groups, fetch streams, the processing of elements, stores and frames, segments with their
progress words, re-reads, and the ending of a command.
-/
namespace Sys2Proof.Machine

def Hw.chain (h : Hw) (ch : Nat) : Chain := kvGet Chain.empty h.chains ch
def Hw.setChain (h : Hw) (ch : Nat) (x : Chain) : Hw := { h with chains := kvIns h.chains ch x }

/-- The commands a chain holds. -/
def Chain.all (x : Chain) : List Exec := x.act ++ x.pend.toList
/-- The command in the running place. -/
def Hw.running (h : Hw) (ch : Nat) : Option Exec := (h.chain ch).act.getLast?
/-- Replace a command by its acceptance number. -/
def putExec (h : Hw) (ch : Nat) (e : Exec) : Hw :=
  let x := h.chain ch
  h.setChain ch { x with act := x.act.map (fun y => if y.id = e.id then e else y), pend := x.pend.map (fun y => if y.id = e.id then e else y) }
/-- A command by its acceptance number. -/
def getExec (h : Hw) (ch id : Nat) : Option Exec := (h.chain ch).all.find? (fun e => e.id == id)

/-- The entry of a submission queue a command came from. -/
def Exec.fromQ (e : Exec) : Option (Nat × Nat) := match e.src with | .queue q => some (q, e.sqIdx) | _ => none

/-- The members of the group a command runs in, by chain; a lone command is its own. -/
def members (h : Hw) (ch : Nat) (e : Exec) : List (Nat × Exec) :=
  if e.gid = 0 then [(ch, e)]
  else (List.range 8).filterMap (fun c => ((h.chain (ch / 8 * 8 + c)).act.find? (fun x => x.gid == e.gid)).map (fun x => (ch / 8 * 8 + c, x)))
/-- The sink of a group (R99). -/
def sinkOf (h : Hw) (ch : Nat) (e : Exec) : Nat × Exec := ((members h ch e).find? (fun m => dKD m.2.words != kChain)).getD (ch, e)

/-! ### Shown state -/

/-- The space of a command's context (R257). -/
def exSpace (h : Hw) (e : Exec) : World × Nat := (h.cxWorld (dCTX e.words), h.rf (CXE_CTL (dCTX e.words)) CXE_CTL_ASID)
/-- Streams a command reads: A, B, and the index vector. -/
def usesA (ws : List Nat) : Bool := dOPC ws != opFILL && dOPC ws != opFENCE
def usesB (ws : List Nat) : Bool := dOPC ws == opCOMB
/-- Elements of the next group. -/
def Exec.next (e : Exec) : Nat := min (groupLen e.words) (dCOUNT e.words - e.idx)
/-- Items of a format that hold n elements. -/
def itemsFor (fmt n : Nat) : Nat := (n + fmtItem fmt - 1) / fmtItem fmt

/-- Everything the next group takes has arrived. -/
def haveInputs (e : Exec) : Bool :=
  let ws := e.words
  (!usesA ws || decide (itemsFor (dFMTA ws) e.next ≤ e.bufA.length)) && (!usesB ws || decide (itemsFor (dFMTB ws) e.next ≤ e.bufB.length)) &&
  (dOPC ws != opSCATTER || decide (e.next ≤ e.bufI.length))

/-- The anchor block the next group lies in, within the context's window, and whether its record is ready (R103). -/
def exBlock (e : Exec) : Nat := dABLK e.words + e.idx / 256
def recReady (h : Hw) (e : Exec) : Bool := decide (exBlock e < h.rf (CXE_ARDY (dCTX e.words)) CXE_ARDY_ARDY)
def haveRec (e : Exec) : Bool := !needsRec e.words || (kvFind e.recs (e.idx / 256)).isSome

/-- Credit left for one more frame of a class on a link. -/
def txRoom (h : Hw) (lk tc : Nat) : Bool := decide (((h.link lk).txq.filter (fun f => f.tc == tc)).length < h.cred lk tc)

/-- The chain that a member feeds has place for another item. -/
def downRoom (h : Hw) (ch : Nat) (e : Exec) : Bool :=
  let w := dOp e.words 2
  match (h.chain (ch / 8 * 8 + opCHAIN w)).act.find? (fun x => x.gid == e.gid) with
  | some d => decide ((if opOPB w then d.bufB else d.bufA).length < 256)
  | none => false

/-- The segment that the next element lies in. -/
def Exec.seg (e : Exec) : Nat := e.idx / e.sl

/-- Exact in-place (R95): D has the VA, the STRIDE and the container size of operand A or of operand B. -/
def inPlaceCmd (ws : List Nat) : Bool :=
  dKD ws == kMem && ([0, 1].any (fun s => (if s = 0 then usesA ws else usesB ws || dGS ws) && dKind ws s == kMem && dOp ws s == dOp ws 2 && fmtCont (dFmt ws s) == fmtCont (dFMTD ws)))

/-- The index in D of the item that an element's group begins. -/
def outItem (ws : List Nat) (i : Nat) : Nat := if dOPC ws = opANCREC then i / 256 else i / fmtItem (dFMTD ws)

/-- The first and the last item of D in a segment. -/
def segItems (e : Exec) (seg : Nat) : Nat × Nat := (outItem e.words (seg * e.sl), outItem e.words (min ((seg + 1) * e.sl) (dCOUNT e.words) - 1))

/-- Held-store mode is in force for a segment (R96): an exact in-place command, or a store of it to an SE page. -/
def heldFor (e : Exec) (seg : Nat) : Bool := inPlaceCmd e.words || e.seSegs.contains seg

/-- A segment whose reads are not complete must not store yet (R96): it is held, or may still turn out to be, a SCATTER till its last index is read and any other command till the
pages its stores touch are known. -/
def segHeld (e : Exec) (seg : Nat) : Bool :=
  heldFor e seg || dOPC e.words == opSCATTER || !(e.pgSeg == seg && decide ((segItems e seg).2 < e.pgIt))

/-- CHN_STAT.HELD. -/
def Exec.heldNow (e : Exec) : Bool := e.started && (inPlaceCmd e.words || e.seSegs.contains e.seg || e.outQ.any (fun o => e.seSegs.contains o.seg))

/-- Stores of a command computed and not yet acknowledged, by segment. -/
def Exec.unstored (e : Exec) : List Nat := e.outQ.map (·.seg) ++ (e.accs.filter (fun a => a.stream == 2)).map (·.seg)

/-- Output may proceed (R96, R98, R100): a segment that is held waits in the chain whole, together with the one before it. -/
def outRoom (h : Hw) (ch : Nat) (e : Exec) : Bool :=
  let ws := e.words
  if dKD ws = kMem then decide (e.unstored.length < 64) || (segHeld e e.seg && e.unstored.all (fun k => decide (e.seg ≤ k + 1)))
  else if dKD ws = kLink then decide (e.frame.length < frameCap (dFMTD ws))
  else if dKD ws = kChain then downRoom h ch e
  else true

/-- CHN_STAT.STATE. -/
def execState (h : Hw) (ch : Nat) (e : Exec) : Nat :=
  if e.ending.isSome then 9
  else if !e.checked then 1
  else if !e.pairOk then 2
  else if !e.started then 3
  else if e.stopReq then 8
  else if e.idx ≥ dCOUNT e.words then 4
  else if needsRec e.words && !haveRec e && !recReady h e then 5
  else if !haveInputs e then 6
  else if !outRoom h ch e then 7
  else 4

/-- CHN_GROUP of a command. -/
def groupWord (ws : List Nat) : W32 :=
  let a := if dKA ws = kChain then opCHAIN (dOp ws 0) * 2 ^ 21 + 2 ^ 20 else 0
  let b := if dKB ws = kChain then opCHAIN (dOp ws 1) * 2 ^ 17 + 2 ^ 16 else 0
  let d := if dKD ws = kChain then opCHAIN (dOp ws 2) * 2 ^ 13 + 2 ^ 12 + b2n (opOPB (dOp ws 2)) * 2 ^ 11 else 0
  BitVec.ofNat 32 (a + b + d)

/-- The registers of a chain show the command in its running place, or the last one. -/
def chainSync (h : Hw) (ch : Nat) : Hw :=
  let r := ch / 8
  let c := ch % 8
  let x := h.chain ch
  let h0 := h.wf (CHN_STAT r c) CHN_STAT_PEND (b2n x.pend.isSome)
  match x.act.getLast? with
  | none =>
    if h.rf (CHN_STAT r c) CHN_STAT_STATE = 0 then h0
    else ((((h0.wf (CHN_STAT r c) CHN_STAT_STATE 0).wf (CHN_STAT r c) CHN_STAT_GRP 0).wf (CHN_STAT r c) CHN_STAT_SINK 0).wf (CHN_STAT r c) CHN_STAT_HELD 0)
  | some e =>
    let s0 := (h0.rd (CHN_STAT r c))
    let s1 := fldSet CHN_STAT_STATE (fldSet CHN_STAT_GRP (fldSet CHN_STAT_SINK (fldSet CHN_STAT_HELD s0 (b2n e.heldNow))
      (b2n (e.gid != 0 && dKD e.words != kChain))) (b2n (e.gid != 0))) (execState h0 ch e)
    let h1 := ((h0.wr (CHN_STAT r c) s1).wr (CHN_DESC_LO r c) (BitVec.ofNat 32 (e.descPA / 64 * 64))).wr (CHN_DESC_HI r c) (BitVec.ofNat 32 (e.descPA / 2 ^ 32))
    let h2 := ((h1.wr (CHN_IDX r c) (BitVec.ofNat 32 e.idx)).wf (CHN_CTX r c) CHN_CTX_EPOCH e.epoch)
    if e.checked then
      ((((h2.wf (CHN_CTX r c) CHN_CTX_CTX (dCTX e.words)).wf (CHN_CTX r c) CHN_CTX_QUEUE (dQUEUE e.words)).wr (CHN_GROUP r c) (groupWord e.words)).wr
        (CHN_FLAGS r c) (BitVec.ofNat 32 (b2n e.al * 128 + b2n e.prog.ps * 64 + e.flags % 32))).wr (CHN_ALOSS r c) (BitVec.ofNat 32 (min (2 ^ 32 - 1) e.aloss))
    else h2

/-! ### Acceptance (R76 to R80) -/

/-- A refused trigger (R76, R384). -/
def trefSet (h : Hw) (ch : Nat) : Hw :=
  let h1 := h.sb (CHN_STAT (ch / 8) (ch % 8)) CHN_STAT_TREF
  if h1.rb (CHN_CTL (ch / 8) (ch % 8)) CHN_CTL_TREF_IE then irqFire h1 (rSrc (ch / 8) (8 + ch % 8)) else h1

/-- The CRC register before any byte. -/
def crcInit : Nat := 0xFFFFFFFF

/-- A command as accepted. -/
def execNew (id : Nat) (src : CmdSrc) (world : World) (sqIdx pa epoch : Nat) : Exec :=
  { id := id, src := src, world := world, sqIdx := sqIdx, descPA := pa, epoch := epoch, words := [], checked := false, started := false, pairOk := false,
    sl := 1, idx := 0, base := 0, fetchA := 0, fetchB := 0, fetchI := 0, bufA := [], bufB := [], bufI := [], accs := [], recs := [], outQ := [],
    frame := [], frameIx := 0, flags := 0, al := false, aloss := 0, crc := crcInit, snap := ⟨0, false, false, 0, crcInit⟩, snapLoss := 0, older := [], rereads := [],
    fail := none, failSE := false, failAt := (0, 0), again := none, bounds := [], prog := ⟨0, false, false, 0, crcInit⟩, storedSeg := none, stopReq := false,
    ending := none, pgSeg := 0, pgIt := 0, seSegs := [], seRead := none, trapDue := false, gid := 0, wrote := false, finalW := false, rsA := none, rsB := none, rsTo := 0,
    svc := none, getRsp := false }

/-- A trigger reaches a chain (R76, R78, R384): it is accepted into the running or the pending place, or refused. -/
def chainAccept (h : Hw) (ch : Nat) (src : CmdSrc) (world : World) (pa sqIdx : Nat) : Hw × Bool :=
  let r := ch / 8
  let x := h.chain ch
  if !h.hasChain ch then (h, false)
  else if !(match src with | .timer _ => h.inService r | _ => h.working r) || h.rgnState r != 0 || pa % 64 != 0 || (!x.act.isEmpty && x.pend.isSome) then (trefSet h ch, false)
  else
    let e := execNew (h.seq + 1) src world sqIdx pa (h.epoch r)
    let h1 := { h with seq := h.seq + 1 }.idleLeave r
    let h2 := if x.act.isEmpty then h1.setChain ch { x with act := [e] } else h1.setChain ch { x with pend := some e }
    let h3 := match paLocal pa with
      | some _ => h2
      | none => mRegion h2 r 3 0 pa 64 [] false false (.desc ch e.id)
    (chainSync h3 ch, true)

/-! ### Endings (R100, R108, R111) -/

/-- Elements of D, which are records in an ANCREC, that the first i elements of the command give. -/
def dElems (ws : List Nat) (i : Nat) : Nat := if dOPC ws = opANCREC then (i + 255) / 256 else i

/-- Bytes that n elements of D take in a frame. -/
def dBytes (ws : List Nat) (n : Nat) : Nat := n / fmtItem (dFMTD ws) * fmtCont (dFMTD ws)

/-- Elements of D that have left in frames or, for another destination, all. -/
def sentThrough (e : Exec) (n : Nat) : Bool := dKD e.words != kLink || decide (dElems e.words (min (n * e.sl) (dCOUNT e.words)) ≤ e.frameIx)

/-- What an ending leaves of a frame under way (R98, R108): the elements of completed segments, which are still sent; of a command that is aborted, or whose link is down, nothing. -/
def frameLeft (e : Exec) (en : Ending) : List Byte :=
  if en.status = 2 ∨ en.status = 4 ∨ en.status = 0x19 then []
  else if e.idx ≥ dCOUNT e.words then e.frame
  else e.frame.take (dBytes e.words (dElems e.words (e.seg * e.sl) - e.frameIx))

/-- A computed item stays to be stored after an ending (R96, R108): of a completed segment, or of one that nothing holds back. An ABORT leaves only the stores already requested,
and those that complete a held segment; a store that fails is followed by none. -/
def itemLeft (e : Exec) (en : Ending) (o : OutItem) : Bool :=
  let done := decide ((o.seg + 1) * e.sl ≤ e.idx) || decide (dCOUNT e.words ≤ e.idx)
  if en.stream = 2 ∨ en.status = 4 then false
  else if en.status = 2 then heldFor e o.seg && done
  else done || !heldFor e o.seg

/-- A command stops: reads under way are abandoned, and the boundaries after the first segment that is not stored whole, `lim` or that of an item dropped, write no progress word. -/
def execStop (e : Exec) (en : Ending) (lim : Nat) : Exec :=
  let lost := (e.outQ.filter (fun o => !itemLeft e en o)).map (·.seg) ++ (e.accs.filter (fun a => a.stream == 2 && a.err != 0)).map (·.seg)
  let m := lost.foldl min lim
  let f := frameLeft e en
  let e1 := { e with ending := some en, outQ := e.outQ.filter (itemLeft e en), accs := e.accs.filter (fun a => (a.stream == 2 && a.err == 0) || a.stream == 5), frame := f, fail := none }
  { e1 with bounds := e.bounds.filter (fun b => decide (b.seg ≤ m) && (!f.isEmpty || sentThrough e1 b.seg)) }

/-- No segment is cut short. -/
def noLim : Nat := 2 ^ 40

/-- The command of a chain that waits in PAIR (R99). -/
def waitingIn (h : Hw) (ch : Nat) : Option Exec :=
  match h.running ch with
  | some e => if e.checked && dChained e.words && !e.pairOk && e.ending.isNone then some e else none
  | none => none

/-- The local chains joined to those given by chain-kind operands of waiting members, in either direction (R99). -/
def pairClosure : Nat → Hw → Nat → List Nat → List Nat
  | 0, _, _, cs => cs
  | n + 1, h, r, cs =>
    let named := cs.flatMap (fun c => match waitingIn h (8 * r + c) with | some e => dNames e.words | none => [])
    let naming := (List.range 8).filter (fun c => match waitingIn h (8 * r + c) with | some e => (dNames e.words).any cs.contains | none => false)
    pairClosure n h r ((named ++ naming).foldl (fun l c => if l.contains c then l else l ++ [c]) cs)

/-- The waiting members joined to a chain, in order. -/
def waitingWith (h : Hw) (ch : Nat) : List (Nat × Exec) :=
  let r := ch / 8
  (pairClosure 8 h r [ch % 8]).filterMap (fun c => (waitingIn h (8 * r + c)).map (fun x => (8 * r + c, x)))

/-- The members that end with a command: those of its group, or the waiting ones joined to it (R99, R100, R108). -/
def endsWith (h : Hw) (ch : Nat) (e : Exec) : List (Nat × Exec) :=
  match waitingIn h ch with
  | some x => if x.id = e.id then waitingWith h ch else members h ch e
  | none => members h ch e

/-- End a command, and with it its group (R100): the others carry PARTNER, or the same status when it is OK or DISCARDED. `lim` is the segment of the command that is cut short. -/
def endGroupAt (h : Hw) (ch : Nat) (e : Exec) (en : Ending) (lim : Nat) : Hw :=
  (endsWith h ch e).foldl (fun h m =>
    if m.2.ending.isSome then h
    else putExec h m.1 (if m.1 = ch then execStop m.2 en lim else execStop m.2 (if en.status = 0 ∨ en.status = 4 then ⟨en.status, 0, 0, 0⟩ else ⟨0x1C, 0, 0, 0⟩) noLim)) h
/-- End a command with no segment of it cut short. -/
def endGroup (h : Hw) (ch : Nat) (e : Exec) (en : Ending) : Hw := endGroupAt h ch e en noLim

/-- A store, or the sending of a frame, of segment `seg` fails (R105, R108, R111): it ends the command; of one that is ending STOPPED, ABORTED or TRAPPED it gives the status, and of any
other it leaves the status alone. No boundary after that segment writes a progress word. -/
def outFail (h : Hw) (ch : Nat) (e : Exec) (en : Ending) (seg : Nat) : Hw :=
  match e.ending with
  | none => endGroupAt h ch e en seg
  | some old =>
    let e1 := if en.stream = 2 then { e with outQ := [] } else e
    putExec h ch (execStop e1 (if old.status = 1 ∨ old.status = 2 ∨ old.status = 3 then en else old) (e.unstored.foldl min seg))

/-! ### Check and grouping (R90, R99, R109) -/

/-- Set a command up to run from a progress word when `res` says that it is resumed, or from element 0 (R109). -/
def execInit (e : Exec) (sl prog : Nat) (res : Bool) : Exec :=
  let seg := if res then bits prog 55 32 else 0
  let i := seg * sl
  let fl := if res then bits prog 60 56 else 0
  let al := res && bit prog 62
  let crc := if res then prog % 2 ^ 32 else crcInit
  let b : Bound := ⟨seg, false, al, fl, crc⟩
  { e with sl := sl, idx := i, base := i, fetchA := i / fmtItem (dFMTA e.words), fetchB := i / fmtItem (dFMTB e.words), fetchI := i, flags := fl, al := al, crc := crc,
           snap := b, prog := b, frameIx := dElems e.words i }

/-- Form the group of a member that waits in PAIR, when every partner is checked. -/
def tryPair (h : Hw) (ch : Nat) (e : Exec) : Option Hw :=
  let r := ch / 8
  if e.pairOk || !e.checked || e.ending.isSome then none
  else
    let cs := pairClosure 8 h r [ch % 8]
    let es := (waitingWith h ch).map (fun m => (m.1 % 8, m.2))
    if es.length ≠ cs.length then none
    else
      let failAll := fun (sub : Nat) => es.foldl (fun h m => putExec h (8 * r + m.1) (execStop m.2 ⟨0x10, 4, sub, m.2.descPA⟩ noLim)) h
      if !groupOk (es.map (fun m => (m.1, m.2.words))) then some (failAll 0xE)
      else
        let sl := es.foldl (fun m x => max m (dSL x.2.words)) 1
        let sink := ((es.find? (fun m => dKD m.2.words != kChain)).getD (0, e)).2
        let prog := dW sink.words 7
        if dRESUME sink.words && !resumeOk prog (dCOUNT sink.words) sl then some (failAll 0xF)
        else
          let g := es.foldl (fun m x => max m x.2.id) 0
          some (es.foldl (fun h m => putExec h (8 * r + m.1) { execInit m.2 sl prog (dRESUME m.2.words) with pairOk := true, gid := g }) h)

/-- An earlier command of the same source has not reported (R102). -/
def srcBusy (h : Hw) (e : Exec) : Bool :=
  h.chains.any (fun c => c.2.all.any (fun x => x.src == e.src && decide (x.id < e.id))) ||
  h.queues.any (fun q => q.2.joins.any (fun j => decide (j.id < e.id) &&
    (match e.src with
     | .queue k => (match j.fromQ with | some (k', _) => k' == k | none => false)
     | .frond f => (match j.recd with | some rc => rc.src == 1 && rc.sidx == f | none => false)
     | .timer t => (match j.recd with | some rc => rc.src == 3 && rc.sidx == t | none => false))))

/-- The earlier commands of the chain have computed every element they will store, and every store is acknowledged (R101). -/
def prevStored (h : Hw) (ch : Nat) (e : Exec) : Bool :=
  (h.chain ch).act.all (fun x => decide (e.id ≤ x.id) || dOPC x.words == opFENCE ||
    ((x.ending.isSome || decide (dCOUNT x.words ≤ x.idx)) && x.unstored.isEmpty))

/-- FPBAR and ORD let a command start (R101, R102). -/
def barrierOk (h : Hw) (ch : Nat) (e : Exec) : Bool := (!dFPBAR e.words || !srcBusy h e) && (!dORD e.words || prevStored h ch e)

/-- The members stand in their running places. -/
def inPlace (h : Hw) (m : Nat × Exec) : Bool := match h.running m.1 with | some x => x.id == m.2.id | none => false

/-- Start a checked command, with its whole group (R99, R101, R102); a FENCE ends as soon as it may start (R84). -/
def tryStart (h : Hw) (ch : Nat) (e : Exec) : Option Hw :=
  if !e.checked || !e.pairOk || e.started || e.ending.isSome then none
  else
    let ms := members h ch e
    if ms.all (fun m => barrierOk h m.1 m.2 && inPlace h m) then
      (if dOPC e.words = opFENCE then some (putExec h ch { e with started := true, ending := some ⟨0, 0, 0, 0⟩ })
       else some (ms.foldl (fun h m => putExec h m.1 { m.2 with started := true }) h))
    else none

/-- A STOP or the like that is due before the first fetch (R108). -/
def tryStop0 (h : Hw) (ch : Nat) (e : Exec) : Option Hw :=
  if e.checked && !e.started && e.stopReq && e.ending.isNone then some (endGroup h ch e ⟨1, 0, 0, 0⟩) else none

/-! ### Addresses and translation (R93, R94, R273) -/

/-- The virtual address of item `it` of a memory stream s that is not indexed. -/
def itemVA (ws : List Nat) (s it : Nat) : Nat :=
  let w := dOp ws s
  let fmt := if s = 1 ∧ dGS ws then 0xC else dFmt ws s
  let step : Int := if fmtKind fmt = .mx then fmtCont fmt else opSTRIDE w * fmtCont fmt
  (((opVA w : Int) + it * step) % 2 ^ 48).toNat

/-- An indexed element's address (R84). -/
def indexVA (ws : List Nat) (s ix : Nat) : Nat := (opVA (dOp ws s) + ix * fmtCont (dFmt ws s)) % 2 ^ 48

/-- What the micro-buffer answers for a range of bytes: physical pieces in order with the page's SE, a page that is not there, one whose mark is due (R271), or a refused one. -/
inductive XRes where
  | ok (pieces : List (Nat × Nat)) (se : Bool) (used : List TcEnt)
  | miss (va : Nat)
  | mark (va : Nat)
  | perm (e : TcEnt) (va : Nat)
deriving DecidableEq, Repr

/-- Translate the part of a range in one page. -/
def xlatePage (h : Hw) (ub : List TcEnt) (w : World) (asid va : Nat) (write : Bool) : XRes :=
  match ubFind ub w asid va with
  | none => .miss va
  | some e =>
    if !entPermits h e write then .perm e va
    else if !e.aBit va || (write && !e.dBit va) then .mark va
    else .ok [(e.phys va, 0)] e.se [e]

/-- An operand of a command of the collective service lies in the mat areas of the context, at a local offset. -/
def physOf (e : Exec) (s : Nat) : Bool := match e.svc with | some c => c.phys.contains s | none => false

/-- Translate a range of operand s that touches at most two pages. The mat areas of a context (CXE_BUF, CXE_AW, CXE_XW) are named by local offsets, and the service's commands reach them
so (DESIGN CHOICE, log 55). -/
def xlate (h : Hw) (ch : Nat) (e : Exec) (s va len : Nat) (write : Bool) : XRes :=
  if physOf e s then .ok [(2 ^ 52 + va, len)] false [] else
  let (w, asid) := exSpace h e
  let ub := (h.chain ch).ubuf
  let n1 := min len (4096 - va % 4096)
  match xlatePage h ub w asid va write with
  | .ok ps se us =>
    let p1 := (ps.headD (0, 0)).1
    if n1 = len then .ok [(p1, len)] se us
    else
      (match xlatePage h ub w asid ((va + n1) % 2 ^ 48) write with
       | .ok ps2 se2 us2 => .ok [(p1, n1), ((ps2.headD (0, 0)).1, len - n1)] (se || se2) (us ++ us2)
       | x => x)
  | x => x

/-- Move the used entries to the front of the micro-buffer. -/
def ubTouch (h : Hw) (ch : Nat) (us : List TcEnt) : Hw := h.setChain ch { h.chain ch with ubuf := us.foldl ubPut (h.chain ch).ubuf }

/-- Ask for the first outstanding piece of an access when it lies in licensee memory; a local piece waits for its bank. -/
def pieceIssue (h : Hw) (ch : Nat) (id : Nat) (a : Acc) : Hw :=
  match a.pieces with
  | (pa, n) :: _ =>
    (match paLocal pa with
     | some _ => h
     | none =>
       let (w, asid) := match getExec h ch id with | some e => exSpace h e | none => (.keeper, 0)
       let use : MUse := .item ch id a.stream a.item w asid (if pa % 4096 = a.va % 4096 then a.va else (a.va / 4096 + 1) * 4096 % 2 ^ 48)
       if a.stream = 2 then mRegion h (ch / 8) 4 1 pa n (a.data.take n) a.se false use else mRegion h (ch / 8) 4 0 pa n [] a.se false use)
  | [] => h

/-- The chain's stream letter of CHN_ERR for a stream code here: 0 A, 1 B, 2 D, 3 index, 5 progress, 6 anchor window. -/
def permFault (h : Hw) (ch : Nat) (e : Exec) (s : Nat) (t : TcEnt) (va : Nat) (write : Bool) : Hw :=
  let (w, asid) := exSpace h e
  endGroup (xltFault h (ch / 8) 2 t.level t.ea false write ch w asid va) ch e ⟨0x12, s, 0, va⟩

/-- Items of a stream in all. -/
def itemsOf (ws : List Nat) (s : Nat) : Nat := itemsFor (if s = 3 then 0xC else dFmt ws s) (dCOUNT ws)

/-- The next item a fetch stream (0 A, 1 B, 3 index) asks for, with its address; none when nothing is to be asked for now (R78, R94). -/
def nextFetch (e : Exec) (s : Nat) : Option (Nat × Nat) :=
  let ws := e.words
  if !e.started || e.ending.isSome || e.fail.isSome then none
  else if s = 0 then
    (if !usesA ws || dKA ws != kMem || decide (e.fetchA ≥ itemsOf ws 0) then none
     else if dOPC ws = opGATHER then
       (match e.bufI with | ix :: _ => some (e.fetchA, indexVA ws 0 (leNat ix)) | [] => none)
     else some (e.fetchA, itemVA ws 0 e.fetchA))
  else if s = 1 then
    (if !usesB ws || dKB ws != kMem || decide (e.fetchB ≥ itemsOf ws 1) then none else some (e.fetchB, itemVA ws 1 e.fetchB))
  else
    (if !dGS ws || decide (e.fetchI ≥ dCOUNT ws) then none else some (e.fetchI, itemVA ws 1 e.fetchI))

/-- Elements pass the stages in the order of the commands: every earlier command of the chain has processed its last one or is ending (R78, R101). -/
def turnOf (h : Hw) (ch : Nat) (e : Exec) : Bool :=
  (h.chain ch).act.all (fun x => decide (e.id ≤ x.id) || x.ending.isSome || decide (dCOUNT x.words ≤ x.idx) || dOPC x.words == opFENCE)

/-- Bytes a stream has asked for beyond the element that convert-in is taking (R94); an ANCREC takes its elements one by one as they arrive. -/
def aheadBytes (e : Exec) (s it : Nat) : Nat :=
  let ws := e.words
  let fmt := if s = 3 then 0xC else dFmt ws s
  let cur := (if dOPC ws = opANCREC then e.idx / fmtItem fmt + e.bufA.length else e.idx / fmtItem fmt)
  (it - cur) * fmtCont fmt

/-- Convert-in needs this item of the stream now (R94): it is the next of the group under way, and the command's turn; an index of a GATHER is needed when its element is. -/
def needsNow (h : Hw) (ch : Nat) (e : Exec) (s it : Nat) : Bool :=
  let ws := e.words
  let fmt := if s = 3 then 0xC else dFmt ws s
  let have_ := if s = 0 then e.bufA.length else if s = 1 then e.bufB.length else e.bufI.length
  turnOf h ch e && e.accs.all (fun a => a.stream != s) &&
  (if s = 3 && dOPC ws == opGATHER then it == e.idx && e.bufA.isEmpty else it == e.idx / fmtItem fmt + have_ && decide (have_ < itemsFor fmt e.next))

/-- Start the next access of a fetch stream when its translation stands in the micro-buffer. A run of unit stride is read up to the end of a 64-byte beat. -/
def tryFetch (h : Hw) (ch : Nat) (e : Exec) (s : Nat) : Option Hw :=
  match nextFetch e s with
  | none => none
  | some (it, va) =>
    let ws := e.words
    let fmt := if s = 3 then 0xC else dFmt ws s
    let cont := fmtCont fmt
    let ahead := aheadBytes e s it
    if ahead ≥ 1024 then none
    else match xlate h ch e s va cont false with
      | .miss _ => none
      | .mark _ => none
      | .perm t v => some (permFault h ch e s t v false)
      | .ok ps se us =>
        if se && !needsNow h ch e s it then none
        else
          let unit := fmtKind fmt != FmtKind.mx && !(s == 0 && dOPC ws == opGATHER) && opSTRIDE (dOp ws (if s = 3 then 1 else s)) == 1
          let n := if unit && !se then max 1 (min (min (itemsOf ws s - it) ((64 - va % 64) / cont)) ((1024 - ahead) / cont)) else 1
          let pieces := if n = 1 then ps else [((ps.headD (0, 0)).1, n * cont)]
          let seg := it * fmtItem fmt / e.sl
          let a : Acc := ⟨s, it, va, pieces, [], [], 0, se, seg, 0⟩
          let e1 := { e with accs := e.accs ++ [a], fetchA := if s = 0 then it + n else e.fetchA, fetchB := if s = 1 then it + n else e.fetchB,
                             fetchI := if s = 3 then it + n else e.fetchI, bufI := if s = 0 ∧ dOPC ws = opGATHER then e.bufI.drop 1 else e.bufI,
                             seRead := if se then some seg else e.seRead }
          some (pieceIssue (ubTouch (putExec h ch e1) ch us) ch e.id a)

/-- Read the record of the next anchor block once it is ready (R103). -/
def tryRec (h : Hw) (ch : Nat) (e : Exec) : Option Hw :=
  if e.started && e.ending.isNone && e.fail.isNone && decide (e.idx < dCOUNT e.words) && !haveRec e && recReady h e && e.accs.all (fun a => a.stream != 6) then
    (let pa := 2 ^ 52 + h.rf (CXE_AW (dCTX e.words)) CXE_AW_AWBASE * 64 + 2 * exBlock e
     let a : Acc := ⟨6, e.idx / 256, pa, [(pa, 2)], [], [], 0, false, e.idx / e.sl, 0⟩
     some (putExec h ch { e with accs := e.accs ++ [a] }))
  else none

/-! ### Arrival (R107) -/

/-- Split bytes into items. -/
def chop : Nat → Nat → List Byte → List (List Byte)
  | 0, _, _ => []
  | n + 1, k, bs => bs.take k :: chop n k (bs.drop k)

/-- The place among a chain's three masters of R47 of a stream: fetch B takes operand B, the index vector and the anchor records (R103), the store master D. -/
def streamIx (s : Nat) : Nat := if s = 1 ∨ s = 3 ∨ s = 6 then 1 else if s = 2 ∨ s = 5 then 2 else 0

/-- Take the oldest complete access of a stream into the buffers, or note its failure when its segment is the present one. -/
def popAcc (ch : Nat) (e : Exec) (s : Nat) : Option Exec :=
  match e.accs.find? (fun a => a.stream == s) with
  | none => none
  | some a =>
    if !a.pieces.isEmpty then none
    else
      let rest := e.accs.erase a
      if a.err ≠ 0 then
        (if a.seg ≤ e.idx / e.sl then
          some { e with accs := rest, fail := if e.fail.isSome then e.fail else some ⟨a.err, s, 0, a.va⟩, failSE := if e.fail.isSome then e.failSE else a.se || a.err == 0x15,
                        failAt := if e.fail.isSome then e.failAt else (3 * (ch % 8) + streamIx s, a.badAt) }
         else none)
      else
        let fmt := if s = 3 then 0xC else dFmt e.words s
        let items := chop (a.got.length / fmtCont fmt) (fmtCont fmt) a.got
        some (if s = 0 then { e with accs := rest, bufA := e.bufA ++ items }
              else if s = 1 then { e with accs := rest, bufB := e.bufB ++ items }
              else if s = 3 then { e with accs := rest, bufI := e.bufI ++ items }
              else { e with accs := rest, recs := kvIns [] a.item (leNat a.got) })

/-- Take what has arrived. -/
def tryPop (h : Hw) (ch : Nat) (e : Exec) : Option Hw := ([0, 1, 3, 6].findSome? (popAcc ch e)).map (putExec h ch)

/-- The store of a command whose beat was discarded (R25). -/
def lostStore (e : Exec) : Option Acc := e.accs.find? (fun a => a.stream == 2 && a.err != 0)

/-- Segment `seg` cannot be read again (R94, R107): it has been once, or a member of the group has read from an SE page in it. -/
def noReread (h : Hw) (ch : Nat) (e : Exec) (seg : Nat) : Bool :=
  (members h ch e).any (fun m => m.2.rereads.contains seg || (match m.2.seRead with | some k => decide (seg ≤ k) | none => false))

/-- A failure that is not re-read ends the command (R107): a page with side effects, a refusal by a window, or a second failure of the segment, which the log names. That a failure of
another stream ends it too, when the segment has read from an SE page, is DEDUCED from "never made from an SE page" (R94; log 37). -/
def tryFail (h : Hw) (ch : Nat) (e : Exec) : Option Hw :=
  if e.ending.isSome then none
  else match e.fail with
  | some en =>
    if e.failSE || noReread h ch e e.seg then some (endGroup (if e.rereads.contains e.seg then rgnLog h (ch / 8) 2 e.failAt.1 e.failAt.2 else h) ch e en) else none
  | none =>
    match lostStore e with
    | some a =>
      if a.se || noReread h ch e a.seg then
        some (endGroupAt (if e.rereads.contains a.seg then rgnLog h (ch / 8) 2 (3 * (ch % 8) + 2) a.badAt else h) ch e ⟨a.err, 2, 0, a.va⟩ a.seg)
      else none
    | none => none

/-- The local offset of the word that failed: the first marked one of the piece, else its first (R432). -/
def badWord (h : Hw) (pa n : Nat) : Nat :=
  match paLocal pa with
  | some off => ((wordsOf off n).find? (isMarked h)).getD (off / 8 * 8)
  | none => 0

/-- The answer to the outstanding piece of an access: data, or an error status. -/
def accArrive (h : Hw) (ch id s item : Nat) (data : List Byte) (err : Nat) : Hw :=
  match getExec h ch id with
  | none => h
  | some e =>
    match e.accs.find? (fun a => a.stream == s && a.item == item && !a.pieces.isEmpty) with
    | none => h
    | some a =>
      let n := (a.pieces.headD (0, 0)).2
      let a1 := if err ≠ 0 then { a with pieces := [], err := err, badAt := badWord h (a.pieces.headD (0, 0)).1 n } else { a with pieces := a.pieces.drop 1, got := a.got ++ data.take n, data := a.data.drop n }
      if a.stream = 2 ∨ a.stream = 5 then
        (if err ≠ 0 then
          (let e1 := { e with accs := e.accs.erase a }
           outFail (putExec h ch e1) ch e1 ⟨err, a.stream, 0, a.va⟩ (if a.stream = 2 then a.seg else noLim))
         else if a1.pieces.isEmpty then
           putExec h ch { e with
             accs := e.accs.erase a,
             storedSeg := if a.stream = 2 then some (match e.storedSeg with | some m => max m a.seg | none => a.seg) else e.storedSeg }
         else pieceIssue (putExec h ch { e with accs := e.accs.map (fun b => if b = a then a1 else b) }) ch id a1)
      else
        let h1 := putExec h ch { e with accs := e.accs.map (fun b => if b = a then a1 else b) }
        if err = 0 ∧ a1.pieces.isEmpty = false then pieceIssue h1 ch id a1 else h1

/-! ### Stores (R94 to R96) -/

/-- A beat of a store has been discarded for its sideband parity (R25): the segment is read again; of a command that is ending, the store has failed. -/
def accLost (h : Hw) (ch id item : Nat) : Hw :=
  match getExec h ch id with
  | none => h
  | some e =>
    match e.accs.find? (fun a => a.stream == 2 && a.item == item && !a.pieces.isEmpty) with
    | none => h
    | some a =>
      let a1 := { a with pieces := [], err := 0x16, badAt := badWord h (a.pieces.headD (0, 0)).1 (a.pieces.headD (0, 0)).2 }
      let e1 := { e with accs := e.accs.map (fun b => if b = a then a1 else b) }
      if e.ending.isSome then outFail (putExec h ch e1) ch e1 ⟨0x16, 2, 0, a.va⟩ a.seg else putExec h ch e1

/-- Whether the page or pages of an item of D have side effects; none while the micro-buffer does not hold them. -/
def pageKnown (h : Hw) (ch : Nat) (e : Exec) (va : Nat) : Option Bool :=
  if physOf e 2 then some false else
  let (w, asid) := exSpace h e
  let ub := (h.chain ch).ubuf
  match ubFind ub w asid va, ubFind ub w asid ((va + fmtCont (dFMTD e.words) - 1) % 2 ^ 48) with
  | some t, some u => some (t.se || u.se)
  | _, _ => none

/-- Look through n items of D from `it` on: the first whose page is not known, and whether one before it has side effects. -/
def pagesScan (h : Hw) (ch : Nat) (e : Exec) : Nat → Nat → Nat × Bool
  | 0, it => (it, false)
  | n + 1, it =>
    match pageKnown h ch e (itemVA e.words 2 it) with
    | none => (it, false)
    | some true => (it, true)
    | some false => pagesScan h ch e n (it + 1)

/-- Segments of a list of the last 66. -/
def recentSegs (seg : Nat) (l : List Nat) : List Nat := seg :: l.filter (fun k => k != seg && decide (seg ≤ k + 66))

/-- Learn whether a store of the present segment meets an SE page (R96). -/
def tryPages (h : Hw) (ch : Nat) (e : Exec) : Option Hw :=
  let seg := e.seg
  if !e.started || e.ending.isSome || dKD e.words != kMem || dOPC e.words == opSCATTER || heldFor e seg || decide (dCOUNT e.words ≤ e.idx) then none
  else
    let (a, b) := segItems e seg
    let it0 := if e.pgSeg = seg then e.pgIt else a
    let (it, se) := pagesScan h ch e (b + 1 - it0) it0
    if se then some (putExec h ch { e with pgSeg := seg, pgIt := it, seSegs := recentSegs seg e.seSegs })
    else if e.pgSeg = seg ∧ e.pgIt = it then none
    else some (putExec h ch { e with pgSeg := seg, pgIt := it })

/-- The items of a segment that an ending leaves incomplete are dropped: it turns out to be held (R96). -/
def cutSeg (e : Exec) (seg : Nat) : Exec := { e with outQ := e.outQ.filter (fun x => x.seg != seg), bounds := e.bounds.filter (fun b => decide (b.seg ≤ seg)) }

/-- Request the store of the oldest computed item of the oldest command that has one. -/
def tryStore (h : Hw) (ch : Nat) (e : Exec) : Option Hw :=
  match e.outQ with
  | [] => none
  | o :: rest =>
    let complete := decide ((o.seg + 1) * e.sl ≤ e.idx) || decide (dCOUNT e.words ≤ e.idx)
    if (h.chain ch).act.any (fun x => decide (x.id < e.id) && !x.outQ.isEmpty) || (!complete && e.ending.isNone && segHeld e o.seg) then none
    else match xlate h ch e 2 o.va o.data.length true with
      | .miss _ => none
      | .mark _ => none
      | .perm t v =>
        let (w, asid) := exSpace h e
        some (outFail (xltFault h (ch / 8) 2 t.level t.ea false true ch w asid v) ch e ⟨0x12, 2, 0, v⟩ o.seg)
      | .ok ps se us =>
        if se && !e.seSegs.contains o.seg then
          (let e1 := { e with seSegs := recentSegs o.seg e.seSegs }
           some (putExec h ch (if complete || e.ending.isNone then e1 else cutSeg e1 o.seg)))
        else if se && e.accs.any (fun a => a.stream == 2) then none
        else
          let a : Acc := ⟨2, o.item, o.va, ps, o.data, [], 0, se, o.seg, 0⟩
          some (pieceIssue (ubTouch (putExec h ch { e with outQ := rest, accs := e.accs ++ [a] }) ch us) ch e.id a)

/-! ### Link destinations and inputs (R97, R98, R217) -/

/-- The peer's READY for the step a command sends has come, where its context runs a request (R176); the service issues its own commands only then. -/
def stepOpen (h : Hw) (e : Exec) : Bool :=
  let n := dCTX e.words
  let w := dOp e.words 2
  e.svc.isSome || h.cxState n != csRun || (h.ctx n).run.isNone || opSTEP w == 0xFFF ||
  (h.ctx n).ready.any (fun x => x.1 == opLINK w && x.2.1 == opSTEP w && x.2.2 == h.rf (CXE_RUN n) CXE_RUN_OPID)

/-- OFFSET of the next frame (R98): the index of its first element, or for a PUT its byte offset in the window (R176). -/
def frameOffset (e : Exec) : Nat :=
  match e.svc with
  | some c => (match c.put with | some b => b + dBytes e.words e.frameIx | none => e.frameIx)
  | none => e.frameIx

/-- Send a full frame, or the last one, when the class has credit (R98): the last of a command that stops early carries what its completed segments have left. -/
def trySend (h : Hw) (ch : Nat) (e : Exec) : Option Hw :=
  let ws := e.words
  if !e.started || dKD ws != kLink || e.frame.isEmpty || !stepOpen h e then none
  else
    let w := dOp ws 2
    let cap := frameCap (dFMTD ws)
    let last := (decide (dCOUNT ws ≤ e.idx) || e.ending.isSome) && decide (e.frame.length ≤ cap)
    if (decide (e.frame.length ≥ cap) || last) && txRoom h (opLINK w) (opTC w) then
      (let bs := e.frame.take cap
       let f : Frame := { Frame.blank with
         typ := if fmtKind (dFMTD ws) = .ancrec then ftAREC else ftDATA, ctx := dCTX ws, step := opSTEP w, offset := frameOffset e % 2 ^ 32, fmt := dFMTD ws,
         len := bs.length, tc := opTC w, lst := last, payload := bs }
       some (putExec (linkSend h (opLINK w) f) ch { e with frame := e.frame.drop cap, frameIx := e.frameIx + bs.length / fmtCont (dFMTD ws) * fmtItem (dFMTD ws) }))
    else none

/-- End of the present segment, in elements. -/
def segEnd (e : Exec) : Nat := min ((e.seg + 1) * e.sl) (dCOUNT e.words)

/-- The next element a link input expects, apart from a resend. -/
def linkExp (e : Exec) (s : Nat) : Nat :=
  let fmt := dFmt e.words s
  match (if s = 0 then e.rsA else e.rsB) with
  | some held => e.rsTo + held.length * fmtItem fmt
  | none => e.idx + (if s = 0 then e.bufA else e.bufB).length * fmtItem fmt

/-- A stream is a link input that still expects frames of this link, context and step. -/
def linkWaits (e : Exec) (lk : Nat) (f : Frame) (s : Nat) : Bool :=
  let ws := e.words
  e.checked && e.ending.isNone && (if s = 0 then usesA ws else usesB ws) && dKind ws s == kLink && opLINK (dOp ws s) == lk && opSTEP (dOp ws s) == f.step && dCTX ws == f.ctx &&
  (decide (linkExp e s < dCOUNT ws) || (if s = 0 then e.rsA else e.rsB).isSome)

/-- Some chain input of the region waits for a frame. -/
def chainWaits (h : Hw) (lk : Nat) (f : Frame) : Bool :=
  (List.range 8).any (fun c => (h.chain (8 * (lk / 32) + c)).all.any (fun e => linkWaits e lk f 0 || linkWaits e lk f 1))

/-- Give the items of a frame to a link input (R97). -/
def linkTake (h : Hw) (ch : Nat) (e : Exec) (s : Nat) (f : Frame) : Hw :=
  let fmt := dFmt e.words s
  let items := chop (min f.len 256 / fmtCont fmt) (fmtCont fmt) f.payload
  if f.offset ≠ linkExp e s % 2 ^ 32 then endGroup h ch e ⟨0x18, 7, 0, 0⟩
  else putExec h ch (if s = 0 then { e with bufA := e.bufA ++ items } else { e with bufB := e.bufB ++ items })

/-- Give the items of a resent frame to a link input (R217): a frame may begin before the first item asked for and reach beyond the last, and gives the ones between. -/
def resendTake (h : Hw) (ch : Nat) (e : Exec) (s : Nat) (f : Frame) : Hw :=
  let fmt := dFmt e.words s
  let buf := if s = 0 then e.bufA else e.bufB
  match (if s = 0 then e.rsA else e.rsB) with
  | none => h
  | some held =>
    let items := chop (min f.len 256 / fmtCont fmt) (fmtCont fmt) f.payload
    let exp := e.idx + buf.length * fmtItem fmt
    let skip := (exp - f.offset) / fmtItem fmt
    if f.offset > exp ∨ (exp - f.offset) % fmtItem fmt ≠ 0 ∨ items.length < skip then endGroup h ch e ⟨0x18, 7, 0, 0⟩
    else
      let want := (e.rsTo - e.idx) / fmtItem fmt
      let b := buf ++ items.drop skip
      let done := decide (want ≤ b.length)
      let b1 := if done then b.take want ++ held else b
      let r := if done then none else some held
      putExec h ch (if s = 0 then { e with bufA := b1, rsA := r } else { e with bufB := b1, rsB := r })

/-- A member of the group has lost a beat and waits to read its segment again (R25, R107). -/
def groupFails (h : Hw) (ch : Nat) (e : Exec) : Bool := (members h ch e).any (fun m => m.2.fail.isSome || (lostStore m.2).isSome)

/-- A link input takes another frame (R213): it lacks items of the next group, or its segment is to be read again and not all of it has come. -/
def takeRoom (h : Hw) (ch : Nat) (e : Exec) (s : Nat) : Bool :=
  decide ((if s = 0 then e.bufA else e.bufB).length < itemsFor (dFmt e.words s) e.next) || (groupFails h ch e && decide (linkExp e s < segEnd e))

/-- No command accepted before this one still expects frames of the same link, context and step. -/
def firstTaker (h : Hw) (ch : Nat) (e : Exec) (lk : Nat) (f : Frame) : Bool :=
  (List.range 8).all (fun c => (h.chain (ch / 8 * 8 + c)).all.all (fun x => decide (e.id ≤ x.id) || !(linkWaits x lk f 0 || linkWaits x lk f 1)))

/-- A chain-input post has had the bytes of a frame; a full one is done (R175). -/
def postTook (h : Hw) (lk : Nat) (f : Frame) : Hw :=
  let x := h.link lk
  match postOf x f with
  | some p =>
    let p1 : Post := { p with got := p.got + min f.len 256 }
    h.setLink lk { x with posts := if p1.got < p1.len then x.posts.map (fun y => if y = p then p1 else y) else x.posts.erase p }
  | none => h

/-! ### Landing (R175, R176) -/

/-- Bytes of the exposure window (R176). -/
def xwBytes (h : Hw) (n : Nat) : Nat := h.rf (CXE_XWSZ n) CXE_XWSZ_XSIZE * 4096
/-- Its local offset. -/
def xwBase (h : Hw) (n : Nat) : Nat := h.rf (CXE_XW n) CXE_XW_XBASE * 4096

/-- A frame for the standing post of a valid context with an exposure window (R176). -/
def isPut (h : Hw) (lk : Nat) (f : Frame) : Bool :=
  f.step == 0xFFF && f.ctx / 1024 == lk / 32 && h.hasCtx f.ctx && h.rb (CXE_CTL f.ctx) CXE_CTL_V && h.rf (CXE_XWSZ f.ctx) CXE_XWSZ_XSIZE != 0

/-- A data frame of a PUT (R176): stored when it lies wholly in the window; at the first that does not, ABORT is sent once and the rest of that PUT is dropped; the last frame of a
PUT stored whole returns DONE. The OPID the peer answers with is the PUT's, which no frame of it carries: a free value (R7). -/
def putFrame (h : Hw) (lk : Nat) (f : Frame) : Hw :=
  let n := f.ctx
  let x := h.ctx n
  let len := min f.len 256
  if x.putBad.contains lk then (if f.lst then h.setCtx n { x with putBad := x.putBad.filter (· != lk) } else h)
  else if f.offset + len ≤ xwBytes h n then
    (let (h1, _) := memWrite h (.rxWriter lk) (xwBase h n + f.offset) (f.payload.take len) .good []
     if f.lst then
       (let (u, h2) := h1.fresh
        linkSend h2 lk (tokenFrame n 0 5 (u.toNat % 2 ^ 16) 2 []))
     else h1)
  else
    let (u, h1) := h.fresh
    let h2 := linkSend h1 lk (tokenFrame n 0 3 (u.toNat % 2 ^ 16) 2 (leBytes 2 0x20 ++ leBytes 2 (h.cxRank n)))
    if f.lst then h2 else h2.setCtx n { (h2.ctx n) with putBad := lk :: x.putBad }

/-- Land bytes in the landing posts of a context and step, in post order (R175): the posts left, and the bytes no post takes. -/
def landPosts (h : Hw) (lk n step : Nat) : List Post → List Byte → Hw × List Post × List Byte
  | [], bs => (h, [], bs)
  | p :: ps, bs =>
    if p.ctx == n && p.step == step && !p.chain && bs.length != 0 then
      let take := bs.take (p.len - p.got)
      let (h1, _) := if take.length = 0 then (h, 0) else memWrite h (.rxWriter lk) (p.base + p.got) take .good []
      let (h2, ps', rest) := landPosts h1 lk n step ps (bs.drop take.length)
      (h2, if p.got + take.length < p.len then { p with got := p.got + take.length } :: ps' else ps', rest)
    else
      let (h2, ps', rest) := landPosts h lk n step ps bs
      (h2, p :: ps', rest)

/-- A frame lands in memory: in the window of a PUT, or in the landing range of its post. -/
def lands (h : Hw) (lk : Nat) (f : Frame) : Bool := isPut h lk f || (match postOf (h.link lk) f with | some p => !p.chain | none => false)

/-- Land one frame; bytes that no post takes leave a stray. -/
def landFrame (h : Hw) (lk : Nat) (f : Frame) : Hw :=
  if isPut h lk f then putFrame h lk f
  else
    let (h1, ps, rest) := landPosts h lk f.ctx f.step (h.link lk).posts (f.payload.take (min f.len 256))
    let x := h1.link lk
    h1.setLink lk { x with posts := ps, strays := if rest.length = 0 then x.strays else x.strays ++ [f.ctx] }

/-- Land the frames at the heads of their classes in the receive buffer, and free their places (R211, R213). -/
def landHeads : Nat → Hw → Nat → Hw
  | 0, h, _ => h
  | n + 1, h, lk =>
    let x := h.link lk
    match (List.range x.rbuf.length).findSome? (fun i => match x.rbuf[i]? with | some f => if rbufHead x i && lands h lk f then some (i, f) else none | none => none) with
    | some (i, f) => landHeads n (landFrame (rbufFree h lk i) lk f) lk
    | none => h
/-- All that can land. -/
def landAll (h : Hw) (lk : Nat) : Hw := landHeads (h.link lk).rbuf.length h lk

/-- Take the oldest frame of a link input from the receive buffer, in the order of its class (R97, R211, R213). -/
def tryLink (h : Hw) (ch : Nat) (e : Exec) (s : Nat) : Option Hw :=
  if dKind e.words s != kLink || !e.started || (if s = 0 then e.rsA else e.rsB).isSome || !takeRoom h ch e s then none
  else
    let lk := opLINK (dOp e.words s)
    let x := h.link lk
    match (List.range x.rbuf.length).findSome? (fun i => match x.rbuf[i]? with
        | some f => if linkWaits e lk f s && rbufHead x i && !lands h lk f then some (i, f) else none
        | none => none) with
    | some (i, f) => if firstTaker h ch e lk f then some (landAll (linkTake (postTook (rbufFree h lk i) lk f) ch e s f) lk) else none
    | none => none

/-! ### Processing (R84, R103, R104, R106) -/

/-- Flags a context traps on (R134, R168): as taken at the start of its running request. -/
def trapMask (h : Hw) (n : Nat) : Nat := match (h.ctx n).run with | some u => u.trapen | none => h.rf (CXE_OPT n) CXE_OPT_TRAPEN

/-- Add elements to the per-beat counter (R14). -/
def countElems (h : Hw) (ch n : Nat) : Hw :=
  let x := h.chain ch
  let v := x.elemAcc + n
  let h1 := h.setChain ch { x with elemAcc := v % 256 }
  if v / 256 = 0 then h1 else h1.addSat (CHN_ELEMS (ch / 8) (ch % 8)) CHN_ELEMS_COUNT (v / 256)

/-- The sink has finished a segment (R100, R104, R108, R134): the boundary's values are fixed, and a trap or a STOP takes effect; a re-read that succeeded is logged.
With CRC = 0 the CRC field of the progress word keeps the register's initial value, or that of the word the command was resumed from (DESIGN CHOICE, log 37: the spec does not say what
it holds then). A trap of one member at a boundary at which another has a STOP due ends the group TRAPPED by the former (DESIGN CHOICE, log 37: R111 gives "TRAPPED" for one command and
"the lower local chain index" for two members). -/
def boundary (h : Hw) (ch : Nat) (e : Exec) : Hw :=
  let ms := members h ch e
  let seg := (e.idx + e.sl - 1) / e.sl
  let b : Bound := ⟨seg, false, ms.any (fun m => m.2.al), ms.foldl (fun a m => orF a m.2.flags) 0, e.crc⟩
  let h0 := ms.foldl (fun h m => match m.2.again with | some x => rgnLog h (ch / 8) 1 x.1 x.2 | none => h) h
  let h1 := ms.foldl (fun h m => putExec h m.1 { m.2 with
    snap := ⟨seg, false, m.2.al, m.2.flags, m.2.crc⟩, snapLoss := m.2.aloss, older := ((m.2.snap, m.2.snapLoss) :: m.2.older).take 66, again := none, trapDue := false,
    bounds := if m.1 = ch && m.2.svc.isNone then m.2.bounds ++ [b] else m.2.bounds }) h0
  match ms.find? (fun m => m.2.trapDue) with
  | some m => (match getExec h1 m.1 m.2.id with | some x => endGroup h1 m.1 x ⟨3, 0, 0, 0⟩ | none => h1)
  | none =>
    if e.idx ≥ dCOUNT e.words then h1
    else match ms.find? (fun m => m.2.stopReq) with
      | some m => (match getExec h1 m.1 m.2.id with | some x => endGroup h1 m.1 x ⟨1, 0, 0, 0⟩ | none => h1)
      | none => h1

/-- Compute the next group of elements of a command, when its inputs, its record and its output allow. -/
def tryProcess (h : Hw) (ch : Nat) (e : Exec) : Option Hw :=
  let ws := e.words
  let (sch, sink) := sinkOf h ch e
  if !e.started || !turnOf h ch e || e.ending.isSome || e.fail.isSome || decide (e.idx ≥ dCOUNT ws) || !haveInputs e || !haveRec e || !outRoom h ch e ||
     (sch != ch && e.idx / e.sl != sink.idx / sink.sl) then none
  else
    let n := e.next
    let ka := itemsFor (dFMTA ws) n
    let kb := itemsFor (dFMTB ws) n
    let g := computeGroup ws e.idx n (fun i => kvGet 0 e.recs (i / 256)) (if usesA ws then e.bufA.take ka else []) (if usesB ws then e.bufB.take kb else [])
    let seg := e.idx / e.sl
    let va := if dOPC ws = opSCATTER then indexVA ws 2 (leNat (e.bufI.headD [])) else itemVA ws 2 (outItem ws e.idx)
    let outs := (g.items.zip (List.range g.items.length)).map (fun p => (⟨outItem ws e.idx + p.2, if p.2 = 0 then va else itemVA ws 2 (outItem ws e.idx + p.2), p.1, seg⟩ : OutItem))
    let made := e.frameIx + e.frame.length / fmtCont (dFMTD ws) * fmtItem (dFMTD ws)
    let e1 := { e with
      idx := e.idx + n
      bufA := if usesA ws then e.bufA.drop ka else e.bufA
      bufB := if usesB ws then e.bufB.drop kb else e.bufB
      bufI := if dOPC ws = opSCATTER then e.bufI.drop n else e.bufI
      flags := orF e.flags g.flg
      al := e.al || g.loss != 0
      aloss := min (2 ^ 32 - 1) (e.aloss + g.loss)
      crc := if dCRC ws then crcBytes e.crc g.items.flatten else e.crc
      trapDue := e.trapDue || Nat.land g.flg (trapMask h (dCTX ws)) != 0
      outQ := if dKD ws = kMem then e.outQ ++ outs else e.outQ
      frame := if dKD ws = kLink ∧ made ≤ dElems ws e.idx then e.frame ++ g.items.flatten else e.frame }
    let h1 := countElems (putExec h ch e1) ch n
    let h2 := if dKD ws = kChain then
        (let d := ch / 8 * 8 + opCHAIN (dOp ws 2)
         match (h1.chain d).act.find? (fun x => x.gid == e.gid) with
         | some y => putExec h1 d (if opOPB (dOp ws 2) then { y with bufB := y.bufB ++ g.items } else { y with bufA := y.bufA ++ g.items })
         | none => h1)
      else h1
    some (if sch = ch ∧ (e1.idx % e1.sl = 0 ∨ e1.idx ≥ dCOUNT ws) then boundary h2 ch e1 else h2)

/-! ### Progress of the chains of a region -/

/-- One thing a chain can do without waiting; none when it waits. -/
def chainStep (h : Hw) (ch : Nat) : Option Hw :=
  match (h.chain ch).act.findSome? (tryStore h ch) with
  | some h1 => some h1
  | none =>
    (h.chain ch).act.findSome? (fun e =>
      ([tryPop, tryFail, tryStop0, tryPair, tryStart, tryPages, trySend, tryProcess, tryRec] ++ [0, 1].map (fun s h ch e => tryLink h ch e s) ++
        [0, 1, 3].map (fun s h ch e => tryFetch h ch e s)).findSome?
        (fun (f : Hw → Nat → Exec → Option Hw) => f h ch e))

/-- Let the chains of a region go on until all of them wait. -/
def chainsLoop : Nat → Hw → Nat → Hw
  | 0, h, _ => h
  | n + 1, h, r =>
    match (List.range 8).findSome? (fun c => chainStep h (8 * r + c)) with
    | some h1 => chainsLoop n h1 r
    | none => h

/-- Advance the chains of a region and show their state; in a region that recovers they issue nothing (R420). -/
def chainsAdvance (h : Hw) (r : Nat) : Hw :=
  let busy := (List.range 8).filter (fun c => !(h.chain (8 * r + c)).act.isEmpty)
  if busy.isEmpty then h
  else
    let h1 := if h.rgnState r = 0 ∧ h.memServed r ∧ h.clocked then chainsLoop 1024 h r else h
    busy.foldl (fun h c => chainSync h (8 * r + c)) h1

/-! ### Link events -/

/-- A resent frame goes to the chain input that awaits it, ahead of the frames held for it (R217); none when there is none. -/
def chainResend (h : Hw) (lk : Nat) (f : Frame) : Option Hw :=
  let r := lk / 32
  ((List.range 8).findSome? (fun c =>
    let ch := 8 * r + c
    (h.chain ch).all.findSome? (fun e =>
      if e.rsA.isSome && linkWaits e lk f 0 then some (resendTake h ch e 0 f) else if e.rsB.isSome && linkWaits e lk f 1 then some (resendTake h ch e 1 f) else none))).map
    (fun h1 => chainsAdvance h1 r)

/-- The re-read of a group has failed at its link input (R217): the log names the read that it answered. -/
def rereadLost (h : Hw) (ch : Nat) (e : Exec) : Hw :=
  match (members h ch e).findSome? (fun m => m.2.again) with
  | some x => rgnLog h (ch / 8) 2 x.1 x.2
  | none => h

/-- A started command still sends on a link, or expects frames from it. -/
def usesLink (e : Exec) (lk s : Nat) : Bool :=
  dKind e.words s == kLink && opLINK (dOp e.words s) == lk &&
  (if s = 2 then decide (e.idx < dCOUNT e.words) || !e.frame.isEmpty
   else (if s = 0 then usesA e.words else usesB e.words) && (decide (linkExp e s < dCOUNT e.words) || (if s = 0 then e.rsA else e.rsB).isSome))

/-- A link has gone down (R98, R217): the commands that use it end LINK_DOWN; one that is ending loses the frame it had still to send. -/
def chainLinkDown (h : Hw) (lk : Nat) : Hw :=
  let r := lk / 32
  let h1 := forEach (List.range 8) h (fun h c =>
    let ch := 8 * r + c
    (h.chain ch).act.foldl (fun h x => match getExec h ch x.id with
    | some e =>
      if !e.started || dOPC e.words == opFENCE then h
      else if e.ending.isSome then (if usesLink e lk 2 && !e.frame.isEmpty then outFail h ch { e with frame := [] } ⟨0x19, 7, 0, 0⟩ noLim else h)
      else if [0, 1, 2].any (usesLink e lk) then
        endGroup (if (e.rsA.isSome && opLINK (dOp e.words 0) == lk) || (e.rsB.isSome && opLINK (dOp e.words 1) == lk) then rereadLost h ch e else h) ch
          e ⟨0x19, 7, 0, 0⟩
      else h
    | none => h) h)
  chainsAdvance h1 r

/-- An SREF (R217): the re-read has failed and the command ends PARITY. -/
def chainSref (h : Hw) (lk ctx step _offset : Nat) : Hw :=
  let r := lk / 32
  let h1 := forEach (List.range 8) h (fun h c =>
    let ch := 8 * r + c
    (h.chain ch).act.foldl (fun h x => match getExec h ch x.id with
    | some e =>
      if e.ending.isNone && dCTX e.words == ctx && [0, 1].any (fun s => (if s = 0 then e.rsA else e.rsB).isSome && opLINK (dOp e.words s) == lk && opSTEP (dOp e.words s) == step) then
        endGroup (rereadLost h ch e) ch e ⟨0x16, 7, 0, 0⟩
      else h
    | none => h) h)
  chainsAdvance h1 r

/-- A command of the running request of a context. -/
def ofRequest (n : Nat) (e : Exec) : Bool := e.svc.isSome && !e.getRsp && !e.words.isEmpty && dCTX e.words == n

/-- End the chain commands of a context's request (R183, R185). -/
def chainAbortCtx (h : Hw) (n : Nat) : Hw :=
  let r := n / 1024
  let h1 := forEach (List.range 8) h (fun h c =>
    let ch := 8 * r + c
    (h.chain ch).all.foldl (fun h e => if ofRequest n e && e.ending.isNone then endGroup h ch e ⟨2, 0, 0, 0⟩ else h) h)
  chainsAdvance h1 r

/-! ### Commands of the chains -/

/-- DESCRIPTOR_FETCH_DONE (R79, R90): the oldest descriptor awaited has arrived, from the mat or the cushion with the parity outcome given, or from licensee memory. -/
def descriptorFetchDone (ch : Nat) (par : Par) (meets : List Meet) (h : Hw) : Hw :=
  let r := ch / 8
  let c := ch % 8
  match (h.chain ch).all.find? (fun e => !e.checked && (e.ending.isNone || e.ending == some ⟨2, 0, 0, 0⟩) && (e.words.isEmpty || e.fail.isNone)) with
  | none => h
  | some e =>
    let (h1, got) := match paLocal e.descPA with
      | some off =>
        if h.inMem off then
          (let (h1, st, data) := rawRead h (.fetchA ch) off 64 par meets
           (h1, if st ≠ 0 then none else some ((List.range 8).map (fun k => leNat ((data.drop (8 * k)).take 8)))))
        else (h, none)
      | none => (h, if e.failSE then none else some e.words)
    if (paLocal e.descPA).isNone && e.words.isEmpty && !e.failSE then h
    else match got with
      | none =>
        chainsAdvance (putExec (h1.sb (CHN_STAT r c) CHN_STAT_DFERR) ch { e with ending := some ⟨0x1D, 4, 0, e.descPA⟩, failSE := false }) r
      | some ws =>
        let e1 := { e with words := ws }
        let h2 := queueNamed h1 e.id (dQUEUE ws) (dCMODE ws) e.fromQ
        if e.ending.isSome then chainsAdvance (putExec h2 ch (execInit { e1 with checked := true } (max 1 (dSL ws)) (dW ws 7) (dRESUME ws))) r
        else match descCheck h2 r c e.world ws with
          | some sub => chainsAdvance (putExec h2 ch (execStop e1 ⟨0x10, 4, sub, e.descPA⟩ noLim)) r
          | none =>
            chainsAdvance (putExec h2 ch (execInit { e1 with checked := true, pairOk := !dChained ws } (max 1 (dSL ws)) (dW ws 7) (dRESUME ws && !dChained ws))) r

/-- The running command has issued its last fetch request (R78). -/
def lastFetch (e : Exec) : Bool :=
  let ws := e.words
  if dOPC ws = opFENCE then false
  else
    let mem := (usesA ws && dKA ws == kMem) || (usesB ws && dKB ws == kMem) || dGS ws
    if mem then
      e.started && (!(usesA ws && dKA ws == kMem) || decide (e.fetchA ≥ itemsOf ws 0)) && (!(usesB ws && dKB ws == kMem) || decide (e.fetchB ≥ itemsOf ws 1)) &&
      (!dGS ws || decide (e.fetchI ≥ dCOUNT ws))
    else e.started && decide (e.idx ≥ dCOUNT ws)

/-- Move the pending command to the running place. -/
def promote (h : Hw) (ch : Nat) : Hw :=
  let x := h.chain ch
  match x.pend with
  | some p => h.setChain ch { x with act := x.act ++ [p], pend := none }
  | none => h

/-- PENDING_PROMOTE (R78). -/
def pendingPromote (ch : Nat) (h : Hw) : Hw :=
  match h.running ch with
  | some e => if lastFetch e && (h.chain ch).pend.isSome then chainsAdvance (promote h ch) (ch / 8) else h
  | none => h

/-- A write of CHN_CTL (R108, R111): its writers, the interrupt enables, STOP and ABORT; STOP with ABORT is ABORT. -/
def chnCtlWrite (w : Who) (ch : Nat) (v : W32) (h : Hw) : Hw :=
  let r := ch / 8
  let c := ch % 8
  let own := match h.running ch with
    | some e => e.checked && h.cxWorld (dCTX e.words) == .tenant
    | none => false
  if !h.hasChain ch || !w.anySup || (w.world == .tenant && !own) then h
  else
    let h1 := h.wr (CHN_CTL r c) (v &&& 0xC0)
    match h1.running ch with
    | none => h1
    | some e =>
      if fldGet CHN_CTL_ABORT v = 1 then
        (if e.ending.isSome then h1
         else if e.checked then chainsAdvance (endGroup h1 ch e ⟨2, 0, 0, 0⟩) r
         else chainsAdvance (putExec h1 ch { e with ending := some ⟨2, 0, 0, 0⟩ }) r)
      else if fldGet CHN_CTL_STOP v = 1 then
        (if e.ending.isSome then h1 else chainsAdvance (putExec h1 ch { e with stopReq := true }) r)
      else h1

/-- CHAIN_STOP. -/
def chainStop (w : Who) (ch : Nat) (v : W32) (h : Hw) : Hw := chnCtlWrite w ch v h
/-- CHAIN_ABORT. -/
def chainAbort (w : Who) (ch : Nat) (v : W32) (h : Hw) : Hw := chnCtlWrite w ch v h

/-- The values at the start of a segment. -/
def snapAt (e : Exec) (k : Nat) : Bound × Nat :=
  if e.snap.seg = k then (e.snap, e.snapLoss) else (e.older.find? (fun x => x.1.seg == k)).getD (e.snap, e.snapLoss)

/-- A member goes back to the start of segment k (R107, R217); its link inputs ask again for the elements up to `last`. -/
def rereadOne (h : Hw) (ch k last : Nat) (e : Exec) : Hw :=
  let ws := e.words
  let start := k * e.sl
  let (sn, loss) := snapAt e k
  let trim := fun (s : Nat) (buf : List (List Byte)) => buf.drop ((last - e.idx) / fmtItem (dFmt ws s))
  let lnk := fun (s : Nat) => (if s = 0 then usesA ws else usesB ws) && dKind ws s == kLink
  let e1 := { e with
    idx := start, rereads := recentSegs k e.rereads, fail := none, failSE := false, trapDue := false
    again := if e.fail.isSome then some e.failAt else (lostStore e).map (fun a => (3 * (ch % 8) + 2, a.badAt))
    flags := sn.flg, al := sn.al, aloss := loss, crc := sn.crc, snap := sn, snapLoss := loss, older := e.older.filter (fun x => decide (x.1.seg < k))
    fetchA := start / fmtItem (dFMTA ws), fetchB := start / fmtItem (dFMTB ws), fetchI := start
    bufA := [], bufB := [], bufI := [], recs := [], accs := e.accs.filter (fun a => (a.stream == 2 && decide (a.seg < k) && a.err == 0) || a.stream == 5)
    outQ := e.outQ.filter (fun o => decide (o.seg < k)), bounds := e.bounds.filter (fun b => decide (b.seg ≤ k))
    rsA := if lnk 0 then some (trim 0 e.bufA) else none
    rsB := if lnk 1 then some (trim 1 e.bufB) else none
    rsTo := last }
  let snak := fun (h : Hw) (s : Nat) =>
    if lnk s then linkCtl h (opLINK (dOp ws s)) { Frame.blank with typ := ftSNAK, ctx := dCTX ws, step := opSTEP (dOp ws s), offset := start % 2 ^ 32, len := 4, payload := leBytes 4 (last - start) }
    else h
  snak (snak (putExec h ch e1) 0) 1

/-- A beat of a stream of chain or link kind is discarded for its sideband parity (R25): of operand A (0) or B (1) at the chain, or of D (2) at the transmitter, in the segment under way. -/
def sideMark (h : Hw) (ch s : Nat) : Hw :=
  let has := fun (e : Exec) =>
    e.started && e.ending.isNone && e.fail.isNone && decide (e.idx < dCOUNT e.words) && (dKind e.words s == kLink || (s != 2 && dKind e.words s == kChain)) &&
    (if s = 2 then decide (dBytes e.words (dElems e.words (e.seg * e.sl) - e.frameIx) < e.frame.length)
     else (if s = 0 then usesA e.words else usesB e.words) && decide (e.seg * e.sl < linkExp e s))
  match (h.chain ch).act.find? has with
  | none => h
  | some e =>
    let u := 3 * (ch % 8) + streamIx s
    putExec (rgnLog h (ch / 8) 3 u 0) ch { e with
      fail := some ⟨0x16, if dKind e.words s = kLink then 7 else s, 0, 0⟩, failSE := false, failAt := (u, 0)
      frame := if s = 2 then e.frame.take (dBytes e.words (dElems e.words (e.seg * e.sl) - e.frameIx)) else e.frame }

/-- The segment a command has to read again: of the read that failed, or of the store whose beat was lost. -/
def rereadSeg (e : Exec) : Option Nat :=
  if e.ending.isSome then none
  else match e.fail, lostStore e with
    | some _, some a => if e.failSE then none else some (min e.seg a.seg)
    | some _, none => if e.failSE then none else some e.seg
    | none, some a => if a.se then none else some a.seg
    | none, none => none

/-- SEGMENT_REREAD (R107): the segment is read again once and counted in RGN_ECNT.SEGRR, when every member has come to it, every read under way and every store of it has answered and
every link input of it has arrived. `side` names the stream, of chain or link kind, of which a beat is discarded now (R25). -/
def segmentReread (ch : Nat) (side : Option Nat) (h : Hw) : Hw :=
  let h0 := match side with | some s => chainsAdvance (sideMark h ch s) (ch / 8) | none => h
  match (h0.chain ch).act.findSome? (fun e => (rereadSeg e).map (fun k => (e, k))) with
  | none => h0
  | some (e, k) =>
    let ms := members h0 ch e
    let last := segEnd e
    let quiet := ms.all (fun m => m.2.accs.all (fun a => a.stream == 5 || a.pieces.isEmpty || (a.stream == 2 && decide (a.seg < k))))
    let linked := ms.all (fun m => [0, 1].all (fun s => !((if s = 0 then usesA m.2.words else usesB m.2.words) && dKind m.2.words s == kLink) || decide (last ≤ linkExp m.2 s)))
    if quiet && linked && !noReread h0 ch e k && ms.all (fun m => decide (k * m.2.sl ≤ m.2.idx)) then
      chainsAdvance (ms.foldl (fun h m => rereadOne h m.1 k last m.2) (h0.addSat (RGN_ECNT (ch / 8)) RGN_ECNT_SEGRR 1)) (ch / 8)
    else h0

/-- A progress word (R104). -/
def progWord (b : Bound) : Nat := 2 ^ 63 + b2n b.al * 2 ^ 62 + b2n b.ps * 2 ^ 61 + b.flg % 32 * 2 ^ 56 + b.seg % 2 ^ 24 * 2 ^ 32 + b.crc % 2 ^ 32

/-- Stores of segments before n are all acknowledged, and to a link every element of them has left. -/
def storedBefore (e : Exec) (n : Nat) : Bool := e.unstored.all (fun k => decide (n ≤ k)) && sentThrough e n

/-- A command that writes progress words: the sink of a group or a lone command (R100); the service, which never resumes a command, keeps its own descriptors to itself (log 55). -/
def writesProg (e : Exec) : Bool := e.checked && dOPC e.words != opFENCE && dKD e.words != kChain && e.svc.isNone

/-- The ending leaves a resumable command behind (R108). -/
def needsFinal (e : Exec) : Bool :=
  match e.ending with
  | some en => writesProg e && !(en.status == 0 || en.status == 4 || en.status == 0x10 || en.status == 0x1D)
  | none => false

/-- PS of a command that stopped (R104, R109); a resumed one that completed no segment keeps the mark of the word it took up. -/
def finalPS (e : Exec) : Bool :=
  (!e.wrote && dRESUME e.words && bit (dW e.words 7) 61) ||
  (match e.storedSeg with | some s => decide (e.prog.seg ≤ s) | none => false) && (!heldFor e e.prog.seg || (match e.ending with | some en => en.status == 0x12 | none => false))

/-- Write a progress word to bytes 56 to 63 of the descriptor (R105); a beat that is discarded (R24, R25) leaves the boundary to be written again (DESIGN CHOICE, log 37). -/
def progWrite (h : Hw) (ch : Nat) (old e : Exec) (b : Bound) (par : Par) (meets : List Meet) : Hw :=
  let e1 := { e with prog := b, wrote := true }
  let lost := { e with bounds := [], finalW := true }
  match paLocal e.descPA with
  | some off =>
    if staleHit (.store ch) par then h
    else if !h.inMem off then outFail (putExec h ch lost) ch lost ⟨0x17, 5, 0, e.descPA + 56⟩ noLim
    else
      let (h1, st) := rawWrite h (.store ch) (off + 56) (leBytes 8 (progWord b)) par meets
      if st = 0 then putExec h1 ch e1
      else if st = 1 then outFail (putExec h1 ch lost) ch lost ⟨0x15, 5, 0, e.descPA + 56⟩ noLim
      else putExec h1 ch old
  | none =>
    let a : Acc := ⟨5, 0, e.descPA + 56, [(e.descPA + 56, 8)], [], [], 0, false, 0, 0⟩
    mRegion (putExec h ch { e1 with accs := e.accs ++ [a] }) (ch / 8) 3 1 (e.descPA + 56) 8 (leBytes 8 (progWord b)) false false (.prog ch e.id)

/-- PROGRESS_WORD_WRITE (R104, R105): the first boundary whose stores are all acknowledged, or the last word of a command that stopped. -/
def progressWordWrite (ch : Nat) (par : Par) (meets : List Meet) (h : Hw) : Hw :=
  let quiet := fun (e : Exec) => e.accs.all (fun a => a.stream != 5)
  match (h.chain ch).act.find? (fun e => writesProg e && quiet e &&
      (match e.bounds with | b :: _ => storedBefore e b.seg | [] => needsFinal e && !e.finalW && e.unstored.isEmpty && e.frame.isEmpty)) with
  | none => h
  | some e =>
    match e.bounds with
    | b :: rest => chainsAdvance (progWrite h ch e { e with bounds := rest } b par meets) (ch / 8)
    | [] =>
      let ps := finalPS e
      if ps || !e.wrote then chainsAdvance (progWrite h ch e { e with finalW := true } { e.prog with ps := ps } par meets) (ch / 8)
      else putExec h ch { e with finalW := true }

/-- Everything a command has still to do before it ends is done (R108, R252, R255). -/
def drained (e : Exec) : Bool :=
  e.unstored.isEmpty && e.accs.all (fun a => a.stream != 5) && e.bounds.isEmpty && e.frame.isEmpty &&
  (match e.ending with
   | some en => en.status == 0 || !needsFinal e || e.finalW || (e.wrote && !finalPS e)
   | none => e.started && dOPC e.words != opFENCE && decide (e.idx ≥ dCOUNT e.words))

/-- The status a command ends with. -/
def endStatus (e : Exec) : Ending := e.ending.getD ⟨0, 0, 0, 0⟩

/-- Capture a command's ending in CHN_ERR (R108). -/
def chnErr (h : Hw) (ch : Nat) (en : Ending) : Hw :=
  let r := ch / 8
  let c := ch % 8
  if h.rb (CHN_ERR r c) CHN_ERR_VALID || !(en.status == 3 || decide (en.status ≥ 0x10)) then h
  else
    ((h.wr (CHN_ERR r c) (fldSet CHN_ERR_VALID (fldSet CHN_ERR_STREAM (fldSet CHN_ERR_STATUS (fldSet CHN_ERR_SUB 0 en.sub) en.status) en.stream) 1)).wr
      (CHN_ERRVA_LO r c) (BitVec.ofNat 32 en.va)).wr (CHN_ERRVA_HI r c) (BitVec.ofNat 32 (en.va / 2 ^ 32 % 2 ^ 21))

/-- The completion record of a member (R99, R106, R109, R254): the sink's carries the flags of all members and the sum of their losses. -/
def execRecord (h : Hw) (ch : Nat) (e : Exec) (ms : List (Nat × Exec)) (sch : Nat) : Rec :=
  let ws := e.words
  let en := endStatus e
  let isSink := sch == ch
  let flg := if isSink then ms.foldl (fun a m => orF a m.2.flags) 0 else e.flags
  let al := if isSink then ms.any (fun m => m.2.al) else e.al
  let loss := if isSink then min (2 ^ 32 - 1) (ms.foldl (fun a m => a + m.2.aloss) 0) else e.aloss
  let p := ((ms.find? (fun m => m.1 == sch)).map (fun m => m.2.prog)).getD e.prog
  let crc := if dCRC ws && en.status != 0x10 then Nat.xor (if isSink then e.prog.crc else if en.status = 0 then e.crc else e.snap.crc) 0xFFFFFFFF else 0
  let doneEl := if en.status = 0 then dCOUNT ws - e.base else if e.svc.isSome then min (dCOUNT ws) (e.storedSeg.getD 0 * e.sl) else min (dCOUNT ws) (p.seg * e.sl) - e.base
  let (src, sidx) := match e.src with
    | .queue _ => (0, e.sqIdx)
    | .frond f => (1, f)
    | .timer t => (3, t)
  ⟨en.status, flg, al, src, h.epoch (ch / 8), dCTX ws, sidx, dQUEUE ws, loss, crc, sch % 8, if dOPC ws = opFENCE ∨ !e.checked then 0 else doneEl,
    if e.wrote then progWord e.prog else dW ws 7, ch / 8⟩

/-- A command of the collective service has ended (R183, R184): the figures of the running request take in its flags, its losses and the elements of DST it wrote, and the step it
belongs to is completed, or the request has failed. The answer to a GET has gone, and the requester is told so (R174); of one that failed it is told with ABORT (DEDUCED, log 55). -/
def cxCollect (h : Hw) (e : Exec) (rc : Rec) : Hw :=
  let n := dCTX e.words
  let x := h.ctx n
  match e.svc with
  | none => h
  | some c =>
    if e.getRsp then
      (match x.gets with
       | (lk, step, opid, _, _) :: rest =>
         linkSend (h.setCtx n { x with gets := rest }) lk
           (if rc.status = 0 then tokenFrame n step 5 opid 2 [] else tokenFrame n 0 3 opid 2 (leBytes 2 rc.status ++ leBytes 2 (h.cxRank n)))
       | [] => h)
    else
      match x.run with
      | some u => h.setCtx n { x with run := some { u with
          flags := orF u.flags rc.flg, aloss := min (2 ^ 32 - 1) (u.aloss + rc.aloss),
          elems := if dKD e.words = kMem ∧ c.phys.contains 2 = false then
              u.elems + rc.elems * fmtCont (dFMTD e.words) / fmtCont (bits (u.words.headD 0) 57 52) * fmtItem (bits (u.words.headD 0) 57 52) else u.elems,
          last := if rc.status = 0 then c.step else u.last,
          fail := if rc.status ≠ 0 ∧ u.fail.isNone then some rc.status else u.fail } }
      | none => h

/-- One command leaves its chain (R108, R252): LAST and ENDED, the capture, the record and the interrupts; the pending command takes the running place. -/
def execLeave (h : Hw) (ch : Nat) (e : Exec) (ms : List (Nat × Exec)) (sch : Nat) : Hw :=
  let r := ch / 8
  let c := ch % 8
  let en := endStatus e
  let h0 := chainSync (putExec h ch { e with ending := some en }) ch
  let h1 := chnErr (((h0.wf (CHN_STAT r c) CHN_STAT_LAST en.status).sb (CHN_STAT r c) CHN_STAT_ENDED)) ch en
  let rc := execRecord h1 ch e ms sch
  let h2 := if en.status = 0x1D then
      (match e.src with
       | .queue q => queueTidy (entryOver (queueErr ((h1.sb (SQ_STAT q) SQ_STAT_FETCHERR).setQueue q { h1.queue q with joins := (h1.queue q).joins.filter (fun j => j.id != e.id) }) q) q e.sqIdx) q
       | _ => h1)
    else if e.words.isEmpty then
      (match e.src with
       | .queue q => if en.status = 4 then queueEnded h1 e.id q e.fromQ 0 4 { rc with queue := q } else queueEnded h1 e.id q e.fromQ 2 en.status rc
       | _ => if en.status = 4 then h1.addSat (RGN_DISC r) RGN_DISC_NOREC 1 else h1)
    else if e.svc.isSome then cxCollect h1 e rc
    else queueEnded h1 e.id (dQUEUE e.words) e.fromQ (dCMODE e.words) en.status rc
  let h3 := if (en.status = 3 ∨ (en.status ≠ 0 ∧ h2.rb (CHN_CTL r c) CHN_CTL_ERR_IE)) then irqFire h2 (rSrc r (8 + c)) else h2
  let h4 := if !e.words.isEmpty && dCMODE e.words == 3 then irqFire h3 (rSrc r c) else h3
  let x := h4.chain ch
  let h5 := (frondsOf r).foldl (fun h f => h.setFrond f { h.frond f with wevHit := (h.frond f).wevHit ||| 4 })
    (h4.setChain ch { x with act := x.act.filter (fun y => y.id != e.id) })
  chainSync (if (h5.chain ch).act.isEmpty then promote h5 ch else h5) ch

/-- The queue that a member's record goes to, when it produces one (R252). -/
def recordQueue (e : Exec) : Option Nat :=
  if !e.words.isEmpty && e.svc.isNone && (endStatus e).status != 0x1D && wantsRecord (dCMODE e.words) (endStatus e).status then some (dQUEUE e.words) else none

/-- The buffer of 64 waiting records of every region has room for those of these members (R252). -/
def recordRoom (h : Hw) (ch : Nat) (ms : List (Nat × Exec)) : Bool :=
  decide (recsWaiting h (ch / 8) < 64) &&
  h.regionList.all (fun r => decide (recsWaiting h r + (ms.filter (fun m => (recordQueue m.2).map (· / 256) == some r)).length ≤ 64))

/-- CHAIN_COMMAND_END (R100, R108, R252): the oldest command of the chain whose work is done ends, with its whole group; ending chains wait while the region's 64 waiting records are all taken. -/
def chainCommandEnd (ch : Nat) (h : Hw) : Hw :=
  match (h.chain ch).act.find? (fun e => drained (sinkOf h ch e).2 && (members h ch e).all (fun m => drained m.2 || m.2.ending.isNone) &&
        (e.ending.isSome || (sinkOf h ch e).2.ending.isNone)) with
  | none => h
  | some e =>
    let ms := members h ch e
    let sch := (sinkOf h ch e).1
    if recordRoom h ch ms then chainsAdvance (ms.foldl (fun h m => execLeave h m.1 m.2 ms sch) h) (ch / 8) else h

/-! ### The frond's trigger (R76) -/

/-- CMD.RES as a word reads it (R76, R308). -/
def Frond.resSeen (x : Frond) : W64 := if x.resWait = 0 then x.cmdRes else x.resOld

/-- A new CMD.RES, readable from the third CK_F cycle on (R76): of the words of the two cycles before, as many still read the old value as the stalls between them leave, a free value. -/
def setRes (h : Hw) (f : Nat) (v : W64) : Hw :=
  let (u, h1) := h.fresh
  let x := h1.frond f
  h1.setFrond f { x with cmdRes := v, resOld := x.resSeen, resWait := u.toNat % 3 }

/-- A move to CMD.TRGc: the result is left in CMD.RES. When the latch is full and address bits [5:0] are not zero at once it is 2 (DESIGN CHOICE, log 37: the spec gives no order). -/
def chainTrigger (f c : Nat) (v : W64) (h : Hw) : Hw :=
  if h.hasFrond f && decide (c < 8) then
    (let ch := 8 * (f / 2) + c
     let pa := v.toNat % 2 ^ 53
     let (h1, ok) := chainAccept h ch (.frond f) (h.frond f).world pa 0
     setRes h1 f (if ok then 0 else if pa % 64 ≠ 0 then 2 else 1))
  else h

end Sys2Proof.Machine
end

