-- ==== Sys2Proof/Machine/Queues.lean ====
section
/-!
DEFINITION. The issue of submission-queue entries to a chain or to the collective service (R77, R247, R250).
-/
namespace Sys2Proof.Machine

/-- Entry FETCH may be issued (R250, R251): the queue runs, has an entry, and the room of its completion ring exceeds
the number of commands issued and not yet recorded, this one among them. -/
def sqReady (h : Hw) (q : Nat) : Bool :=
  h.sqState q == sqRun && h.rf (SQ_FETCH q) SQ_FETCH_FETCH != h.rf (DB_SQ q) DB_SQ_TAIL &&
  decide ((h.rf (DB_CQ q) DB_CQ_CQ_HEAD + 2 ^ h.rf (SQ_CFG q) SQ_CFG_CQSZ + 2 ^ 16 - h.rf (DB_CQ q) DB_CQ_CQ_TAIL) % 2 ^ 16 > sqIssued h q + 1)

/-- Two queues of a region have one consumer (R247). -/
def sameConsumer (h : Hw) (q p : Nat) : Bool :=
  q / 256 == p / 256 && h.rf (SQ_CFG q) SQ_CFG_BIND == h.rf (SQ_CFG p) SQ_CFG_BIND &&
  (h.rf (SQ_CFG q) SQ_CFG_BIND != 1 || h.rf (SQ_CFG q) SQ_CFG_CHAIN == h.rf (SQ_CFG p) SQ_CFG_CHAIN)

/-- A queue's age, of ten CK_S cycles in a tick, has reached the 255 at which it saturates (R37). -/
def sqAgeFull (h : Hw) (q : Nat) : Bool := decide (255 ≤ 10 * (h.tb - BitVec.ofNat 64 (h.queue q).stampTB).toNat)

/-- Queue q is chosen before queue p: higher PRI, then the greater age, then the lower number (R37, R250). -/
def sqBefore (h : Hw) (q p : Nat) : Bool :=
  let a := h.rf (SQ_CFG q) SQ_CFG_PRI
  let b := h.rf (SQ_CFG p) SQ_CFG_PRI
  let s := (h.queue q).stamp
  let t := (h.queue p).stamp
  decide (a > b) || (a == b && (if sqAgeFull h q && sqAgeFull h p then decide (q < p) else decide (s < t) || (s == t && decide (q < p))))

/-- No other ready queue of the same consumer goes first. -/
def sqChosen (h : Hw) (q : Nat) : Bool :=
  h.queues.all (fun e => e.1 == q || !(sameConsumer h q e.1 && sqReady h e.1) || sqBefore h q e.1)

/-- The chain a queue is bound to can take a command (R77, R78). -/
def chainFree (h : Hw) (ch : Nat) : Bool := (h.chain ch).act.isEmpty || (h.chain ch).pend.isNone

/-- An entry leaves the ring for its consumer: FETCH and INFL advance, and the queue's wait starts again. -/
def sqIssue (h : Hw) (q idx : Nat) : Hw :=
  let x := h.queue q
  let h1 := { (h.setQueue q { x with ended := x.ended ++ [(idx, false)], stamp := h.seq + 1, stampTB := h.tb.toNat }) with seq := h.seq + 1 }
  inflSync (h1.wf (SQ_FETCH q) SQ_FETCH_FETCH ((idx + 1) % 2 ^ 16)) q

/-- QUEUE_ISSUE (R77, R250, R252): entry FETCH is handed to the queue's chain or to the service, and joins the completion order. -/
def queueIssue (q : Nat) (h : Hw) : Hw :=
  let r := q / 256
  if !h.hasQueue q || !sqReady h q || !sqChosen h q || !h.working r || h.rgnState r != 0 then h
  else
    let idx := h.rf (SQ_FETCH q) SQ_FETCH_FETCH
    let pa := (h.rdPair (SQ_BASE_LO q) (SQ_BASE_HI q)) + 64 * (idx % 2 ^ h.rf (SQ_CFG q) SQ_CFG_SQSZ)
    if h.rf (SQ_CFG q) SQ_CFG_BIND = 1 then
      (let ch := 8 * r + h.rf (SQ_CFG q) SQ_CFG_CHAIN
       if chainFree h ch then
         (let h1 := sqIssue h q idx
          let id := h1.seq + 1
          let h2 := queueJoin h1 q ⟨id, id, 0, some (q, idx), false, none⟩
          (chainAccept h2 ch (.queue q) (h.sqWorld q) pa idx).1)
       else h)
    else
      let h1 := queueJoin (sqIssue h q idx) q ⟨svcId q idx, h.seq + 1, 0, some (q, idx), false, none⟩
      { h1 with svcQ := kvIns h1.svcQ r (kvGet [] h1.svcQ r ++ [(q, idx, pa)]) }

end Sys2Proof.Machine
end

