-- ==== Sys2Proof/Machine/Walks.lean ====
section
/-!
DEFINITION. The commands of address translation (R257 to R283): lookups, demand and look-ahead walks, table reads, marks, invalidations, probes and the directory registers.
-/
namespace Sys2Proof.Machine

/-! ### What a stream needs (R93, R271 to R273) -/

/-- A translation that a chain lacks: its command, the address, whether the access writes, whether a cached page only lacks its mark, and whether the page is only looked at for side
effects before a store of the segment may leave (R96). -/
structure Need where
  exec  : Exec
  va    : Nat
  write : Bool
  mark  : Bool
  look  : Bool
deriving DecidableEq, Repr

/-- The need that an answer of the micro-buffer shows. -/
def needOf (e : Exec) (write : Bool) : XRes → Option Need
  | .miss va => some ⟨e, va, write, false, false⟩
  | .mark va => some ⟨e, va, write, true, false⟩
  | _ => none

/-- The need of the stores of one command: the page of the next store, or the first unknown page of a segment whose stores may leave early, at the address of its first access there. -/
def storeNeed (h : Hw) (ch : Nat) (e : Exec) : Option Need :=
  match e.outQ with
  | [] => none
  | o :: _ =>
    let complete := decide ((o.seg + 1) * e.sl ≤ e.idx) || decide (dCOUNT e.words ≤ e.idx)
    if complete || e.ending.isSome || !segHeld e o.seg then needOf e true (xlate h ch e 2 o.va o.data.length true)
    else if heldFor e o.seg || dOPC e.words == opSCATTER || e.pgSeg != o.seg || physOf e 2 then none
    else
      let (w, asid) := exSpace h e
      let va := itemVA e.words 2 e.pgIt
      if (ubFind (h.chain ch).ubuf w asid va).isNone then some ⟨e, va, true, false, true⟩
      else some ⟨e, (va + fmtCont (dFMTD e.words) - 1) % 2 ^ 48 / 4096 * 4096, true, false, true⟩

/-- The translation a stream of a chain lacks: 0 A, 1 B, 2 D, 3 index vector. -/
def streamNeed (h : Hw) (ch s : Nat) : Option Need :=
  if s = 2 then (h.chain ch).act.findSome? (storeNeed h ch)
  else
    (h.chain ch).act.findSome? (fun e =>
      match nextFetch e s with
      | some (_, va) => needOf e false (xlate h ch e s va (fmtCont (if s = 3 then 0xC else dFmt e.words s)) false)
      | none => none)

/-- XLT_CNT.MISS counts in units of 16. -/
def missCount (h : Hw) (r : Nat) : Hw :=
  let x := h.xlt r
  let m := x.miss + 1
  let h1 := h.setXlt r { x with miss := m % 16 }
  if m / 16 = 0 then h1 else h1.addSat (XLT_CNT r) XLT_CNT_MISS 1

/-- A walk of this page is asked for or under way on behalf of a stream. -/
def walkAsked (h : Hw) (r : Nat) (who : WalkFor) (w : World) (asid va : Nat) : Bool :=
  (h.xlt r).walks.any (fun y => y.who == who && y.demand && y.world == w && y.asid == asid && y.va / 4096 == va / 4096)

/-- TRANSLATION_LOOKUP (R257 to R259, R271 to R273): what a stream lacks in the micro-buffer is looked up in the translation cache; a miss, or a mark that is due, asks for a demand walk. -/
def translationLookup (ch s : Nat) (h : Hw) : Hw :=
  let r := ch / 8
  if !h.hasChain ch || !h.working r || h.rgnState r != 0 then h
  else match streamNeed h ch s with
    | none => h
    | some n =>
      let (w, asid) := exSpace h n.exec
      if walkAsked h r (.chain ch s) w asid n.va then h
      else if n.mark then walkAsk h r (.chain ch s) true n.write w asid n.va
      else match tcFind (h.xlt r) w asid n.va with
        | some (k, t) =>
          let x := h.xlt r
          let h1 := h.setXlt r { x with tc := tcTouch x.tc k }
          chainsAdvance (ubTouch h1 ch [t]) r
        | none => walkAsk (missCount h r) r (.chain ch s) true n.write w asid n.va

/-! ### Walks (R265 to R271, R274) -/

/-- The first of n items of D from `it` on that does not touch a page. -/
def pageSkip (e : Exec) (p : Nat) : Nat → Nat → Nat
  | 0, it => it
  | n + 1, it =>
    let va := itemVA e.words 2 it
    if va / 4096 = p ∨ (va + fmtCont (dFMTD e.words) - 1) % 2 ^ 48 / 4096 = p then pageSkip e p n (it + 1) else it

/-- A demand walk of a chain ends without a translation: the fault is captured and the command that needs the page ends with its status (R268, R269). A page that was only looked at
has no store made to it: the fault is taken when the store itself is due. -/
def walkFault (h : Hw) (r : Nat) (w : Walk) (cls level : Nat) (malf : Bool) (ch s : Nat) : Hw :=
  match streamNeed h ch s with
  | none => h
  | some n =>
    if n.va / 4096 ≠ w.va / 4096 then h
    else if n.look then putExec h ch { n.exec with pgIt := pageSkip n.exec (w.va / 4096) ((segItems n.exec n.exec.pgSeg).2 + 1 - n.exec.pgIt) n.exec.pgIt }
    else
      let h1 := xltFault h r cls level w.ea malf w.write ch w.world w.asid n.va
      if s = 2 then outFail h1 ch n.exec ⟨0x10 + cls, 2, 0, n.va⟩ (n.exec.unstored.foldl min noLim)
      else endGroup h1 ch n.exec ⟨0x10 + cls, s, 0, n.va⟩

/-- What follows a step of a walk. -/
def walkAfter (r : Nat) (k : Nat) (x : Hw × WalkOut) : Hw :=
  let (h, out) := x
  match out with
  | .goes =>
    (match walkAt h r k with
     | some w => if w.who = .probe 1000 ∧ w.phase = 5 then walkDrop h r k else xltSync h r
     | none => xltSync h r)
  | .over cls level malf ent =>
    match walkAt h r k with
    | none => h
    | some w =>
      match w.who with
      | .probe f => if f = 1000 then walkDrop h r k else walkPut h r { w with phase := 5, entry := probeBits cls level 0 false 0 0 }
      | .chain ch s =>
        let h1 := walkDrop h r k
        match ent with
        | some t =>
          let x := h1.xlt r
          let old := fun (e : TcEnt) => w.demand && e.outdated w.world w.asid w.va t
          let (x1, u) := tcFill { x with tc := x.tc.filter (fun e => !old e.2) } t
          let h2 := h1.setXlt r x1
          let y := h2.chain ch
          if w.demand then chainsAdvance (ubTouch (if y.ubuf.any old then h2.setChain ch { y with ubuf := y.ubuf.filter (fun e => !old e) } else h2) ch [u]) r else h2
        | none => if w.demand && cls != 0 then chainsAdvance (walkFault h1 r w cls level malf ch s) r else h1

/-- The index of a walk's requester: the local chain, probes after chain 7 (R267). -/
def Walk.index (w : Walk) : Nat := match w.who with | .chain ch _ => ch % 8 | .probe _ => 8

/-- Age of a waiting walk, of twenty CK_D cycles in a tick, has reached the 255 at which it saturates (R37). -/
def walkAgeFull (h : Hw) (w : Walk) : Bool := decide (255 ≤ 20 * (h.tb - BitVec.ofNat 64 w.came).toNat)

/-- The better of two waiting walks, `a` having arrived first: demand, then the greater age, then, both ages saturated, the lower index. -/
def walkBetter (h : Hw) (a b : Walk) : Walk :=
  if a.demand && !b.demand then a
  else if b.demand && !a.demand then b
  else if decide (b.index < a.index) && walkAgeFull h b && walkAgeFull h a then b
  else a

/-- TRANSLATION_WALK (R265, R267): the walker starts the walk that comes first. -/
def translationWalk (r : Nat) (h : Hw) : Hw :=
  let x := h.xlt r
  let waiting := x.walks.filter (fun w => decide (16 ≤ w.k) && w.phase == 0)
  let best := match waiting with | w :: ws => some (ws.foldl (walkBetter h) w) | [] => none
  if !h.hasRegion r || !h.working r || h.rgnState r != 0 || decide (walksIn x ≥ 16) then h
  else match best with
    | none => h
    | some w =>
      match (List.range 16).find? (fun k => x.walks.all (fun y => y.k != k)) with
      | none => h
      | some k =>
        let w1 := { w with k := k }
        let h1 := (h.setXlt r { x with walks := x.walks.map (fun y => if y.k = w.k then w1 else y) }).addSat (XLT_CNT r) XLT_CNT_WALKS 1
        walkAfter r k (walkBegin h1 r w1)

/-- The next pages a memory stream touches after the item at `it`, at most n, in order (R93). -/
def pagesAhead : Nat → (addr step : Int) → (cont left : Nat) → List Nat
  | 0, _, _, _, _ => []
  | n + 1, addr, step, cont, left =>
    let p := addr / 4096
    let q := (addr + cont - 1) / 4096
    let d : Int := if step > 0 then max 1 (((q + 1) * 4096 - (addr + cont - 1) + step - 1) / step)
      else if step < 0 then max 1 ((addr - (p * 4096 - 1) + (-step) - 1) / (-step)) else 0
    if step = 0 ∨ d ≥ left then []
    else
      let a := addr + d * step
      let new := [a / 4096, (a + cont - 1) / 4096].filter (fun x => x != p && x != q)
      (new.foldl (fun l x => if l.contains (x % 2 ^ 36).toNat then l else l ++ [(x % 2 ^ 36).toNat]) []) ++ pagesAhead n a step cont (left - d.toNat)

/-- The pages beyond the page in use of a stream that look-ahead may walk (R93, R274). -/
def laPages (e : Exec) (s n : Nat) : List Nat :=
  let ws := e.words
  let fmt := if s = 3 then 0xC else dFmt ws s
  let present := if s = 0 then usesA ws && dKA ws == kMem && dOPC ws != opGATHER else if s = 1 then usesB ws && dKB ws == kMem
    else if s = 2 then dKD ws == kMem && dOPC ws != opSCATTER && dOPC ws != opFENCE else s == 3 && dGS ws
  let it := if s = 0 then e.fetchA else if s = 1 then e.fetchB else if s = 3 then e.fetchI
    else (match e.outQ with | o :: _ => o.item | [] => outItem ws e.idx)
  let items := if s = 2 then outItem ws (dCOUNT ws - 1) + 1 else itemsOf ws s
  let o := if s = 3 then 1 else s
  let step : Int := if fmtKind fmt = FmtKind.mx then fmtCont fmt else opSTRIDE (dOp ws o) * fmtCont fmt
  if present && !physOf e o && decide (it < items) then (pagesAhead n ((opVA (dOp ws o) : Int) + it * step) step (fmtCont fmt) (items - it)).take n else []

/-- LOOKAHEAD_WALK (R6, R93, R274): the chain asks for a walk of the first page ahead that neither cache holds and no walk reads. -/
def lookaheadWalk (ch s : Nat) (h : Hw) : Hw :=
  let r := ch / 8
  let depth := min 16 (h.rf (XLT_CTL r) XLT_CTL_LADEPTH)
  match h.running ch with
  | none => h
  | some e =>
    if !e.started || e.ending.isSome || dNOLA e.words || depth == 0 || !h.working r || h.rgnState r != 0 then h
    else
      let (w, asid) := exSpace h e
      let x := h.xlt r
      match (laPages e s depth).find? (fun p => (tcFind x w asid (p * 4096)).isNone && (ubFind (h.chain ch).ubuf w asid (p * 4096)).isNone &&
          x.walks.all (fun y => !(y.world == w && y.asid == asid && y.va / 4096 == p))) with
      | some p => walkAsk h r (.chain ch s) false (s == 2) w asid (p * 4096)
      | none => h

/-- WALK_TABLE_READ_DONE (R261 to R266): a table read that has returned is judged. -/
def walkTableReadDone (r k : Nat) (h : Hw) : Hw :=
  match walkAt h r k with
  | some w => if w.phase = 2 ∧ k < 16 then walkAfter r k (walkJudge h r w) else h
  | none => h

/-- MARK_CAS_DONE (R270): the CAS64 of a mark has returned. -/
def markCasDone (r k : Nat) (h : Hw) : Hw :=
  match walkAt h r k with
  | some w => if w.phase = 4 ∧ k < 16 then walkAfter r k (walkMarked h r w) else h
  | none => h

/-! ### Invalidations (R276 to R279) -/

/-- Outstanding accesses of a region that were translated through one of these entries (R277), those that an ending has abandoned on a host port among them. -/
def accsThrough (h : Hw) (r : Nat) (es : List TcEnt) : List (Nat × Nat × Nat × Nat) :=
  h.mreqs.filterMap (fun q => match q.use with
    | .item ch id s it w asid va => if ch / 8 = r ∧ es.any (fun t => t.covers w asid va) then some (ch, id, s, it) else none
    | _ => none) ++
  (List.range 8).flatMap (fun c =>
    let ch := 8 * r + c
    (h.chain ch).act.flatMap (fun e =>
      let (w, asid) := exSpace h e
      (e.accs.filter (fun a => a.stream != 5 && a.stream != 6 && !a.pieces.isEmpty &&
        es.any (fun t => t.covers w asid a.va || t.covers w asid ((a.va + (a.pieces.foldl (fun n p => n + p.2) 0) - 1) % 2 ^ 48)))).map
        (fun a => (ch, e.id, a.stream, a.item))))

/-- The invalidation at the head of a region's queue begins: its entries go, the walks in flight become stale, and the accesses it waits for are fixed (R276, R277). -/
def invBegin (h : Hw) (r : Nat) : Hw :=
  let x := h.xlt r
  match x.inv with
  | i :: rest =>
    if i.begun then h
    else
      let ubs := (List.range 8).flatMap (fun c => (h.chain (8 * r + c)).ubuf.filter i.hits)
      let gone := (x.tc.filter (fun e => i.hits e.2)).map (·.2) ++ ubs
      let wide := i.kind != 0
      let x1 := { x with
        tc := x.tc.filter (fun e => !i.hits e.2)
        root := if wide then x.root.filter (fun e => !i.names e.2.world e.2.asid) else x.root
        ptr := if wide then x.ptr.filter (fun e => !i.names e.2.world e.2.asid) else x.ptr
        walks := x.walks.map (fun w => if w.k < 16 && w.phase != 5 then { w with stale := true } else w)
        inv := { i with begun := true, awaits := accsThrough h r gone } :: rest }
      forEach (List.range 8) (h.setXlt r x1) (fun h c =>
        let y := h.chain (8 * r + c)
        if y.ubuf.any i.hits then h.setChain (8 * r + c) { y with ubuf := y.ubuf.filter (fun e => !i.hits e) } else h)
  | [] => h

/-- Queue an invalidation in a region and begin it when it is alone. -/
def invPut (h : Hw) (r : Nat) (i : Inval) : Hw :=
  let x := h.xlt r
  xltSync (invBegin (h.setXlt r { x with inv := x.inv ++ [i] }) r) r

/-- The other regions an invalidation is broadcast to: in maintenance every region in run or idle (R279). -/
def invOthers (h : Hw) (r : Nat) : List Nat := if maint h then h.regionList.filter (fun q => q != r && h.inService q) else []

/-- A queue that an invalidation of this region would join holds its 8: it is refused, with nothing performed (R278); that a full queue of another region refuses a broadcast one too is
DEDUCED from the same sentence (log 42). -/
def invFull (h : Hw) (r : Nat) : Bool := (r :: invOthers h r).any (fun q => decide (8 ≤ (h.xlt q).inv.length))

/-- Queue an accepted invalidation. -/
def invIssue (h : Hw) (r kind : Nat) (w : World) (asid va : Nat) (by_ : Option Nat) : Hw :=
  let i : Inval := ⟨kind, w, asid, va, by_, maint h, [], false, r, h.seq + 1⟩
  let h1 := { h with seq := h.seq + 1 }
  (invOthers h r).foldl (fun h q => invPut h q i) (invPut h1 r i)

/-- XLT.IST as a word reads it (R282, R308). -/
def Frond.istSeen (x : Frond) : W64 := if x.istWait = 0 then x.xIST else x.istOld

/-- A new XLT.IST, valid from the third CK_F cycle on (R282): as CMD.RES. -/
def setIst (h : Hw) (f : Nat) (v : W64) : Hw :=
  let (u, h1) := h.fresh
  let x := h1.frond f
  h1.setFrond f { x with xIST := v, istOld := x.istSeen, istWait := u.toNat % 3 }

/-- A frond's move to XLT.INV at supervisor level (R278, R282). -/
def xltInvOp (h : Hw) (f : Nat) (v : W64) : Hw :=
  let r := f / 2
  let x := h.frond f
  let n := v.toNat
  let w := if bit n 14 then World.tenant else World.keeper
  if (x.world == .tenant && w == .keeper) || invFull h r then setIst h f 4
  else invIssue (setIst h f 1) r (bits n 13 12) w (n % 4096) (x.xIVA.toNat % 2 ^ 48) (some f)

/-- XLT_INV_GO (R278): a write of XLT_INV_CTL; GO is the host's. -/
def xltInvGo (w : Who) (r : Nat) (v : W32) (h : Hw) : Hw :=
  if !h.hasRegion r then h
  else
    let h1 := if w.hostPriv || w.keeperSup then h.wr (XLT_INV_CTL r) (v &&& 0x0E000FFF) else h
    if fldGet XLT_INV_CTL_GO v = 0 ∨ w.agent ≠ .host then h1
    else
      let x := h1.xlt r
      if !w.sup || invFull h1 r || x.inv.any (fun i => i.by_.isNone && i.home == r) then h1.sb (XLT_STAT r) XLT_STAT_INVREF
      else
        invIssue h1 r (fldGet XLT_INV_CTL_KIND v) (if fldGet XLT_INV_CTL_WORLD v = 1 then .tenant else .keeper) (fldGet XLT_INV_CTL_ASID v)
          (h1.rdPair (XLT_INV_VA_LO r) (XLT_INV_VA_HI r)) none

/-- An access is still outstanding. -/
def accOut (h : Hw) (a : Nat × Nat × Nat × Nat) : Bool :=
  h.mreqs.any (fun q => match q.use with | .item ch id s it _ _ _ => (ch, id, s, it) == a | _ => false) ||
  (match getExec h a.1 a.2.1 with
   | some e => e.accs.any (fun b => b.stream == a.2.2.1 && b.item == a.2.2.2 && !b.pieces.isEmpty)
   | none => false)

/-- An invalidation reports its completion (R277): to the frond that issued its last one, or to the host. -/
def invReport (h : Hw) (i : Inval) : Hw :=
  match i.by_ with
  | none => h.sb (XLT_STAT i.home) XLT_STAT_INVDONE
  | some f =>
    let x := h.frond f
    let more := (h.xlt i.home).inv.any (fun j => j.by_ == some f && j.home == i.home)
    h.setFrond f { x with xIST := if x.xIST = 1 ∧ !more then 2 else x.xIST, wevHit := x.wevHit ||| 0x10 }

/-- INVALIDATION_DONE (R277, R279): the invalidation in progress completes once every access it waits for is performed and, broadcast, once every other region has completed it. -/
def invalidationDone (r : Nat) (h : Hw) : Hw :=
  let x := h.xlt r
  match x.inv with
  | [] => h
  | i :: rest =>
    let elsewhere := i.bcast && i.home == r && h.regionList.any (fun q => q != r && (h.xlt q).inv.any (fun j => j.uid == i.uid))
    if !h.hasRegion r || !i.begun || i.awaits.any (accOut h) || elsewhere then h
    else
      let h1 := h.setXlt r { x with inv := rest }
      xltSync (invBegin (if i.home = r then invReport h1 i else h1) r) r

/-! ### Probes (R282) -/

/-- Append a probe's walk in a phase with a result. -/
def probePut (h : Hw) (r f : Nat) (write : Bool) (w : World) (asid va phase entry : Nat) : Hw :=
  let x := h.xlt r
  h.setXlt r { x with walks := x.walks ++ [⟨freshKey x, .probe f, true, write, w, asid, va, 4, 0, phase, false, entry, 0, 0, false, false, false, h.tb.toNat⟩] }

/-- A frond's move to XLT.PRB at supervisor level: a probe replaces an earlier one of the frond. -/
def xltPrbOp (h : Hw) (f : Nat) (v : W64) : Hw :=
  let r := f / 2
  let fr := h.frond f
  let n := v.toNat
  let w := if bit n 12 then World.tenant else World.keeper
  let asid := n % 4096
  let write := bit n 13
  let va := fr.xPVA.toNat % 2 ^ 48
  let x0 := h.xlt r
  let old := (x0.walks.filter (fun y => !(y.who == .probe f && (decide (16 ≤ y.k) || y.phase == 5)))).map (fun y => if y.who = .probe f then { y with who := .probe 1000 } else y)
  let h1 := (h.setFrond f { fr with xPR := 0 }).setXlt r { x0 with walks := old }
  if fr.world == .tenant && w == .keeper then probePut h1 r f write w asid va 5 (probeBits 5 0 0 false 0 0)
  else match tcFind (h1.xlt r) w asid va with
    | some (k, t) =>
      let x := h1.xlt r
      let rwad := b2n t.r * 8 + b2n t.w * 4 + b2n (t.aBit va) * 2 + b2n (t.dBit va)
      probePut (h1.setXlt r { x with tc := tcTouch x.tc k }) r f write w asid va 5
        (probeBits (if entPermits h1 t write then 0 else 2) t.level t.size t.se (t.phys va) rwad)
    | none => probePut (missCount h1 r) r f write w asid va 0 0

/-- PROBE_DONE (R282): the result reaches XLT.PR. -/
def probeDone (f : Nat) (h : Hw) : Hw :=
  let r := f / 2
  match (h.xlt r).walks.find? (fun y => y.who == .probe f && y.phase == 5) with
  | none => h
  | some y =>
    let h1 := walkDrop h r y.k
    h1.setFrond f { h1.frond f with xPR := BitVec.ofNat 64 (2 ^ 63 + y.entry) }

/-! ### The directories and the resets (R260, R281) -/

/-- XLT_DIR_WRITE (R260): the tenant directory is written by a keeper-world supervisor, the loader or the privileged host; the keeper directory by the loader and the lichen alone. -/
def xltDirWrite (w : Who) (a : Nat) (v : W32) (h : Hw) : Hw :=
  match h.regionList.find? (fun r => a == XLT_TDIR_LO r || a == XLT_TDIR_HI r || a == XLT_KDIR_LO r || a == XLT_KDIR_HI r) with
  | none => h
  | some r =>
    let lo := a == XLT_TDIR_LO r || a == XLT_KDIR_LO r
    let ok := if a == XLT_TDIR_LO r || a == XLT_TDIR_HI r then w.keeperSup || w.hostPriv else w.agent == .loader || w.agent == .hw
    if !ok then h
    else if lo then h.wr a (v &&& 0xFFFF8001)
    else if bit v.toNat 20 then h
    else h.wr a (v &&& 0x001FFFFF)

/-- The caches of a region are emptied and its walks end (R281); an invalidation queued in it has nothing left to remove, so it is done (R277, R279). -/
def xltClear (h : Hw) (r : Nat) : Hw :=
  let own := (h.xlt r).inv.filter (fun i => i.home == r)
  forEach (List.range 8) (own.foldl invReport (xltSync (h.setXlt r XltSt.empty) r)) (fun h c =>
    if (h.chain (8 * r + c)).ubuf.isEmpty then h else h.setChain (8 * r + c) { h.chain (8 * r + c) with ubuf := [] })

end Sys2Proof.Machine
end

