-- ==== Sys2Proof/Machine/Requests.lean ====
section
/-!
DEFINITION. The collective request (R161 to R163, R173, R177 to R181): its fields and checks, and the schedule into which the collective service expands it. A schedule is a list of
parts, each a number of blocks and the acts of a block. The vendor's microcode is not published; where the spec fixes the order of combination, the steps, the links, the areas and the
counts, the schedule follows it, and what it leaves to the microcode is a DESIGN CHOICE of log 55.
-/
namespace Sys2Proof.Machine

/-! ### Fields (R161, R162) -/

def copALLREDUCE : Nat := 0x20
def copREDSCAT : Nat := 0x21
def copALLGATHER : Nat := 0x22
def copBCAST : Nat := 0x23
def copALLTOALL : Nat := 0x24
def copBARRIER : Nat := 0x25
def copPUT : Nat := 0x26
def copGET : Nat := 0x27
def copRESTART : Nat := 0x28

/-- A word of a request. -/
def rqW (ws : List Nat) (k : Nat) : Nat := ws.getD k 0
def rqCOP (ws : List Nat) : Nat := bits (rqW ws 0) 63 58
def rqFMT (ws : List Nat) : Nat := bits (rqW ws 0) 57 52
def rqALG (ws : List Nat) : Nat := bits (rqW ws 0) 51 48
def rqCOMB (ws : List Nat) : Nat := bits (rqW ws 0) 47 44
def rqCFMT (ws : List Nat) : Nat := bits (rqW ws 0) 43 40
def rqRND (ws : List Nat) : Nat := bits (rqW ws 0) 39 37
def rqAW (ws : List Nat) : Nat := bits (rqW ws 0) 36 34
def rqMEAN (ws : List Nat) : Bool := bit (rqW ws 0) 33
def rqLREC (ws : List Nat) : Bool := bit (rqW ws 0) 32
def rqCMODE (ws : List Nat) : Nat := bits (rqW ws 0) 31 30
def rqFPBAR (ws : List Nat) : Bool := bit (rqW ws 0) 29
def rqFTZ (ws : List Nat) : Bool := bit (rqW ws 0) 28
def rqCOUNT (ws : List Nat) : Nat := if rqW ws 1 / 2 ^ 32 % 2 ^ 32 = 0 then 2 ^ 32 else rqW ws 1 / 2 ^ 32 % 2 ^ 32
def rqCTX (ws : List Nat) : Nat := bits (rqW ws 1) 31 20
def rqQUEUE (ws : List Nat) : Nat := bits (rqW ws 1) 19 10
def rqROOT (ws : List Nat) : Nat := rqW ws 1 % 1024
def rqSRC (ws : List Nat) : Nat := rqW ws 2 % 2 ^ 48
def rqDST (ws : List Nat) : Nat := rqW ws 3 % 2 ^ 48
def rqOPID (ws : List Nat) : Nat := bits (rqW ws 4) 63 48
def rqWOFF (ws : List Nat) : Nat := rqW ws 4 % 2 ^ 32
def rqRECVA (ws : List Nat) : Nat := rqW ws 5 % 2 ^ 48
def rqSEED (ws : List Nat) : Nat := rqW ws 6 % 2 ^ 64
def rqReduction (ws : List Nat) : Bool := rqCOP ws == copALLREDUCE || rqCOP ws == copREDSCAT
def rqAnchored (ws : List Nat) : Bool := rqReduction ws && rqCFMT ws == cfANCHORED
/-- ROOT or PEER means something. -/
def rqRooted (ws : List Nat) : Bool := rqCOP ws == copBCAST || rqCOP ws == copPUT || rqCOP ws == copGET

/-- A switch agent (R172). -/
def Hw.cxAgent (h : Hw) (n : Nat) : Bool := h.rb (CXE_CTL n) CXE_CTL_AGENT

/-- Elements of the vector that is combined (R163): C, or N blocks for REDSCAT. An agent, which knows no N, takes COUNT as the elements that its links carry (DESIGN CHOICE, log 55). -/
def rqElems (h : Hw) (ws : List Nat) : Nat :=
  if rqCOP ws = copREDSCAT ∧ h.cxAgent (rqCTX ws) = false then h.cxN (rqCTX ws) * rqCOUNT ws else rqCOUNT ws
/-- Elements of DST a successful request writes at this rank (R161). -/
def rqDst (h : Hw) (ws : List Nat) : Nat :=
  let n := h.cxN (rqCTX ws)
  let c := rqCOP ws
  if h.cxAgent (rqCTX ws) then 0
  else if c = copALLREDUCE ∨ c = copREDSCAT ∨ c = copBCAST ∨ c = copGET then rqCOUNT ws
  else if c = copALLGATHER ∨ c = copALLTOALL then n * rqCOUNT ws
  else 0

/-- The algorithm a request runs (R162): its ALG, or the context's default. -/
def rqAlg (h : Hw) (ws : List Nat) : Nat := if rqALG ws = 0 then h.rf (CXE_CTL (rqCTX ws)) CXE_CTL_ALG else rqALG ws

/-- A power of two. -/
def isPow2 (n : Nat) : Bool := n != 0 && n == 2 ^ Nat.log2 n

/-- Links of a region with a role, ascending (R169). -/
def roleLinks (h : Hw) (n role : Nat) : List Nat := (linksOf (n / 1024)).filter (fun lk => h.cxRole n (lk % 32) == role)

/-! ### The tree (R177) -/

/-- The rank counted from ROOT. -/
def relRank (n root p : Nat) : Nat := (p + n - root % n) % n
/-- The children of rank p with the STEP of their contributions: the members of its group in ascending order, then at the root the leaders. -/
def treeKids (n root p : Nat) : List (Nat × Nat) :=
  let q := relRank n root p
  let abs := fun x => (x + root) % n
  let members := if q % 16 = 0 then (List.range 15).filterMap (fun k => if q + k + 1 < n then some (abs (q + k + 1), k + 1) else none) else []
  let leaders := if q = 0 then (List.range 64).filterMap (fun k => if 0 < k ∧ 16 * k < n then some (abs (16 * k), 0x10 + k) else none) else []
  members ++ leaders
/-- The parent of rank p, with the STEP of its own contribution. -/
def treeParent (n root p : Nat) : Option (Nat × Nat) :=
  let q := relRank n root p
  if q = 0 then none else if q % 16 = 0 then some (root % n, 0x10 + q / 16) else some ((q / 16 * 16 + root) % n, q % 16)
/-- The root of a tree: ROOT for a broadcast, rank 0 otherwise. -/
def rqTreeRoot (ws : List Nat) : Nat := if rqCOP ws = copBCAST then rqROOT ws else 0

/-! ### The checks (R163) -/

/-- The algorithm's conditions hold (R177). A broadcast by halving-doubling, for which the table gives no steps, is one of its operations here (DESIGN CHOICE, log 55). -/
def algOk (h : Hw) (ws : List Nat) : Bool :=
  let n := rqCTX ws
  let N := h.cxN n
  let p := h.cxRank n
  let has := fun q => match h.peerLink n q with | some lk => lk / 32 == n / 1024 | none => false
  let c := rqCOP ws
  if c = copRESTART then true
  else if h.cxAgent n then
    (rqReduction ws || c == copALLGATHER || c == copBCAST) && rqAlg h ws == 4 && (roleLinks h n 3).length != 0 && decide ((roleLinks h n 2).length ≤ 1)
  else if c = copALLTOALL then (List.range N).all (fun q => q == p || has q)
  else if c = copBARRIER then
    (List.range 10).all (fun k => if 2 ^ k < N then has ((p + 2 ^ k) % N) && has ((p + N - 2 ^ k % N) % N) else true)
  else if c = copPUT ∨ c = copGET then rqROOT ws == p || has (rqROOT ws)
  else match rqAlg h ws with
    | 1 => (roleLinks h n 1).length != 0
    | 2 => isPow2 N && (List.range 10).all (fun k => if 2 ^ k < N then has (Nat.xor p (2 ^ k)) else true)
    | 3 => (treeKids N (rqTreeRoot ws) p).all (fun x => has x.1) && (match treeParent N (rqTreeRoot ws) p with | none => true | some x => has x.1)
    | 4 => (roleLinks h n 2).length == 1
    | _ => false

/-- Minimum BUFSIZE in bytes (R178). -/
def minBuf (h : Hw) (ws : List Nat) : Nat :=
  let n := rqCTX ws
  let P := 2 ^ 18
  let c := rqCOP ws
  let agent := h.cxAgent n
  if c = copBARRIER ∨ c = copPUT ∨ c = copRESTART then 0
  else if agent then 2 * P * (((roleLinks h n 3).length + 4) / 5)
  else if c = copALLTOALL ∨ c = copBCAST ∨ c = copGET then 2 * P
  else match rqAlg h ws with
    | 1 => 2 * P * (roleLinks h n 1).length
    | 3 => 2 * P * ((treeKids (h.cxN n) 0 (h.cxRank n)).length + 1)
    | _ => 2 * P

/-- Reserved bits of a request are zero, and so is ROOT in an operation that names no rank (R162). -/
def rqReservedOk (ws : List Nat) : Bool :=
  rqW ws 0 % 2 ^ 28 == 0 && bits (rqW ws 2) 63 48 == 0 && bits (rqW ws 3) 63 48 == 0 && bits (rqW ws 5) 63 48 == 0 && bits (rqW ws 4) 47 32 == 0 &&
  (rqRooted ws || rqROOT ws == 0)

/-- The context that a request names is one of the region. -/
def rqKnown (h : Hw) (r : Nat) (ws : List Nat) : Bool := rqCTX ws / 1024 == r && h.hasCtx (rqCTX ws)

/-- The first failing check of a request (R163): its status and subcode. `r` is the service's region and `qw` the world of the queue it came from. The checks against a context are
made where the context is one of the region; where it is not, 0x0A fails. -/
def rqCheck (h : Hw) (r : Nat) (qw : World) (ws : List Nat) : Option (Nat × Nat) :=
  let n := rqCTX ws
  let known := rqKnown h r ws
  let valid := known && h.rb (CXE_CTL n) CXE_CTL_V
  let c := rqCOP ws
  let N := h.cxN n
  let st := h.cxState n
  let kind := fmtKind (rqFMT ws)
  if c < copALLREDUCE ∨ copRESTART < c then some (0x20, 1)
  else if known && c != copRESTART && st == csHalted then some (0x24, 0)
  else if known && c != copRESTART && st != csIdle then some (0x20, 1)
  else if kind == .reserved || kind == .anch || kind == .ancrec || (rqReduction ws && kind == .mx) then some (0x20, 2)
  else if rqALG ws > 4 || (valid && !algOk h ws) then some (0x20, 3)
  else if rqReduction ws && !(combineOk (rqFMT ws) (rqCOMB ws) (rqCFMT ws) (rqRND ws) (rqAW ws) && decide (rqCOMB ws ≤ 6) && !(rqMEAN ws && cfIsInt (rqCFMT ws))) then some (0x20, 4)
  else if rqAnchored ws && known && decide (N > 256) then some (0x20, 5)
  else if rqAnchored ws && known && decide ((rqElems h ws + 255) / 256 > h.rf (CXE_AWBLK n) CXE_AWBLK_AWBLK) then some (0x20, 6)
  else if valid && rqRooted ws && !h.cxAgent n && (decide (rqROOT ws ≥ N) || (c != copBCAST && rqROOT ws == h.cxRank n)) then some (0x20, 7)
  else if valid && decide (h.rf (CXE_BUFSZ n) CXE_BUFSZ_BUFSIZE * 4096 < minBuf h ws) then some (0x20, 9)
  else if !valid || h.cxWorld n != qw then some (0x20, 0xA)
  else if !rqReservedOk ws || !h.hasQueue (rqQUEUE ws) then some (0x20, 0xB)
  else none

/-! ### Streams of the service's chain commands -/

/-- Bytes that n elements of a format take. -/
def fmtBytes (fmt n : Nat) : Nat := n / fmtItem fmt * fmtCont fmt

/-- The unsigned integer format in which elements of a format are moved without being converted (R161; DESIGN CHOICE, log 55). -/
def moveFmt (fmt : Nat) : Nat := if fmtCont fmt % 4 = 0 then 0xC else if fmtCont fmt % 2 = 0 then 0xD else 0xE

/-- The format code of a combine format (R83, R85). -/
def cfmtFmt (cf : Nat) : Nat := if cf ≤ 5 then cf + 1 else if cf ≤ 8 then cf + 2 else cf + 3

/-- The anchored integer format of a request's carried width (R88). -/
def rqAnchFmt (ws : List Nat) : Nat :=
  match rqAW ws with
  | 4 => 0x18 | 5 => 0x19 | 6 => 0x1A | 7 => 0x1B
  | _ => if rqFMT ws = 1 then 0x1B else if rqFMT ws = 2 then 0x1A else if rqFMT ws = 5 ∨ rqFMT ws = 6 then 0x18 else 0x19

/-- The format in which partial sums travel (R179, R180): the carried width, CFMT where it is wider than FMT, or FMT. -/
def rqLinkFmt (ws : List Nat) : Nat :=
  if rqAnchored ws then rqAnchFmt ws
  else
    let c := cfmtFmt (rqCFMT ws)
    if fmtCont (rqFMT ws) < fmtCont c then c else rqFMT ws

/-- A stream of a service command: a link with its STEP, or memory by virtual address or, `phys`, by a local offset of the context's areas; and its format. -/
structure SvcOp where
  link : Option (Nat × Nat)
  addr : Nat
  phys : Bool
  fmt  : Nat
deriving DecidableEq, Repr

def opMem (a fmt : Nat) : SvcOp := ⟨none, a % 2 ^ 48, false, fmt⟩
def opLoc (a fmt : Nat) : SvcOp := ⟨none, a, true, fmt⟩
def opLink (lk step fmt : Nat) : SvcOp := ⟨some (lk, step), 0, false, fmt⟩
/-- The same bytes in another format. -/
def SvcOp.as (o : SvcOp) (fmt : Nat) : SvcOp := { o with fmt := fmt }
/-- The stream from a byte of memory on. -/
def SvcOp.plus (o : SvcOp) (n : Nat) : SvcOp := { o with addr := o.addr + n }

/-- The descriptor word of a stream, of traffic class `tc` where it is sent (R87, R174). -/
def SvcOp.word (o : SvcOp) (tc : Nat) : Nat := match o.link with | some (lk, step) => lk + step * 2 ^ 7 + tc * 2 ^ 19 | none => o.addr % 2 ^ 48 + 2 ^ 48
def SvcOp.kind (o : SvcOp) : Nat := if o.link.isSome then kLink else kMem

/-- The arithmetic of a service command. -/
structure SvcAr where
  cfmt : Nat
  comb : Nat
  scl  : Nat
  rnd  : Nat
  aw   : Nat
  w5   : Nat
  w6   : Nat
  ftz  : Bool
deriving DecidableEq, Repr

def arPlain : SvcAr := ⟨0, 0, 0, 0, 0, 0, 0, false⟩

/-- A chain command of the service, of a step and traffic class; none when it would move no element. -/
def svcIssueOf (ws : List Nat) (tc opc : Nat) (a b : Option SvcOp) (d : SvcOp) (count : Nat) (m : SvcAr) (step : Nat) (put : Option Nat) : List SvcAct :=
  if count = 0 then []
  else
    let kind := fun (o : Option SvcOp) => match o with | some x => x.kind | none => kNone
    let fmt := fun (o : Option SvcOp) => match o with | some x => x.fmt | none => 0
    let word := fun (o : Option SvcOp) => match o with | some x => x.word 0 | none => 0
    let w0 := opc * 2 ^ 58 + fmt a * 2 ^ 52 + fmt b * 2 ^ 46 + d.fmt * 2 ^ 40 + m.cfmt * 2 ^ 36 + m.comb * 2 ^ 32 + m.scl * 2 ^ 30 + m.rnd * 2 ^ 27 + m.aw * 2 ^ 24 +
      kind a * 2 ^ 22 + kind b * 2 ^ 20 + d.kind * 2 ^ 18 + 2 * 2 ^ 16 + b2n m.ftz * 2 ^ 12
    let w1 := count % 2 ^ 32 * 2 ^ 32 + rqCTX ws * 2 ^ 20 + rqQUEUE ws * 2 ^ 10
    let ph := fun (o : Option SvcOp) (s : Nat) => match o with | some x => if x.phys then [s] else [] | none => []
    [.issue ⟨[w0, w1, word a, word b, d.word tc, m.w5, m.w6, 0], ph a 0 ++ ph b 1 ++ ph (some d) 2, d.link, step, put⟩]

/-! ### Passes: the data, or the records of an anchored request (R173, R180) -/

/-- A pass of a request at a rank: of its data, or of its anchor records. -/
structure Pass where
  ws    : List Nat
  recs  : Bool
  n     : Nat                             -- participants
  p     : Nat                             -- rank
  buf   : Nat                             -- local offset of the buffer area
  bufsz : Nat                             -- its bytes
  aw    : Nat                             -- local offset of the anchor window
  peer  : Nat → Nat                       -- link toward a rank

/-- A pass of a request in its context. -/
def passOf (h : Hw) (ws : List Nat) (recs : Bool) : Pass :=
  let n := rqCTX ws
  ⟨ws, recs, h.cxN n, h.cxRank n, h.rf (CXE_BUF n) CXE_BUF_BUFBASE * 4096, h.rf (CXE_BUFSZ n) CXE_BUFSZ_BUFSIZE * 4096, h.rf (CXE_AW n) CXE_AW_AWBASE * 64,
   fun q => (h.peerLink n q).getD 0⟩

/-- STEP of a step (R173), and the traffic class (R174). -/
def Pass.st (P : Pass) (s : Nat) : Nat := if P.recs then 0x800 + s else s
def Pass.tc (P : Pass) : Nat := b2n P.recs
/-- The format of a contribution, that of partial results, and that in which finished results are moved. -/
def Pass.efmt (P : Pass) : Nat := if P.recs then 0x20 else rqFMT P.ws
def Pass.lfmt (P : Pass) : Nat := if P.recs then 0x20 else if rqReduction P.ws then rqLinkFmt P.ws else rqFMT P.ws
def Pass.mfmt (P : Pass) : Nat := if P.recs then 0x20 else moveFmt (rqFMT P.ws)
/-- Every rank wants the whole result. The records of a reduction do so whatever its operation: each rank converts by the merged record of every block (R180; DEDUCED, log 55). -/
def Pass.whole (P : Pass) : Bool := P.recs || rqCOP P.ws != copREDSCAT
/-- Elements of a piece of 256 KiB (R178), in whole anchor blocks; records of one. -/
def Pass.piece (P : Pass) : Nat :=
  let f := fun c => 2 ^ 18 / fmtCont c * fmtItem c
  if P.recs then 2 ^ 17 else min (f P.lfmt) (f P.efmt) / 256 * 256
/-- A landing slot of 256 KiB in the buffer area. -/
def Pass.slot (P : Pass) (k fmt : Nat) : SvcOp := opLoc (P.buf + k * 2 ^ 18) fmt
/-- Element i of the rank's contribution, and of its result. -/
def Pass.src (P : Pass) (i : Nat) : SvcOp := if P.recs then opLoc (P.aw + 2 * i) 0x20 else opMem (rqSRC P.ws + fmtBytes (rqFMT P.ws) i) (rqFMT P.ws)
def Pass.dst (P : Pass) (i : Nat) : SvcOp := if P.recs then opLoc (P.aw + 2 * i) 0x20 else opMem (rqDST P.ws + fmtBytes (rqFMT P.ws) i) (rqFMT P.ws)
/-- A link stream of the pass. -/
def Pass.on (P : Pass) (lk s fmt : Nat) : SvcOp := opLink lk (P.st s) fmt

/-- Move n elements of finished data without converting them (R161). -/
def Pass.move (P : Pass) (a d : SvcOp) (n s : Nat) : List SvcAct :=
  svcIssueOf P.ws P.tc opCOPY (some (a.as P.mfmt)) none (d.as P.mfmt) (min (2 ^ 32) (fmtBytes P.efmt n / fmtCont P.mfmt)) arPlain (P.st s) none

/-- The arithmetic of a stage of a reduction whose first element is i (R179): the last one rounds in RND and divides by N under MEAN; an earlier one follows R125, to nearest where RND
is stochastic, which belongs to the last (R89). -/
def Pass.ar (P : Pass) (last : Bool) (i comb : Nat) : SvcAr :=
  if P.recs then ⟨0, comb, 0, 0, 0, 0, 0, false⟩
  else
    let ws := P.ws
    let anch := rqAnchored ws
    let mean := last && rqMEAN ws
    ⟨rqCFMT ws, comb, if mean then 2 else 0, if last || rqRND ws != 5 then rqRND ws else 0, rqAW ws, if mean then P.n else 0,
     if anch then i / 256 else if last && rqRND ws == 5 then rqSEED ws else 0, rqFTZ ws⟩
/-- The combination of a request, or MAX of records (R145, R149). -/
def Pass.comb (P : Pass) : Nat := if P.recs then 2 else if rqAnchored P.ws then 7 else rqCOMB P.ws
/-- Combine n elements of two streams from element i on. -/
def Pass.combine (P : Pass) (last : Bool) (a b d : SvcOp) (i n s : Nat) : List SvcAct :=
  svcIssueOf P.ws P.tc opCOMB (some a) (some b) d n (P.ar last i P.comb) (P.st s) none
/-- Convert n elements, or only send them on. -/
def Pass.convert (P : Pass) (last : Bool) (a d : SvcOp) (i n s : Nat) : List SvcAct :=
  svcIssueOf P.ws P.tc opCOPY (some a) none d n (P.ar last i 0) (P.st s) none

/-- Post for n elements of a format on a link (R175). -/
def Pass.post (P : Pass) (lk s fmt n : Nat) (land : Option SvcOp) : List SvcAct :=
  if n = 0 then []
  else [.post lk (P.st s) land.isNone (match land with | some o => o.addr | none => 0) (fmtBytes fmt n) true]
/-- Wait until the landing post of a step is filled. -/
def Pass.landed (P : Pass) (lk s n : Nat) (land : SvcOp) : List SvcAct := if n = 0 then [] else [.awaitLanded lk (P.st s) land.addr]

/-! ### Ranges -/

/-- The next anchor block's first element. -/
def up256 (x : Nat) : Nat := (x + 255) / 256 * 256
/-- Cut i of a range into m parts at anchor-block boundaries. -/
def cutAt (a b m i : Nat) : Nat := if i = 0 then a else if m ≤ i then b else min b (up256 (a + (b - a) * i / m))
/-- Part i of a range. -/
def part (ab : Nat × Nat) (m i : Nat) : Nat × Nat := (cutAt ab.1 ab.2 m i, cutAt ab.1 ab.2 m (i + 1))
/-- Piece k of a range: the first ends at an anchor-block boundary where the range begins inside a block. -/
def pieceOf (ab : Nat × Nat) (sz k : Nat) : Nat × Nat :=
  let (a, b) := ab
  let f := min b (up256 a)
  if f = a then (min b (a + k * sz), min b (a + (k + 1) * sz))
  else if k = 0 then (a, f) else (min b (f + (k - 1) * sz), min b (f + k * sz))
/-- Enough pieces for a range of a length. -/
def piecesIn (len sz : Nat) : Nat := len / max 1 sz + 2

/-- A range of elements as this pass counts: its records are those of the anchor blocks that begin in it. -/
def Pass.rng (P : Pass) (ab : Nat × Nat) : Nat × Nat := if P.recs then ((ab.1 + 255) / 256, (ab.2 + 255) / 256) else ab
/-- Piece k of a range of the pass. -/
def Pass.pc (P : Pass) (ab : Nat × Nat) (sz k : Nat) : Nat × Nat :=
  if P.recs then (min ab.2 (ab.1 + k * sz), min ab.2 (ab.1 + (k + 1) * sz)) else pieceOf ab sz k
/-- Block q of N of the vector (R161, R177): a part of it, or the block of C elements of REDSCAT and ALLGATHER. -/
def Pass.block (P : Pass) (q : Nat) : Nat × Nat :=
  let c := rqCOUNT P.ws
  if rqCOP P.ws = copREDSCAT ∨ rqCOP P.ws = copALLGATHER then (q * c, (q + 1) * c) else part (0, c) P.n q
/-- Elements of the vector that the pass combines or spreads. -/
def Pass.total (P : Pass) : Nat :=
  let c := rqCOUNT P.ws
  if rqCOP P.ws = copREDSCAT ∨ rqCOP P.ws = copALLGATHER then P.n * c else c
/-- Element a of the vector at this rank's SRC or DST, where it holds one block only. -/
def Pass.own (P : Pass) (a : Nat) : Nat := a - P.p * rqCOUNT P.ws
/-- The result of the reduction at element a. -/
def Pass.res (P : Pass) (a : Nat) : SvcOp := P.dst (if P.whole then a else P.own a)
/-- Copy the elements [a, b) of a finished stream that this rank wants to DST, or to the anchor window. -/
def Pass.keep (P : Pass) (o : SvcOp) (a b s : Nat) : List SvcAct :=
  if P.whole then P.move o (P.dst a) (b - a) s
  else
    let lo := max a (P.p * rqCOUNT P.ws)
    let hi := min b ((P.p + 1) * rqCOUNT P.ws)
    P.move (o.plus (fmtBytes P.efmt (lo - a))) (P.dst (P.own lo)) (hi - lo) s

/-! ### The ring (R177, R178) -/

/-- Chunk q of the stripe j of m. -/
def Pass.chunk (P : Pass) (m j q : Nat) : Nat × Nat :=
  P.rng (if rqCOP P.ws = copREDSCAT ∨ rqCOP P.ws = copALLGATHER then part (P.block q) m j else part (part (0, rqCOUNT P.ws) m j) P.n q)
/-- The rank `back` places before this one. -/
def Pass.prev (P : Pass) (back : Nat) : Nat := (P.p + 2 * P.n - back) % P.n
/-- Rounds of pieces of the ring. -/
def Pass.ringRounds (P : Pass) (m : Nat) : Nat :=
  piecesIn (if rqCOP P.ws = copREDSCAT ∨ rqCOP P.ws = copALLGATHER then rqCOUNT P.ws / m + 512 else rqCOUNT P.ws / m / P.n + 512) P.piece
/-- Landing slot x of stripe j: two for each. -/
def Pass.ringSlot (P : Pass) (j x fmt : Nat) : SvcOp := P.slot (2 * j + x % 2) fmt

/-- Block i of the reduce-scatter of piece k: the posts of step i and, by stripe, the first send or the combination of step i - 1, whose result is step i or the last. -/
def Pass.ringReduce (P : Pass) (lks : List Nat) (k i : Nat) : List SvcAct :=
  let js := lks.zip (List.range lks.length)
  let rg := fun (j q : Nat) => P.pc (P.chunk lks.length j q) P.piece k
  (if i = 0 then [.awaitChains] else []) ++
  (if i ≤ P.n - 2 then js.flatMap (fun e => let (a, b) := rg e.2 (P.prev (i + 2)); P.post e.1 i P.lfmt (b - a) none) else []) ++
  js.flatMap (fun e =>
    let (a, b) := rg e.2 (P.prev (i + 1))
    if i = 0 then P.convert false (P.src a) (P.on e.1 0 P.lfmt) a (b - a) 0
    else if i ≤ P.n - 2 then P.combine false (P.src a) (P.on e.1 (i - 1) P.lfmt) (P.on e.1 i P.lfmt) a (b - a) (i - 1)
    else P.combine true (P.src a) (P.on e.1 (i - 1) P.lfmt) (if P.whole then P.ringSlot e.2 0 P.efmt else P.dst (P.own a)) a (b - a) (i - 1))

/-- Block t of the all-gather of piece k, whose first step is `base`: chunk p - t is sent on as step base + t and copied to DST, and the next one lands. `first` is the own chunk. -/
def Pass.ringGather (P : Pass) (lks : List Nat) (base k t : Nat) (first : Nat → Nat → SvcOp) : List SvcAct :=
  let js := lks.zip (List.range lks.length)
  let rg := fun (j q : Nat) => P.pc (P.chunk lks.length j q) P.piece k
  let more := decide (t ≤ P.n - 2)
  (if t = 0 then [] else js.flatMap (fun e => let (a, b) := rg e.2 (P.prev t); P.landed e.1 (base + t - 1) (b - a) (P.ringSlot e.2 t P.efmt))) ++
  [.awaitChains] ++
  (if more then js.flatMap (fun e => let (a, b) := rg e.2 (P.prev (t + 1)); P.post e.1 (base + t) P.efmt (b - a) (some (P.ringSlot e.2 (t + 1) P.efmt))) else []) ++
  js.flatMap (fun e =>
    let (a, b) := rg e.2 (P.prev t)
    let o := if t = 0 then first e.2 a else P.ringSlot e.2 t P.efmt
    (if more then P.move o (P.on e.1 (base + t) P.mfmt) (b - a) (base + t) else []) ++ P.move o (P.dst a) (b - a) (base + t))

/-- A broadcast around the ring, by stripe and piece (R177). -/
def Pass.ringBcast (P : Pass) (lks : List Nat) (k : Nat) : List SvcAct :=
  let q := relRank P.n (rqROOT P.ws) P.p
  let js := lks.zip (List.range lks.length)
  let rg := fun (j : Nat) => P.pc (part (0, rqCOUNT P.ws) lks.length j) P.piece k
  [.awaitChains] ++
  (if q = 0 then [] else
    js.flatMap (fun e => let (a, b) := rg e.2; P.post e.1 (q - 1) P.efmt (b - a) (some (P.ringSlot e.2 0 P.efmt))) ++
    js.flatMap (fun e => let (a, b) := rg e.2; P.landed e.1 (q - 1) (b - a) (P.ringSlot e.2 0 P.efmt))) ++
  js.flatMap (fun e =>
    let (a, b) := rg e.2
    let o := if q = 0 then P.src a else P.ringSlot e.2 0 P.efmt
    (if q + 1 < P.n then P.move o (P.on e.1 q P.mfmt) (b - a) q else []) ++ P.move o (P.dst a) (b - a) q)

/-- The parts of a ring. -/
def Pass.ring (P : Pass) (lks : List Nat) : List (Nat × (Nat → List SvcAct)) :=
  let n := P.n
  let R := P.ringRounds lks.length
  if rqCOP P.ws = copBCAST then [(piecesIn (rqCOUNT P.ws / lks.length + 512) P.piece, P.ringBcast lks)]
  else if rqCOP P.ws = copALLGATHER then [(R * n, fun i => P.ringGather lks 0 (i / n) (i % n) (fun _ a => P.src (P.own a)))]
  else if P.whole then
    [(R * (2 * n), fun i =>
      let k := i / (2 * n)
      let x := i % (2 * n)
      if x < n then P.ringReduce lks k x else P.ringGather lks (n - 1) k (x - n) (fun j _ => P.ringSlot j 0 P.efmt))]
  else [(R * n, fun i => P.ringReduce lks (i / n) (i % n))]

/-! ### Halving-doubling (R177, R178) -/

/-- Elements of a piece: half the blocks stand in the buffer area as partial results. -/
def Pass.hdPiece (P : Pass) : Nat :=
  if rqReduction P.ws then
    (let e := min P.piece (2 * P.bufsz / P.n / fmtCont P.lfmt)
     if 256 ≤ e then e / 256 * 256 else e)
  else P.piece
/-- Rounds of pieces. -/
def Pass.hdRounds (P : Pass) : Nat :=
  piecesIn (if rqCOP P.ws = copREDSCAT ∨ rqCOP P.ws = copALLGATHER then rqCOUNT P.ws else rqCOUNT P.ws / P.n + 512) P.hdPiece
/-- Piece k of block q. -/
def Pass.hdBlock (P : Pass) (q k : Nat) : Nat × Nat := P.pc (P.rng (P.block q)) P.hdPiece k
/-- The partial result of block q, one of those kept after step 0. -/
def Pass.hdSlot (P : Pass) (q : Nat) : SvcOp := opLoc (P.buf + q / 2 * (P.hdPiece * fmtCont P.lfmt)) P.lfmt
/-- Blocks of the range held after s halvings. -/
def Pass.hdHeld (P : Pass) (p s : Nat) : List Nat := (List.range P.n).filter (fun q => q % 2 ^ s == p % 2 ^ s)

/-- Step s of the halving: the half that holds the partner's block goes, and the other is combined with what comes, the lower rank's data as operand A. -/
def Pass.halve (P : Pass) (k s : Nat) : List SvcAct :=
  let partner := Nat.xor P.p (2 ^ s)
  let lk := P.peer partner
  let last := decide (P.n ≤ 2 ^ (s + 1))
  [.awaitChains] ++ (P.hdHeld P.p (s + 1)).flatMap (fun q =>
    let q2 := Nat.xor q (2 ^ s)
    let (a, b) := P.hdBlock q k
    let (a2, b2) := P.hdBlock q2 k
    let loc := fun (x y : Nat) => if s = 0 then P.src y else P.hdSlot x
    let inp := P.on lk s P.lfmt
    P.post lk s P.lfmt (b - a) none ++ P.convert false (loc q2 a2) (P.on lk s P.lfmt) a2 (b2 - a2) s ++
    P.combine last (if P.p < partner then loc q a else inp) (if P.p < partner then inp else loc q a) (if last then P.res a else P.hdSlot q) a (b - a) s)

/-- Step t of the doubling, `base` steps into the request: the blocks held go to the partner, and its blocks come. -/
def Pass.double (P : Pass) (k t base : Nat) : List SvcAct :=
  let L := Nat.log2 P.n
  let d := 2 ^ (L - 1 - t)
  let lk := P.peer (Nat.xor P.p d)
  [.awaitChains] ++ (P.hdHeld P.p (L - t)).flatMap (fun q =>
    let (a, b) := P.hdBlock q k
    let (a2, b2) := P.hdBlock (Nat.xor q d) k
    P.post lk (base + t) P.efmt (b2 - a2) none ++ P.move (P.dst a) (P.on lk (base + t) P.mfmt) (b - a) (base + t) ++
    P.move (P.on lk (base + t) P.mfmt) (P.dst a2) (b2 - a2) (base + t))

/-- Step s of a broadcast: the ranks that have the data, counted from ROOT by XOR, send it to the partner that differs in bit s. -/
def Pass.hdBcast (P : Pass) (k s : Nat) : List SvcAct :=
  let u := Nat.xor P.p (rqROOT P.ws)
  let (a, b) := P.pc (0, rqCOUNT P.ws) P.piece k
  let lk := P.peer (Nat.xor P.p (2 ^ s))
  let o := if u = 0 then P.src a else P.slot 0 P.efmt
  [.awaitChains] ++ (if u = 0 ∧ s = 0 then P.move o (P.dst a) (b - a) 0 else []) ++
  (if u < 2 ^ s then P.move o (P.on lk s P.mfmt) (b - a) s
   else if u < 2 ^ (s + 1) then
     P.post lk s P.efmt (b - a) (some (P.slot 0 P.efmt)) ++ P.landed lk s (b - a) (P.slot 0 P.efmt) ++ P.move (P.slot 0 P.efmt) (P.dst a) (b - a) s
   else [])

/-- The parts of halving-doubling. -/
def Pass.halving (P : Pass) : List (Nat × (Nat → List SvcAct)) :=
  let L := Nat.log2 P.n
  let R := P.hdRounds
  if rqCOP P.ws = copBCAST then [(piecesIn (rqCOUNT P.ws) P.piece * L, fun i => P.hdBcast (i / L) (i % L))]
  else if rqCOP P.ws = copALLGATHER then
    [(R * (L + 1), fun i =>
      if i % (L + 1) = 0 then (let (a, b) := P.hdBlock P.p (i / (L + 1)); P.move (P.src (P.own a)) (P.dst a) (b - a) 0) else P.double (i / (L + 1)) (i % (L + 1) - 1) 0)]
  else if P.whole then [(R * (2 * L), fun i => if i % (2 * L) < L then P.halve (i / (2 * L)) (i % (2 * L)) else P.double (i / (2 * L)) (i % (2 * L) - L) L)]
  else [(R * L, fun i => P.halve (i / L) (i % L))]

/-! ### The tree (R177, R178) -/

/-- Combine the inputs of a leader or of the root from left to right: input i lands in slot i + 1, and the running piece stands in slot 0. -/
def Pass.treeAdd (P : Pass) (a n : Nat) (d : SvcOp) (last : Bool) (total : Nat) : List ((Nat × Nat) × Nat) → List SvcAct
  | [] => []
  | ((q, s), i) :: rest =>
    let sl := P.slot (i + 1) P.lfmt
    let fin := decide (i + 1 = total)
    P.landed (P.peer q) s n sl ++
    P.combine (fin && last) (if i = 0 then P.src a else P.slot 0 P.lfmt) sl (if fin then d else P.slot 0 P.lfmt) a n s ++ [.awaitChains] ++ P.treeAdd a n d last total rest

/-- The way up of the elements [a, b): the root's result stands in the slot after its inputs. -/
def Pass.treeUp (P : Pass) (a b : Nat) : List SvcAct :=
  let kids := treeKids P.n 0 P.p
  let n := b - a
  let up := fun (x : Nat × Nat) => P.on (P.peer x.1) x.2 P.lfmt
  let par := treeParent P.n 0 P.p
  match kids, par with
  | [], some x => P.convert false (P.src a) (up x) a n x.2
  | ks, _ =>
    [.awaitChains] ++ (ks.zip (List.range ks.length)).flatMap (fun e => P.post (P.peer e.1.1) e.1.2 P.lfmt n (some (P.slot (e.2 + 1) P.lfmt))) ++
    P.treeAdd a n (match par with | some x => up x | none => P.slot (ks.length + 1) P.efmt) par.isNone ks.length (ks.zip (List.range ks.length))

/-- The way down of the elements [a, b) of a finished result that stands at the root in `o`: root to leaders, leaders to members. -/
def Pass.treeDown (P : Pass) (root : Nat) (o : SvcOp) (a b : Nat) : List SvcAct :=
  let n := b - a
  let kids := treeKids P.n root P.p
  let down := fun (x : Nat × Nat) => if x.2 < 0x10 then 0x51 else 0x50
  let send := fun (from_ : SvcOp) => (kids.filter (fun x => x.2 ≥ 0x10) ++ kids.filter (fun x => x.2 < 0x10)).flatMap (fun x => P.move from_ (P.on (P.peer x.1) (down x) P.mfmt) n (down x))
  [.awaitChains] ++
  (match treeParent P.n root P.p with
   | none => send o ++ P.keep o a b 0x51
   | some x =>
     let s := down x
     let sl := P.slot 1 P.efmt
     P.post (P.peer x.1) s P.efmt n (some sl) ++ P.landed (P.peer x.1) s n sl ++ send sl ++ P.keep sl a b s)

/-- The way of a block of rank q to the root for an all-gather, through its leader (R177). -/
def Pass.treeGather (P : Pass) (q a b : Nat) : List SvcAct :=
  let n := b - a
  let sl := P.slot 1 P.efmt
  let lead := q / 16 * 16
  let take := fun (x s : Nat) => [.awaitChains] ++ P.post (P.peer x) s P.efmt n (some sl) ++ P.landed (P.peer x) s n sl
  if P.p = q then (match treeParent P.n 0 q with | some x => P.move (P.src (P.own a)) (P.on (P.peer x.1) x.2 P.mfmt) n x.2 | none => [])
  else if P.p = 0 then (if lead = 0 then take q (q % 16) else take lead (0x10 + lead / 16))
  else if P.p = lead then take q (q % 16) ++ P.move sl (P.on (P.peer 0) (0x10 + lead / 16) P.mfmt) n (0x10 + lead / 16)
  else []

/-- Piece k of a reduction through the tree: up, and the result down to every rank. -/
def Pass.treePiece (P : Pass) (ab : Nat × Nat) : List SvcAct :=
  P.treeUp ab.1 ab.2 ++ P.treeDown 0 (P.slot ((treeKids P.n 0 P.p).length + 1) P.efmt) ab.1 ab.2

/-- The parts of a broadcast or an all-gather through the tree. -/
def Pass.treeMoves (P : Pass) : List (Nat × (Nat → List SvcAct)) :=
  let R := piecesIn (rqCOUNT P.ws) P.piece
  if rqCOP P.ws = copBCAST then [(R, fun k => let (a, b) := P.pc (0, rqCOUNT P.ws) P.piece k; P.treeDown (rqROOT P.ws) (P.src a) a b)]
  else
    [(P.n * R, fun i =>
      let q := i / R
      let (a, b) := P.pc (P.block q) P.piece (i % R)
      P.treeGather q a b ++ P.treeDown 0 (if q = 0 then P.src (P.own a) else P.slot 1 P.efmt) a b)]

/-! ### In the network (R172, R177, R178) -/

/-- The format in which the result of an in-network reduction comes down: MEAN divides at the endpoints, which know N (DESIGN CHOICE, log 55). -/
def Pass.rfmt (P : Pass) : Nat := if P.recs then 0x20 else if rqMEAN P.ws then P.lfmt else rqFMT P.ws

/-- Copy the wanted part of a mean's sum to DST, divided and rounded. -/
def Pass.netMean (P : Pass) (o : SvcOp) (a b : Nat) : List SvcAct :=
  let (lo, hi) := if P.whole then (a, b) else (max a (P.p * rqCOUNT P.ws), min b ((P.p + 1) * rqCOUNT P.ws))
  let go := fun (x y : Nat) => P.convert true (o.plus (fmtBytes P.lfmt (x - a))) (P.res x) x (y - x) 1
  if hi ≤ lo then [] else go lo (min hi (up256 lo)) ++ go (min hi (up256 lo)) hi

/-- A piece of a reduction at an endpoint: its data up as step 0, the result down as step 1. -/
def Pass.netEnd (P : Pass) (up : Nat) (ab : Nat × Nat) : List SvcAct :=
  let (a, b) := ab
  let sl := P.slot 0 P.rfmt
  [.awaitChains] ++ P.post up 1 P.rfmt (b - a) (some sl) ++ P.convert false (P.src a) (P.on up 0 P.lfmt) a (b - a) 0 ++ P.landed up 1 (b - a) sl ++
  (if !P.recs && rqMEAN P.ws then P.netMean sl a b else P.keep sl a b 1)

/-- Combine the inputs of an agent in ascending order of its DOWN links. -/
def Pass.netAdd (P : Pass) (a n : Nat) (d : SvcOp) (last : Bool) (total : Nat) (first : SvcOp) : List (Nat × Nat) → List SvcAct
  | [] => []
  | (lk, i) :: rest =>
    let fin := decide (i + 1 = total)
    P.combine (fin && last) (if i = 1 then first else P.slot 0 P.lfmt) (P.on lk 0 P.lfmt) (if fin then d else P.slot 0 P.lfmt) a n 0 ++ [.awaitChains] ++
    P.netAdd a n d last total first rest

/-- A piece of a reduction at a switch agent: its inputs combined, sent up or, at the top, back down. -/
def Pass.netAgent (P : Pass) (downs : List Nat) (up : Option Nat) (ab : Nat × Nat) : List SvcAct :=
  let (a, b) := ab
  let n := b - a
  let sl := P.slot 1 P.rfmt
  let d := match up with | some u => P.on u 0 P.lfmt | none => sl
  let last := up.isNone && (P.recs || !rqMEAN P.ws)
  let ds := downs.zip (List.range downs.length)
  [.awaitChains] ++ downs.flatMap (fun lk => P.post lk 0 P.lfmt n none) ++
  (match downs with
   | [lk] => P.convert last (P.on lk 0 P.lfmt) d a n 0
   | lk :: _ => P.netAdd a n d last downs.length (P.on lk 0 P.lfmt) (ds.drop 1)
   | [] => []) ++ [.awaitChains] ++
  (match up with | some u => P.post u 1 P.rfmt n (some sl) ++ P.landed u 1 n sl | none => []) ++
  downs.flatMap (fun lk => svcIssueOf P.ws P.tc opCOPY (some (sl.as (if P.recs then 0x20 else moveFmt P.rfmt))) none (P.on lk 1 (if P.recs then 0x20 else moveFmt P.rfmt))
    (fmtBytes P.rfmt n / fmtCont (if P.recs then 0x20 else moveFmt P.rfmt)) arPlain (P.st 1) none) ++
  (if P.recs then P.keep sl a b 1 else [])

/-- The parts of an all-gather or broadcast in the network: the bytes of the vector, zero where a rank gives nothing, combined by OR (DESIGN CHOICE, log 55). `lo` to `hi` are the
bytes that this rank gives. -/
def Pass.netMove (P : Pass) (agent : Bool) (downs ups : List Nat) : List (Nat × (Nat → List SvcAct)) :=
  let bytes := fun (x : Nat) => fmtBytes (rqFMT P.ws) x
  let T := bytes (if agent then rqCOUNT P.ws else P.total)
  let (lo, hi) := if rqCOP P.ws = copALLGATHER then (bytes (P.p * rqCOUNT P.ws), bytes ((P.p + 1) * rqCOUNT P.ws)) else if P.p = rqROOT P.ws then (0, T) else (0, 0)
  let orAr : SvcAr := { arPlain with cfmt := 0xB, comb := 5 }
  let fill : SvcAr := { arPlain with cfmt := 0xB }
  let cmd := fun (opc : Nat) (x y : Option SvcOp) (d : SvcOp) (n : Nat) (m : SvcAr) (s : Nat) => svcIssueOf P.ws 0 opc x y d n m s none
  let link := fun (lk s : Nat) => opLink lk s 0xE
  let sl := fun (k : Nat) => P.slot k 0xE
  let land := fun (lk n : Nat) => [SvcAct.post lk 1 false (sl 0).addr n true, .awaitLanded lk 1 (sl 0).addr]
  [((T + 2 ^ 18 - 1) / 2 ^ 18, fun k =>
    let x := k * 2 ^ 18
    let y := min T (x + 2 ^ 18)
    let n := y - x
    if agent then
      let out := match ups with | u :: _ => link u 0 | [] => sl 0
      [.awaitChains] ++ downs.map (fun lk => SvcAct.post lk 0 true 0 n true) ++
      (match downs with
       | [lk] => cmd opCOPY (some (link lk 0)) none out n arPlain 0
       | lk :: rest => (rest.zip (List.range rest.length)).flatMap (fun e =>
           cmd opCOMB (some (if e.2 = 0 then link lk 0 else sl 1)) (some (link e.1 0)) (if e.2 + 1 = rest.length then out else sl 1) n orAr 0 ++ [.awaitChains])
       | [] => []) ++ [.awaitChains] ++
      (match ups with | u :: _ => land u n | [] => []) ++ downs.flatMap (fun lk => cmd opCOPY (some (sl 0)) none (link lk 1) n arPlain 1)
    else
      let u := ups.headD 0
      let a := max x lo
      let b := min y hi
      let from_ := opMem (rqSRC P.ws + (a - lo)) 0xE
      [.awaitChains, SvcAct.post u 1 false (sl 0).addr n true] ++
      (if b ≤ a then cmd opFILL none none (link u 0) n fill 0
       else if a = x ∧ b = y then cmd opCOPY (some from_) none (link u 0) n arPlain 0
       else cmd opFILL none none (sl 1) n fill 0 ++ [.awaitChains] ++ cmd opCOPY (some from_) none ((sl 1).plus (a - x)) (b - a) arPlain 0 ++ [.awaitChains] ++
         cmd opCOPY (some (sl 1)) none (link u 0) n arPlain 0) ++
      [.awaitLanded u 1 (sl 0).addr] ++ cmd opCOPY (some (sl 0)) none (opMem (rqDST P.ws + x) 0xE) n arPlain 1)]

/-! ### The pre-pass (R180) -/

/-- Fill the anchor records of the blocks [x, y) of the rank's data. -/
def Pass.fillRecs (P : Pass) (x y : Nat) : List SvcAct :=
  let ws := P.ws
  let d := opLoc (P.aw + 2 * x) 0x20
  if rqLREC ws then svcIssueOf ws 1 opCOPY (some (opMem (rqRECVA ws + 2 * x) 0x20)) none d (y - x) arPlain 0x800 none
  else
    let n := min P.total (256 * y) - 256 * x
    svcIssueOf ws 1 opANCREC (some (opMem (rqSRC ws + fmtBytes (rqFMT ws) (256 * x)) (rqFMT ws))) none d n { arPlain with rnd := if rqRND ws = 5 then 0 else rqRND ws, ftz := rqFTZ ws } 0x800 none

/-- Blocks of a fill command of 256 KiB of data. -/
def Pass.fillPiece (P : Pass) : Nat := max 1 (2 ^ 18 / fmtCont (rqFMT P.ws) / 256)

/-- Blocks of an anchored request. -/
def rqBlocks (h : Hw) (ws : List Nat) : Nat := (rqElems h ws + 255) / 256
/-- The lead of the pre-pass in blocks (R180): ALEAD 0 is treated as 1. -/
def rqLead (h : Hw) (ws : List Nat) : Nat := min (rqBlocks h ws) (128 * max 1 (h.rf (CXE_OPT (rqCTX ws)) CXE_OPT_ALEAD))

/-- The whole pre-pass before the data, in the ring and halving-doubling (R180): the records filled in the order in which the first step uses the chunks, then merged. -/
def prePass (h : Hw) (ws : List Nat) (lks : List Nat) : List (Nat × (Nat → List SvcAct)) :=
  let P := passOf h ws true
  let F := P.fillPiece
  let alg := rqAlg h ws
  let m := lks.length
  let R := piecesIn ((rqElems h ws / max 1 (m * P.n) + 1024) / 256) F
  (if alg = 1 then
    [(P.n * R, fun i => (List.range m).flatMap (fun j => let (x, y) := P.pc (P.chunk m j (P.prev (i / R + 1))) F (i % R); P.fillRecs x y))]
   else [(piecesIn (rqBlocks h ws) F, fun k => let (x, y) := P.pc (0, rqBlocks h ws) F k; P.fillRecs x y)]) ++
  [(1, fun _ => [.awaitChains])] ++ (if alg = 1 then P.ring lks else P.halving) ++ [(1, fun _ => [.awaitChains, .ardy (rqBlocks h ws), .awaitArdy (rqLead h ws)])]

/-- A reduction whose pieces go through one node in element order, the tree and the network: the record pieces of the pre-pass run one ahead of the data (R180). `one` gives the acts of
a piece of a pass, and `fill` whether this rank has records of its own. -/
def throughNode (h : Hw) (ws : List Nat) (fill : Bool) (one : Pass → Nat × Nat → List SvcAct) : List (Nat × (Nat → List SvcAct)) :=
  let P := passOf h ws false
  let T := rqElems h ws
  if rqAnchored ws then
    let B := rqBlocks h ws
    let Q := max 1 (128 * max 1 (h.rf (CXE_OPT (rqCTX ws)) CXE_OPT_ALEAD))
    let A := passOf h ws true
    let recs := fun (i : Nat) =>
      let x := min B (i * Q)
      let y := min B ((i + 1) * Q)
      if y ≤ x then []
      else (if fill then (List.range (piecesIn (y - x) A.fillPiece)).flatMap (fun k => let (u, v) := A.pc (x, y) A.fillPiece k; A.fillRecs u v) else []) ++
        [.awaitChains] ++ one A (x, y) ++ [.awaitChains, .ardy y]
    let D := (256 * Q + P.piece - 1) / P.piece
    [(1, fun _ => recs 0 ++ [.awaitArdy (rqLead h ws)]),
     ((B / Q + 1) * (D + 1), fun i =>
       let g := i / (D + 1)
       let j := i % (D + 1)
       if j = 0 then recs (g + 1)
       else
         let e := min T (256 * Q * (g + 1))
         let a := min e (256 * Q * g + (j - 1) * P.piece)
         let b := min e (a + P.piece)
         if b ≤ a then [] else one P (a, b))]
  else [((T + P.piece - 1) / P.piece, fun k => one P (k * P.piece, min T ((k + 1) * P.piece)))]

/-- A request of one participant: SRC to DST, through CFMT where the request is anchored or a mean. -/
def aloneSched (h : Hw) (ws : List Nat) : List (Nat × (Nat → List SvcAct)) :=
  let P := passOf h ws false
  let c := rqCOUNT ws
  let R := piecesIn c P.piece
  let data := fun k =>
    let (a, b) := P.pc (0, c) P.piece k
    if rqReduction ws && (rqAnchored ws || rqMEAN ws) then
      svcIssueOf ws 0 opCOPY (some (P.src a)) none (P.dst a) (b - a) { P.ar true a 0 with scl := 2, w5 := 1 } 0 none
    else P.move (P.src a) (P.dst a) (b - a) 0
  (if rqAnchored ws then
    [(piecesIn (rqBlocks h ws) P.fillPiece, fun k => let (x, y) := P.pc (0, rqBlocks h ws) P.fillPiece k; P.fillRecs x (min y (rqBlocks h ws))),
     (1, fun _ => [.awaitChains, .ardy (rqBlocks h ws)])]
   else []) ++ [(R, data)]

/-- ALLTOALL (R177): the own block, then N - 1 rounds. -/
def allToAll (h : Hw) (ws : List Nat) : List (Nat × (Nat → List SvcAct)) :=
  let P := passOf h ws false
  let c := rqCOUNT ws
  let R := piecesIn c P.piece
  let sl := P.slot 0 P.efmt
  [(P.n * R, fun i =>
    let t := i / R
    let (a, b) := P.pc (0, c) P.piece (i % R)
    let dest := (P.p + t) % P.n
    let from_ := P.prev t
    if t = 0 then P.move (P.src (P.p * c + a)) (P.dst (P.p * c + a)) (b - a) 0
    else
      [.awaitChains] ++ P.post (P.peer from_) t P.efmt (b - a) (some sl) ++ P.move (P.src (dest * c + a)) (P.on (P.peer dest) t P.mfmt) (b - a) t ++
      P.landed (P.peer from_) t (b - a) sl ++ P.move sl (P.dst (from_ * c + a)) (b - a) t)]

/-- BARRIER (R177): rounds of tokens. -/
def barrierSched (h : Hw) (ws : List Nat) : List SvcAct :=
  let P := passOf h ws false
  (List.range 10).flatMap (fun k => if 2 ^ k < P.n then [.token (P.peer ((P.p + 2 ^ k) % P.n)) k 2 [], .awaitBarrier (P.peer (P.prev (2 ^ k))) k] else [])

/-- PUT (R176): one command, whose OFFSET is a byte offset in the window, and the peer's DONE. -/
def putSched (h : Hw) (ws : List Nat) : List SvcAct :=
  let P := passOf h ws false
  let f := P.mfmt
  svcIssueOf ws 0 opCOPY (some ((P.src 0).as f)) none (opLink (P.peer (rqROOT ws)) 0xFFF f) (min (2 ^ 32) (fmtBytes (rqFMT ws) (rqCOUNT ws) / fmtCont f)) arPlain 0xFFF (some (rqWOFF ws)) ++
  [.awaitDone]

/-- GET (R176): a GETREQ for each piece that can land, the last piece first, so that the peer refuses a request beyond its window before it sends any of its data
(DESIGN CHOICE, log 55). -/
def getSched (h : Hw) (ws : List Nat) : List (Nat × (Nat → List SvcAct)) :=
  let P := passOf h ws false
  let T := fmtBytes (rqFMT ws) (rqCOUNT ws)
  let R := (T + 2 ^ 18 - 1) / 2 ^ 18
  let lk := P.peer (rqROOT ws)
  let sl := P.slot 0 0xE
  [(R, fun i =>
    let x := (R - 1 - i) * 2 ^ 18
    let n := min T (x + 2 ^ 18) - x
    [.awaitChains, .post lk 0 false sl.addr n false, .token lk 0 6 (leBytes 4 (min (2 ^ 32 - 1) (rqWOFF ws + x)) ++ leBytes 8 n), .awaitLanded lk 0 sl.addr] ++
    svcIssueOf ws 0 opCOPY (some sl) none (opMem (rqDST ws + x) 0xE) n arPlain 0 none)]

/-- The schedule of a request at this rank or agent (R177). -/
def rqSched (h : Hw) (ws : List Nat) : List (Nat × (Nat → List SvcAct)) :=
  let n := rqCTX ws
  let c := rqCOP ws
  let P := passOf h ws false
  let ring := roleLinks h n 1
  let ups := roleLinks h n 2
  let downs := roleLinks h n 3
  if c = copRESTART then []
  else if h.cxAgent n then
    (if rqReduction ws then throughNode h ws false (fun P ab => P.netAgent downs ups.head? ab) else P.netMove true downs ups)
  else if c = copBARRIER then [(1, fun _ => barrierSched h ws)]
  else if c = copPUT then [(1, fun _ => putSched h ws)]
  else if c = copGET then getSched h ws
  else if P.n ≤ 1 then aloneSched h ws
  else if c = copALLTOALL then allToAll h ws
  else match rqAlg h ws with
    | 1 => (if rqAnchored ws then prePass h ws ring else []) ++ P.ring ring
    | 2 => (if rqAnchored ws then prePass h ws ring else []) ++ P.halving
    | 3 => if rqReduction ws then throughNode h ws true (fun P ab => P.treePiece ab) else P.treeMoves
    | _ => if rqReduction ws then throughNode h ws true (fun P ab => P.netEnd (ups.headD 0) ab) else P.netMove false downs ups

/-- Block i of a schedule. -/
def schedAt : List (Nat × (Nat → List SvcAct)) → Nat → Option (List SvcAct)
  | [], _ => none
  | (c, f) :: rest, i => if i < c then some (f i) else schedAt rest (i - c)

end Sys2Proof.Machine
end

