-- ==== Sys2Proof/Machine/Collect.lean ====
section
/-!
DEFINITION. The collective service and the contexts (R161 to R188): the run of a request's schedule, its ending, timeouts, aborts and the restart fence, tokens, posts, the exposure
window and the context registers.
-/
namespace Sys2Proof.Machine

/-! ### The running request -/

/-- Put a context's running request back. -/
def setRun (h : Hw) (n : Nat) (u : CtxRun) : Hw := h.setCtx n { h.ctx n with run := some u }
/-- OPID of the running or last request. -/
def Hw.cxOpid (h : Hw) (n : Nat) : Nat := h.rf (CXE_RUN n) CXE_RUN_OPID
/-- A request of the context runs and its ending is not decided. -/
def Hw.cxLive (h : Hw) (n : Nat) : Bool :=
  (h.cxState n == csRun || h.cxState n == csFence) && (match (h.ctx n).run with | some u => u.ended.isNone | none => false)
/-- Chain commands of a context's request that its region's chains still hold. -/
def svcHeld (h : Hw) (n : Nat) : Bool := (List.range 8).any (fun c => (h.chain (8 * (n / 1024) + c)).all.any (ofRequest n))

/-! ### Ending a request (R183 to R185) -/

/-- Send a token on every link a context uses. -/
def tokenFlood (h : Hw) (n code opid tc : Nat) (payload : List Byte) : Hw :=
  (h.cxLinks n).foldl (fun h lk => linkSend h lk (tokenFrame n 0 code opid tc payload)) h

/-- A context enters HALTED (R167). -/
def cxHalted (h : Hw) (n : Nat) : Hw :=
  let r := n / 1024
  ((h.wf (CXE_CTL n) CXE_CTL_STATE csHalted).wf (CX_SVC_STAT r) CX_SVC_STAT_HCTX n).sb (CX_SVC_STAT r) CX_SVC_STAT_HALT

/-- Word 7 of a request (R184). -/
def rqWord7 (step status peer : Nat) : Nat := 2 ^ 63 + step % 4096 * 2 ^ 44 + status % 64 * 2 ^ 38 + peer % 1024 * 2 ^ 28

/-- CXE_LAST at the end of a request. -/
def cxLast (h : Hw) (n status peer : Nat) : Hw :=
  (((h.wf (CXE_LAST n) CXE_LAST_STATUS status).wf (CXE_LAST n) CXE_LAST_EPOCH (h.epoch (n / 1024))).wf (CXE_LAST n) CXE_LAST_PEER peer).wf
    (CXE_LAST n) CXE_LAST_STEP (h.rf (CXE_RUN n) CXE_RUN_STEP)

/-- Word 7 is written: the record takes its place in the order of its queue (R184, R252, R254). -/
def rqHand (h : Hw) (n r : Nat) : Hw :=
  match (h.ctx n).run with
  | none => h
  | some u =>
    let ws := u.words
    let (status, peer) := u.ended.getD (0, 0)
    let el := if status = 0 then rqDst h ws else u.elems
    let rec_ : Rec := ⟨status, u.flags, u.aloss != 0, 2, h.epoch r, rqCTX ws, u.sqIdx, rqQUEUE ws, u.aloss, 0, 0, el, rqWord7 u.last status peer, r⟩
    queueEnded (setRun h n { u with w7 := 2 }) (svcId u.queue u.sqIdx) (rqQUEUE ws) (some (u.queue, u.sqIdx)) (rqCMODE ws) status rec_

/-- The service writes word 7 of a request whose ending is decided, and after it the record; a request in licensee memory waits for the write's response (R184, R255). -/
def rqClose (h : Hw) (n r f : Nat) (par : Par) (meets : List Meet) : Hw :=
  match (h.ctx n).run with
  | none => h
  | some u =>
    match u.ended with
    | none => h
    | some (status, peer) =>
      if u.w7 ≠ 0 then h
      else
        let h1 := physWrite (setRun h n { u with w7 := 1 }) (.frond f) (u.pa + 56) (leBytes 8 (rqWord7 u.last status peer)) 3 (.service n) par meets
        if (paLocal (u.pa + 56)).isSome then rqHand h1 n r else h1

/-- The response to word 7's write in licensee memory. -/
def word7Done (h : Hw) (n : Nat) : Hw :=
  match (h.ctx n).run with
  | some u => if u.w7 = 1 then rqHand h n (if n < 4096 then n / 1024 else n - 4096) else h
  | none => h

/-- The frond of a context's service (R166). -/
def Hw.cxFrond (h : Hw) (n : Nat) : Nat := 2 * (n / 1024) + h.rf (CXE_CTL n) CXE_CTL_FROND

/-- The running request of a context ends with a status that halts the context (R183, R185, R188): its posts go, its chain commands are aborted, ABORT floods the links, and CXE_LAST
takes the status. While the region recovers every ending is DISCARDED, and no ABORT is sent (R187). -/
def rqStop (h : Hw) (n st0 peer : Nat) : Hw :=
  match (h.ctx n).run with
  | none => h
  | some u =>
    if u.ended.isSome then h
    else
      let r := n / 1024
      let status := if inRecovery h r then 4 else st0
      let h0 := setRun h n { u with ended := some (status, peer), todo := [], armed := none }
      let h1 := (linksOf r).foldl (fun h lk => let x := h.link lk; if x.posts.any (fun p => p.ctx == n) then h.setLink lk { x with posts := x.posts.filter (fun p => p.ctx != n) } else h) h0
      let h2 := if status = 4 then h1 else tokenFlood (chainAbortCtx h1 n) n 3 (h.cxOpid n) 2 (leBytes 2 status ++ leBytes 2 (h.cxRank n))
      let h3 := cxHalted (cxLast h2 n status peer) n
      if status = 0x25 then h3.sb (CX_SVC_STAT r) CX_SVC_STAT_PROTO else h3

/-- A data or record frame that matches no post and no relay entry (R175). -/
def strayFrame (h : Hw) (lk n : Nat) : Hw :=
  if n / 1024 ≠ lk / 32 ∨ h.hasCtx n = false then h
  else
    let h1 := h.addSat (CXE_CNT n) CXE_CNT_STRAY 1
    if h1.cxState n = csRun then rqStop h1 n 0x25 (h1.cxRank n) else h1

/-! ### The run of a schedule (R173 to R180) -/

/-- The step under way. -/
def cxStepSet (h : Hw) (n step : Nat) : Hw := h.wf (CXE_RUN n) CXE_RUN_STEP step

/-- An idle chain of a region: it holds no command. -/
def svcChain (h : Hw) (r : Nat) : Option Nat :=
  ((List.range 8).map (fun c => 8 * r + c)).find? (fun ch => h.hasChain ch && (h.chain ch).act.isEmpty && (h.chain ch).pend.isNone)

/-- The service issues a chain command through the CMD unit of its frond; false when a check of R90 fails. -/
def svcExec (h : Hw) (n ch : Nat) (c : SvcCmd) (get : Bool) : Hw × Bool :=
  let r := n / 1024
  if (descCheck h r (ch % 8) (h.cxWorld n) c.words).isSome then (h, false)
  else
    let e0 := execNew (h.seq + 1) (.frond (h.cxFrond n)) (h.cxWorld n) 0 0 (h.epoch r)
    let e := execInit { e0 with words := c.words, checked := true, pairOk := true, svc := some c, getRsp := get } (max 1 (dSL c.words)) 0 false
    (chainSync ((({ h with seq := h.seq + 1 } : Hw).idleLeave r).setChain ch { h.chain ch with act := [e] }) ch, true)

/-- The peer's READY for the step that a command sends has come (R176); a PUT needs none. -/
def readyIn (h : Hw) (n : Nat) (c : SvcCmd) : Bool :=
  match c.send with
  | some (lk, s) => s == 0xFFF || (h.ctx n).ready.contains (lk, s, h.cxOpid n)
  | none => true

/-- Perform an act of the schedule; none while it waits. `u` is the request with the act taken off. -/
def svcDo (h : Hw) (n : Nat) (u : CtxRun) : SvcAct → Option Hw
  | .post lk s chain base len ready =>
    let x := h.link lk
    if x.posts.length < 8 then
      (let h1 := setRun (h.setLink lk { x with posts := x.posts ++ [⟨n, s, chain, base, len, 0⟩] }) n u
       some (if ready then linkSend h1 lk (tokenFrame n s 1 (h.cxOpid n) 2 []) else h1))
    else none
  | .issue c =>
    if !readyIn h n c then none
    else match svcChain h (n / 1024) with
      | none => none
      | some ch =>
        let x := h.ctx n
        let ready := match c.send with | some (lk, s) => x.ready.erase (lk, s, h.cxOpid n) | none => x.ready
        let h1 := cxStepSet (h.setCtx n { x with run := some u, ready := ready }) n c.step
        let (h2, ok) := svcExec h1 n ch c false
        some (if ok then h2 else setRun h2 n { u with fail := some 0x10 })
  | .token lk s code payload => some (linkSend (cxStepSet (setRun h n u) n s) lk (tokenFrame n s code (h.cxOpid n) 2 payload))
  | .awaitBarrier lk s =>
    let x := h.ctx n
    if x.barrier.contains (lk, s, h.cxOpid n) then some (h.setCtx n { x with run := some { u with last := s }, barrier := x.barrier.erase (lk, s, h.cxOpid n) }) else none
  | .awaitLanded lk s base =>
    if (h.link lk).posts.any (fun p => p.ctx == n && p.step == s && !p.chain && p.base == base) then none else some (setRun h n { u with last := s })
  | .awaitChains => if svcHeld h n then none else some (setRun h n u)
  | .awaitDone => if u.gotDone then some (setRun h n { u with last := 0xFFF }) else none
  | .ardy v => some ((setRun h n u).wf (CXE_ARDY n) CXE_ARDY_ARDY v)
  | .awaitArdy v => if v ≤ h.rf (CXE_ARDY n) CXE_ARDY_ARDY then some (setRun h n u) else none

/-- The schedule has been carried out to its end. -/
def svcOver (h : Hw) (u : CtxRun) : Bool := u.todo.isEmpty && (schedAt (rqSched h u.words) u.block).isNone

/-- One thing the service can do for the request of a context; none when it waits. -/
def svcAct (h : Hw) (n : Nat) : Option Hw :=
  match (h.ctx n).run with
  | none => none
  | some u =>
    if h.cxState n != csRun || u.ended.isSome then none
    else match u.fail with
      | some st => some (rqStop h n st (h.cxRank n))
      | none =>
        match u.todo with
        | a :: rest => svcDo h n { u with todo := rest } a
        | [] => (schedAt (rqSched h u.words) u.block).map (fun acts => setRun h n { u with todo := acts, block := u.block + 1 })

/-- The service answers the oldest GET admitted for a context (R176): a chain command sends the bytes, in the STEP of the request; a request of no bytes is answered at once. -/
def svcGet (h : Hw) (n : Nat) : Option Hw :=
  let x := h.ctx n
  let r := n / 1024
  match x.gets with
  | [] => none
  | (lk, step, opid, woff, cnt) :: rest =>
    if cnt = 0 then some (linkSend (h.setCtx n { x with gets := rest }) lk (tokenFrame n step 5 opid 2 []))
    else if (List.range 8).any (fun c => (h.chain (8 * r + c)).all.any (fun e => e.getRsp && dCTX e.words == n)) then none
    else match svcChain h r with
      | none => none
      | some ch =>
        match svcIssueOf [0, n * 2 ^ 20 + 256 * r * 2 ^ 10] 0 opCOPY (some (opLoc (xwBase h n + woff) 0xE)) none (opLink lk step 0xE) cnt arPlain step none with
        | .issue c :: _ => some (svcExec h n ch c true).1
        | _ => none

/-- Let the service go on until every context of a region waits. -/
def svcGo : Nat → Hw → Nat → Hw
  | 0, h, _ => h
  | k + 1, h, r =>
    match h.ctxs.findSome? (fun e => if e.1 < 4096 ∧ e.1 / 1024 = r then (match svcAct h e.1 with | some h1 => some h1 | none => svcGet h e.1) else none) with
    | some h1 => svcGo k h1 r
    | none => h

/-- A frame held in a receive buffer that no target expects any more. -/
def strayAt (h : Hw) (lk : Nat) : Option (Nat × Frame) :=
  let x := h.link lk
  (List.range x.rbuf.length).findSome? (fun i => match x.rbuf[i]? with
    | some f => if lands h lk f || chainWaits h lk f || (postOf x f).isSome then none else some (i, f)
    | none => none)

/-- Drop the frames of a link that have no target (R175). -/
def sweepLink : Nat → Hw → Nat → Hw
  | 0, h, _ => h
  | k + 1, h, lk =>
    match (h.link lk).strays with
    | n :: rest => sweepLink k (strayFrame (h.setLink lk { h.link lk with strays := rest }) lk n) lk
    | [] =>
      match strayAt h lk with
      | some (i, f) => sweepLink k (strayFrame (rbufFree h lk i) lk f.ctx) lk
      | none => h

/-- A request waits for a READY, a frame or a token (R185). -/
def svcWaits (h : Hw) (n : Nat) (u : CtxRun) : Bool :=
  match u.todo with
  | .issue c :: _ => !readyIn h n c
  | .awaitBarrier _ _ :: _ => true
  | .awaitLanded _ _ _ :: _ => true
  | .awaitDone :: _ => true
  | _ => (List.range 8).any (fun c => (h.chain (8 * (n / 1024) + c)).all.any (fun e => ofRequest n e && e.ending.isNone &&
      [0, 1].any (fun s => (if s = 0 then usesA e.words else usesB e.words) && dKind e.words s == kLink && decide (linkExp e s < dCOUNT e.words))))

/-- TMO_STEP is armed while a request waits (R185). -/
def svcArm (h : Hw) (n : Nat) : Hw :=
  match (h.ctx n).run with
  | some u =>
    if h.cxState n ≠ csRun ∨ u.ended.isSome then h
    else
      let armed := if svcWaits h n u then some (u.armed.getD h.tb.toNat) else none
      if armed = u.armed then h else setRun h n { u with armed := armed }
  | none => h

/-- The service of a region and its chains go on as far as they can (R161, R173 to R180); in a region that recovers or sleeps they stand still. -/
def svcAdvance (h : Hw) (r : Nat) : Hw :=
  if h.rgnState r ≠ 0 ∨ h.memServed r = false ∨ h.clocked = false then h
  else
    let lks := fun (h : Hw) => (h.links.filter (fun e => e.1 / 32 == r && (!e.2.rbuf.isEmpty || !e.2.strays.isEmpty))).map (·.1)
    let pass := fun (h : Hw) => chainsAdvance ((lks h).foldl landAll (svcGo 4096 h r)) r
    let h1 := pass (pass h)
    let h2 := (lks h1).foldl (fun h lk => sweepLink 1024 h lk) h1
    (h2.ctxs.filter (fun e => decide (e.1 < 4096) && e.1 / 1024 == r)).foldl (fun h e => svcArm h e.1) h2

/-- CHAIN_COMMAND_END (R100, R108, R183): the command ends, and the service goes on. -/
def commandEnd (ch : Nat) (h : Hw) : Hw := svcAdvance (chainCommandEnd ch h) (ch / 8)

/-- COLLECTIVE_REQUEST_END (R183, R184): a request whose chain commands have all ended closes: OK when its schedule is carried out, or with the status decided before. `par` and
`meets` are what the write of word 7 finds at the memory (R50, R55). -/
def collectiveRequestEnd (n : Nat) (par : Par) (meets : List Meet) (h : Hw) : Hw :=
  match (h.ctx n).run with
  | none => h
  | some u =>
    let r := n / 1024
    if !h.hasCtx n || svcHeld h n then h
    else match u.ended with
      | some _ => rqClose h n r (h.cxFrond n) par meets
      | none =>
        if h.cxState n ≠ csRun then h
        else if inRecovery h r then rqClose (rqStop h n 4 (h.cxRank n)) n r (h.cxFrond n) par meets
        else match u.fail with
          | some st => rqStop h n st (h.cxRank n)
          | none => if svcOver h u then rqClose (cxLast (setRun h n { u with ended := some (0, h.cxRank n), armed := none }) n 0 (h.cxRank n)) n r (h.cxFrond n) par meets else h

/-! ### Requests (R163, R180, R182, R186) -/

/-- A request fails a check (R163): it ends with nothing sent, and the context keeps its state. -/
def rqRefuse (h : Hw) (r f q idx pa : Nat) (ws : List Nat) (status sub : Nat) : Hw :=
  let n := rqCTX ws
  let known := rqKnown h r ws
  let rank := if known then h.cxRank n else 0
  let u : CtxRun := ⟨ws, pa, q, idx, 0, 0, [], 0, none, 0, 0, 0, false, none, some (status, rank), 0⟩
  if known then rqClose (cxLast (h.setCtx n { h.ctx n with run := some u, sub := sub }) n status rank) n r f .good []
  else rqClose (setRun h (4096 + r) u) (4096 + r) r f .good []

/-- All FENCE tokens a restart waits for have arrived (R186). -/
def fencesIn (h : Hw) (n opid : Nat) : Bool :=
  (h.cxLinks n).all (fun lk => [0, 1, 2].all (fun tc => (h.ctx n).fences.contains (lk, tc, opid)))

/-- The restart fence completes (R186): the context enters IDLE at step 0, and RESTART ends OK. -/
def fenceCheck (h : Hw) (n : Nat) : Hw :=
  let opid := h.cxOpid n
  match (h.ctx n).run with
  | some u =>
    if h.cxState n == csFence && u.ended.isNone && fencesIn h n opid then
      (let h1 := (cxStepSet h n 0).wf (CXE_CTL n) CXE_CTL_STATE csIdle
       let x := h1.ctx n
       let h2 := h1.setCtx n { x with run := some { u with ended := some (0, h.cxRank n), armed := none }, fences := x.fences.filter (fun e => e.2.2 != opid),
                                      ready := [], barrier := [], putBad := [], gets := [] }
       rqClose (cxLast h2 n 0 (h.cxRank n)) n (n / 1024) (h.cxFrond n) .good [])
    else h
  | none => h

/-- The words of a request as the service reads them: from the mat or the cushion, or, in licensee memory, as they are given. -/
def rqWordsAt (h : Hw) (pa : Nat) (words : List W64) : List Nat :=
  match paLocal pa with
  | some off => if h.inMem off then (List.range 8).map (fun k => leNat (memGets h.mem (off + 8 * k) 8)) else words.map (·.toNat)
  | none => words.map (·.toNat)

/-- No earlier command of the queue has still to report (R102). -/
def fpbarClear (h : Hw) (q idx : Nat) : Bool :=
  match (h.queue q).joins.find? (fun j => j.id == svcId q idx) with
  | some me => h.queues.all (fun e => e.2.joins.all (fun j => decide (me.ord ≤ j.ord) || (j.fromQ.map (·.1)) != some q))
  | none => true

/-- The service of a frond may start a request now (R166, R182): its context's service runs there, the context has no request, and FPBAR is met. -/
def rqMayStart (h : Hw) (f q idx : Nat) (ws : List Nat) : Bool :=
  let n := rqCTX ws
  let known := rqKnown h (f / 2) ws
  (!known || !h.rb (CXE_CTL n) CXE_CTL_V || h.rf (CXE_CTL n) CXE_CTL_FROND == f % 2) && (h.ctx (if known then n else 4096 + f / 2)).run.isNone &&
  (!rqFPBAR ws || fpbarClear h q idx)

/-- The requests handed to the service of a region, oldest first: those already popped from CMD.SQIN, then the others. -/
def svcList (h : Hw) (r : Nat) : List (Nat × Nat × Nat) := kvGet [] h.svcTaken r ++ kvGet [] h.svcQ r

/-- The first request that may start: those of one context keep their order, and none waits behind another's (R182, R188). -/
def svcPick (h : Hw) (f : Nat) (words : List W64) : List (Nat × Nat × Nat) → Nat → List Nat → Option (Nat × (Nat × Nat × Nat) × List Nat)
  | [], _, _ => none
  | (q, idx, pa) :: rest, i, seen =>
    let ws := rqWordsAt h pa words
    if !seen.contains (rqCTX ws) && rqMayStart h f q idx ws then some (i, (q, idx, pa), ws) else svcPick h f words rest (i + 1) (rqCTX ws :: seen)

/-- Take a request off the list. -/
def svcTake (h : Hw) (r i : Nat) : Hw :=
  let a := kvGet [] h.svcTaken r
  if i < a.length then { h with svcTaken := kvIns h.svcTaken r (dropAt a i) }
  else { h with svcQ := kvIns h.svcQ r (dropAt (kvGet [] h.svcQ r) (i - a.length)) }

/-- A checked request starts (R180, R182, R186): its context enters RUN, or FENCE with FENCE sent in three classes on every link it uses. -/
def rqStart (h : Hw) (r q idx pa : Nat) (ws : List Nat) : Hw :=
  let n := rqCTX ws
  let opid := rqOPID ws
  let fence := rqCOP ws == copRESTART
  let x := h.ctx n
  let u : CtxRun := ⟨ws, pa, q, idx, h.rf (CXE_OPT n) CXE_OPT_TRAPEN, 0, [], 0, if fence then some h.tb.toNat else none, 0, 0, 0, false, none, none, 0⟩
  let h1 := h.setCtx n { x with run := some u, ready := x.ready.filter (fun e => e.2.2 == opid), barrier := x.barrier.filter (fun e => e.2.2 == opid) }
  let h2 := (((h1.wf (CXE_RUN n) CXE_RUN_OPID opid).wf (CXE_RUN n) CXE_RUN_STEP 0).wr (CXE_ARDY n) 0).wf (CXE_CTL n) CXE_CTL_STATE (if fence then csFence else csRun)
  if fence then fenceCheck ([0, 1, 2].foldl (fun h tc => tokenFlood h n 4 opid tc []) h2) n else svcAdvance h2 r

/-- COLLECTIVE_REQUEST (R162, R163, R182): the service of a frond takes the first request that may start, checks it and starts it. `words` are those of a request in licensee memory. -/
def collectiveRequest (f : Nat) (words : List W64) (h : Hw) : Hw :=
  let r := f / 2
  match svcPick h f words (svcList h r) 0 [] with
  | none => h
  | some (i, (q, idx, pa), ws) =>
    let h1 := svcTake h r i
    match rqCheck h1 r (h.sqWorld q) ws with
    | some (st, sub) => rqRefuse h1 r f q idx pa ws st sub
    | none => rqStart h1 r q idx pa ws

/-- STEP_TIMEOUT (R15, R185, R188): TMO_STEP beats have passed since a wait of the running request was armed. -/
def stepTimeout (n : Nat) (h : Hw) : Hw :=
  match (h.ctx n).run with
  | some u =>
    let t := h.rf (CXE_OPT n) CXE_OPT_TMO_STEP
    (match u.armed with
     | some a => if h.hasCtx n && h.cxState n == csRun && u.ended.isNone && t != 0 && h.beatsOver a t then rqStop h n 0x21 (h.cxRank n) else h
     | none => h)
  | none => h

/-- FENCE_TIMEOUT (R15, R186). -/
def fenceTimeout (n : Nat) (h : Hw) : Hw :=
  match (h.ctx n).run with
  | some u =>
    let t := h.rf (CXE_OPT n) CXE_OPT_TMO_FENCE
    (match u.armed with
     | some a => if h.hasCtx n && h.cxState n == csFence && u.ended.isNone && t != 0 && h.beatsOver a t then rqStop h n 0x21 (h.cxRank n) else h
     | none => h)
  | none => h

/-! ### Context registers (R166, R168, R185) -/

/-- CONTEXT_VALIDATE (R166, R168): a write of CXE_CTL. -/
def contextValidate (w : Who) (n : Nat) (v : W32) (h : Hw) : Hw :=
  if !h.hasCtx n then h
  else
    let r := n / 1024
    let wref := h.sb (CX_SVC_STAT r) CX_SVC_STAT_WREF
    let st := h.cxState n
    if !w.keeperSup || !(st == csFree || st == csHalted) then wref
    else if fldGet CXE_CTL_V v = 1 then
      let agent := fldGet CXE_CTL_AGENT v == 1
      let world := if fldGet CXE_CTL_WORLD v = 1 then World.tenant else World.keeper
      let N := h.cxN n
      let bad := (h.frond (2 * r + fldGet CXE_CTL_FROND v)).world != world ||
        (!agent && (N == 0 || decide (N > 1024) || decide (h.cxRank n ≥ N))) || (agent && (N != 0 || h.cxRank n != 0))
      if bad then wref
      else (h.wr (CXE_CTL n) ((v &&& 0xE0F10FFF))).wf (CXE_CTL n) CXE_CTL_STATE (if st = csFree then csIdle else st)
    else ((h.wr (CXE_CTL n) (v &&& 0x60F10FFF)).wf (CXE_CTL n) CXE_CTL_STATE csFree).setCtx n { CtxSt.empty with run := (h.ctx n).run }

/-- Writes of a context's other words (R168), by offset. -/
def cxeWrite (h : Hw) (n off : Nat) (w : Who) (v : W32) : Hw :=
  if !h.hasCtx n then h
  else
    let r := n / 1024
    let wref := h.sb (CX_SVC_STAT r) CX_SVC_STAT_WREF
    let free := h.cxState n == csFree || h.cxState n == csHalted
    let a := CXE_CTL n + off
    if off = 0 then contextValidate w n v h
    else if off = 8 then
      (if w.keeperSup && free then h.wr a (v &&& 0xF8FFFF7F)
       else if w.keeperSup || (w.anySup && w.world == h.cxWorld n) then h.wf a CXE_OPT_TRAPEN (fldGet CXE_OPT_TRAPEN v)
       else wref)
    else if off ≥ 0x30 then wref
    else if !w.keeperSup || !free then wref
    else
      let m : W32 := match off with
        | 0x04 => 0xFFE003FF | 0x0C => 0x1FFFFFC0 | 0x10 => 0x1FFFF000 | 0x14 => 0xFFFF | 0x18 => 0x1FFFFFC0 | 0x1C => 0xFFFFFF
        | 0x20 => 0x1FFFF000 | 0x24 => 0xFFFF | _ => 0xFFFFFFFF
      h.wr a (v &&& m)

/-- A write of a relay entry (R171). -/
def rlyWrite (h : Hw) (a r : Nat) (w : Who) (v : W32) : Hw :=
  if !w.keeperSup then h.sb (CX_SVC_STAT r) CX_SVC_STAT_WREF
  else h.wr a (if a % 8 = 0 then v &&& 0xFF000FFF else v &&& 0x7F)

/-- CX_HALT (R185): a keeper-world supervisor halts a context of the region. -/
def cxHalt (w : Who) (r : Nat) (v : W32) (h : Hw) : Hw :=
  let n := fldGet CX_HALT_CTX v
  if !w.keeperSup || !h.hasRegion r then h
  else if n / 1024 ≠ r ∨ h.hasCtx n = false then h.sb (CX_SVC_STAT r) CX_SVC_STAT_WREF
  else if h.cxLive n then rqStop h n 0x22 (h.cxRank n)
  else if h.cxState n = csIdle ∨ h.cxState n = csRun then cxHalted h n
  else h

/-- CXE_ARDY_UPDATE (R180, R103): the service frond raises CXE_ARDY; it never falls during a request. -/
def cxeArdyUpdate (f n v : Nat) (h : Hw) : Hw :=
  if h.hasCtx n && n / 1024 == f / 2 && h.rf (CXE_CTL n) CXE_CTL_FROND == f % 2 && decide (h.rf (CXE_ARDY n) CXE_ARDY_ARDY ≤ v) then
    svcAdvance (chainsAdvance (h.wf (CXE_ARDY n) CXE_ARDY_ARDY v) (f / 2)) (f / 2)
  else h

/-! ### Posts and tokens (R174 to R176) -/

/-- The landing range of a post lies in the mat of the region (R164). -/
def postOk (h : Hw) (r : Nat) (p : Post) : Bool :=
  p.chain || (p.len != 0 && h.inMat p.base && h.inMat (p.base + p.len - 1) && memRegion p.base == r && decide (memRegion (p.base + p.len - 1) = r))

/-- RECEIVE_POST (R164, R175): microcode of a frond places a post of a context of its region on a link of the region, which holds 8. -/
def receivePost (f lk : Nat) (p : Post) (h : Hw) : Hw :=
  let x := h.link lk
  let r := f / 2
  if lk / 32 = r ∧ h.hasLane lk ∧ p.ctx / 1024 = r ∧ h.hasCtx p.ctx ∧ postOk h r p ∧ x.posts.length < 8 then
    svcAdvance (h.setLink lk { x with posts := x.posts ++ [{ p with got := 0 }] }) r
  else h

/-- The payload of a token, filled up to its LEN (R201). -/
def tokenPad (code : Nat) (payload : List Byte) : List Byte :=
  let n := if code = 3 then 4 else if code = 6 then 12 else 0
  (payload ++ List.replicate n 0).take n

/-- A READY is sent only with a receive post of its step in place (R176). -/
def readyPosted (h : Hw) (lk n step : Nat) : Bool := (h.link lk).posts.any (fun p => p.ctx == n && p.step == step)

/-- TOKEN_SEND (R164, R166, R174, R176, R201): microcode of the frond that runs a context's service queues a token frame. Tokens travel in TC2, a FENCE in TC0, TC1 or TC2, which its
payload byte names. -/
def tokenSend (f lk n step code opid : Nat) (payload : List Byte) (h : Hw) : Hw :=
  if lk / 32 = f / 2 ∧ h.hasLane lk ∧ n / 1024 = f / 2 ∧ h.hasCtx n ∧ h.rf (CXE_CTL n) CXE_CTL_FROND = f % 2 ∧ 1 ≤ code ∧ code ≤ 6 ∧ (code = 1 → readyPosted h lk n step) then
    (if code = 4 then linkSend h lk (tokenFrame n step code opid (min 2 (payload.headD 2).toNat) [])
     else linkSend h lk (tokenFrame n step code opid 2 (tokenPad code payload)))
  else h

/-- READY (R176): one with another OPID ends the running request; one for it is progress (R185). -/
def readyToken (h : Hw) (lk : Nat) (f : Frame) : Hw :=
  let n := f.ctx
  let opid := f.offset % 2 ^ 16
  if h.cxState n == csRun && h.cxLive n && opid != h.cxOpid n then rqStop h n 0x23 (h.cxRank n)
  else
    let x := h.ctx n
    cxProgress (h.setCtx n { x with ready := x.ready ++ [(lk, f.step, opid)] }) n

/-- BARRIER (R177): a round is reached. -/
def barrierToken (h : Hw) (lk : Nat) (f : Frame) : Hw :=
  let n := f.ctx
  let opid := f.offset % 2 ^ 16
  let x := h.ctx n
  let h1 := h.setCtx n { x with barrier := x.barrier ++ [(lk, f.step, opid)] }
  if opid = h.cxOpid n then cxProgress h1 n else h1

/-- ABORT (R176, R185, R188): one for the running OPID ends the request, with CX_ERR subcode 0x08 when it carries CX_ERR; any other is counted. -/
def abortToken (h : Hw) (f : Frame) : Hw :=
  let n := f.ctx
  let opid := f.offset % 2 ^ 16
  let status := (f.payload.headD 0).toNat
  let rank := leNat ((f.payload.drop 2).take 2) % 1024
  if h.cxLive n && opid == h.cxOpid n then
    (if status = 0x20 then rqStop (h.setCtx n { h.ctx n with sub := 8 }) n 0x20 rank else rqStop h n 0x22 rank)
  else h.addSat (CXE_CNT n) CXE_CNT_ABORTS 1

/-- FENCE (R186). -/
def fenceToken (h : Hw) (lk : Nat) (f : Frame) : Hw :=
  let n := f.ctx
  let x := h.ctx n
  let e := (lk, f.tc, f.offset % 2 ^ 16)
  fenceCheck (h.setCtx n { x with fences := if x.fences.contains e then x.fences else x.fences ++ [e] }) n

/-- DONE (R174, R184): a PUT has landed, or a GET reply has been sent. -/
def doneToken (h : Hw) (f : Frame) : Hw :=
  let n := f.ctx
  match (h.ctx n).run with
  | some u => if h.cxLive n && f.offset % 2 ^ 16 == h.cxOpid n then cxProgress (setRun h n { u with gotDone := true }) n else h
  | none => h

/-- GETREQ (R176): admitted, to be answered by the service's chain command, or refused with ABORT carrying CX_ERR. -/
def getreqToken (h : Hw) (lk : Nat) (f : Frame) : Hw :=
  let n := f.ctx
  let opid := f.offset % 2 ^ 16
  let woff := leNat (f.payload.take 4)
  let cnt := leNat ((f.payload.drop 4).take 8)
  if woff + cnt ≤ xwBytes h n then
    (let x := h.ctx n
     h.setCtx n { x with gets := x.gets ++ [(lk, f.step, opid, woff, cnt)] })
  else linkSend h lk (tokenFrame n 0 3 opid 2 (leBytes 2 0x20 ++ leBytes 2 (h.cxRank n)))

end Sys2Proof.Machine
end

