-- ==== Sys2Proof/Machine/Links.lean ====
section
/-!
DEFINITION. Lanes and the spore link layer (R189 to R228): bring-up, sequencing, acknowledgement and replay, credits, transmission, delivery, segment resend, lane sets, lane
test engines.
-/
namespace Sys2Proof.Machine

/-! ### Going down (R220, R221) -/

/-- Link traffic holds the test engine of a lane. -/
def trafficHolds (h : Hw) (l : Nat) : Bool := h.rf (LT_CLAIM l) cHELD == 1 && h.rf (LT_CLAIM l) cAGENT == 0xA

/-- Macro hardware yields the test engine of a lane that is out of use (R225). -/
def yieldLane (h : Hw) (l : Nat) : Hw := if trafficHolds h l then claimFree h (LT_CLAIM l) else h

/-- Macro hardware yields the test engines of a link that is down (R225). -/
def yieldLanes (h : Hw) (lk : Nat) : Hw := (h.linkLanes lk).foldl yieldLane h

/-- A lane that has FAILED stays out (R222), also while its test engine is in use and STATE shows TEST. -/
def laneFailed (h : Hw) (l : Nat) : Bool :=
  let st := h.rf (LN_STAT l) LN_STAT_STATE
  st == 6 || (st == 7 && decide (h.rf (LN_STAT l) LN_STAT_RTRY ≥ max 1 (h.rf (LNK_THR1 (l / 32)) LNK_THR1_RETRAIN_MAX)))

/-- A mask of lane positions from a test of each. -/
def maskOf (p : Nat → Bool) : Nat := (List.range 4).foldl (fun m k => if p k then m + 2 ^ k else m) 0

/-- The positions of a link whose lanes have not FAILED: a wider link runs on any of them that are left (R222). -/
def Hw.usable (h : Hw) (lk : Nat) : Nat := maskOf (fun p => match h.laneAt lk p with | some l => !laneFailed h l | none => false)

/-- The PUTs whose rest a link would have brought are forgotten with it (R176, R220). -/
def putsForget (h : Hw) (lk : Nat) : Hw :=
  { h with ctxs := h.ctxs.map (fun (e : Nat × CtxSt) => (e.1, { e.2 with putBad := e.2.putBad.filter (fun k => !(k == lk && e.1 / 1024 == lk / 32)) })) }

/-- A link goes DOWN with a cause (R220): its retry buffer, transmit queue and receive buffer are discarded, and every chain command that uses it ends LINK_DOWN. -/
def linkGoDown (h : Hw) (lk cause : Nat) : Hw :=
  if h.lkState lk = lsDown then h
  else
    let x := h.link lk
    let h1 := putsForget (h.setLink lk { LinkSt.empty with posts := x.posts, noAn := x.noAn, fbTried := x.fbTried }) lk
    let h2 := (((h1.wf (LK_STAT lk) LK_STAT_TXACT 0).wf (LK_STAT lk) LK_STAT_RXACT 0).wf (LK_STAT lk) LK_STAT_DCAUSE cause).sb (LK_STAT lk) LK_STAT_WENT_DOWN
    let h3 := ((h2.wf (LK_TXSEQ lk) LK_TXSEQ_HELD 0).wf (LK_RXSEQ lk) LK_RXSEQ_NAKST 0).wf (LK_STAT lk) LK_STAT_LOOP 0
    let h4 := (h.linkLanes lk).foldl (fun h l =>
      let g := if laneFailed h l then h else h.wf (LN_STAT l) LN_STAT_STATE 0
      (g.wf (LN_STAT l) LN_STAT_DLN 0).setLane l { g.lane l with desk := false, hfail := 0, alone := false }) h3
    chainLinkDown (yieldLanes (linkSetState h4 lk lsDown) lk) lk

/-- A protocol error (R221). -/
def protoError (h : Hw) (lk : Nat) : Hw :=
  let h1 := h.sb (LK_STAT lk) LK_STAT_PROTO
  let h2 := if h1.rb (LK_CTL lk) LK_CTL_ST_IE then irqFire h1 (rSrc (lk / 32) (16 + lk % 32)) else h1
  linkGoDown h2 lk 5

/-- A lane's test engine returns to link traffic (R225): claimed by the link agent, one generation on. -/
def laneReclaim (h : Hw) (l : Nat) : Hw :=
  if h.rf (LT_CLAIM l) cHELD = 1 then h else h.wr (LT_CLAIM l) (0x80010A00#32 ||| BitVec.ofNat 32 ((h.rf (LT_CLAIM l) cGEN + 1) % 256))

/-- A lane enters AN or TRAIN with its link, undeskewed; a retired lane stays out. -/
def laneStart (h : Hw) (l st : Nat) : Hw :=
  if laneFailed h l then h
  else
    let g := h.wf (LN_STAT l) LN_STAT_STATE st
    g.setLane l { g.lane l with desk := false, hfail := 0 }

/-- Bring-up or retraining begins: link traffic reclaims the test engines of the lanes that have not FAILED, or is refused by one that is held (R225). A link with no such lane
stays DOWN. Without AN the rate stays as last agreed. -/
def bringUp (h : Hw) (lk : Nat) (noAn : Bool) : Hw :=
  let lanes := (h.linkLanes lk).filter (fun l => !laneFailed h l)
  if lanes.isEmpty then (linkGoDown h lk 4).wf (LK_STAT lk) LK_STAT_DCAUSE 4
  else if lanes.any (fun l => h.rf (LT_CLAIM l) cHELD == 1 && h.rf (LT_CLAIM l) cAGENT != 0xA) then
    (linkGoDown h lk 7 |>.sb (LK_STAT lk) LK_STAT_CLAIM).wf (LK_STAT lk) LK_STAT_DCAUSE 7
  else
    let h1 := lanes.foldl (fun h l => laneStart (laneReclaim h l) l (if noAn then 2 else 1)) h
    let h2 := if h.rb (LK_CFG lk) LK_CFG_FBONLY then lanes.foldl (fun h l => h.wf (LN_STAT l) LN_STAT_RATE 1) (h1.sb (LK_STAT lk) LK_STAT_RATE) else h1
    let x := h2.link lk
    linkSetState (h2.setLink lk { x with noAn := noAn, fbTried := false, gotInit := false, gotAck := false, txRow := 0, txAt := 0, rxAt := 0, rxRow := 0,
                                         tm := { x.tm with train := h.tb.toNat } }) lk
      (if noAn then lsTrain else lsAn)

/-- Whole-link retraining (R220). -/
def linkRetrainNow (h : Hw) (lk cause : Nat) : Hw := bringUp (linkGoDown h lk cause) lk true

/-! ### Acknowledgement and replay (R209, R210) -/

/-- Distance modulo 2^20. -/
def seqDist (a b : Nat) : Nat := (a + 2 ^ 20 - b % 2 ^ 20) % 2 ^ 20

/-- A span of so many nanoseconds since a value of TB may be over within this tick (`slack` 1) or is over (`slack` 0). -/
def nsPassed (h : Hw) (t ns slack : Nat) : Bool := decide (ns ≤ 10 * ((h.tb - BitVec.ofNat 64 t).toNat + slack))

/-- A replay starts from a held frame (R209, R210): REPLAY_MAX replays from one frame retrain the link. RPL_TMO is armed anew (DEDUCED: the frames held are on their way again). -/
def startReplay (h : Hw) (lk idx : Nat) : Hw :=
  let x := h.link lk
  match x.retry[idx]? with
  | none => h
  | some f =>
    let cnt := if x.rplSeq = some f.seq then x.rplCnt + 1 else 1
    let h1 := (h.addSat (LK_CNT lk) LK_CNT_RPL 1).setLink lk { x with replay := some idx, rplSeq := some f.seq, rplCnt := cnt, tm := { x.tm with rpl := h.tb.toNat } }
    if cnt ≥ max 1 (h.rf (LNK_THR1 (lk / 32)) LNK_THR1_REPLAY_MAX) then
      linkRetrainNow (h1.sb (LK_STAT lk) LK_STAT_RPLX) lk 3
    else h1

/-- A checked acknowledgement word (R197, R209): frames up to ASEQ are freed, and NK starts a replay. -/
def ackReceive (h : Hw) (lk : Nat) (aw : AckWord) : Hw :=
  if !aw.ok || !h.lkUp lk then h
  else
    let x := h.link lk
    let n := if aw.av then (x.retry.takeWhile (fun f => seqDist aw.aseq f.seq < 2 ^ 19)).length else 0
    let freed := x.retry.take n
    let passed := match x.rplSeq with
      | some s => freed.any (fun f => f.seq == s)
      | none => false
    let rp := match x.replay with
      | some i => if i - n ≥ (x.retry.length - n) then none else some (i - n)
      | none => none
    let x1 := { x with retry := x.retry.drop n, replay := rp, rplSeq := if passed then none else x.rplSeq, rplCnt := if passed then 0 else x.rplCnt, tm := if n = 0 then x.tm else { x.tm with rpl := h.tb.toNat } }
    let h1 := (h.setLink lk x1).wf (LK_TXSEQ lk) LK_TXSEQ_HELD x1.retry.length
    if !aw.nk || x1.retry.length = 0 then h1
    else match x1.replay with
      | none => startReplay h1 lk 0
      | some i => if 0 < i then startReplay h1 lk 0 else h1

/-- RPL_TMO has run out with frames held and no replay under way (R209): units of 32 ns since it was armed. -/
def replayDue (h : Hw) (lk slack : Nat) : Bool :=
  h.lkUp lk && (h.link lk).retry.length != 0 && (h.link lk).replay.isNone && nsPassed h (h.link lk).tm.rpl (32 * h.rf (LNK_TMR (lk / 32)) LNK_TMR_RPL_TMO) slack

/-- REPLAY_TIMEOUT (R209, R228). -/
def replayTimeout (lk : Nat) (h : Hw) : Hw := if replayDue h lk 1 then startReplay h lk 0 else h

/-- NAK_TMO has run out in the NAK state (R208). -/
def nakDue (h : Hw) (lk slack : Nat) : Bool :=
  h.lkUp lk && h.rb (LK_RXSEQ lk) LK_RXSEQ_NAKST && nsPassed h (h.link lk).tm.nak (32 * h.rf (LNK_TMR (lk / 32)) LNK_TMR_NAK_TMO) slack

/-- NK = 1 goes in the next trailer, and NAK_TMO is armed (R208). -/
def nakSend (h : Hw) (lk : Nat) : Hw := let x := h.link lk; h.setLink lk { x with nkDue := true, tm := { x.tm with nak := h.tb.toNat } }

/-- NAK_TIMEOUT (R208). -/
def nakTimeout (lk : Nat) (h : Hw) : Hw := if nakDue h lk 1 then nakSend h lk else h

/-- The receiver enters NAK (R208). -/
def enterNak (h : Hw) (lk : Nat) : Hw :=
  if h.rb (LK_RXSEQ lk) LK_RXSEQ_NAKST then h
  else nakSend (h.sb (LK_RXSEQ lk) LK_RXSEQ_NAKST) lk

/-! ### Transmission (R200, R205, R209, R213, R214) -/

/-- The oldest frame of a class, while the class has credit (R213, R214). -/
def classHead (h : Hw) (lk tc : Nat) : Option Nat := if h.cred lk tc = 0 then none else (h.link lk).txq.findIdx? (fun f => f.tc == tc)

/-- The class with the most credits owed, the lower on equal counts (R213). -/
def mostOwed (owed : KV Nat) : Nat × Nat :=
  [0, 1, 2, 3].foldl (fun best tc => if kvGet 0 owed tc > best.2 then (tc, kvGet 0 owed tc) else best) (0, 0)

/-- Send a sequenced frame for the first time: it takes the next SEQ, the region's epoch, up to 63 credits owed, and a place in the retry buffer (R198, R200, R213). -/
def sendNew (h : Hw) (lk l : Nat) (f : Frame) (credits : Bool) : Hw :=
  let x := h.link lk
  let (tc, n) := if credits then mostOwed x.owed else (0, 0)
  let n1 := min n 63
  let seq := h.rf (LK_TXSEQ lk) LK_TXSEQ_NEXT
  let g := { f with seq := seq, epoch := h.rf (LK_STAT lk) LK_STAT_TXEP, crdTc := if n1 = 0 then 0 else tc, crdN := n1, rpl := false }
  let h1 := ((h.setLink lk { x with
      retry := x.retry ++ [g]
      hist := (x.hist ++ [g]).drop (x.hist.length + 1 - 64)
      owed := if n1 = 0 then x.owed else kvIns x.owed tc (n - n1)
      nkDue := false
      tm := if x.retry.isEmpty then { x.tm with rpl := h.tb.toNat } else x.tm }).wf (LK_TXSEQ lk) LK_TXSEQ_NEXT ((seq + 1) % 2 ^ 20)).wf (LK_TXSEQ lk) LK_TXSEQ_HELD (x.retry.length + 1)
  let h2 := if x.nkDue then h1.addSat (LK_CNT lk) LK_CNT_NAK 1 else h1
  let h3 := if credited f then h2.wf (LK_CRED lk) (credFld f.tc) (h2.cred lk f.tc - 1) else h2
  h3.setLane l { h3.lane l with sent := frameBytes g (ackBits x.accSeq x.nkDue) }

/-- Send a frame that is not new to the sequence: IDLE, unsequenced link control, or a replay. -/
def sendPlain (h : Hw) (lk l : Nat) (f : Frame) : Hw :=
  let x := h.link lk
  let h1 := h.setLink lk { x with nkDue := false }
  let h2 := if x.nkDue then h1.addSat (LK_CNT lk) LK_CNT_NAK 1 else h1
  h2.setLane l { h2.lane l with sent := frameBytes f (ackBits x.accSeq x.nkDue) }

/-- An IDLE frame. -/
def idleFrame (h : Hw) (lk : Nat) : Frame := { Frame.blank with epoch := h.rf (LK_STAT lk) LK_STAT_TXEP }

/-- The CREDIT frame that returns every credit owed (R202, R213). -/
def creditFrame (x : LinkSt) : Frame :=
  { Frame.blank with typ := ftCREDIT, len := 8, payload := [0, 1, 2, 3].flatMap (fun tc => leBytes 2 (kvGet 0 x.owed tc)) }

/-- Send a class frame from the transmit queue. -/
def sendClass (h : Hw) (lk l i : Nat) : Hw :=
  let x := h.link lk
  match x.txq[i]? with
  | none => h
  | some f => sendNew (h.setLink lk { x with txq := dropAt x.txq i, tc0wait := if f.tc = 0 then 0 else x.tc0wait }) lk l f true

/-- A slot in which a TC0 frame with credit waits counts toward its bound (R214). -/
def tc0Slot (h : Hw) (lk : Nat) : Hw :=
  if (classHead h lk 0).isSome then h.setLink lk { h.link lk with tc0wait := (h.link lk).tc0wait + 1 } else h

/-- The class frame of a slot: the oldest of the first class that may send, TC0 first when one has waited for 15 slots (R214). No class frame leaves in QUIESCE (R216, R420). -/
def classPick (h : Hw) (lk : Nat) : Option Nat :=
  if h.lkState lk = lsQuiesce then none
  else (if (h.link lk).tc0wait ≥ 15 then [0, 2, 1, 3] else [2, 1, 3, 0]).findSome? (fun tc => classHead h lk tc)

/-- A slot of an UP link (R214). -/
def sendUp (h : Hw) (lk l : Nat) : Hw :=
  let x := h.link lk
  match x.replay with
  | some i =>
    (match x.retry[i]? with
     | some f => tc0Slot (sendPlain (h.setLink lk { x with replay := if i + 1 < x.retry.length then some (i + 1) else none }) lk l { f with rpl := true }) lk
     | none => sendPlain (h.setLink lk { x with replay := none }) lk l (idleFrame h lk))
  | none =>
    if x.retry.length ≥ 64 || (x.newSet.isSome && x.lsSent) || x.txNew.isSome then tc0Slot (sendPlain h lk l (idleFrame h lk)) lk
    else match x.ctlq with
      | f :: rest =>
        let isSet := f.typ == ftLCTL && f.fmt == 4
        tc0Slot (sendNew (h.setLink lk { x with ctlq := rest, lsSent := x.lsSent || isSet,
                                                tm := if isSet then { x.tm with lset := h.tb.toNat } else x.tm }) lk l f true) lk
      | [] =>
        match classPick h lk with
        | some i => sendClass (tc0Slot h lk) lk l i
        | none =>
          if [0, 1, 2, 3].any (fun tc => kvGet 0 x.owed tc ≥ 8) then
            sendNew (h.setLink lk { x with owed := [] }) lk l (creditFrame x) false
          else sendPlain h lk l (idleFrame h lk)

/-- The link's own node identifier. -/
def nodeId (h : Hw) (r : Nat) : Nat := h.rdPair (LNK_NODE_LO r) (LNK_NODE_HI r)

/-- The INIT frame of a link (R203). -/
def initFrame (h : Hw) (lk : Nat) : Frame :=
  let w := (h.linkLanes lk).length
  let r := lk / 32
  { Frame.blank with
    typ := ftLCTL, fmt := 1, len := 26, epoch := h.epoch r
    payload := leBytes 2 0x0100 ++ leBytes 1 w ++ leBytes 1 (h.rf (LK_CFG lk) LK_CFG_LOOP) ++ leBytes 8 (nodeId h r) ++ leBytes 1 lk ++
      leBytes 1 (h.epoch r) ++ leBytes 2 0 ++ leBytes 2 (32 * w) ++ leBytes 2 (8 * w) ++ leBytes 2 (4 * w) ++ leBytes 2 (4 * w) ++ leBytes 2 64 }

/-- An unsequenced frame as it leaves: an INIT is composed then, and every frame carries the epoch of its region (R200, R203). -/
def unseqFrame (h : Hw) (lk : Nat) (f : Frame) : Frame := if f.fmt = 1 then initFrame h lk else { f with epoch := h.epoch (lk / 32) }

/-- An ALIGN frame of a lane position (R203, R206). -/
def alignFrame (h : Hw) (lk pos : Nat) : Frame :=
  { Frame.blank with typ := ftLCTL, fmt := 3, len := 1, offset := (h.link lk).txRow, epoch := h.epoch (lk / 32), payload := [BitVec.ofNat 8 pos] }

/-! ### Delivery of accepted frames -/

/-- The relay entry that takes a frame: the lowest valid one of its link and context (R171). -/
def relayFor (h : Hw) (lk : Nat) (f : Frame) : Option Nat :=
  let r := lk / 32
  if f.typ == ftDATA || f.typ == ftAREC || f.typ == ftTOKEN then
    ((List.range 256).find? (fun e =>
      h.rb (RLY_LO r e) RLY_LO_V && h.rf (RLY_LO r e) RLY_LO_IN == lk && h.rf (RLY_LO r e) RLY_LO_CTX == f.ctx)).map (fun e => h.rf (RLY_HI r e) RLY_HI_OUT)
  else none

/-- A relayed frame joins the transmit queue of its OUT link, in the same class (R171, R200). -/
def relayFrame (h : Hw) (lk out : Nat) (f : Frame) : Hw :=
  let h1 := (freePlace h lk f).idleLeave (lk / 32)
  if h1.hasLane out then linkSend h1 out f else h1

/-- Move MGMT frames that wait into the management queue of 16 frames (R199). -/
def mgmtFill : Nat → Hw → Nat → Hw
  | 0, h, _ => h
  | n + 1, h, lk =>
    let q := kvGet [] h.mgmtQ (lk / 32)
    match (h.link lk).mgmt with
    | [] => h
    | f :: rest =>
      if q.length < 16 then
        mgmtFill n (freePlace ({ (h.setLink lk { h.link lk with mgmt := rest }) with mgmtQ := kvIns h.mgmtQ (lk / 32) (q ++ [f]) }.idleLeave (lk / 32)) lk f) lk
      else h

/-- A context that runs a restart fence drops everything but FENCE (R186). -/
def fenceDrops (h : Hw) (lk : Nat) (f : Frame) : Bool :=
  (f.typ == ftDATA || f.typ == ftAREC || (f.typ == ftTOKEN && f.fmt != 4)) && f.ctx / 1024 == lk / 32 && h.hasCtx f.ctx && h.cxState f.ctx == csFence

/-- A frame for the running request of a context is progress (R185). -/
def frameProgress (h : Hw) (lk : Nat) (f : Frame) : Hw := if f.ctx / 1024 == lk / 32 && h.hasCtx f.ctx && h.cxLive f.ctx then cxProgress h f.ctx else h

/-- A DATA or AREC frame of the region: one resent goes to the chain input that awaits it (R217); any other takes a place of the receive buffer, from which it is delivered to its
post, its chain input or the exposure window, or dropped as a stray (R97, R175, R176, R213). -/
def dataDeliver (h : Hw) (lk : Nat) (f : Frame) : Hw :=
  let r := lk / 32
  let h0 := frameProgress (h.idleLeave r) lk f
  let h1 := if f.rsnd then
      (let h2 := freePlace h0 lk f
       (chainResend h2 lk f).getD (strayFrame h2 lk f.ctx))
    else h0.setLink lk { h0.link lk with rbuf := (h0.link lk).rbuf ++ [f] }
  svcAdvance h1 r

/-- What a token does in its context (R174, R176, R177, R185, R186). -/
def tokenTake (h : Hw) (lk : Nat) (f : Frame) : Hw :=
  match f.fmt with
  | 1 => readyToken h lk f
  | 2 => barrierToken h lk f
  | 3 => abortToken h f
  | 4 => fenceToken h lk f
  | 5 => doneToken h f
  | 6 => getreqToken h lk f
  | _ => h

/-- A token of the region. -/
def tokenDeliver (h : Hw) (lk : Nat) (f : Frame) : Hw :=
  let h0 := freePlace h lk f
  let n := f.ctx
  if n / 1024 ≠ lk / 32 ∨ h0.hasCtx n = false then h0
  else if !h0.rb (CXE_CTL n) CXE_CTL_V then h0
  else svcAdvance (tokenTake h0 lk f) (lk / 32)

/-- A CREDIT frame returns credits of every class (R202, R213). -/
def creditTake (h : Hw) (lk : Nat) (f : Frame) : Hw :=
  chainsAdvance (forEach (List.range 4) h (fun h tc =>
    h.wf (LK_CRED lk) (credFld tc) (min 255 (h.cred lk tc + leNat ((f.payload.drop (2 * tc)).take 2))))) (lk / 32)

/-- SNAK (R217): every held frame that covers items of the segment is sent again, or the request is refused. -/
def snakServe (h : Hw) (lk : Nat) (f : Frame) : Hw :=
  let x := h.link lk
  let cnt := leNat (f.payload.take 4)
  let hits := x.hist.filter (fun g => g.typ == ftDATA && g.ctx == f.ctx && g.step == f.step && decide (f.offset < g.offset + frameItems g) && decide (g.offset < f.offset + cnt))
  let byOff := hits.foldl (fun acc g => (acc.takeWhile (fun a => decide (a.offset < g.offset))) ++ [g] ++
    (acc.dropWhile (fun a => decide (a.offset < g.offset))).filter (fun a => a.offset != g.offset)) []
  let covered := byOff.foldl (fun e g => if g.offset ≤ e then max e (g.offset + frameItems g) else e) f.offset
  let ok := decide (f.offset + cnt ≤ covered)
  if ok && byOff.length != 0 then
    (byOff.foldl (fun h g => linkSend h lk { g with rsnd := true, rpl := false }) h).addSat (LK_SNAK lk) LK_SNAK_SERVED 1
  else
    (linkCtl h lk { Frame.blank with typ := ftSREF, ctx := f.ctx, step := f.step, offset := f.offset }).addSat (LK_SNAK lk) LK_SNAK_REFUSED 1

/-- A lane receives frames and is deskewed. -/
def laneReady (h : Hw) (l : Nat) : Bool := h.rf (LN_STAT l) LN_STAT_DLN == 2 && (h.lane l).desk

/-- Every lane of a mask of the sender's positions is in SYNC and deskewed (R205, R224). -/
def maskReady (h : Hw) (lk mask : Nat) : Bool :=
  mask != 0 && (List.range 4).all (fun q => !bit mask q || (h.linkLanes lk).any (fun l => (h.lane l).outPos == q && laneReady h l))

/-- The own positions of the lanes that a mask of the partner's positions names (R205, R206). -/
def ownMask (h : Hw) (lk mask : Nat) : Nat := maskOf (fun p => match h.laneAt lk p with | some l => bit mask (h.lane l).outPos | none => false)

/-- The lanes of a mask of own positions, by the partner's positions. -/
def outMask (h : Hw) (lk mask : Nat) : Nat :=
  maskOf (fun q => (List.range 4).any (fun p => bit mask p && (match h.laneAt lk p with | some l => (h.lane l).outPos == q | none => false)))

/-- An LCTL frame with a one-byte mask. -/
def maskFrame (fmt mask : Nat) : Frame := { Frame.blank with typ := ftLCTL, fmt := fmt, len := 1, payload := [BitVec.ofNat 8 mask] }

/-- The transmit lane set a link will have once its LANESET is answered and the set that waits is asked for. -/
def txWanted (h : Hw) (lk : Nat) : Nat :=
  let x := h.link lk
  x.want.getD (x.newSet.getD (x.txNew.getD (h.rf (LK_STAT lk) LK_STAT_TXACT)))

/-- The transmitter asks for a new lane set (R224); one LANESET is out at a time, and a later set waits for its answer. -/
def sendLaneset (h : Hw) (lk mask : Nat) : Hw :=
  if mask = 0 ∨ h.lkUp lk = false then h
  else if (h.link lk).newSet.isSome then h.setLink lk { h.link lk with want := some mask }
  else
    let h1 := linkCtl (h.setLink lk { h.link lk with newSet := some mask, lsSent := false, want := none }) lk (maskFrame 4 mask)
    if h1.lkState lk = lsUp then linkSetState h1 lk lsChange else h1

/-- Ask for the lane set that waits, if any (R224). -/
def sendWanted (h : Hw) (lk : Nat) : Hw :=
  match (h.link lk).want with
  | none => h
  | some m => if m = (h.link lk).txNew.getD (h.rf (LK_STAT lk) LK_STAT_TXACT) then h.setLink lk { h.link lk with want := none } else sendLaneset h lk m

/-- LANE_SYNC_ACQUIRED (R204): from HUNT to PRESYNC on a window whose HCRC checks, and to SYNC after 7 good boundaries in succession. -/
def laneSyncAcquired (l : Nat) (h : Hw) : Hw :=
  if !h.hasLane l then h
  else
    let d := h.rf (LN_STAT l) LN_STAT_DLN
    let x := h.lane l
    if d = 0 then h.wf (LN_STAT l) LN_STAT_DLN 1
    else if d = 1 then (h.wf (LN_STAT l) LN_STAT_DLN 2).setLane l { x with hfail := 0 }
    else h

/-- A link whose own lanes are all in SYNC and deskewed enters INIT once it has sent 64 rows of ALIGN frames (R219); there it goes on sending ALIGN until the partner's INIT shows
that the other direction is deskewed too. -/
def alignCheck (h : Hw) (lk : Nat) : Hw :=
  let m := h.usable lk
  if h.lkState lk == lsAlign && m != 0 && (List.range 4).all (fun p => !bit m p || (match h.laneAt lk p with | some l => laneReady h l | none => false)) &&
     decide (64 ≤ (h.link lk).txRow) then
    linkSetState (h.setLink lk { h.link lk with txRow := 0, txAt := 0 }) lk lsInit
  else h

/-- Step 6 of a start ends when every enabled link is UP (R442). -/
def bootLinksUp (h : Hw) : Hw :=
  if h.rf BOOT_STAT BOOT_STAT_STEP = 6 ∧ (List.range (32 * h.nRegions)).all (fun l => !h.rb (LK_CFG l) LK_CFG_EN || h.lkUp l)
  then h.wf BOOT_STAT BOOT_STAT_STEP 7 else h

/-- The link is UP once it has both the partner's INIT and INITACK for its own (R219): SEQ 0 in each direction, every lane that has not FAILED in the lane sets, the receive set by
the partner's positions, frames of the region's epoch; in QUIESCE while its region recovers (R216). -/
def upCheck (h : Hw) (lk : Nat) : Hw :=
  let x := h.link lk
  if h.lkState lk == lsInit && x.gotInit && x.gotAck then
    (let m := h.usable lk
     let h1 := ((((h.wr (LK_TXSEQ lk) 0).wr (LK_RXSEQ lk) 0).wf (LK_STAT lk) LK_STAT_TXACT m).wf (LK_STAT lk) LK_STAT_RXACT (outMask h lk m)).wf
       (LK_STAT lk) LK_STAT_TXEP (h.epoch (lk / 32))
     let h2 := h1.setLink lk { x with retry := [], hist := [], replay := none, rplSeq := none, rplCnt := 0, accSeq := none, nkDue := false, rxAt := 0 }
     let h3 := (h.linkLanes lk).foldl (fun h l => if laneFailed h l then h else h.wf (LN_STAT l) LN_STAT_STATE 4) h2
     bootLinksUp (linkSetState h3 lk (if inRecovery h (lk / 32) then lsQuiesce else lsUp)))
  else h

/-- INIT received (R203, R213, R215, R219): taken while the link is in ALIGN or INIT; every INIT is acknowledged. -/
def initTake (h : Hw) (lk : Nat) (f : Frame) : Hw :=
  let p := fun i n => leNat ((f.payload.drop i).take n)
  let node := p 4 8
  let plink := p 12 1
  let self := node == nodeId h (lk / 32) && plink == lk
  let ack : Frame := { Frame.blank with typ := ftLCTL, fmt := 2, len := 9, payload := leBytes 8 node ++ leBytes 1 plink }
  if self && !h.rb (LK_CFG lk) LK_CFG_LOOP then protoError h lk
  else if h.lkUp lk then h.setLink lk { h.link lk with unseq := (h.link lk).unseq ++ [ack] }
  else
    let h1 := ((h.wf (LK_PEER lk) LK_PEER_VER (p 0 2)).wf (LK_PEER lk) LK_PEER_PLINK plink).wf (LK_PEER lk) LK_PEER_PW (p 2 1)
    let h2 := (h1.wr (LK_PEERID_LO lk) (BitVec.ofNat 32 node)).wr (LK_PEERID_HI lk) (BitVec.ofNat 32 (node / 2 ^ 32))
    let h3 := forEach (List.range 4) h2 (fun h tc => h.wf (LK_CRED lk) (credFld tc) (min 255 (p (16 + 2 * tc) 2)))
    let h4 := (h3.wf (LK_STAT lk) LK_STAT_RXEP (p 13 1)).wf (LK_STAT lk) LK_STAT_LOOP (b2n self)
    let x := h4.link lk
    upCheck (h4.setLink lk { x with gotInit := true, depth := p 24 2, unseq := x.unseq ++ [ack], rxRow := if x.gotInit then x.rxRow else 0 }) lk

/-- INITACK received (R219). -/
def initackTake (h : Hw) (lk : Nat) (f : Frame) : Hw :=
  if leNat (f.payload.take 8) = nodeId h (lk / 32) ∧ (f.payload.getD 8 0).toNat = lk then upCheck (h.setLink lk { h.link lk with gotAck := true }) lk else h

/-- ALIGN received (R205, R206): the lane's position at the sender and its deskew, of `skew` eighths of a frame time. The receiver tolerates 2 frame times, and on a link that is not
UP a row number at most 2 rows from that of the last ALIGN frame; a lane beyond either is not deskewed by this frame. -/
def alignTake (h : Hw) (lk l : Nat) (f : Frame) (skew : Nat) : Hw :=
  let x := h.link lk
  let row := f.offset % 2 ^ 16
  let d := (row + 2 ^ 16 - x.rxRow) % 2 ^ 16
  let near := h.lkUp lk || d ≤ 2 || 2 ^ 16 - d ≤ 2 || !(h.linkLanes lk).any (fun k => (h.lane k).desk)
  let h1 := if h.lkUp lk then h else h.setLink lk { x with rxRow := row }
  if near && decide (skew ≤ 16) then
    alignCheck ((h1.wf (LN_STAT l) LN_STAT_SKEW skew).setLane l { h.lane l with desk := true, outPos := (f.payload.headD 0).toNat }) lk
  else h1.setLane l { h.lane l with desk := false }

/-- A member of a lane set at or above a position is still to have its slot in the present row. -/
def rowLeft (set k : Nat) : Bool := (List.range 4).any (fun p => decide (k ≤ p) && bit set p)

/-- The position whose slot comes next: the lowest of the set that is left in the row, else the lowest of the next row (R205). -/
def rowNext (set k : Nat) : Option Nat :=
  (List.range 4).find? (fun p => bit set p && (decide (k ≤ p) || !rowLeft set k))

/-- STATE of the lanes of a link follows its transmit set: those that join it are ACTIVE, those that leave it REMOVED (R224). -/
def lanesFollow (h : Hw) (lk m : Nat) : Hw :=
  (List.range 4).foldl (fun h p => match h.laneAt lk p with
    | none => h
    | some l =>
      let st := h.rf (LN_STAT l) LN_STAT_STATE
      if bit m p then (if st = 3 ∨ st = 5 then h.wf (LN_STAT l) LN_STAT_STATE 4 else h)
      else if st = 4 then h.wf (LN_STAT l) LN_STAT_STATE 5 else h) h

/-- A row has been sent: the rows are counted modulo 2^16, and a new lane set applies from the next (R206, R224). -/
def txRowEnd (h : Hw) (lk : Nat) : Hw :=
  let x := h.link lk
  let h1 := h.setLink lk { x with txAt := 0, txRow := (x.txRow + 1) % 2 ^ 16, txNew := none }
  match x.txNew with
  | some m => (lanesFollow (h1.wf (LK_STAT lk) LK_STAT_TXACT m) lk m).sb (LK_STAT lk) LK_STAT_WCHG
  | none => h1

/-- A row has been read: likewise for the receive set (R206, R224, R228). -/
def rxRowEnd (h : Hw) (lk : Nat) : Hw :=
  let x := h.link lk
  let h1 := h.setLink lk { x with rxAt := 0, rxRow := (x.rxRow + 1) % 2 ^ 16, rxNew := none }
  match x.rxNew with
  | some m => (h1.wf (LK_STAT lk) LK_STAT_RXACT m).sb (LK_STAT lk) LK_STAT_WCHG
  | none => h1

/-- The transmit row goes on after a position of its set. -/
def txAdvance (h : Hw) (lk set pos : Nat) : Hw :=
  if rowLeft set (pos + 1) then h.setLink lk { h.link lk with txAt := pos + 1 } else txRowEnd h lk

/-- The row being read goes on after a position. -/
def rxAdvance (h : Hw) (lk q : Nat) : Hw :=
  if rowLeft (h.rf (LK_STAT lk) LK_STAT_RXACT) (q + 1) then h.setLink lk { h.link lk with rxAt := q + 1 } else rxRowEnd h lk

/-- LANESET received (R224, R228): the row in progress is read on the old mask. -/
def lanesetTake (h : Hw) (lk : Nat) (f : Frame) : Hw :=
  let m := (f.payload.headD 0).toNat % 16
  if maskReady h lk m then linkCtl (h.setLink lk { h.link lk with rxNew := some m }) lk (maskFrame 5 m)
  else linkCtl h lk (maskFrame 6 m)

/-- The answer to a LANESET (R224): an accepted mask applies from the next row. -/
def lanesetAnswer (h : Hw) (lk : Nat) (accepted : Bool) : Hw :=
  let x := h.link lk
  match x.newSet with
  | none => h
  | some m =>
    let h1 := h.setLink lk { x with newSet := none, lsSent := false, txNew := if accepted then some m else none }
    let h2 := if accepted && x.txAt == 0 then
        (lanesFollow ((h1.setLink lk { h1.link lk with txNew := none }).wf (LK_STAT lk) LK_STAT_TXACT m) lk m).sb (LK_STAT lk) LK_STAT_WCHG
      else h1
    sendWanted (if h2.lkState lk = lsChange then linkSetState h2 lk lsUp else h2) lk

/-- LREQ received (R224): the lanes it names, by the sender's positions, leave the own transmit set. -/
def lreqTake (h : Hw) (lk : Nat) (f : Frame) : Hw :=
  sendLaneset h lk (Nat.land (txWanted h lk) (15 - ownMask h lk ((f.payload.headD 0).toNat % 16)))

/-- What an accepted or unsequenced good frame does. -/
def frameAct (h : Hw) (lk l : Nat) (f : Frame) (skew : Nat) : Hw :=
  let content := f.typ == ftDATA || f.typ == ftAREC || f.typ == ftTOKEN || f.typ == ftSNAK || f.typ == ftSREF || f.typ == ftMGMT
  if content && f.epoch != h.rf (LK_STAT lk) LK_STAT_RXEP then (freePlace h lk f).addSat (LK_DROP lk) LK_DROP_EPOCH 1
  else if content && h.lkState lk == lsQuiesce then freePlace h lk f
  else match relayFor h lk f with
    | some out => relayFrame h lk out f
    | none =>
      if fenceDrops h lk f then (freePlace h lk f).addSat (CXE_CNT f.ctx) CXE_CNT_STRAY 1
      else if f.typ == ftDATA || f.typ == ftAREC then dataDeliver h lk f
      else if f.typ == ftTOKEN then tokenDeliver h lk f
      else if f.typ == ftCREDIT then creditTake h lk f
      else if f.typ == ftEPOCH then h.wf (LK_STAT lk) LK_STAT_RXEP f.epoch
      else if f.typ == ftSNAK then snakServe h lk f
      else if f.typ == ftSREF then chainSref h lk f.ctx f.step f.offset
      else if f.typ == ftMGMT then mgmtFill 17 (h.setLink lk { h.link lk with mgmt := (h.link lk).mgmt ++ [f] }) lk
      else if f.typ == ftLCTL then
        (match f.fmt with
         | 1 => initTake h lk f
         | 2 => initackTake h lk f
         | 3 => alignTake h lk l f skew
         | 4 => lanesetTake h lk f
         | 5 => lanesetAnswer h lk true
         | 6 => lanesetAnswer h lk false
         | 7 => lreqTake h lk f
         | 8 => linkGoDown h lk 1
         | _ => h)
      else h

/-- LEN of a token or link control frame (R201, R203). -/
def lenOf (f : Frame) : Nat :=
  if f.typ = ftTOKEN then (match f.fmt with | 3 => 4 | 6 => 12 | _ => 0)
  else match f.fmt with | 1 => 26 | 2 => 9 | 8 => 0 | _ => 1

/-- A frame whose TYPE, token code or link control code is reserved (R198, R199). -/
def frameReserved (f : Frame) : Bool :=
  decide (f.typ ≥ 0xA) || (f.typ == ftTOKEN && (f.fmt == 0 || decide (f.fmt > 6))) || (f.typ == ftLCTL && (f.fmt == 0 || decide (f.fmt > 8)))

/-- A good frame that is a protocol error (R199). -/
def frameProto (f : Frame) : Bool :=
  frameReserved f || decide (f.len > 256) || ((f.typ == ftDATA || f.typ == ftAREC) && f.len == 0) ||
  (f.typ == ftAREC && (f.fmt != 0x20 || f.len % 2 == 1)) || ((f.typ == ftTOKEN || f.typ == ftLCTL) && f.len != lenOf f)

/-- A good frame is accepted in order (R208): its CRD is taken, then it is delivered. -/
def acceptFrame (h : Hw) (lk l : Nat) (f : Frame) (skew : Nat) : Hw :=
  let h1 := ((h.wf (LK_RXSEQ lk) LK_RXSEQ_EXP ((f.seq + 1) % 2 ^ 20)).wf (LK_RXSEQ lk) LK_RXSEQ_NAKST 0).setLink lk { h.link lk with accSeq := some f.seq }
  let h2 := if f.crdN = 0 then h1 else h1.wf (LK_CRED lk) (credFld (f.crdTc % 4)) (min 255 (h1.cred lk (f.crdTc % 4) + f.crdN))
  frameAct h2 lk l f skew

/-- What the lane reports with a slot (R222): corrected symbols, uncorrectable codewords and the eye margin with its smallest of the beat. -/
def laneFigures (h : Hw) (l : Nat) (aw : AckWord) : Hw :=
  let h1 := ((h.addSat (LN_COR l) LN_COR_COR aw.cor).addSat (LN_ERR l) LN_ERR_UNCOR aw.unc).wf (LN_STAT l) LN_STAT_EYE aw.eye
  h1.wf (LN_EYE l) LN_EYE_MIN (min (h1.rf (LN_EYE l) LN_EYE_MIN) (aw.eye % 256))

/-- LN_CTL.LOOP of a lane (R193): 1 near-end, 2 far-end. -/
def Hw.loopOf (h : Hw) (l : Nat) : Nat := h.rf (LN_CTL l) LN_CTL_LOOP

/-- The slot of a lane is the next of the row that an UP link reads, or lies outside its receive set (R205). -/
def rxTurn (h : Hw) (lk l : Nat) : Bool :=
  let set := h.rf (LK_STAT lk) LK_STAT_RXACT
  let q := (h.lane l).outPos
  !h.lkUp lk || !bit set q || rowNext set (h.link lk).rxAt == some q

/-- A lane of the receive set of an UP link. -/
def inRxSet (h : Hw) (lk l : Nat) : Bool := h.lkUp lk && bit (h.rf (LK_STAT lk) LK_STAT_RXACT) (h.lane l).outPos

/-- The row goes on after a slot of the receive set, if the link is still UP. -/
def slotRead (h : Hw) (lk l : Nat) (inSet : Bool) : Hw := if inSet && h.lkUp lk then rxAdvance h lk (h.lane l).outPos else h

/-- What a good frame does to the link (R199, R207, R208). -/
def goodSlot (h : Hw) (lk l : Nat) (f : Frame) (aw : AckWord) (skew : Nat) (inSet : Bool) : Hw :=
  let h0 := ackReceive h lk aw
  if h0.lkState lk < lsAlign then h0
  else if frameProto f then protoError h0 lk
  else if !sequenced f then (if f.typ = ftIDLE then h0 else frameAct h0 lk l f skew)
  else if !inSet then h0
  else
    let d := seqDist f.seq (h0.rf (LK_RXSEQ lk) LK_RXSEQ_EXP)
    if d = 0 then acceptFrame h0 lk l f skew
    else if d ≥ 2 ^ 19 then (if h0.rb (LK_RXSEQ lk) LK_RXSEQ_NAKST then h0 else h0.addSat (LK_DROP lk) LK_DROP_DUP 1)
    else if d ≤ (h0.link lk).depth then enterNak h0 lk
    else protoError h0 lk

/-- A good frame reaches the receiver of a lane: in SYNC it is processed in the order of its row (R204, R205), and its HCRC ends a run of failures. -/
def goodFrame (lk pos : Nat) (f : Frame) (aw : AckWord) (skew : Nat) (h : Hw) : Hw :=
  match h.laneAt lk pos with
  | none => h
  | some l =>
    if h.rf (LN_STAT l) LN_STAT_DLN ≠ 2 ∨ h.memServed (lk / 32) = false ∨ h.lkState lk < lsAlign ∨ rxTurn h lk l = false then h
    else
      let h1 := h.setLane l { h.lane l with hfail := 0 }
      slotRead (goodSlot h1 lk l f aw skew (inRxSet h1 lk l)) lk l (inRxSet h1 lk l)

/-- A frame arrives on a lane from outside: a lane in near-end loopback does not receive it; one in far-end loopback transmits it again unchanged (R193). -/
def frameArrives (lk pos : Nat) (f : Frame) (aw : AckWord) (skew : Nat) (h : Hw) : Hw :=
  match h.laneAt lk pos with
  | none => h
  | some l =>
    if h.loopOf l = 1 ∨ h.memServed (lk / 32) = false then h
    else
      let h1 := laneFigures h l aw
      let h2 := if h.loopOf l = 2 then h1.setLane l { h1.lane l with sent := frameBytes f (ackBits (if aw.av then some aw.aseq else none) aw.nk) } else h1
      goodFrame lk pos f aw skew h2

/-- A frame of one TYPE (and code): the command's name fixes them, but for a frame whose own are reserved. -/
def typedFrame (typ : Nat) (fmt : Option Nat) (lk pos : Nat) (f : Frame) (aw : AckWord) (h : Hw) : Hw :=
  frameArrives lk pos (if frameReserved f then f else { f with typ := typ, fmt := fmt.getD f.fmt }) aw 0 h

/-- ALIGN (R206), with the deskew it shows. -/
def alignReceived (lk pos : Nat) (f : Frame) (aw : AckWord) (skew : Nat) (h : Hw) : Hw :=
  frameArrives lk pos (if frameReserved f then f else { f with typ := ftLCTL, fmt := 3 }) aw skew h

/-- A lane leaves SYNC (R223): a wider link takes it from the receive set at once and asks the partner to remove it; an x1 link, or one with no other lane left, goes DOWN. -/
def laneDrop (h : Hw) (l : Nat) : Hw :=
  match h.linkOfLane l with
  | none => h
  | some lk =>
    let q := (h.lane l).outPos
    let set := h.rf (LK_STAT lk) LK_STAT_RXACT
    if !h.lkUp lk || !bit set q then h
    else
      let left := Nat.land set (15 - 2 ^ q)
      if left = 0 then linkGoDown h lk 2
      else
        let x := h.link lk
        let h1 := (h.wf (LK_STAT lk) LK_STAT_RXACT left).sb (LK_STAT lk) LK_STAT_WCHG
        let h2 := h1.setLink lk { x with rxNew := x.rxNew.map (fun m => Nat.land m (15 - 2 ^ q)) }
        let h3 := if x.rxAt ≠ 0 ∧ rowLeft left x.rxAt = false then rxRowEnd h2 lk else h2
        (linkCtl h3 lk (maskFrame 7 (2 ^ h.posOf lk l))).wf (LN_STAT l) LN_STAT_STATE 5

/-- LANE_SYNC_LOSS (R204, R223): a lane loses signal, or delineation: from SYNC with LN_STAT.DLOSS, from PRESYNC without. A lane in near-end loopback hears no line. -/
def laneSyncLoss (l : Nat) (signal : Bool) (h : Hw) : Hw :=
  if !h.hasLane l || (signal && h.loopOf l == 1) then h
  else
    let was := h.rf (LN_STAT l) LN_STAT_DLN
    let h1 := h.wf (LN_STAT l) LN_STAT_DLN 0
    let h2 := if signal then h1.sb (LN_STAT l) LN_STAT_LOS else if was = 2 then h1.sb (LN_STAT l) LN_STAT_DLOSS else h1
    laneDrop (h2.setLane l { h2.lane l with desk := false, hfail := 0 }) l

/-- What a slot that is not good does to an UP link (R196, R208). -/
def badSlot (h : Hw) (lk : Nat) (aw : AckWord) (inSet : Bool) : Hw :=
  let h1 := ackReceive h lk aw
  if inSet && h1.lkUp lk then enterNak h1 lk else h1

/-- FRAME_RECEIVE_FAILED (R204, R208): a slot that is not good; `hcrc` says whether its HCRC failed. In PRESYNC that returns the lane to HUNT; in SYNC the failure is counted, its
acknowledgement word may still check, and 6 HCRC failures in succession lose the delineation. -/
def frameReceiveFailed (lk pos : Nat) (aw : AckWord) (hcrc : Bool) (h : Hw) : Hw :=
  match h.laneAt lk pos with
  | none => h
  | some l =>
    if h.memServed (lk / 32) = false ∨ h.loopOf l = 1 then h
    else
      let h0 := laneFigures h l aw
      let h1 := if h.loopOf l = 2 then h0.setLane l { h0.lane l with sent := [] } else h0
      if h.rf (LN_STAT l) LN_STAT_DLN = 1 then (if hcrc then laneSyncLoss l false h1 else h1)
      else if h.rf (LN_STAT l) LN_STAT_DLN ≠ 2 ∨ rxTurn h1 lk l = false then h1
      else
        let n := if hcrc then (h1.lane l).hfail + 1 else 0
        let h2 := (h1.addSat (LN_ERR l) LN_ERR_CRCF 1).setLane l { h1.lane l with hfail := n }
        let h3 := slotRead (badSlot h2 lk aw (inRxSet h2 lk l)) lk l (inRxSet h2 lk l)
        if n ≥ 6 then laneSyncLoss l false h3 else h3

/-! ### The transmit slots (R193, R205, R214, R219) -/

/-- A number of bits of a tag. -/
def tagFld (n lo w : Nat) : Nat := n / 2 ^ lo % 2 ^ w

/-- The frame that 280 bytes spell (R194, R195). -/
def frameOf (bs : List Byte) : Frame :=
  let n := beNat (bs.take 14)
  let len := tagFld n 13 9
  { typ := tagFld n 108 4, epoch := tagFld n 104 4, ctx := tagFld n 92 12, step := tagFld n 80 12, seq := tagFld n 60 20, offset := tagFld n 28 32, fmt := tagFld n 22 6,
    len := len, crdTc := tagFld n 11 2, crdN := tagFld n 5 6, tc := tagFld n 3 2, rpl := bit n 2, lst := bit n 1, rsnd := bit n 0, payload := (bs.drop 16).take len }

/-- The acknowledgement word in the trailer of 280 bytes (R197), from a lane that hears itself. -/
def ackOf (bs : List Byte) : AckWord :=
  let n := beNat ((bs.drop 276).take 4)
  ⟨true, bit n 31, bit n 30, tagFld n 8 20, 0, 0, 0, false, 0⟩

/-- The frame of one slot of a link in ALIGN or INIT (R219): INIT and INITACK on the lowest position; ALIGN until both directions are deskewed, then IDLE. -/
def sendInit (h : Hw) (lk l pos : Nat) : Hw :=
  let x := h.link lk
  let other := if h.lkState lk = lsAlign ∨ x.gotInit = false then alignFrame h lk pos else { Frame.blank with epoch := h.epoch (lk / 32) }
  match x.unseq with
  | f :: rest => if rowNext (h.usable lk) 0 = some pos then sendPlain (h.setLink lk { x with unseq := rest }) lk l (unseqFrame h lk f) else sendPlain h lk l other
  | [] => sendPlain h lk l other

/-- The slot of a position (R205, R214, R219, R222): of a link in ALIGN or INIT, of the transmit lane set of an UP link, or of a lane outside it, which sends ALIGN frames. A slot out of
the order of its row does not come. -/
def slotSend (h : Hw) (lk l pos : Nat) : Hw :=
  let x := h.link lk
  if h.lkState lk = lsAlign ∨ h.lkState lk = lsInit then
    (if rowNext (h.usable lk) x.txAt = some pos then alignCheck (txAdvance (sendInit h lk l pos) lk (h.usable lk) pos) lk else h)
  else if !h.lkUp lk then h
  else
    let set := h.rf (LK_STAT lk) LK_STAT_TXACT
    if bit set pos then
      (if rowNext set x.txAt ≠ some pos then h
       else txAdvance (match x.unseq with
         | f :: rest => sendPlain (h.setLink lk { x with unseq := rest }) lk l (unseqFrame h lk f)
         | [] => sendUp h lk l) lk set pos)
    else if h.rf (LN_STAT l) LN_STAT_STATE = 3 ∨ h.rf (LN_STAT l) LN_STAT_STATE = 5 then sendPlain h lk l (alignFrame h lk pos)
    else h

/-- FRAME_TRANSMIT (R205, R214, R219): one slot of a lane. In near-end loopback the frame returns to the lane's own receiver and nothing is transmitted; in far-end loopback the lane
transmits what it receives, and a slot of its own has no effect (R193). -/
def frameTransmit (lk pos : Nat) (h : Hw) : Hw :=
  match h.laneAt lk pos with
  | none => h
  | some l =>
    if !h.memServed (lk / 32) || h.loopOf l == 2 then h
    else if h.loopOf l = 1 then
      (let h1 := slotSend (h.setLane l { h.lane l with sent := [] }) lk l pos
       let bs := (h1.lane l).sent
       if bs.isEmpty then h1 else goodFrame lk pos (frameOf bs) (ackOf bs) 0 (h1.setLane l { h1.lane l with sent := [] }))
    else slotSend h lk l pos

/-! ### Bring-up (R218 to R220) -/

/-- The LK_CFG check of R218: an enabled value's lanes form a link of R20 whose number is its lowest lane and which overlaps no other enabled link. -/
def linkCfgOk (h : Hw) (lk : Nat) (v : W32) : Bool :=
  fldGet LK_CFG_EN v == 0 ||
  (let ls := lanesOfCfg lk v
   let m := fldGet LK_CFG_LANES v
   h.hasLane lk && [1, 2, 4, 8, 3, 12, 15].contains m && ls.head? == some lk &&
   (List.range 4).all (fun k =>
     let o := lk / 4 * 4 + k
     o == lk || !h.rb (LK_CFG o) LK_CFG_EN || (h.linkLanes o).all (fun l => !ls.contains l)))

/-- LINK_UP (R218, R219); on a link all of whose lanes have FAILED, an x1 link's one among them, it gives them another trial (R222). -/
def linkUp (lk : Nat) (h : Hw) : Hw :=
  if h.hasLane lk && h.working (lk / 32) && h.rb (LK_CFG lk) LK_CFG_EN && h.lkState lk == lsDown then
    (let h1 := if h.usable lk = 0 then (h.linkLanes lk).foldl (fun h l => (h.wf (LN_STAT l) LN_STAT_STATE 0).wf (LN_STAT l) LN_STAT_RTRY 0) h else h
     bringUp h1 lk false)
  else h

/-- Send DOWN and take a link down with cause "request" (R220). The DOWN frame leaves in the slot before. -/
def linkRequestDown (h : Hw) (lk : Nat) : Hw :=
  if h.lkState lk = lsDown then h
  else
    let h1 := if h.lkUp lk then
        (match (rowNext (h.rf (LK_STAT lk) LK_STAT_TXACT) 0).bind (h.laneAt lk) with
         | some l => sendNew h lk l { Frame.blank with typ := ftLCTL, fmt := 8 } true
         | none => h)
      else h
    linkGoDown h1 lk 1

/-- A write of LK_CTL (R218): a keeper-world supervisor's. -/
def lkCtlWrite (h : Hw) (lk : Nat) (w : Who) (v : W32) : Hw :=
  if !w.keeperSup || !h.hasLane lk then h
  else
    let h1 := h.wr (LK_CTL lk) (v &&& 8)
    let h2 := if fldGet LK_CTL_DOWN v = 1 then linkRequestDown h1 lk else h1
    let h3 := if fldGet LK_CTL_RETRAIN v = 1 ∧ h2.rb (LK_CFG lk) LK_CFG_EN ∧ h2.working (lk / 32) then linkRetrainNow h2 lk 1 else h2
    if fldGet LK_CTL_UP v = 1 then linkUp lk h3 else h3

/-- LINK_UP as a write of LK_CTL. -/
def linkUpCmd (w : Who) (lk : Nat) (v : W32) (h : Hw) : Hw := lkCtlWrite h lk w v
/-- LINK_DOWN_CMD (R220). -/
def linkDownCmd (w : Who) (lk : Nat) (v : W32) (h : Hw) : Hw := lkCtlWrite h lk w v
/-- LINK_RETRAIN (R220). -/
def linkRetrain (w : Who) (lk : Nat) (v : W32) (h : Hw) : Hw := lkCtlWrite h lk w v

/-- AN_DONE (R219): the rate is agreed. -/
def anDone (lk : Nat) (fallback : Bool) (h : Hw) : Hw :=
  if h.lkState lk ≠ lsAn then h
  else
    let fb := h.rb (LK_CFG lk) LK_CFG_FBONLY || (fallback && h.rb (LK_CFG lk) LK_CFG_FB100)
    let h1 := (h.linkLanes lk).foldl (fun h l => (if laneFailed h l then h else h.wf (LN_STAT l) LN_STAT_STATE 2).wf
      (LN_STAT l) LN_STAT_RATE (b2n fb)) (h.wf (LK_STAT lk) LK_STAT_RATE (b2n fb))
    linkSetState h1 lk lsTrain

/-- A lane's training failed (R222): it is counted, and RETRAIN_MAX failures in succession make the lane FAILED. -/
def laneTrainFail (h : Hw) (l : Nat) : Hw :=
  let n := h.rf (LN_STAT l) LN_STAT_RTRY + 1
  let h1 := (h.wf (LN_STAT l) LN_STAT_RTRY (min 15 n)).sb (LN_STAT l) LN_STAT_TFAIL
  if n ≥ max 1 (h.rf (LNK_THR1 (l / 32)) LNK_THR1_RETRAIN_MAX) then yieldLane (h1.wf (LN_STAT l) LN_STAT_STATE 6) l else h1

/-- A lane's training succeeded: it sends ALIGN frames, with precoding as training asked (R190, R219). -/
def laneTrained (h : Hw) (l : Nat) (pre : Bool) : Hw :=
  ((h.wf (LN_STAT l) LN_STAT_STATE 3).wf (LN_STAT l) LN_STAT_RTRY 0).wf (LN_STAT l) LN_STAT_PRECODE (b2n pre)

/-- Bring-up fails (R219). -/
def bringUpFail (h : Hw) (lk cause : Nat) : Hw := linkGoDown (h.sb (LK_STAT lk) LK_STAT_INITF) lk cause

/-- Training of the whole link ends at its bring-up (R219, R222): a failure at the primary rate is tried once at the fallback rate where FB100 permits; else the lanes that failed are
counted, and a wider link goes on with the others when every lane that failed has FAILED for good. -/
def linkTrained (h : Hw) (lk failed precode : Nat) : Hw :=
  let lanes := ((h.linkLanes lk).zip (List.range 4)).filter (fun e => !laneFailed h e.1)
  let x := h.link lk
  let bad := lanes.filter (fun e => bit failed e.2)
  if !bad.isEmpty && h.rb (LK_CFG lk) LK_CFG_FB100 && h.rf (LK_STAT lk) LK_STAT_RATE == 0 && !x.fbTried then
    lanes.foldl (fun h e => h.wf (LN_STAT e.1) LN_STAT_RATE 1) ((h.setLink lk { x with fbTried := true }).wf (LK_STAT lk) LK_STAT_RATE 1)
  else
    let h1 := bad.foldl (fun h e => laneTrainFail h e.1) h
    if h1.usable lk = 0 ∨ bad.any (fun e => !laneFailed h1 e.1) then bringUpFail h1 lk 4
    else
      let h2 := lanes.foldl (fun h e => if bit failed e.2 then h else laneTrained h e.1 (bit precode e.2)) h1
      linkSetState (h2.setLink lk { h2.link lk with txRow := 0, txAt := 0, tm := { (h2.link lk).tm with init := h.tb.toNat, again := none } }) lk lsAlign

/-- Training of one lane ends on a link that is UP (R222): it goes on to ALIGN, or is trained again until it has FAILED. -/
def loneTrained (h : Hw) (l : Nat) (failed pre : Bool) : Hw :=
  let x := h.lane l
  if !x.alone then h
  else if failed then
    (let h1 := laneTrainFail h l
     if laneFailed h1 l then h1.setLane l { x with alone := false } else h1)
  else (laneTrained h l pre).setLane l { x with alone := false, desk := false, bad := 0 }

/-- TRAIN_DONE (R219, R222): training ends; `failed` is the mask of positions whose training failed and `precode` of those that use precoding. -/
def trainDone (lk failed precode : Nat) (h : Hw) : Hw :=
  if h.lkState lk = lsTrain then linkTrained h lk failed precode
  else if h.lkUp lk then ((h.linkLanes lk).zip (List.range 4)).foldl (fun h e => loneTrained h e.1 (bit failed e.2) (bit precode e.2)) h
  else h

/-- TRAIN_MAX has passed since the start of AN (R15, R219): units of 8 beats. -/
def trainDue (h : Hw) (lk : Nat) : Bool :=
  (h.lkState lk == lsAn || h.lkState lk == lsTrain) && h.beatsOver (h.link lk).tm.train (8 * h.rf (LNK_TMR (lk / 32)) LNK_TMR_TRAIN_MAX)

/-- TRAIN_TIMEOUT (R219): one of the standard's own timers, which may run out at any time of AN and TRAIN, or TRAIN_MAX at the latest. -/
def trainTimeout (lk : Nat) (h : Hw) : Hw := if h.lkState lk = lsAn ∨ h.lkState lk = lsTrain then bringUpFail h lk 4 else h
/-- INIT_TMO has passed since the entry to ALIGN (R219): units of 8 µs. -/
def initDue (h : Hw) (lk : Nat) : Bool :=
  (h.lkState lk == lsAlign || h.lkState lk == lsInit) && nsPassed h (h.link lk).tm.init (8000 * h.rf (LNK_TMR (lk / 32)) LNK_TMR_INIT_TMO) 0

/-- INIT_TIMEOUT (R219). -/
def initTimeout (lk : Nat) (h : Hw) : Hw := if initDue h lk then bringUpFail h lk 6 else h

/-- An INIT is due (R219): on entry, and every 1 µs. -/
def initAgain (h : Hw) (lk : Nat) : Bool :=
  h.lkState lk == lsInit && !(h.link lk).gotAck && (match (h.link lk).tm.again with | some t => nsPassed h t 1000 0 | none => true)

/-- INIT_RESEND (R219): INIT every 1 µs on position 0 until INITACK arrives. -/
def initResend (lk : Nat) (h : Hw) : Hw :=
  let h1 := alignCheck h lk
  if initAgain h1 lk then
    let x := h1.link lk
    h1.setLink lk { x with unseq := x.unseq ++ [initFrame h1 lk], tm := { x.tm with again := some h.tb.toNat } }
  else h1

/-- A LANESET that has left has had no answer for 10 µs (R224). -/
def lanesetLate (h : Hw) (lk : Nat) : Bool := h.lkUp lk && (h.link lk).newSet.isSome && (h.link lk).lsSent && nsPassed h (h.link lk).tm.lset 10000 0

/-- LANESET_TIMEOUT (R224). -/
def lanesetTimeout (lk : Nat) (h : Hw) : Hw := if lanesetLate h lk then linkGoDown h lk 5 else h

/-! ### Health (R222, R223) -/

/-- Remove a lane of a wider link from both directions (R224). -/
def laneRemove (h : Hw) (lk l : Nat) : Hw :=
  let p := h.posOf lk l
  let h1 := sendLaneset h lk (Nat.land (txWanted h lk) (15 - 2 ^ p))
  linkCtl h1 lk (maskFrame 7 (2 ^ p))

/-- Retrain one lane (R222): whole-link retraining on an x1 link, and on a wider one that has no other lane left; otherwise it is removed and retrained alone without AN. A FAILED lane
stays out. -/
def laneRetrainNow (h : Hw) (l : Nat) : Hw :=
  match h.linkOfLane l with
  | none => h
  | some lk =>
    if !h.lkUp lk || laneFailed h l then h
    else if Nat.land (txWanted h lk) (15 - 2 ^ h.posOf lk l) = 0 ∨ Nat.land (h.rf (LK_STAT lk) LK_STAT_RXACT) (15 - 2 ^ (h.lane l).outPos) = 0 then linkRetrainNow h lk 1
    else
      let h1 := laneRemove h lk l
      (h1.wf (LN_STAT l) LN_STAT_STATE 2).setLane l { h1.lane l with alone := true, desk := false, bad := 0 }

/-- A write of LN_CTL (R193, R222): LOOP changes only while the lane's link is DOWN. -/
def lnCtlWrite (h : Hw) (l : Nat) (w : Who) (v : W32) : Hw :=
  if !w.keeperSup || !h.hasLane l then h
  else
    let down := match h.linkOfLane l with | none => true | some lk => h.lkState lk == lsDown
    let h1 := h.wf (LN_CTL l) LN_CTL_TXOFF (fldGet LN_CTL_TXOFF v)
    let h2 := if down then h1.wf (LN_CTL l) LN_CTL_LOOP (fldGet LN_CTL_LOOP v) else h1
    if fldGet LN_CTL_RETRAIN v = 1 then laneRetrainNow h2 l else h2

/-- LANE_RETRAIN (R222). -/
def laneRetrain (w : Who) (l : Nat) (v : W32) (h : Hw) : Hw := lnCtlWrite h l w v

/-- A lane is bad in the beat whose copies stand in the last-beat registers (R222). -/
def laneBad (h : Hw) (l : Nat) : Bool :=
  let r := l / 32
  let th := fun (v t : Nat) => t != 0 && decide (v ≥ t)
  th (h.rd (LN_COR_LAST l)).toNat (16 * h.rf (LNK_THR0 r) LNK_THR0_COR_THR) ||
  th (h.rf (LN_ERR_LAST l) LN_ERR_LAST_UNCOR) (h.rf (LNK_THR0 r) LNK_THR0_UNC_THR) ||
  th (h.rf (LN_ERR_LAST l) LN_ERR_LAST_CRCF) (h.rf (LNK_THR0 r) LNK_THR0_CRC_THR) ||
  (h.rf (LNK_THR1 r) LNK_THR1_EYE_THR != 0 && decide (h.rf (LN_EYE l) LN_EYE_LASTMIN < h.rf (LNK_THR1 r) LNK_THR1_EYE_THR)) ||
  (match h.linkOfLane l with
   | none => false
   | some lk =>
     th (h.rf (LK_CNT_LAST lk) LK_CNT_LAST_RPL) (h.rf (LNK_THR1 r) LNK_THR1_RPL_THR) &&
     (h.rf (LN_ERR_LAST l) LN_ERR_LAST_CRCF != 0 || (h.linkLanes lk).all (fun k => h.rf (LN_ERR_LAST k) LN_ERR_LAST_CRCF == 0)))

/-- Keeper microcode judges the lanes of the UP links once per beat and retrains those bad in BADBEATS successive beats; it tries links that are down again (R219, R222). -/
def laneHealth (h : Hw) (r : Nat) : Hw :=
  if !h.inService r then h
  else
    let h1 := (linksOf r).foldl (fun h l =>
      match h.linkOfLane l with
      | none => h
      | some lk =>
        if !h.lkUp lk then h
        else
          let n := if laneBad h l then (h.lane l).bad + 1 else 0
          let g := h.setLane l { h.lane l with bad := n }
          if n ≠ 0 ∧ n ≥ h.rf (LNK_THR1 r) LNK_THR1_BADBEATS ∧ (g.lane l).alone = false then laneRetrainNow g l
          else if (g.rf (LN_STAT l) LN_STAT_STATE == 3 || g.rf (LN_STAT l) LN_STAT_STATE == 5) && laneReady g l && !bit (txWanted g lk) (g.posOf lk l) then
            sendLaneset g lk (Nat.lor (txWanted g lk) (2 ^ g.posOf lk l))
          else g) h
    (linksOf r).foldl (fun h lk =>
      let dc := h.rf (LK_STAT lk) LK_STAT_DCAUSE
      if h.rb (LK_CFG lk) LK_CFG_EN && h.lkState lk == lsDown && dc != 0 && dc != 1 && h.usable lk != 0 then bringUp h lk false else h) h1

/-! ### Lane test engine (R225, R226) -/

/-- The test engine of a lane has been released (R225): it stops, and the lane is OFF, or FAILED as before. -/
def ltFree (h : Hw) (l : Nat) : Hw := (h.wf (LN_STAT l) LN_STAT_STATE (if laneFailed h l then 6 else 0)).wr (LT_CTL l) 0

/-- A write of LT_CLAIM (R33, R225): link traffic yields to a claim while the lane is out of use; a refused write changes nothing of the claim. -/
def ltClaimWrite (h : Hw) (l : Nat) (w : Who) (v : W32) : Hw :=
  let out := match h.linkOfLane l with
    | none => true
    | some lk => h.lkState lk == lsDown || laneFailed h l
  let h0 := if out && fldGet cREQ v == 1 && fldGet cREL v == 0 then yieldLane h l else h
  let (h1, o) := claimWrite h0 (LT_CLAIM l) w v (fldGet cFEAT v == 2)
  match o with
  | .none => h
  | .refused => h.sb (LT_STAT l) LT_STAT_CLAIM
  | .claimed => h1.wf (LN_STAT l) LN_STAT_STATE 7
  | .released => ltFree h1 l
  | .kept => h1

/-- A write of LT_CTL (R225, R226): the holder's. -/
def ltCtlWrite (h : Hw) (l : Nat) (w : Who) (v : W32) : Hw :=
  if !h.holds (LT_CLAIM l) w then h.sb (LT_STAT l) LT_STAT_CLAIM
  else
    let h1 := h.wr (LT_CTL l) (v &&& 0xFFFFFCF8)
    let h2 := if fldGet LT_CTL_CLR v = 1 then ((h1.wr (LT_ERR l) 0).wr (LT_UI l) 0).setLane l { h1.lane l with ui := 0 } else h1
    if fldGet LT_CTL_SCAN v = 1 then h2.sb (LT_STAT l) LT_STAT_BUSY else h2

/-- LT_SCAN (R226). -/
def ltScan (w : Who) (l : Nat) (v : W32) (h : Hw) : Hw := ltCtlWrite h l w v
/-- LT_CLR (R226). -/
def ltClr (w : Who) (l : Nat) (v : W32) (h : Hw) : Hw := ltCtlWrite h l w v
/-- LT_SCAN_DONE (R226). -/
def ltScanDone (l : Nat) (errs : W32) (h : Hw) : Hw :=
  if h.rb (LT_STAT l) LT_STAT_BUSY then ((h.wr (LT_SCAN l) errs).wf (LT_STAT l) LT_STAT_BUSY 0).sb (LT_STAT l) LT_STAT_SDONE else h

/-- Symbol k, 0 to 3, of a test pattern (R226): the PRBS13Q, PRBS31Q and SSPRQ of IEEE Std 802.3, which the specification does not print, or the square wave of 8 UI high and 8 low. -/
def testSymbol (pat k : Nat) : Nat := if pat = 3 then (if k % 16 < 8 then 3 else 0) else (Config.testPattern pat k) % 4

/-- A test engine holds the lane (FEATURE 0x02, R225). -/
def testHeld (h : Hw) (l : Nat) : Bool := h.rf (LT_CLAIM l) cHELD == 1 && h.rf (LT_CLAIM l) cFEAT == 2

/-- The symbol a lane under test transmits; none with GEN = 0, in near-end loopback or with the driver squelched (R193, R226). -/
def laneSymbol (h : Hw) (l : Nat) : Option Nat :=
  if testHeld h l && h.rb (LT_CTL l) LT_CTL_GEN && h.loopOf l != 1 && h.loopOf l != 2 && !h.rb (LN_CTL l) LN_CTL_TXOFF then
    some (testSymbol (h.rf (LT_CTL l) LT_CTL_PAT) ((h.lane l).gen / 4))
  else none

/-- Quarter symbols of a CK_A tick (R189): 10 ns at 106.25 or 53.125 GBd. -/
def tickQuarters (h : Hw) (l : Nat) : Nat := if h.rb (LN_STAT l) LN_STAT_RATE then 2125 else 4250

/-- The checker's tick (R226): in near-end loopback with the generator on it hears its own pattern, locks and counts no error; what it hears otherwise is a free value. -/
def checkTick (h : Hw) (l : Nat) : Hw :=
  let n := (h.lane l).ui + tickQuarters h l
  let h1 := (h.setLane l { h.lane l with ui := n % 2 ^ 22 }).addSat (LT_UI l) LT_UI_UI (n / 2 ^ 22)
  if h.loopOf l = 1 ∧ h.rb (LT_CTL l) LT_CTL_GEN then h1.sb (LT_STAT l) LT_STAT_LOCK
  else
    let (u, h2) := h1.fresh
    (h2.addSat (LT_ERR l) LT_ERR_ERRS (min (u.toNat / 2) (tickQuarters h l / 4 + 1))).wf (LT_STAT l) LT_STAT_LOCK (u.toNat % 2)

/-- One CK_A tick of a lane's test engine (R226). -/
def laneTestTick (h : Hw) (l : Nat) : Hw :=
  if !testHeld h l || !h.memServed (l / 32) then h
  else
    let h1 := if h.rb (LT_CTL l) LT_CTL_GEN then h.setLane l { h.lane l with gen := (h.lane l).gen + tickQuarters h l } else h
    if h1.rb (LT_CTL l) LT_CTL_CHK then checkTick h1 l else if h1.rb (LT_STAT l) LT_STAT_LOCK then h1.wf (LT_STAT l) LT_STAT_LOCK 0 else h1

/-- One CK_A tick of every test engine that is held. -/
def testTick (h : Hw) : Hw := (List.range (32 * h.nRegions)).foldl laneTestTick h

/-- A write of a threshold, timer or node register (R218, R222): keeper-world supervisors and the loader; the node identifier the loader alone. -/
def lnrWrite (h : Hw) (a : Nat) (w : Who) (v m : W32) : Hw :=
  let o := a % 0x1000
  if o ≥ 0xC then (if w.agent == .loader then h.wr a v else h)
  else if w.keeperSup then h.wr a (v &&& m) else h

end Sys2Proof.Machine
end

