-- ==== Sys2Proof/Machine/Trace.lean ====
section
/-!
DEFINITION. Trace (R324, R472 to R477): packets, the fronds' trace queues, the debug FIFO and the trace sinks of the regions.
-/
namespace Sys2Proof.Machine

/-- The trace queue of a frond. -/
def Hw.tq (h : Hw) (f : Nat) : TraceQ := kvGet TraceQ.empty h.trace f
def Hw.setTq (h : Hw) (f : Nat) (x : TraceQ) : Hw := { h with trace := kvIns h.trace f x }

/-- Word 1 of a packet: TYPE 1 STIM, 2 LOST, 3 SYNC (R473). -/
def pktWord1 (h : Hw) (typ f k : Nat) : W64 :=
  BitVec.ofNat 64 (typ * 2 ^ 62 + f % 8 * 2 ^ 59 + k % 64 * 2 ^ 53 + h.tb.toNat % 2 ^ 48)

/-- Count dropped packets (R474). -/
def traceLost (h : Hw) (f n : Nat) : Hw :=
  if n = 0 then h
  else (h.setTq f { h.tq f with lost := (h.tq f).lost + n }).addSat (DBG_TCTL f) DBG_TCTL_LOST n

/-- Take the next packet a frond delivers: a LOST packet first when packets were dropped (R474). -/
def traceNext (h : Hw) (f : Nat) : Option (Pkt × Hw) :=
  let x := h.tq f
  match x.pkts with
  | [] => none
  | p :: rest =>
    if x.lost = 0 then some (p, h.setTq f { x with pkts := rest })
    else some (⟨BitVec.ofNat 64 x.lost, pktWord1 h 2 f 0⟩, h.setTq f { x with lost := 0 })

/-- The oldest queued packet of a frond is dropped (R474, R478). -/
def traceDrop (h : Hw) (f : Nat) : Hw := traceLost (h.setTq f { h.tq f with pkts := (h.tq f).pkts.drop 1 }) f 1

/-- A frond's packets go to the debug FIFO. -/
def traceToFifo (h : Hw) (f : Nat) : Bool := h.rb (DBG_TCTL f) DBG_TCTL_DEST

/-- Move packets of one frond to the debug FIFO while it has room (R475). -/
def fifoFrom : Nat → Hw → Nat → Hw
  | 0, h, _ => h
  | n + 1, h, f =>
    if traceToFifo h f && decide (h.dbg.fifo.length < 256) then
      (match traceNext h f with
       | some (p, h1) => fifoFrom n ({ h1 with dbg := { h1.dbg with fifo := h1.dbg.fifo ++ [p] } }) f
       | none => h)
    else h

/-- Move packets to the debug FIFO, fronds in ascending number (R475). -/
def fifoFill (h : Hw) : Hw :=
  let h1 := forEach (List.range (2 * h.nRegions)) h (fifoFrom 17)
  h1.wf DBG_TCNT DBG_TCNT_COUNT h1.dbg.fifo.length

/-- A packet enters the frond's queue, or is dropped when it is full (R474). -/
def traceEmit (h : Hw) (f : Nat) (p : Pkt) : Hw :=
  let x := h.tq f
  if x.pkts.length ≥ 16 then traceLost h f 1 else fifoFill (h.setTq f { x with pkts := x.pkts ++ [p] })

/-- A write to STIM.k (R324, R472). -/
def stimEmit (h : Hw) (f k : Nat) (v : W64) : Hw :=
  let en := if k < 32 then bit (h.rd (DBG_TEN_LO f)).toNat k else bit (h.rd (DBG_TEN_HI f)).toNat (k - 32)
  if h.rb (DBG_TCTL f) DBG_TCTL_EN && en then traceEmit h f ⟨v, pktWord1 h 1 f k⟩ else h

/-- A SYNC packet (R473). -/
def traceSync (h : Hw) (f : Nat) : Hw := traceEmit h f ⟨h.tb, pktWord1 h 3 f 0⟩

/-- TB_WRAP (R473): in the tick in which TB[47:0] wraps to zero every frond with trace enabled emits a SYNC packet, once. -/
def tbWrap (h : Hw) : Hw :=
  if h.dbg.wrap then
    forEach (List.range (2 * h.nRegions)) { h with dbg := { h.dbg with wrap := false } } (fun h f => if h.rb (DBG_TCTL f) DBG_TCTL_EN then traceSync h f else h)
  else h

/-! ### The sink (R476, R477) -/

/-- Physical base of a sink's ring. -/
def tsBase (h : Hw) (r : Nat) : Nat := h.rdPair (TS_BASE_LO r) (TS_BASE_HI r)

/-- The writer stops (R477). -/
def tsStop (h : Hw) (r : Nat) : Hw := (h.wf (TS_CTL r) TS_CTL_EN 0).wf (TS_STAT r) TS_STAT_ACT 0

/-- A failed or refused write (R477). -/
def tsFail (h : Hw) (r : Nat) : Hw := (tsStop h r).sb (TS_STAT r) TS_STAT_ERR

/-- Drop the packets that a region's fronds hold for the sink and count them as lost. -/
def tsDrop (h : Hw) (r : Nat) : Hw :=
  (frondsOf r).foldl (fun h f =>
    if traceToFifo h f then h
    else
      let n := (h.tq f).pkts.length
      traceLost (h.setTq f { h.tq f with pkts := [] }) f n) h

/-- A write of the sink's claim (R476); release clears EN and drops what is not yet written. -/
def tsClaimWrite (h : Hw) (r : Nat) (w : Who) (v : W32) : Hw :=
  let admits := fldGet cFEAT v == 7 && (w.anySup || w.hostPriv) && w.agent != .hw && w.agent != .loader
  let (h1, o) := claimWrite h (TS_CLAIM r) w v admits
  match o with
  | .refused => h1.sb (TS_STAT r) TS_STAT_CLAIM
  | .released => tsDrop (tsStop h1 r) r
  | _ => h1

/-- A write of a base register: the holder's alone. -/
def tsBaseWrite (h : Hw) (r a : Nat) (w : Who) (v : W32) : Hw :=
  if h.holds (TS_CLAIM r) w then h.wr a (if a = TS_BASE_HI r then v &&& 0x001FFFFF else v) else h.sb (TS_STAT r) TS_STAT_CLAIM

/-- TS_ENABLE (R476): a write of TS_CTL. -/
def tsEnable (w : Who) (r : Nat) (v : W32) (h : Hw) : Hw :=
  if !h.hasRegion r then h
  else if !h.holds (TS_CLAIM r) w then h.sb (TS_STAT r) TS_STAT_CLAIM
  else
    let size := fldGet TS_CTL_SIZE v
    if fldGet TS_CTL_EN v = 0 then (h.wr (TS_CTL r) (v &&& 0x4000001F)).wf (TS_STAT r) TS_STAT_ACT 0
    else
      let b := tsBase h r
      if decide (8 ≤ size) && decide (size ≤ 20) && ringOk h r b (2 ^ size * 16) then
        (let h1 := h.wr (TS_CTL r) (v &&& 0xC000001F)
         if h.rb (TS_CTL r) TS_CTL_EN then h1 else (h1.wr (TS_WR r) 0).sb (TS_STAT r) TS_STAT_ACT)
      else h.sb (TS_STAT r) TS_STAT_CFGERR

/-- Write one packet to the ring (R477). -/
def tsWriteOne (h : Hw) (r : Nat) (p : Pkt) (ok : Bool) (meets : List Meet) : Hw :=
  let n := 2 ^ h.rf (TS_CTL r) TS_CTL_SIZE
  let slot := (h.rd (TS_WR r)).toNat % n
  let pa := tsBase h r + 16 * slot
  let bs := leBytes 8 p.w0.toNat ++ leBytes 8 p.w1.toNat
  let done := fun (h : Hw) =>
    let h1 := h.wr (TS_WR r) (h.rd (TS_WR r) + 1)
    if h1.rb (TS_CTL r) TS_CTL_MODE && decide ((h1.rd (TS_WR r)).toNat ≥ n) then (h1.sb (TS_STAT r) TS_STAT_FULL).wf (TS_STAT r) TS_STAT_ACT 0 else h1
  if !ok then tsFail h r
  else match paLocal pa with
    | some off =>
      let (h1, st) := memWrite h (.traceSink r) off bs .good meets
      if st = 0 then done h1 else tsFail h1 r
    | none => done (mRegion h r 5 1 pa 16 bs false false (.trace r))

/-- The frond of a region that delivers to the sink next: the lower number with a packet (R477). -/
def tsFrond (h : Hw) (r : Nat) : Option Nat := (frondsOf r).find? (fun f => !traceToFifo h f && !(h.tq f).pkts.isEmpty)

/-- Drain the region's trace queues to the ring; the meetings are those of the first write. -/
def tsDrain : Nat → Hw → Nat → Bool → List Meet → Hw
  | 0, h, _, _, _ => h
  | n + 1, h, r, ok, meets =>
    if !h.rb (TS_CTL r) TS_CTL_EN then h
    else match tsFrond h r with
      | none => h
      | some f =>
        if ((h.frond f).world == .keeper && h.rf (TS_CLAIM r) cWORLD == 1) || !h.rb (TS_STAT r) TS_STAT_ACT then tsDrain n (traceDrop h f) r ok meets
        else match traceNext h f with
          | none => h
          | some (p, h1) => tsDrain n (tsWriteOne h1 r p ok meets) r ok []

/-- TRACE_SINK_WRITE (R477): the sink writer takes the queued packets; `ok` is the outcome of its writes. It pauses outside RUN, in recovery and in sleep. -/
def traceSinkWrite (r : Nat) (ok : Bool) (meets : List Meet) (h : Hw) : Hw :=
  if h.hasRegion r && h.inService r && h.rgnState r == 0 then tsDrain 40 h r ok meets else h

/-! ### The debug FIFO (R475) -/

/-- DBG_TPKT_POP: the head packet moves into DBG_TPKT0 to DBG_TPKT3, or zero. -/
def tpktPop (h : Hw) : Hw :=
  let (p, rest) := match h.dbg.fifo with
    | p :: rest => (p, rest)
    | [] => (⟨0, 0⟩, [])
  let h1 := ((((h.wr (DBG_TPKT 0) (lo32 p.w0)).wr (DBG_TPKT 1) (hi32 p.w0)).wr (DBG_TPKT 2) (lo32 p.w1)).wr (DBG_TPKT 3) (hi32 p.w1))
  fifoFill { h1 with dbg := { h1.dbg with fifo := rest }, busRd := lo32 p.w0 }

end Sys2Proof.Machine
end

