-- ==== Sys2Proof/Machine/Timers.lean ====
section
/-!
DEFINITION. Timers, timebase and watchdog (R377 to R399).
-/
namespace Sys2Proof.Machine

def Hw.tmr (h : Hw) (c : Nat) : TmrSt := kvGet TmrSt.zero h.tmrs c
def Hw.setTmr (h : Hw) (c : Nat) (x : TmrSt) : Hw := { h with tmrs := kvIns h.tmrs c x }

/-- A channel runs. -/
def Hw.tmrRun (h : Hw) (c : Nat) : Bool := h.rb (TMR_STAT c) TMR_STAT_RUN

/-- The gate condition (R379). -/
def tmrGate (h : Hw) (c : Nat) : Bool :=
  let g := h.rf (TMR_CTL c) TMR_CTL_GSEL
  let want := h.rb (TMR_CTL c) TMR_CTL_GLVL
  if g = 0 then true
  else if 1 ≤ g ∧ g ≤ 8 then bit h.tgate (g - 1) == want
  else if 0x10 ≤ g ∧ g ≤ 0x2F then h.rb (TMR_STAT (g - 0x10)) TMR_STAT_OUT == want
  else if 0x30 ≤ g ∧ g ≤ 0x33 then (h.hasRegion (g - 0x30) && h.pwrState (g - 0x30) == psRun) == want
  else false

/-- Reserved GSEL and CAPSEL values (R379, R388). -/
def gselOk (g : Nat) : Bool := g ≤ 8 || (decide (0x10 ≤ g) && decide (g ≤ 0x33))
def capselOk (c : Nat) : Bool := c ≤ 0x10 || (decide (0x20 ≤ c) && decide (c ≤ 0x40))

/-- A capture of a value of CNT (R388). -/
def tmrCapture (h : Hw) (c : Nat) (cnt : W32) : Hw :=
  let h1 := if h.rb (TMR_STAT c) TMR_STAT_CAPF then h.sb (TMR_STAT c) TMR_STAT_CAPOVR else h
  (h1.wr (TMR_CAP c) cnt).sb (TMR_STAT c) TMR_STAT_CAPF

/-- Whether START is refused (R381). -/
def tmrCfgErr (h : Hw) (c : Nat) : Bool :=
  let m := h.rf (TMR_ACT c) TMR_ACT_MACT
  let o := h.rf (TMR_ACT c) TMR_ACT_OACT
  !gselOk (h.rf (TMR_CTL c) TMR_CTL_GSEL) || !capselOk (h.rf (TMR_CTL c) TMR_CTL_CAPSEL) ||
  (bit m 3 && h.rf (TMR_ACT c) TMR_ACT_MLOP == 3) || (bit o 3 && h.rf (TMR_ACT c) TMR_ACT_OLOP == 3) ||
  ((bit m 1 || bit o 1) && (bit m 2 || bit o 2)) ||
  ((bit m 1 || bit o 1) && h.rf (TMR_CLAIM c) cFEAT != 6)

/-- START and STOP (R381). -/
def tmrStart (h : Hw) (c : Nat) : Hw :=
  if tmrCfgErr h c then h.sb (TMR_STAT c) TMR_STAT_CFGERR
  else ((h.wr (TMR_CNT c) 0).wr (TMR_CMP c) (h.rd (TMR_PRE c))).sb (TMR_STAT c) TMR_STAT_RUN

/-- A stopped channel's output is low, except that toggling holds its level (R382). -/
def tmrStop (h : Hw) (c : Nat) : Hw :=
  let h1 := h.wf (TMR_STAT c) TMR_STAT_RUN 0
  if h1.rf (TMR_CTL c) TMR_CTL_OMODE = 2 then h1 else h1.wf (TMR_STAT c) TMR_STAT_OUT 0

/-- A release of a channel's claim stops it (R390); a window claim takes window mode with it (R397). -/
def tmrRelease (h : Hw) (c : Nat) : Hw :=
  let h1 := (((h.wr (TMR_CTL c) 0).wr (TMR_ACT c) 0).wf (TMR_STAT c) TMR_STAT_RUN 0).wf (TMR_STAT c) TMR_STAT_OUT 0
  if h1.rb WDT_CTL WDT_CTL_WIN && 28 + h1.rf WDT_CTL WDT_CTL_WCH == c then (h1.wf WDT_CTL WDT_CTL_WIN 0).wf WDT_CTL WDT_CTL_WCH 0 else h1

/-- A refused write of a channel's claim (R33, R34, R390): CLAIM is set in the status of the watchdog for its own feature 0x03 on channel 31 and for a window claim that the channel
permits, and of the channel for any other. -/
def tmrRefused (h : Hw) (c : Nat) (w : Who) (v : W32) : Hw :=
  let f := fldGet cFEAT v
  if (f == 4 && decide (28 ≤ c) && decide (c < 31) && w.keeperSup) || (f == 3 && c == 31 && fldGet cREQ v == 1) then h.sb WDT_STAT WDT_STAT_CLAIM
  else h.sb (TMR_STAT c) TMR_STAT_CLAIM

/-- A write of a channel's claim register (R390). -/
def tmrClaimWrite (h : Hw) (c : Nat) (w : Who) (v : W32) : Hw :=
  if c = 31 then
    (if fldGet cREQ v = fldGet cREL v then h else tmrRefused h 31 w v)
  else
    let f := fldGet cFEAT v
    let admits := f == 5 || f == 6 || (f == 4 && decide (28 ≤ c) && w.keeperSup)
    let (h1, o) := claimWrite h (TMR_CLAIM c) w v admits
    match o with
    | .refused => tmrRefused h1 c w v
    | .released => tmrRelease h1 c
    | _ => h1

/-! ### Actions (R383 to R386) -/

/-- TMR_ADR as a physical address. -/
def tmrAdr (h : Hw) (c : Nat) : Nat :=
  (h.rd (TMR_ADR_LO c)).toNat / 8 * 8 + 2 ^ 32 * h.rf (TMR_ADR_HI c) TMR_ADR_HI_PA

/-- The conversion pass (R384). -/
def tmrConv (h : Hw) (c : Nat) : Hw :=
  let ch := h.rf (TMR_ADR_HI c) TMR_ADR_HI_TGT
  let world := if h.rf (TMR_CLAIM c) cWORLD = 1 then World.tenant else World.keeper
  if !h.hasChain ch then h.sb (TMR_STAT c) TMR_STAT_TREF
  else
    let (h1, ok) := chainAccept h ch (.timer c) world (tmrAdr h c) 0
    if ok then h1 else h1.sb (TMR_STAT c) TMR_STAT_TREF

/-- The timestamp mover (R385). -/
def tmrMover (h : Hw) (c : Nat) : Hw :=
  let port := h.rf (TMR_ADR_HI c) TMR_ADR_HI_TGT % 8
  let pa := tmrAdr h c
  if (h.tmr c).mover then h.sb (TMR_STAT c) TMR_STAT_MOVOVF
  else if !h.inService (port / 2) || bit pa 52 then h.sb (TMR_STAT c) TMR_STAT_MERR
  else
    mIssue (h.setTmr c { h.tmr c with mover := true }) port 2 1 (pa % 2 ^ 52) 8 (leBytes 8 h.tb.toNat) false false (.mover c)

/-- One action set of a channel (R383): its link operation is applied in the following tick. -/
def tmrActs (h : Hw) (c acts lop lch : Nat) : Hw :=
  let h1 := if bit acts 0 then irqFire h (416 + c) else h
  let h2 := if bit acts 1 then tmrConv h1 c else h1
  let h3 := if bit acts 2 then tmrMover h2 c else h2
  if bit acts 3 then { h3 with tmrLink := h3.tmrLink ++ [(lop, lch)] } else h3

/-- Captures of the channels that capture on an event (R388), of CNT as the tick finds it in `h0`. -/
def capOn (h0 h : Hw) (sel : Nat) : Hw :=
  forEach (List.range 31) h (fun h c => if h.rf (TMR_CTL c) TMR_CTL_CAPSEL = sel then tmrCapture h c (h0.rd (TMR_CNT c)) else h)

/-- The output level after a counting tick (R382). -/
def tmrOut (h : Hw) (c : Nat) (m wrap : Bool) : Hw :=
  let old := h.rb (TMR_STAT c) TMR_STAT_OUT
  let new := match h.rf (TMR_CTL c) TMR_CTL_OMODE with
    | 1 => m || (old && !wrap)
    | 2 => old != m
    | 3 => m
    | _ => false
  h.wf (TMR_STAT c) TMR_STAT_OUT (b2n new)

/-- One tick of a channel (R378, R380, R383): a match is judged on CNT as it stands; the match's actions precede the wrap's. Gates and captured counts are those that the tick finds in
`h0`. In a tick that does not count, an output that is high for one tick falls (R382). -/
def tmrTickAt (h0 h : Hw) (c : Nat) : Hw :=
  if c < 31 && h.tmrRun c && tmrGate h0 c then
    let cnt := h.rd (TMR_CNT c)
    let m := cnt == h.rd (TMR_CMP c)
    let wrap := cnt == h.rd (TMR_PER c)
    let h1 := if m then
        capOn h0 (tmrActs h c (h.rf (TMR_ACT c) TMR_ACT_MACT) (h.rf (TMR_ACT c) TMR_ACT_MLOP) (h.rf (TMR_ACT c) TMR_ACT_MLCH)) (0x20 + c) else h
    let h2 := if wrap then
        (let g := tmrActs h1 c (h1.rf (TMR_ACT c) TMR_ACT_OACT) (h1.rf (TMR_ACT c) TMR_ACT_OLOP) (h1.rf (TMR_ACT c) TMR_ACT_OLCH)
         (g.wr (TMR_CNT c) 0).wr (TMR_CMP c) (g.rd (TMR_PRE c)))
      else h1.wr (TMR_CNT c) (cnt + 1)
    let h3 := tmrOut h2 c m wrap
    if wrap && h3.rb (TMR_CTL c) TMR_CTL_OS then tmrStop h3 c else h3
  else if c < 31 ∧ h.rf (TMR_CTL c) TMR_CTL_OMODE = 3 ∧ h.rb (TMR_STAT c) TMR_STAT_OUT then h.wf (TMR_STAT c) TMR_STAT_OUT 0
  else h

/-- One tick of a channel by itself. -/
def tmrTick (h : Hw) (c : Nat) : Hw := tmrTickAt h h c

/-- TIMER_MATCH (R380): the counting tick of a channel in which CMP = CNT. -/
def timerMatch (c : Nat) (h : Hw) : Hw := if h.rd (TMR_CMP c) = h.rd (TMR_CNT c) then tmrTick h c else h

/-- TIMER_WRAP (R380): the counting tick of a channel in which CNT = PER. -/
def timerWrap (c : Nat) (h : Hw) : Hw := if h.rd (TMR_CNT c) = h.rd (TMR_PER c) then tmrTick h c else h

/-- TIMER_MOVER_RESPONSE (R385): the response to the channel's mover write. -/
def timerMoverResponse (c : Nat) (err : Bool) (h : Hw) : Hw :=
  if (h.tmr c).mover then
    (let h1 := h.setTmr c { h.tmr c with mover := false }
     if err then h1.sb (TMR_STAT c) TMR_STAT_MERR else h1)
  else h

/-- One link operation (R386). -/
def tmrLinkOp (h : Hw) (op c : Nat) : Hw :=
  if c ≥ 31 then h
  else match op with
    | 0 => tmrStart h c
    | 1 => tmrStop h c
    | 2 => tmrCapture h c (h.rd (TMR_CNT c))
    | _ => h

/-- TIMER_LINK_OPERATION (R386): the operation due first acts, whatever the claim of its target; channel 31 ignores it. -/
def timerLinkOperation (h : Hw) : Hw :=
  match h.tmrLink with
  | [] => h
  | (op, c) :: rest => tmrLinkOp { h with tmrLink := rest } op c

/-- TIMER_CAPTURE (R388): the capture event of channel `c`. For an edge of tgate the new levels behind the synchroniser decide, and every channel that captures on an edge they show
captures; for a match of another channel the event is that channel's counting tick, and a beat boundary is BEAT_BOUNDARY's. -/
def timerCapture (c levels : Nat) (h : Hw) : Hw :=
  let old := h.tgate
  let h1 := (List.range 8).foldl (fun (g : Hw) i =>
    if bit levels i && !bit old i then capOn h g (i + 1) else if !bit levels i && bit old i then capOn h g (i + 9) else g) { h with tgate := levels % 256 }
  let s := h.rf (TMR_CTL c) TMR_CTL_CAPSEL
  if c < 31 ∧ 0x20 ≤ s ∧ s ≤ 0x3F then timerMatch (s - 0x20) h1 else h1

/-- TMR_CAP_READ (R388, R389): the read returns CAP and clears CAPF, unless a capture falls in the same tick. -/
def tmrCapRead (c : Nat) (capture : Bool) (h : Hw) : Hw :=
  if c ≥ 32 then h
  else
    let h1 := { h with busRd := h.rd (TMR_CAP c) }
    if capture then tmrCapture h1 c (h1.rd (TMR_CNT c)) else h1.wf (TMR_STAT c) TMR_STAT_CAPF 0

/-! ### Register writes -/

/-- A write of TMR_CMD (R381): the holder's; both bits together are ignored. -/
def tmrCmdWrite (h : Hw) (c : Nat) (w : Who) (v : W32) : Hw :=
  if c ≥ 32 then h
  else if !h.holds (TMR_CLAIM c) w then h.sb (TMR_STAT c) TMR_STAT_CLAIM
  else
    let start := fldGet TMR_CMD_START v == 1
    let stop := fldGet TMR_CMD_STOP v == 1
    if start && stop then h else if start then tmrStart h c else if stop then tmrStop h c else h

/-- A new TMR_CTL: the output is low under OMODE 0, and under any but 2 while the channel stands (R382). -/
def tmrCtlSet (h : Hw) (c : Nat) (v : W32) : Hw :=
  let h1 := h.wr (TMR_CTL c) v
  let om := fldGet TMR_CTL_OMODE v
  if om = 0 ∨ (om ≠ 2 ∧ h.tmrRun c = false) then h1.wf (TMR_STAT c) TMR_STAT_OUT 0 else h1

/-- Writes of a channel's other registers, by offset (R381, R390). -/
def tmrRegWrite (h : Hw) (c off : Nat) (w : Who) (v : W32) : Hw :=
  if off = 0 then tmrClaimWrite h c w v
  else if off = 8 then tmrCmdWrite h c w v
  else if off = 0xC || off = 0x1C || off = 0x20 then h
  else if !h.holds (TMR_CLAIM c) w then h.sb (TMR_STAT c) TMR_STAT_CLAIM
  else if (off = 0x10 || off = 0x14) && h.tmrRun c then h.sb (TMR_STAT c) TMR_STAT_WREF
  else
    let a := TMR_CLAIM c + off
    if off = 4 then tmrCtlSet h c (v &&& 0xFFFF8000)
    else if off = 0x10 || off = 0x14 || off = 0x18 then h.wr a v
    else if off = 0x24 then h.wr a (v &&& 0xFFFFFC00)
    else if off = 0x28 then h.wr a (v &&& 0xFFFFFFF8)
    else if off = 0x2C then h.wr a (v &&& 0x1F1FFFFF)
    else h

/-- STAGGER_GO (R387): a write of TMR_STG. -/
def staggerGo (w : Who) (v : W32) (h : Hw) : Hw :=
  let h1 := h.wr TMR_STG (v &&& 0x1F1F)
  if fldGet TMR_STG_GO v = 0 then h1
  else
    let f := fldGet TMR_STG_FIRST v
    let n := fldGet TMR_STG_N v
    let p := (h1.rd STG_PER).toNat
    let chs := (List.range n).map (· + f)
    let ok := decide (2 ≤ n) && decide (f + n ≤ 31) && decide (n ≤ p) &&
      chs.all (fun c => h1.holds (TMR_CLAIM c) w && h1.rf (TMR_CLAIM c) cFEAT == h1.rf (TMR_CLAIM f) cFEAT && !h1.tmrRun c &&
        h1.rf (TMR_CTL c) TMR_CTL_GSEL == 0)
    if !ok then h1.sb (TMR_STAT f) TMR_STAT_WREF
    else forEach (List.range n) h1 (fun h m =>
      let c := f + m
      (((h.wr (TMR_PER c) (BitVec.ofNat 32 (p - 1))).wr (TMR_CMP c) (h.rd (TMR_PRE c))).wr (TMR_CNT c) (BitVec.ofNat 32 ((p - m * p / n) % p))).sb
        (TMR_STAT c) TMR_STAT_RUN)

/-! ### Timebase (R391 to R393) -/

/-- The snapshot of an agent (R392). -/
def snapKey (w : Who) : Nat :=
  match w.agent with
  | .frond f => f
  | .host => 16 + w.port
  | _ => 32

/-- TB_LO_READ (R392): a privileged read of TB_LO takes the reading agent's snapshot. -/
def tbLoRead (w : Who) (h : Hw) : Hw := { h with busRd := lo32 h.tb, snaps := kvIns h.snaps (snapKey w) (hi32 h.tb) }

/-! ### Watchdog (R394 to R398) -/

/-- The watchdog is in halt: a keeper frond is in debug halt. -/
def wdtHalt (h : Hw) : Bool := (List.range (2 * h.nRegions)).any (fun f => (h.frond f).run == .debugHalt && (h.frond f).world == .keeper)

/-- A stage begins with a full period. -/
def wdtStage (h : Hw) (stage : Nat) : Hw :=
  { ((h.wf WDT_STAT WDT_STAT_STAGE stage).wr (TMR_CNT 31) 0) with wdtLim := (h.rd (if stage = 1 then WDT_T1 else WDT_T2)).toNat }

/-- Stage one expires (R394). -/
def wdtStage1Act (h : Hw) : Hw := wdtStage (irqFire (h.sb WDT_STAT WDT_STAT_S1) 447) 2
/-- Stage two expires (R394). -/
def wdtStage2Act (h : Hw) : Hw := (h.wf WDT_STAT WDT_STAT_STAGE 3).sb WDT_STAT WDT_STAT_REQ

/-- The count of the present stage is complete (R394). -/
def wdtDue (h : Hw) (stage : Nat) : Bool :=
  h.rb WDT_CTL WDT_CTL_EN && h.rf WDT_STAT WDT_STAT_STAGE == stage && !h.rb WDT_STAT WDT_STAT_HALTL && decide (h.wdtLim ≤ (h.rd (TMR_CNT 31)).toNat)

/-- WATCHDOG_STAGE1_EXPIRE (R394, R398). -/
def watchdogStage1Expire (h : Hw) : Hw :=
  if wdtDue h 1 then
    (if wdtHalt h then (h.sb WDT_STAT WDT_STAT_HALTL).wr (TMR_CNT 31) 0 else wdtStage1Act h)
  else h

/-- WATCHDOG_STAGE2_EXPIRE (R394, R398). -/
def watchdogStage2Expire (h : Hw) : Hw :=
  if wdtDue h 2 then
    (if wdtHalt h then (h.sb WDT_STAT WDT_STAT_HALTL).wr (TMR_CNT 31) 0 else wdtStage2Act h)
  else h

/-- WATCHDOG_HALT_RELEASE (R398). -/
def watchdogHaltRelease (h : Hw) : Hw :=
  if h.rb WDT_STAT WDT_STAT_HALTL && !wdtHalt h then
    (let h1 := h.wf WDT_STAT WDT_STAT_HALTL 0
     if h1.rf WDT_STAT WDT_STAT_STAGE = 1 then wdtStage1Act h1 else wdtStage2Act h1)
  else h

/-- A service (R395); in window mode it also starts the window channel as a one-shot (R397). -/
def wdtService (h : Hw) : Hw :=
  if !h.rb WDT_CTL WDT_CTL_EN then h
  else
    let h1 := (wdtStage h 1).wf WDT_STAT WDT_STAT_HALTL 0
    if h1.rb WDT_CTL WDT_CTL_WIN then
      (let c := 28 + h1.rf WDT_CTL WDT_CTL_WCH
       tmrStart (h1.sb (TMR_CTL c) TMR_CTL_OS) c)
    else h1

/-- WDT_SVC (R395, R397): a write of the service register. -/
def wdtSvc (w : Who) (v : W32) (h : Hw) : Hw :=
  let may := (match w.agent with
    | .frond _ => w.keeperFrond
    | .loader => true
    | .host => w.hostPriv && h.rb WDT_CTL WDT_CTL_HSVC
    | _ => false)
  if v ≠ 0xA55A ∨ may = false then h.sb WDT_STAT WDT_STAT_BADKEY
  else if h.rb WDT_CTL WDT_CTL_EN && h.rb WDT_CTL WDT_CTL_WIN && h.tmrRun (28 + h.rf WDT_CTL WDT_CTL_WCH) then
    wdtStage ((irqFire (h.sb WDT_STAT WDT_STAT_EARLY) 447).wf WDT_STAT WDT_STAT_HALTL 0) 2
  else wdtService h

/-- A channel is held for window mode (R397). -/
def winHeld (h : Hw) (wch : Nat) : Bool := decide (wch < 3) && h.rf (TMR_CLAIM (28 + wch)) cHELD == 1 && h.rf (TMR_CLAIM (28 + wch)) cFEAT == 4

/-- A write of WDT_CTL (R396, R397): EN is sticky; a write of WIN = 1 is refused unless the window channel is held under feature 0x04. -/
def wdtCtlWrite (h : Hw) (w : Who) (v : W32) : Hw :=
  if !w.keeperSup then h
  else if fldGet WDT_CTL_WIN v = 1 ∧ winHeld h (fldGet WDT_CTL_WCH v) = false then h.sb WDT_STAT WDT_STAT_CLAIM
  else
    let wasOn := h.rb WDT_CTL WDT_CTL_EN
    let h1 := if fldGet WDT_CTL_EN v = 1 then h.sb WDT_CTL WDT_CTL_EN else h
    let h2 := ((h1.wf WDT_CTL WDT_CTL_HSVC (fldGet WDT_CTL_HSVC v)).wf WDT_CTL WDT_CTL_WIN (fldGet WDT_CTL_WIN v)).wf WDT_CTL WDT_CTL_WCH (fldGet WDT_CTL_WCH v)
    if !wasOn && h2.rb WDT_CTL WDT_CTL_EN then wdtStage h2 1 else h2

/-- WDT_WIN_WRITE (R397): a write of WDT_CTL. -/
def wdtWinWrite (w : Who) (v : W32) (h : Hw) : Hw := wdtCtlWrite h w v

/-- The watchdog's count of one tick (R394, R398): it stops at its limit, and waits while an expiry is latched. -/
def wdtTick (h : Hw) : Hw :=
  if h.rb WDT_CTL WDT_CTL_EN && !h.rb WDT_STAT WDT_STAT_HALTL && decide ((h.rd (TMR_CNT 31)).toNat < h.wdtLim) then h.wr (TMR_CNT 31) (h.rd (TMR_CNT 31) + 1) else h

/-- The channels in one tick (R377 to R386): the link operations due from the tick before act first, and the tick of a START or STOP does not count for its channel; the others count,
each on the gates and counts that the tick finds. -/
def tmrsTick (h : Hw) : Hw :=
  let due := h.tmrLink
  let h1 := due.foldl (fun h e => tmrLinkOp h e.1 e.2) { h with tmrLink := [] }
  forEach (List.range 31) h1 (fun g c => if due.any (fun e => e.2 == c && decide (e.1 ≤ 1)) then g else tmrTickAt h1 g c)

/-- One CK_A tick (R12, R66, R226, R377, R391): the channels and the watchdog, the march and test engines, the timebase and the beat divider; then the chains and the collective service go
on. -/
def ckaTick (h : Hw) : Hw :=
  let h1 := wdtTick (tmrsTick h)
  let h2 := testTick (h1.regionList.foldl marchTick { h1 with
    tb := h1.tb + 1
    beatDiv := h1.beatDiv % beatTicks + 1
    dbg := { h1.dbg with wrap := (h1.tb.toNat + 1) % 2 ^ 48 == 0 } })
  h2.regionList.foldl (fun h r => svcAdvance (chainsAdvance h r) r) h2

end Sys2Proof.Machine
end

