-- ==== Sys2Proof/Machine/Frond.lean ====
section
/-!
DEFINITION. The fronds (R284 to R354, R365 to R372): fetch, transport of a word, faults, entries and returns, lockup, reset, and the ports.
-/
namespace Sys2Proof.Machine

/-! ### Fetch (R289 to R296) -/

/-- The world of a frond as the W bits spell it. -/
def wIx (w : World) : Nat := if w = .tenant then 1 else 0

/-- The patch index that a fetch of a ROM address matches: the lowest-numbered register with V = 1 (R293). -/
def csMatch (h : Hw) (r a : Nat) : Option Nat :=
  if a < 0x8000 then
    ((List.range 64).find? (fun n => h.rb (CS_MATCH r n) CS_MATCH_V && h.rf (CS_MATCH r n) CS_MATCH_ROM == a)).map
      (fun n => h.rf (CS_MATCH r n) CS_MATCH_PATCH)
  else none

/-- A word of the RAM parts (R289, R291): unloaded words are zero. -/
def csRamWord (h : Hw) (r a : Nat) : CsWord := kvGet 0 h.csRam (r * 65536 + a)

/-- A leaflet that moves a port, or a short immediate below 64, to a port under a guard in bits [35:30]. -/
def leafMove (g src dst : Nat) : Nat := g * 2 ^ 30 + src * 2 ^ 18 + dst * 2 ^ 6
def leafImm (g v dst : Nat) : Nat := g * 2 ^ 30 + (0x800 + v / 64) * 2 ^ 18 + dst * 2 ^ 6 + v % 64

/-- A word of a NAM, REP and leaflets in ascending slots; the slots left over move nothing. -/
def asmWord (nam rep : Nat) (ls : List Nat) : CsWord :=
  BitVec.ofNat 256 (nam * 2 ^ 252 + rep * 2 ^ 220 + ls.foldr (fun l n => l + 2 ^ 36 * n) 0)

/-- The guards p15? and !p15?. -/
def gP15 : Nat := 32 + 15
def gNotP15 : Nat := 32 + 16 + 15

/-- The words of the ROM routines (R313): MUL64 as the specification prints it. DIV64 is the same with the divide step, and MULH has the number of words that its cycle count gives and the
correction that the rule states; their texts are not printed (DESIGN CHOICE, log 8). -/
def romText : List (Nat × CsWord) :=
  [(0x40, asmWord nSEQ 1 [leafMove 0 0x78 0x140, leafImm 0 0 0x141, leafMove 0 0x79 0x142, leafImm 0 64 0x400]),
   (0x41, asmWord nSEQ 0 [leafImm 0 0 0x143]),
   (0x42, asmWord nRET 0 [leafMove 0 0x142 0x7A, leafMove 0 0x141 0x7B]),
   (0x43, asmWord nSEQ 0 []),
   (0x48, asmWord nSEQ 1 [leafMove 0 0x78 0x140, leafImm 0 0 0x141, leafMove 0 0x79 0x142, leafImm 0 64 0x400]),
   (0x49, asmWord nSEQ 0 [leafImm 0 0 0x143]),
   (0x4A, asmWord nSEQ 0 [leafMove 0 0x141 0x7B, leafMove 0 0x78 0x100, leafImm 0 0 0x10D]),
   (0x4B, asmWord nSEQ 0 [leafMove 0 0x111 0x8F, leafMove 0 0x141 0x100, leafMove 0 0x79 0x102]),
   (0x4C, asmWord nSEQ 0 [leafMove gP15 0x111 0x141, leafMove 0 0x79 0x100, leafImm 0 0 0x10D]),
   (0x4D, asmWord nSEQ 0 [leafMove 0 0x111 0x8F, leafMove 0 0x141 0x100, leafMove 0 0x78 0x102]),
   (0x4E, asmWord nRET 0 [leafMove gP15 0x111 0x7A, leafMove gNotP15 0x141 0x7A]),
   (0x4F, asmWord nSEQ 0 []),
   (0x50, asmWord nSEQ 1 [leafMove 0 0x79 0x140, leafImm 0 0 0x141, leafMove 0 0x78 0x142, leafImm 0 64 0x400]),
   (0x51, asmWord nSEQ 0 [leafImm 0 0 0x144]),
   (0x52, asmWord nRET 0 [leafMove 0 0x142 0x7A, leafMove 0 0x141 0x7B]),
   (0x53, asmWord nSEQ 0 [])]

/-- A ROM word. -/
def romAt (a : Nat) : CsWord := match romText.find? (fun e => e.1 == a) with | some e => e.2 | none => Config.romWord a

/-- The word fetched from an address (R289, R291, R293). -/
def wordAt (h : Hw) (r a : Nat) : CsWord :=
  if a < 0x8000 then (match csMatch h r a with | some p => csRamWord h r (0xA000 + p) | none => romAt a)
  else if a < 0xA400 then csRamWord h r a
  else 0

/-- WLD and UONLY of the block of an address (R292); the published ROM entries, and the words of their routines, admit both worlds at either level. -/
def attrOf (h : Hw) (r a : Nat) : Nat × Bool :=
  if a < 0x8000 then
    (if a = 0 ∨ romText.any (fun e => e.1 == a) then (3, false)
     else (((Config.romAttr a).toNat % 4), bit (Config.romAttr a).toNat 2))
  else (h.rf (CS_ATTR r ((a - 0x8000) / 256)) CS_ATTR_WLD, h.rb (CS_ATTR r ((a - 0x8000) / 256)) CS_ATTR_UONLY)

/-- An address that a world at a level may not execute (R292). -/
def attrRefuses (h : Hw) (r a : Nat) (w : World) (sup : Bool) : Bool :=
  decide (0xA400 ≤ a) || (let (wld, uonly) := attrOf h r a; !bit wld (wIx w) || (uonly && sup))

/-- A handler address or vector that locks the frond up (R345). -/
def handlerBad (h : Hw) (f a : Nat) : Bool := attrRefuses h (f / 2) a (h.frond f).world true

/-- A word fetched from ROM or patch RAM may name the V ports (R307). -/
def vendorAddr (a : Nat) : Bool := decide (a < 0x8000) || decide (0xA000 ≤ a)

/-- Fetches count, wrong paths included (R293, R304). -/
def countFetch (h : Hw) (f : Nat) (as : List Nat) : Hw :=
  let m := (as.filter (fun a => (csMatch h (f / 2) a).isSome)).length
  (h.addWrap (FRN_FETCH f) FRN_FETCH_FETCH as.length).addWrap (FRN_PMHIT f) FRN_PMHIT_PMHIT m

/-- The addresses that fetch presents from one on, under the static prediction (R302, R303): `pend` is the address after the delay word at `a`, none of a word that is no delay word. Fetch
stops at a transfer that is not predicted, at a JMPC under PBAR, at a RET with nothing to pop, and after WAIT and HALT. -/
def fetchPath : Nat → Hw → Nat → Bool → List (BitVec 16) → Option (Option Nat) → Nat → List Nat
  | 0, _, _, _, _, _, _ => []
  | n + 1, h, r, pbar, ras, pend, a =>
    let w := wordAt h r a
    let a1 := (a + 1) % 65536
    let a2 := (a + 2) % 65536
    let go := fun (ras : List (BitVec 16)) (p : Option (Option Nat)) (b : Nat) => a :: fetchPath n h r pbar ras p b
    match pend with
    | some (some t) => go ras none t
    | some none => [a]
    | none =>
      let nam := wNAM w
      if nam = nJMP then go ras (some (some (wTARGET w))) a1
      else if nam = nCALL then go ((BitVec.ofNat 16 a2 :: ras).take 16) (some (some (wTARGET w))) a1
      else if nam = nRET then go (ras.drop 1) (some (ras.head?.map BitVec.toNat)) a1
      else if nam = nJMPC then go ras (some (if pbar then none else some (if wTARGET w ≤ a then wTARGET w else a2))) a1
      else if nam = nMWAY ∨ nam = nRETX then go ras (some none) a1
      else if nam = nWAIT ∨ nam = nHALT then [a]
      else go ras none a1

/-- Words fetched ahead and discarded: at most three (R302, R304), with their parity errors (R294). -/
def countAhead (h : Hw) (f : Nat) (path : List Nat) (e : FetchEnv) : Hw :=
  let as := path.take (min 3 e.spec)
  (countFetch h f as).addSat (FRN_CSPERR f) FRN_CSPERR_SPEC (min as.length e.specBad)

/-- The next word of a frond is an iteration that is not fetched again. -/
def Frond.fetched (x : Frond) : Bool := !x.repBusy

/-- The next word is a delay word. -/
def Frond.inDelay (x : Frond) : Bool := x.xfer.isSome || x.retx

/-- The words fetched beyond the next word of a frond (R302), behind the fetch of the word that follows a transfer under way. -/
def aheadOf (h : Hw) (f : Nat) : List Nat :=
  let x := h.frond f
  let pend := if x.retx then some none else x.xfer.map (fun t => some t.next.toNat)
  (fetchPath 5 h (f / 2) x.pbar x.ras pend x.pc.toNat).drop 1

/-! ### Cycles (R308, R315) -/

/-- A result reaches its Y port (R315, R316): its flags are ORed into FPU.FLG, and an enabled flag makes a trap owed. -/
def fpuPut (x : Frond) (o : FpuOp) : Frond :=
  { x with fY := kvIns x.fY o.y o.val, fFlg := x.fFlg ||| o.flg, fpOwed := x.fpOwed || (stFTE x.st && Nat.land o.flg.toNat (fpuTEN x.fCtl) != 0) }

/-- CK_F cycles pass for the FPU (R315): the results whose fourth cycle they reach are written. -/
def fpuPass (x : Frond) (n : Nat) : Frond :=
  if x.fPend.isEmpty then x
  else
    let ps := x.fPend.map (fun o => { o with age := o.age + n })
    (ps.filter (fun o => decide (4 ≤ o.age))).foldl fpuPut { x with fPend := ps.filter (fun o => decide (o.age < 4)) }

/-- CK_F cycles in which the frond transports no word: new values of CMD.RES and XLT.IST come nearer too (R308). -/
def Frond.pass (x : Frond) (n : Nat) : Frond := { fpuPass x n with resWait := x.resWait - n, istWait := x.istWait - n }

/-- Cycles of an entry (R343). -/
def entryCycles : Nat := 7

/-! ### Status (R334 to R336) -/

/-- A status word that takes S, ML, FTE and HOLD from a written value and keeps W (R334). -/
def stTake (x : Frond) (v : W64) : W64 := BitVec.ofNat 64 (wIx x.world * 2 ^ 31 + bits v.toNat 30 24 * 2 ^ 24)

/-- A write of ST that R336 refuses. -/
def stBad (v : W64) : Bool := !stS v && (stML v != 0 || stHOLD v)

/-- A status word of an entry (R342): S = 1, HOLD = 1, FTE = 0. -/
def stEntry (x : Frond) (ml : Nat) : W64 := BitVec.ofNat 64 (wIx x.world * 2 ^ 31 + 2 ^ 30 + ml % 16 * 2 ^ 26 + 2 ^ 24)

/-- SST at an entry (R342, R351, R354): the status with DS, BTK, MW, RPI, RNI, ENT and CAUSE. -/
def sstEntry (x : Frond) (ent cause : Nat) : W64 :=
  let t := match x.xfer with
    | some t => 2 ^ 23 + b2n t.taken * 2 ^ 22 + (if t.nam = nMWAY then t.mw.toNat else 0) * 2 ^ 18
    | none => 0
  let q := match x.rep with | some ni => 2 ^ 17 + b2n ni * 2 ^ 16 | none => 0
  BitVec.ofNat 64 (x.st.toNat / 2 ^ 24 % 256 * 2 ^ 24 + t + q + ent * 2 ^ 14 + cause * 2 ^ 8)

/-- The XBASE of the assigned world (R339). -/
def Frond.xbase (x : Frond) : Nat := if x.world = .tenant then x.xbaseT.toNat else x.xbaseK.toNat

/-- A word of a frond's scratch. -/
def scratchWord (h : Hw) (f off : Nat) : Nat := leNat (memGets h.scratch (f * 65536 + off % 65536) 4)

/-- A fault table entry, and a gate table entry (R339). -/
def faultEntry (h : Hw) (f ix : Nat) : Nat := scratchWord h f ((h.frond f).xbase + 4 * ix)
def gateEntry (h : Hw) (f g : Nat) : Nat := scratchWord h f ((h.frond f).xbase + 0x100 + 4 * g)

/-! ### Faults (R337 to R347) -/

def ftCSPAR : Nat := 1
def ftCSATTR : Nat := 2
def ftRETST : Nat := 3
def ftWORD : Nat := 4
def ftDELAY : Nat := 5
def ftREP : Nat := 6
def ftRET : Nat := 7
def ftPORT : Nat := 8
def ftPRIV : Nat := 9
def ftGATE : Nat := 10
def ftALIGN : Nat := 11
def ftLSU : Nat := 12
def ftEOI : Nat := 13
def ftFP : Nat := 14

/-- Priorities of the faults (R337). -/
def faultPrio (i : Nat) : Nat :=
  if i = 0 then 15 else if i = 1 then 14 else if i ≤ 3 then 13 else if i ≤ 10 then 12 else if i ≤ 12 then 11 else if i = 13 then 10 else 8

/-- The fault taken of several (R338): the higher priority, then the lower index. -/
def worstFault : List Nat → Option Nat
  | [] => none
  | i :: is => match worstFault is with
    | none => some i
    | some j => if faultPrio i > faultPrio j ∨ (faultPrio i = faultPrio j ∧ i ≤ j) then some i else some j

/-- Lockup (R347): the frond stops, the cause is recorded, kn_lock and SYS_LOCK follow, and its LSU lock is released. -/
def frondLockup (h : Hw) (f why idx pc : Nat) : Hw :=
  let x := h.frond f
  let h1 := h.setFrond f { x with
    run := .lockup, lockLine := none, lockWait := none, presented := none, xfer := none, retx := false, rep := none, repBusy := false,
    stNext := none, fpbar := false, stepReq := false }
  let h2 := h1.wr (FRN_LOCK f) (BitVec.ofNat 32 (2 ^ 31 + why * 2 ^ 28 + idx * 2 ^ 22 + pc))
  let h3 := (h2.wr (FRN_LOCKST f) (lo32 x.st)).wf SYS_LOCK ⟨f, 1⟩ 1
  if x.stepReq then h3.sb (DBG_FSTAT f) DBG_FSTAT_SDONE else h3

/-- A frond enters debug halt at a boundary (R464, R465). -/
def debugHaltNow (h : Hw) (f : Nat) : Hw :=
  let x := h.frond f
  let h1 := h.setFrond f { x with run := .debugHalt, dfpc := x.pc, dfrpi := x.rep.isSome, haltReq := false, stepReq := false, presented := none }
  if x.stepReq then h1.sb (DBG_FSTAT f) DBG_FSTAT_SDONE else h1

/-- The end of a step, when one was asked for (R467): not between a transfer and its delay word, inside an uninterruptible repeat or a locked sequence. -/
def stepEnd (h : Hw) (f : Nat) : Hw :=
  let x := h.frond f
  if !x.stepReq then h
  else if x.run = .halt then (h.setFrond f { x with stepReq := false }).sb (DBG_FSTAT f) DBG_FSTAT_SDONE
  else if x.inDelay || (x.rep == some true && x.repBusy) || x.lockLine.isSome || x.lockWait.isSome then h
  else if x.run = .run ∨ x.run = .wait then debugHaltNow h f
  else h

/-- A fault is raised on the next word of a frond (R341, R342, R345, R346, R353). -/
def faultEnter (h0 : Hw) (f idx : Nat) : Hw :=
  let y := h0.frond f
  let x : Frond := { y with st := (match y.stNext with | some v => stTake y v | none => y.st), stNext := none }
  let h := h0.setFrond f x
  let pc := x.pc.toNat
  if x.retx then frondLockup h f 3 idx pc
  else if stML x.st = 15 then frondLockup h f 1 idx pc
  else
    let esc : Bool := decide (faultPrio idx ≤ stML x.st)
    let ent := faultEntry h f (if esc then 0 else idx)
    let h1 := h.setFrond f { x with
      sra := x.pc, sst := sstEntry x 1 idx, st := stEntry x (if esc then 15 else faultPrio idx), xfer := none, rep := none, repBusy := false,
      fpbar := false, run := .run, presented := none }
    if !bit ent 31 || handlerBad h f (ent % 65536) then frondLockup h1 f 2 idx pc
    else
      let h2 := (h1.addSat (FRN_FCNT f) FRN_FCNT_FAULTS 1).addSat (FRN_FCNT f) FRN_FCNT_ESC (b2n esc)
      let h3 := h2.wr (FRN_LASTF f) (BitVec.ofNat 32 (idx * 2 ^ 26 + 2 ^ 24 + pc))
      let h4 := h3.setFrond f ({ h3.frond f with pc := BitVec.ofNat 16 ent }.pass entryCycles)
      if x.stepReq then debugHaltNow h4 f else h4

/-- The fault is taken, and what made it owed is spent: the capture of CS_PARITY (R294), the trap of R316, the error of R319. -/
def faultTake (h : Hw) (f idx : Nat) : Hw :=
  let x := h.frond f
  let h1 := if idx = ftCSPAR && !h.rb (FRN_CSERR f) FRN_CSERR_VALID then h.wr (FRN_CSERR f) (BitVec.ofNat 32 (2 ^ 31 + x.pc.toNat)) else h
  let h2 := if idx = ftFP then h1.setFrond f { h1.frond f with fpOwed := false }
    else if idx = ftLSU then h1.setFrond f { h1.frond f with loadErr := false, storeErr := false }
    else h1
  faultEnter h2 f idx

/-! ### Ports: reading (R308) -/

/-- XLT.IST.BUSY and XLT.PR.DONE. -/
def Frond.istBusy (x : Frond) : Bool := bit x.istSeen.toNat 0
/-- LSU.LKST.HELD as a word reads it (R320): the word after an UNLOCK reads it as the UNLOCK found it, so that HELD = 1 there says that the lock lasted. -/
def Frond.held (x : Frond) : Bool := x.lockLine.isSome || x.heldWas
def Frond.prDone (x : Frond) : Bool := bit x.xPR.toNat 63

/-- The mailbox toward a world, of a region (R323). -/
def mbxTo (h : Hw) (r : Nat) (w : World) : List W64 := if w = .keeper then kvGet [] h.mbxK r else kvGet [] h.mbxT r
def setMbxTo (h : Hw) (r : Nat) (w : World) (q : List W64) : Hw :=
  if w = .keeper then { h with mbxK := kvIns h.mbxK r q } else { h with mbxT := kvIns h.mbxT r q }
/-- The other world. -/
def otherWorld (w : World) : World := if w = .keeper then .tenant else .keeper

/-- The value a port reads. SYS.CYC counts cycles, which this model does not: its value is free, and so is the format of CMD.MGQ (R321). -/
def portRead (h : Hw) (f p : Nat) : W64 :=
  let x := h.frond f
  let r := f / 2
  if 0x040 ≤ p ∧ p ≤ 0x07F then kvGet 0 x.g (p - 0x40)
  else if 0x080 ≤ p ∧ p ≤ 0x08F then (if bit x.p.toNat (p - 0x80) then 1 else 0)
  else if p = 0x090 then x.p.setWidth 64
  else if p = 0x111 then x.aluR
  else if p = 0x112 then x.aluF.setWidth 64
  else if p = 0x141 then x.msACC
  else if p = 0x142 then x.msQ
  else if p = 0x182 then x.fCtl
  else if p = 0x183 then x.fFlg.setWidth 64
  else if p = 0x184 then BitVec.ofNat 64 x.fYN
  else if 0x188 ≤ p ∧ p ≤ 0x18B then kvGet 0 x.fY (p - 0x188)
  else if p = 0x205 then x.lsuD
  else if p = 0x208 then BitVec.ofNat 64 (b2n x.lockBrk * 2 + b2n x.held)
  else if p = 0x209 then x.lsuErr
  else if p = 0x288 then x.resSeen
  else if p = 0x290 then (match (kvGet [] h.svcQ r).head? with | some (_, _, pa) => BitVec.ofNat 64 (2 ^ 63 + pa % 2 ^ 53) | none => 0)
  else if p = 0x297 then Config.freeValue (h.free + 1)
  else if p = 0x2C2 then x.istSeen
  else if p = 0x2C5 then x.xPR
  else if p = 0x300 then (lo32 h.tb).setWidth 64
  else if p = 0x301 then (kvGet 0 h.snaps f).setWidth 64
  else if p = 0x302 then (hi32 h.tb).setWidth 64
  else if p = 0x321 then (match x.pstack with | (s, q) :: _ => BitVec.ofNat 64 (2 ^ 31 + q * 2 ^ 12 + s) | [] => 0)
  else if p = 0x322 then (match x.pstack with | (_, q) :: _ => BitVec.ofNat 64 q | [] => 0)
  else if p = 0x380 then x.st
  else if p = 0x381 then x.sra.setWidth 64
  else if p = 0x382 then x.sst
  else if p = 0x383 then BitVec.ofNat 64 x.xbase
  else if p = 0x385 then (if x.pbar then 1 else 0)
  else if p = 0x388 then x.wev.setWidth 64
  else if p = 0x389 then BitVec.ofNat 64 (wIx x.world * 8 + f % 8)
  else if p = 0x38A then Config.freeValue h.free
  else if p = 0x38B then (h.rd (FRN_FETCH f)).setWidth 64
  else if p = 0x38C then (h.rd (FRN_PMHIT f)).setWidth 64
  else if p = 0x38D then BitVec.ofNat 64 (h.rf (FRN_CSPERR f) FRN_CSPERR_SPEC)
  else if p = 0x38E then BitVec.ofNat 64 (h.rf (FRN_CLASH f) FRN_CLASH_CLASH)
  else if p = 0x38F then (match x.ras with | a :: _ => BitVec.ofNat 64 (2 ^ 16 + a.toNat) | [] => 0)
  else if p = 0x391 then (mbxTo h r x.world).headD 0 ||| (if (mbxTo h r x.world).isEmpty then 0 else BitVec.ofNat 64 (2 ^ 63))
  else if p = 0x392 then
    BitVec.ofNat 64 (b2n x.mbxOvf * 256 + (mbxTo h r (otherWorld x.world)).length * 16 + (mbxTo h r x.world).length)
  else if p = 0x400 then BitVec.ofNat 64 x.rptC
  else 0

/-- The side effect of reading a port (R307, R323). -/
def portReadEffect (h : Hw) (f p : Nat) : Hw :=
  let x := h.frond f
  let r := f / 2
  if p = 0x183 then h.setFrond f { x with fFlg := 0 }
  else if p = 0x209 then h.setFrond f { x with lsuErr := 0 }
  else if p = 0x290 then
    { h with svcQ := kvIns h.svcQ r ((kvGet [] h.svcQ r).drop 1), svcTaken := kvIns h.svcTaken r (kvGet [] h.svcTaken r ++ (kvGet [] h.svcQ r).take 1) }
  else if p = 0x297 then
    forEach ((List.range 32).map (fun i => 32 * r + i)) { h with mgmtQ := kvIns h.mgmtQ r ((kvGet [] h.mgmtQ r).drop 1), free := h.free + 2 } (mgmtFill 17)
  else if p = 0x300 then { h with snaps := kvIns h.snaps f (hi32 h.tb) }
  else if p = 0x38A then { h with free := h.free + 2 }
  else if p = 0x391 then setMbxTo h r x.world ((mbxTo h r x.world).drop 1)
  else if p = 0x392 then h.setFrond f { x with mbxOvf := false }
  else h

/-! ### Ports: writing -/

/-- Write a port that is no trigger (R308). -/
def portWrite (h : Hw) (f p : Nat) (v : W64) : Hw :=
  let x := h.frond f
  let r := f / 2
  if 0x040 ≤ p ∧ p ≤ 0x07F then h.setFrond f { x with g := kvIns x.g (p - 0x40) v }
  else if 0x080 ≤ p ∧ p ≤ 0x08F then
    (let b : BitVec 16 := BitVec.ofNat 16 (2 ^ (p - 0x80))
     h.setFrond f { x with p := if bit v.toNat 0 then x.p ||| b else x.p &&& ~~~b })
  else if p = 0x090 then h.setFrond f { x with p := v.setWidth 16 }
  else if p = 0x100 then h.setFrond f { x with aluO := v }
  else if p = 0x140 then h.setFrond f { x with msM := v }
  else if p = 0x141 then h.setFrond f { x with msACC := v }
  else if p = 0x142 then h.setFrond f { x with msQ := v }
  else if p = 0x180 then h.setFrond f { x with fA := v }
  else if p = 0x181 then h.setFrond f { x with fB := v }
  else if p = 0x182 then h.setFrond f { x with fCtl := BitVec.ofNat 64 (v.toNat % 1024) }
  else if p = 0x200 then h.setFrond f { x with lsuSD := v }
  else if p = 0x291 then h.setFrond f { x with postV := v }
  else if p = 0x293 then h.setFrond f { x with tokV := v }
  else if p = 0x295 then h.setFrond f { x with actX := v }
  else if p = 0x2C0 then h.setFrond f { x with xIVA := v }
  else if p = 0x2C3 then h.setFrond f { x with xPVA := v }
  else if p = 0x380 then h.setFrond f { x with stNext := some v }
  else if p = 0x381 then h.setFrond f { x with sra := v.setWidth 16 }
  else if p = 0x382 then h.setFrond f { x with sst := v }
  else if p = 0x383 then
    (let b : BitVec 16 := BitVec.ofNat 16 (bits v.toNat 15 9 * 512)
     h.setFrond f (if x.world = .tenant then { x with xbaseT := b } else { x with xbaseK := b }))
  else if p = 0x385 then h.setFrond f { x with pbar := bit v.toNat 0 }
  else if p = 0x388 then h.setFrond f { x with wev := v.setWidth 6 }
  else if p = 0x390 then
    (let q := mbxTo h r (otherWorld x.world)
     if q.length < 8 then setMbxTo h r (otherWorld x.world) (q ++ [v]) else h.setFrond f { x with mbxOvf := true })
  else if 0x3C0 ≤ p ∧ p ≤ 0x3FF then stimEmit h f (p - 0x3C0) v
  else if p = 0x400 then h.setFrond f { x with rptC := v.toNat % 2 ^ 17 }
  else h

/-! ### Triggers (R311 to R323) -/

/-- An FPU trigger (R314, R315): the result is computed at once and written by FPU_RESULT_WRITE, or before the fourth word after it. -/
def fpuFire (h : Hw) (f k : Nat) (v : W64) : Hw :=
  let x := h.frond f
  let (val, fl) := fpuCompute k x.fCtl x.fA x.fB v
  h.setFrond f { x with fPend := x.fPend ++ [⟨x.fYN, val, BitVec.ofNat 5 fl, 0⟩], fYN := (x.fYN + 1) % 4 }

/-- The kind of target a physical address has for the LSU: 0 mat or cushion, 1 own scratch, 2 registers, 3 licensee memory, 4 none (R511, R317). -/
def lsuTarget (h : Hw) (pa : Nat) : Nat :=
  match paLocal pa with
  | none => 3
  | some off =>
    if h.inMem off then 0
    else if 0x30000000 ≤ off ∧ off < 0x30010000 then 1
    else if 0x20000000 ≤ off ∧ off < 0x30000000 then 2
    else 4

/-- A licensee access of the LSU has left. -/
def lsuIssued (h : Hw) (u : MUse) : Bool := h.mreqs.any (fun q => q.use == u)

/-- The host-port class of the LSU (R241). -/
def lsuClass : Nat := 3

/-- Send the oldest access to licensee memory that has not yet been served (R318: program order at each target). -/
def lsuPump (h : Hw) (f : Nat) : Hw :=
  let x := h.frond f
  let st := x.stores.find? (fun s => s.served.isNone && lsuTarget h s.pa == 3)
  let ld := match x.load with | some l => if l.served.isNone && lsuTarget h l.pa == 3 then some l else none | none => none
  let goLoad := match ld, st with | some l, some s => decide (l.seq < s.seq) | some _, none => true | none, _ => false
  if goLoad then
    (match ld with
     | some l => if lsuIssued h (.load f l.seq) then h else mRegion h (f / 2) lsuClass 0 l.pa l.size [] false false (.load f l.seq)
     | none => h)
  else
    (match st with
     | some s =>
       if lsuIssued h (.store f s.seq) then h
       else mRegion h (f / 2) lsuClass 1 s.pa s.size ((leBytes 8 s.data.toNat).take s.size) false false (.store f s.seq)
     | none => h)

/-- A load trigger (R317, R318). -/
def lsuLoad (h : Hw) (f size : Nat) (v : W64) : Hw :=
  let x := h.frond f
  lsuPump (h.setFrond f { x with load := some ⟨v.toNat % 2 ^ 53, size, x.world, stS x.st, x.lsuSeq, none⟩, lsuSeq := x.lsuSeq + 1 }) f

/-- A store trigger (R317, R318). -/
def lsuStore (h : Hw) (f size : Nat) (v : W64) : Hw :=
  let x := h.frond f
  lsuPump (h.setFrond f { x with stores := x.stores ++ [⟨v.toNat % 2 ^ 53, size, x.lsuSD, x.world, stS x.st, x.lsuSeq, none⟩], lsuSeq := x.lsuSeq + 1 }) f

/-- LSU.ERR of a cause and an address (R319). -/
def lsuErrWord (cause pa : Nat) : W64 := BitVec.ofNat 64 (cause * 2 ^ 61 + pa % 2 ^ 53)

/-- LSU.LOCK (R320): a target outside the own region's mat and cushion, or a lock already held, fails with cause 6. -/
def lsuLockOp (h : Hw) (f : Nat) (v : W64) : Hw :=
  let x := h.frond f
  let pa := v.toNat % 2 ^ 53
  match paLocal pa with
  | some off =>
    if h.inMem off && memRegion off == f / 2 && x.lockLine.isNone && x.lockWait.isNone then h.setFrond f { x with lockWait := some (off / 64) }
    else h.setFrond f { x with lsuErr := lsuErrWord 6 pa }
  | none => h.setFrond f { x with lsuErr := lsuErrWord 6 pa }

/-- LSU.UNLOCK (R320). -/
def lsuUnlockOp (h : Hw) (f : Nat) : Hw := h.setFrond f { h.frond f with lockLine := none, heldWas := (h.frond f).lockLine.isSome }

/-- IRQ.EOI of the top source (R369, R370). -/
def eoiOp (h : Hw) (f : Nat) : Hw :=
  match (h.frond f).pstack with
  | (s, _) :: rest => irqComplete (h.setFrond f { h.frond f with pstack := rest }) s
  | [] => h

/-- Fire a trigger port; SYS.GATE and SYS.PFL act as the word retires. -/
def portFire (h : Hw) (f p : Nat) (v : W64) : Hw :=
  let x := h.frond f
  if 0x101 ≤ p ∧ p ≤ 0x110 then
    (let (r, fl) := aluCompute (p - 0x101) x.aluO v
     h.setFrond f { x with aluR := r, aluF := fl })
  else if p = 0x143 then (let (a, q) := mulStep x.msM x.msACC x.msQ; h.setFrond f { x with msACC := a, msQ := q })
  else if p = 0x144 then (let (a, q) := divStep x.msM x.msACC x.msQ; h.setFrond f { x with msACC := a, msQ := q })
  else if 0x190 ≤ p ∧ p ≤ 0x198 then fpuFire h f (p - 0x190) v
  else if p = 0x201 then lsuLoad h f 8 v
  else if p = 0x202 then lsuLoad h f 4 v
  else if p = 0x203 then lsuStore h f 8 v
  else if p = 0x204 then lsuStore h f 4 v
  else if p = 0x206 then lsuLockOp h f v
  else if p = 0x207 then lsuUnlockOp h f
  else if 0x280 ≤ p ∧ p ≤ 0x287 then chainTrigger f (p - 0x280) v h
  else if p = 0x2C1 then xltInvOp h f v
  else if p = 0x2C4 then xltPrbOp h f v
  else if p = 0x320 then eoiOp h f
  else if p = 0x387 then h.setFrond f { x with fpbar := true }
  else h

/-! ### Judging a word (R286 to R288, R292, R299, R303, R305, R307, R325) -/

/-- The moves of a word that execute (R286, R296). -/
def liveMoves (x : Frond) (w : CsWord) : List Move :=
  ((wMoves w).getD []).filter (fun m => match m.guard with | none => true | some (g, n) => bit x.p.toNat g != n)

/-- The value a move carries, on the state left by every earlier word. -/
def moveValue (h : Hw) (f : Nat) (m : Move) : W64 := match m.src with | .imm v => v | .port p => portRead h f p

/-- A level admits a frond's world and status (R307). -/
def levelOk (l : PLevel) (w : World) (sup vend : Bool) : Bool :=
  match l with
  | .u => true
  | .s => sup
  | .v => sup && w == .keeper && vend

/-- ILLEGAL_PORT of one move, before its level is judged. -/
def movePortBad (m : Move) : Bool :=
  (match m.src with | .imm _ => false | .port p => (match portOf p with | some (k, _, _) => !k.readable | none => true)) ||
  (match portOf m.dst with | some (k, _, _) => !k.writable | none => true)

/-- PRIV of one move. -/
def movePriv (m : Move) (w : World) (sup vend : Bool) : Bool :=
  (match m.src with | .imm _ => false | .port p => (match portOf p with | some (_, l, _) => !levelOk l w sup vend | none => false)) ||
  (match portOf m.dst with | some (_, _, l) => !levelOk l w sup vend | none => false)

/-- A misaligned LSU trigger (R317). -/
def lsuMisaligned (p : Nat) (v : W64) : Bool :=
  ((p == 0x201 || p == 0x203) && v.toNat % 8 != 0) || ((p == 0x202 || p == 0x204) && v.toNat % 4 != 0)

/-- A gate that raises GATE_INV for the frond's level (R344). -/
def gateBad (h : Hw) (f : Nat) (v : W64) : Bool :=
  let e := gateEntry h f (v.toNat % 64)
  !bit e 31 || (!bit e 30 && !stS (h.frond f).st)

/-- The part of the store an address lies in (R289): ROM, customer-open RAM, patch RAM, reserved. -/
def csPart (a : Nat) : Nat := if a < 0x8000 then 0 else if a < 0xA000 then 1 else if a < 0xA400 then 2 else 3

/-- A RETX that R349 refuses. -/
def retxBad (h : Hw) (f : Nat) : Bool :=
  let x := h.frond f
  let n := x.sst.toNat
  let a := x.sra.toNat
  let uonly := decide (a < 0xA400) && (attrOf h (f / 2) a).2
  bit n 31 != (x.world == .tenant) ||
  (bit n 30 && uonly) ||
  (!bit n 30 && (bits n 29 26 != 0 || bit n 24)) ||
  (bit n 23 && bit n 17) ||
  (bit n 17 && (x.rptC == 0 || decide (65536 < x.rptC) || (bit n 16 && decide (256 < x.rptC)))) ||
  decide (0xA400 ≤ a) || (bit n 23 && csPart ((a + 65535) % 65536) != csPart a) ||
  n / 2 ^ 32 != 0 || n % 256 != 0

/-- RPT.C as it stands after a word's own transport (R305). -/
def rptAfter (h : Hw) (f : Nat) (ms : List Move) : Nat :=
  match ms.reverse.find? (fun m => m.dst == 0x400) with
  | some m => (moveValue h f m).toNat % 2 ^ 17
  | none => (h.frond f).rptC

/-- The word a frond transports next. -/
def nextWord (h : Hw) (f : Nat) : CsWord := wordAt h (f / 2) (h.frond f).pc.toNat

/-- The next word is a delay word that its transfer annuls (R299). -/
def Frond.annulled (x : Frond) : Bool := match x.xfer with | some t => t.annul | none => false

/-- The faults that do not depend on data under way. -/
def staticFaults (h : Hw) (f : Nat) (e : FetchEnv) : List Nat :=
  let x := h.frond f
  let a := x.pc.toNat
  let w := nextWord h f
  let ms := if wordIllegal w then [] else liveMoves x w
  let sup := stS x.st
  let vend := vendorAddr a
  let repd := x.rep.isSome
  let nx := wordAt h (f / 2) ((a + 1) % 65536)
  let c := rptAfter h f (keepMoves ms)
  let on := fun (b : Bool) (i : Nat) => if b then [i] else []
  on (x.fetched && fetchBad w e.bad1 && fetchBad w e.bad2) ftCSPAR ++
  on (attrRefuses h (f / 2) a x.world sup) ftCSATTR ++
  on (wordIllegal w) ftWORD ++
  on (x.inDelay && (wNAM w != nSEQ || wREP w)) ftDELAY ++
  on ((repd && (wNAM w != nSEQ || wREP w)) ||
      (!repd && wREP w && (wNAM w != nSEQ || wNAM nx != nSEQ || wREP nx || c == 0 || decide (65536 < c) || (wNOINT w && decide (256 < c))))) ftREP ++
  on (wNAM w == nRET && x.ras.isEmpty) ftRET ++
  on (ms.any (fun m => movePortBad m || (repd && m.dst == 0x380))) ftPORT ++
  on (ms.any (fun m => movePriv m x.world sup vend) || ((wNAM w == nHALT || wNAM w == nRETX) && !sup)) ftPRIV

/-- The faults that depend on the values moved and on the units (R303, R319, R336, R344, R349, R369). -/
def dataFaults (h : Hw) (f : Nat) : List Nat :=
  let x := h.frond f
  let w := nextWord h f
  let ms := if wordIllegal w then [] else liveMoves x w
  let ks := keepMoves ms
  let on := fun (b : Bool) (i : Nat) => if b then [i] else []
  on (ks.any (fun m => m.dst == 0x380 && stBad (moveValue h f m)) || (wNAM w == nRETX && retxBad h f)) ftRETST ++
  on (ks.any (fun m => m.dst == 0x384 && (gateBad h f (moveValue h f m) || isTransfer w || x.inDelay || wREP w || x.rep.isSome))) ftGATE ++
  on (ks.any (fun m => lsuMisaligned m.dst (moveValue h f m))) ftALIGN ++
  on (x.loadErr && ms.any (fun m => m.src == .port 0x205 || ((0x201 ≤ m.dst && m.dst ≤ 0x204) || m.dst == 0x206 || m.dst == 0x207))) ftLSU ++
  on (ks.any (fun m => m.dst == 0x320 &&
    (match x.pstack with | (s, _) :: _ => (moveValue h f m).toNat % 512 != s | [] => true))) ftEOI

/-- The next word waits in T for the LSU (R318). -/
def lsuStalls (h : Hw) (f : Nat) : Bool :=
  let x := h.frond f
  let w := nextWord h f
  let ms := if wordIllegal w || x.annulled then [] else liveMoves x w
  (x.load.isSome && ms.any (fun m => m.src == .port 0x205 || m.dst == 0x201 || m.dst == 0x202)) ||
  (decide (4 ≤ x.stores.length) && ms.any (fun m => m.dst == 0x203 || m.dst == 0x204))

/-- The condition of SYS.FPBAR (R316). -/
def fpbarMet (h : Hw) (f : Nat) : Bool := (h.frond f).fPend.isEmpty && !srcBusy h (execNew (2 ^ 60) (.frond f) (h.frond f).world 0 0 0)

/-- The next word is held in T by SYS.FPBAR or by a line lock not yet acquired (R316, R320). -/
def heldInT (h : Hw) (f : Nat) : Bool := ((h.frond f).fpbar && !fpbarMet h f) || (h.frond f).lockWait.isSome

/-- The fault due at the boundary before the next word: an owed FP_TRAP first (R338), then the errors owed and the word's own. -/
def dueFault (h : Hw) (f : Nat) (e : FetchEnv) : Option Nat :=
  let x := h.frond f
  if x.fpOwed then some ftFP
  else
    let se := if x.storeErr then [ftLSU] else []
    if x.run != .run then worstFault se
    else if x.annulled then worstFault se
    else worstFault (se ++ staticFaults h f e ++ (if lsuStalls h f then [] else dataFaults h f))

/-! ### Retiring a word -/

/-- A frond that can transport words: its region is powered and outside recovery, its clocks run. -/
def frondLive (h : Hw) (f : Nat) : Bool :=
  h.hasFrond f && h.clocked && h.memServed (f / 2) && h.rgnState (f / 2) == 0

/-- The conditions of R300. -/
def condTrue (h : Hw) (f c : Nat) : Bool :=
  let x := h.frond f
  let z := fun (i : Nat) => bit x.aluF.toNat i
  if c < 0x10 then bit x.p.toNat c
  else if c < 0x20 then !bit x.p.toNat (c - 0x10)
  else match c with
    | 0x20 => z 3 | 0x21 => !z 3
    | 0x22 => z 1 | 0x23 => !z 1
    | 0x24 => z 2 | 0x25 => !z 2
    | 0x26 => z 0 | 0x27 => !z 0
    | 0x28 => x.load.isNone
    | 0x29 => x.held
    | 0x2A => x.resSeen == 0
    | 0x2B => !x.istBusy
    | 0x2C => x.prDone
    | 0x2D => x.fPend.isEmpty
    | 0x2E => !(mbxTo h (f / 2) x.world).isEmpty
    | 0x3F => true
    | _ => false

/-- The vector of MWAY (R301). -/
def mwVector (h : Hw) (f s : Nat) : Nat :=
  let x := h.frond f
  if s < 4 then bits x.p.toNat (4 * s + 3) (4 * s)
  else if s = 4 then bits x.aluR.toNat 3 0
  else if s = 5 then bits x.aluR.toNat 7 4
  else if s = 6 then x.aluF.toNat
  else if s = 7 then x.lsuD.toNat % 16
  else if s = 8 then x.resSeen.toNat % 16
  else if s = 9 then bits x.xPR.toNat 62 60
  else (kvGet 0 x.g (48 + (s - 0x10))).toNat % 16

/-- The transfer a word makes, judged on the state left by every earlier word (R285, R296, R299). -/
def xferOf (h : Hw) (f : Nat) (w : CsWord) : Xfer :=
  let a := (h.frond f).pc
  let nam := wNAM w
  let t : BitVec 16 := BitVec.ofNat 16 (wTARGET w)
  if nam = nJMPC then
    (let c := condTrue h f (wCOND w)
     ⟨nam, if c then t else a + 2, none, false, c, 0, wANNUL w && !c⟩)
  else if nam = nMWAY then
    (let m := mwVector h f (wMWSRC w) % 2 ^ (wMWN w + 1)
     ⟨nam, t ||| BitVec.ofNat 16 m, none, false, true, BitVec.ofNat 4 m, false⟩)
  else if nam = nCALL then ⟨nam, t, some (a + 2), false, true, 0, false⟩
  else if nam = nRET then ⟨nam, (h.frond f).ras.headD 0, none, true, true, 0, false⟩
  else ⟨nam, t, none, false, true, 0, false⟩

/-- The words fetched on the path that the static prediction of a JMPC chose wrongly (R302, R304). -/
def wrongPath (h : Hw) (f : Nat) (w : CsWord) : List Nat :=
  let x := h.frond f
  let pred : Bool := decide (wTARGET w ≤ x.pc.toNat)
  if wNAM w = nJMPC ∧ x.pbar = false ∧ condTrue h f (wCOND w) ≠ pred then (aheadOf h f).drop 1 else []

/-- The events of SYS.WEV that are levels (R322). -/
def wevLevels (h : Hw) (f : Nat) : Nat :=
  let x := h.frond f
  b2n (!(mbxTo h (f / 2) x.world).isEmpty) + 2 * b2n (!(kvGet [] h.svcQ (f / 2)).isEmpty) + 32 * b2n x.load.isNone

/-- An event enabled in SYS.WEV is true (R322). -/
def wevTrue (h : Hw) (f : Nat) : Bool :=
  let x := h.frond f
  Nat.land x.wev.toNat (Nat.lor (wevLevels h f) x.wevHit.toNat) != 0

/-- What a word's moves do (R296, R297): sources are read once each, operand ports are written, then triggers fire; a dropped leaflet is counted. -/
def transport (h : Hw) (f : Nat) (ms : List Move) : Hw :=
  let ks := keepMoves ms
  let vs := ks.map (fun m => (m.dst, moveValue h f m))
  let ports := (ms.filterMap (fun m => match m.src with | .port p => some p | .imm _ => none)).dedup
  let h1 := ports.foldl (fun h p => portReadEffect h f p) h
  let h2 := vs.foldl (fun h e => if isTrigger e.1 then h else portWrite h f e.1 e.2) h1
  let h3 := vs.foldl (fun h e => if isTrigger e.1 then portFire h f e.1 e.2 else h) h2
  h3.addSat (FRN_CLASH f) FRN_CLASH_CLASH (ms.length - ks.length)

/-- A call gate entry (R342, R344), at the boundary after the writing word. -/
def gateEnter (h : Hw) (f g : Nat) : Hw :=
  let y := h.frond f
  let x : Frond := { y with st := (match y.stNext with | some v => stTake y v | none => y.st), stNext := none }
  let e := gateEntry h f g
  let h1 := h.setFrond f { x with sra := x.pc, sst := sstEntry x 3 g, st := stEntry x (stML x.st), presented := none }
  if handlerBad h f (e % 65536) then frondLockup h1 f 2 g x.pc.toNat
  else (h1.setFrond f ({ h1.frond f with pc := BitVec.ofNat 16 e }.pass entryCycles)).wr (FRN_LASTF f) (BitVec.ofNat 32 (g * 2 ^ 26 + 3 * 2 ^ 24 + x.pc.toNat))

/-- Take a presented request (R342, R345, R367, R368): the frond's status becomes the interrupt's, or the frond locks up. -/
def irqTake (h : Hw) (f s : Nat) : Hw :=
  let x := h.frond f
  let pri := h.rf (IRQ_CFG s) IRQ_CFG_PRI
  let v := h.rf (IRQ_VEC s) IRQ_VEC_VEC
  let h1 := h.setFrond f { x with st := stEntry x pri, presented := none, rep := none, repBusy := false, xfer := none, retx := false, run := .run }
  if handlerBad h f v then frondLockup h1 f 2 0 x.pc.toNat
  else
    let h2 := putSrcBit (putSrcBit h1 IRQ_PEND s false) IRQ_ACT s true
    h2.setFrond f ({ h2.frond f with pstack := (s, pri) :: x.pstack, pc := BitVec.ofNat 16 v }.pass entryCycles)

/-- The request a chained return takes: the first in the order of R363 that is deliverable to this frond against SST (R372). -/
def chainedReq (h : Hw) (f : Nat) : Option Nat :=
  let x := h.frond f
  (reqOrder h).find? (fun s =>
    srcWorld h s == some x.world && bit (h.rf (IRQ_CFG s) IRQ_CFG_FMASK) f && deliverable h s x.sst && decide (x.pstack.length < 16) &&
    !hoffBlocks h x.presented.toList s)

/-- A RETX whose delay word has retired (R350, R352, R354, R372). -/
def returnNow (h : Hw) (f : Nat) : Hw :=
  let y := h.frond f
  let n := y.sst.toNat
  let x : Frond := { y with st := stTake y y.sst, retx := false, stNext := none }
  match chainedReq h f with
  | some s => irqTake (hoffStart (h.setFrond f x) s) f s
  | none =>
    if bit n 23 then
      (let h := countFetch h f [(x.sra.toNat + 65535) % 65536]
       let w := wordAt h (f / 2) ((x.sra.toNat + 65535) % 65536)
       let t : BitVec 16 := BitVec.ofNat 16 (wTARGET w)
       let nam := wNAM w
       let btk := bit n 22
       let mw := bits n 21 18
       let (v, h1) := h.fresh
       let z : Xfer :=
         if nam = nJMP then ⟨nam, t, none, false, btk, 0, false⟩
         else if nam = nJMPC then ⟨nam, if btk then t else x.sra + 1, none, false, btk, 0, wANNUL w && !btk⟩
         else if nam = nMWAY then
           ⟨nam, t ||| BitVec.ofNat 16 (mw % 2 ^ (wMWN w + 1)), none, false, btk, BitVec.ofNat 4 mw, false⟩
         else if nam = nCALL then ⟨nam, t, some (x.sra + 1), false, btk, 0, false⟩
         else if nam = nRET then ⟨nam, x.ras.headD (v.setWidth 16), none, true, btk, 0, false⟩
         else ⟨nam, x.sra + 1, none, false, btk, BitVec.ofNat 4 mw, false⟩
       (if nam = nRET then h1 else h).setFrond f { x with pc := x.sra, xfer := some z })
    else if bit n 17 then h.setFrond f { x with pc := x.sra, rep := some (bit n 16), repBusy := false }
    else h.setFrond f { x with pc := x.sra }

/-- What the routines of unprinted text leave in the registers they change (R313), at the delay word of their return: free values. -/
def romLeave (h : Hw) (f a : Nat) : Hw :=
  if (a = 0x4F ∨ a = 0x53) ∧ csMatch h (f / 2) a = none then
    let v := fun (i : Nat) => Config.freeValue (h.free + i)
    Hw.setFrond { h with free := h.free + 6 } f
      { h.frond f with aluR := v 0, aluF := (v 1).setWidth 4, msM := v 2, msACC := v 3, msQ := v 4, p := ((h.frond f).p &&& 0x7FFF) ||| ((v 5).setWidth 16 &&& 0x8000) }
  else h

/-- Cycles that a transfer costs beyond its delay word (R302). -/
def xferCost (h : Hw) (f : Nat) (t : Xfer) : Nat :=
  let x := h.frond f
  let a := (x.pc.toNat + 65535) % 65536
  if t.nam = nJMPC then (if x.pbar || t.taken != decide (wTARGET (wordAt h (f / 2) a) ≤ a) then 3 else 0)
  else if t.nam = nMWAY then 2
  else 0

/-- The words that still read an old CMD.RES or XLT.IST, or HELD before an UNLOCK, are one fewer behind a word that did not change them itself. -/
def lateAge (x : Frond) (ks : List Move) : Frond :=
  let fired := fun (a b : Nat) => ks.any (fun m => decide (a ≤ m.dst) && decide (m.dst ≤ b))
  { x with
    resWait := if fired 0x280 0x287 then x.resWait else x.resWait - 1
    istWait := if fired 0x2C1 0x2C1 then x.istWait else x.istWait - 1
    heldWas := fired 0x207 0x207 && x.heldWas }

/-- A word is transported and retires. -/
def retire (h0 : Hw) (f : Nat) (e : FetchEnv) : Hw :=
  let x0 := h0.frond f
  let a := x0.pc
  let w := nextWord h0 f
  let xf := xferOf h0 f w
  let wrong := wrongPath h0 f w
  let ms := if x0.annulled then [] else liveMoves x0 w
  let ks := keepMoves ms
  let gate := (ks.find? (fun m => m.dst == 0x384)).map (fun m => (moveValue h0 f m).toNat % 64)
  let pfl := ks.any (fun m => m.dst == 0x386 && moveValue h0 f m == 1)
  -- fetch and parity counters
  let bad := fetchBad w e.bad1
  let hA := if x0.fetched then countFetch h0 f (if bad && !x0.annulled then [a.toNat, a.toNat] else [a.toNat]) else h0
  let hB := if x0.fetched && bad then hA.addSat (FRN_CSPERR f) (if x0.annulled then FRN_CSPERR_SPEC else FRN_CSPERR_COR) 1 else hA
  let hC := if !wrong.isEmpty then countAhead hB f wrong e
    else if gate.isSome then countAhead hB f (aheadOf h0 f) e
    else if pfl then countAhead hB f (((aheadOf h0 f).drop 1).take 2) e else hB
  let hD := hC.addWrap (FRN_RETIRE f) FRN_RETIRE_RETIRE 1
  -- transport; the status written by the word before takes effect as this word retires (R336)
  let old := x0.stNext
  let hE := romLeave (transport (hD.setFrond f { x0 with stNext := none, fpbar := false, lastPc := a }) f ms) f a.toNat
  let x1 := lateAge (hE.frond f) ks
  let x2 : Frond := { x1 with st := (match old with | some v => stTake x1 v | none => x1.st) }
  -- the next address
  let h1 :=
    if x0.retx then returnNow (hE.setFrond f (x2.pass (if bit x2.sst.toNat 23 then 3 else 2))) f
    else match x0.xfer with
      | some t =>
        let r1 := match t.push with | some p => (p :: x2.ras).take 16 | none => if t.pop then x2.ras.drop 1 else x2.ras
        hE.setFrond f ({ x2 with ras := r1, xfer := none, pc := t.next }.pass (xferCost h0 f t))
      | none =>
        match x0.rep with
        | some _ =>
          let c := x2.rptC - 1
          hE.setFrond f (if c = 0 then { x2 with rptC := 0, rep := none, repBusy := false, pc := a + 1 } else { x2 with rptC := c, repBusy := true })
        | none =>
          if wREP w then hE.setFrond f { x2 with rep := some (wNOINT w), repBusy := false, pc := a + 1 }
          else if wNAM w = nRETX then hE.setFrond f { x2 with retx := true, pc := a + 1 }
          else if isTransfer w then hE.setFrond f { x2 with xfer := some xf, pc := a + 1 }
          else if wNAM w = nWAIT then
            (let g := hE.setFrond f { x2 with pc := a + 1, wevHit := 0 }
             if gate.isSome || wevTrue g f then g else g.setFrond f { g.frond f with run := .wait })
          else if wNAM w = nHALT then hE.setFrond f { x2 with pc := a + 1, run := .halt, dfpc := a + 1, dfrpi := false }
          else hE.setFrond f { x2 with pc := a + 1 }
  let h2 := if pfl then h1.setFrond f { h1.frond f with ras := [] } else h1
  let h3 := match gate with | some g => gateEnter h2 f g | none => h2
  stepEnd h3 f

/-- The block at the transport of a frond's next word: the FPU has passed the cycle of its fetch, and three more when it is fetched again (R294, R315). -/
def wordAged (h : Hw) (f : Nat) (e : FetchEnv) : Hw :=
  let x := h.frond f
  let again := !x.annulled && x.fetched && fetchBad (nextWord h f) e.bad1
  if x.fPend.isEmpty then h else h.setFrond f (fpuPass x (if again then 4 else 1))

/-- One word of a frond: a fault at its boundary, its transport, or nothing while it is held. -/
def frondWord (h : Hw) (f : Nat) (e : FetchEnv) : Hw :=
  if heldInT h f then h
  else
    let g := wordAged h f e
    match dueFault g f e with
    | some i =>
      let x := g.frond f
      let w := nextWord g f
      let bad := fetchBad w e.bad1
      let h1 := if x.fetched then countAhead (countFetch g f (if bad then [x.pc.toNat, x.pc.toNat] else [x.pc.toNat])) f (aheadOf g f) e else g
      faultTake (if x.fetched && bad && !fetchBad w e.bad2 && i != ftFP && !x.annulled then h1.addSat (FRN_CSPERR f) FRN_CSPERR_COR 1 else h1) f i
    | none => if lsuStalls h f then h else retire g f e

/-- Which row of the table the next word of a frond is: its NAM (a reserved NAM counts as SEQ), 9 for REP, 10 for an iteration. -/
def wordRow (h : Hw) (f : Nat) : Nat :=
  let w := nextWord h f
  if (h.frond f).rep.isSome then 10
  else if wREP w then 9
  else if wNAM w ≤ 8 then wNAM w
  else 0

/-- A boundary at which a frond may halt (R464, R470). -/
def haltBoundary (x : Frond) : Bool :=
  (x.run == .run || x.run == .wait) && !x.inDelay && !(x.rep == some true && x.repBusy) && x.lockLine.isNone && x.lockWait.isNone && x.stNext.isNone

/-- A halt asked for is due at the boundary the frond stands at: nothing else happens there (R464, R478). -/
def haltDue (x : Frond) : Bool := x.haltReq && haltBoundary x

/-- A word of one row. -/
def wordOfRow (row f : Nat) (e : FetchEnv) (h : Hw) : Hw :=
  if frondLive h f && (h.frond f).run == .run && !haltDue (h.frond f) && wordRow h f == row then frondWord h f e else h

/-! ### The rows of a word (R285, R305, R322, R349) -/

/-- SEQ. -/
def wordSeq (f : Nat) (e : FetchEnv) (h : Hw) : Hw := wordOfRow 0 f e h
/-- JMP. -/
def wordJmp (f : Nat) (e : FetchEnv) (h : Hw) : Hw := wordOfRow 1 f e h
/-- JMPC. -/
def wordJmpc (f : Nat) (e : FetchEnv) (h : Hw) : Hw := wordOfRow 2 f e h
/-- MWAY. -/
def wordMway (f : Nat) (e : FetchEnv) (h : Hw) : Hw := wordOfRow 3 f e h
/-- CALL. -/
def wordCall (f : Nat) (e : FetchEnv) (h : Hw) : Hw := wordOfRow 4 f e h
/-- RET. -/
def wordRet (f : Nat) (e : FetchEnv) (h : Hw) : Hw := wordOfRow 5 f e h
/-- RETX. -/
def wordRetx (f : Nat) (e : FetchEnv) (h : Hw) : Hw := wordOfRow 6 f e h
/-- WAIT. -/
def wordWait (f : Nat) (e : FetchEnv) (h : Hw) : Hw := wordOfRow 7 f e h
/-- HALT. -/
def wordHalt (f : Nat) (e : FetchEnv) (h : Hw) : Hw := wordOfRow 8 f e h
/-- REP. -/
def wordRep (f : Nat) (e : FetchEnv) (h : Hw) : Hw := wordOfRow 9 f e h
/-- REPEAT_ITERATION. -/
def wordIter (f : Nat) (e : FetchEnv) (h : Hw) : Hw := wordOfRow 10 f e h

/-- WAIT_WAKE (R322): an event enabled in SYS.WEV is true and a waiting frond continues past its WAIT word. -/
def waitWake (f : Nat) (h : Hw) : Hw :=
  if frondLive h f && (h.frond f).run == .wait && wevTrue h f then (h.setFrond f { h.frond f with run := .run }).idleLeave (f / 2) else h

/-! ### Interrupt entry (R306, R340, R365, R371) -/

/-- A boundary at which an interrupt may be taken. -/
def irqBoundary (h : Hw) (f : Nat) : Bool :=
  let x := h.frond f
  (x.run == .run || x.run == .wait) && !x.inDelay && !(x.rep == some true && x.repBusy) && x.lockLine.isNone && x.lockWait.isNone && x.stNext.isNone &&
  (!x.stepReq || h.rb (DBG_FCTL f) DBG_FCTL_STEPIRQ)

/-- A request still stands: pending, enabled, owned by the frond's world and deliverable against its status. -/
def reqStands (h : Hw) (f s : Nat) : Bool :=
  srcBit h IRQ_PEND s && srcBit h IRQ_EN s && !srcBit h IRQ_ACT s && srcWorld h s == some (h.frond f).world && !srcRouted h s &&
  deliverable h s (h.frond f).st && decide ((h.frond f).pstack.length < 16) && !grpHeld h (s / 32)

/-- INTERRUPT_ENTRY (R365, R367, R371): the presented request is taken, or the fault due at the same boundary (R355); `late` is a request of higher priority that arrives
in cycle 2 or 3 of the entry. -/
def interruptEntry (f : Nat) (late : Option Nat) (e : FetchEnv) (h : Hw) : Hw :=
  if !frondLive h f then h
  else match (h.frond f).presented with
    | none => h
    | some s =>
      if !irqBoundary h f || haltDue (h.frond f) || !reqStands h f s then h
      else match dueFault h f e with
        | some i => faultTake h f i
        | none =>
          let x := h.frond f
          let chosen := match late with
            | some l =>
              if srcRequests h l && eligible h l f && !hoffBlocks h ((List.range 8).filterMap (fun g => (h.frond g).presented)) l &&
                decide (h.rf (IRQ_CFG l) IRQ_CFG_PRI > h.rf (IRQ_CFG s) IRQ_CFG_PRI) then l else s
            | none => s
          let h1 := if x.run = .run && x.fetched then countAhead (countFetch h f [x.pc.toNat]) f (aheadOf h f) e else h
          irqTake (hoffStart (h1.setFrond f { h1.frond f with sra := x.pc, sst := sstEntry x 2 0 }) chosen) f chosen

/-! ### Single moves -/

/-- A move of a value to a port as the move of the word at the frond's address: the fault that the word would take, or the write. -/
def frondMove (h : Hw) (f p : Nat) (v : W64) : Hw :=
  let x := h.frond f
  let m : Move := ⟨0, none, .imm v, p⟩
  if !frondLive h f || x.run != .run || haltDue x || heldInT h f then h
  else if x.fpOwed then faultTake h f ftFP
  else if x.storeErr then faultTake h f ftLSU
  else if movePortBad m || (p == 0x380 && x.rep.isSome) then faultTake h f ftPORT
  else if movePriv m x.world (stS x.st) (vendorAddr x.pc.toNat) then faultTake h f ftPRIV
  else if (x.load.isSome && (p == 0x201 || p == 0x202)) || (decide (4 ≤ x.stores.length) && (p == 0x203 || p == 0x204)) then h
  else if p = 0x380 && stBad v then faultTake h f ftRETST
  else if p = 0x384 && (gateBad h f v || x.inDelay || x.rep.isSome) then faultTake h f ftGATE
  else if lsuMisaligned p v then faultTake h f ftALIGN
  else if x.loadErr && ((0x201 ≤ p && p ≤ 0x204) || p == 0x206 || p == 0x207) then faultTake h f ftLSU
  else if p = 0x320 && (match x.pstack with | (s, _) :: _ => v.toNat % 512 != s | [] => true) then faultTake h f ftEOI
  else
    let h := h.setFrond f { x with fpbar := false }
    if p = 0x384 then gateEnter h f (v.toNat % 64)
    else if p = 0x386 then (if v = 1 then h.setFrond f { h.frond f with ras := [] } else h)
    else if isTrigger p then portFire h f p v
    else if p = 0x380 then
      h.setFrond f { h.frond f with st := (match x.stNext with | some o => stTake x o | none => x.st), stNext := some v }
    else portWrite h f p v

/-- A read of a port by a move, its value left on the read bus. -/
def frondReadPort (h : Hw) (f p : Nat) : Hw :=
  let x := h.frond f
  let m : Move := ⟨0, none, .port p, 0⟩
  if !frondLive h f || x.run != .run || haltDue x || heldInT h f then h
  else if x.fpOwed then faultTake h f ftFP
  else if x.storeErr then faultTake h f ftLSU
  else if movePortBad m then faultTake h f ftPORT
  else if movePriv m x.world (stS x.st) (vendorAddr x.pc.toNat) then faultTake h f ftPRIV
  else if x.load.isSome && p == 0x205 then h
  else if x.loadErr && p == 0x205 then faultTake h f ftLSU
  else portReadEffect { h.setFrond f { x with fpbar := false } with busRd := lo32 (portRead h f p) } f p

/-- FPU_RESULT_WRITE (R315, R316): the oldest result under way is written and its flags are ORed into FPU.FLG; an enabled flag makes a trap owed. -/
def fpuResultWrite (f : Nat) (h : Hw) : Hw :=
  let x := h.frond f
  if !h.hasFrond f then h
  else match x.fPend with
    | [] => h
    | o :: rest => h.setFrond f (fpuPut { x with fPend := rest } o)

/-- LSU_LOCK_ACQUIRED (R320, R327): the line is free; of two attempts on one line the lower frond acquires it. -/
def lsuLockAcquired (f : Nat) (h : Hw) : Hw :=
  let x := h.frond f
  match x.lockWait with
  | none => h
  | some l =>
    if !frondLive h f || (List.range 8).any (fun g => g != f && ((h.frond g).lockLine == some l || (decide (g < f) && (h.frond g).lockWait == some l))) then h
    else h.setFrond f { x with lockWait := none, lockLine := some l, lockBrk := false, lockAt := h.tb.toNat, heldWas := false }

/-- CK_A ticks of ten CK_F cycles that a lock has been held: the 256 cycles of R320 end in the 26th or 27th. -/
def lockTicks (h : Hw) (x : Frond) : Nat := (h.tb - BitVec.ofNat 64 x.lockAt).toNat

/-- LSU_LOCK_BREAK (R320, R470): a lock breaks when it has been held for 256 CK_F cycles. -/
def lsuLockBreak (f : Nat) (h : Hw) : Hw :=
  let x := h.frond f
  if x.lockLine.isSome && decide (25 ≤ lockTicks h x) then
    (let h1 := h.setFrond f { x with lockLine := none, lockBrk := true }
     stepEnd (if x.haltReq || x.stepReq then h1.sb (DBG_FSTAT f) DBG_FSTAT_LOCKBRK else h1) f)
  else h

/-- A CK_A tick of a frond holds ten CK_F cycles (R76, R282, R315, R320): results under way are written, new values are readable, and a lock held too long breaks. -/
def frondTick (h : Hw) (f : Nat) : Hw :=
  let x := h.frond f
  let busy := !x.fPend.isEmpty || x.resWait != 0 || x.istWait != 0 || x.heldWas
  let h1 := if busy then h.setFrond f { x.pass 10 with heldWas := false } else h
  if x.lockLine.isSome ∧ 27 ≤ lockTicks h x then lsuLockBreak f h1 else h1

/-! ### Reset of a frond (R310, R329, R335, R368) -/

/-- Fronds start from step 5 of a start that has not failed (R442, R448). -/
def frondsStarted (h : Hw) : Bool := decide (5 ≤ h.rf BOOT_STAT BOOT_STAT_STEP) && decide (h.rf BOOT_STAT BOOT_STAT_STEP ≤ 9)

/-- Start a frond at ROM address 0x0000, or halt it before its first word (R468). -/
def frondStart (h : Hw) (f : Nat) : Hw :=
  let x := h.frond f
  if h.rb (DBG_FCTL f) DBG_FCTL_RHALT then h.setFrond f { x with run := .debugHalt, pc := 0, dfpc := 0, dfrpi := false }
  else h.setFrond f { x with run := .run, pc := 0 }

/-- The reset state of R310 under a world: buffered stores complete, and each source on the priority stack is completed (R329, R368). -/
def frondClear (h : Hw) (f : Nat) (w : World) (keepStores : Bool) : Hw :=
  let x := h.frond f
  let z : Frond := { Frond.zero with
    world := w, st := BitVec.ofNat 64 (wIx w * 2 ^ 31 + 0x7D000000),
    stores := if keepStores then x.stores else [], lsuSeq := x.lsuSeq }
  let h1 := (h.setFrond f z).wf SYS_LOCK ⟨f, 1⟩ 0
  let h2 := { h1 with mreqs := h1.mreqs.filter (fun q => match q.use with | .load g _ => g != f || q.tag.isSome | _ => true) }
  x.pstack.foldl (fun h e => irqComplete h e.1) h2

/-- Reset a frond under a world and start it (R329). -/
def frondReset (h : Hw) (f : Nat) (w : World) : Hw :=
  let h1 := frondClear h f w true
  if frondsStarted h1 then frondStart h1 f else h1

end Sys2Proof.Machine
end

