-- ==== Sys2Proof/Machine/Claims.lean ====
section
/-!
DEFINITION. The claim registers of the macro by address (R29 to R35), and the releases that need no REL write (R35).
-/
namespace Sys2Proof.Machine

/-- Which claimable resource a claim register belongs to. -/
inductive ClaimOf where
  | source (s : Nat)
  | group (g : Nat)
  | timer (c : Nat)
  | sink (r : Nat)
  | laneTest (l : Nat)
  | window (r n : Nat)
deriving DecidableEq, Repr

/-- The resource of a claim register's address (R356, R375, R390, R476, R225, R61). -/
def claimOf (h : Hw) (a : Nat) : Option ClaimOf :=
  let o := a % 0x10000
  if a / 0x10000 = 0x20A0 then
    (if 0x240 ≤ o ∧ o < 0x280 ∧ o % 4 = 0 then some (.group ((o - 0x240) / 4))
     else if 0x1000 ≤ o ∧ o % 16 = 0 ∧ srcExists h.cfg ((o - 0x1000) / 16) then some (.source ((o - 0x1000) / 16))
     else none)
  else if a / 0x1000 = 0x20B00 then (if a % 0x1000 < 0x800 ∧ a % 0x40 = 0 then some (.timer (a % 0x1000 / 0x40)) else none)
  else if a / 0x1000 = 0x21800 then
    (let q := a % 0x1000
     if 0x400 ≤ q ∧ q < 0x500 ∧ q % 0x40 = 0 ∧ h.hasRegion ((q - 0x400) / 0x40) then some (.sink ((q - 0x400) / 0x40)) else none)
  else if a / 0x100000 = 0x203 then
    (let r := a / 0x10000 % 16
     if h.hasRegion r ∧ o < 0x800 ∧ o % 0x40 = 0x20 then some (.laneTest (32 * r + o / 0x40)) else none)
  else if a / 0x100000 = 0x201 then
    (let r := a / 0x10000 % 16
     if h.hasRegion r ∧ 0x100 ≤ o ∧ o < 0x200 ∧ o % 16 = 0 then some (.window r ((o - 0x100) / 16)) else none)
  else none

/-- A write of a claim register. -/
def claimWriteAt (h : Hw) (w : Who) (k : ClaimOf) (v : W32) : Hw :=
  match k with
  | .source s => irqSclaimWrite h s w v
  | .group g => grpHoldWrite h g w v
  | .timer c => tmrClaimWrite h c w v
  | .sink r => tsClaimWrite h r w v
  | .laneTest l => ltClaimWrite h l w v
  | .window r n => cshClaimWrite h r n w v

/-- The address of a resource's claim register. -/
def claimAddr : ClaimOf → Nat
  | .source s => IRQ_SCLAIM s
  | .group g => IRQ_GRPHOLD g
  | .timer c => TMR_CLAIM c
  | .sink r => TS_CLAIM r
  | .laneTest l => LT_CLAIM l
  | .window r n => CSH_WCLAIM r n

/-- A release without a REL write, with the effects of the resource's chapter (R35, R375, R390, R476). -/
def claimDrop (h : Hw) (k : ClaimOf) : Hw :=
  let h1 := claimFree h (claimAddr k)
  match k with
  | .source _ => h1
  | .group g => deferApply h1 g
  | .timer c => tmrRelease h1 c
  | .sink r => tsDrop (tsStop h1 r) r
  | .laneTest l => ltFree h1 l
  | .window _ _ => h1

/-- Release every claim whose holder's agent code satisfies a test (R35). -/
def releaseClaims (h : Hw) (p : Nat → Bool) : Hw :=
  h.regs.foldl (fun g e =>
    match claimOf h e.1 with
    | none => g
    | some k => if claimAddr k == e.1 && g.rf e.1 cHELD == 1 && p (g.rf e.1 cAGENT) then claimDrop g k else g) h

/-- CLAIM_REQ (R32, R33): a write with REQ = 1 to a claim register. -/
def claimReq (w : Who) (a : Nat) (v : W32) (h : Hw) : Hw :=
  if fldGet cREQ v = 0 then h else match claimOf h a with | some k => claimWriteAt h w k v | none => h

/-- CLAIM_REL (R34): a write with REL = 1 to a claim register. -/
def claimRel (w : Who) (a : Nat) (v : W32) (h : Hw) : Hw :=
  if fldGet cREL v = 0 then h else match claimOf h a with | some k => claimWriteAt h w k v | none => h

end Sys2Proof.Machine
end

