-- ==== Sys2Proof/Machine/Session.lean ====
section
/-!
DEFINITION. Debug sessions (R455 to R458), the halt, step and resume of fronds (R464 to R470), and the end of a start (R412).
-/
namespace Sys2Proof.Machine

/-! ### Halt, step and resume -/

/-- The open session may control a frond (R464): a tenant-level one only tenant-world fronds. -/
def sessMay (h : Hw) (f : Nat) : Bool := h.rf DBG_STAT DBG_STAT_SESS == 1 || (h.rf DBG_STAT DBG_STAT_SESS == 2 && (h.frond f).world == .tenant)

/-- A halt request (R464): a frond in WAIT halts at once. -/
def haltAsk (h : Hw) (f : Nat) : Hw :=
  let x := h.frond f
  if x.run = .wait ∧ haltBoundary x then debugHaltNow h f
  else if x.run = .debugHalt then h
  else h.setFrond f { x with haltReq := true }

/-- A frond goes on at DBG_FPC (R466, R467). -/
def frondGo (h : Hw) (f : Nat) (step : Bool) : Hw :=
  let x := h.frond f
  if x.run = .lockup then h.sb (DBG_FSTAT f) DBG_FSTAT_REFUSE
  else if x.run = .debugHalt ∨ x.run = .halt then (h.setFrond f { x with run := .run, pc := x.dfpc, haltReq := false, stepReq := step }).idleLeave (f / 2)
  else h

/-- A session's write of DBG_FCTL (R464, R466, R467, R478). -/
def fctlWrite (h : Hw) (f : Nat) (v : W32) : Hw :=
  if !h.hasFrond f || h.rf DBG_STAT DBG_STAT_SESS == 0 then h
  else if !sessMay h f then h.sb (DBG_FSTAT f) DBG_FSTAT_REFUSE
  else
    let halt := fldGet DBG_FCTL_HALT v == 1
    let resume := fldGet DBG_FCTL_RESUME v == 1
    let step := fldGet DBG_FCTL_STEP v == 1
    if halt && (resume || step) then h
    else
      let h1 := h.wr (DBG_FCTL f) (v &&& 0x18)
      if halt then haltAsk h1 f else if step then frondGo h1 f true else if resume then frondGo h1 f false else h1

/-- DEBUG_HALT_REQ (R464). -/
def debugHaltReq (f : Nat) (v : W32) (h : Hw) : Hw := if fldGet DBG_FCTL_HALT v = 1 then fctlWrite h f v else h
/-- DEBUG_RESUME (R466). -/
def debugResume (f : Nat) (v : W32) (h : Hw) : Hw := if fldGet DBG_FCTL_RESUME v = 1 then fctlWrite h f v else h
/-- DEBUG_STEP (R467). -/
def debugStep (f : Nat) (v : W32) (h : Hw) : Hw := if fldGet DBG_FCTL_STEP v = 1 then fctlWrite h f v else h

/-- DEBUG_HALT_TAKEN (R464, R470): a frond that was asked to halt stands at a permitted boundary. -/
def debugHaltTaken (f : Nat) (h : Hw) : Hw := if h.hasFrond f && haltDue (h.frond f) then debugHaltNow h f else h

/-- A session's write of DBG_FPC (R466): it ends a repeat. -/
def fpcWrite (h : Hw) (f : Nat) (v : W32) : Hw :=
  let x := h.frond f
  if !h.hasFrond f || !sessMay h f then h
  else if x.run = .debugHalt ∨ x.run = .halt then
    h.setFrond f { x with
      pc := v.setWidth 16, dfpc := v.setWidth 16, dfrpi := false, rep := none, repBusy := false, rptC := 0 }
  else h

/-! ### Sessions -/

/-- A session ends (R458, R35): its claims are released, fronds in debug halt resume, RHALT clears, and SEND is set unless CLOSE ended it. -/
def sessionEnd (h : Hw) (setSend : Bool) : Hw :=
  if h.rf DBG_STAT DBG_STAT_SESS = 0 then h
  else
    let h1 := (if setSend then h.sb DBG_STAT DBG_STAT_SEND else h).wf DBG_STAT DBG_STAT_SESS 0
    let h2 := { releaseClaims h1 (· == 9) with snaps := kvDel h1.snaps 32 }
    forEach (List.range (2 * h.nRegions)) h2 (fun h f =>
      let x := h.frond f
      (h.setFrond f { x with
        run := if x.run = .debugHalt then .run else x.run,
        pc := if x.run = .debugHalt then x.dfpc else x.pc,
        haltReq := false,
        stepReq := false }).wf (DBG_FCTL f) DBG_FCTL_RHALT 0)

/-- Words of eight bytes each as bytes, byte 4k of the whole in bits [31:24] of word k. -/
def nonceWord (v : W64) (hiHalf : Bool) : W32 := if hiHalf then hi32 v else lo32 v

/-- CHAL (R456, R457): a fresh nonce, unless held off or under verification. -/
def chalDo (h : Hw) : Hw :=
  if h.dbg.hold.isSome ∨ h.rf DBG_STAT DBG_STAT_AST = 2 then h
  else
    let h1 := forEach (List.range 8) h (fun h k => h.wr (DBG_NONCE k) (nonceWord (Config.freeValue (h.free + k / 2)) (k % 2 == 1)))
    { h1 with free := h1.free + 4 }.wf DBG_STAT DBG_STAT_AST 1

/-- GO (R456, R457): the nonce is consumed and verification begins. -/
def goDo (h : Hw) (level : Nat) : Hw :=
  if h.rf DBG_STAT DBG_STAT_AST = 2 then h
  else { (h.wf DBG_STAT DBG_STAT_AST 2) with dbg := { h.dbg with goLevel := level, goOk := h.rf DBG_STAT DBG_STAT_AST == 1 } }

/-- A write of DBG_AUTH, open to every probe (R456, R458, R459). -/
def authWrite (h : Hw) (v : W32) : Hw :=
  let h0 := h.wf DBG_AUTH DBG_AUTH_LEVEL (fldGet DBG_AUTH_LEVEL v)
  let h1 := if fldGet DBG_AUTH_CHAL v = 1 then chalDo h0 else h0
  let h2 := if fldGet DBG_AUTH_GO v = 1 then goDo h1 (fldGet DBG_AUTH_LEVEL v) else h1
  if fldGet DBG_AUTH_CLOSE v = 1 then sessionEnd h2 false else h2

/-- CHAL, GO and CLOSE: writes of DBG_AUTH with the bit set. -/
def chal (v : W32) (h : Hw) : Hw := if fldGet DBG_AUTH_CHAL v = 1 then authWrite h v else h
/-- GO (R456). -/
def go (v : W32) (h : Hw) : Hw := if fldGet DBG_AUTH_GO v = 1 then authWrite h v else h
/-- CLOSE (R458). -/
def close (v : W32) (h : Hw) : Hw := if fldGet DBG_AUTH_CLOSE v = 1 then authWrite h v else h

/-- Bytes of consecutive words, most significant byte first. -/
def bytesBe (h : Hw) (reg : Nat → Nat) (n : Nat) : List Byte := (List.range n).flatMap (fun k => beBytes 4 (h.rd (reg k)).toNat)

/-- The record the probe signs (R456). -/
def dbgRecord (h : Hw) : List Byte :=
  bytesBe h DBG_NONCE 8 ++ [BitVec.ofNat 8 h.dbg.goLevel] ++ List.replicate 7 0 ++ leBytes 4 (h.rd (LNK_NODE_LO 0)).toNat ++ leBytes 4 (h.rd (LNK_NODE_HI 0)).toNat

/-- The checks of R456 and R457. -/
def dbgVerified (h : Hw) : Bool :=
  let pub := (bytesBe h DBG_PUB 25).take 97
  h.dbg.goOk && h.rf DBG_STAT DBG_STAT_SESS == 0 && (h.dbg.goLevel == 1 || h.dbg.goLevel == 2) &&
  (match h.dbg.key with | some k => Config.sha384 pub == k | none => false) &&
  Config.ecdsaVerify pub (Config.sha384 (dbgRecord h)) (bytesBe h DBG_SIG 24)

/-- DEBUG_VERIFY_DONE (R456, R457): the session opens at LEVEL, or the failure is shown and CHAL is held off for 4 beats. -/
def debugVerifyDone (h : Hw) : Hw :=
  if h.rf DBG_STAT DBG_STAT_AST ≠ 2 then h
  else
    let h1 := h.wf DBG_STAT DBG_STAT_AST 0
    if dbgVerified h then { (h1.wf DBG_STAT DBG_STAT_SESS h.dbg.goLevel) with dbg := { h1.dbg with last := h1.tb.toNat } }
    else { ((h1.sb DBG_STAT DBG_STAT_AFAIL).sb DBG_STAT DBG_STAT_AHOLD) with dbg := { h1.dbg with hold := some h1.tb.toNat } }

/-- The idle limit of an open session has run out: ITMO × 256 beats under R15 since the last request frame whose CRC passed; ITMO = 0 disables it. -/
def idleLimitOver (h : Hw) : Bool :=
  h.rf DBG_STAT DBG_STAT_SESS != 0 && h.rf DBG_CTL DBG_CTL_ITMO != 0 && h.beatsOver h.dbg.last (256 * h.rf DBG_CTL DBG_CTL_ITMO)

/-- DEBUG_IDLE_TIMEOUT (R458). -/
def debugIdleTimeout (h : Hw) : Hw := if idleLimitOver h then sessionEnd h true else h

/-- The hold on CHAL ends 4 beats after the failed verification (R457). -/
def holdEnd (h : Hw) : Hw :=
  match h.dbg.hold with
  | some t => if h.beatsOver t 4 then { (h.wf DBG_STAT DBG_STAT_AHOLD 0) with dbg := { h.dbg with hold := none } } else h
  | none => h

/-! ### The end of a start (R412, R442) -/

/-- CK_A ticks since the release that began this start, saturating. -/
def bootTicks (h : Hw) : W32 := BitVec.ofNat 32 (min (2 ^ 32 - 1) (h.tb - h.boot.t0).toNat)

/-- A write of LCH_MAINT.BOOTX: accepted once in each start, from a keeper-world supervisor; LOADER clears and kn_boot_done follows. -/
def bootxWrite (h : Hw) (w : Who) : Hw :=
  if !h.boot.bootx || !w.keeperSup then h
  else
    let h1 := (h.wf LCH_MAINT LCH_MAINT_LOADER 0).wf BOOT_STAT BOOT_STAT_STEP 9
    { (h1.wr BOOT_TIME (bootTicks h)) with boot := { h.boot with bootx := false, waitEnd := true } }

/-- BOOTX (R412). -/
def bootx (w : Who) (h : Hw) : Hw := bootxWrite h w

end Sys2Proof.Machine
end

