-- ==== Sys2Proof/Machine/Lichen.lean ====
section
/-!
DEFINITION. The lichen (R400 to R413): proposals, confirmations, and the application of the protected items.
-/
namespace Sys2Proof.Machine

def lcIdle : Nat := 0
def lcHash : Nat := 1
def lcPending : Nat := 2
def lcVerify : Nat := 3
def lcApply : Nat := 4

/-- LCH_STAT.STATE. -/
def Hw.lcState (h : Hw) : Nat := h.rf LCH_STAT LCH_STAT_STATE

/-- A proposal ends (R410). -/
def lchEnd (h : Hw) (last : Nat) : Hw :=
  { (((h.wf LCH_STAT LCH_STAT_STATE lcIdle).wf LCH_STAT LCH_STAT_LAST last).sb LCH_STAT LCH_STAT_DONE) with lchExp := false }

/-- The bytes of consecutive words, byte 4k in bits [31:24] of word k (R407). -/
def wordsBe (h : Hw) (reg : Nat → Nat) (n : Nat) : List Byte := (List.range n).flatMap (fun k => beBytes 4 (h.rd (reg k)).toNat)

/-- The low n bytes of a list, padded with zeros. -/
def padTo (n : Nat) (bs : List Byte) : List Byte := (bs ++ List.replicate n 0).take n

/-- The value words of the proposal. -/
def lchVals (h : Hw) : List Nat := (List.range 16).map (fun k => (h.rd (LCH_PVAL k)).toNat)

/-- The proposal record (R406). -/
def lchRecord (h : Hw) : List Byte :=
  leBytes 2 (h.rf LCH_PITEM LCH_PITEM_ITEM) ++ leBytes 2 (h.rf LCH_PITEM LCH_PITEM_INDEX) ++ leBytes 4 (h.rd LCH_PSEQ).toNat ++
  leBytes 4 (h.rd LCH_PNONCE_LO).toNat ++ leBytes 4 (h.rd LCH_PNONCE_HI).toNat ++ padTo 16 h.lchSalt ++
  leBytes 4 (h.rd (LNK_NODE_LO 0)).toNat ++ leBytes 4 (h.rd (LNK_NODE_HI 0)).toNat ++
  (lchVals h).flatMap (leBytes 4) ++ List.replicate 24 0

/-- A write of LCH_CMD (R403, R405, R410). -/
def lchCmdWrite (h : Hw) (w : Who) (v : W32) : Hw :=
  if !w.keeperFrond then h.sb LCH_STAT LCH_STAT_PREF
  else
    let st := h.lcState
    let h1 := if fldGet LCH_CMD_PROPOSE v = 1 then
        (if st = lcIdle then
          (let (u0, g0) := h.fresh
           let (u1, g1) := g0.fresh
           { (((g1.wr LCH_PSEQ (g1.rd LCH_PSEQ + 1)).wf LCH_STAT LCH_STAT_STATE lcHash).wf LCH_STAT LCH_STAT_ITEM (g1.rf LCH_PITEM LCH_PITEM_ITEM)) with
             lchSalt := leBytes 8 u0.toNat ++ leBytes 8 u1.toNat
             lchArm := h.tb.toNat })
         else h.sb LCH_STAT LCH_STAT_PREF)
      else h
    if fldGet LCH_CMD_WITHDRAW v = 1 ∧ (st = lcHash ∨ st = lcPending) then lchEnd h1 3 else h1

/-- PROPOSE (R405). -/
def propose (w : Who) (v : W32) (h : Hw) : Hw := lchCmdWrite h w v
/-- WITHDRAW (R410). -/
def withdraw (w : Who) (v : W32) (h : Hw) : Hw := lchCmdWrite h w v

/-- CK_A ticks since the lichen's last mark: PROPOSE in HASH, the entry to PENDING after it. -/
def lchTicks (h : Hw) : Nat := (h.tb - BitVec.ofNat 64 h.lchArm).toNat
/-- The digest takes 200 CK_A ticks (R405). -/
def lchHashDue (h : Hw) : Bool := h.lcState == lcHash && decide (200 ≤ lchTicks h)
/-- The confirmation window has run out at this boundary (R15, R409): 8 beats since PENDING was entered. -/
def lchWindowDue (h : Hw) : Bool := (h.lcState == lcPending || h.lcState == lcVerify) && h.beatsOver h.lchArm 8

/-- LICHEN_HASH_DONE (R405, R406, R409): 200 ticks after PROPOSE digest and salt appear, and the window is armed. -/
def lichenHashDone (h : Hw) : Hw :=
  if !lchHashDue h then h
  else
    let d := padTo 48 (Config.sha384 (lchRecord h))
    let h1 := forEach (List.range 12) h (fun h k => h.wr (LCH_DIG k) (BitVec.ofNat 32 (beNat ((d.drop (4 * k)).take 4))))
    let h2 := forEach (List.range 4) h1 (fun h k => h.wr (LCH_SALT k) (BitVec.ofNat 32 (leNat ((h.lchSalt.drop (4 * k)).take 4))))
    { (h2.wf LCH_STAT LCH_STAT_STATE lcPending) with lchArm := h2.tb.toNat, lchExp := false }

/-- A confirmation fails with a code (R408). -/
def lchFail (h : Hw) (agent code : Nat) : Hw :=
  (((h.wf LCH_CFAIL LCH_CFAIL_AGENT agent).wf LCH_CFAIL LCH_CFAIL_CODE code).addSat LCH_CNT LCH_CNT_CFAILS 1).sb LCH_STAT LCH_STAT_CFAIL

/-- The digest a party wrote equals the one displayed. -/
def digestEq (h : Hw) (reg : Nat → Nat) : Bool := (List.range 12).all (fun k => h.rd (reg k) == h.rd (LCH_DIG k))

/-- LCH_HGO (R404, R408): a host confirmation. -/
def lchHgo (w : Who) (v : W32) (h : Hw) : Hw :=
  if !w.hostPriv || fldGet LCH_HGO_GO v ≠ 1 then h
  else if h.lcState ≠ lcPending then lchFail h 8 1
  else if !digestEq h LCH_HDIG then lchFail h 8 2
  else if h.lchKey.isNone then lchFail h 8 4
  else h.wf LCH_STAT LCH_STAT_STATE lcVerify

/-- LCH_DGO (R404, R408): a debugger confirmation, from a keeper-level session. -/
def lchDgo (w : Who) (v : W32) (h : Hw) : Hw :=
  if w.agent ≠ .debugger ∨ w.world ≠ .keeper ∨ fldGet LCH_DGO_GO v ≠ 1 then h
  else if h.lcState ≠ lcPending then lchFail h 9 1
  else if !digestEq h LCH_DDIG then lchFail h 9 2
  else if h.rf LCH_PITEM LCH_PITEM_ITEM = 7 then lchFail h 9 3
  else h.wf LCH_STAT LCH_STAT_STATE lcApply

/-- LICHEN_VERIFY_DONE (R408, R409): the signature check ends. -/
def lichenVerifyDone (h : Hw) : Hw :=
  if h.lcState ≠ lcVerify then h
  else if Config.ecdsaVerify (h.lchKey.getD []) (wordsBe h LCH_DIG 12) (wordsBe h LCH_HSIG 24) then h.wf LCH_STAT LCH_STAT_STATE lcApply
  else
    let h1 := lchFail h 8 5
    if h1.lchExp then lchEnd h1 2 else h1.wf LCH_STAT LCH_STAT_STATE lcPending

/-- LICHEN_WINDOW_EXPIRE (R409). -/
def lichenWindowExpire (h : Hw) : Hw :=
  if !lchWindowDue h then h
  else if h.lcState = lcPending then lchEnd h 2
  else { h with lchExp := true }

/-! ### Application (R400 to R402, R411) -/

/-- Bits of a register's fields. -/
def fldsMask (fs : List Fld) : Nat := fs.foldl (fun a f => Nat.lor a ((2 ^ f.w - 1) * 2 ^ f.lo)) 0
/-- No bit outside a mask. -/
def within (v m : Nat) : Bool := Nat.land v m == v

def rwinLoMask : Nat := fldsMask [RWIN_LO_EN, RWIN_LO_RD, RWIN_LO_WR, RWIN_LO_BASE]
def rwinHiMask : Nat := fldsMask [RWIN_HI_LIMIT]

/-- The item's value and index are refused (R402). -/
def lchRefused (h : Hw) (item idx : Nat) (vals : List Nat) : Bool :=
  let v := fun k => vals.getD k 0
  let zeroFrom := fun n => (vals.drop n).all (· == 0)
  let r := bits idx 13 12
  match item with
  | 1 => !within idx 0x300F || !h.hasRegion r || idx % 16 == 15 ||
      (List.range 8).any (fun n => !within (v (2 * n)) rwinLoMask || !within (v (2 * n + 1)) rwinHiMask)
  | 2 => !within idx 7 || !h.hasFrond idx || !within (v 0) 1 || !zeroFrom 1 ||
      (v 0 == 1 && (List.range (2 * h.nRegions)).all (fun f => f == idx || (h.frond f).world == .tenant))
  | 3 => !within idx 0x3000 || !h.hasRegion r || !within (v 0) 0xFFFF8001 || !within (v 1) 0x0FFFFF || !zeroFrom 2
  | 4 => !within idx 0x300F || !h.hasRegion r || !within (v 0) 0x77FFF || !within (v 1) 0xE0000000 || !zeroFrom 2 ||
      h.rf (CSH_WCLAIM r (idx % 16)) cHELD == 0
  | 5 => !within idx 0x7F || !h.hasLane idx || !within (v 0) 0xF0F00000 || !zeroFrom 1 || !linkCfgOk h idx (BitVec.ofNat 32 (v 0))
  | 6 => idx != 0 || !within (v 0) 1 || !zeroFrom 1
  | 7 => idx != 0 || !zeroFrom 12
  | 8 => !(bits idx 15 12 == 0xF || (idx < 0x4000 && h.hasRegion r)) || idx % 4096 != 0 || !zeroFrom 2
  | _ => true

/-- Write a protected item (R400, R401). -/
def lchWrite (h : Hw) (item idx : Nat) (vals : List Nat) : Hw :=
  let v := fun k => vals.getD k 0
  let r := bits idx 13 12
  match item with
  | 1 => forEach (List.range 8) h (fun h n =>
      (h.wr (RWIN_LO r (idx % 16) n) (BitVec.ofNat 32 (v (2 * n)))).wr (RWIN_HI r (idx % 16) n) (BitVec.ofNat 32 (v (2 * n + 1))))
  | 2 => frondReset h idx (if v 0 = 1 then .tenant else .keeper)
  | 3 => (h.wr (XLT_KDIR_LO r) (BitVec.ofNat 32 (v 0))).wr (XLT_KDIR_HI r) (BitVec.ofNat 32 (v 1))
  | 4 =>
      let w := idx % 16
      let n := bits (v 0) 18 16
      let base := 0x10000 + 256 * r
      let lo := if bit (v 1) 31 then v 1 + base + h.rf (CSH_WIN r w) CSH_WIN_FIRST else 0
      let hi := if bit (v 1) 31 then base + h.rf (CSH_WIN r w) CSH_WIN_LAST else 0
      forEach (List.range 15) h (fun h m =>
        if bit (v 0) m then (h.wr (RWIN_LO r m n) (BitVec.ofNat 32 lo)).wr (RWIN_HI r m n) (BitVec.ofNat 32 hi) else h)
  | 5 =>
      let h1 := linkRequestDown h idx
      let h2 := h1.wr (LK_CFG idx) (BitVec.ofNat 32 (v 0))
      { h2 with boot := { h2.boot with shadow := h2.boot.shadow.map (fun s =>
          { s with lanes := s.lanes.filter (fun e => e.toNat % 128 != idx) ++ [BitVec.ofNat 32 (v 0 + idx)] }) } }
  | 6 => h.wf LCH_MAINT LCH_MAINT_CONSENT (v 0)
  | 7 => sessionEnd { (h.sb DBG_STAT DBG_STAT_KEYV) with dbg := { h.dbg with key := some ((vals.take 12).flatMap (beBytes 4)) } } true
  | 8 =>
      let rs := if bits idx 15 12 = 0xF then h.regionList else [r]
      rs.foldl (fun h q => forEach (List.range 64) h (fun h n =>
        h.wf (CS_MATCH q n) CS_MATCH_V (b2n (bit (v (n / 32)) (n % 32))))) h
  | _ => h

/-- LICHEN_APPLY (R402, R411). -/
def lichenApply (h : Hw) : Hw :=
  if h.lcState ≠ lcApply then h
  else
    let item := h.rf LCH_PITEM LCH_PITEM_ITEM
    let idx := h.rf LCH_PITEM LCH_PITEM_INDEX
    let vals := lchVals h
    if lchRefused h item idx vals then
      lchEnd (if item = 5 ∧ h.hasLane idx ∧ !linkCfgOk h idx (BitVec.ofNat 32 (vals.getD 0 0)) then h.sb (LK_STAT idx) LK_STAT_INITF else h) 4
    else lchEnd ((lchWrite h item idx vals).addSat LCH_CNT LCH_CNT_APPLIED 1) 1

/-- Writes of the lichen's other registers (R403 to R405). -/
def lchRegWrite (h : Hw) (off : Nat) (w : Who) (v : W32) : Hw :=
  let a := LCH_STAT + off
  if off = 4 then lchCmdWrite h w v
  else if off = 8 || off = 0xC || off = 0x10 || (0x40 ≤ off && off < 0x80) then
    (if !w.keeperFrond then h.sb LCH_STAT LCH_STAT_PREF
     else if h.lcState ≠ lcIdle then h
     else h.wr a (if off = 8 then v &&& 0xFFFF00FF else v))
  else if off = 0x18 then (if w.keeperSup then h.wr a (v &&& 1) else h)
  else if (0x100 ≤ off && off < 0x130) || (0x140 ≤ off && off < 0x1A0) then (if w.hostPriv then h.wr a v else h)
  else if 0x200 ≤ off && off < 0x230 then (if w.agent == .debugger && w.world == .keeper then h.wr a v else h)
  else if off = 0x1A0 then lchHgo w v h
  else if off = 0x230 then lchDgo w v h
  else if off = 0x24 then (if fldGet LCH_MAINT_BOOTX v = 1 then bootxWrite h w else h)
  else h

end Sys2Proof.Machine
end

