-- ==== Sys2Proof/Machine/Recovery.lean ====
section
/-!
DEFINITION. Errors and region recovery (R348, R414 to R432): triggers, the four phases, kn_fatal, and the two error logs a read pops.
-/
namespace Sys2Proof.Machine

def Hw.recSt (h : Hw) (r : Nat) : RecSt := kvGet RecSt.zero h.recs r
def Hw.setRec (h : Hw) (r : Nat) (x : RecSt) : Hw := { h with recs := kvIns h.recs r x }

/-! ### Triggers (R419) -/

/-- A link enters QUIESCE (R216): frames not yet sent once are discarded, frames held for replay are kept; a LANESET not yet sent waits for the rejoin. -/
def linkQuiesce (h : Hw) (lk : Nat) : Hw :=
  let x := h.link lk
  let h1 := h.setLink lk (if x.newSet.isSome && !x.lsSent then { x with txq := [], ctlq := [], newSet := none, want := some (txWanted h lk) } else { x with txq := [], ctlq := [] })
  if h.lkState lk = lsUp ∨ h.lkState lk = lsChange then linkSetState h1 lk lsQuiesce else h1

/-- Recovery starts (R419, R420): QUIESCE. -/
def recoveryStart (h : Hw) (r cause : Nat) : Hw :=
  let h1 := ((h.wf (RGN_STAT r) RGN_STAT_STATE rpQuiesce).wf (RGN_STAT r) RGN_STAT_CAUSE cause).addSat (RGN_STAT r) RGN_STAT_RCNT 1
  let h2 := ((h1.wf (PWR_STAT r) PWR_STAT_STATE psRun).wr (RGN_DISC r) 0).sb LCH_MAINT LCH_MAINT_RECOV
  let h3 := (frondsOf r).foldl (fun h f => h.setFrond f { h.frond f with lockLine := none, lockWait := none, heldWas := false, presented := none }) h2
  (linksOf r).foldl linkQuiesce (h3.setRec r ⟨h.tb.toNat, cause == 5, 0, 0⟩)

/-- A trigger of a region: it starts recovery in run or idle, is logged and absorbed in recovery, and waits while the region is on its way between power states; in
sleep and off there is none (R419). -/
def recoveryTrigger (h : Hw) (r cause cls unit addr : Nat) : Hw :=
  if !h.hasRegion r then h
  else if h.rgnState r ≠ rpRun then rgnLog h r 7 unit addr
  else if h.inService r then recoveryStart (rgnLog h r cls unit addr) r cause
  else if h.pwrState r = psSleep ∨ h.pwrState r = psOff then h
  else
    let x := h.recSt r
    (rgnLog h r cls unit addr).setRec r { x with want := if x.want = 0 then cause else min x.want cause }

/-- RECOVER (R419): a write of RGN_CMD. -/
def recover (w : Who) (r : Nat) (v : W32) (h : Hw) : Hw :=
  if !h.hasRegion r || fldGet RGN_CMD_RECOVER v ≠ 1 || !(w.keeperSup || w.hostPriv) then h
  else if h.rgnState r ≠ rpRun ∨ h.pwrState r = psSleep ∨ h.pwrState r = psOff then h.sb (RGN_STAT r) RGN_STAT_RREF
  else recoveryTrigger h r 4 7 0xFF 0

/-- REGION_RECOVERY_START (R419, R420): a trigger that waited, or both fronds in LOCKUP with LKREC = 1, takes the region into QUIESCE. -/
def regionRecoveryStart (r : Nat) (h : Hw) : Hw :=
  if !h.inService r || h.rgnState r ≠ rpRun then h
  else if (h.recSt r).want ≠ 0 then recoveryStart h r (h.recSt r).want
  else if (frondsOf r).all (fun f => (h.frond f).run == .lockup) && h.rb (RGN_CTL r) RGN_CTL_LKREC then recoveryTrigger h r 3 6 0xFF 0
  else h

/-- CONTROL_PARITY_ERROR (R418) in a region with power: the unit numbers 0x100 to 0x103 name an entry of the translation cache, of a micro-buffer (64 × local chain + place), of the root cache and of the
pointer cache, which is dropped; any other unit starts recovery. -/
def controlParityError (r unit addr : Nat) (h : Hw) : Hw :=
  if !h.memServed r then h
  else
    let x := h.xlt r
    let cnt := fun (h : Hw) => h.addSat (RGN_ECNT r) RGN_ECNT_CACHE 1
    if unit = 0x100 then cnt (h.setXlt r { x with tc := kvDel x.tc addr })
    else if unit = 0x101 then
      (let ch := 8 * r + addr / 64 % 8
       cnt (h.setChain ch { h.chain ch with ubuf := (h.chain ch).ubuf.eraseIdx (addr % 64) }))
    else if unit = 0x102 then cnt (h.setXlt r { x with root := kvDel x.root addr })
    else if unit = 0x103 then cnt (h.setXlt r { x with ptr := kvDel x.ptr addr })
    else recoveryTrigger h r 1 4 (unit % 256) addr

/-- STREAM_PROTOCOL_ERROR (R26): the beat is discarded and recovery starts; in a region that is entering SLEEP or OFF the trigger waits. -/
def streamProtocolError (r unit addr : Nat) (h : Hw) : Hw := if h.memServed r then recoveryTrigger h r 2 5 (unit % 256) addr else h

/-! ### The phases (R420 to R425) -/

/-- The region a request to licensee memory was made in. -/
def mRegionOf (q : MReq) : Nat := q.port / 2

/-- Every request already issued by a master of the region has been answered (R420). -/
def regionDrained (h : Hw) (r : Nat) : Bool :=
  h.mreqs.all (fun q => mRegionOf q != r) &&
  (List.range 8).all (fun c => (h.chain (8 * r + c)).all.all (fun e => e.accs.all (fun a => a.pieces.isEmpty))) &&
  (frondsOf r).all (fun f => (h.frond f).stores.isEmpty && (match (h.frond f).load with | some l => l.served.isSome | none => true)) &&
  (h.queues.all (fun q => q.1 / 256 != r || q.2.writing.isNone))

/-- Commands of a chain end DISCARDED, with a status decided earlier kept (R424); `g` holds the groups as they stood. -/
def chainDiscard (g h : Hw) (ch : Nat) : Hw :=
  let x := h.chain ch
  let all := x.act ++ x.pend.toList
  let h1 := h.setChain ch { x with act := all.map (fun e => if e.ending.isSome then e else { e with ending := some ⟨4, 0, 0, 0⟩ }), pend := none }
  all.foldl (fun h e => match getExec h ch e.id with | some y => (let sch := (sinkOf g ch e).1; execLeave h ch y (if sch = ch then members g ch e else [(ch, y)]) sch) | none => h) h1

/-- A request handed to the service and not yet begun ends DISCARDED, with the issuing queue as its QUEUE (R424). -/
def svcDiscard (h : Hw) (r : Nat) (x : Nat × Nat × Nat) : Hw :=
  let (q, idx, _) := x
  queueEnded h (svcId q idx) q (some (q, idx)) 0 4 ⟨4, 0, false, 2, h.epoch r, 0, idx, q, 0, 0, 0, 0, 0, r⟩

/-- Queues of a region whose issued commands are about to be discarded (R427). -/
def queuesHit (h : Hw) (r : Nat) : List Nat :=
  ((List.range 8).flatMap (fun c => (h.chain (8 * r + c)).all.filterMap (fun e => if e.ending.isNone then e.fromQ.map (·.1) else none)) ++
   (kvGet [] h.svcQ r ++ kvGet [] h.svcTaken r).map (·.1) ++
   (h.ctxs.filterMap (fun c => match c.2.run with | some u => if c.1 < 4096 ∧ c.1 / 1024 = r ∧ u.ended.isNone then some u.queue else none | none => none))).dedup

/-- DISCARD (R424, R427, R187). -/
def discardAll (h : Hw) (r : Nat) : Hw :=
  let hit := queuesHit h r
  let h0 := if h.rb (RGN_CTL r) RGN_CTL_QHOLD then hit.foldl (fun h q => h.setQueue q { h.queue q with toErr := true }) h else h
  let h1 := forEach ((List.range 8).map (fun c => 8 * r + c)) h0 (chainDiscard h0)
  let h2 := (kvGet [] h.svcTaken r ++ kvGet [] h.svcQ r).foldl (fun h x => svcDiscard h r x) h1
  let h3 := { h2 with svcQ := kvDel h2.svcQ r, svcTaken := kvDel h2.svcTaken r }
  let h4 := h.ctxs.foldl (fun h c => if c.1 < 4096 ∧ c.1 / 1024 = r then rqClose (rqStop h c.1 4 (h.cxRank c.1)) c.1 r (h.cxFrond c.1) .good [] else h) h3
  hit.foldl queueTidy h4

/-- QUIESCE_DRAIN_DONE (R420): the last awaited response has arrived. -/
def quiesceDrainDone (r : Nat) (h : Hw) : Hw :=
  if h.rgnState r = rpQuiesce ∧ regionDrained h r then
    discardAll ((h.wr (RGN_DRAIN r) (BitVec.ofNat 32 (h.tb.toNat - (h.recSt r).since))).wf (RGN_STAT r) RGN_STAT_STATE rpDiscard) r
  else h

/-- A register of a block of a region's frond, but for the lockup capture. -/
def frnReg (f a : Nat) : Bool := decide (a / 0x1000 = 0x20800 + f) && a != FRN_LOCK f && a != FRN_LOCKST f
/-- A register of a region's chains. -/
def chnReg (r a : Nat) : Bool := decide (a / 0x10000 = 0x2020 + r)

/-- Empty the receive buffer of a link: its places and their credits are free again. -/
def rbufClear (h : Hw) (lk : Nat) : Hw := (h.link lk).rbuf.foldl (fun h _ => rbufFree h lk 0) h

/-- A request that a failed drain leaves without a record: its context is HALTED at its current step (R187, R431). -/
def cxStrand (h : Hw) (n : Nat) : Hw :=
  if n < 4096 ∧ h.cxLive n then cxHalted (cxLast h n 4 (h.cxRank n)) n else h

/-- The RESET phase (R420, R431): units reset, caches emptied, fronds in the state of R310, claims of the region's fronds released; of the
contexts what the service held goes, but for the FENCE tokens that a restart waits for. -/
def regionReset (h : Hw) (r : Nat) : Hw :=
  let h1 := xltClear { h with chains := kvKeep (fun ch => ch / 8 != r) h.chains } r
  let h2 := h1.resetRegs (fun a => chnReg r a || frnReg (2 * r) a || frnReg (2 * r + 1) a)
  let h3 := (frondsOf r).foldl (fun h f => frondClear h f (h.frond f).world false) h2
  let h4 := (linksOf r).foldl (fun h lk => let g := rbufClear h lk; g.setLink lk { g.link lk with txq := [], posts := [], strays := [] }) h3
  let h5 := h4.ctxs.foldl (fun h c => if c.1 / 1024 = r then cxStrand h c.1 else h) (releaseClaims h4 (fun a => a / 2 == r && decide (a < 8)))
  { h5 with
    trace := kvKeep (fun f => f / 2 != r) h5.trace
    mbxK := kvDel h5.mbxK r
    mbxT := kvDel h5.mbxT r
    svcQ := kvDel h5.svcQ r
    svcTaken := kvDel h5.svcTaken r
    queues := h5.queues.map (fun q => if q.1 / 256 = r then (q.1, { q.2 with joins := [], ended := [], writing := none, wrErr := false, toErr := false }) else q)
    ctxs := h5.ctxs.map (fun c => if c.1 / 1024 = r ∨ c.1 = 4096 + r then (c.1, { CtxSt.empty with fences := c.2.fences, sub := c.2.sub }) else c) }

/-- A region enters HALTED (R423, R430); RECOV stands while some region is in recovery (R412). -/
def regionHalt (h : Hw) (r : Nat) : Hw :=
  let h1 := (h.wf (RGN_STAT r) RGN_STAT_STATE rpHalted).wf MEU_STAT MEU_STAT_HALTED (Nat.lor (h.rf MEU_STAT MEU_STAT_HALTED) (2 ^ r))
  if h1.regionList.any (inRecovery h1) then h1 else h1.wf LCH_MAINT LCH_MAINT_RECOV 0

/-- DISCARD_DONE (R420): every record of DISCARD is written; RESET. -/
def discardDone (r : Nat) (h : Hw) : Hw :=
  if h.rgnState r = rpDiscard ∧
     h.queues.all (fun q => (q.1 / 256 != r || (q.2.writing.isNone && q.2.joins.isEmpty)) &&
       q.2.joins.all (fun j => match j.recd with | some rc => rc.status != 4 | none => true)) ∧
     h.mreqs.all (fun q => mRegionOf q != r) then
    regionReset ((h.wf (RGN_STAT r) RGN_STAT_STATE rpReset).setRec r { h.recSt r with clear := h.tb.toNat }) r
  else h

/-- The EPOCH frame of a rejoining link (R202, R216). -/
def epochFrame (new old : Nat) : Frame :=
  { Frame.blank with typ := ftEPOCH, epoch := new, len := 2, payload := [BitVec.ofNat 8 new, BitVec.ofNat 8 old] }

/-- A link that is up rejoins with the new epoch: EPOCH is its first sequenced frame, and it returns to UP (R216). -/
def linkRejoin (new : Nat) (h : Hw) (lk : Nat) : Hw :=
  if h.lkUp lk then
    let x := h.link lk
    let h1 := (h.wf (LK_STAT lk) LK_STAT_TXEP new).setLink lk { x with ctlq := epochFrame new (h.rf (LK_STAT lk) LK_STAT_TXEP) :: x.ctlq }
    let h2 := if h.lkState lk = lsQuiesce then linkSetState h1 lk lsUp else h1
    if x.newSet.isNone then sendWanted h2 lk else h2
  else h

/-- RESET takes 100 CK_A ticks (R420). -/
def resetOver (h : Hw) (r : Nat) : Bool := h.rgnState r == rpReset && decide (100 ≤ (h.tb - BitVec.ofNat 64 (h.recSt r).clear).toNat)

/-- REJOIN (R420, R422, R430): the end of RESET. -/
def rejoin (r : Nat) (h : Hw) : Hw :=
  if !resetOver h r then h
  else if (h.recSt r).fatal then regionHalt ((linksOf r).foldl linkRequestDown h) r
  else
    let new := (h.epoch r + 1) % 16
    let h1 := ((h.wf (RGN_STAT r) RGN_STAT_STATE rpRun).wf (RGN_STAT r) RGN_STAT_EPOCH new).sb (RGN_STAT r) RGN_STAT_REC
    let h2 := (linksOf r).foldl (linkRejoin new) h1
    let h3 := (frondsOf r).foldl (fun h f => if frondsStarted h then frondStart h f else h) h2
    if h3.regionList.any (inRecovery h3) then h3 else h3.wf LCH_MAINT LCH_MAINT_RECOV 0

/-- The drain limit of QUIESCE has run out at this boundary (R15, R423); DRAIN = 0 waits without limit. -/
def drainDue (h : Hw) (r : Nat) : Bool :=
  let n := h.rf (RGN_CTL r) RGN_CTL_DRAIN
  h.rgnState r == rpQuiesce && n != 0 && h.beatsOver (h.recSt r).since n

/-- DRAIN_TIMEOUT (R423): no record is written, and the region ends HALTED; where the last response has come with it, that is taken (R432). -/
def drainTimeout (r : Nat) (h : Hw) : Hw :=
  if !drainDue h r then h
  else if regionDrained h r then quiesceDrainDone r h
  else
    let mine := h.mreqs.filter (fun q => mRegionOf q == r)
    let h1 := (h.wr (RGN_DRAIN r) (BitVec.ofNat 32 (h.tb.toNat - (h.recSt r).since))).sb (RGN_STAT r) RGN_STAT_DRAINF
    let h2 := { h1 with
      mreqs := h.mreqs.filter (fun q => mRegionOf q != r)
      retired := h.retired ++ mine.filterMap (fun (q : MReq) => q.tag.map (fun t => (q.port, t))) }
    let h4 := (linksOf r).foldl (fun h lk => linkGoDown h lk 1) (regionReset (h2.wf (RGN_STAT r) RGN_STAT_STATE rpReset) r)
    meuLog ((regionHalt h4 r).sb MEU_STAT MEU_STAT_DRAINF) 3 r 0

/-! ### kn_fatal (R348, R430) -/

/-- A frond counts as locked: in LOCKUP, or its region in sleep or off. -/
def countsLocked (h : Hw) (f : Nat) : Bool :=
  (h.frond f).run == .lockup || h.pwrState (f / 2) == psSleep || h.pwrState (f / 2) == psOff

/-- KN_FATAL (R348): every keeper frond is in LOCKUP, at least one of them truly so. -/
def knFatal (h : Hw) : Hw :=
  let ks := (List.range (2 * h.nRegions)).filter (fun f => (h.frond f).world == .keeper)
  if !h.rb SYS_LOCK SYS_LOCK_FATAL && ks.all (countsLocked h) && ks.any (fun f => (h.frond f).run == .lockup) then
    meuLog (h.sb SYS_LOCK SYS_LOCK_FATAL) 4 0 0
  else h

/-- FATAL_RECOVERY (R430): the tick after kn_fatal. -/
def fatalRecovery (h : Hw) : Hw :=
  if !h.rb SYS_LOCK SYS_LOCK_FATAL || h.rb MEU_STAT MEU_STAT_FATAL then h
  else forEach h.regionList (h.sb MEU_STAT MEU_STAT_FATAL) (fun h r =>
    if inRecovery h r then (rgnLog h r 7 0xFF 0).setRec r { h.recSt r with fatal := true }
    else if h.inService r && h.rgnState r == rpRun then recoveryStart h r 5
    else if h.rgnState r == rpRun && h.pwrState r != psSleep && h.pwrState r != psOff then h.setRec r { h.recSt r with want := 5 }
    else h)

/-! ### The logs (R432) -/

/-- Pop the region error log (RGN_LOG_INFO, R432). -/
def rgnLogTake (r : Nat) (h : Hw) : W32 × Hw :=
  match kvGet [] h.rgnLogs r with
  | [] => (0, h)
  | (i, a) :: rest => (i, { h with rgnLogs := kvIns h.rgnLogs r rest }.wr (RGN_LOG_ADDR r) a)

/-- Pop the macro error log (MEU_LOG_INFO). -/
def meuLogTake (h : Hw) : W32 × Hw :=
  match h.meuLogs with
  | [] => (0, h)
  | (i, a) :: rest => (i, { h with meuLogs := rest }.wr MEU_LOG_ADDR a)

end Sys2Proof.Machine
end

