-- ==== Sys2Proof/Machine/Power.lean ====
section
/-!
DEFINITION. The power states of a region (R498 to R506), automatic idle (R502), the sensors and the wear counters (R527 to R530).
-/
namespace Sys2Proof.Machine

def Hw.pw (h : Hw) (r : Nat) : PwrRgn := kvGet PwrRgn.zero h.pwr r
def Hw.setPw (h : Hw) (r : Nat) (x : PwrRgn) : Hw := { h with pwr := kvIns h.pwr r x }
/-- STATE := a code. -/
def pwrTo (h : Hw) (r st : Nat) : Hw := h.wf (PWR_STAT r) PWR_STAT_STATE st

/-- A party that may write the power registers of a region (R500): a keeper-world supervisor frond, or the host with hpN_sreq_priv = 1, and no debug session; macro hardware
writes below this check. -/
def pwrMay (w : Who) : Bool := (w.keeperSup && w.agent != .debugger) || w.hostPriv

/-! ### Entry into SLEEP and OFF (R500) -/

/-- What makes a request wait: a frond of the region in debug halt, or recovery (R419, R469). -/
def pwrMustWait (h : Hw) (r : Nat) : Bool := h.rgnState r != rpRun || (frondsOf r).any (fun f => (h.frond f).run == .debugHalt)

/-- A request is accepted: ENTER. -/
def pwrAccept (h : Hw) (r tgt : Nat) : Hw :=
  ((pwrTo h r psEnter).wf (PWR_STAT r) PWR_STAT_TGT tgt).setPw r { h.pw r with phase := 1, back := h.pwrState r, wait := none, since := h.tb }

/-- SLEEP (1) or OFF (2) as PWR_CTL.CMD: accepted from RUN and IDLE alone; a second request sets REF (R500, R510). -/
def pwrRequest (h : Hw) (r tgt : Nat) : Hw :=
  if !h.inService r || (h.pw r).wait.isSome then h.sb (PWR_STAT r) PWR_STAT_REF
  else if pwrMustWait h r then h.setPw r { h.pw r with wait := some tgt }
  else pwrAccept h r tgt

/-- WAKE as PWR_CTL.CMD (R501, R506). -/
def pwrWakeCmd (h : Hw) (r : Nat) : Hw :=
  if (h.pwrState r = psSleep ∨ h.pwrState r = psOff) ∧ h.rb SYS_LOCK SYS_LOCK_FATAL then h.sb (PWR_STAT r) PWR_STAT_REF else wakeEvent h r 4

/-- A write of PWR_CTL. -/
def pwrCtlWrite (h : Hw) (r : Nat) (w : Who) (v : W32) : Hw :=
  if !h.hasRegion r || !pwrMay w then h
  else
    let h1 := h.wr (PWR_CTL r) (v &&& 0x00FF0100)
    let c := fldGet PWR_CTL_CMD v
    if c = 1 then pwrRequest h1 r 1 else if c = 2 then pwrRequest h1 r 2 else if c = 3 then pwrWakeCmd h1 r else h1

/-- PWR_SLEEP (R500). -/
def pwrSleep (w : Who) (r : Nat) (v : W32) (h : Hw) : Hw := if fldGet PWR_CTL_CMD v = 1 then pwrCtlWrite h r w v else h
/-- PWR_OFF (R500). -/
def pwrOff (w : Who) (r : Nat) (v : W32) (h : Hw) : Hw := if fldGet PWR_CTL_CMD v = 2 then pwrCtlWrite h r w v else h
/-- PWR_WAKE (R501). -/
def pwrWake (w : Who) (r : Nat) (v : W32) (h : Hw) : Hw := if fldGet PWR_CTL_CMD v = 3 then pwrCtlWrite h r w v else h

/-- The fronds of a region are in WAIT, HALT or LOCKUP. -/
def frondsStill (h : Hw) (r : Nat) : Bool :=
  (frondsOf r).all (fun f => (h.frond f).run == .wait || (h.frond f).run == .halt || (h.frond f).run == .lockup)

/-- The conditions of R500. -/
def enterReady (h : Hw) (r : Nat) : Bool :=
  (List.range 8).all (fun c => (h.chain (8 * r + c)).all.isEmpty) &&
  (List.range 256).all (fun q => !sqReady h (256 * r + q)) &&
  h.ctxs.all (fun c => c.1 / 1024 != r || (h.cxState c.1 != csRun && h.cxState c.1 != csFence)) &&
  (h.mat r).march.isNone && frondsStill h r

/-- Tick c (R500): the links of the region are taken down with cause "request". -/
def enterBegin (h : Hw) (r : Nat) : Hw := (linksOf r).foldl linkRequestDown (h.setPw r { h.pw r with phase := 2, mark := h.tb })

/-- ENTER_CONDITIONS_MET (R500): a request that waited is accepted once nothing holds it, and the conditions of an accepted one hold. -/
def enterConditionsMet (r : Nat) (h : Hw) : Hw :=
  match (h.pw r).wait with
  | some tgt =>
    if pwrMustWait h r || !h.inService r then h
    else
      let h1 := pwrAccept h r tgt
      if enterReady h1 r then enterBegin h1 r else h1
  | none => if h.pwrState r = psEnter ∧ (h.pw r).phase = 1 ∧ enterReady h r then enterBegin h r else h

/-- CK_A ticks since a point of TB, saturating at 16 bits. -/
def ticksSince (h : Hw) (t : BitVec 64) : Nat := min 65535 (h.tb - t).toNat

/-- An accepted request is refused: REF, and the region returns to the state it came from (R500). -/
def enterRefuse (h : Hw) (r : Nat) : Hw :=
  (((pwrTo h r (h.pw r).back).wf (PWR_STAT r) PWR_STAT_TGT 0).sb (PWR_STAT r) PWR_STAT_REF).setPw r { h.pw r with phase := 0 }

/-- Every M request of a region is answered. -/
def mDone (h : Hw) (r : Nat) : Bool := h.mreqs.all (fun q => mRegionOf q != r)

/-- Tick d (R500): the last outstanding M request is answered, the caches are emptied and the clocks stop; more than 1,000 ticks after tick c the request is refused instead. -/
def enterDrain (r : Nat) (h : Hw) : Hw :=
  if h.pwrState r = psEnter ∧ (h.pw r).phase = 2 ∧ mDone h r then
    (if ticksSince h (h.pw r).mark > 1000 then enterRefuse h r
     else
      let h1 := xltClear h r
      h1.setPw r { h1.pw r with phase := 3, mark := h.tb })
  else h

/-- The 1,000 ticks in which the conditions of R500 must come to hold are over. -/
def enterLate (h : Hw) (r : Nat) : Bool :=
  h.pwrState r == psEnter && (h.pw r).phase == 1 && decide (1000 ≤ ticksSince h (h.pw r).since) && !enterReady h r

/-- ENTER_TIMEOUT (R500): the conditions have not held in time, or the last answer came too late; the request is refused. -/
def enterTimeout (r : Nat) (h : Hw) : Hw := if enterLate h r then enterRefuse h r else enterDrain r h

/-- The arrays of a region lose their contents, and the repair log is cleared (R62, R74, R498). -/
def arraysOff (h : Hw) (r : Nat) : Hw :=
  let mine := fun (a : Nat) => memRegion a == r
  let h1 := { h with
    mem := kvKeep (fun a => !mine a) h.mem
    marked := kvKeep (fun k => !mine (8 * k)) h.marked
    defd := kvKeep (fun k => !mine (8 * k)) h.defd
    undefBank := h.undefBank.filter (fun b => b / 2048 != r) }
  (h1.setMat r { h1.mat r with repLog := [] }).resetRegs (fun a => a == RPL_STAT r)

/-- The state of the region is saved: 10 ticks have passed since tick d (R500). -/
def commitDue (h : Hw) (r : Nat) : Bool := h.pwrState r == psEnter && (h.pw r).phase == 3 && decide (10 ≤ ticksSince h (h.pw r).mark)

/-- SLEEP_COMMIT (R500): tick d + 10; STATE becomes SLEEP or OFF. -/
def sleepCommit (r : Nat) (h0 : Hw) : Hw :=
  let h := enterDrain r h0
  if commitDue h r then
    let off := h.rf (PWR_STAT r) PWR_STAT_TGT = 2
    let h2 := if off then arraysOff h r else h
    let h3 := (((pwrTo h2 r (if off then psOff else psSleep)).wf (PWR_STAT r) PWR_STAT_TGT 0).wf (PWR_STAT r) PWR_STAT_PREQ 0).sb (PWR_STAT r) PWR_STAT_SDONE
    (h3.wf (PWR_TIME r) PWR_TIME_ENTER (ticksSince h (h.pw r).since)).setPw r { h3.pw r with phase := 0, wake := none }
  else h

/-! ### Waking (R499, R503, R504) -/

/-- Tick 0 of a wake (R503): pwr_req rises and the cause is recorded. -/
def wakeBegin (h : Hw) (r cause : Nat) : Hw :=
  let off := h.pwrState r == psOff
  let h1 := (pwrTo h r psWake).wf (PWR_STAT r) PWR_STAT_PREQ 1
  let h2 := (h1.wf (PWR_WLAST r) PWR_WLAST_TB (h.tb.toNat % 2 ^ 24)).wf (PWR_WLAST r) PWR_WLAST_CAUSE cause
  h2.setPw r { h2.pw r with since := h.tb, fromOff := off, acked := false, cleared := false, wake := none }

/-- WAKE_START (R499, R503, R506). -/
def wakeStart (r : Nat) (h : Hw) : Hw :=
  match (h.pw r).wake with
  | some c =>
    if (h.pwrState r = psSleep ∨ h.pwrState r = psOff) ∧ h.rb SYS_LOCK SYS_LOCK_FATAL = false ∧ h.rb (PWR_STAT r) PWR_STAT_PACK = false then wakeBegin h r c else h
  | none => h

/-- pwr_ack is seen high (R499, R503, R504). -/
def pwrAckSeen (h : Hw) (r : Nat) : Hw :=
  if h.rb (PWR_STAT r) PWR_STAT_PREQ = false ∨ h.rb (PWR_STAT r) PWR_STAT_PACK then h
  else
    let h1 := h.sb (PWR_STAT r) PWR_STAT_PACK
    if h.pwrState r ≠ psWake then h1
    else
      let h2 := if ticksSince h (h.pw r).since > 150 then h1.sb (PWR_STAT r) PWR_STAT_ACKLATE else h1
      h2.setPw r { h2.pw r with acked := true, ackAt := h.tb }

/-- PWR_ACK_FALL (R499): pwr_ack is seen low. -/
def pwrAckFall (r : Nat) (h : Hw) : Hw := if h.hasRegion r && !h.rb (PWR_STAT r) PWR_STAT_PREQ then h.wf (PWR_STAT r) PWR_STAT_PACK 0 else h

/-- A wake from OFF goes on with the clear of R64, in which STATE is POWERUP, 200 ticks after pwr_ack was seen: the VDD ramp and the arrays come before it (R503). -/
def clearBegin (r : Nat) (h : Hw) : Hw :=
  let x := h.pw r
  if h.pwrState r = psWake ∧ x.acked ∧ x.fromOff ∧ !x.cleared ∧ 200 ≤ ticksSince h x.ackAt then pwrTo h r psPowerup else h

/-- POWERUP_CLEAR_DONE (R64): after 6,759 ticks more every word is zero with correct parity; the wake goes on with the clocks and the retained state (R503). -/
def powerupClearDone (r : Nat) (h0 : Hw) : Hw :=
  let h := clearBegin r h0
  if h.pwrState r = psPowerup ∧ (h.pw r).acked ∧ 6959 ≤ ticksSince h (h.pw r).ackAt then (pwrTo h r psWake).setPw r { h.pw r with cleared := true } else h

/-- The region reaches RUN (R503): WDONE, and the length of the wake. -/
def wakeDone (h : Hw) (r : Nat) : Hw :=
  (((pwrTo h r psRun).sb (PWR_STAT r) PWR_STAT_WDONE).wf (PWR_TIME r) PWR_TIME_WAKE (ticksSince h (h.pw r).since)).setPw r
    { h.pw r with acked := false, fromOff := false, cleared := false }

/-- A wake is ready to end (R503, R504): from SLEEP max(300, a + 150) ticks after its tick 0, where pwr_ack was seen at a; from OFF, its clear done, 7,009 ticks after that. -/
def wakeReady (h : Hw) (r : Nat) : Bool :=
  let x := h.pw r
  h.hasRegion r && h.pwrState r == psWake && x.acked && decide (300 ≤ ticksSince h x.since) &&
  (if x.fromOff then x.cleared && decide (7009 ≤ ticksSince h x.ackAt) else decide (150 ≤ ticksSince h x.ackAt))

/-- The bound of a wake's handshake, 100 µs, has passed since pwr_req rose, and pwr_ack was not seen (R442, R504). -/
def ackLate (h : Hw) (r : Nat) : Bool := h.pwrState r == psWake && !h.rb (PWR_STAT r) PWR_STAT_PACK && decide (10000 ≤ ticksSince h (h.pw r).since)

/-- WAKE_ACK_TIMEOUT (R504): the wake is abandoned; at start-up the bound of R442 applies instead. -/
def wakeAckTimeout (r : Nat) (h : Hw) : Hw :=
  if ackLate h r ∧ !h.boot.busy.contains r then
    ((pwrTo h r (if (h.pw r).fromOff then psOff else psSleep)).wf (PWR_STAT r) PWR_STAT_PREQ 0).sb (PWR_STAT r) PWR_STAT_HSTMO
  else h

/-! ### Automatic idle (R502) -/

/-- Every unit of the region named by R502 is idle. -/
def regionIdle (h : Hw) (r : Nat) : Bool :=
  (List.range 8).all (fun c => (h.chain (8 * r + c)).all.isEmpty) &&
  (List.range 256).all (fun q => !sqReady h (256 * r + q)) &&
  (h.xlt r).walks.isEmpty && (h.mat r).march.isNone && frondsStill h r &&
  (frondsOf r).all (fun f => (kvGet TraceQ.empty h.trace f).pkts.isEmpty && (h.frond f).load.isNone && (h.frond f).stores.isEmpty) &&
  mDone h r

/-- The chains, link units, queue engine and host-port movers of a region are idle, as a destructive test in service demands (R67). A link unit with no frame to send or to deliver
and no receive post is idle (DEDUCED: the specification defines no idle link unit). -/
def marchIdle (h : Hw) (r : Nat) : Bool :=
  (List.range 8).all (fun c => (h.chain (8 * r + c)).all.isEmpty) &&
  (linksOf r).all (fun l => (h.link l).txq.isEmpty && (h.link l).rbuf.isEmpty && (h.link l).posts.isEmpty) &&
  (List.range 256).all (fun q => !sqReady h (256 * r + q) && (h.queue (256 * r + q)).joins.isEmpty && (h.queue (256 * r + q)).writing.isNone) &&
  mDone h r

/-- The region may fall idle: it is in RUN, no request for SLEEP or OFF waits, and every unit of R502 is idle. -/
def mayIdle (h : Hw) (r : Nat) : Bool :=
  h.hasRegion r && h.pwrState r == psRun && h.rgnState r == rpRun && (h.pw r).wait.isNone && h.rb (PWR_CTL r) PWR_CTL_AUTOIDLE && regionIdle h r

/-- The idle delay has passed (R502): IDLEDLY × 16 CK_S cycles, of which two ticks hold five; an IDLEDLY of 0 acts as 1. -/
def idleDelay (h : Hw) (r : Nat) : Bool := decide (32 * max 1 (h.rf (PWR_CTL r) PWR_CTL_IDLEDLY) ≤ 5 * (h.pw r).still)

/-- IDLE_ENTRY (R502). -/
def idleEntry (r : Nat) (h : Hw) : Hw :=
  if mayIdle h r && idleDelay h r then (pwrTo h r psIdle).setPw r { h.pw r with still := 0 } else h

/-- A tick counts toward the idle delay while the conditions hold (R502). -/
def stillTick (h : Hw) (r : Nat) : Hw :=
  let n := if mayIdle h r then (h.pw r).still + 1 else 0
  if n = (h.pw r).still then h else h.setPw r { h.pw r with still := n }

/-- IDLE_EXIT (R502). -/
def idleExit (r : Nat) (h : Hw) : Hw := if h.hasRegion r then h.idleLeave r else h

/-! ### Sensors and wear (R527 to R530) -/

/-- SENSOR_SAMPLE (R527): a region's sensors, or for r = 4 the island's; TMAX keeps the highest temperature. -/
def sensorSample (r : Nat) (v : W32) (h : Hw) : Hw :=
  if r = 4 then h.wr (WR_SENS 4) (fldSet WR_SENS_VDDM v 0)
  else if h.hasRegion r then
    let t := fldGet WR_SENS_TEMP v
    let h1 := h.wr (WR_SENS r) v
    if t > h.rf (WR_TMAX r) WR_TMAX_TMAX then h1.wf (WR_TMAX r) WR_TMAX_TMAX t else h1
  else h

/-- A sampled supply is outside the tolerance of R483: VDD (VAON for the island) 0.75 V ± 5 %, VDDM 0.80 V ± 3 %, or 0.50 V ± 3 % while pwr_req and pwr_ack are both 0. -/
def supplyOut (h : Hw) (r : Nat) : Bool :=
  let vdd := h.rf (WR_SENS r) WR_SENS_VDD + 300
  let vddm := h.rf (WR_SENS r) WR_SENS_VDDM + 300
  let run := decide (776 ≤ vddm) && decide (vddm ≤ 824)
  let ret := decide (485 ≤ vddm) && decide (vddm ≤ 515)
  let low := !h.rb (PWR_STAT r) PWR_STAT_PREQ && !h.rb (PWR_STAT r) PWR_STAT_PACK
  decide (vdd < 713) || decide (787 < vdd) || (r != 4 && !(run || (low && ret)))

/-- Keeper microcode judges the last samples once per beat (R528); a sensor that has given no sample yet is passed over. -/
def sensorFlags (h : Hw) (r : Nat) : Hw :=
  if h.rd (WR_SENS r) = 0 then h
  else
    let hot := decide (h.rf (WR_SENS r) WR_SENS_TEMP > 16 * h.rf WR_THR WR_THR_HOT)
    let out := supplyOut h r
    let h1 := if hot then (if r = 4 then h.wf WR_STAT ⟨r, 1⟩ 1 else (h.wf WR_STAT ⟨r, 1⟩ 1).addSat (WR_EVT r) WR_EVT_HOT 1) else h
    if out then (if r = 4 then h1.wf WR_STAT ⟨5 + r, 1⟩ 1 else (h1.wf WR_STAT ⟨5 + r, 1⟩ 1).addSat (WR_EVT r) WR_EVT_VOUT 1) else h1

/-- Beats in an hour, and in a wear interval (R530). -/
def beatsPerHour : Nat := 7200000
def wearInterval : Nat := 7200

/-- One beat of a region's wear (R529, R530): a beat in RUN or IDLE counts toward HOURS, and a beat outside SLEEP and OFF consumes life at AF(T); at the end of an interval whole
hours and whole units of 2^-10 hours go to the counters. -/
def wearBeat (close : Bool) (h : Hw) (r : Nat) : Hw :=
  let (b, e) := kvGet (0, 0) h.wear r
  let b1 := if h.inService r then b + 1 else b
  let e1 := if h.pwrState r = psSleep ∨ h.pwrState r = psOff then e else e + 1024 * Config.lifeFactor (h.rf (WR_SENS r) WR_SENS_TEMP)
  if close then
    let unit := beatsPerHour * 2 ^ 32
    let h1 := h.wr (WR_HOURS r) (h.rd (WR_HOURS r) + BitVec.ofNat 32 (b1 / beatsPerHour))
    let h2 := h1.wr (WR_EQH r) (h1.rd (WR_EQH r) + BitVec.ofNat 32 (e1 / unit))
    { h2 with wear := kvIns h2.wear r (b1 % beatsPerHour, e1 % unit) }
  else { h with wear := kvIns h.wear r (b1, e1) }

/-- The wear counters at a beat boundary (R530). -/
def wearUpdate (h : Hw) : Hw :=
  let close := h.wearBeats + 1 == wearInterval
  let h1 := forEach h.regionList h (wearBeat close)
  { h1 with wearBeats := if close then 0 else h.wearBeats + 1 }

/-- A write of WR_STAT (R528): a keeper-world supervisor frond sets the bits it writes 1. -/
def wrStatWrite (h : Hw) (w : Who) (v : W32) : Hw := if w.keeperFrond then h.wr WR_STAT (h.rd WR_STAT ||| (v &&& 0x3FF)) else h

end Sys2Proof.Machine
end

