-- ==== Sys2Proof/Machine/Regs.lean ====
section
/-!
DEFINITION. The register map (R8 to R11, R511 to R518): which offset holds which register, what a read returns and does, what a write does, and who may make it.
-/
namespace Sys2Proof.Machine

/-! ### Block windows (R515, R516) -/

/-- A register block of R515. -/
inductive Blk where
  | sys | irq | tmr | lch | meu | boot | dbg | pwr
  | mat (r : Nat) | chn (r : Nat) | lnk (r : Nat) | cx (r : Nat) | qe (r : Nat) | hp (n : Nat) | xlt (r : Nat) | frn (f : Nat)
  | cs (r : Nat) | rgn (r : Nat) | db (r : Nat)
deriving DecidableEq, Repr

/-- The block whose window holds a privileged offset, and the offset inside it. -/
def blockOf (h : Hw) (a : Nat) : Option (Blk × Nat) :=
  let b := a / 0x100000
  let r := a / 0x10000 % 16
  let k := a / 0x1000 % 256
  let small := a % 0x100000 < 0x1000
  let o := a % 0x10000
  let reg := fun (x : Blk) => if h.hasRegion r then some (x, o) else none
  match b with
  | 0x200 => if small then some (.sys, o) else none
  | 0x201 => reg (.mat r)
  | 0x202 => reg (.chn r)
  | 0x203 => reg (.lnk r)
  | 0x204 => if h.hasRegion (a % 0x100000 / 0x40000) then some (.cx (a % 0x100000 / 0x40000), a % 0x40000) else none
  | 0x205 => reg (.qe r)
  | 0x206 => if h.hasPort k then some (.hp k, a % 0x1000) else none
  | 0x207 => reg (.xlt r)
  | 0x208 => if h.hasFrond k then some (.frn k, a % 0x1000) else none
  | 0x209 => reg (.cs r)
  | 0x20A => if r = 0 then some (.irq, o) else none
  | 0x20B => if small then some (.tmr, o) else none
  | 0x20C => if small then some (.lch, o) else none
  | 0x20D => reg (.rgn r)
  | 0x20E => if small then some (.meu, o) else none
  | 0x20F => if small then some (.boot, o) else none
  | 0x210 => if h.hasRegion 0 then some (.db 0, a % 0x100000) else none
  | 0x211 => if h.hasRegion 1 then some (.db 1, a % 0x100000) else none
  | 0x212 => if h.hasRegion 2 then some (.db 2, a % 0x100000) else none
  | 0x213 => if h.hasRegion 3 then some (.db 3, a % 0x100000) else none
  | 0x218 => if small then some (.dbg, o) else none
  | 0x219 => if small then some (.pwr, o) else none
  | _ => none

/-- The region of a block in a region's domain (R515). -/
def blkRegion : Blk → Option Nat
  | .mat r => some r | .chn r => some r | .lnk r => some r | .cx r => some r | .qe r => some r | .hp n => some (n / 2) | .xlt r => some r
  | .frn f => some (f / 2) | .cs r => some r | .rgn r => some r | .db r => some r
  | .sys => none | .irq => none | .tmr => none | .lch => none | .meu => none | .boot => none | .dbg => none | .pwr => none

/-- A block of the always-on island. -/
def blkIsland : Blk → Bool
  | .sys => true | .tmr => true | .lch => true | .boot => true | .dbg => true | .pwr => true
  | .irq => false | .meu => false | .mat _ => false | .chn _ => false | .lnk _ => false | .cx _ => false | .qe _ => false | .hp _ => false
  | .xlt _ => false | .frn _ => false | .cs _ => false | .rgn _ => false | .db _ => false

/-- A keeper-only offset of a block (R518). -/
def keeperOnly : Blk → Nat → Bool
  | .mat _, _ => true | .lnk _, _ => true | .hp _, _ => true | .xlt _, _ => true | .cs _, _ => true | .rgn _, _ => true
  | .lch, _ => true | .meu, _ => true | .pwr, _ => true
  | .dbg, o => !(decide (0x400 ≤ o) && decide (o < 0x500))
  | .sys, _ => false | .irq, _ => false | .tmr, _ => false | .boot, _ => false | .chn _, _ => false | .cx _, _ => false | .qe _, _ => false
  | .frn _, _ => false | .db _, _ => false

/-! ### Registers of a block -/

/-- An entry of a table of registers. -/
def tabAt (t : List (Nat × RegInfo)) (o : Nat) : Option RegInfo := kvFind t o

/-- The register at an offset of a block; none where the window holds none or its resource is absent (R516). -/
def infoOf (h : Hw) (b : Blk) (o : Nat) : Option RegInfo :=
  let within := fun (lo hi : Nat) => decide (lo ≤ o) && decide (o < hi) && o % 4 == 0
  match b with
  | .sys => tabAt sysTab o
  | .mat _ =>
    if within 0x100 0x200 then (if o % 16 = 0 then some info_CSH_WCLAIM else if o % 16 = 4 then some info_CSH_WIN else none)
    else if within 0x400 0x7C0 then (if o % 8 = 0 then some info_RWIN_LO else some info_RWIN_HI)
    else tabAt matTab o
  | .chn _ => if o < 0x2000 then tabAt chnTab (o % 0x400) else none
  | .lnk _ =>
    if o < 0x800 then tabAt lnTab (o % 0x40)
    else if 0x1000 ≤ o ∧ o < 0x1800 then tabAt lkTab (o % 0x40)
    else if 0x2000 ≤ o then tabAt lnrTab (o - 0x2000)
    else none
  | .cx _ =>
    if o < 0x10000 then tabAt cxTab (o % 0x40)
    else if o < 0x10800 then tabAt rlyTab (o % 8)
    else if 0x20000 ≤ o then tabAt cxsTab (o - 0x20000)
    else none
  | .qe _ => if o < 0x4000 then tabAt qeTab (o % 0x40) else none
  | .hp n => if o = 0 ∧ n % 2 = 1 then some ⟨0xFFC0, 0x0, 0x0, false⟩ else tabAt hpTab o
  | .xlt _ => tabAt xltTab o
  | .frn _ => tabAt frnTab o
  | .cs _ => if o = 0 then some info_CS_LOAD else if within 0x100 0x200 then some info_CS_MATCH else if within 0x200 0x290 then some info_CS_ATTR else none
  | .irq =>
    if o = 0 then some info_IRQ_CTL else if o = 4 then some info_IRQ_STAT
    else if within 0x100 0x140 then some info_IRQ_PEND
    else if within 0x140 0x180 then some info_IRQ_EN
    else if within 0x180 0x1C0 then some info_IRQ_ACT
    else if within 0x1C0 0x200 then some info_IRQ_DEFER
    else if within 0x200 0x240 then some info_IRQ_HOFF
    else if within 0x240 0x280 then some info_IRQ_GRPHOLD
    else if within 0x300 0x400 then (if h.hasFrond ((o - 0x300) / 0x20) then some info_IRQ_STK else none)
    else if within 0x400 0x420 then (if h.hasFrond ((o - 0x400) / 4) then some info_IRQ_STKD else none)
    else if within 0x1000 0x3000 ∧ srcExists h.cfg ((o - 0x1000) / 16) then
      (match o % 16 with
       | 0 => some info_IRQ_SCLAIM
       | 4 => some info_IRQ_CFG
       | 8 => some info_IRQ_VEC
       | _ => some info_IRQ_CNT)
    else none
  | .tmr => if o < 0x800 then tabAt tmrTab (o % 0x40) else tabAt tmbTab o
  | .lch =>
    if within 0x40 0x80 then some info_LCH_PVAL
    else if within 0x80 0x90 then some info_LCH_SALT
    else if within 0xC0 0xF0 then some info_LCH_DIG
    else if within 0x100 0x130 then some info_LCH_HDIG
    else if within 0x140 0x1A0 then some info_LCH_HSIG
    else if within 0x200 0x230 then some info_LCH_DDIG
    else tabAt lchTab o
  | .rgn _ => tabAt rgnTab o
  | .meu => tabAt meuTab o
  | .boot => tabAt bootTab o
  | .db _ => tabAt dbTab (o % 0x1000)
  | .dbg =>
    if within 0x20 0x40 then some info_DBG_NONCE
    else if within 0x40 0xA4 then some info_DBG_PUB
    else if within 0x100 0x180 then
      (if !h.hasFrond ((o - 0x100) / 16) then none
       else match o % 16 with
        | 0 => some info_DBG_FCTL
        | 4 => some info_DBG_FSTAT
        | 8 => some info_DBG_FPC
        | _ => some info_DBG_TCTL)
    else if within 0x200 0x240 then (if h.hasFrond ((o - 0x200) / 8) then some (if o % 8 = 0 then info_DBG_TEN_LO else info_DBG_TEN_HI) else none)
    else if within 0x300 0x310 then some info_DBG_TPKT
    else if within 0x400 0x500 then
      (if !h.hasRegion ((o - 0x400) / 0x40) then none
       else match o % 0x40 with
        | 0 => some info_TS_CLAIM
        | 4 => some info_TS_CTL
        | 8 => some info_TS_BASE_LO
        | 0xC => some info_TS_BASE_HI
        | 0x10 => some info_TS_WR
        | 0x14 => some info_TS_STAT
        | _ => none)
    else if within 0x500 0x560 then some info_DBG_SIG
    else tabAt dbgTab o
  | .pwr =>
    if o < 0x80 then (if h.hasRegion (o / 0x20) then tabAt pwrTab (o % 0x20) else none)
    else if within 0x200 0x280 then (if h.hasRegion ((o - 0x200) / 0x20) then tabAt wrTab (o % 0x20) else none)
    else if o = 0x280 then tabAt wrTab 0
    else tabAt pwrTab o

/-! ### Values -/

/-- FRN_STAT.STATE. -/
def runCode : FrondRun → Nat
  | .reset => 0 | .run => 1 | .wait => 2 | .halt => 3 | .debugHalt => 4 | .lockup => 5

/-- FRN_STAT (R328, R331, R305). -/
def frnStat (h : Hw) (f : Nat) : W32 :=
  let x := h.frond f
  fldSet FRN_STAT_STATE (fldSet FRN_STAT_WORLD (fldSet FRN_STAT_S (fldSet FRN_STAT_RPI (fldSet FRN_STAT_PBAR (fldSet FRN_STAT_RASD
    (fldSet FRN_STAT_PC 0 x.lastPc.toNat) x.ras.length) (b2n x.pbar)) (b2n x.repBusy)) (b2n (stS x.st && x.run != .reset))) (worldBit x.world)) (runCode x.run)

/-- One half of IRQ_STK: entry n of a frond's priority stack, entry 0 at the bottom (R368). -/
def stkHalf (h : Hw) (f n : Nat) : Nat :=
  match (h.frond f).pstack.reverse[n]? with
  | some (s, p) => 2 ^ 15 + p % 16 * 2 ^ 9 + s % 512
  | none => 0

/-- The word of a register that a status or memory of the block computes; none where the register file holds it. -/
def computed (h : Hw) (w : Who) (b : Blk) (o a : Nat) : Option W32 :=
  match b with
  | .frn f => if o = 0 then some (frnStat h f) else none
  | .irq =>
    if o = 4 then some (fldSet IRQ_STAT_OUT (h.rd a) ((List.range 4).foldl (fun n k => n + 2 ^ k * b2n (knIrqOut h k)) 0))
    else if 0x300 ≤ o ∧ o < 0x400 then
      (let f := (o - 0x300) / 0x20
       let e := o % 0x20 / 4
       some (BitVec.ofNat 32 (stkHalf h f (2 * e) + 2 ^ 16 * stkHalf h f (2 * e + 1))))
    else if 0x400 ≤ o ∧ o < 0x420 then some (BitVec.ofNat 32 (h.frond ((o - 0x400) / 4)).pstack.length)
    else if 0x1000 ≤ o ∧ o % 16 = 4 then some (fldSet ⟨9, 1⟩ (h.rd a) (b2n (srcIsLevel h ((o - 0x1000) / 16))))
    else if 0x1000 ≤ o ∧ o % 16 = 12 ∧ srcIsLevel h ((o - 0x1000) / 16) then some 0
    else none
  | .tmr =>
    if o = 0x900 then some (lo32 h.tb)
    else if o = 0x904 then some (hi32 h.tb)
    else if o = 0x908 then some (kvGet 0 h.snaps (snapKey w))
    else none
  | .mat r =>
    if o = 0x28 then some (suspPop r h).1
    else if o = 0x54 then some (repairPop r h).1
    else if o = 0x5C then some (rmapData h r 0)
    else if o = 0x60 then some (rmapData h r 1)
    else none
  | .rgn r => if o = 0xC then some (rgnLogTake r h).1 else none
  | .meu => if o = 8 then some (meuLogTake h).1 else none
  | .xlt r => if o = 4 then some (fldSet XLT_STAT_MAINT (h.rd (XLT_STAT r)) (b2n (maint h))) else none
  | .lnk r =>
    if 0x1000 ≤ o ∧ o < 0x1800 ∧ o % 0x40 = 8 then
      (let lk := 32 * r + (o - 0x1000) / 0x40
       if h.rb (LK_CFG lk) LK_CFG_EN then none else some (fldSet LK_STAT_STATE (h.rd a) lsDown))
    else none
  | .hp n =>
    if o = 0xC then
      some (fldSet HP_OUT_SOUT (h.rd a) (((h.po n).rd.filter (·.last)).length + (h.po n).rsp.length +
        h.pwr.foldl (fun c p => c + (p.2.held.filter (fun (q : HeldReq) => q.port == n)).length) 0))
    else none
  | .dbg =>
    if 0x100 ≤ o ∧ o < 0x180 ∧ o % 16 = 4 then
      (let x := h.frond ((o - 0x100) / 16)
       some (fldSet DBG_FSTAT_STATE (fldSet DBG_FSTAT_WORLD (fldSet DBG_FSTAT_HALTED (h.rd a) (b2n (x.run == .debugHalt))) (worldBit x.world)) (runCode x.run)))
    else if 0x100 ≤ o ∧ o < 0x180 ∧ o % 16 = 8 then
      (let x := h.frond ((o - 0x100) / 16)
       some (fldSet DBG_FPC_RPI (x.dfpc.setWidth 32) (b2n x.dfrpi)))
    else if o = 0x310 then some (BitVec.ofNat 32 h.dbg.fifo.length)
    else none
  | .sys => none | .chn _ => none | .cx _ => none | .qe _ => none | .cs _ => none | .lch => none | .boot => none | .db _ => none | .pwr => none

/-- What a read of a privileged offset of a mapped window returns, without its effect (R8, R10, R516). -/
def regPeek (h : Hw) (w : Who) (a : Nat) : W32 :=
  match blockOf h a with
  | none => 0
  | some (b, o) =>
    match infoOf h b o with
    | none => 0
    | some i => ((computed h w b o a).getD (h.rd a)) &&& ~~~i.wo

/-- A register whose read has an effect (R462): RC and pop registers, TMR_CAP and TB_LO. -/
def readActs (h : Hw) (a : Nat) : Bool :=
  match blockOf h a with
  | none => false
  | some (b, o) =>
    match infoOf h b o with
    | none => false
    | some i => i.rc != 0 ||
      (match b with
       | .mat _ => o == 0x28 || o == 0x54
       | .rgn _ => o == 0xC
       | .meu => o == 8
       | .tmr => o == 0x900 || (o < 0x800 && o % 0x40 == 0x20)
       | .dbg => o == 0x300
       | _ => false)

/-- The effect of a read in the privileged view (R8, R70, R74, R389, R392, R428, R432, R475): `sets` are the bits hardware sets in the same cycle (R9). -/
def readEffect (h : Hw) (w : Who) (a : Nat) (sets : W32) : Hw :=
  match blockOf h a with
  | none => h
  | some (b, o) =>
    match infoOf h b o with
    | none => h
    | some i =>
      let rc := fun (h : Hw) => if i.rc = 0 then h else h.wr a ((h.rd a &&& ~~~i.rc) ||| (sets &&& i.rc))
      match b with
      | .mat r => if o = 0x28 then (suspPop r h).2 else if o = 0x54 then (repairPop r h).2 else rc h
      | .rgn r => if o = 0xC then (rgnLogTake r h).2 else rc h
      | .meu => if o = 8 then (meuLogTake h).2 else rc h
      | .tmr => if o = 0x900 then tbLoRead w h else if o < 0x800 && o % 0x40 == 0x20 then tmrCapRead (o / 0x40) false h else rc h
      | .dbg => if o = 0x300 then tpktPop h else rc h
      | _ => rc h

/-- A read in the privileged view with its effect: the word it returns. -/
def regRead (h : Hw) (w : Who) (a : Nat) (sets : W32) : W32 × Hw :=
  let isPkt := (blockOf h a) == some (Blk.dbg, 0x300)
  let h1 := readEffect h w a sets
  let v := if isPkt then h1.rd (DBG_TPKT 0) else regPeek h w a
  (v, { h1 with busRd := v })

/-! ### Writes -/

/-- The task write of the beat (R17): a 1 marks the tasks of the beat done. -/
def beatTaskDone (_w : Who) (v : W32) (h : Hw) : Hw := if fldGet SYS_BEATST_TASK v = 1 then h.wf SYS_BEATST SYS_BEATST_TASK 0 else h

/-- A write of a trace control or enable register (R472, R473): the session and keeper-world supervisors; EN rising emits a SYNC packet. -/
def traceWrite (h : Hw) (f a : Nat) (w : Who) (v : W32) : Hw :=
  let may := match w.agent with
    | .debugger => w.world == .keeper || (h.frond f).world == .tenant
    | _ => w.keeperSup
  if !may then h
  else if a = DBG_TCTL f then
    let was := h.rb a DBG_TCTL_EN
    let h1 := h.wr a ((h.rd a &&& 0xFFFF0000) ||| (v &&& 3))
    if !was && fldGet DBG_TCTL_EN v == 1 then traceSync h1 f else h1
  else h.wr a v

/-- Fields that any admitted agent sets (R8). -/
def plainWrite (h : Hw) (a : Nat) (i : RegInfo) (v : W32) : Hw := if i.rw = 0 then h else h.wr a ((h.rd a &&& ~~~i.rw) ||| (v &&& i.rw))

/-- Fields that keeper-world supervisors and the loader set. -/
def keeperWrite (h : Hw) (a : Nat) (i : RegInfo) (w : Who) (v : W32) : Hw := if w.keeperSup then plainWrite h a i v else h

/-- A write of a word of the debug block (R455 to R458, R464 to R468, R472, R476). -/
def dbgWrite (h : Hw) (o a : Nat) (i : RegInfo) (w : Who) (v : W32) : Hw :=
  let probe := w.agent == .debugger
  let f := (o - 0x100) / 16
  let r := (o - 0x400) / 0x40
  if o = 4 then (if probe && w.world == .keeper then plainWrite h a i v else h)
  else if o = 8 then (if probe then authWrite h v else h)
  else if 0x40 ≤ o ∧ o < 0xA4 then (if probe then h.wr a v else h)
  else if 0x500 ≤ o ∧ o < 0x560 then (if probe then h.wr a v else h)
  else if 0x100 ≤ o ∧ o < 0x180 then
    (if o % 16 = 0 then (if probe then fctlWrite h f v else h)
     else if o % 16 = 8 then (if probe then fpcWrite h f v else h)
     else if o % 16 = 12 then traceWrite h f a w v
     else h)
  else if 0x200 ≤ o ∧ o < 0x240 then traceWrite h ((o - 0x200) / 8) a w v
  else if 0x400 ≤ o ∧ o < 0x500 then
    (match o % 0x40 with
     | 0 => tsClaimWrite h r w v
     | 4 => tsEnable w r v h
     | 8 => tsBaseWrite h r a w v
     | 0xC => tsBaseWrite h r a w v
     | _ => h)
  else h

/-- A write of a word of the power block (R500, R501, R528, R530). -/
def pwrWrite (h : Hw) (o a : Nat) (i : RegInfo) (w : Who) (v : W32) : Hw :=
  if o < 0x80 then (if o % 0x20 = 0 then pwrCtlWrite h (o / 0x20) w v else if pwrMay w then plainWrite h a i v else h)
  else if 0x200 ≤ o ∧ o < 0x2A0 then (if w.keeperFrond then plainWrite h a i v else h)
  else if o = 0x2C0 then keeperWrite h a i w v
  else if o = 0x2C4 then wrStatWrite h w v
  else h

/-- A write of a word of the timer block (R381, R387, R395 to R397). -/
def tmbWrite (h : Hw) (o a : Nat) (i : RegInfo) (w : Who) (v : W32) : Hw :=
  if o < 0x800 then
    (let c := o / 0x40
     if o % 0x40 = 0 then tmrClaimWrite h c w v else tmrRegWrite h c (o % 0x40) w v)
  else match o with
    | 0x800 => staggerGo w v h
    | 0x804 => plainWrite h a i v
    | 0xA00 => wdtCtlWrite h w v
    | 0xA04 => keeperWrite h a i w v
    | 0xA08 => keeperWrite h a i w v
    | 0xA0C => wdtSvc w v h
    | _ => h

/-- A write of a word of the interrupt controller (R359 to R361, R373 to R375). -/
def irqWrite (h : Hw) (o a : Nat) (i : RegInfo) (w : Who) (v : W32) : Hw :=
  let g := o % 0x40 / 4
  if o = 0 then keeperWrite h a i w v
  else if 0x100 ≤ o ∧ o < 0x140 then irqPendWrite h g w v
  else if 0x140 ≤ o ∧ o < 0x180 then irqEnWrite h g w v
  else if 0x200 ≤ o ∧ o < 0x240 then keeperWrite h a i w v
  else if 0x240 ≤ o ∧ o < 0x280 then grpHoldWrite h g w v
  else if 0x1000 ≤ o ∧ o < 0x3000 then
    (if o % 16 = 0 then irqSclaimWrite h ((o - 0x1000) / 16) w v else irqSrcWrite h ((o - 0x1000) / 16) (o % 16) w v)
  else h

/-- A write of a word of a link block (R193, R218, R220, R225, R226). -/
def lnkWrite (h : Hw) (r o a : Nat) (i : RegInfo) (w : Who) (v : W32) : Hw :=
  if o < 0x800 then
    (let l := 32 * r + o / 0x40
     match o % 0x40 with
     | 0 => lnCtlWrite h l w v
     | 0x20 => ltClaimWrite h l w v
     | 0x24 => ltCtlWrite h l w v
     | _ => h)
  else if 0x1000 ≤ o ∧ o < 0x1800 then (if o % 0x40 = 4 then lkCtlWrite h (32 * r + (o - 0x1000) / 0x40) w v else h)
  else if 0x2000 ≤ o then lnrWrite h a w v i.rw
  else h

/-- A write of a mat register (R60, R61, R69): the region windows the loader alone. -/
def matWriteReg (h : Hw) (r o a : Nat) (i : RegInfo) (w : Who) (v : W32) : Hw :=
  if o = 0x40 then mchCtlWrite h r w v (marchIdle h r) false
  else if 0x100 ≤ o ∧ o < 0x200 then
    (if o % 16 = 0 then cshClaimWrite h r ((o - 0x100) / 16) w v else if o % 16 = 4 then cshWinWrite h r ((o - 0x100) / 16) w v else h)
  else if 0x400 ≤ o ∧ o < 0x7C0 then (if w.agent == .loader then h.wr a (v &&& BitVec.ofNat 32 (if o % 8 = 0 then rwinLoMask else rwinHiMask)) else h)
  else plainWrite h a i v

/-- A write of a word of a queue block (R246, R251). -/
def qeWrite (h : Hw) (r o a : Nat) (w : Who) (v : W32) : Hw :=
  let q := 256 * r + o / 0x40
  if o % 0x40 = 0 then (if fldGet SQ_CFG_EN v = 1 then queueEnable w q v h else queueDisable w q v h)
  else if o % 0x40 < 0x14 then sqBaseWrite h q a w v
  else h

/-- A write of a privileged offset (R8): the writers each register names, and the effect its chapter gives it. -/
def regWrite (h : Hw) (w : Who) (a : Nat) (v : W32) : Hw :=
  match blockOf h a with
  | none => h
  | some (b, o) =>
    match infoOf h b o with
    | none => h
    | some i =>
      match b with
      | .sys => if o = 0xC then beatTaskDone w v h else h
      | .mat r => matWriteReg h r o a i w v
      | .chn r => if o % 0x400 = 0 then chnCtlWrite w (8 * r + o / 0x400) v h else h
      | .lnk r => lnkWrite h r o a i w v
      | .cx r =>
        if o < 0x10000 then cxeWrite h (1024 * r + o / 0x40) (o % 0x40) w v
        else if o < 0x20000 then rlyWrite h a r w v
        else if o = 0x20000 then plainWrite h a i v
        else if o = 0x20008 then cxHalt w r v h
        else h
      | .qe r => qeWrite h r o a w v
      | .hp _ => plainWrite h a i v
      | .xlt r =>
        if 8 ≤ o ∧ o < 0x18 then xltDirWrite w a v h
        else if o = 0x20 then xltInvGo w r v h
        else plainWrite h a i v
      | .frn _ => h
      | .cs _ => h
      | .irq => irqWrite h o a i w v
      | .tmr => tmbWrite h o a i w v
      | .lch => lchRegWrite h o w v
      | .rgn r => if o = 0 then keeperWrite h a i w v else if o = 4 then recover w r v h else h
      | .meu => plainWrite h a i v
      | .boot => h
      | .db r => (let q := 256 * r + o / 0x1000; if o % 0x1000 = 0 then dbSq w q v h else dbCq w q v h)
      | .dbg => dbgWrite h o a i w v
      | .pwr => pwrWrite h o a i w v

/-! ### Views and grants (R332, R333, R517, R518) -/

/-- An offset of the unprivileged view, as its privileged twin. -/
def twin (a : Nat) : Nat := a - 0x8000000
def inPriv (a : Nat) : Bool := decide (0x20000000 ≤ a) && decide (a < 0x28000000)
def inUnpriv (a : Nat) : Bool := decide (0x28000000 ≤ a) && decide (a < 0x30000000)

/-- A read in the unprivileged view: zero where it holds no register, and never an effect (R332, R517). -/
def unprivRead (h : Hw) (w : Who) (a : Nat) : W32 :=
  match blockOf h (twin a) with
  | none => 0
  | some (b, o) =>
    match infoOf h b o with
    | none => 0
    | some i => if i.unpriv then regPeek h w (twin a) else 0

/-- A write in the unprivileged view: the doorbells alone (R332, R517). -/
def unprivWrite (h : Hw) (w : Who) (a : Nat) (v : W32) : Hw :=
  match blockOf h (twin a) with
  | some (.db _, _) => regWrite h w (twin a) v
  | _ => h

/-- The block of a region answers (R448, R501, R515): its region is in service or on its way into sleep. -/
def blkServed (h : Hw) (b : Blk) : Bool :=
  match blkRegion b with
  | some r => h.memServed r
  | none => true

/-- The clocks a register access needs run: those of the register fabric, or for the debugger and macro hardware at an island block CK_A alone (R491, R495). -/
def fabricRuns (h : Hw) (w : Who) (b : Blk) : Bool :=
  h.porN && (h.clocked || (blkIsland b && (match w.agent with | .debugger => true | .hw => true | .loader => true | _ => false)))

/-- The configuration loader writes registers in step 4 of a start alone (R442), before any frond runs (R60). -/
def loaderActs (h : Hw) : Bool := h.rf BOOT_STAT BOOT_STAT_STEP == 4

/-- The writer or reader is one the block knows: a frond under its assigned world, a session of its level, a port of the configuration, and the loader during a start. -/
def whoValid (h : Hw) (w : Who) : Bool :=
  match w.agent with
  | .frond f => h.hasFrond f && (h.frond f).world == w.world
  | .host => h.hasPort w.port
  | .debugger => h.rf DBG_STAT DBG_STAT_SESS == (if w.world == .keeper then 1 else 2)
  | .hw => true
  | .loader => loaderActs h

/-- The grants of R333, R514 and R518 for the privileged view. -/
def privGrant (h : Hw) (w : Who) (b : Blk) (o : Nat) : Bool :=
  whoValid h w &&
  (match w.agent with
   | .frond _ => w.sup && !(w.world == .tenant && keeperOnly b o)
   | .host => w.sup
   | .debugger => w.world == .keeper || !keeperOnly b o || b == .dbg
   | .hw => true
   | .loader => true)

/-- The host's access to a register of a region in recovery waits, but for doorbell writes (R421). -/
def hostWaits (h : Hw) (w : Who) (b : Blk) (write : Bool) : Bool :=
  w.agent == .host && (match blkRegion b with | some r => inRecovery h r | none => false) && !(write && (match b with | .db _ => true | _ => false))

/-- An agent's access to a privileged offset goes through now. -/
def regGrant (h : Hw) (w : Who) (a : Nat) (write : Bool) : Bool :=
  match blockOf h a with
  | none => false
  | some (b, o) => blkServed h b && fabricRuns h w b && privGrant h w b o && !hostWaits h w b write

/-- A write of RGN_CMD of region r is a recovery request (R419): one that the host makes during recovery and one to a region in SLEEP or OFF are requests too, and refused. -/
def recGrant (h : Hw) (w : Who) (r : Nat) : Bool :=
  h.hasRegion r && fabricRuns h w (.rgn r) && privGrant h w (.rgn r) 4 && (h.memServed r || h.pwrState r == psSleep || h.pwrState r == psOff)

/-- REGISTER_WRITE (R8): a write of either view. -/
def registerWrite (w : Who) (a : Nat) (v : W32) (h : Hw) : Hw :=
  if inPriv a then (if regGrant h w a true then regWrite h w a v else h)
  else if inUnpriv a then
    (match blockOf h (twin a) with
     | some (b, _) => if blkServed h b && fabricRuns h w b && whoValid h w then unprivWrite h w a v else h
     | none => h)
  else h

/-- RC_FIELD_READ (R8, R9): a read of either view; in the privileged view with its effect. -/
def rcFieldRead (w : Who) (a : Nat) (sets : W32) (h : Hw) : Hw :=
  if inPriv a then (if regGrant h w a false then (regRead h w a sets).2 else h)
  else if inUnpriv a then
    (match blockOf h (twin a) with
     | some (b, _) => if blkServed h b && fabricRuns h w b && whoValid h w then { h with busRd := unprivRead h w a } else h
     | none => h)
  else h

end Sys2Proof.Machine
end

