-- ==== Sys2Proof/Machine/Boot.lean ====
section
/-!
DEFINITION. Resets and clocks (R431, R489 to R496), and the start-up sequence from the Alvos image (R433 to R449).
-/
namespace Sys2Proof.Machine

/-! ### The Alvos image (R436 to R441) -/

/-- A byte of the flash; a byte the flash does not give reads 0xFF. -/
def imgB (img : List Byte) (i : Nat) : Byte := img.getD i 0xFF
/-- `n` bytes from an offset. -/
def imgBytes (img : List Byte) (off n : Nat) : List Byte :=
  let got := (img.drop off).take n
  got ++ List.replicate (n - got.length) 0xFF
/-- A little-endian field. -/
def imgLE (img : List Byte) (off n : Nat) : Nat := leNat (imgBytes img off n)

/-- A used entry of the section table (R437). -/
structure Sect where
  typ : Nat
  off : Nat
  len : Nat
deriving DecidableEq, Repr

/-- The used entries. -/
def imgSects (img : List Byte) : List Sect :=
  (List.range (imgLE img 0x11 1)).map (fun i => ⟨imgLE img (0x40 + 8 * i) 1, imgLE img (0x41 + 8 * i) 3, imgLE img (0x44 + 8 * i) 4⟩)
/-- The content of the section of a type; none when it is absent. -/
def imgSect (img : List Byte) (t : Nat) : Option (List Byte) := ((imgSects img).find? (fun s => s.typ == t)).map (fun s => imgBytes img s.off s.len)

/-- Two sections overlap. -/
def sectMeet (a b : Sect) : Bool := decide (a.off < b.off + b.len) && decide (b.off < a.off + a.len)

/-- ILEN and the section table are well formed (R436, R437, R440, code 0x16). -/
def imgTableOk (img : List Byte) : Bool :=
  let ilen := imgLE img 8 4
  let ss := imgSects img
  ilen % 16 == 0 && decide (0x260 ≤ ilen) && decide (ilen ≤ 0x100000) && decide (imgLE img 0x11 1 ≤ 16) &&
  ss.all (fun s => decide (1 ≤ s.typ) && decide (s.typ ≤ 9) && s.off % 16 == 0 && decide (0x200 ≤ s.off) && decide (s.off + s.len ≤ ilen - 96)) &&
  decide ((ss.map (·.typ)).Nodup) && decide (ss.Pairwise (fun a b => sectMeet a b = false)) &&
  (imgBytes img (0x40 + 8 * imgLE img 0x11 1) (8 * (16 - imgLE img 0x11 1))).all (· == 0)

/-- The image suits the macro (R439). -/
def imgSuits (h : Hw) (img : List Byte) : Bool :=
  let k := match h.cfg with | .kn4S => 0 | .kn4M => 1 | .kn4L => 2
  let ident := (h.rd SYS_IDENT).toNat
  let target := imgLE img 0xC 4
  bit (imgLE img 0x10 1) k && (if (imgSect img 2).isSome then target == ident else target / 256 == ident / 256)

/-- Zero-required bits of the header and the key block are zero (R437, R438). -/
def imgHeaderOk (img : List Byte) : Bool :=
  decide (imgLE img 6 2 < 128) && decide (imgLE img 0x10 1 < 8) && (imgBytes img 0x20 0x20).all (· == 0) && (imgBytes img 0xC0 0x40).all (· == 0) &&
  (imgBytes img 0x169 7).all (· == 0) && (imgBytes img 0x1D0 48).all (· == 0)

/-- 32-bit little-endian words of a byte string. -/
def wordsLE (bs : List Byte) (n : Nat) : List Nat := (List.range n).map (fun i => imgLE bs (4 * i) 4)

/-- An attribute byte has UONLY and WLD alone. -/
def attrsOk (bs : List Byte) : Bool := bs.all (fun b => decide (b.toNat < 8))

/-- The patch section (R440): attribute bytes, match entries, words. -/
def patchOk (bs : List Byte) : Bool :=
  let np := imgLE bs 0 2
  let nm := imgLE bs 2 2
  decide (8 ≤ bs.length) && decide (np ≤ 1024) && decide (nm ≤ 64) && bs.length == 8 + 4 * nm + 32 * np && attrsOk (imgBytes bs 4 4) &&
  (wordsLE (bs.drop 8) nm).all (fun v => bits v 15 10 == 0)
/-- The customer microcode section (R440). -/
def custOk (bs : List Byte) : Bool :=
  decide (32 ≤ bs.length) && (bs.length - 32) % 32 == 0 && decide ((bs.length - 32) / 32 ≤ 8192) && attrsOk (bs.take 32)

/-- A repair map entry: its region, cushion bit, bank and row. -/
structure RepEnt where
  r    : Nat
  cush : Bool
  bank : Nat
  row  : Nat
deriving DecidableEq, Repr

def repEnt (v : Nat) : RepEnt := ⟨bits v 31 30, bit v 29, bits v 28 19, bits v 18 10⟩
def repEnts (bs : List Byte) : List RepEnt := (wordsLE bs (bs.length / 4)).map repEnt

/-- The repair map (R440, R441, R72, code 0x1A). -/
def repairOk (h : Hw) (bs : List Byte) : Bool :=
  let es := repEnts bs
  bs.length % 4 == 0 && decide (bs.length / 4 ≤ 4096) && (wordsLE bs (bs.length / 4)).all (fun v => v % 1024 == 0) &&
  es.all (fun e => h.hasRegion e.r && (!e.cush || decide (e.bank ≤ 63)) && decide (e.row < dataRows e.cush) &&
    decide ((es.filter (fun x => x.r == e.r && x.cush == e.cush && x.bank == e.bank)).length ≤ spareCount e.cush)) &&
  decide es.Nodup

/-- The registers that an image's records may name (R441, code 0x1D): the privileged view but for the CS, LCH, BOOT and debug blocks. -/
def recOk (a : Nat) : Bool :=
  a % 4 == 0 && inPriv a && a / 0x100000 != 0x209 && a / 0x100000 != 0x20C && a / 0x100000 != 0x20F && a / 0x100000 != 0x218
def recsOf (bs : List Byte) : List (Nat × W32) :=
  (List.range (bs.length / 8)).map (fun i => (imgLE bs (8 * i) 4, BitVec.ofNat 32 (imgLE bs (8 * i + 4) 4)))
def recsOk (bs : List Byte) : Bool := bs.length % 8 == 0 && decide (bs.length / 8 ≤ 8192) && (recsOf bs).all (fun e => recOk e.1)

/-- The world assignment (R440, R441, code 0x1B). -/
def worldsOk (h : Hw) (bs : List Byte) : Bool :=
  let v := imgLE bs 0 1
  let n := 2 ^ (2 * h.nRegions)
  bs.length == 1 && decide (v < n) && v != n - 1

/-- Fields of LK_CFG. -/
def lkCfgMask : W32 := 0xF0F00000
/-- The lane plan (R440, R441, R218, code 0x1C), each entry judged beside those before it. -/
def lanesOk (h : Hw) (vs : List W32) : Bool :=
  (vs.foldl (fun (acc : Hw × Bool) v =>
    let lk := v.toNat % 128
    (acc.1.wr (LK_CFG lk) (v &&& lkCfgMask), acc.2 && acc.1.hasLane lk && (v &&& 0x0F0FFF80) == 0 && linkCfgOk acc.1 lk (v &&& lkCfgMask)))
    ({ h with regs := [] }, true)).2
def planOf (bs : List Byte) : List W32 := (wordsLE bs (bs.length / 4)).map (BitVec.ofNat 32)

/-- A context default: its number and its twelve words. -/
def ctxsOf (bs : List Byte) : List (Nat × List W32) :=
  (List.range (bs.length / 52)).map (fun i => (imgLE bs (52 * i) 2, (wordsLE (imgBytes bs (52 * i + 4) 48) 12).map (BitVec.ofNat 32)))
/-- The writable bits of words +0x00 to +0x2C of a context entry. -/
def ctxMasks : List W32 :=
  [0xE0F10FFF, 0xFFE003FF, 0xF8FFFF7F, 0x1FFFFFC0, 0x1FFFF000, 0xFFFF, 0x1FFFFFC0, 0xFFFFFF, 0x1FFFF000, 0xFFFF, 0xFFFFFFFF, 0xFFFFFFFF]
/-- The loader as the writer of a register. -/
def loaderWho : Who := { agent := .loader, world := .keeper, sup := true }
/-- Write a context default: words +0x04 to +0x2C before +0x00 (R442). -/
def ctxApply (h : Hw) (e : Nat × List W32) : Hw :=
  cxeWrite ((List.range 11).foldl (fun h k => cxeWrite h e.1 (4 * (k + 1)) loaderWho (e.2.getD (k + 1) 0)) h) e.1 0 loaderWho (e.2.getD 0 0)
/-- The context defaults, each judged after those before it, are such that the table takes them (R441, R166, code 0x1E), under the world assignment of the image. -/
def bootCtxOk (h : Hw) (worlds : Nat) (es : List (Nat × List W32)) : Bool :=
  let blank : Hw := { h with
    regs := []
    ctxs := []
    fronds := (List.range 8).map (fun f => (f, { Frond.zero with world := if bit worlds f then .tenant else .keeper })) }
  (es.foldl (fun (acc : Hw × Bool) e =>
    (ctxApply acc.1 e, acc.2 && h.hasCtx e.1 && (List.range 12).all (fun k => (e.2.getD k 0 &&& ~~~(ctxMasks.getD k 0)) == 0) &&
      (fldGet CXE_CTL_V (e.2.getD 0 0) == 0 || (acc.1.cxState e.1 == csFree && (ctxApply acc.1 e).cxState e.1 != csFree)))) (blank, true)).2
def ctxsOk (h : Hw) (worlds : Nat) (bs : List Byte) : Bool :=
  bs.length % 52 == 0 && decide (bs.length / 52 ≤ 256) && (List.range (bs.length / 52)).all (fun i => imgLE bs (52 * i + 2) 2 == 0) &&
  bootCtxOk h worlds (ctxsOf bs)

/-- The lichen key is a point of P-384 (R440, code 0x1F). -/
def keyOk (bs : List Byte) : Bool := imgB bs 0 == 4 && Config.p384Valid (imgBytes bs 1 96)

/-- The test of a section's content; an absent section is not judged. -/
def sectOk (img : List Byte) (t : Nat) (p : List Byte → Bool) : Bool := match imgSect img t with | some bs => p bs | none => true

/-- The checks of the first read, in the order of their codes (R447); none for an image that passes. -/
def imgFault (h : Hw) (img : List Byte) : Option Nat :=
  let ilen := imgLE img 8 4
  let worlds := match imgSect img 5 with | some bs => imgLE bs 0 1 | none => 0
  if imgBytes img 0 4 ≠ [0x41, 0x4C, 0x56, 0x53] then some 0x13
  else if imgLE img 4 2 ≠ 0x0100 then some 0x14
  else if imgSuits h img = false then some 0x15
  else if imgTableOk img = false then some 0x16
  else if Config.ecdsaVerify Config.rootKey (Config.sha384 (imgBytes img 0x100 0x70)) (imgBytes img 0x170 96) = false then some 0x17
  else if Config.ecdsaVerify (imgBytes img 0x100 97) (Config.sha384 (imgBytes img 0 (ilen - 96))) (imgBytes img (ilen - 96) 96) = false then some 0x18
  else if (imgHeaderOk img && sectOk img 2 patchOk && sectOk img 3 custOk && sectOk img 9 (fun bs => bs.length == 48) &&
      sectOk img 8 (fun bs => bs.length == 112 && (bs.drop 97).all (· == 0))) = false then some 0x19
  else if sectOk img 1 (repairOk h) = false then some 0x1A
  else if sectOk img 5 (worldsOk h) = false then some 0x1B
  else if sectOk img 6 (fun bs => bs.length % 4 == 0 && decide (bs.length / 4 ≤ 128) && lanesOk h (planOf bs)) = false then some 0x1C
  else if sectOk img 4 recsOk = false then some 0x1D
  else if sectOk img 7 (ctxsOk h worlds) = false then some 0x1E
  else if sectOk img 8 keyOk = false then some 0x1F
  else none

/-- What the always-on island keeps of an accepted image (R442). -/
def shadowOf (img : List Byte) : Shadow :=
  let sec := fun t => (imgSect img t).getD []
  let fl := imgLE img 6 2
  { march := bit fl 0, mreg := bits fl 4 1, repair := bit fl 5, mfail := bit fl 6, lwait := imgLE img 0x12 1, bootT := imgLE img 0x13 1,
    node := imgLE img 0x18 8, worlds := match imgSect img 5 with | some bs => imgLE bs 0 1 | none => 0,
    lanes := planOf (sec 6), recs := recsOf (sec 4), ctxs := ctxsOf (sec 7), digP := Config.sha384 (sec 2), digC := Config.sha384 (sec 3),
    hasP := (imgSect img 2).isSome, hasC := (imgSect img 3).isSome }

/-! ### Failure (R447, R448) -/

def Hw.bootStep (h : Hw) : Nat := h.rf BOOT_STAT BOOT_STAT_STEP
def bootTo (h : Hw) (s : Nat) : Hw := h.wf BOOT_STAT BOOT_STAT_STEP s

/-- Every frond in reset and every link DOWN. -/
def holdAll (h : Hw) : Hw :=
  let h1 := forEach (List.range (2 * h.nRegions)) h (fun h f => frondClear h f (h.frond f).world false)
  forEach (List.range (32 * h.nRegions)) h1 (fun h lk => if h.lkState lk = lsDown then h else linkGoDown h lk 1)

/-- The start fails with a code. -/
def bootFail (h : Hw) (code : Nat) : Hw :=
  let h1 := holdAll ((bootTo h 0xF).wf BOOT_STAT BOOT_STAT_CODE code)
  { h1.wr BOOT_TIME (bootTicks h1) with boot := { h1.boot with bootx := false, busy := [] } }

/-- No key is loaded. -/
def keysNone (h : Hw) : Hw :=
  let h1 := ((h.wf DBG_STAT DBG_STAT_KEYV 0).wf BOOT_STAT BOOT_STAT_DBGK 0).wf BOOT_STAT BOOT_STAT_LCHK 0
  { h1 with
    lchKey := none
    dbg := { h1.dbg with key := none } }

/-- A slot fails step 1 (R435, R447): slot A is followed by slot B, and slot B ends the start. -/
def slotFail (h : Hw) (code : Nat) : Hw :=
  if h.rf BOOT_STAT BOOT_STAT_SLOT = 0 then (h.wf BOOT_STAT BOOT_STAT_CODEA code).wf BOOT_STAT BOOT_STAT_SLOT 1
  else bootFail (keysNone h) code

/-! ### Steps 4 to 6 (R442, R443, R445) -/

/-- A register that rst_n resets (R431 and the reset of each block). The region windows, the repair log and XLT_KDIR keep their values (R60, R74, R260), and so does a claim register,
which changes by a release alone (R35; DEDUCED, log 12, where a block's text resets all its registers). -/
def rstRegs (a : Nat) : Bool :=
  let b := a / 0x100000
  let o := a % 0x10000
  if b = 0x201 then !(decide (0x400 ≤ o) && decide (o < 0x7C0)) && o != 0x50 && o != 0x54 && !(decide (0x100 ≤ o) && decide (o < 0x200) && o % 16 == 0)
  else if b = 0x203 then !(decide (o < 0x800) && o % 0x40 == 0x20)
  else if b = 0x207 then o != 0x08 && o != 0x0C
  else if b = 0x20A then !(decide (0x240 ≤ o) && decide (o < 0x280)) && !(decide (0x1000 ≤ o) && o % 16 == 0)
  else b == 0x202 || b == 0x204 || b == 0x205 || b == 0x206 || b == 0x208 || b == 0x210 || b == 0x211 || b == 0x212 ||
    b == 0x213 || a == SYS_LOCK

/-- Write one record; a warm start skips a register that keeps its value through rst_n (R443, R445). -/
def recApply (warm : Bool) (h : Hw) (e : Nat × W32) : Hw := if warm && !rstRegs e.1 then h else regWrite h loaderWho e.1 e.2

/-- One entry of the lane plan to LK_CFG (R218). -/
def laneApply (h : Hw) (v : W32) : Hw :=
  let lk := v.toNat % 128
  if !h.hasLane lk then h
  else if linkCfgOk h lk (v &&& lkCfgMask) then h.wr (LK_CFG lk) (v &&& lkCfgMask)
  else h.sb (LK_STAT lk) LK_STAT_INITF

/-- Step 4 (R442): LOADER, then the writes in order. -/
def bootWrites (h : Hw) (s : Shadow) (warm : Bool) : Hw :=
  let h0 := h.sb LCH_MAINT LCH_MAINT_LOADER
  let h1 := if warm then h0 else forEach (List.range (2 * h.nRegions)) h0 (fun h f => frondClear h f (if bit s.worlds f then .tenant else .keeper) false)
  let h2 := forEach h.regionList h1 (fun h r => (h.wr (LNK_NODE_LO r) (BitVec.ofNat 32 s.node)).wr (LNK_NODE_HI r) (BitVec.ofNat 32 (s.node / 2 ^ 32)))
  let h3 := s.lanes.foldl laneApply h2
  let h4 := s.recs.foldl (recApply warm) h3
  s.ctxs.foldl ctxApply h4

/-- Steps 4 and 5: the fronds start, and step 6 waits for the links. -/
def bootRun (h : Hw) : Hw :=
  match h.boot.shadow with
  | none => h
  | some s =>
    let warm := h.rb BOOT_STAT BOOT_STAT_WARM
    let h1 := bootTo (bootWrites (bootTo { h with boot := { h.boot with bootx := true } } 4) s warm) 5
    let h2 := forEach (List.range (2 * h.nRegions)) h1 frondStart
    bootLinksUp (bootTo { h2 with boot := { h2.boot with reached := true, step5 := h2.tb } } 6)

/-- A 32-byte control-store word. -/
def csWord (bs : List Byte) (off : Nat) : BitVec 256 := BitVec.ofNat 256 (leNat (imgBytes bs off 32))

/-- The control store of a region from sections 0x02 and 0x03 (R288 to R293, R440). -/
def csLoad (h : Hw) (r : Nat) (p c : List Byte) : Hw :=
  let np := if p = [] then 0 else imgLE p 0 2
  let nm := if p = [] then 0 else imgLE p 2 2
  let nc := (c.length - 32) / 32
  let ram := kvKeep (fun k => k / 65536 != r) h.csRam
  let ram1 := (List.range nc).foldl (fun m i => kvIns m (r * 65536 + 0x8000 + i) (csWord c (32 + 32 * i))) ram
  let ram2 := (List.range np).foldl (fun m i => kvIns m (r * 65536 + 0xA000 + i) (csWord p (8 + 4 * nm + 32 * i))) ram1
  let h1 := forEach (List.range 64) { h with csRam := ram2 } (fun h n => h.wr (CS_MATCH r n) (if n < nm then BitVec.ofNat 32 (imgLE p (8 + 4 * n) 4) else 0))
  let h2 := forEach (List.range 36) h1 (fun h b =>
    h.wr (CS_ATTR r b) (BitVec.ofNat 32 (if b < 32 then (if c = [] then 0 else (imgB c b).toNat) else (if p = [] then 0 else (imgB p (4 + b - 32)).toNat))))
  ((h2.wf (CS_LOAD r) CS_LOAD_CUSTW nc).wf (CS_LOAD r) CS_LOAD_PATCHW np).sb (CS_LOAD r) CS_LOAD_VALID

/-- Step 3 ends once every region it powers is in RUN and, in a cold start, the second read is checked (R442). -/
def bootStep3 (h : Hw) : Hw :=
  if h.bootStep = 3 ∧ h.boot.busy = [] ∧ h.boot.read2 then
    bootRun (if h.rb BOOT_STAT BOOT_STAT_WARM then h else forEach h.regionList h (fun h r => csLoad h r h.boot.secsP h.boot.secs))
  else h

/-! ### Regions at start-up (R442, R444, R445) -/

/-- Regions of a list that are not yet in RUN or IDLE. -/
def notUp (h : Hw) (rs : List Nat) : List Nat := rs.filter (fun r => !h.memServed r)

/-- Raise pwr_req for a region in off or sleep. -/
def startPower (h : Hw) (r : Nat) : Hw := if h.pwrState r = psOff ∨ h.pwrState r = psSleep then wakeBegin h r 5 else h

/-- Step 3 begins: every region that is not in run is powered. -/
def bootBegin3 (h : Hw) : Hw :=
  let rs := notUp h h.regionList
  bootStep3 (rs.foldl startPower { bootTo h 3 with boot := { h.boot with busy := rs } })

/-- Regions that the march of this start covers. -/
def marchRegions (h : Hw) : List Nat :=
  match h.boot.shadow with
  | some s => if s.march then h.regionList.filter (bit s.mreg) else []
  | none => []

/-- Step 2 powers the next region in ascending order (R442). -/
def bootNext2 (h : Hw) : Hw :=
  match (notUp h (marchRegions h)).find? (fun r => !h.rb (PWR_STAT r) PWR_STAT_PACK) with
  | some r => startPower h r
  | none => h

/-- Steps 2 and 3 follow step 1. -/
def bootAfter1 (h : Hw) : Hw :=
  let rs := marchRegions h
  if rs = [] then bootBegin3 h else bootNext2 { bootTo h 2 with boot := { h.boot with busy := notUp h rs } }

/-- PWR_ACK_RISE (R499, R503, R442). -/
def pwrAckRise (r : Nat) (h : Hw) : Hw :=
  if !h.hasRegion r then h
  else
    let h1 := pwrAckSeen h r
    if h1.bootStep = 2 ∧ h1.boot.busy.contains r then bootNext2 h1 else h1

/-- A failing data row that no good spare serves (R444). -/
def rowUnrepaired (h : Hw) (r : Nat) (row : Bool × Nat × Nat) : Bool := decide (row.2.2 < dataRows row.1) && !rowServed h r row.1 row.2.1 row.2.2

/-- The start-up march of one region ends: every word zero with correct parity, and the region runs (R67, R444); whether a row stayed unrepaired. -/
def startMarch (run : MarchRun) (fails : List (Nat × MarchFail)) (acc : Hw × Bool) (r : Nat) : Hw × Bool :=
  let (h1, run1) := ((fails.filter (fun e => e.1 == r)).map (·.2)).foldl (marchFail r run.gfirst run.glast) (acc.1, run)
  let h2 := marchRunEnd r [] [] ((h1.setMat r { h1.mat r with march := some run1 }).wf (MCH_STAT r) MCH_STAT_GROUP 0)
  (if h2.pwrState r = psPowerup ∨ h2.pwrState r = psWake then wakeDone h2 r else h2, acc.2 || run1.rows.any (fun e => rowUnrepaired h1 r e.1))

/-- STARTUP_MARCH_DONE (R442, R444). -/
def startupMarchDone (fails : List (Nat × MarchFail)) (h : Hw) : Hw :=
  match h.boot.shadow with
  | none => h
  | some s =>
    if h.bootStep ≠ 2 ∨ (marchRegions h).any (fun r => !h.rb (PWR_STAT r) PWR_STAT_PACK) then h
    else
      let (h1, bad) := (marchRegions h).foldl (startMarch ⟨true, s.repair, 1, none, 0, 16, false, 0, h.tb.toNat, []⟩ fails) (h, false)
      if bad && s.mfail then bootFail h1 0x21 else bootBegin3 h1

/-- STARTUP_POWER_HANDSHAKE_TIMEOUT (R442). -/
def startupPowerHandshakeTimeout (r : Nat) (h : Hw) : Hw :=
  if h.boot.busy.contains r && ackLate h r then
    (if h.bootStep = 2 then bootFail h 0x22 else if h.bootStep = 3 then bootFail h 0x31 else h)
  else h

/-! ### Step 1 and the second read (R434, R442) -/

/-- FLASH_COMMAND_DONE (R434): discovery ends with the mode of the read. -/
def flashCommandDone (octal : Bool) (h : Hw) : Hw :=
  if h.bootStep = 1 ∧ h.boot.flash = 0 then
    { h.wf BOOT_STAT BOOT_STAT_OCT (b2n octal) with boot := { h.boot with flash := if octal then 2 else 1 } }
  else h

/-- FLASH_COMMAND_TIMEOUT (R442). -/
def flashCommandTimeout (h : Hw) : Hw :=
  if h.bootStep = 1 then slotFail h 0x12
  else if h.bootStep = 3 ∧ !h.boot.read2 then bootFail h 0x33
  else h

/-- The repair map of an image fills the map, spares in ascending order (R71, R72); a row the map already replaces keeps its spare. -/
def repairFill (h : Hw) (e : RepEnt) : Hw :=
  if (List.range (spareCount e.cush)).any (fun s => rmapGet h e.r e.cush e.bank s % 2 ^ 14 == e.row && bit (rmapGet h e.r e.cush e.bank s) 15) then h
  else match freeSpare h e.r e.cush e.bank with
    | some s => rmapSet h e.r e.cush e.bank s (2 ^ 15 + e.row)
    | none => h

/-- An image is accepted (R442): map, keys, shadow and the BOOT registers. -/
def imgAccept (h : Hw) (img : List Byte) : Hw :=
  let s := shadowOf img
  let h1 := (repEnts ((imgSect img 1).getD [])).foldl repairFill h
  let lk := (imgSect img 8).map (fun bs => imgBytes bs 0 97)
  let dk := imgSect img 9
  let h2 := ((h1.wf BOOT_STAT BOOT_STAT_LCHK (b2n lk.isSome)).wf BOOT_STAT BOOT_STAT_DBGK (b2n dk.isSome)).wf DBG_STAT DBG_STAT_KEYV (b2n dk.isSome)
  let h3 := ((h2.wr BOOT_IMG (BitVec.ofNat 32 (imgLE img 0x14 4))).wr BOOT_LIC_LO (BitVec.ofNat 32 (imgLE img 0x161 4))).wr BOOT_LIC_HI (BitVec.ofNat 32 (imgLE img 0x165 4))
  let h4 := ((h3.wf BOOT_SHD BOOT_SHD_RECS s.recs.length).wf BOOT_SHD BOOT_SHD_CTXS s.ctxs.length).wf BOOT_SHD BOOT_SHD_LINKS s.lanes.length
  { h4 with
    lchKey := lk
    dbg := { h4.dbg with key := dk }
    boot := { h4.boot with shadow := some s } }

/-- IMAGE_FIRST_READ_DONE (R442): the slot's bytes are judged; an image that passes is shadowed, and step 2 or 3 begins. -/
def imageFirstReadDone (img : List Byte) (h : Hw) : Hw :=
  if h.bootStep ≠ 1 ∨ h.boot.flash = 0 ∨ h.rb CLK_STAT CLK_STAT_PLLLOCK = false then h
  else match imgFault h img with
    | some code => slotFail h code
    | none => bootAfter1 (imgAccept h img)

/-- IMAGE_SECOND_READ_DONE (R442): the digests of step 1 are checked. -/
def imageSecondReadDone (patch cust : List Byte) (h : Hw) : Hw :=
  match h.boot.shadow with
  | none => h
  | some s =>
    if h.bootStep ≠ 3 ∨ h.boot.read2 then h
    else if (s.hasP && Config.sha384 patch != s.digP) || (s.hasC && Config.sha384 cust != s.digC) then bootFail h 0x32
    else bootStep3 { h with boot := { h.boot with read2 := true, secsP := if s.hasP then patch else [], secs := if s.hasC then cust else [] } }

/-- A limit of the image in units of 4 beats, armed at step 5, has run out at this boundary (R15, R437). -/
def bootLimit (h : Hw) (units : Nat) : Bool := h.beatsOver h.boot.step5.toNat (4 * units)

/-- BOOT_LINK_WAIT_EXPIRE (R442): keeper microcode waits no longer for the links. -/
def bootLinkWaitExpire (h : Hw) : Hw :=
  if h.bootStep = 6 ∧ bootLimit h ((h.boot.shadow.map (·.lwait)).getD 0) then { bootTo h 7 with boot := { h.boot with waitEnd := true } }
  else h

/-- BOOTTMO_EXPIRE (R442); a BOOTTMO of 0 means no limit. -/
def boottmoExpire (h : Hw) : Hw :=
  match h.boot.shadow with
  | some s => if (h.bootStep = 6 ∨ h.bootStep = 7) ∧ s.bootT ≠ 0 ∧ bootLimit h s.bootT then bootFail h 0x71 else h
  | none => h

/-! ### Resets and clocks (R489 to R495) -/

/-- A cold start begins (R442): step 1, slot A. -/
def coldStart (h : Hw) : Hw :=
  let h1 := (((bootTo h 1).wf BOOT_STAT BOOT_STAT_SLOT 0).wf BOOT_STAT BOOT_STAT_WARM 0).wf BOOT_STAT BOOT_STAT_CODEA 0
  { h1 with boot := { BootSt.zero with t0 := h1.tb } }

/-- A warm start begins (R445): step 3, with nothing to read. -/
def warmStart (h : Hw) : Hw :=
  bootBegin3 { h.sb BOOT_STAT BOOT_STAT_WARM with boot := { h.boot with t0 := h.tb, waitEnd := false, bootx := false, read2 := true } }

/-- Power-on reset: everything returns to its reset value; the levels of the input pins stand, and the free values go on. -/
def powerOnReset (h : Hw) : Hw :=
  { Hw.reset with
    cfg := h.cfg
    rstN := h.rstN
    testEn := h.testEn
    irqIn := h.irqIn
    tgate := h.tgate
    free := h.free }

/-- POR_ASSERT (R490). -/
def porAssert (h : Hw) : Hw := powerOnReset h
/-- TEST_EN_HIGH (R489). -/
def testEnHigh (h : Hw) : Hw := { powerOnReset h with testEn := true }

/-- POR_RELEASE (R490, R391, R442): the timebase is 0 in this tick, and the core clocks wait for the PLL. -/
def porRelease (h : Hw) : Hw :=
  if h.porN || h.testEn then h
  else
    let h1 : Hw := { h with
      porN := true
      tb := 0
      clkStop := true }
    if h.rstN then coldStart h1 else h1

/-- RST_ASSERT (R491, R446, R410): the outputs go low, and a start or a lichen proposal ends; one that is being applied is applied (R413). -/
def rstAssert (h : Hw) : Hw :=
  if !h.porN || !h.rstN then h
  else
    let h1 := (h.wr SYS_LOCK 0).wf MEU_STAT MEU_STAT_FATAL 0
    let h2 := (h1.wf WDT_STAT WDT_STAT_WDRST (h.rf WDT_STAT WDT_STAT_REQ)).wf WDT_STAT WDT_STAT_REQ 0
    let h3 := ((bootTo h2 0).wf BOOT_STAT BOOT_STAT_CODE 0).wr BOOT_TIME 0
    let h4 := if h3.lcState = lcIdle then h3 else if h3.lcState = lcApply then lichenApply h3 else lchEnd h3 5
    { h4 with
      rstN := false
      boot := { h4.boot with bootx := false, busy := [] } }

/-- A march run that rst_n cuts short is aborted in the group under test (R69). -/
def marchCut (h : Hw) (r : Nat) : Hw :=
  match (h.mat r).march with
  | none => h
  | some run => marchRunEnd r [] [] (h.setMat r { h.mat r with march := some { run with abortReq := true } })

/-- A region at rst_n (R431): its epoch increments, HALTED and recovery end, and its march and suspects are gone; its power state is kept. -/
def rstRegion (h : Hw) (r : Nat) : Hw :=
  let h1 := marchCut h r
  let h2 := (h1.wf (RGN_STAT r) RGN_STAT_EPOCH ((h1.epoch r + 1) % 16)).wf (RGN_STAT r) RGN_STAT_STATE 0
  (h2.setMat r { h2.mat r with bankCnt := [], susp := [] }).setPw r { h2.pw r with wait := none, held := [] }

/-- The state of R431 that rst_n resets. -/
def rstState (h : Hw) : Hw :=
  let h1 := forEach (List.range (2 * h.nRegions)) h (fun h f => frondClear h f (h.frond f).world false)
  let h2 := forEach h.regionList (releaseClaims h1 (fun a => decide (a ≤ 8))) rstRegion
  let h3 := h2.resetRegs rstRegs
  let h4 := (h3.wf MEU_STAT MEU_STAT_HALTED 0).wf LCH_MAINT LCH_MAINT_RECOV 0
  let h5 := if h4.rb WDT_CTL WDT_CTL_EN then (wdtStage h4 1).wf WDT_STAT WDT_STAT_HALTL 0 else h4
  { h5 with
    matResp := none
    mbxK := []
    mbxT := []
    mgmtQ := []
    svcQ := []
    svcTaken := []
    chains := []
    links := []
    lanes := []
    ctxs := []
    queues := []
    mreqs := []
    sresp := []
    out := []
    scred := ((List.range 8).filter (fun p => h5.hasPort p && hpRunning h5 p)).map (fun p => (p, (128, 256)))
    retired := []
    hpAcc := []
    xlts := []
    irqAge := []
    irqHoff := []
    tmrs := h5.tmrs.map (fun t => (t.1, { t.2 with mover := false }))
    recs := [] }

/-- RST_RELEASE (R431, R442, R445, R491). -/
def rstRelease (h : Hw) : Hw :=
  if !h.porN || h.rstN then h
  else
    let h1 := { rstState h with rstN := true }
    if h1.boot.reached then warmStart h1 else coldStart h1

/-- PLL_LOCK (R493, R495): the core PLL locks, or does not within 100 µs of the release of por_n. After a loss of lock the clocks wait for 1,000 ticks more. -/
def pllLock (ok : Bool) (h : Hw) : Hw :=
  if !h.porN || h.rb CLK_STAT CLK_STAT_PLLLOCK then h
  else if ok then { h.sb CLK_STAT CLK_STAT_PLLLOCK with clkStop := h.pllLost, pllAt := h.tb.toNat }
  else if h.bootStep = 1 ∧ 10000 ≤ h.tb.toNat then bootFail h 0x11
  else h

/-- PLL_LOSS_OF_LOCK (R495). -/
def pllLossOfLock (h : Hw) : Hw :=
  if h.porN && h.rb CLK_STAT CLK_STAT_PLLLOCK then { (h.sb CLK_STAT CLK_STAT_LOL).wf CLK_STAT CLK_STAT_PLLLOCK 0 with clkStop := true, pllLost := true } else h

/-- The clocks are due to restart: 1,000 ticks have passed since the PLL relocked (R495). -/
def clockDue (h : Hw) : Bool :=
  h.porN && h.clkStop && h.pllLost && h.rb CLK_STAT CLK_STAT_PLLLOCK && decide (1000 ≤ (h.tb - BitVec.ofNat 64 h.pllAt).toNat)

/-- CLOCK_RESTART (R495): the stopped clocks run again. -/
def clockRestart (h : Hw) : Hw := if clockDue h then { h with clkStop := false, pllLost := false } else h

end Sys2Proof.Machine
end

