-- ==== Sys2Proof/Machine/Masters.lean ====
section
/-!
DEFINITION. The answers a master waits for: mat and cushion accesses (R41 to R59), licensee memory (R229 to R241), and the loads and stores of the fronds (R317 to R319, R514).
-/
namespace Sys2Proof.Machine

/-! ### Register accesses that do not come from the host (R501, R513, R514, R517) -/

/-- An offset of the unprivileged view that names a register (R517): its block. -/
def unprivBlk (h : Hw) (a : Nat) : Option Blk :=
  match blockOf h (twin a) with
  | none => none
  | some (.db r, _) => some (.db r)
  | some (b, o) => match infoOf h b o with
    | some i => if i.unpriv then some b else none
    | none => none

/-- Read a register through its view. -/
def viewRead (h : Hw) (w : Who) (a : Nat) : W32 × Hw :=
  if inPriv a then regRead h w a 0
  else
    let v := unprivRead h w a
    (v, { h with busRd := v })
/-- Write a register through its view. -/
def viewWrite (h : Hw) (w : Who) (a : Nat) (v : W32) : Hw := if inPriv a then regWrite h w a v else unprivWrite h w a v

/-- The cause with which a frond's register access fails, 0 for none: the checks of R514 in order, then the region in service (R501). -/
def lsuRegCause (h : Hw) (world : World) (sup : Bool) (a size : Nat) : Nat :=
  if inPriv a then
    (if !sup then 4
     else match blockOf h a with
      | none => 5
      | some (b, o) =>
        if world = .tenant ∧ keeperOnly b o then 4
        else if size ≠ 4 then 5
        else if blkServed h b then 0 else 5)
  else if size ≠ 4 then 5
  else match unprivBlk h a with
    | some b => if blkServed h b then 0 else 5
    | none => 0

/-! ### Loads and stores of a frond (R317 to R320) -/

/-- The agent of a frond's access. -/
def lsuWho (f : Nat) (world : World) (sup : Bool) : Who := { agent := .frond f, world := world, sup := sup }

/-- An earlier access of the frond to the same target has not taken effect (R318). -/
def lsuBlocked (h : Hw) (f seq tgt : Nat) : Bool :=
  let x := h.frond f
  x.stores.any (fun s => s.served.isNone && decide (s.seq < seq) && lsuTarget h s.pa == tgt) ||
  (match x.load with | some l => l.served.isNone && decide (l.seq < seq) && lsuTarget h l.pa == tgt | none => false)

/-- The access waits for a line lock (R320). -/
def lsuLineWaits (h : Hw) (f pa : Nat) : Bool :=
  match paLocal pa with
  | some off => h.inMem off && lineWaits h (.frond f) off
  | none => false

/-- LSU cause of a mat or cushion status. -/
def matCause (st : Nat) : Nat := if st = 0 then 0 else if st = 1 then 1 else 2

/-- A load at its target in the local space: the value and the cause, 0 for none. -/
def lsuServeLoad (h : Hw) (f : Nat) (l : LsuLoad) (par : Par) (meets : List Meet) : Hw × (W64 × Nat) :=
  let off := l.pa % 2 ^ 52
  match lsuTarget h l.pa with
  | 0 =>
    let (h1, st, data) := memRead h (.frond f) off l.size par meets
    (h1, (if st = 0 then BitVec.ofNat 64 (leNat data) else 0, matCause st))
  | 1 => (h, (BitVec.ofNat 64 (leNat (memGets h.scratch (f * 65536 + off % 65536) l.size)), 0))
  | 2 =>
    let c := lsuRegCause h l.world l.sup off l.size
    if c = 0 then
      (let (v, h1) := viewRead h (lsuWho f l.world l.sup) off
       (h1, (v.setWidth 64, 0)))
    else (h, (0, c))
  | _ => (h, (0, 5))

/-- A store at its target in the local space: the cause, 0 for none. -/
def lsuServeStore (h : Hw) (f : Nat) (s : LsuStore) (par : Par) (meets : List Meet) : Hw × Nat :=
  let off := s.pa % 2 ^ 52
  let bs := (leBytes 8 s.data.toNat).take s.size
  match lsuTarget h s.pa with
  | 0 =>
    let (h1, st) := memWrite h (.frond f) off bs par meets
    (h1, matCause st)
  | 1 => ({ h with scratch := memSets h.scratch (f * 65536 + off % 65536) bs }, 0)
  | 2 =>
    let c := lsuRegCause h s.world s.sup off s.size
    if c = 0 then (viewWrite h (lsuWho f s.world s.sup) off (lo32 s.data), 0) else (h, c)
  | _ => (h, 5)

/-- Load data or its error reaches the frond (R318, R319). -/
def lsuGive (h : Hw) (f : Nat) (l : LsuLoad) (v : W64) (c : Nat) : Hw :=
  let x := h.frond f
  lsuPump (h.setFrond f { x with
    load := none
    lsuD := if c = 0 then v else 0
    lsuErr := if c = 0 then x.lsuErr else lsuErrWord c l.pa
    loadErr := x.loadErr || c != 0 }) f

/-- A store leaves the buffer; a failure sets LSU.ERR and is owed (R319). -/
def lsuTake (h : Hw) (f : Nat) (s : LsuStore) (c : Nat) : Hw :=
  let x := h.frond f
  lsuPump (h.setFrond f { x with
    stores := x.stores.filter (fun t => t.seq != s.seq)
    lsuErr := if c = 0 then x.lsuErr else lsuErrWord c s.pa
    storeErr := x.storeErr || c != 0 }) f

/-- LSU_LOAD_DONE (R318, R319): the outstanding load is answered; an access to licensee memory waits for its data. -/
def lsuLoadDone (f : Nat) (par : Par) (meets : List Meet) (h : Hw) : Hw :=
  match (h.frond f).load with
  | none => h
  | some l =>
    match l.served with
    | some (v, c) => lsuGive h f l v c
    | none =>
      if lsuTarget h l.pa = 3 ∨ lsuBlocked h f l.seq (lsuTarget h l.pa) = true ∨ lsuLineWaits h f l.pa = true then h
      else
        let (h1, v, c) := lsuServeLoad h f l par meets
        lsuGive h1 f l v c

/-- The oldest store that can be acknowledged. -/
def lsuStoreReady (h : Hw) (f : Nat) : Option LsuStore :=
  (h.frond f).stores.find? (fun s => s.served.isSome ||
    (lsuTarget h s.pa != 3 && !lsuBlocked h f s.seq (lsuTarget h s.pa) && !lsuLineWaits h f s.pa))

/-- LSU_STORE_ACK (R318, R319). -/
def lsuStoreAck (f : Nat) (par : Par) (meets : List Meet) (h : Hw) : Hw :=
  match lsuStoreReady h f with
  | none => h
  | some s =>
    match s.served with
    | some c => lsuTake h f s c
    | none =>
      let (h1, c) := lsuServeStore h f s par meets
      lsuTake h1 f s c

/-! ### The debugger's way in (R460) -/

/-- The level of the open session: 0 none, 1 keeper, 2 tenant. -/
def sessLevel (h : Hw) : Nat := h.rf DBG_STAT DBG_STAT_SESS

/-- A frond that lets the debugger in: in HALT, debug halt or LOCKUP, or held in reset by the loader (R448, R460). -/
def frondOpen (h : Hw) (x : Frond) : Bool := x.run == .halt || x.run == .debugHalt || x.run == .lockup || (x.run == .reset && !frondsStarted h)

def ackOK : Nat := 0
def ackSTATE : Nat := 2
def ackPROT : Nat := 3

/-- The first row of R460: region r in service, its fronds still, and FRN a frond of r that the session may name. -/
def regionAck (h : Hw) (r frn : Nat) : Nat :=
  if sessLevel h = 2 ∧ (h.frond frn).world ≠ .tenant then ackPROT
  else if h.memServed r = false ∨ inRecovery h r = true ∨ h.clocked = false ∨ frn / 2 ≠ r then ackSTATE
  else if (frondsOf r).all (fun f => frondOpen h (h.frond f)) then ackOK
  else ackSTATE

/-! ### MAT_READ and MAT_WRITE (R24, R44 to R59) -/

/-- Two accesses of the local space touch one 64-bit word. -/
def sameWord (a n b m : Nat) : Bool := decide (a / 8 ≤ (b + max 1 m - 1) / 8) && decide (b / 8 ≤ (a + max 1 n - 1) / 8)

/-- Whose turn an access of a chain's master is. -/
inductive Piece where
  | none                                  -- no outstanding access of this master touches these words
  | behind                                -- an earlier one touches them and goes first (R49)
  | turn (e : Exec) (x : Acc)             -- these bytes are the earliest one's next piece
deriving DecidableEq, Repr

/-- The outstanding accesses of some streams of a chain that touch the words of these bytes of the local space, earliest first. -/
def chainTouch (h : Hw) (ch : Nat) (streams : List Nat) (a len : Nat) : List (Exec × Acc) :=
  (h.chain ch).act.flatMap (fun e =>
    (e.accs.filter (fun x => streams.contains x.stream && x.pieces.any (fun p => decide (2 ^ 52 ≤ p.1) && sameWord (p.1 - 2 ^ 52) p.2 a len))).map (fun x => (e, x)))

/-- The access of a chain whose next piece is these bytes: accesses of one master to one word take effect in their order (R49). -/
def chainPiece (h : Hw) (ch : Nat) (streams : List Nat) (a len : Nat) : Piece :=
  match chainTouch h ch streams a len with
  | [] => .none
  | (e, x) :: _ => if x.pieces.head? = some (2 ^ 52 + a, len) then .turn e x else .behind

/-- The status a chain gives a failed access of the mat or the cushion (R108). -/
def chainCause (st : Nat) : Nat := if st = 0 then 0 else if st = 1 then 0x15 else 0x16

/-- A read of the array, with its response. -/
def matReadRaw (h : Hw) (m : Master) (a len : Nat) (par : Par) (meets : List Meet) : Hw :=
  let (h1, st, data) := memRead h m a len par meets
  { h1 with matResp := some ⟨m, st, anyBusy false meets, data⟩ }

/-- A write of the array, with its response. -/
def matWriteRaw (h : Hw) (m : Master) (a : Nat) (data : List (Option Byte)) (par : Par) (meets : List Meet) : Hw :=
  let (h1, st) := memWriteEn h m a data par meets
  { h1 with matResp := some ⟨m, st, anyBusy true meets, []⟩ }

/-- The data that the last response carries, and its status. -/
def matGot (h : Hw) : List Byte × Nat := match h.matResp with | some x => (x.data, x.status) | none => ([], 0)

/-- A master reaches an offset now: it has a path to it (R54), no line lock holds it back (R48), its beat is of the present epoch (R24), and the debugger has a session that may
(R460). -/
def matReach (h : Hw) (m : Master) (a : Nat) (par : Par) : Bool :=
  hasPath h m a && !lineWaits h m a && !staleHit m par &&
  (match m with | .debugger f => sessLevel h != 0 && regionAck h (memRegion a) f == ackOK | _ => true)

/-- A read of one of a chain's fetch masters. -/
def chainRead (h : Hw) (m : Master) (ch : Nat) (streams : List Nat) (a len : Nat) (par : Par) (meets : List Meet) : Hw :=
  match chainPiece h ch streams a len with
  | .turn e x =>
    let h1 := matReadRaw h m a len par meets
    chainsAdvance (accArrive h1 ch e.id x.stream x.item (matGot h1).1 (chainCause (matGot h1).2)) (ch / 8)
  | .behind => h
  | .none => matReadRaw h m a len par meets

/-- A write of a chain's store master writes the bytes of the store that waits for it; a beat that fails its sideband parity is lost, and the segment is read again (R25). -/
def chainWrite (h : Hw) (m : Master) (ch a : Nat) (data : List (Option Byte)) (par : Par) (meets : List Meet) : Hw :=
  match chainPiece h ch [2] a data.length with
  | .turn e x =>
    let h1 := matWriteRaw h m a ((x.data.take data.length).map some) par meets
    let lost := sideHit m a par && (matGot h1).2 == 2
    chainsAdvance (if lost then accLost h1 ch e.id x.item else accArrive h1 ch e.id 2 x.item [] (chainCause (matGot h1).2)) (ch / 8)
  | .behind => h
  | .none => matWriteRaw h m a data par meets

/-- A read of a frond's LSU, which the outstanding load takes when it is of these bytes. -/
def frondRead (h : Hw) (f a len : Nat) (par : Par) (meets : List Meet) : Hw :=
  match (h.frond f).load with
  | some l =>
    if l.pa = 2 ^ 52 + a ∧ l.size = len ∧ l.served = none then
      (if lsuBlocked h f l.seq 0 then h
       else
         let h1 := matReadRaw h (.frond f) a len par meets
         let (data, st) := matGot h1
         let x := h1.frond f
         h1.setFrond f { x with load := some { l with served := some (if st = 0 then BitVec.ofNat 64 (leNat data) else 0, matCause st) } })
    else matReadRaw h (.frond f) a len par meets
  | none => matReadRaw h (.frond f) a len par meets

/-- A write of a frond's LSU: of its buffered stores the one to these bytes that waits. -/
def frondWrite (h : Hw) (f a : Nat) (data : List (Option Byte)) (par : Par) (meets : List Meet) : Hw :=
  match (h.frond f).stores.find? (fun s => s.served.isNone && s.pa == 2 ^ 52 + a && s.size == data.length) with
  | some s =>
    if lsuBlocked h f s.seq 0 then h
    else
      let h1 := matWriteRaw h (.frond f) a (((leBytes 8 s.data.toNat).take s.size).map some) par meets
      let x := h1.frond f
      h1.setFrond f { x with stores := x.stores.map (fun t => if t.seq = s.seq then { t with served := some (matCause (matGot h1).2) } else t) }
  | none => matWriteRaw h (.frond f) a data par meets

/-- MAT_READ (R50, R51, R55, R59): the response goes to the access of the frond or the chain that waits for these bytes. Operand A has a fetch master of its own; operand B, the
index vector and the anchor records share the other (R47, R103). -/
def matRead (m : Master) (a len : Nat) (par : Par) (meets : List Meet) (h : Hw) : Hw :=
  if !matReach h m a par then h
  else match m with
    | .frond f => frondRead h f a len par meets
    | .fetchA ch => chainRead h m ch [0] a len par meets
    | .fetchB ch => chainRead h m ch [1, 3, 6] a len par meets
    | _ => matReadRaw h m a len par meets

/-- MAT_WRITE (R50, R55, R59): a store of a frond or a chain that waits for these bytes writes its own data. -/
def matWrite (m : Master) (a : Nat) (data : List (Option Byte)) (par : Par) (meets : List Meet) (h : Hw) : Hw :=
  if !matReach h m a par then h
  else match m with
    | .frond f => frondWrite h f a data par meets
    | .store ch => chainWrite h m ch a data par meets
    | _ => matWriteRaw h m a data par meets

/-! ### Answers of licensee memory (R233 to R238) -/

/-- HP_ERR: the first access that failed, while VALID is 0. -/
def hpCapture (h : Hw) (p : Nat) (sdir : Bool) (st op cls tag addr : Nat) : Hw :=
  if h.rb (HP_ERR_INFO p) HP_ERR_INFO_VALID then h
  else
    let i : W32 := fldSet HP_ERR_INFO_VALID (fldSet HP_ERR_INFO_SDIR (fldSet HP_ERR_INFO_ST (fldSet HP_ERR_INFO_OP (fldSet HP_ERR_INFO_CLASS
      (fldSet HP_ERR_INFO_TAG 0 tag) cls) op) st) (b2n sdir)) 1
    ((h.wr (HP_ERR_INFO p) i).wr (HP_ERR_ADDR_LO p) (BitVec.ofNat 32 addr)).wr (HP_ERR_ADDR_HI p) (BitVec.ofNat 32 (addr / 2 ^ 32 % 2 ^ 20))

/-- A failed M request (R235). -/
def mError (h : Hw) (q : MReq) (st : Nat) : Hw :=
  if st = 0 then h else hpCapture (h.sb (HP_STAT q.port) HP_STAT_MERR) q.port false st q.op q.cls (q.tag.getD 0) q.addr

/-- An M request completes toward its master with a status, 0 for good, and the data it has gathered. -/
def mDeliver (h : Hw) (q : MReq) (st : Nat) : Hw :=
  match q.use with
  | .walk r k =>
    (match walkAt h r k with
     | some w => if w.phase = 1 then walkPut h r { w with phase := 2, entry := leNat q.got, st := st, bad := !q.bad.isEmpty } else h
     | none => h)
  | .cas r k =>
    (match walkAt h r k with
     | some w => if w.phase = 3 then walkPut h r { w with phase := 4, entry := leNat q.got, st := st, bad := !q.bad.isEmpty } else h
     | none => h)
  | .desc ch id =>
    (match getExec h ch id with
     | some e =>
       if e.checked then h
       else if st ≠ 0 ∨ q.bad ≠ [] then putExec h ch { e with failSE := true }
       else putExec h ch { e with words := (List.range 8).map (fun i => leNat ((q.got.drop (8 * i)).take 8)) }
     | none => h)
  | .prog ch id => chainsAdvance (accArrive h ch id 5 0 [] (if st = 0 then 0 else 0x17)) (ch / 8)
  | .item ch id s it _ _ _ => chainsAdvance (accArrive h ch id s it q.got (if st ≠ 0 then 0x17 else if q.bad ≠ [] then 0x16 else 0)) (ch / 8)
  | .load f seq =>
    let x := h.frond f
    let c := if st ≠ 0 then 3 else if q.bad ≠ [] then 2 else 0
    h.setFrond f { x with load := x.load.map (fun l => if l.seq = seq then { l with served := some (if c = 0 then BitVec.ofNat 64 (leNat q.got) else 0, c) } else l) }
  | .store f seq =>
    let x := h.frond f
    h.setFrond f { x with stores := x.stores.map (fun s => if s.seq = seq then { s with served := some (if st = 0 then 0 else 3) } else s) }
  | .record n => recordDone h n (st != 0)
  | .mover c => timerMoverResponse c (st != 0) h
  | .trace r => if st = 0 then h else tsFail h r
  | .service n => word7Done h n

/-- The outstanding request of a port under a tag. -/
def mFind (h : Hw) (p tag op : Nat) : Option MReq := h.mreqs.find? (fun q => q.port == p && q.tag == some tag && q.op == op)

/-- The request is over: its tag is free, and its master has the answer. -/
def mFinish (h : Hw) (q : MReq) (st : Nat) : Hw := mDeliver (mFree (mError h q st) q.port (q.tag.getD 0)) q st

/-- The bad words of the next beat of a request, counted from the first word of the request (R235); `bad` counts them from the word that holds the beat's first byte. -/
def badOf (q : MReq) (bad : List Nat) : List Nat := bad.map (fun k => (q.addr + q.got.length) / 8 - q.addr / 8 + k)

/-- M_READ_DATA (R233, R235, R236): a beat of read data, `bad` of whose words came with a parity error; the last beat completes the request. A beat under a retired or unused tag is
discarded. -/
def mReadData (p tag : Nat) (data : List Byte) (bad : List Nat) (st : Nat) (last : Bool) (h : Hw) : Hw :=
  if !h.hasPort p || !hpRunning h p then h
  else
    let h1 := if bad.isEmpty then h else h.sb (HP_STAT p) HP_STAT_MPERR
    match mFind h1 p tag 0 with
    | none => h1
    | some q =>
      let q1 : MReq := { q with got := q.got ++ data, bad := q.bad ++ badOf q bad, st := if q.st = 0 then st else q.st }
      let h2 := { hpBytes h1 p false data.length with mreqs := h1.mreqs.map (fun (x : MReq) => if x = q then q1 else x) }
      if last then mFinish h2 q1 q1.st else h2

/-- M_WRITE_RESPONSE (R233, R235, R236): a response with a parity error counts as ERR. -/
def mWriteResponse (p tag st : Nat) (parErr : Bool) (h : Hw) : Hw :=
  if !h.hasPort p || !hpRunning h p then h
  else
    let h1 := if parErr then h.sb (HP_STAT p) HP_STAT_MPERR else h
    match mFind h1 p tag 1 with
    | none => h1
    | some q => mFinish h1 q (if parErr then 1 else st)

/-- M_CAS_RESPONSE (R238): the read-data beat of a CAS64 with the old 8 bytes. -/
def mCasResponse (p tag : Nat) (old : W64) (parErr : Bool) (st : Nat) (h : Hw) : Hw :=
  if !h.hasPort p || !hpRunning h p then h
  else
    let h1 := if parErr then h.sb (HP_STAT p) HP_STAT_MPERR else h
    match mFind h1 p tag 2 with
    | none => h1
    | some q => mFinish (hpBytes h1 p false 8) { q with got := leBytes 8 old.toNat, bad := if parErr then [0] else [] } st

/-- An outstanding request completes as ERR, and its tag is retired: it counts as outstanding and is not used again until rst_n (R234). -/
def mRetire (h : Hw) (q : MReq) : Hw :=
  mDeliver { h with
    mreqs := h.mreqs.filter (fun x => x != q)
    retired := h.retired ++ (q.tag.map (fun t => (q.port, t))).toList } q 1

/-- A request has been outstanding for RTMO beats (R15, R234); an RTMO of 0 disables the timer. -/
def mOverdue (h : Hw) (q : MReq) : Bool :=
  q.tag.isSome && h.rf (HP_CTL q.port) HP_CTL_RTMO != 0 && h.beatsOver q.since (h.rf (HP_CTL q.port) HP_CTL_RTMO)

/-- M_REQUEST_TIMEOUT (R234). -/
def mRequestTimeout (p tag : Nat) (h : Hw) : Hw :=
  match h.mreqs.find? (fun q => q.port == p && q.tag == some tag) with
  | some q => if mOverdue h q then mGrantAll (mRetire (h.sb (HP_STAT p) HP_STAT_RTMO) q) p else h
  | none => h

/-- HOST_CREDIT_RETURN (R232): one more credit, at most 1,024 of each kind. -/
def hostCreditReturn (p : Nat) (writeData : Bool) (h : Hw) : Hw :=
  if !h.hasPort p || !hpRunning h p then h
  else
    let f := if writeData then HP_CRED_MWD else HP_CRED_MREQ
    if h.rf (HP_CRED p) f < 1024 then mGrantAll (h.wf (HP_CRED p) f (h.rf (HP_CRED p) f + 1)) p
    else h.sb (HP_STAT p) HP_STAT_CRDOVF

/-- HOST_CLOCK_LOSS (R496): the port is held in reset. -/
def hostClockLoss (p : Nat) (h : Hw) : Hw :=
  if !h.hasPort p || !hpRunning h p then h
  else
    let h1 := (h.wf CLK_STAT ⟨8 + p, 1⟩ 0).wr (HP_CRED p) 0
    let h2 := { h1 with
      sresp := kvDel h1.sresp p
      out := kvDel h1.out p
      scred := kvDel h1.scred p
      pwr := h1.pwr.map (fun (e : Nat × PwrRgn) => (e.1, { e.2 with held := e.2.held.filter (fun (q : HeldReq) => q.port != p) })) }
    (h2.mreqs.filter (fun (q : MReq) => q.port == p && q.tag.isSome)).foldl mRetire h2

/-- HOST_CLOCK_RETURN (R496, R232): the port leaves reset and grants credits. -/
def hostClockReturn (p : Nat) (h : Hw) : Hw :=
  if !h.hasPort p || hpRunning h p then h
  else
    let h1 := h.wf CLK_STAT ⟨8 + p, 1⟩ 1
    { h1 with scred := kvIns h1.scred p (128, 256) }

end Sys2Proof.Machine
end

