-- ==== Sys2Proof/Machine/Host.lean ====
section
/-!
DEFINITION. Host requests to the macro (R229 to R244, R421, R448, R501, R513), the register requests that the fabric holds, and the beat boundary (R12 to R17).
-/
namespace Sys2Proof.Machine

/-! ### Answers (R230, R235, R239, R243) -/

/-- The answer to an S request: the response, which goes to the outbound side of the port, and the record of a refusal. `busy` gives the indication of each beat of read data, or
of the response of a write. -/
def sAnswer (h : Hw) (port addr tag op : Nat) (write : Bool) (st : Nat) (data : List Byte) (busy : List Bool) : Hw :=
  let x := h.po port
  let h1 := ({ h with sresp := kvIns h.sresp port ⟨tag, write, st, data, busy⟩ }).setPo port
    (if write then { x with rsp := x.rsp ++ [(tag, st, busy.headD false)] } else { x with rd := x.rd ++ sBeats addr tag st data busy })
  let h2 := if write then h1 else hpBytes h1 port true data.length
  let h3 := if st = 1 ∨ st = 2 then h2.sb (HP_STAT port) HP_STAT_SREF else h2
  if st = 0 then h3 else hpCapture h3 port true st op 0 tag addr

/-- A refused READ is answered with one beat of zero data, a refused WRITE with its status. -/
def sRefuse (h : Hw) (port addr len tag op : Nat) (write : Bool) (st : Nat) : Hw :=
  sAnswer h port addr tag op write st (if write then [] else List.replicate (beatLen addr len) 0) []

/-- The busy indication of each 128-byte beat of a read (R243): some word of it collided, and this access received busy (R55). -/
def busyBeats (addr len : Nat) (meets : List Meet) : List Bool :=
  (List.range (mBeats addr len)).map (fun i => meets.any (fun x => meetBusy false x && meetWord addr x / 128 == addr / 128 + i))

/-! ### Register requests (R239, R421, R501, R513, R517) -/

/-- What a register request of the host meets. -/
inductive RegGo where
  | go                                    -- performed now
  | none                                  -- an offset that holds no register: zero, ignored
  | refuse (st : Nat)
  | hold (r : Nat)                        -- waits in the register fabric of region r
deriving DecidableEq, Repr

/-- The register a host request names: its block, or that the view holds none there, or that the offset is unmapped. -/
def hostBlk (h : Hw) (a : Nat) : Option (Option Blk) :=
  if inPriv a then
    (match blockOf h a with
     | some (b, _) => some (some b)
     | .none => .none)
  else some (unprivBlk h a)

/-- A doorbell window. -/
def Blk.isDb : Blk → Bool
  | .db _ => true
  | _ => false

/-- The checks on a host request to a register, in order: one aligned 4-byte word, hpN_sreq_priv for the privileged view, a mapped offset, and a region that serves it. -/
def hostReg (h : Hw) (priv : Bool) (a len : Nat) (write : Bool) : RegGo :=
  if len ≠ 4 ∨ a % 4 ≠ 0 ∨ (inPriv a && !priv) = true then .refuse 1
  else match hostBlk h a with
    | .none => .refuse 2
    | some .none => .none
    | some (some b) =>
      match blkRegion b with
      | .none => .go
      | some r =>
        let db := write && b.isDb
        if h.memServed r then (if inRecovery h r && !db then .hold r else .go)
        else if db && h.rb (PWR_WAKE r) PWR_WAKE_DB then .hold r
        else .refuse 1

/-- The host as the agent of a request. -/
def hostWho (port : Nat) (priv : Bool) : Who := { agent := .host, world := .keeper, sup := priv, port := port }

/-- A doorbell write is a wake event of its region when PWR_WAKE.DB is set (R501, R505). -/
def dbWake (h : Hw) (a : Nat) : Hw :=
  match hostBlk h a with
  | some (some (.db r)) => if h.rb (PWR_WAKE r) PWR_WAKE_DB then wakeEvent h r 2 else h
  | _ => h

/-- The word of a write whose four bytes are all enabled and good. -/
def wholeWord (data : List (Option Byte)) : Option W32 :=
  if data.length = 4 ∧ data.all (·.isSome) then some (BitVec.ofNat 32 (leNat (data.map (·.getD 0)))) else none

/-- The status of a write some of whose words came with a parity error is PERR (R235). -/
def wStat (bad : Bool) (st : Nat) : Nat := if bad then 3 else st

/-- A register read is performed and answered. -/
def hostRegRead (h : Hw) (port a tag : Nat) (priv : Bool) : Hw :=
  let (v, h1) := viewRead h (hostWho port priv) a
  sAnswer h1 port a tag 0 false 0 (leBytes 4 v.toNat) []

/-- A register write is performed and answered. A register is written whole: a write that leaves a byte out is refused (R239), and a word that came with a parity error is not
written. -/
def hostRegWrite (h : Hw) (q : HeldReq) : Hw :=
  match wholeWord q.data with
  | some v => sAnswer (viewWrite (dbWake h q.addr) (hostWho q.port q.priv) q.addr v) q.port q.addr q.tag 1 true (wStat q.bad 0) [] []
  | none => sAnswer h q.port q.addr q.tag 1 true (wStat q.bad 1) [] []

/-- Put a request into the register fabric of a region. -/
def hostHold (h : Hw) (r : Nat) (q : HeldReq) : Hw := h.setPw r { h.pw r with held := (h.pw r).held ++ [q] }

/-! ### The order of S requests (R237) -/

/-- A request does not go ahead of a waiting one of its port: a WRITE not ahead of a WRITE, nor of a READ whose bytes it changes; a READ not ahead of a WRITE to its bytes, and a
READ of a register not ahead of any WRITE to a register. -/
def goesBehind (h : Hw) (q w : HeldReq) : Bool :=
  let meet := decide (q.addr < w.addr + w.len) && decide (w.addr < q.addr + q.len)
  let isReg := fun (x : HeldReq) => !h.inCush x.addr
  w.port == q.port && (if q.write then w.write || meet else w.write && (meet || (isReg q && isReg w)))

/-- The region in whose fabric a request waits behind another one. -/
def hostBehind (h : Hw) (q : HeldReq) : Option Nat := h.regionList.find? (fun r => (h.pw r).held.any (goesBehind h q))

/-! ### Requests (R235, R239, R243) -/

/-- A READ or WRITE of the cushion through port B. -/
def hostCush (h : Hw) (q : HeldReq) : Hw :=
  if q.write then
    (let (h1, st) := memWriteEn h (.hostB q.port) q.addr q.data q.par q.meets
     sAnswer h1 q.port q.addr q.tag 1 true (wStat q.bad (if st = 2 then 3 else st)) [] [st == 0 && anyBusy true q.meets])
  else
    let (h1, st, data) := memRead h (.hostB q.port) q.addr q.len q.par q.meets
    sAnswer h1 q.port q.addr q.tag 0 false (if st = 2 then 3 else st) data (if st = 1 then [] else busyBeats q.addr q.len q.meets)

/-- A READ or WRITE that came without a parity error in its request (R237, R239): it waits, or goes to its target. -/
def hostDo (h : Hw) (q : HeldReq) : Hw :=
  let refuse := fun (st : Nat) => sRefuse h q.port q.addr q.len q.tag (b2n q.write) q.write (if q.write then wStat q.bad st else st)
  match hostBehind h q with
  | some r => hostHold h r q
  | none =>
    if h.inCush q.addr then hostCush h q
    else if inPriv q.addr || inUnpriv q.addr then
      (match hostReg h q.priv q.addr q.len q.write with
       | .go => if q.write then hostRegWrite h q else hostRegRead h q.port q.addr q.tag q.priv
       | .none => if q.write then sAnswer h q.port q.addr q.tag 1 true (wStat q.bad 0) [] [] else sAnswer h q.port q.addr q.tag 0 false 0 (List.replicate 4 0) []
       | .refuse st => refuse st
       | .hold r => hostHold (if (wholeWord q.data).isSome then dbWake h q.addr else h) r q)
    else refuse 2

/-- A held write is a recovery request: RGN_CMD.RECOVER of a region, by the privileged host. -/
def heldRecover (h : Hw) (q : HeldReq) : Option Nat :=
  match blockOf h q.addr, wholeWord q.data with
  | some (.rgn r, 4), some v => if q.write && q.priv && inPriv q.addr && fldGet RGN_CMD_RECOVER v == 1 then some r else none
  | _, _ => none

/-- A request that waited at a region is performed (R421, R501); a recovery request of that region finds it in REJOIN, or HALTED, and is refused (R419). -/
def heldOne (r : Nat) (h : Hw) (q : HeldReq) : Hw :=
  if heldRecover h q = some r then sAnswer (h.sb (RGN_STAT r) RGN_STAT_RREF) q.port q.addr q.tag 1 true (wStat q.bad 0) [] []
  else hostDo h q

/-- The requests that waited at a region are performed in order. -/
def heldRelease (h : Hw) (r : Nat) : Hw :=
  if inRecovery h r || !h.memServed r then h
  else (h.pw r).held.foldl (heldOne r) (h.setPw r { h.pw r with held := [] })

/-! ### HOST_S_READ and HOST_S_WRITE -/

/-- HOST_S_READ (R235, R237, R239, R243). A port held in reset discards the request (R496). -/
def hostSRead (port addr len tag : Nat) (priv parErr : Bool) (par : Par) (meets : List Meet) (h : Hw) : Hw :=
  if !h.hasPort port || !hpRunning h port then h
  else if parErr then sRefuse (h.sb (HP_STAT port) HP_STAT_SPERR) port addr len tag 0 false 3
  else hostDo h ⟨port, tag, addr, len, false, priv, [], false, par, meets⟩

/-- The bytes of write data whose 64-bit words arrived with good parity; `badWords` counts the words from the one that holds the first byte. -/
def goodBytes (addr : Nat) (data : List (Option Byte)) (badWords : List Nat) : List (Option Byte) :=
  (List.range data.length).map (fun i => if badWords.contains ((addr + i) / 8 - addr / 8) then none else (data[i]?).join)

/-- HOST_S_WRITE (R235, R237, R238, R239, R243): op 0b01 writes; an S CAS64 is refused with ERR, and so is the reserved op. A write with a bad data word is answered PERR whatever
else meets it. -/
def hostSWrite (port addr tag op : Nat) (priv parErr : Bool) (data : List (Option Byte)) (badWords : List Nat) (par : Par) (meets : List Meet) (h0 : Hw) : Hw :=
  if !h0.hasPort port || !hpRunning h0 port then h0
  else
    let len := data.length
    let bad := !badWords.isEmpty
    let h1 := hpBytes h0 port false len
    let h := if parErr || bad then h1.sb (HP_STAT port) HP_STAT_SPERR else h1
    if parErr then sRefuse h port addr len tag op true 3
    else if op ≠ 1 then sRefuse h port addr 8 tag op (op != 2) (wStat bad 1)
    else hostDo h ⟨port, tag, addr, len, true, priv, goodBytes addr data badWords, bad, par, meets⟩

/-- REGISTER_FABRIC_PARITY_ERROR (R428): the write is dropped, or the read gives zero; a frond's access fails with cause 2, and a host's is answered ERR. The tag of the
host's request is the requester's own: a free value. -/
def registerFabricParityError (w : Who) (write : Bool) (a : Nat) (h : Hw) : Hw :=
  let h1 := meuLog (h.sb MEU_STAT MEU_STAT_RFPERR) 1 0 a
  let pa := 2 ^ 52 + a
  match w.agent with
  | .frond f =>
    let x := h1.frond f
    if write then
      h1.setFrond f { x with stores := x.stores.map (fun s => if s.pa = pa ∧ s.served.isNone then { s with served := some 2 } else s) }
    else h1.setFrond f { x with load := x.load.map (fun l => if l.pa = pa ∧ l.served.isNone then { l with served := some (0, 2) } else l) }
  | .host =>
    let (u, h2) := h1.fresh
    if h2.hasPort w.port && hpRunning h2 w.port then
      sAnswer (if write then h2 else { h2 with busRd := 0 }) w.port a (u.toNat % 1024) (b2n write) write 1 (if write then [] else List.replicate 4 0) []
    else h1
  | _ => if write then h1 else { h1 with busRd := 0 }

/-! ### Rows that let the fabric go on (R421, R442, R501, R503) -/

/-- WAKE_COMPLETE (R503): RUN, WDONE, and the wake event is delivered; a start waiting for the region goes on (R442). -/
def wakeComplete (r : Nat) (h : Hw) : Hw :=
  if !wakeReady h r then h
  else
    let h1 := wakeDone h r
    let h2 := heldRelease { h1 with boot := { h1.boot with busy := h1.boot.busy.filter (· != r) } } r
    bootStep3 h2

/-- REJOIN (R420 to R422). -/
def regionRejoin (r : Nat) (h : Hw) : Hw := if resetOver h r then heldRelease (rejoin r h) r else h

/-- DRAIN_TIMEOUT (R421, R423). -/
def regionDrainTimeout (r : Nat) (h : Hw) : Hw := if drainDue h r then heldRelease (drainTimeout r h) r else h

/-! ### BEAT_BOUNDARY (R12 to R17, R222, R501, R528, R530) -/

/-- Copy a per-beat counter, when it or its copy is not zero already. -/
def beatOne (h : Hw) (a last : Nat) : Hw := if h.rd a = 0 ∧ h.rd last = 0 then h else h.beatCopy a last

/-- The smallest eye margin of the beat is kept, and the next beat's begins at 0xFF (R222). -/
def beatEye (h : Hw) (l : Nat) : Hw :=
  let m := h.rf (LN_EYE l) LN_EYE_MIN
  if m = h.rf (LN_EYE l) LN_EYE_LASTMIN ∧ m = 0xFF then h else (h.wf (LN_EYE l) LN_EYE_LASTMIN m).wf (LN_EYE l) LN_EYE_MIN 0xFF

/-- The per-beat counters of a region (R14). -/
def beatRegion (h : Hw) (r : Nat) : Hw :=
  let h1 := beatOne h (MAT_ERRCNT r) (MAT_ERRCNT_LAST r)
  let h2 := forEach (List.range 8) h1 (fun h c => beatOne (beatOne h (CHN_ELEMS r c) (CHN_ELEMS_LAST r c)) (CHN_STALL r c) (CHN_STALL_LAST r c))
  let h3 := (linksOf r).foldl (fun h l =>
    beatOne (beatOne (beatOne (beatEye h l) (LN_COR l) (LN_COR_LAST l)) (LN_ERR l) (LN_ERR_LAST l)) (LK_CNT l) (LK_CNT_LAST l)) h2
  let h4 := [2 * r, 2 * r + 1].foldl (fun h p => beatOne (beatOne h (HP_BYTES p) (HP_BYTES_LAST p)) (HP_BUSYCNT p) (HP_BUSYCNT_LAST p)) h3
  let h5 := beatOne (beatOne h4 (XLT_CNT r) (XLT_CNT_LAST r)) (RGN_ECNT r) (RGN_ECNT_LAST r)
  if (h5.mat r).bankCnt = [] then h5 else h5.setMat r { h5.mat r with bankCnt := [] }

/-- The parts of counting units that the beat has gathered are cleared with their counters. -/
def beatParts (h : Hw) : Hw :=
  { h with
    hpAcc := []
    chains := h.chains.map (fun (c : Nat × Chain) => (c.1, { c.2 with elemAcc := 0 }))
    xlts := h.xlts.map (fun (x : Nat × XltSt) => (x.1, { x.2 with miss := 0 }))
    fronds := h.fronds.map (fun (f : Nat × Frond) => (f.1, { f.2 with wevHit := f.2.wevHit ||| 8 })) }

/-- The beat as a wake event (R501). -/
def beatWake (h : Hw) (r : Nat) : Hw := if h.rb (PWR_WAKE r) PWR_WAKE_BEAT then wakeEvent h r 3 else h

/-- The number of the beat, and its tasks (R12, R17). -/
def beatCount (h : Hw) : Hw :=
  let h1 := h.wr SYS_BEAT (h.rd SYS_BEAT + 1)
  let h2 := if h1.rb SYS_BEATST SYS_BEATST_TASK then h1.addSat SYS_BEATST SYS_BEATST_OVR 1 else h1
  h2.sb SYS_BEATST SYS_BEATST_TASK

/-- Keeper microcode runs: the core clocks, and a start that has reached the fronds. -/
def keeperRuns (h : Hw) : Bool := h.clocked && frondsStarted h

/-- Keeper microcode's work of the beat (R222, R528). -/
def beatKeeper (h : Hw) : Hw :=
  if keeperRuns h then
    forEach (List.range 5) (forEach h.regionList h laneHealth) (fun h r => if r < h.nRegions ∨ r = 4 then sensorFlags h r else h)
  else h

/-- BEAT_BOUNDARY (R12, R14, R17): 50,000 ticks after the one before; the counters are copied before keeper microcode judges the copies, and the core's beat is a capture edge
(R389). -/
def beatBoundary (h : Hw) : Hw :=
  if !h.beatDue then h
  else
    let h0 := { h with beatDiv := 0 }
    let h1 := beatParts (forEach h.regionList (beatCount h0) beatRegion)
    let h2 := holdEnd (irqFire h1 480)
    let h3 := capOn h2 h2 0x40
    let h4 := wearUpdate (beatKeeper h3)
    forEach h.regionList h4 beatWake

end Sys2Proof.Machine
end

