-- ==== Sys2Proof/Machine/Clock.lean ====
section
/-!
DEFINITION. What a tick of CK_A brings by itself (R12, R15, R377, R391): as it ends, the beat boundary and the intervals that are over and that no command of the tick has answered;
then the count of the tick; and as the next one begins, what follows a tick or a fixed number of ticks after its cause.
-/
namespace Sys2Proof.Machine

/-! ### The end of a tick -/

/-- The intervals of R15 that are over at this boundary, in the blocks that the core clocks run (R185, R186, R219, R234, R423). -/
def beatsCore (h : Hw) : Hw :=
  let h1 := (h.mreqs.filter (mOverdue h)).foldl (fun g q => mRequestTimeout q.port (q.tag.getD 0) g) h
  let h2 := h1.ctxs.foldl (fun g c => fenceTimeout c.1 (stepTimeout c.1 g)) h1
  let h3 := h2.links.foldl (fun g l => if trainDue g l.1 then trainTimeout l.1 g else g) h2
  h3.regionList.foldl (fun g r => regionDrainTimeout r g) h3

/-- The same in the always-on island (R409, R442, R458). -/
def beatsIsland (h : Hw) : Hw := boottmoExpire (bootLinkWaitExpire (debugIdleTimeout (lichenWindowExpire h)))

/-- The beat boundary, when it is due, and the intervals of R15 that end at it: a response, an answer or a write that the tick has brought comes before them (R188, R234, R413). -/
def beatTick (h : Hw) : Hw :=
  let g := beatBoundary h
  if g.atBeat then (let k := beatsIsland g; if k.clocked then beatsCore k else k) else g

/-- The timers of a link that are over (R208, R209, R219, R224). -/
def linkTick (h : Hw) (lk : Nat) : Hw :=
  let h1 := if replayDue h lk 0 then replayTimeout lk h else h
  let h2 := if nakDue h1 lk 0 then nakTimeout lk h1 else h1
  let h3 := lanesetTimeout lk (initTimeout lk h2)
  if initAgain h3 lk then initResend lk h3 else h3

/-- The limits of a region's power states that are over (R442, R500, R502, R504). -/
def powerLimits (h : Hw) (r : Nat) : Hw := idleEntry r (wakeAckTimeout r (startupPowerHandshakeTimeout r (enterTimeout r h)))

/-- The end of a tick. -/
def tickEnd (h : Hw) : Hw :=
  let h1 := watchdogStage2Expire (watchdogStage1Expire (beatTick (tbWrap h)))
  let h2 := lichenHashDone (h1.regionList.foldl powerLimits h1)
  if h2.clocked then h2.links.foldl (fun g l => linkTick g l.1) h2 else h2

/-! ### The count of a tick -/

/-- The units that count a tick beside the timers: fronds, hold-off intervals, the idle delay, and the cycles of the host ports (R242, R320, R373, R502). -/
def unitTicks (h : Hw) : Hw :=
  let h1 := forEach (List.range (2 * h.nRegions)) h frondTick
  let h2 := forEach h1.regionList (hoffTick h1) stillTick
  forEach (List.range (2 * h2.nRegions)) h2 outTick

/-! ### The beginning of a tick -/

/-- What follows in a region a fixed number of ticks after its cause: the commit of an entry, the clear and the end of a wake, its first tick, and the end of RESET (R64, R420, R500,
R503). -/
def regionBegin (h : Hw) (r : Nat) : Hw := wakeStart r (wakeComplete r (powerupClearDone r (sleepCommit r (regionRejoin r h))))

/-- The beginning of a tick; a confirmed item is applied in the tick after its check (R405), kn_fatal comes in the tick after the last keeper
frond's lockup, and its recovery in the tick after that (R348, R430). -/
def tickBegin (h : Hw) : Hw :=
  let h1 := knFatal (fatalRecovery (clockRestart (lichenApply h)))
  h1.regionList.foldl regionBegin h1

/-- One CK_A tick with no command. -/
def clockTick (h : Hw) : Hw :=
  let h1 := ckaTick (tickEnd h)
  tickBegin (if h1.clocked then unitTicks h1 else h1)

end Sys2Proof.Machine
end

