-- ==== Sys2Proof/Machine/Debug.lean ====
section
/-!
DEFINITION. The frames of the debug port (R450 to R463) and the pop of the debug FIFO (R475).
-/
namespace Sys2Proof.Machine

/-! ### Answers (R452) -/

def ackAUTH : Nat := 1
def ackPERR : Nat := 4
def ackDECERR : Nat := 5

/-- The response to a frame; a good frame also marks the time of the idle limit (R458). -/
def dbgAns (h : Hw) (ack : Nat) (peek : Bool) (data : W32) : Hw :=
  { h with dbg := { h.dbg with
      rsp := some ⟨ack, peek, data⟩
      last := h.tb.toNat } }

/-- The session as an agent (R455). -/
def dbgWho (h : Hw) : Who := { agent := .debugger, world := if sessLevel h = 1 then .keeper else .tenant, sup := true }

/-! ### Targets of RD and WR (R459, R460) -/

/-- The registers a frame reaches without a session (R459). -/
def openReg (a : Nat) : Bool :=
  a == DBG_STAT || a == DBG_AUTH || a == SYS_IDENT || a == SYS_CONFIG || a == BOOT_STAT ||
  (decide (DBG_NONCE 0 ≤ a) && decide (a ≤ DBG_NONCE 7)) || (decide (DBG_PUB 0 ≤ a) && decide (a ≤ DBG_PUB 24)) ||
  (decide (DBG_SIG 0 ≤ a) && decide (a ≤ DBG_SIG 23))

/-- What a frame reaches. -/
inductive DbgTgt where
  | mem
  | scratch
  | reg                                   -- a register of the privileged view
  | twin                                  -- the unprivileged view
  | ack (n : Nat)                         -- refused
deriving DecidableEq, Repr

/-- The words of DBG that a tenant-level session reaches (R460). -/
def tenantDbg (h : Hw) (o : Nat) (write : Bool) : Bool :=
  let mine := fun (f : Nat) => h.hasFrond f && (h.frond f).world == .tenant
  if o = 0 then true
  else if o = 4 then !write
  else if o = 8 then true
  else if 0x20 ≤ o ∧ o < 0xA4 then true
  else if 0x500 ≤ o ∧ o < 0x560 then true
  else if 0x100 ≤ o ∧ o < 0x180 then mine ((o - 0x100) / 16)
  else if 0x200 ≤ o ∧ o < 0x240 then mine ((o - 0x200) / 8)
  else decide (0x400 ≤ o) && decide (o < 0x500)

/-- A write that the writers of the register keep from the session (R452 "writer rule", R455). To a keeper-level session: the region windows (R60), LK_CFG (R218), XLT_KDIR
(R260), the proposal and the host's registers of the lichen (R403, R404), and the power and wear registers but WR_THR (R500, R530). To a tenant-level one in the blocks open to it:
what keeper-world supervisors alone write of the timer, context and queue blocks (R168, R171, R185, R246, R395, R396), and CHN_CTL of a command of the keeper world (R108). A write
that its claim's holder alone may make is no such case: it is performed, and shows CLAIM as its chapter says (DEDUCED, log 44). -/
def sessBarred (h : Hw) (b : Blk) (o : Nat) : Bool :=
  let tenant := sessLevel h == 2
  match b with
  | .mat _ => decide (0x400 ≤ o) && decide (o < 0x7C0)
  | .lnk _ => decide (0x1000 ≤ o) && decide (o < 0x1800) && o % 0x40 == 0
  | .xlt _ => o == 8 || o == 0xC
  | .lch => o == 4 || o == 8 || o == 0xC || o == 0x10 || (decide (0x40 ≤ o) && decide (o < 0x80)) || (decide (0x100 ≤ o) && decide (o ≤ 0x1A0))
  | .pwr => o != 0x2C0
  | .tmr => tenant && (o == 0xA00 || o == 0xA04 || o == 0xA08)
  | .cx r =>
    tenant && (if o < 0x10000 then !(o % 0x40 == 8 && h.cxWorld (1024 * r + o / 0x40) == .tenant) else decide (o < 0x20000) || o == 0x20008)
  | .qe _ => tenant && decide (o % 0x40 < 0x14)
  | .chn r =>
    tenant && o % 0x400 == 0 && (match h.running (8 * r + o / 0x400) with | some e => !(e.checked && h.cxWorld (dCTX e.words) == .tenant) | none => true)
  | _ => false

/-- A block for the session (R460): PROT of a keeper-only block before any state. -/
def blockAck (h : Hw) (b : Blk) (o frn : Nat) (write : Bool) : Nat :=
  let tenant := sessLevel h == 2
  if b = .dbg then (if tenant && !tenantDbg h o write then ackPROT else ackOK)
  else if tenant && (keeperOnly b o || b == .irq) then ackPROT
  else match blkRegion b with
    | some r => regionAck h r frn
    | none => if blkIsland b || h.clocked then ackOK else ackSTATE

/-- What a frame with an open or closed session reaches. -/
def dbgTarget (h : Hw) (frn a : Nat) (write : Bool) : DbgTgt :=
  let give := fun (n : Nat) (t : DbgTgt) => if n = ackOK then t else .ack n
  if sessLevel h = 0 then (if openReg a then .reg else .ack ackAUTH)
  else if h.inMem a then give (regionAck h (memRegion a) frn) .mem
  else if 0x30000000 ≤ a ∧ a < 0x30010000 then give (regionAck h (frn / 2) frn) .scratch
  else if inPriv a then
    (match blockOf h a with
     | none => .ack ackDECERR
     | some (b, o) => if blockAck h b o frn write = ackOK ∧ write ∧ sessBarred h b o then .ack ackPROT else give (blockAck h b o frn write) .reg)
  else if inUnpriv a then
    (match unprivBlk h a with
     | none => .twin
     | some b => (match blkRegion b with | some r => give (regionAck h r frn) .twin | none => .twin))
  else .ack ackDECERR

/-- A frame is heard: power-on reset is over, and the line is not ignored. -/
def dbgHears (h : Hw) : Bool := h.porN && !h.dbg.ignore

/-! ### RD and WR -/

/-- A debug read of the mat or the cushion (R57, R463): without EFF it counts and captures no parity error. A refusal by a window is answered PROT and leaves MAT_STAT.PROT and
PROT_INFO as they are: R59 logs every refused access, R452 lets a refused frame change nothing; DESIGN CHOICE (log 44): R452 holds. -/
def dbgMemRead (h : Hw) (frn : Nat) (eff : Bool) (a : Nat) (par : Par) (meets : List Meet) : Hw :=
  if (protCause h (.debugger frn) a 4 false).isSome then dbgAns h ackPROT false 0
  else
    let (h1, st, data) := memRead h (.debugger frn) a 4 par meets
    let v := BitVec.ofNat 32 (leNat data)
    let ack := if st = 0 then ackOK else ackPERR
    if eff then dbgAns h1 ack false v else dbgAns { collLog (h.idleLeave (memRegion a)) (.debugger frn) a false meets with free := h1.free } ack false v

/-- A debug write of the mat or the cushion, merged as a partial write (R50, R460); a refusal by a window leaves no log, as for a read (DESIGN CHOICE, log 44). -/
def dbgMemWrite (h : Hw) (frn a : Nat) (v : W32) (par : Par) (meets : List Meet) : Hw :=
  if (protCause h (.debugger frn) a 4 true).isSome then dbgAns h ackPROT false 0
  else
    let (h1, st) := memWrite h (.debugger frn) a (leBytes 4 v.toNat) par meets
    dbgAns h1 (if st = 0 then ackOK else ackPERR) false 0

/-- DEBUG_RD (R459 to R463). A read of a locked line waits (R320). -/
def debugRd (frn : Nat) (eff : Bool) (a : Nat) (par : Par) (meets : List Meet) (h : Hw) : Hw :=
  if !dbgHears h then h
  else match dbgTarget h frn a false with
    | .ack n => dbgAns h n false 0
    | .mem => if lineWaits h (.debugger frn) a then h else dbgMemRead h frn eff a par meets
    | .scratch => dbgAns h ackOK false (BitVec.ofNat 32 (scratchWord h frn (a % 65536)))
    | .twin => dbgAns h ackOK (!eff && readActs h (twin a)) (unprivRead h (dbgWho h) a)
    | .reg =>
      if eff then
        (let (v, h1) := regRead h (dbgWho h) a 0
         dbgAns h1 ackOK false v)
      else dbgAns h ackOK (readActs h a) (regPeek h (dbgWho h) a)

/-- DEBUG_WR (R459, R460, R464). -/
def debugWr (frn a : Nat) (v : W32) (par : Par) (meets : List Meet) (h : Hw) : Hw :=
  if !dbgHears h then h
  else match dbgTarget h frn a true with
    | .ack n =>
      dbgAns (match blockOf h a with
        | some (.dbg, o) => if sessLevel h = 2 ∧ 0x100 ≤ o ∧ o < 0x180 ∧ o % 16 = 0 ∧ fldGet DBG_FCTL_HALT v = 1 then fctlWrite h ((o - 0x100) / 16) v else h
        | _ => h) n false 0
    | .mem => if lineWaits h (.debugger frn) a then h else dbgMemWrite h frn a v par meets
    | .scratch => dbgAns { h with scratch := memSets h.scratch (frn * 65536 + a % 65536) (leBytes 4 v.toNat) } ackOK false 0
    | .twin => dbgAns (unprivWrite h (dbgWho h) a v) ackOK false 0
    | .reg => dbgAns (regWrite h (dbgWho h) a v) ackOK false 0

/-! ### PRD and PWR (R461) -/

/-- The frond and the port of a PRD or PWR, refused with a code or admitted. -/
def portAck (h : Hw) (frn port : Nat) (write : Bool) : Nat :=
  if sessLevel h = 0 then ackAUTH
  else if !h.hasFrond frn then ackDECERR
  else match portOf port with
    | none => ackDECERR
    | some (k, lr, lw) =>
      let world := (dbgWho h).world
      if k = .t then ackDECERR
      else if sessLevel h = 2 ∧ (h.frond frn).world ≠ .tenant then ackPROT
      else if (if write then k.writable else k.readable) = false ∨ levelOk (if write then lw else lr) world true true = false then ackPROT
      else
        let x := h.frond frn
        if h.memServed (frn / 2) = false ∨ inRecovery h (frn / 2) = true ∨ h.clocked = false ∨
           (x.run == .halt || x.run == .debugHalt || x.run == .lockup) = false then ackSTATE
        else ackOK

/-- A port whose read has an effect: the RS and RC kinds, and TMR.TBLO with its snapshot (R462). -/
def portActs (port : Nat) : Bool :=
  port == 0x300 || (match portOf port with | some (k, _, _) => k == .rs || k == .rc | none => false)

/-- DEBUG_PRD (R461, R462): half of a port of a halted frond. -/
def debugPrd (frn : Nat) (eff hi : Bool) (port : Nat) (h : Hw) : Hw :=
  if !dbgHears h then h
  else
    let n := portAck h frn port false
    if n ≠ ackOK then dbgAns h n false 0
    else
      let v := portRead h frn port
      let h1 := if eff || port == 0x38A then portReadEffect h frn port else h
      dbgAns h1 ackOK (!eff && portActs port) (if hi then hi32 v else lo32 v)

/-- What a port that PWR may write holds: its value, or the operand a write-only port has stored. -/
def portHeld (h : Hw) (f p : Nat) : W64 :=
  let x := h.frond f
  if p = 0x100 then x.aluO
  else if p = 0x140 then x.msM
  else if p = 0x180 then x.fA
  else if p = 0x181 then x.fB
  else if p = 0x200 then x.lsuSD
  else if p = 0x291 then x.postV
  else if p = 0x293 then x.tokV
  else if p = 0x295 then x.actX
  else if p = 0x2C0 then x.xIVA
  else if p = 0x2C3 then x.xPVA
  else portRead h f p

/-- DEBUG_PWR (R461): the other half of the port stays; SYS.ST takes effect at once, and R336 may refuse it. -/
def debugPwr (frn : Nat) (hi : Bool) (port : Nat) (v : W32) (h : Hw) : Hw :=
  if !dbgHears h then h
  else
    let n := portAck h frn port true
    if n ≠ ackOK then dbgAns h n false 0
    else
      let old := portHeld h frn port
      let new := if hi then join64 v (lo32 old) else join64 (hi32 old) v
      if port = 0x380 then
        (if stBad new then dbgAns h ackPROT false 0
         else
           let x := h.frond frn
           dbgAns (h.setFrond frn { x with
             st := stTake x new
             stNext := none }) ackOK false 0)
      else dbgAns (portWrite h frn port new) ackOK false 0

/-! ### The line (R452, R453) -/

/-- DEBUG_NOP (R452): DBG_STAT, with or without a session. -/
def debugNop (h : Hw) : Hw := if dbgHears h then dbgAns h ackOK false (h.rd DBG_STAT) else h

/-- DEBUG_CRC_FAIL (R453): no answer, and the line is ignored until a line reset. -/
def debugCrcFail (h : Hw) : Hw :=
  if dbgHears h then
    { h.sb DBG_STAT DBG_STAT_CRCERR with dbg := { h.dbg with
        ignore := true
        rsp := none } }
  else h

/-- DEBUG_LINE_RESET (R453). -/
def debugLineReset (h : Hw) : Hw := if h.porN then { h with dbg := { h.dbg with ignore := false } } else h

/-- DBG_TPKT_POP (R475): a read of DBG_TPKT0 with its effect. -/
def dbgTpktPop (w : Who) (h : Hw) : Hw := if regGrant h w (DBG_TPKT 0) false then (regRead h w (DBG_TPKT 0) 0).2 else h

end Sys2Proof.Machine
end

