-- ==== Sys2Proof/Machine/Gate.lean ====
section
/-!
DEFINITION. The gates: when a command of the table can come about. A row of the island needs its supply and the end of power-on reset, a row of the clocked blocks
the running clocks, a register command the grants of its register, a service command a frond that runs. Behind a closed gate the event has not occurred and nothing changes.
-/
namespace Sys2Proof.Machine

/-- The next state of a command whose effect on the block is f. -/
def always (s : State) (f : Hw → Hw) : Host.Outcome State Fault Refusal := .next { s with hw := f s.hw }

/-- An event of the always-on island (R490, R495). -/
def onIsland (s : State) (f : Hw → Hw) : Host.Outcome State Fault Refusal := always s (fun h => if h.porN then f h else h)

/-- An event of the start-up sequence that CK_A alone times (R442, R491). -/
def onStart (s : State) (f : Hw → Hw) : Host.Outcome State Fault Refusal := always s (fun h => if h.porN && h.rstN then f h else h)

/-- An event of the blocks that CK_D, CK_F, CK_M or CK_S clock (R491, R495). -/
def onClock (s : State) (f : Hw → Hw) : Host.Outcome State Fault Refusal := always s (fun h => if h.clocked then f h else h)

/-- A write of the register at a, where its grants hold (R421, R448, R514, R518). -/
def onWrite (s : State) (w : Who) (a : Nat) (f : Hw → Hw) : Host.Outcome State Fault Refusal :=
  always s (fun h => if regGrant h w a true then f h else h)

/-- A read of the register at a, where its grants hold. -/
def onRead (s : State) (w : Who) (a : Nat) (f : Hw → Hw) : Host.Outcome State Fault Refusal :=
  always s (fun h => if regGrant h w a false then f h else h)

/-- A doorbell write through either view (R249, R517): the unprivileged one asks for no supervisor. -/
def onDoorbell (s : State) (w : Who) (a : Nat) (f : Hw → Hw) : Host.Outcome State Fault Refusal :=
  always s (fun h => match blockOf h a with
    | some (b, _) => if blkServed h b && fabricRuns h w b && whoValid h w then f h else h
    | none => h)

/-- A command of the vendor service, which the frond f runs (R308). -/
def onService (s : State) (f : Nat) (g : Hw → Hw) : Host.Outcome State Fault Refusal :=
  always s (fun h => if frondLive h f && (h.frond f).run == .run then g h else h)

/-- The write sets the trigger bit that the command names. -/
def whenSet (b : Fld) (v : W32) (f : Hw → Hw) (h : Hw) : Hw := if fldGet b v = 1 then f h else h

/-- CMD_MGS (R199, R308): the service queues a MGMT frame in TC3. -/
def cmdMgs (f lk : Nat) (payload : List Byte) (h : Hw) : Hw :=
  let p := payload.take 256
  if lk / 32 = f / 2 ∧ h.hasLane lk then linkSend h lk { Frame.blank with typ := ftMGMT, tc := 3, len := p.length, payload := p } else h

end Sys2Proof.Machine
end

