-- ==== Sys2Proof/Machine/RowsChain.lean ====
section
/-!
DEFINITION. The meaning of each command, as its row function behind the gate that says when the command can come about. Chains and queues (R76 to R111, R244 to R256).
-/
namespace Sys2Proof.Machine

/-- CHAIN_TRIGGER (R76). -/
def execChainTrigger (f c : Nat) (v : W64) (s : State) : Host.Outcome State Fault Refusal := always s (fun h => if c < 8 then frondMove h f (0x280 + c) v else h)

/-- DESCRIPTOR_FETCH_DONE (R79). -/
def execDescriptorFetchDone (ch : Nat) (x : Served) (s : State) : Host.Outcome State Fault Refusal := onClock s (descriptorFetchDone ch x.par x.meets)

/-- PENDING_PROMOTE (R78). -/
def execPendingPromote (ch : Nat) (s : State) : Host.Outcome State Fault Refusal := onClock s (pendingPromote ch)

/-- CHAIN_STOP (R108). -/
def execChainStop (w : Who) (ch : Nat) (v : W32) (s : State) : Host.Outcome State Fault Refusal := onWrite s w (CHN_CTL (ch / 8) (ch % 8)) (whenSet CHN_CTL_STOP v (chainStop w ch v))

/-- CHAIN_ABORT (R108). -/
def execChainAbort (w : Who) (ch : Nat) (v : W32) (s : State) : Host.Outcome State Fault Refusal := onWrite s w (CHN_CTL (ch / 8) (ch % 8)) (whenSet CHN_CTL_ABORT v (chainAbort w ch v))

/-- SEGMENT_REREAD (R107). -/
def execSegmentReread (x : Nat × Option Nat) (s : State) : Host.Outcome State Fault Refusal := onClock s (segmentReread x.1 x.2)

/-- PROGRESS_WORD_WRITE (R105). -/
def execProgressWordWrite (x : UnitAccess) (s : State) : Host.Outcome State Fault Refusal := onClock s (progressWordWrite x.unit x.par x.meets)

/-- CHAIN_COMMAND_END (R108). -/
def execChainCommandEnd (ch : Nat) (s : State) : Host.Outcome State Fault Refusal := onClock s (commandEnd ch)

/-- COMPLETION_RECORD_WRITE (R252). -/
def execCompletionRecordWrite (x : Nat × List Meet) (s : State) : Host.Outcome State Fault Refusal := onClock s (completionRecordWrite x.1 x.2)

/-- COMPLETION_RECORD_WRITE_DONE (R255). -/
def execCompletionRecordWriteDone (q : Nat) (err : Bool) (s : State) : Host.Outcome State Fault Refusal := onClock s (completionRecordWriteDone q err)

/-- QUEUE_ISSUE (R250). -/
def execQueueIssue (q : Nat) (s : State) : Host.Outcome State Fault Refusal := onClock s (queueIssue q)

/-- DB_SQ (R249). -/
def execDbSq (w : Who) (q : Nat) (v : W32) (s : State) : Host.Outcome State Fault Refusal := onDoorbell s w (DB_SQ q) (dbSq w q v)

/-- DB_CQ (R249). -/
def execDbCq (w : Who) (q : Nat) (v : W32) (s : State) : Host.Outcome State Fault Refusal := onDoorbell s w (DB_CQ q) (dbCq w q v)

/-- QUEUE_ENABLE (R246). -/
def execQueueEnable (w : Who) (q : Nat) (v : W32) (s : State) : Host.Outcome State Fault Refusal := onWrite s w (SQ_CFG q) (queueEnable w q v)

/-- QUEUE_DISABLE (R251). -/
def execQueueDisable (w : Who) (q : Nat) (v : W32) (s : State) : Host.Outcome State Fault Refusal := onWrite s w (SQ_CFG q) (queueDisable w q v)

end Sys2Proof.Machine
end

