-- ==== Sys2Proof/Machine/RowsCx.lean ====
section
/-!
DEFINITION. The meaning of each command, as its row function behind the gate that says when the command can come about. Collectives (R163 to R189).
-/
namespace Sys2Proof.Machine

/-- COLLECTIVE_REQUEST (R163). -/
def execCollectiveRequest (f : Nat) (words : List W64) (s : State) : Host.Outcome State Fault Refusal := onService s f (collectiveRequest f words)

/-- COLLECTIVE_REQUEST_END (R184). -/
def execCollectiveRequestEnd (n : Nat) (par : Par) (meets : List Meet) (s : State) : Host.Outcome State Fault Refusal := onClock s (collectiveRequestEnd n par meets)

/-- STEP_TIMEOUT (R185). -/
def execStepTimeout (n : Nat) (s : State) : Host.Outcome State Fault Refusal := onClock s (stepTimeout n)

/-- FENCE_TIMEOUT (R186). -/
def execFenceTimeout (n : Nat) (s : State) : Host.Outcome State Fault Refusal := onClock s (fenceTimeout n)

/-- CONTEXT_VALIDATE (R166). -/
def execContextValidate (w : Who) (n : Nat) (v : W32) (s : State) : Host.Outcome State Fault Refusal := onWrite s w (CXE_CTL n) (whenSet CXE_CTL_V v (contextValidate w n v))

/-- CX_HALT (R185). -/
def execCxHalt (w : Who) (r : Nat) (v : W32) (s : State) : Host.Outcome State Fault Refusal := onWrite s w (CX_HALT r) (cxHalt w r v)

/-- CXE_ARDY_UPDATE (R180). -/
def execCxeArdyUpdate (f n v : Nat) (s : State) : Host.Outcome State Fault Refusal := onService s f (cxeArdyUpdate f n v)

/-- RECEIVE_POST (R175). -/
def execReceivePost (f lk : Nat) (p : Post) (s : State) : Host.Outcome State Fault Refusal := onService s f (receivePost f lk p)

/-- TOKEN_SEND (R174). -/
def execTokenSend (f lk n step code opid : Nat) (payload : List Byte) (s : State) : Host.Outcome State Fault Refusal := onService s f (tokenSend f lk n step code opid payload)

end Sys2Proof.Machine
end

