-- ==== Sys2Proof/Machine/RowsDebug.lean ====
section
/-!
DEFINITION. The meaning of each command, as its row function behind the gate that says when the command can come about. Debug, trace, power and sensors (R448 to R531).
-/
namespace Sys2Proof.Machine

/-- DEBUG_NOP (R452). -/
def execDebugNop (s : State) : Host.Outcome State Fault Refusal := onIsland s debugNop

/-- DEBUG_RD (R460). -/
def execDebugRd (frn : Nat) (eff : Bool) (a : Nat) (x : Served) (s : State) : Host.Outcome State Fault Refusal := onIsland s (debugRd frn eff a x.par x.meets)

/-- DEBUG_WR (R460). -/
def execDebugWr (frn a : Nat) (v : W32) (x : Served) (s : State) : Host.Outcome State Fault Refusal := onIsland s (debugWr frn a v x.par x.meets)

/-- DEBUG_PRD (R461). -/
def execDebugPrd (frn : Nat) (eff hi : Bool) (port : Nat) (s : State) : Host.Outcome State Fault Refusal := onIsland s (debugPrd frn eff hi port)

/-- DEBUG_PWR (R461). -/
def execDebugPwr (frn : Nat) (hi : Bool) (port : Nat) (v : W32) (s : State) : Host.Outcome State Fault Refusal := onIsland s (debugPwr frn hi port v)

/-- DEBUG_CRC_FAIL (R453). -/
def execDebugCrcFail (s : State) : Host.Outcome State Fault Refusal := onIsland s debugCrcFail

/-- DEBUG_LINE_RESET (R453). -/
def execDebugLineReset (s : State) : Host.Outcome State Fault Refusal := onIsland s debugLineReset

/-- CHAL (R456). -/
def execChal (v : W32) (s : State) : Host.Outcome State Fault Refusal := onIsland s (chal v)

/-- GO (R456). -/
def execGo (v : W32) (s : State) : Host.Outcome State Fault Refusal := onIsland s (go v)

/-- DEBUG_VERIFY_DONE (R457). -/
def execDebugVerifyDone (s : State) : Host.Outcome State Fault Refusal := onIsland s debugVerifyDone

/-- CLOSE (R458). -/
def execClose (v : W32) (s : State) : Host.Outcome State Fault Refusal := onIsland s (close v)

/-- DEBUG_IDLE_TIMEOUT (R458). -/
def execDebugIdleTimeout (s : State) : Host.Outcome State Fault Refusal := onIsland s debugIdleTimeout

/-- DEBUG_HALT_REQ (R464). -/
def execDebugHaltReq (f : Nat) (v : W32) (s : State) : Host.Outcome State Fault Refusal := onIsland s (debugHaltReq f v)

/-- DEBUG_HALT_TAKEN (R464). -/
def execDebugHaltTaken (f : Nat) (s : State) : Host.Outcome State Fault Refusal := onIsland s (debugHaltTaken f)

/-- DEBUG_RESUME (R466). -/
def execDebugResume (f : Nat) (v : W32) (s : State) : Host.Outcome State Fault Refusal := onIsland s (debugResume f v)

/-- DEBUG_STEP (R467). -/
def execDebugStep (f : Nat) (v : W32) (s : State) : Host.Outcome State Fault Refusal := onIsland s (debugStep f v)

/-- DBG_TPKT_POP (R475). -/
def execDbgTpktPop (w : Who) (s : State) : Host.Outcome State Fault Refusal := always s (dbgTpktPop w)

/-- TRACE_SINK_WRITE (R477). -/
def execTraceSinkWrite (r : Nat) (x : Bool × List Meet) (s : State) : Host.Outcome State Fault Refusal := onClock s (traceSinkWrite r x.1 x.2)

/-- TS_ENABLE (R476). -/
def execTsEnable (w : Who) (r : Nat) (v : W32) (s : State) : Host.Outcome State Fault Refusal := onWrite s w (TS_CTL r) (tsEnable w r v)

/-- PWR_SLEEP (R500). -/
def execPwrSleep (w : Who) (r : Nat) (v : W32) (s : State) : Host.Outcome State Fault Refusal := onWrite s w (PWR_CTL r) (pwrSleep w r v)

/-- PWR_OFF (R500). -/
def execPwrOff (w : Who) (r : Nat) (v : W32) (s : State) : Host.Outcome State Fault Refusal := onWrite s w (PWR_CTL r) (pwrOff w r v)

/-- PWR_WAKE (R501). -/
def execPwrWake (w : Who) (r : Nat) (v : W32) (s : State) : Host.Outcome State Fault Refusal := onWrite s w (PWR_CTL r) (pwrWake w r v)

/-- ENTER_CONDITIONS_MET (R500). -/
def execEnterConditionsMet (r : Nat) (s : State) : Host.Outcome State Fault Refusal := onClock s (enterConditionsMet r)

/-- ENTER_TIMEOUT (R500). -/
def execEnterTimeout (r : Nat) (s : State) : Host.Outcome State Fault Refusal := onIsland s (enterTimeout r)

/-- SLEEP_COMMIT (R500). -/
def execSleepCommit (r : Nat) (s : State) : Host.Outcome State Fault Refusal := onClock s (sleepCommit r)

/-- WAKE_START (R503). -/
def execWakeStart (r : Nat) (s : State) : Host.Outcome State Fault Refusal := onIsland s (wakeStart r)

/-- PWR_ACK_RISE (R503). -/
def execPwrAckRise (r : Nat) (s : State) : Host.Outcome State Fault Refusal := onIsland s (pwrAckRise r)

/-- PWR_ACK_FALL (R499). -/
def execPwrAckFall (r : Nat) (s : State) : Host.Outcome State Fault Refusal := onIsland s (pwrAckFall r)

/-- WAKE_COMPLETE (R503). -/
def execWakeComplete (r : Nat) (s : State) : Host.Outcome State Fault Refusal := onClock s (wakeComplete r)

/-- POWERUP_CLEAR_DONE (R64). -/
def execPowerupClearDone (r : Nat) (s : State) : Host.Outcome State Fault Refusal := onClock s (powerupClearDone r)

/-- WAKE_ACK_TIMEOUT (R504). -/
def execWakeAckTimeout (r : Nat) (s : State) : Host.Outcome State Fault Refusal := onIsland s (wakeAckTimeout r)

/-- IDLE_ENTRY (R502). -/
def execIdleEntry (r : Nat) (s : State) : Host.Outcome State Fault Refusal := onClock s (idleEntry r)

/-- IDLE_EXIT (R502). -/
def execIdleExit (r : Nat) (s : State) : Host.Outcome State Fault Refusal := onClock s (idleExit r)

/-- SENSOR_SAMPLE (R527). -/
def execSensorSample (r : Nat) (v : W32) (s : State) : Host.Outcome State Fault Refusal := onIsland s (sensorSample r v)

/-- LANE_SYNC_ACQUIRED (R204). -/
def execLaneSyncAcquired (l : Nat) (s : State) : Host.Outcome State Fault Refusal := onClock s (laneSyncAcquired l)

/-- STARTUP_POWER_HANDSHAKE_TIMEOUT (R442). -/
def execStartupPowerHandshakeTimeout (r : Nat) (s : State) : Host.Outcome State Fault Refusal := onStart s (startupPowerHandshakeTimeout r)

/-- TB_WRAP (R473). -/
def execTbWrap (s : State) : Host.Outcome State Fault Refusal := onIsland s tbWrap

end Sys2Proof.Machine
end

