-- ==== Sys2Proof/Machine/RowsFrond.lean ====
section
/-!
DEFINITION. The meaning of each command, as its row function behind the gate that says when the command can come about. Fronds (R284 to R355).
-/
namespace Sys2Proof.Machine

/-- SEQ (R285). -/
def execSeq (f : Nat) (e : FetchEnv) (s : State) : Host.Outcome State Fault Refusal := onClock s (wordSeq f e)

/-- JMP (R285). -/
def execJmp (f : Nat) (e : FetchEnv) (s : State) : Host.Outcome State Fault Refusal := onClock s (wordJmp f e)

/-- JMPC (R285). -/
def execJmpc (f : Nat) (e : FetchEnv) (s : State) : Host.Outcome State Fault Refusal := onClock s (wordJmpc f e)

/-- MWAY (R285). -/
def execMway (f : Nat) (e : FetchEnv) (s : State) : Host.Outcome State Fault Refusal := onClock s (wordMway f e)

/-- CALL (R285). -/
def execCall (f : Nat) (e : FetchEnv) (s : State) : Host.Outcome State Fault Refusal := onClock s (wordCall f e)

/-- RET (R285). -/
def execRet (f : Nat) (e : FetchEnv) (s : State) : Host.Outcome State Fault Refusal := onClock s (wordRet f e)

/-- RETX (R349). -/
def execRetx (f : Nat) (e : FetchEnv) (s : State) : Host.Outcome State Fault Refusal := onClock s (wordRetx f e)

/-- WAIT (R322). -/
def execWait (f : Nat) (e : FetchEnv) (s : State) : Host.Outcome State Fault Refusal := onClock s (wordWait f e)

/-- WAIT_WAKE (R322). -/
def execWaitWake (f : Nat) (s : State) : Host.Outcome State Fault Refusal := onClock s (waitWake f)

/-- HALT (R322). -/
def execHalt (f : Nat) (e : FetchEnv) (s : State) : Host.Outcome State Fault Refusal := onClock s (wordHalt f e)

/-- REP (R305). -/
def execRep (f : Nat) (e : FetchEnv) (s : State) : Host.Outcome State Fault Refusal := onClock s (wordRep f e)

/-- REPEAT_ITERATION (R305). -/
def execRepeatIteration (f : Nat) (e : FetchEnv) (s : State) : Host.Outcome State Fault Refusal := onClock s (wordIter f e)

/-- KN_FATAL (R348). -/
def execKnFatal (s : State) : Host.Outcome State Fault Refusal := onClock s knFatal

/-- FATAL_RECOVERY (R430). -/
def execFatalRecovery (s : State) : Host.Outcome State Fault Refusal := onClock s fatalRecovery

/-- SYS_GATE (R344). -/
def execSysGate (f : Nat) (v : W64) (s : State) : Host.Outcome State Fault Refusal := always s (fun h => frondMove h f 0x384 v)

/-- SYS_ST_WRITE (R336). -/
def execSysStWrite (f : Nat) (v : W64) (s : State) : Host.Outcome State Fault Refusal := always s (fun h => frondMove h f 0x380 v)

/-- SYS_PFL (R303). -/
def execSysPfl (f : Nat) (v : W64) (s : State) : Host.Outcome State Fault Refusal := always s (fun h => frondMove h f 0x386 v)

/-- SYS_FPBAR (R316). -/
def execSysFpbar (f : Nat) (v : W64) (s : State) : Host.Outcome State Fault Refusal := always s (fun h => frondMove h f 0x387 v)

/-- SYS_MBXS (R323). -/
def execSysMbxs (f : Nat) (v : W64) (s : State) : Host.Outcome State Fault Refusal := always s (fun h => frondMove h f 0x390 v)

/-- SYS_MBXR (R323). -/
def execSysMbxr (f : Nat) (s : State) : Host.Outcome State Fault Refusal := always s (fun h => frondReadPort h f 0x391)

/-- CMD_SQIN (R308). -/
def execCmdSqin (f : Nat) (s : State) : Host.Outcome State Fault Refusal := always s (fun h => frondReadPort h f 0x290)

/-- CMD_MGQ (R308). -/
def execCmdMgq (f : Nat) (s : State) : Host.Outcome State Fault Refusal := always s (fun h => frondReadPort h f 0x297)

/-- CMD_MGS (R308). -/
def execCmdMgs (f lk : Nat) (payload : List Byte) (s : State) : Host.Outcome State Fault Refusal := onService s f (cmdMgs f lk payload)

/-- STIM_WRITE (R472). -/
def execStimWrite (f k : Nat) (v : W64) (s : State) : Host.Outcome State Fault Refusal := always s (fun h => if k < 64 then frondMove h f (0x3C0 + k) v else h)

/-- ALU_ADD (R311). -/
def execAluAdd (f : Nat) (t : W64) (s : State) : Host.Outcome State Fault Refusal := always s (fun h => frondMove h f 0x101 t)

/-- ALU_SUB (R311). -/
def execAluSub (f : Nat) (t : W64) (s : State) : Host.Outcome State Fault Refusal := always s (fun h => frondMove h f 0x102 t)

/-- ALU_AND (R311). -/
def execAluAnd (f : Nat) (t : W64) (s : State) : Host.Outcome State Fault Refusal := always s (fun h => frondMove h f 0x103 t)

/-- ALU_OR (R311). -/
def execAluOr (f : Nat) (t : W64) (s : State) : Host.Outcome State Fault Refusal := always s (fun h => frondMove h f 0x104 t)

/-- ALU_XOR (R311). -/
def execAluXor (f : Nat) (t : W64) (s : State) : Host.Outcome State Fault Refusal := always s (fun h => frondMove h f 0x105 t)

/-- ALU_ANDN (R311). -/
def execAluAndn (f : Nat) (t : W64) (s : State) : Host.Outcome State Fault Refusal := always s (fun h => frondMove h f 0x106 t)

/-- ALU_SHL (R311). -/
def execAluShl (f : Nat) (t : W64) (s : State) : Host.Outcome State Fault Refusal := always s (fun h => frondMove h f 0x107 t)

/-- ALU_SHR (R311). -/
def execAluShr (f : Nat) (t : W64) (s : State) : Host.Outcome State Fault Refusal := always s (fun h => frondMove h f 0x108 t)

/-- ALU_SAR (R311). -/
def execAluSar (f : Nat) (t : W64) (s : State) : Host.Outcome State Fault Refusal := always s (fun h => frondMove h f 0x109 t)

/-- ALU_ROR (R311). -/
def execAluRor (f : Nat) (t : W64) (s : State) : Host.Outcome State Fault Refusal := always s (fun h => frondMove h f 0x10A t)

/-- ALU_EQ (R311). -/
def execAluEq (f : Nat) (t : W64) (s : State) : Host.Outcome State Fault Refusal := always s (fun h => frondMove h f 0x10B t)

/-- ALU_NE (R311). -/
def execAluNe (f : Nat) (t : W64) (s : State) : Host.Outcome State Fault Refusal := always s (fun h => frondMove h f 0x10C t)

/-- ALU_LTS (R311). -/
def execAluLts (f : Nat) (t : W64) (s : State) : Host.Outcome State Fault Refusal := always s (fun h => frondMove h f 0x10D t)

/-- ALU_LTU (R311). -/
def execAluLtu (f : Nat) (t : W64) (s : State) : Host.Outcome State Fault Refusal := always s (fun h => frondMove h f 0x10E t)

/-- ALU_GES (R311). -/
def execAluGes (f : Nat) (t : W64) (s : State) : Host.Outcome State Fault Refusal := always s (fun h => frondMove h f 0x10F t)

/-- ALU_GEU (R311). -/
def execAluGeu (f : Nat) (t : W64) (s : State) : Host.Outcome State Fault Refusal := always s (fun h => frondMove h f 0x110 t)

/-- MSTEP_MUL (R312). -/
def execMstepMul (f : Nat) (v : W64) (s : State) : Host.Outcome State Fault Refusal := always s (fun h => frondMove h f 0x143 v)

/-- MSTEP_DIV (R312). -/
def execMstepDiv (f : Nat) (v : W64) (s : State) : Host.Outcome State Fault Refusal := always s (fun h => frondMove h f 0x144 v)

/-- FPU_FMA (R314). -/
def execFpuFma (f : Nat) (t : W64) (s : State) : Host.Outcome State Fault Refusal := always s (fun h => frondMove h f 0x190 t)

/-- FPU_ADD (R314). -/
def execFpuAdd (f : Nat) (t : W64) (s : State) : Host.Outcome State Fault Refusal := always s (fun h => frondMove h f 0x191 t)

/-- FPU_MUL (R314). -/
def execFpuMul (f : Nat) (t : W64) (s : State) : Host.Outcome State Fault Refusal := always s (fun h => frondMove h f 0x192 t)

/-- FPU_MAX (R314). -/
def execFpuMax (f : Nat) (t : W64) (s : State) : Host.Outcome State Fault Refusal := always s (fun h => frondMove h f 0x193 t)

/-- FPU_MIN (R314). -/
def execFpuMin (f : Nat) (t : W64) (s : State) : Host.Outcome State Fault Refusal := always s (fun h => frondMove h f 0x194 t)

/-- FPU_RCP (R133). -/
def execFpuRcp (f : Nat) (t : W64) (s : State) : Host.Outcome State Fault Refusal := always s (fun h => frondMove h f 0x195 t)

/-- FPU_CVW (R314). -/
def execFpuCvw (f : Nat) (t : W64) (s : State) : Host.Outcome State Fault Refusal := always s (fun h => frondMove h f 0x196 t)

/-- FPU_CVI (R314). -/
def execFpuCvi (f : Nat) (t : W64) (s : State) : Host.Outcome State Fault Refusal := always s (fun h => frondMove h f 0x197 t)

/-- FPU_CVF (R314). -/
def execFpuCvf (f : Nat) (t : W64) (s : State) : Host.Outcome State Fault Refusal := always s (fun h => frondMove h f 0x198 t)

/-- FPU_RESULT_WRITE (R315). -/
def execFpuResultWrite (f : Nat) (s : State) : Host.Outcome State Fault Refusal := onClock s (fpuResultWrite f)

/-- LSU_LD8 (R317). -/
def execLsuLd8 (f : Nat) (pa : W64) (s : State) : Host.Outcome State Fault Refusal := always s (fun h => frondMove h f 0x201 pa)

/-- LSU_LD4 (R317). -/
def execLsuLd4 (f : Nat) (pa : W64) (s : State) : Host.Outcome State Fault Refusal := always s (fun h => frondMove h f 0x202 pa)

/-- LSU_ST8 (R317). -/
def execLsuSt8 (f : Nat) (pa : W64) (s : State) : Host.Outcome State Fault Refusal := always s (fun h => frondMove h f 0x203 pa)

/-- LSU_ST4 (R317). -/
def execLsuSt4 (f : Nat) (pa : W64) (s : State) : Host.Outcome State Fault Refusal := always s (fun h => frondMove h f 0x204 pa)

/-- LSU_LOAD_DONE (R318). -/
def execLsuLoadDone (f : Nat) (x : Served) (s : State) : Host.Outcome State Fault Refusal := onClock s (lsuLoadDone f x.par x.meets)

/-- LSU_STORE_ACK (R318). -/
def execLsuStoreAck (x : UnitAccess) (s : State) : Host.Outcome State Fault Refusal := onClock s (lsuStoreAck x.unit x.par x.meets)

/-- LSU_LOCK (R320). -/
def execLsuLock (f : Nat) (pa : W64) (s : State) : Host.Outcome State Fault Refusal := always s (fun h => frondMove h f 0x206 pa)

/-- LSU_LOCK_ACQUIRED (R320). -/
def execLsuLockAcquired (f : Nat) (s : State) : Host.Outcome State Fault Refusal := onClock s (lsuLockAcquired f)

/-- LSU_UNLOCK (R320). -/
def execLsuUnlock (f : Nat) (v : W64) (s : State) : Host.Outcome State Fault Refusal := always s (fun h => frondMove h f 0x207 v)

/-- LSU_LOCK_BREAK (R320). -/
def execLsuLockBreak (f : Nat) (s : State) : Host.Outcome State Fault Refusal := onClock s (lsuLockBreak f)

/-- IRQ_EOI (R369). -/
def execIrqEoi (f : Nat) (v : W64) (s : State) : Host.Outcome State Fault Refusal := always s (fun h => frondMove h f 0x320 v)

end Sys2Proof.Machine
end

