-- ==== Sys2Proof/Machine/RowsHost.lean ====
section
/-!
DEFINITION. The meaning of each command, as its row function behind the gate that says when the command can come about. Host ports and translation (R229 to R283).
-/
namespace Sys2Proof.Machine

/-- HOST_S_READ (R239). -/
def execHostSRead (port addr len tag : Nat) (priv parErr : Bool) (par : Par) (meets : List Meet) (s : State) : Host.Outcome State Fault Refusal := onClock s (hostSRead port addr len tag priv parErr par meets)

/-- HOST_S_WRITE (R239). -/
def execHostSWrite (port addr tag op : Nat) (priv parErr : Bool) (data : List (Option Byte)) (badWords : List Nat) (par : Par) (meets : List Meet) (s : State) : Host.Outcome State Fault Refusal := onClock s (hostSWrite port addr tag op priv parErr data badWords par meets)

/-- M_READ_DATA (R236). -/
def execMReadData (port tag : Nat) (data : List Byte) (bad : List Nat) (st : Nat) (last : Bool) (s : State) : Host.Outcome State Fault Refusal := onClock s (mReadData port tag data bad st last)

/-- M_WRITE_RESPONSE (R236). -/
def execMWriteResponse (port tag st : Nat) (parErr : Bool) (s : State) : Host.Outcome State Fault Refusal := onClock s (mWriteResponse port tag st parErr)

/-- M_CAS_RESPONSE (R238). -/
def execMCasResponse (port tag : Nat) (old : W64) (parErr : Bool) (st : Nat) (s : State) : Host.Outcome State Fault Refusal := onClock s (mCasResponse port tag old parErr st)

/-- HOST_CREDIT_RETURN (R232). -/
def execHostCreditReturn (port : Nat) (writeData : Bool) (s : State) : Host.Outcome State Fault Refusal := onClock s (hostCreditReturn port writeData)

/-- M_REQUEST_TIMEOUT (R234). -/
def execMRequestTimeout (port tag : Nat) (s : State) : Host.Outcome State Fault Refusal := onClock s (mRequestTimeout port tag)

/-- HOST_CLOCK_LOSS (R496). -/
def execHostClockLoss (port : Nat) (s : State) : Host.Outcome State Fault Refusal := onClock s (hostClockLoss port)

/-- HOST_CLOCK_RETURN (R496). -/
def execHostClockReturn (port : Nat) (s : State) : Host.Outcome State Fault Refusal := onClock s (hostClockReturn port)

/-- TRANSLATION_LOOKUP (R272). -/
def execTranslationLookup (ch stream : Nat) (s : State) : Host.Outcome State Fault Refusal := onClock s (translationLookup ch stream)

/-- TRANSLATION_WALK (R265). -/
def execTranslationWalk (r : Nat) (s : State) : Host.Outcome State Fault Refusal := onClock s (translationWalk r)

/-- LOOKAHEAD_WALK (R274). -/
def execLookaheadWalk (ch stream : Nat) (s : State) : Host.Outcome State Fault Refusal := onClock s (lookaheadWalk ch stream)

/-- WALK_TABLE_READ_DONE (R263). -/
def execWalkTableReadDone (r k : Nat) (s : State) : Host.Outcome State Fault Refusal := onClock s (walkTableReadDone r k)

/-- MARK_CAS_DONE (R270). -/
def execMarkCasDone (r k : Nat) (s : State) : Host.Outcome State Fault Refusal := onClock s (markCasDone r k)

/-- XLT_INV (R278). -/
def execXltInv (f : Nat) (v : W64) (s : State) : Host.Outcome State Fault Refusal := always s (fun h => frondMove h f 0x2C1 v)

/-- XLT_INV_GO (R278). -/
def execXltInvGo (w : Who) (r : Nat) (v : W32) (s : State) : Host.Outcome State Fault Refusal := onWrite s w (XLT_INV_CTL r) (whenSet XLT_INV_CTL_GO v (xltInvGo w r v))

/-- INVALIDATION_DONE (R277). -/
def execInvalidationDone (r : Nat) (s : State) : Host.Outcome State Fault Refusal := onClock s (invalidationDone r)

/-- XLT_PRB (R282). -/
def execXltPrb (f : Nat) (v : W64) (s : State) : Host.Outcome State Fault Refusal := always s (fun h => frondMove h f 0x2C4 v)

/-- PROBE_DONE (R282). -/
def execProbeDone (f : Nat) (s : State) : Host.Outcome State Fault Refusal := onClock s (probeDone f)

/-- XLT_DIR_WRITE (R260). -/
def execXltDirWrite (w : Who) (a : Nat) (v : W32) (s : State) : Host.Outcome State Fault Refusal := onWrite s w (a) (xltDirWrite w a v)

end Sys2Proof.Machine
end

