-- ==== Sys2Proof/Machine/RowsIrq.lean ====
section
/-!
DEFINITION. The meaning of each command, as its row function behind the gate that says when the command can come about. Interrupts, timers and the watchdog (R356 to R399).
-/
namespace Sys2Proof.Machine

/-- EVENT_SOURCE_FIRE (R357). -/
def execEventSourceFire (s : Nat) (st : State) : Host.Outcome State Fault Refusal := onClock st (eventSourceFire s)

/-- LEVEL_SOURCE_SAMPLE (R357). -/
def execLevelSourceSample (s : Nat) (st : State) : Host.Outcome State Fault Refusal := onClock st (levelSourceSample s)

/-- KN_IRQ_IN_EDGE (R358). -/
def execKnIrqInEdge (k : Nat) (lvl : Bool) (s : State) : Host.Outcome State Fault Refusal := onClock s (knIrqInEdge k lvl)

/-- INTERRUPT_PRESENT (R364). -/
def execInterruptPresent (s : State) : Host.Outcome State Fault Refusal := onClock s irqPresent

/-- INTERRUPT_ENTRY (R365). -/
def execInterruptEntry (f : Nat) (late : Option Nat) (e : FetchEnv) (s : State) : Host.Outcome State Fault Refusal := onClock s (interruptEntry f late e)

/-- HOLDOFF_END (R373). -/
def execHoldoffEnd (g : Nat) (s : State) : Host.Outcome State Fault Refusal := onClock s (holdoffEnd g)

/-- IRQ_PEND_WRITE (R374). -/
def execIrqPendWrite (w : Who) (g : Nat) (v : W32) (s : State) : Host.Outcome State Fault Refusal := onWrite s w (IRQ_PEND g) (fun h => irqPendWrite h g w v)

/-- TIMER_MATCH (R380). -/
def execTimerMatch (c : Nat) (s : State) : Host.Outcome State Fault Refusal := onIsland s (timerMatch c)

/-- TIMER_WRAP (R380). -/
def execTimerWrap (c : Nat) (s : State) : Host.Outcome State Fault Refusal := onIsland s (timerWrap c)

/-- TIMER_MOVER_RESPONSE (R385). -/
def execTimerMoverResponse (c : Nat) (err : Bool) (s : State) : Host.Outcome State Fault Refusal := onClock s (timerMoverResponse c err)

/-- TIMER_LINK_OPERATION (R386). -/
def execTimerLinkOperation (s : State) : Host.Outcome State Fault Refusal := onIsland s timerLinkOperation

/-- TIMER_CAPTURE (R388). -/
def execTimerCapture (c : Nat) (levels : Nat) (s : State) : Host.Outcome State Fault Refusal := onIsland s (timerCapture c levels)

/-- TMR_CAP_READ (R389). -/
def execTmrCapRead (w : Who) (c : Nat) (capture : Bool) (s : State) : Host.Outcome State Fault Refusal := onRead s w (TMR_CAP c) (tmrCapRead c capture)

/-- TIMER_START (R381). -/
def execTimerStart (w : Who) (c : Nat) (v : W32) (s : State) : Host.Outcome State Fault Refusal := onWrite s w (TMR_CMD c) (whenSet TMR_CMD_START v (fun h => tmrCmdWrite h c w v))

/-- TIMER_STOP (R381). -/
def execTimerStop (w : Who) (c : Nat) (v : W32) (s : State) : Host.Outcome State Fault Refusal := onWrite s w (TMR_CMD c) (whenSet TMR_CMD_STOP v (fun h => tmrCmdWrite h c w v))

/-- STAGGER_GO (R387). -/
def execStaggerGo (w : Who) (v : W32) (s : State) : Host.Outcome State Fault Refusal := onWrite s w (TMR_STG) (whenSet TMR_STG_GO v (staggerGo w v))

/-- TB_LO_READ (R392). -/
def execTbLoRead (w : Who) (s : State) : Host.Outcome State Fault Refusal := onRead s w TB_LO (tbLoRead w)

/-- WDT_SVC (R395). -/
def execWdtSvc (w : Who) (v : W32) (s : State) : Host.Outcome State Fault Refusal := onWrite s w (WDT_SVC) (wdtSvc w v)

/-- WATCHDOG_STAGE1_EXPIRE (R394). -/
def execWatchdogStage1Expire (s : State) : Host.Outcome State Fault Refusal := onIsland s watchdogStage1Expire

/-- WATCHDOG_STAGE2_EXPIRE (R394). -/
def execWatchdogStage2Expire (s : State) : Host.Outcome State Fault Refusal := onIsland s watchdogStage2Expire

/-- WATCHDOG_HALT_RELEASE (R398). -/
def execWatchdogHaltRelease (s : State) : Host.Outcome State Fault Refusal := onIsland s watchdogHaltRelease

/-- WDT_WIN_WRITE (R397). -/
def execWdtWinWrite (w : Who) (v : W32) (s : State) : Host.Outcome State Fault Refusal := onWrite s w (WDT_CTL) (whenSet WDT_CTL_WIN v (wdtWinWrite w v))

end Sys2Proof.Machine
end

