-- ==== Sys2Proof/Machine/RowsLink.lean ====
section
/-!
DEFINITION. The meaning of each command, as its row function behind the gate that says when the command can come about. Frames, links and lanes (R190 to R228).
-/
namespace Sys2Proof.Machine

/-- FRAME_TRANSMIT (R214). -/
def execFrameTransmit (lk pos : Nat) (s : State) : Host.Outcome State Fault Refusal := onClock s (frameTransmit lk pos)

/-- FRAME_RECEIVE_FAILED (R208). -/
def execFrameReceiveFailed (lk pos : Nat) (aw : AckWord) (s : State) : Host.Outcome State Fault Refusal := onClock s (frameReceiveFailed lk pos aw aw.hcrc)

/-- IDLE (R198). -/
def execIdle (lk pos : Nat) (f : Frame) (aw : AckWord) (s : State) : Host.Outcome State Fault Refusal := onClock s (typedFrame ftIDLE none lk pos f aw)

/-- DATA (R208). -/
def execData (lk pos : Nat) (f : Frame) (aw : AckWord) (s : State) : Host.Outcome State Fault Refusal := onClock s (typedFrame ftDATA none lk pos f aw)

/-- AREC (R198). -/
def execArec (lk pos : Nat) (f : Frame) (aw : AckWord) (s : State) : Host.Outcome State Fault Refusal := onClock s (typedFrame ftAREC none lk pos f aw)

/-- READY (R176). -/
def execReady (lk pos : Nat) (f : Frame) (aw : AckWord) (s : State) : Host.Outcome State Fault Refusal := onClock s (typedFrame ftTOKEN (some 1) lk pos f aw)

/-- BARRIER (R177). -/
def execBarrier (lk pos : Nat) (f : Frame) (aw : AckWord) (s : State) : Host.Outcome State Fault Refusal := onClock s (typedFrame ftTOKEN (some 2) lk pos f aw)

/-- ABORT (R185). -/
def execAbort (lk pos : Nat) (f : Frame) (aw : AckWord) (s : State) : Host.Outcome State Fault Refusal := onClock s (typedFrame ftTOKEN (some 3) lk pos f aw)

/-- FENCE (R186). -/
def execFence (lk pos : Nat) (f : Frame) (aw : AckWord) (s : State) : Host.Outcome State Fault Refusal := onClock s (typedFrame ftTOKEN (some 4) lk pos f aw)

/-- DONE (R184). -/
def execDone (lk pos : Nat) (f : Frame) (aw : AckWord) (s : State) : Host.Outcome State Fault Refusal := onClock s (typedFrame ftTOKEN (some 5) lk pos f aw)

/-- GETREQ (R176). -/
def execGetreq (lk pos : Nat) (f : Frame) (aw : AckWord) (s : State) : Host.Outcome State Fault Refusal := onClock s (typedFrame ftTOKEN (some 6) lk pos f aw)

/-- CREDIT (R213). -/
def execCredit (lk pos : Nat) (f : Frame) (aw : AckWord) (s : State) : Host.Outcome State Fault Refusal := onClock s (typedFrame ftCREDIT none lk pos f aw)

/-- EPOCH (R215). -/
def execEpoch (lk pos : Nat) (f : Frame) (aw : AckWord) (s : State) : Host.Outcome State Fault Refusal := onClock s (typedFrame ftEPOCH none lk pos f aw)

/-- SNAK (R217). -/
def execSnak (lk pos : Nat) (f : Frame) (aw : AckWord) (s : State) : Host.Outcome State Fault Refusal := onClock s (typedFrame ftSNAK none lk pos f aw)

/-- SREF (R217). -/
def execSref (lk pos : Nat) (f : Frame) (aw : AckWord) (s : State) : Host.Outcome State Fault Refusal := onClock s (typedFrame ftSREF none lk pos f aw)

/-- MGMT (R199). -/
def execMgmt (lk pos : Nat) (f : Frame) (aw : AckWord) (s : State) : Host.Outcome State Fault Refusal := onClock s (typedFrame ftMGMT none lk pos f aw)

/-- INIT (R219). -/
def execInitFrame (lk pos : Nat) (f : Frame) (aw : AckWord) (s : State) : Host.Outcome State Fault Refusal := onClock s (typedFrame ftLCTL (some 1) lk pos f aw)

/-- INITACK (R219). -/
def execInitack (lk pos : Nat) (f : Frame) (aw : AckWord) (s : State) : Host.Outcome State Fault Refusal := onClock s (typedFrame ftLCTL (some 2) lk pos f aw)

/-- ALIGN (R206). -/
def execAlign (lk pos : Nat) (f : Frame) (aw : AckWord) (s : State) : Host.Outcome State Fault Refusal := onClock s (alignReceived lk pos f aw aw.skew)

/-- LANESET (R224). -/
def execLaneset (lk pos : Nat) (f : Frame) (aw : AckWord) (s : State) : Host.Outcome State Fault Refusal := onClock s (typedFrame ftLCTL (some 4) lk pos f aw)

/-- LSACK (R224). -/
def execLsack (lk pos : Nat) (f : Frame) (aw : AckWord) (s : State) : Host.Outcome State Fault Refusal := onClock s (typedFrame ftLCTL (some 5) lk pos f aw)

/-- LSREF (R224). -/
def execLsref (lk pos : Nat) (f : Frame) (aw : AckWord) (s : State) : Host.Outcome State Fault Refusal := onClock s (typedFrame ftLCTL (some 6) lk pos f aw)

/-- LREQ (R224). -/
def execLreq (lk pos : Nat) (f : Frame) (aw : AckWord) (s : State) : Host.Outcome State Fault Refusal := onClock s (typedFrame ftLCTL (some 7) lk pos f aw)

/-- DOWN (R220). -/
def execDown (lk pos : Nat) (f : Frame) (aw : AckWord) (s : State) : Host.Outcome State Fault Refusal := onClock s (typedFrame ftLCTL (some 8) lk pos f aw)

/-- REPLAY_TIMEOUT (R209). -/
def execReplayTimeout (lk : Nat) (s : State) : Host.Outcome State Fault Refusal := onClock s (replayTimeout lk)

/-- NAK_TIMEOUT (R208). -/
def execNakTimeout (lk : Nat) (s : State) : Host.Outcome State Fault Refusal := onClock s (nakTimeout lk)

/-- LANESET_TIMEOUT (R224). -/
def execLanesetTimeout (lk : Nat) (s : State) : Host.Outcome State Fault Refusal := onClock s (lanesetTimeout lk)

/-- LINK_UP (R219). -/
def execLinkUp (w : Who) (lk : Nat) (v : W32) (s : State) : Host.Outcome State Fault Refusal := onWrite s w (LK_CTL lk) (whenSet LK_CTL_UP v (linkUpCmd w lk v))

/-- LINK_DOWN_CMD (R220). -/
def execLinkDownCmd (w : Who) (lk : Nat) (v : W32) (s : State) : Host.Outcome State Fault Refusal := onWrite s w (LK_CTL lk) (whenSet LK_CTL_DOWN v (linkDownCmd w lk v))

/-- LINK_RETRAIN (R220). -/
def execLinkRetrain (w : Who) (lk : Nat) (v : W32) (s : State) : Host.Outcome State Fault Refusal := onWrite s w (LK_CTL lk) (whenSet LK_CTL_RETRAIN v (linkRetrain w lk v))

/-- LANE_RETRAIN (R222). -/
def execLaneRetrain (w : Who) (l : Nat) (v : W32) (s : State) : Host.Outcome State Fault Refusal := onWrite s w (LN_CTL l) (whenSet LN_CTL_RETRAIN v (laneRetrain w l v))

/-- AN_DONE (R219). -/
def execAnDone (lk : Nat) (fallback : Bool) (s : State) : Host.Outcome State Fault Refusal := onClock s (anDone lk fallback)

/-- TRAIN_DONE (R219). -/
def execTrainDone (lk failed precode : Nat) (s : State) : Host.Outcome State Fault Refusal := onClock s (trainDone lk failed precode)

/-- TRAIN_TIMEOUT (R219). -/
def execTrainTimeout (lk : Nat) (s : State) : Host.Outcome State Fault Refusal := onClock s (trainTimeout lk)

/-- INIT_TIMEOUT (R219). -/
def execInitTimeout (lk : Nat) (s : State) : Host.Outcome State Fault Refusal := onClock s (initTimeout lk)

/-- INIT_RESEND (R219). -/
def execInitResend (lk : Nat) (s : State) : Host.Outcome State Fault Refusal := onClock s (initResend lk)

/-- LANE_SYNC_LOSS (R223). -/
def execLaneSyncLoss (l : Nat) (signal : Bool) (s : State) : Host.Outcome State Fault Refusal := onClock s (laneSyncLoss l signal)

/-- LT_SCAN (R226). -/
def execLtScan (w : Who) (l : Nat) (v : W32) (s : State) : Host.Outcome State Fault Refusal := onWrite s w (LT_CTL l) (whenSet LT_CTL_SCAN v (ltScan w l v))

/-- LT_SCAN_DONE (R226). -/
def execLtScanDone (l : Nat) (errs : W32) (s : State) : Host.Outcome State Fault Refusal := onClock s (ltScanDone l errs)

/-- LT_CLR (R226). -/
def execLtClr (w : Who) (l : Nat) (v : W32) (s : State) : Host.Outcome State Fault Refusal := onWrite s w (LT_CTL l) (whenSet LT_CTL_CLR v (ltClr w l v))

end Sys2Proof.Machine
end

