-- ==== Sys2Proof/Machine/RowsMat.lean ====
section
/-!
DEFINITION. The meaning of each command, as its row function behind the gate that says when the command can come about. The beat, claims, registers, the mat and its march (R8, R14 to R17, R32 to R34, R47 to R74).
-/
namespace Sys2Proof.Machine

/-- BEAT_BOUNDARY (R17). -/
def execBeatBoundary (s : State) : Host.Outcome State Fault Refusal := onIsland s beatBoundary

/-- BEAT_TASK_DONE (R17). -/
def execBeatTaskDone (w : Who) (v : W32) (s : State) : Host.Outcome State Fault Refusal := onWrite s w (SYS_BEATST) (beatTaskDone w v)

/-- CLAIM_REQ (R32). -/
def execClaimReq (w : Who) (a : Nat) (v : W32) (s : State) : Host.Outcome State Fault Refusal := onWrite s w (a) (claimReq w a v)

/-- CLAIM_REL (R34). -/
def execClaimRel (w : Who) (a : Nat) (v : W32) (s : State) : Host.Outcome State Fault Refusal := onWrite s w (a) (claimRel w a v)

/-- REGISTER_WRITE (R8). -/
def execRegisterWrite (w : Who) (a : Nat) (v : W32) (s : State) : Host.Outcome State Fault Refusal := always s (registerWrite w a v)

/-- RC_FIELD_READ (R8). -/
def execRcFieldRead (w : Who) (a : Nat) (sets : W32) (s : State) : Host.Outcome State Fault Refusal := always s (rcFieldRead w a sets)

/-- MAT_READ (R51). -/
def execMatRead (m : Master) (a len : Nat) (par : Par) (meets : List Meet) (s : State) : Host.Outcome State Fault Refusal := onClock s (matRead m a len par meets)

/-- MAT_WRITE (R50). -/
def execMatWrite (m : Master) (a : Nat) (data : List (Option Byte)) (par : Par) (meets : List Meet) (s : State) : Host.Outcome State Fault Refusal := onClock s (matWrite m a data par meets)

/-- MCH_START (R69). -/
def execMchStart (w : Who) (r : Nat) (v : W32) (busy : Bool) (s : State) : Host.Outcome State Fault Refusal := onWrite s w (MCH_CTL r) (whenSet MCH_CTL_START v (fun h => mchCtlWrite h r w v (marchIdle h r && !busy) false))

/-- MCH_ABORT (R69). -/
def execMchAbort (w : Who) (r : Nat) (v : W32) (s : State) : Host.Outcome State Fault Refusal := onWrite s w (MCH_CTL r) (whenSet MCH_CTL_ABORT v (fun h => mchCtlWrite h r w v false false))

/-- MARCH_ROW_LOCK (R68). -/
def execMarchRowLock (r group : Nat) (fails : List MarchFail) (s : State) : Host.Outcome State Fault Refusal := onClock s (marchRowLock r group fails)

/-- MARCH_RUN_END (R67). -/
def execMarchRunEnd (r : Nat) (spares fails : List MarchFail) (s : State) : Host.Outcome State Fault Refusal := onClock s (marchRunEnd r spares fails)

/-- SUSPECT_SERVICE_RUN (R70). -/
def execSuspectServiceRun (r : Nat) (s : State) : Host.Outcome State Fault Refusal := onClock s (suspectServiceRun r)

/-- MAT_SUSP_POP (R70). -/
def execMatSuspPop (w : Who) (r : Nat) (s : State) : Host.Outcome State Fault Refusal := onRead s w (MAT_SUSP r) (fun h => (regRead h w (MAT_SUSP r) 0).2)

/-- REPAIR_LOG_POP (R74). -/
def execRepairLogPop (w : Who) (r : Nat) (s : State) : Host.Outcome State Fault Refusal := onRead s w (RPL_DATA r) (fun h => (regRead h w (RPL_DATA r) 0).2)

end Sys2Proof.Machine
end

