-- ==== Sys2Proof/Machine/RowsRegion.lean ====
section
/-!
DEFINITION. The meaning of each command, as its row function behind the gate that says when the command can come about. Lichen, errors and recovery (R400 to R433).
-/
namespace Sys2Proof.Machine

/-- PROPOSE (R405). -/
def execPropose (w : Who) (v : W32) (s : State) : Host.Outcome State Fault Refusal := onWrite s w (LCH_CMD) (whenSet LCH_CMD_PROPOSE v (propose w v))

/-- LICHEN_HASH_DONE (R406). -/
def execLichenHashDone (s : State) : Host.Outcome State Fault Refusal := onIsland s lichenHashDone

/-- WITHDRAW (R410). -/
def execWithdraw (w : Who) (v : W32) (s : State) : Host.Outcome State Fault Refusal := onWrite s w (LCH_CMD) (whenSet LCH_CMD_WITHDRAW v (withdraw w v))

/-- LCH_HGO (R408). -/
def execLchHgo (w : Who) (v : W32) (s : State) : Host.Outcome State Fault Refusal := onWrite s w (LCH_HGO) (lchHgo w v)

/-- LCH_DGO (R408). -/
def execLchDgo (w : Who) (v : W32) (s : State) : Host.Outcome State Fault Refusal := onWrite s w (LCH_DGO) (lchDgo w v)

/-- LICHEN_VERIFY_DONE (R408). -/
def execLichenVerifyDone (s : State) : Host.Outcome State Fault Refusal := onIsland s lichenVerifyDone

/-- LICHEN_APPLY (R411). -/
def execLichenApply (s : State) : Host.Outcome State Fault Refusal := onIsland s lichenApply

/-- LICHEN_WINDOW_EXPIRE (R409). -/
def execLichenWindowExpire (s : State) : Host.Outcome State Fault Refusal := onIsland s lichenWindowExpire

/-- CONTROL_PARITY_ERROR (R418). -/
def execControlParityError (r unit addr : Nat) (s : State) : Host.Outcome State Fault Refusal := onClock s (controlParityError r unit addr)

/-- STREAM_PROTOCOL_ERROR (R26). -/
def execStreamProtocolError (r unit addr : Nat) (s : State) : Host.Outcome State Fault Refusal := onClock s (streamProtocolError r unit addr)

/-- RECOVER (R419). -/
def execRecover (w : Who) (r : Nat) (v : W32) (s : State) : Host.Outcome State Fault Refusal := always s (fun h => if recGrant h w r then recover w r v h else h)

/-- REGION_RECOVERY_START (R420). -/
def execRegionRecoveryStart (r : Nat) (s : State) : Host.Outcome State Fault Refusal := onClock s (regionRecoveryStart r)

/-- QUIESCE_DRAIN_DONE (R420). -/
def execQuiesceDrainDone (r : Nat) (s : State) : Host.Outcome State Fault Refusal := onClock s (quiesceDrainDone r)

/-- DRAIN_TIMEOUT (R423). -/
def execDrainTimeout (r : Nat) (s : State) : Host.Outcome State Fault Refusal := onClock s (regionDrainTimeout r)

/-- DISCARD_DONE (R420). -/
def execDiscardDone (r : Nat) (s : State) : Host.Outcome State Fault Refusal := onClock s (discardDone r)

/-- REJOIN (R420). -/
def execRejoin (r : Nat) (s : State) : Host.Outcome State Fault Refusal := onClock s (regionRejoin r)

/-- REGISTER_FABRIC_PARITY_ERROR (R428). -/
def execRegisterFabricParityError (w : Who) (write : Bool) (a : Nat) (s : State) : Host.Outcome State Fault Refusal := onClock s (registerFabricParityError w write a)

/-- RGN_LOG_POP (R432). -/
def execRgnLogPop (w : Who) (r : Nat) (s : State) : Host.Outcome State Fault Refusal := onRead s w (RGN_LOG_INFO r) (fun h => (regRead h w (RGN_LOG_INFO r) 0).2)

/-- MEU_LOG_POP (R428). -/
def execMeuLogPop (w : Who) (s : State) : Host.Outcome State Fault Refusal := onRead s w (MEU_LOG_INFO) (fun h => (regRead h w (MEU_LOG_INFO) 0).2)

end Sys2Proof.Machine
end

