-- ==== Sys2Proof/Machine/RowsStart.lean ====
section
/-!
DEFINITION. The meaning of each command, as its row function behind the gate that says when the command can come about. Starting, clocks and the loader (R434 to R447, R489 to R495).
-/
namespace Sys2Proof.Machine

/-- POR_ASSERT (R490). -/
def execPorAssert (s : State) : Host.Outcome State Fault Refusal := always s porAssert

/-- POR_RELEASE (R490). -/
def execPorRelease (s : State) : Host.Outcome State Fault Refusal := always s porRelease

/-- RST_ASSERT (R491). -/
def execRstAssert (s : State) : Host.Outcome State Fault Refusal := always s rstAssert

/-- RST_RELEASE (R491). -/
def execRstRelease (s : State) : Host.Outcome State Fault Refusal := always s rstRelease

/-- TEST_EN_HIGH (R489). -/
def execTestEnHigh (s : State) : Host.Outcome State Fault Refusal := always s testEnHigh

/-- PLL_LOCK (R493). -/
def execPllLock (ok : Bool) (s : State) : Host.Outcome State Fault Refusal := always s (pllLock ok)

/-- PLL_LOSS_OF_LOCK (R495). -/
def execPllLossOfLock (s : State) : Host.Outcome State Fault Refusal := always s pllLossOfLock

/-- CLOCK_RESTART (R495). -/
def execClockRestart (s : State) : Host.Outcome State Fault Refusal := always s clockRestart

/-- FLASH_COMMAND_DONE (R434). -/
def execFlashCommandDone (octal : Bool) (s : State) : Host.Outcome State Fault Refusal := onClock s (flashCommandDone octal)

/-- FLASH_COMMAND_TIMEOUT (R442). -/
def execFlashCommandTimeout (s : State) : Host.Outcome State Fault Refusal := onStart s flashCommandTimeout

/-- IMAGE_FIRST_READ_DONE (R442). -/
def execImageFirstReadDone (image : List Byte) (s : State) : Host.Outcome State Fault Refusal := onClock s (imageFirstReadDone image)

/-- STARTUP_MARCH_DONE (R444). -/
def execStartupMarchDone (fails : List (Nat × MarchFail)) (s : State) : Host.Outcome State Fault Refusal := onClock s (startupMarchDone fails)

/-- IMAGE_SECOND_READ_DONE (R442). -/
def execImageSecondReadDone (patch cust : List Byte) (s : State) : Host.Outcome State Fault Refusal := onClock s (imageSecondReadDone patch cust)

/-- BOOT_LINK_WAIT_EXPIRE (R442). -/
def execBootLinkWaitExpire (s : State) : Host.Outcome State Fault Refusal := onStart s bootLinkWaitExpire

/-- BOOTTMO_EXPIRE (R442). -/
def execBoottmoExpire (s : State) : Host.Outcome State Fault Refusal := onStart s boottmoExpire

/-- BOOTX (R412). -/
def execBootx (w : Who) (s : State) : Host.Outcome State Fault Refusal := onWrite s w (LCH_MAINT) (bootx w)

end Sys2Proof.Machine
end

