-- ==== Sys2Proof/Machine/Dispatch.lean ====
section
/-!
DEFINITION. The dispatch: one arm for each command, each a direct call of its meaning.
-/
namespace Sys2Proof.Machine

/-- The effect of a command on everything but the queue. -/
def exec (i : Instr) (s : State) : Host.Outcome State Fault Refusal :=
  match i with
  | .porAssert => Sys2Proof.Machine.execPorAssert s
  | .porRelease => Sys2Proof.Machine.execPorRelease s
  | .rstAssert => Sys2Proof.Machine.execRstAssert s
  | .rstRelease => Sys2Proof.Machine.execRstRelease s
  | .testEnHigh => Sys2Proof.Machine.execTestEnHigh s
  | .pllLock ok => Sys2Proof.Machine.execPllLock ok s
  | .pllLossOfLock => Sys2Proof.Machine.execPllLossOfLock s
  | .clockRestart => Sys2Proof.Machine.execClockRestart s
  | .flashCommandDone octal => Sys2Proof.Machine.execFlashCommandDone octal s
  | .flashCommandTimeout => Sys2Proof.Machine.execFlashCommandTimeout s
  | .imageFirstReadDone image => Sys2Proof.Machine.execImageFirstReadDone image s
  | .startupMarchDone fails => Sys2Proof.Machine.execStartupMarchDone fails s
  | .imageSecondReadDone patch cust => Sys2Proof.Machine.execImageSecondReadDone patch cust s
  | .bootLinkWaitExpire => Sys2Proof.Machine.execBootLinkWaitExpire s
  | .boottmoExpire => Sys2Proof.Machine.execBoottmoExpire s
  | .bootx w => Sys2Proof.Machine.execBootx w s
  | .beatBoundary => Sys2Proof.Machine.execBeatBoundary s
  | .beatTaskDone w v => Sys2Proof.Machine.execBeatTaskDone w v s
  | .claimReq w a v => Sys2Proof.Machine.execClaimReq w a v s
  | .claimRel w a v => Sys2Proof.Machine.execClaimRel w a v s
  | .registerWrite w a v => Sys2Proof.Machine.execRegisterWrite w a v s
  | .rcFieldRead w a sets => Sys2Proof.Machine.execRcFieldRead w a sets s
  | .matRead m a len par meets => Sys2Proof.Machine.execMatRead m a len par meets s
  | .matWrite m a data par meets => Sys2Proof.Machine.execMatWrite m a data par meets s
  | .mchStart w r v busy => Sys2Proof.Machine.execMchStart w r v busy s
  | .mchAbort w r v => Sys2Proof.Machine.execMchAbort w r v s
  | .marchRowLock r group fails => Sys2Proof.Machine.execMarchRowLock r group fails s
  | .marchRunEnd r spares fails => Sys2Proof.Machine.execMarchRunEnd r spares fails s
  | .suspectServiceRun r => Sys2Proof.Machine.execSuspectServiceRun r s
  | .matSuspPop w r => Sys2Proof.Machine.execMatSuspPop w r s
  | .repairLogPop w r => Sys2Proof.Machine.execRepairLogPop w r s
  | .chainTrigger f c v => Sys2Proof.Machine.execChainTrigger f c v s
  | .descriptorFetchDone ch x => Sys2Proof.Machine.execDescriptorFetchDone ch x s
  | .pendingPromote ch => Sys2Proof.Machine.execPendingPromote ch s
  | .chainStop w ch v => Sys2Proof.Machine.execChainStop w ch v s
  | .chainAbort w ch v => Sys2Proof.Machine.execChainAbort w ch v s
  | .segmentReread x => Sys2Proof.Machine.execSegmentReread x s
  | .progressWordWrite x => Sys2Proof.Machine.execProgressWordWrite x s
  | .chainCommandEnd ch => Sys2Proof.Machine.execChainCommandEnd ch s
  | .completionRecordWrite x => Sys2Proof.Machine.execCompletionRecordWrite x s
  | .completionRecordWriteDone q err => Sys2Proof.Machine.execCompletionRecordWriteDone q err s
  | .queueIssue q => Sys2Proof.Machine.execQueueIssue q s
  | .dbSq w q v => Sys2Proof.Machine.execDbSq w q v s
  | .dbCq w q v => Sys2Proof.Machine.execDbCq w q v s
  | .queueEnable w q v => Sys2Proof.Machine.execQueueEnable w q v s
  | .queueDisable w q v => Sys2Proof.Machine.execQueueDisable w q v s
  | .collectiveRequest f words => Sys2Proof.Machine.execCollectiveRequest f words s
  | .collectiveRequestEnd n par meets => Sys2Proof.Machine.execCollectiveRequestEnd n par meets s
  | .stepTimeout n => Sys2Proof.Machine.execStepTimeout n s
  | .fenceTimeout n => Sys2Proof.Machine.execFenceTimeout n s
  | .contextValidate w n v => Sys2Proof.Machine.execContextValidate w n v s
  | .cxHalt w r v => Sys2Proof.Machine.execCxHalt w r v s
  | .cxeArdyUpdate f n v => Sys2Proof.Machine.execCxeArdyUpdate f n v s
  | .receivePost f lk p => Sys2Proof.Machine.execReceivePost f lk p s
  | .tokenSend f lk n step code opid payload => Sys2Proof.Machine.execTokenSend f lk n step code opid payload s
  | .frameTransmit lk pos => Sys2Proof.Machine.execFrameTransmit lk pos s
  | .frameReceiveFailed lk pos aw => Sys2Proof.Machine.execFrameReceiveFailed lk pos aw s
  | .idle lk pos f aw => Sys2Proof.Machine.execIdle lk pos f aw s
  | .data lk pos f aw => Sys2Proof.Machine.execData lk pos f aw s
  | .arec lk pos f aw => Sys2Proof.Machine.execArec lk pos f aw s
  | .ready lk pos f aw => Sys2Proof.Machine.execReady lk pos f aw s
  | .barrier lk pos f aw => Sys2Proof.Machine.execBarrier lk pos f aw s
  | .abort lk pos f aw => Sys2Proof.Machine.execAbort lk pos f aw s
  | .fence lk pos f aw => Sys2Proof.Machine.execFence lk pos f aw s
  | .done lk pos f aw => Sys2Proof.Machine.execDone lk pos f aw s
  | .getreq lk pos f aw => Sys2Proof.Machine.execGetreq lk pos f aw s
  | .credit lk pos f aw => Sys2Proof.Machine.execCredit lk pos f aw s
  | .epoch lk pos f aw => Sys2Proof.Machine.execEpoch lk pos f aw s
  | .snak lk pos f aw => Sys2Proof.Machine.execSnak lk pos f aw s
  | .sref lk pos f aw => Sys2Proof.Machine.execSref lk pos f aw s
  | .mgmt lk pos f aw => Sys2Proof.Machine.execMgmt lk pos f aw s
  | .init lk pos f aw => Sys2Proof.Machine.execInitFrame lk pos f aw s
  | .initack lk pos f aw => Sys2Proof.Machine.execInitack lk pos f aw s
  | .align lk pos f aw => Sys2Proof.Machine.execAlign lk pos f aw s
  | .laneset lk pos f aw => Sys2Proof.Machine.execLaneset lk pos f aw s
  | .lsack lk pos f aw => Sys2Proof.Machine.execLsack lk pos f aw s
  | .lsref lk pos f aw => Sys2Proof.Machine.execLsref lk pos f aw s
  | .lreq lk pos f aw => Sys2Proof.Machine.execLreq lk pos f aw s
  | .down lk pos f aw => Sys2Proof.Machine.execDown lk pos f aw s
  | .replayTimeout lk => Sys2Proof.Machine.execReplayTimeout lk s
  | .nakTimeout lk => Sys2Proof.Machine.execNakTimeout lk s
  | .lanesetTimeout lk => Sys2Proof.Machine.execLanesetTimeout lk s
  | .linkUp w lk v => Sys2Proof.Machine.execLinkUp w lk v s
  | .linkDownCmd w lk v => Sys2Proof.Machine.execLinkDownCmd w lk v s
  | .linkRetrain w lk v => Sys2Proof.Machine.execLinkRetrain w lk v s
  | .laneRetrain w l v => Sys2Proof.Machine.execLaneRetrain w l v s
  | .anDone lk fallback => Sys2Proof.Machine.execAnDone lk fallback s
  | .trainDone lk failed precode => Sys2Proof.Machine.execTrainDone lk failed precode s
  | .trainTimeout lk => Sys2Proof.Machine.execTrainTimeout lk s
  | .initTimeout lk => Sys2Proof.Machine.execInitTimeout lk s
  | .initResend lk => Sys2Proof.Machine.execInitResend lk s
  | .laneSyncLoss l signal => Sys2Proof.Machine.execLaneSyncLoss l signal s
  | .ltScan w l v => Sys2Proof.Machine.execLtScan w l v s
  | .ltScanDone l errs => Sys2Proof.Machine.execLtScanDone l errs s
  | .ltClr w l v => Sys2Proof.Machine.execLtClr w l v s
  | .hostSRead port addr len tag priv parErr par meets => Sys2Proof.Machine.execHostSRead port addr len tag priv parErr par meets s
  | .hostSWrite port addr tag op priv parErr data badWords par meets => Sys2Proof.Machine.execHostSWrite port addr tag op priv parErr data badWords par meets s
  | .mReadData port tag data bad st last => Sys2Proof.Machine.execMReadData port tag data bad st last s
  | .mWriteResponse port tag st parErr => Sys2Proof.Machine.execMWriteResponse port tag st parErr s
  | .mCasResponse port tag old parErr st => Sys2Proof.Machine.execMCasResponse port tag old parErr st s
  | .hostCreditReturn port writeData => Sys2Proof.Machine.execHostCreditReturn port writeData s
  | .mRequestTimeout port tag => Sys2Proof.Machine.execMRequestTimeout port tag s
  | .hostClockLoss port => Sys2Proof.Machine.execHostClockLoss port s
  | .hostClockReturn port => Sys2Proof.Machine.execHostClockReturn port s
  | .translationLookup ch stream => Sys2Proof.Machine.execTranslationLookup ch stream s
  | .translationWalk r => Sys2Proof.Machine.execTranslationWalk r s
  | .lookaheadWalk ch stream => Sys2Proof.Machine.execLookaheadWalk ch stream s
  | .walkTableReadDone r k => Sys2Proof.Machine.execWalkTableReadDone r k s
  | .markCasDone r k => Sys2Proof.Machine.execMarkCasDone r k s
  | .xltInv f v => Sys2Proof.Machine.execXltInv f v s
  | .xltInvGo w r v => Sys2Proof.Machine.execXltInvGo w r v s
  | .invalidationDone r => Sys2Proof.Machine.execInvalidationDone r s
  | .xltPrb f v => Sys2Proof.Machine.execXltPrb f v s
  | .probeDone f => Sys2Proof.Machine.execProbeDone f s
  | .xltDirWrite w a v => Sys2Proof.Machine.execXltDirWrite w a v s
  | .seq f e => Sys2Proof.Machine.execSeq f e s
  | .jmp f e => Sys2Proof.Machine.execJmp f e s
  | .jmpc f e => Sys2Proof.Machine.execJmpc f e s
  | .mway f e => Sys2Proof.Machine.execMway f e s
  | .call f e => Sys2Proof.Machine.execCall f e s
  | .ret f e => Sys2Proof.Machine.execRet f e s
  | .retx f e => Sys2Proof.Machine.execRetx f e s
  | .wait f e => Sys2Proof.Machine.execWait f e s
  | .waitWake f => Sys2Proof.Machine.execWaitWake f s
  | .halt f e => Sys2Proof.Machine.execHalt f e s
  | .rep f e => Sys2Proof.Machine.execRep f e s
  | .repeatIteration f e => Sys2Proof.Machine.execRepeatIteration f e s
  | .knFatal => Sys2Proof.Machine.execKnFatal s
  | .fatalRecovery => Sys2Proof.Machine.execFatalRecovery s
  | .sysGate f v => Sys2Proof.Machine.execSysGate f v s
  | .sysStWrite f v => Sys2Proof.Machine.execSysStWrite f v s
  | .sysPfl f v => Sys2Proof.Machine.execSysPfl f v s
  | .sysFpbar f v => Sys2Proof.Machine.execSysFpbar f v s
  | .sysMbxs f v => Sys2Proof.Machine.execSysMbxs f v s
  | .sysMbxr f => Sys2Proof.Machine.execSysMbxr f s
  | .cmdSqin f => Sys2Proof.Machine.execCmdSqin f s
  | .cmdMgq f => Sys2Proof.Machine.execCmdMgq f s
  | .cmdMgs f lk payload => Sys2Proof.Machine.execCmdMgs f lk payload s
  | .stimWrite f k v => Sys2Proof.Machine.execStimWrite f k v s
  | .aluAdd f t => Sys2Proof.Machine.execAluAdd f t s
  | .aluSub f t => Sys2Proof.Machine.execAluSub f t s
  | .aluAnd f t => Sys2Proof.Machine.execAluAnd f t s
  | .aluOr f t => Sys2Proof.Machine.execAluOr f t s
  | .aluXor f t => Sys2Proof.Machine.execAluXor f t s
  | .aluAndn f t => Sys2Proof.Machine.execAluAndn f t s
  | .aluShl f t => Sys2Proof.Machine.execAluShl f t s
  | .aluShr f t => Sys2Proof.Machine.execAluShr f t s
  | .aluSar f t => Sys2Proof.Machine.execAluSar f t s
  | .aluRor f t => Sys2Proof.Machine.execAluRor f t s
  | .aluEq f t => Sys2Proof.Machine.execAluEq f t s
  | .aluNe f t => Sys2Proof.Machine.execAluNe f t s
  | .aluLts f t => Sys2Proof.Machine.execAluLts f t s
  | .aluLtu f t => Sys2Proof.Machine.execAluLtu f t s
  | .aluGes f t => Sys2Proof.Machine.execAluGes f t s
  | .aluGeu f t => Sys2Proof.Machine.execAluGeu f t s
  | .mstepMul f v => Sys2Proof.Machine.execMstepMul f v s
  | .mstepDiv f v => Sys2Proof.Machine.execMstepDiv f v s
  | .fpuFma f t => Sys2Proof.Machine.execFpuFma f t s
  | .fpuAdd f t => Sys2Proof.Machine.execFpuAdd f t s
  | .fpuMul f t => Sys2Proof.Machine.execFpuMul f t s
  | .fpuMax f t => Sys2Proof.Machine.execFpuMax f t s
  | .fpuMin f t => Sys2Proof.Machine.execFpuMin f t s
  | .fpuRcp f t => Sys2Proof.Machine.execFpuRcp f t s
  | .fpuCvw f t => Sys2Proof.Machine.execFpuCvw f t s
  | .fpuCvi f t => Sys2Proof.Machine.execFpuCvi f t s
  | .fpuCvf f t => Sys2Proof.Machine.execFpuCvf f t s
  | .fpuResultWrite f => Sys2Proof.Machine.execFpuResultWrite f s
  | .lsuLd8 f pa => Sys2Proof.Machine.execLsuLd8 f pa s
  | .lsuLd4 f pa => Sys2Proof.Machine.execLsuLd4 f pa s
  | .lsuSt8 f pa => Sys2Proof.Machine.execLsuSt8 f pa s
  | .lsuSt4 f pa => Sys2Proof.Machine.execLsuSt4 f pa s
  | .lsuLoadDone f x => Sys2Proof.Machine.execLsuLoadDone f x s
  | .lsuStoreAck x => Sys2Proof.Machine.execLsuStoreAck x s
  | .lsuLock f pa => Sys2Proof.Machine.execLsuLock f pa s
  | .lsuLockAcquired f => Sys2Proof.Machine.execLsuLockAcquired f s
  | .lsuUnlock f v => Sys2Proof.Machine.execLsuUnlock f v s
  | .lsuLockBreak f => Sys2Proof.Machine.execLsuLockBreak f s
  | .irqEoi f v => Sys2Proof.Machine.execIrqEoi f v s
  | .eventSourceFire x => Sys2Proof.Machine.execEventSourceFire x s
  | .levelSourceSample x => Sys2Proof.Machine.execLevelSourceSample x s
  | .knIrqInEdge k lvl => Sys2Proof.Machine.execKnIrqInEdge k lvl s
  | .interruptPresent => Sys2Proof.Machine.execInterruptPresent s
  | .interruptEntry f late e => Sys2Proof.Machine.execInterruptEntry f late e s
  | .holdoffEnd g => Sys2Proof.Machine.execHoldoffEnd g s
  | .irqPendWrite w g v => Sys2Proof.Machine.execIrqPendWrite w g v s
  | .timerMatch c => Sys2Proof.Machine.execTimerMatch c s
  | .timerWrap c => Sys2Proof.Machine.execTimerWrap c s
  | .timerMoverResponse c err => Sys2Proof.Machine.execTimerMoverResponse c err s
  | .timerLinkOperation => Sys2Proof.Machine.execTimerLinkOperation s
  | .timerCapture c levels => Sys2Proof.Machine.execTimerCapture c levels s
  | .tmrCapRead w c capture => Sys2Proof.Machine.execTmrCapRead w c capture s
  | .timerStart w c v => Sys2Proof.Machine.execTimerStart w c v s
  | .timerStop w c v => Sys2Proof.Machine.execTimerStop w c v s
  | .staggerGo w v => Sys2Proof.Machine.execStaggerGo w v s
  | .tbLoRead w => Sys2Proof.Machine.execTbLoRead w s
  | .wdtSvc w v => Sys2Proof.Machine.execWdtSvc w v s
  | .watchdogStage1Expire => Sys2Proof.Machine.execWatchdogStage1Expire s
  | .watchdogStage2Expire => Sys2Proof.Machine.execWatchdogStage2Expire s
  | .watchdogHaltRelease => Sys2Proof.Machine.execWatchdogHaltRelease s
  | .wdtWinWrite w v => Sys2Proof.Machine.execWdtWinWrite w v s
  | .propose w v => Sys2Proof.Machine.execPropose w v s
  | .lichenHashDone => Sys2Proof.Machine.execLichenHashDone s
  | .withdraw w v => Sys2Proof.Machine.execWithdraw w v s
  | .lchHgo w v => Sys2Proof.Machine.execLchHgo w v s
  | .lchDgo w v => Sys2Proof.Machine.execLchDgo w v s
  | .lichenVerifyDone => Sys2Proof.Machine.execLichenVerifyDone s
  | .lichenApply => Sys2Proof.Machine.execLichenApply s
  | .lichenWindowExpire => Sys2Proof.Machine.execLichenWindowExpire s
  | .controlParityError r unit addr => Sys2Proof.Machine.execControlParityError r unit addr s
  | .streamProtocolError r unit addr => Sys2Proof.Machine.execStreamProtocolError r unit addr s
  | .recover w r v => Sys2Proof.Machine.execRecover w r v s
  | .regionRecoveryStart r => Sys2Proof.Machine.execRegionRecoveryStart r s
  | .quiesceDrainDone r => Sys2Proof.Machine.execQuiesceDrainDone r s
  | .drainTimeout r => Sys2Proof.Machine.execDrainTimeout r s
  | .discardDone r => Sys2Proof.Machine.execDiscardDone r s
  | .rejoin r => Sys2Proof.Machine.execRejoin r s
  | .registerFabricParityError w write a => Sys2Proof.Machine.execRegisterFabricParityError w write a s
  | .rgnLogPop w r => Sys2Proof.Machine.execRgnLogPop w r s
  | .meuLogPop w => Sys2Proof.Machine.execMeuLogPop w s
  | .debugNop => Sys2Proof.Machine.execDebugNop s
  | .debugRd frn eff a x => Sys2Proof.Machine.execDebugRd frn eff a x s
  | .debugWr frn a v x => Sys2Proof.Machine.execDebugWr frn a v x s
  | .debugPrd frn eff hi port => Sys2Proof.Machine.execDebugPrd frn eff hi port s
  | .debugPwr frn hi port v => Sys2Proof.Machine.execDebugPwr frn hi port v s
  | .debugCrcFail => Sys2Proof.Machine.execDebugCrcFail s
  | .debugLineReset => Sys2Proof.Machine.execDebugLineReset s
  | .chal v => Sys2Proof.Machine.execChal v s
  | .go v => Sys2Proof.Machine.execGo v s
  | .debugVerifyDone => Sys2Proof.Machine.execDebugVerifyDone s
  | .close v => Sys2Proof.Machine.execClose v s
  | .debugIdleTimeout => Sys2Proof.Machine.execDebugIdleTimeout s
  | .debugHaltReq f v => Sys2Proof.Machine.execDebugHaltReq f v s
  | .debugHaltTaken f => Sys2Proof.Machine.execDebugHaltTaken f s
  | .debugResume f v => Sys2Proof.Machine.execDebugResume f v s
  | .debugStep f v => Sys2Proof.Machine.execDebugStep f v s
  | .dbgTpktPop w => Sys2Proof.Machine.execDbgTpktPop w s
  | .traceSinkWrite r x => Sys2Proof.Machine.execTraceSinkWrite r x s
  | .tsEnable w r v => Sys2Proof.Machine.execTsEnable w r v s
  | .pwrSleep w r v => Sys2Proof.Machine.execPwrSleep w r v s
  | .pwrOff w r v => Sys2Proof.Machine.execPwrOff w r v s
  | .pwrWake w r v => Sys2Proof.Machine.execPwrWake w r v s
  | .enterConditionsMet r => Sys2Proof.Machine.execEnterConditionsMet r s
  | .enterTimeout r => Sys2Proof.Machine.execEnterTimeout r s
  | .sleepCommit r => Sys2Proof.Machine.execSleepCommit r s
  | .wakeStart r => Sys2Proof.Machine.execWakeStart r s
  | .pwrAckRise r => Sys2Proof.Machine.execPwrAckRise r s
  | .pwrAckFall r => Sys2Proof.Machine.execPwrAckFall r s
  | .wakeComplete r => Sys2Proof.Machine.execWakeComplete r s
  | .powerupClearDone r => Sys2Proof.Machine.execPowerupClearDone r s
  | .wakeAckTimeout r => Sys2Proof.Machine.execWakeAckTimeout r s
  | .idleEntry r => Sys2Proof.Machine.execIdleEntry r s
  | .idleExit r => Sys2Proof.Machine.execIdleExit r s
  | .sensorSample r v => Sys2Proof.Machine.execSensorSample r v s
  | .laneSyncAcquired l => Sys2Proof.Machine.execLaneSyncAcquired l s
  | .startupPowerHandshakeTimeout r => Sys2Proof.Machine.execStartupPowerHandshakeTimeout r s
  | .tbWrap => Sys2Proof.Machine.execTbWrap s

end Sys2Proof.Machine
end

