-- ==== Sys2Proof/Machine/Step.lean ====
section
/-!
DEFINITION. One step: the command that has waited longest has its effect; with none waiting, one tick of CK_A passes.
-/
namespace Sys2Proof.Machine

/-- A step with no command waiting: one CK_A tick with all that it brings by itself (R12, R15, R377, R391), which needs the end of power-on reset. -/
def idleTick (s : State) : State := { s with hw := if s.hw.porN then clockTick s.hw else s.hw }

/-- One step. -/
def step (s : State) : Host.Outcome State Fault Refusal :=
  match s.pending with
  | [] => .next (idleTick s)
  | c :: rest => exec c { s with pending := rest }

/-- The state with the command that a word spells at the front of its queue. -/
def State.withFetchWord (s : State) (nbits w : Nat) : State :=
  match decodeTableWord nbits w with
  | some c => { s with pending := c :: s.pending }
  | none => s

end Sys2Proof.Machine
end

