-- ==== Sys2Proof/Safety.lean ====
section
/-!
DEFINITION. What the claims mean by a sound block: its memories in canonical form, its register file and tables with rising keys, and a block in power-on reset that is still.
-/
namespace Sys2Proof.Machine

/-- The byte memories in canonical form (R64): keys strictly rising, no listed zero. -/
def Hw.memoriesOk (h : Hw) : Bool := Memory.wf h.mem && Memory.wf h.scratch

/-- The register file lists each address once, in rising order. -/
def Hw.regsOk (h : Hw) : Bool := kvSorted h.regs

/-- Canonical storage. -/
def State.canonical (s : State) : Bool := s.hw.memoriesOk && s.hw.regsOk

/-- The command i answers a next state with the queue untouched, and P holds of its block. -/
def Gives (i : Instr) (s : State) (P : Hw → Prop) : Prop := ∃ t, exec i s = .next t ∧ t.pending = s.pending ∧ P t.hw

/-- The frond f transports its next word: it runs, no halt is due, no fault is owed and nothing holds the word in T (R316, R319, R320, R338, R464). -/
def frondReady (h : Hw) (f : Nat) : Bool :=
  frondLive h f && (h.frond f).run == .run && !haltDue (h.frond f) && !heldInT h f && !(h.frond f).fpOwed && !(h.frond f).storeErr

/-- The frond f at the transport of its next word: a barrier that held it is spent (R316). -/
def moving (h : Hw) (f : Nat) : Frond := { h.frond f with fpbar := false }

/-- The next word of the frond f is transported, raises no fault, waits for nothing and executes no move; no step of the debugger is under way. -/
def wordClean (h : Hw) (f : Nat) (e : FetchEnv) : Bool :=
  frondReady h f && (dueFault (wordAged h f e) f e).isNone && !lsuStalls h f && (liveMoves (h.frond f) (nextWord h f)).isEmpty && !(h.frond f).stepReq

/-- The frond's next word stands by itself: no delay word, no repeat, no shadow of an ST write. -/
def wordAlone (x : Frond) : Bool := !x.inDelay && x.rep.isNone && x.stNext.isNone

/-- What an ALU trigger leaves (R311): R holds r, F holds Z, N, C and V, and nothing else differs. -/
def AluLeaves (h : Hw) (f : Nat) (r : W64) (c v : Bool) (h' : Hw) : Prop :=
  ∃ fl : BitVec 4, h' = h.setFrond f { moving h f with aluR := r, aluF := fl } ∧
    fl.getLsbD 3 = (r == 0) ∧ fl.getLsbD 2 = r.msb ∧ fl.getLsbD 1 = c ∧ fl.getLsbD 0 = v

/-- A master with no load, store or stream of its own waiting for the access. -/
def plainMaster (h : Hw) : Master → Bool
  | .frond f => (h.frond f).load.isNone && (h.frond f).stores.isEmpty
  | .fetchA _ => false
  | .fetchB _ => false
  | .store _ => false
  | .mover _ => true
  | .rxWriter _ => true
  | .txReader _ => true
  | .march _ => true
  | .debugger _ => true
  | .queueEngine _ => true
  | .traceSink _ => true
  | .hostB _ => true

/-- The chain ch holds the command e alone, in no group, and no other chain of its region holds one. -/
def soleCmd (h : Hw) (ch : Nat) (e : Exec) : Bool :=
  (h.chain ch).act == [e] && e.gid == 0 && (List.range 8).all (fun c => 8 * (ch / 8) + c == ch || (h.chain (8 * (ch / 8) + c)).act.isEmpty)

/-- No collective request runs, and no link holds a frame that awaits its place. -/
def svcQuiet (h : Hw) : Bool := h.ctxs.all (fun e => e.2.run.isNone && e.2.gets.isEmpty) && h.links.all (fun e => e.2.rbuf.isEmpty && e.2.strays.isEmpty)

/-- The block once the figures of a lane and the acknowledgement word of a good slot are taken (R197, R222). -/
def slotTaken (h : Hw) (lk l : Nat) (aw : AckWord) : Hw :=
  let h1 := laneFigures h l aw
  ackReceive (h1.setLane l { h1.lane l with hfail := 0 }) lk aw

/-- A good slot in the turn of its row at a position of a link in ALIGN or beyond, on a lane in SYNC and in no loopback, of a served region; its frame is no protocol error. -/
def frameSlot (h : Hw) (lk pos l : Nat) (f : Frame) (aw : AckWord) : Bool :=
  h.laneAt lk pos == some l && h.rf (LN_STAT l) LN_STAT_DLN == 2 && h.loopOf l == 0 && h.memServed (lk / 32) && decide (lsAlign ≤ h.lkState lk) && rxTurn h lk l &&
  decide (lsAlign ≤ (slotTaken h lk l aw).lkState lk) && !frameProto f

/-- Such a slot of the receive set, whose sequenced frame is the next in order on a link that is UP and does not quiesce. -/
def frameNext (h : Hw) (lk pos l : Nat) (f : Frame) (aw : AckWord) : Bool :=
  let h0 := slotTaken h lk l aw
  frameSlot h lk pos l f aw && sequenced f && inRxSet h lk l && h0.lkUp lk && h0.lkState lk != lsQuiesce && f.seq == h0.rf (LK_RXSEQ lk) LK_RXSEQ_EXP

/-- The commands that power-on reset does not hold off: its own pins (R489, R490). -/
def pinCommand : Instr → Bool
  | .porAssert => true
  | .porRelease => true
  | .testEnHigh => true
  | .rstAssert => true
  | .rstRelease => true
  | _ => false

end Sys2Proof.Machine
end

