-- ==== Sys2Proof/Certificates/Slice0/Obligations.lean ====
section
/-!
DEFINITION. The statements for the provers. Each says, for every state and every operand that meets its hypotheses, what a command does; `Gives i s P` says that the command i
answers a next state with the queue untouched and P of its block.
-/

open Sys2Proof Sys2Proof.Machine

/-- For every state and every frond that transports its next word, a move of T to ALU.ADD, SUB, AND, OR, XOR or ANDN answers the state in which ALU.R holds the result of O and T, ALU.F holds Z, N, C and V, and every other part of the frond and of the block is unchanged. C is the carry out of ADD and 1 when SUB borrows nothing; V is signed overflow; the others clear C and V. -/
def Obligations.AluSumsAndLogicLeaveResultAndFlags : Prop :=
  ∀ (s : State) (f : Nat) (t : W64), frondReady s.hw f = true →
    let o := (s.hw.frond f).aluO
    Gives (.aluAdd f t) s (AluLeaves s.hw f (o + t) (decide (2 ^ 64 ≤ o.toNat + t.toNat)) (decide ((o + t).toInt ≠ o.toInt + t.toInt))) ∧
    Gives (.aluSub f t) s (AluLeaves s.hw f (o - t) (decide (t.toNat ≤ o.toNat)) (decide ((o - t).toInt ≠ o.toInt - t.toInt))) ∧
    Gives (.aluAnd f t) s (AluLeaves s.hw f (o &&& t) false false) ∧
    Gives (.aluOr f t) s (AluLeaves s.hw f (o ||| t) false false) ∧
    Gives (.aluXor f t) s (AluLeaves s.hw f (o ^^^ t) false false) ∧
    Gives (.aluAndn f t) s (AluLeaves s.hw f (o &&& ~~~t) false false)

/-- For every state and every frond that transports its next word, a move of T to a shift shifts or rotates O by T[5:0], and a move of T to a comparison gives 1 or 0; Z and N follow the result, C and V are cleared, and nothing else changes. -/
def Obligations.AluShiftsAndComparesLeaveResultAndFlags : Prop :=
  ∀ (s : State) (f : Nat) (t : W64), frondReady s.hw f = true →
    let o := (s.hw.frond f).aluO
    let n := t.toNat % 64
    let one := fun (b : Bool) => (if b then 1 else 0 : W64)
    Gives (.aluShl f t) s (AluLeaves s.hw f (o <<< n) false false) ∧
    Gives (.aluShr f t) s (AluLeaves s.hw f (o >>> n) false false) ∧
    Gives (.aluSar f t) s (AluLeaves s.hw f (o.sshiftRight n) false false) ∧
    Gives (.aluRor f t) s (AluLeaves s.hw f (o.rotateRight n) false false) ∧
    Gives (.aluEq f t) s (AluLeaves s.hw f (one (decide (o = t))) false false) ∧
    Gives (.aluNe f t) s (AluLeaves s.hw f (one (decide (o ≠ t))) false false) ∧
    Gives (.aluLts f t) s (AluLeaves s.hw f (one (decide (o.toInt < t.toInt))) false false) ∧
    Gives (.aluLtu f t) s (AluLeaves s.hw f (one (decide (o.toNat < t.toNat))) false false) ∧
    Gives (.aluGes f t) s (AluLeaves s.hw f (one (decide (t.toInt ≤ o.toInt))) false false) ∧
    Gives (.aluGeu f t) s (AluLeaves s.hw f (one (decide (t.toNat ≤ o.toNat))) false false)

/-- For every state and every frond that transports its next word: MSTEP.MUL leaves {ACC, Q} as the 129-bit value {c, ACC + M or ACC, Q} shifted right by one; MSTEP.DIV shifts {ACC, Q} left by one, subtracts M from the 65-bit ACC where it is not below M and sets Q[0] then. Nothing else changes. -/
def Obligations.MstepStepsMultiplyAndDivide : Prop :=
  ∀ (s : State) (f : Nat) (v : W64), frondReady s.hw f = true →
    let x := moving s.hw f
    Gives (.mstepMul f v) s (fun h' => ∃ a q : W64, h' = s.hw.setFrond f { x with msACC := a, msQ := q } ∧
      a.toNat * 2 ^ 64 + q.toNat = ((x.msACC.toNat + (if x.msQ.toNat % 2 = 1 then x.msM.toNat else 0)) * 2 ^ 64 + x.msQ.toNat) / 2) ∧
    Gives (.mstepDiv f v) s (fun h' => ∃ a q : W64, h' = s.hw.setFrond f { x with msACC := a, msQ := q } ∧
      let n := 2 * x.msACC.toNat + x.msQ.toNat / 2 ^ 63
      (x.msM.toNat ≤ n → a.toNat = (n - x.msM.toNat) % 2 ^ 64 ∧ q.toNat = 2 * x.msQ.toNat % 2 ^ 64 + 1) ∧
      (n < x.msM.toNat → a.toNat = n % 2 ^ 64 ∧ q.toNat = 2 * x.msQ.toNat % 2 ^ 64))

/-- For every state and every frond that transports its next word, each of the nine FPU triggers starts one operation, numbered by FPU.YN, with the result of that operation, and advances YN modulo 4; no Y port and no flag changes yet. FPU_RESULT_WRITE of a frond with an operation under way writes the oldest result to its Y port, ORs its flags into FPU.FLG, and makes FP_TRAP owed when ST.FTE = 1 and an enabled flag is raised. The estimates of a reciprocal are free values within their bound, one for each operand. -/
def Obligations.FpuTriggersQueueAndResultsAreWritten : Prop :=
  (∀ (s : State) (f : Nat) (t : W64), frondReady s.hw f = true →
    let x := moving s.hw f
    let starts := fun (k : Nat) (h' : Hw) =>
      let (v, fl) := fpuCompute k x.fCtl x.fA x.fB t
      h' = s.hw.setFrond f { x with fPend := x.fPend ++ [⟨x.fYN, v, BitVec.ofNat 5 fl, 0⟩], fYN := (x.fYN + 1) % 4 }
    Gives (.fpuFma f t) s (starts 0) ∧ Gives (.fpuAdd f t) s (starts 1) ∧ Gives (.fpuMul f t) s (starts 2) ∧
    Gives (.fpuMax f t) s (starts 3) ∧ Gives (.fpuMin f t) s (starts 4) ∧ Gives (.fpuRcp f t) s (starts 5) ∧
    Gives (.fpuCvw f t) s (starts 6) ∧ Gives (.fpuCvi f t) s (starts 7) ∧ Gives (.fpuCvf f t) s (starts 8)) ∧
  (∀ (s : State) (f : Nat) (o : FpuOp) (rest : List FpuOp), s.hw.clocked = true → s.hw.hasFrond f = true →
    (s.hw.frond f).fPend = o :: rest →
    Gives (.fpuResultWrite f) s (fun h' => let x := s.hw.frond f
      ∃ owed : Bool, h' = s.hw.setFrond f { x with fPend := rest, fY := kvIns x.fY o.y o.val, fFlg := x.fFlg ||| o.flg, fpOwed := owed } ∧
        (owed = true ↔ x.fpOwed = true ∨ (stFTE x.st = true ∧ Nat.land o.flg.toNat (fpuTEN x.fCtl) ≠ 0))))

/-- For every state and every frond that transports its next word with no failed load owed: an aligned load trigger with no load outstanding records the load of PA[52:0], its size and its status, and an aligned store trigger with fewer than 4 stores buffered appends a store of LSU.SD. Every other frond, the memories and the rest of this frond are unchanged. -/
def Obligations.LsuTriggersRecordTheAccess : Prop :=
  ∀ (s : State) (f : Nat) (pa : W64), frondReady s.hw f = true → (s.hw.frond f).loadErr = false →
    let x := moving s.hw f
    let keeps := fun (y : Frond) (h' : Hw) => h'.frond f = y ∧ (∀ g, g ≠ f → h'.frond g = s.hw.frond g) ∧ h'.mem = s.hw.mem ∧ h'.scratch = s.hw.scratch
    let load := fun (n : Nat) => { x with load := some ⟨pa.toNat % 2 ^ 53, n, x.world, stS x.st, x.lsuSeq, none⟩, lsuSeq := x.lsuSeq + 1 }
    let store := fun (n : Nat) => { x with stores := x.stores ++ [⟨pa.toNat % 2 ^ 53, n, x.lsuSD, x.world, stS x.st, x.lsuSeq, none⟩], lsuSeq := x.lsuSeq + 1 }
    (pa.toNat % 8 = 0 → x.load = none → Gives (.lsuLd8 f pa) s (keeps (load 8))) ∧
    (pa.toNat % 4 = 0 → x.load = none → Gives (.lsuLd4 f pa) s (keeps (load 4))) ∧
    (pa.toNat % 8 = 0 → x.stores.length < 4 → Gives (.lsuSt8 f pa) s (keeps (store 8))) ∧
    (pa.toNat % 4 = 0 → x.stores.length < 4 → Gives (.lsuSt4 f pa) s (keeps (store 4)))

/-- For every frond that transports its next word outside a RETX delay word, with ML below 11 and no ST write in its shadow, a load or store trigger of 8 bytes at an address that is not a multiple of 8, with the units free, enters the handler of its fault table entry when that entry is valid and its address admits the frond at supervisor level: SRA is the word, SST holds the old ST in [31:24] with ENT = 1 and CAUSE = 0x0B, ST keeps W and has S = 1, ML = 11, HOLD = 1, FTE = 0, and the next word is the handler's. No load or store begins. -/
def Obligations.MisalignedLsuTriggerTakesItsFault : Prop :=
  ∀ (s : State) (f : Nat) (pa : W64), frondReady s.hw f = true → pa.toNat % 8 ≠ 0 →
    let x := s.hw.frond f
    x.load = none → x.stores.length < 4 → x.retx = false → x.stNext = none → x.stepReq = false → stML x.st < 11 →
    let e := faultEntry s.hw f 11
    bit e 31 = true → handlerBad s.hw f (e % 65536) = false →
    ∀ i ∈ [Instr.lsuLd8 f pa, .lsuSt8 f pa], Gives i s (fun h' =>
      let y := h'.frond f
      y.sra = x.pc ∧ y.pc = BitVec.ofNat 16 e ∧ y.load = none ∧ y.stores = x.stores ∧ y.run = .run ∧
      bits y.sst.toNat 31 24 = bits x.st.toNat 31 24 ∧ bits y.sst.toNat 15 14 = 1 ∧ bits y.sst.toNat 13 8 = 11 ∧
      stS y.st = true ∧ stML y.st = 11 ∧ stHOLD y.st = true ∧ stFTE y.st = false ∧ bit y.st.toNat 31 = (x.world == .tenant) ∧
      h'.mem = s.hw.mem ∧ h'.scratch = s.hw.scratch ∧ ∀ g, g ≠ f → h'.frond g = s.hw.frond g)

/-- For every frond that transports its next word: at user level with ML below 12, a move to SYS.MBXS, SYS.PFL, IRQ.EOI, XLT.INV or XLT.PRB enters the PRIV handler with CAUSE = 0x09 when its entry is valid and admitted, and nothing is sent, flushed, completed or invalidated. At ML 15 the same fault locks the frond up with FRN_LOCK cause 1 and the bit of the frond in SYS_LOCK set. -/
def Obligations.PrivilegedPortAtUserLevelRaisesPriv : Prop :=
  ∀ (s : State) (f : Nat) (v : W64), frondReady s.hw f = true →
    let x := s.hw.frond f
    stS x.st = false → x.retx = false → x.stNext = none → x.stepReq = false →
    ∀ i ∈ [Instr.sysMbxs f v, .sysPfl f v, .irqEoi f v, .xltInv f v, .xltPrb f v],
      (stML x.st < 12 → bit (faultEntry s.hw f 9) 31 = true → handlerBad s.hw f (faultEntry s.hw f 9 % 65536) = false →
        Gives i s (fun h' => (h'.frond f).sra = x.pc ∧ bits (h'.frond f).sst.toNat 13 8 = 9 ∧ stS (h'.frond f).st = true ∧ stML (h'.frond f).st = 12 ∧
          (h'.frond f).pc = BitVec.ofNat 16 (faultEntry s.hw f 9) ∧ (h'.frond f).ras = x.ras ∧ (h'.frond f).pstack = x.pstack ∧
          h'.mbxK = s.hw.mbxK ∧ h'.mbxT = s.hw.mbxT ∧ h'.xlts = s.hw.xlts)) ∧
      (stML x.st = 15 → Gives i s (fun h' => (h'.frond f).run = .lockup ∧ bits (h'.rd (FRN_LOCK f)).toNat 31 28 = 9 ∧
          bits (h'.rd (FRN_LOCK f)).toNat 27 22 = 9 ∧ bit (h'.rd SYS_LOCK).toNat f = true))

/-- For every state: LSU.LOCK on a PA in the own region's mat or cushion, with no lock held or awaited, makes the frond wait for that 64-byte line, and on any other PA or while a lock is held it sets LSU.ERR to cause 6 with the PA; the waiting frond acquires the line when no other frond holds it and no lower frond waits for it, with BRK cleared; LSU.UNLOCK releases the line; a break of a line held for at least 25 CK_A ticks, 256 CK_F cycles among them, releases it with BRK = 1. Memory and the other fronds are unchanged. -/
def Obligations.LineLocksAreTakenReleasedAndBroken : Prop :=
  (∀ (s : State) (f : Nat) (pa : W64), frondReady s.hw f = true → (s.hw.frond f).loadErr = false →
    let x := moving s.hw f
    let here := match paLocal (pa.toNat % 2 ^ 53) with
      | some off => s.hw.inMem off && memRegion off == f / 2
      | none => false
    Gives (.lsuLock f pa) s (fun h' =>
      (here = true ∧ x.lockLine = none → h' = s.hw.setFrond f { x with lockWait := some (pa.toNat % 2 ^ 52 / 64) }) ∧
      (here = false ∨ x.lockLine ≠ none → h' = s.hw.setFrond f { x with lsuErr := BitVec.ofNat 64 (6 * 2 ^ 61 + pa.toNat % 2 ^ 53) })) ∧
    Gives (.lsuUnlock f pa) s (fun h' => h' = s.hw.setFrond f { x with lockLine := none, heldWas := x.lockLine.isSome })) ∧
  (∀ (s : State) (f l : Nat), frondLive s.hw f = true → (s.hw.frond f).lockWait = some l →
    (∀ g, g < 8 → g ≠ f → (s.hw.frond g).lockLine ≠ some l ∧ (g < f → (s.hw.frond g).lockWait ≠ some l)) →
    Gives (.lsuLockAcquired f) s (fun h' => h' = s.hw.setFrond f { s.hw.frond f with lockWait := none, lockLine := some l, lockBrk := false, lockAt := s.hw.tb.toNat, heldWas := false })) ∧
  (∀ (s : State) (f l : Nat), s.hw.clocked = true → (s.hw.frond f).lockLine = some l → 25 ≤ (s.hw.tb - BitVec.ofNat 64 (s.hw.frond f).lockAt).toNat → (s.hw.frond f).haltReq = false → (s.hw.frond f).stepReq = false →
    Gives (.lsuLockBreak f) s (fun h' => h' = s.hw.setFrond f { s.hw.frond f with lockLine := none, lockBrk := true }))

/-- For every state with clocks: a load of own scratch that no earlier store to scratch holds back delivers the bytes at its offset, little-endian and zero-extended, and is over; a load answered with a failure cause delivers zero, sets LSU.ERR and owes LSU_ERR. A store to own scratch that can be acknowledged leaves the buffer and writes its bytes at f × 65,536 + offset; every other byte of scratch reads as before, and the mat and the cushion are unchanged. -/
def Obligations.LsuAnswersDeliverAndStore : Prop :=
  (∀ (s : State) (f : Nat) (x : Served) (l : LsuLoad), s.hw.clocked = true → (s.hw.frond f).load = some l →
    (l.served = none → lsuTarget s.hw l.pa = 1 → lsuBlocked s.hw f l.seq 1 = false → lsuLineWaits s.hw f l.pa = false →
      Gives (.lsuLoadDone f x) s (fun h' => (h'.frond f).load = none ∧
        (h'.frond f).lsuD = BitVec.ofNat 64 (leNat (memGets s.hw.scratch (f * 65536 + l.pa % 2 ^ 52 % 65536) l.size)) ∧
        (h'.frond f).loadErr = (s.hw.frond f).loadErr ∧ h'.mem = s.hw.mem ∧ h'.scratch = s.hw.scratch)) ∧
    (∀ v c, l.served = some (v, c) → c ≠ 0 →
      Gives (.lsuLoadDone f x) s (fun h' => (h'.frond f).load = none ∧ (h'.frond f).lsuD = 0 ∧ (h'.frond f).loadErr = true ∧
        (h'.frond f).lsuErr = BitVec.ofNat 64 (c * 2 ^ 61 + l.pa % 2 ^ 53) ∧ h'.mem = s.hw.mem))) ∧
  (∀ (s : State) (f : Nat) (par : Par) (meets : List Meet) (t : LsuStore), s.hw.clocked = true → lsuStoreReady s.hw f = some t → t.served = none → lsuTarget s.hw t.pa = 1 →
    Gives (.lsuStoreAck ⟨f, par, meets⟩) s (fun h' =>
      let a := f * 65536 + t.pa % 2 ^ 52 % 65536
      let bs := (leBytes 8 t.data.toNat).take t.size
      (h'.frond f).stores = (s.hw.frond f).stores.filter (fun u => u.seq != t.seq) ∧ h'.scratch = memSets s.hw.scratch a bs ∧
      (∀ b, b < a ∨ a + bs.length ≤ b → memGet h'.scratch b = memGet s.hw.scratch b) ∧ h'.mem = s.hw.mem))

/-- For every frond whose next word is clean (no fault, no stall, no executing move) and stands alone: the word retires, PC moves to the next address, and SEQ leaves no transfer; JMP, CALL and RET owe a transfer to TARGET, TARGET with A + 2 to push, and the top of the return-address stack with a pop; JMPC owes TARGET when its condition holds and A + 2 otherwise, annulling the delay word only then when ANNUL is set; MWAY owes TARGET ORed with the selected MWN + 1 bits; RETX owes a return. The return-address stack is not yet changed. -/
def Obligations.ControlWordsDecideTheirTransfer : Prop :=
  ∀ (s : State) (f : Nat) (e : FetchEnv), wordClean s.hw f e = true → wordAlone (s.hw.frond f) = true →
    let x := s.hw.frond f
    let g := wordAged s.hw f e
    let w := nextWord s.hw f
    let t : BitVec 16 := BitVec.ofNat 16 (wTARGET w)
    let goes := fun (o : Option (BitVec 16 × Option (BitVec 16) × Bool × Bool)) (back : Bool) (h' : Hw) =>
      (h'.frond f).pc = x.pc + 1 ∧ (h'.frond f).lastPc = x.pc ∧ (h'.frond f).ras = x.ras ∧ (h'.frond f).retx = back ∧ (h'.frond f).run = .run ∧
      (h'.frond f).xfer.map (fun z => (z.next, z.push, z.pop, z.annul)) = o ∧ h'.mem = s.hw.mem ∧ h'.scratch = s.hw.scratch
    (wordRow s.hw f = 0 → Gives (.seq f e) s (goes none false)) ∧
    (wordRow s.hw f = 1 → Gives (.jmp f e) s (goes (some (t, none, false, false)) false)) ∧
    (wordRow s.hw f = 2 → condTrue g f (wCOND w) = true → Gives (.jmpc f e) s (goes (some (t, none, false, false)) false)) ∧
    (wordRow s.hw f = 2 → condTrue g f (wCOND w) = false → Gives (.jmpc f e) s (goes (some (x.pc + 2, none, false, wANNUL w)) false)) ∧
    (wordRow s.hw f = 3 → Gives (.mway f e) s (goes (some (t ||| BitVec.ofNat 16 (mwVector g f (wMWSRC w) % 2 ^ (wMWN w + 1)), none, false, false)) false)) ∧
    (wordRow s.hw f = 4 → Gives (.call f e) s (goes (some (t, some (x.pc + 2), false, false)) false)) ∧
    (wordRow s.hw f = 5 → Gives (.ret f e) s (goes (some (x.ras.headD 0, none, true, false)) false)) ∧
    (wordRow s.hw f = 6 → Gives (.retx f e) s (goes none true))

/-- For every frond whose next word is a clean SEQ word: as the delay word of a transfer it moves PC to the address decided, pushes or pops the return-address stack of 16 entries and spends the transfer; as the delay word of a RETX with DS = 0 and RPI = 0, no source pending, it moves PC to SRA and ST takes S, ML, FTE and HOLD from SST with W as assigned, SRA and SST unchanged. -/
def Obligations.DelayWordsCompleteTheirTransfer : Prop :=
  ∀ (s : State) (f : Nat) (e : FetchEnv), wordClean s.hw f e = true → wordRow s.hw f = 0 →
    let x := s.hw.frond f
    (∀ z, x.xfer = some z → x.retx = false → Gives (.seq f e) s (fun h' =>
      (h'.frond f).pc = z.next ∧ (h'.frond f).xfer = none ∧ h'.mem = s.hw.mem ∧
      (h'.frond f).ras = (match z.push with
        | some p => (p :: x.ras).take 16
        | none => if z.pop then x.ras.drop 1 else x.ras))) ∧
    (x.retx = true → bit x.sst.toNat 23 = false → bit x.sst.toNat 17 = false → (∀ n, n < 512 → srcBit s.hw IRQ_PEND n = false) →
      Gives (.seq f e) s (fun h' =>
        (h'.frond f).pc = x.sra ∧ (h'.frond f).retx = false ∧ (h'.frond f).sra = x.sra ∧ (h'.frond f).sst = x.sst ∧
        bits (h'.frond f).st.toNat 30 24 = bits x.sst.toNat 30 24 ∧ bit (h'.frond f).st.toNat 31 = (x.world == .tenant)))

/-- For every frond whose next word is clean: a WAIT word with no enabled event stops the frond in WAIT past its word; a HALT word stops it in HALT; a REP word makes the next word a repeat with its NOINT; an iteration of a repeat counts RPT.C down and stays at its word, and the last one goes on to the next word with RPT.C = 0. A waiting frond with an enabled event true runs again, and its region is no longer in IDLE. A SEQ word after an ST write retires with ST taking S, ML, FTE and HOLD from the written value. -/
def Obligations.WaitHaltAndRepeatWords : Prop :=
  (∀ (s : State) (f : Nat) (e : FetchEnv), wordClean s.hw f e = true →
    let x := s.hw.frond f
    let w := nextWord s.hw f
    (wordAlone x = true → wordRow s.hw f = 7 → Nat.land x.wev.toNat (wevLevels s.hw f) = 0 →
      Gives (.wait f e) s (fun h' => (h'.frond f).run = .wait ∧ (h'.frond f).pc = x.pc + 1 ∧ h'.mem = s.hw.mem)) ∧
    (wordAlone x = true → wordRow s.hw f = 8 →
      Gives (.halt f e) s (fun h' => (h'.frond f).run = .halt ∧ (h'.frond f).pc = x.pc + 1 ∧ h'.mem = s.hw.mem)) ∧
    (wordAlone x = true → wordRow s.hw f = 9 →
      Gives (.rep f e) s (fun h' => (h'.frond f).rep = some (wNOINT w) ∧ (h'.frond f).pc = x.pc + 1 ∧ (h'.frond f).rptC = x.rptC)) ∧
    (∀ n, x.rep = some n → x.inDelay = false → 1 < x.rptC →
      Gives (.repeatIteration f e) s (fun h' => (h'.frond f).rep = some n ∧ (h'.frond f).pc = x.pc ∧ (h'.frond f).rptC = x.rptC - 1)) ∧
    (∀ n, x.rep = some n → x.inDelay = false → x.rptC = 1 →
      Gives (.repeatIteration f e) s (fun h' => (h'.frond f).rep = none ∧ (h'.frond f).pc = x.pc + 1 ∧ (h'.frond f).rptC = 0)) ∧
    (∀ v, x.stNext = some v → x.inDelay = false → wordRow s.hw f = 0 →
      Gives (.seq f e) s (fun h' => (h'.frond f).stNext = none ∧ bits (h'.frond f).st.toNat 30 24 = bits v.toNat 30 24 ∧
        bit (h'.frond f).st.toNat 31 = (x.world == .tenant)))) ∧
  (∀ (s : State) (f : Nat), frondLive s.hw f = true → (s.hw.frond f).run = .wait → wevTrue s.hw f = true →
    Gives (.waitWake f) s (fun h' => h'.frond f = { s.hw.frond f with run := .run } ∧ h'.pwrState (f / 2) ≠ psIdle ∧ h'.mem = s.hw.mem ∧ ∀ g, g ≠ f → h'.frond g = s.hw.frond g))

/-- For every frond that transports its next word: a write of SYS.GATE with a valid gate admitted for its level, outside a delay word and a repeat and with no ST write in its shadow, saves the next address in SRA and the status in SST with ENT = 0b11 and CAUSE = the gate, and enters the gate's handler at supervisor level with ML unchanged, HOLD = 1 and FTE = 0. At supervisor level, outside a repeat, a write of SYS.ST that R336 admits waits for its shadow word; a write of 1 to SYS.PFL empties the return-address stack and changes nothing else. A write of SYS.FPBAR holds the next word. -/
def Obligations.GateStatusFlushAndBarrierPorts : Prop :=
  ∀ (s : State) (f : Nat) (v : W64), frondReady s.hw f = true →
    let x := s.hw.frond f
    let e := gateEntry s.hw f (v.toNat % 64)
    (gateBad s.hw f v = false → x.inDelay = false → x.rep = none → x.stNext = none → handlerBad s.hw f (e % 65536) = false →
      Gives (.sysGate f v) s (fun h' => let y := h'.frond f
        y.sra = x.pc ∧ y.pc = BitVec.ofNat 16 e ∧ bits y.sst.toNat 31 24 = bits x.st.toNat 31 24 ∧ bits y.sst.toNat 15 14 = 3 ∧
        bits y.sst.toNat 13 8 = v.toNat % 64 ∧ stS y.st = true ∧ stML y.st = stML x.st ∧ stHOLD y.st = true ∧ stFTE y.st = false ∧
        y.ras = x.ras ∧ h'.mem = s.hw.mem ∧ h'.scratch = s.hw.scratch)) ∧
    (stS x.st = true → x.rep = none → stBad v = false → x.stNext = none →
      Gives (.sysStWrite f v) s (fun h' => h' = s.hw.setFrond f { moving s.hw f with stNext := some v })) ∧
    (stS x.st = true → Gives (.sysPfl f 1) s (fun h' => h' = s.hw.setFrond f { moving s.hw f with ras := [] })) ∧
    Gives (.sysFpbar f v) s (fun h' => h' = s.hw.setFrond f { x with fpbar := true })

/-- For every frond that transports its next word: at supervisor level SYS.MBXS appends to the mailbox toward the other world while it holds fewer than 8 messages and sets OVF when it is full, and a read of SYS.MBXR takes the first message of the own mailbox; a keeper supervisor in vendor microcode reads CMD.SQIN to take the next request address, and CMD.MGQ to take the next MGMT frame when no frame waits on a link; CMD.MGS queues a MGMT frame of class TC3 on a link of its region; a STIM write with tracing disabled changes nothing, and with the port and trace enabled, the frond's queue below 16 and delivered to a sink, it appends a packet with the value. -/
def Obligations.MailboxesServicePortsAndStimulus : Prop :=
  (∀ (s : State) (f : Nat) (v : W64), frondReady s.hw f = true →
    let x := s.hw.frond f
    let y := moving s.hw f
    let r := f / 2
    let own := mbxTo s.hw r x.world
    let other := mbxTo s.hw r (otherWorld x.world)
    (stS x.st = true → other.length < 8 → Gives (.sysMbxs f v) s (fun h' =>
      mbxTo h' r (otherWorld x.world) = other ++ [v] ∧ mbxTo h' r x.world = own ∧ h'.frond f = y ∧ (∀ g, g ≠ f → h'.frond g = s.hw.frond g) ∧ h'.mem = s.hw.mem)) ∧
    (stS x.st = true → 8 ≤ other.length → Gives (.sysMbxs f v) s (fun h' => h' = s.hw.setFrond f { y with mbxOvf := true })) ∧
    (stS x.st = true → Gives (.sysMbxr f) s (fun h' =>
      mbxTo h' r x.world = own.drop 1 ∧ mbxTo h' r (otherWorld x.world) = other ∧ h'.frond f = y ∧ ∀ g, g ≠ f → h'.frond g = s.hw.frond g)) ∧
    (stS x.st = true → x.world = .keeper → vendorAddr x.pc.toNat = true →
      Gives (.cmdSqin f) s (fun h' => kvGet [] h'.svcQ r = (kvGet [] s.hw.svcQ r).drop 1 ∧
        kvGet [] h'.svcTaken r = kvGet [] s.hw.svcTaken r ++ (kvGet [] s.hw.svcQ r).take 1) ∧
      ((∀ i, i < 32 → (s.hw.link (32 * r + i)).mgmt = []) →
        Gives (.cmdMgq f) s (fun h' => kvGet [] h'.mgmtQ r = (kvGet [] s.hw.mgmtQ r).drop 1))) ∧
    (∀ lk (payload : List Byte), lk / 32 = r → s.hw.hasLane lk = true → payload.length ≤ 256 →
      Gives (.cmdMgs f lk payload) s (fun h' => ∃ m : Frame, m.typ = 8 ∧ m.tc = 3 ∧ m.payload = payload ∧ m.len = payload.length ∧
        (h'.link lk).txq = (s.hw.link lk).txq ++ [m] ∧ ∀ j, j ≠ lk → h'.link j = s.hw.link j)) ∧
    (∀ k, k < 64 → s.hw.rb (DBG_TCTL f) DBG_TCTL_EN = false → Gives (.stimWrite f k v) s (fun h' => h' = s.hw.setFrond f y)) ∧
    (∀ k, k < 32 → s.hw.rb (DBG_TCTL f) DBG_TCTL_EN = true → bit (s.hw.rd (DBG_TEN_LO f)).toNat k = true → (s.hw.tq f).pkts.length < 16 →
      (∀ g, g < 8 → traceToFifo s.hw g = false) →
      Gives (.stimWrite f k v) s (fun h' => ∃ p : Pkt, p.w0 = v ∧ bits p.w1.toNat 63 62 = 1 ∧ bits p.w1.toNat 58 53 = k ∧
        (h'.tq f).pkts = (s.hw.tq f).pkts ++ [p] ∧ ∀ g, g ≠ f → h'.tq g = s.hw.tq g)))

/-- For every state with clocks: when one source requests, no hold-off blocks it and no group holds collected firings, the controller presents it to its best eligible frond and to no other. A frond that stands at a permitted boundary with a presented request that still stands, no halt due, no fault due and an admitted vector, takes it: SRA is the next word, ST has S = 1, ML = the priority, HOLD = 1, FTE = 0, the next word is the vector, the source is pushed with its priority, its pending bit clears and its active bit sets. At supervisor level IRQ.EOI with the top source pops it and clears its active bit; an event source with no counted firing is not set pending again. -/
def Obligations.InterruptsArePresentedTakenAndEnded : Prop :=
  (∀ (s : State) (n f : Nat), s.hw.clocked = true → (∀ g, g < 16 → s.hw.rd (IRQ_DEFER g) = 0) → reqOrder s.hw = [n] → hoffBlocks s.hw ((List.range 8).filterMap (fun g => (s.hw.frond g).presented)) n = false →
    bestFrond s.hw n [] = some f →
    Gives .interruptPresent s (fun h' => (h'.frond f).presented = some n ∧ (∀ g, g < 2 * s.hw.nRegions → g ≠ f → (h'.frond g).presented = none) ∧
      (∀ g, (h'.frond g).pc = (s.hw.frond g).pc ∧ (h'.frond g).st = (s.hw.frond g).st) ∧ h'.mem = s.hw.mem)) ∧
  (∀ (s : State) (f n : Nat) (e : FetchEnv), s.hw.clocked = true → frondLive s.hw f = true → n < 512 → (s.hw.frond f).presented = some n →
    irqBoundary s.hw f = true → haltDue (s.hw.frond f) = false → reqStands s.hw f n = true → dueFault s.hw f e = none →
    handlerBad s.hw f (s.hw.rf (IRQ_VEC n) IRQ_VEC_VEC) = false →
    Gives (.interruptEntry f none e) s (fun h' =>
      let x := s.hw.frond f
      let y := h'.frond f
      let pri := s.hw.rf (IRQ_CFG n) IRQ_CFG_PRI
      y.sra = x.pc ∧ y.pc = BitVec.ofNat 16 (s.hw.rf (IRQ_VEC n) IRQ_VEC_VEC) ∧ y.pstack = (n, pri) :: x.pstack ∧ y.run = .run ∧ y.presented = none ∧
      stS y.st = true ∧ stML y.st = pri ∧ stHOLD y.st = true ∧ stFTE y.st = false ∧ bits y.sst.toNat 15 14 = 2 ∧
      srcBit h' IRQ_PEND n = false ∧ srcBit h' IRQ_ACT n = true ∧ h'.mem = s.hw.mem)) ∧
  (∀ (s : State) (f n p : Nat) (rest : List (Nat × Nat)) (v : W64), frondReady s.hw f = true → stS (s.hw.frond f).st = true →
    (s.hw.frond f).pstack = (n, p) :: rest → v.toNat % 512 = n → srcIsLevel s.hw n = false → s.hw.rf (IRQ_CNT n) IRQ_CNT_EVC = 0 →
    Gives (.irqEoi f v) s (fun h' => h' = putSrcBit (s.hw.setFrond f { moving s.hw f with pstack := rest }) IRQ_ACT n false))

/-- For every state with clocks and every existing source whose group hold is not claimed: an event source that is neither pending nor active becomes pending, and one that is pending or active adds 1 to its saturating counter; a level source with its condition true and neither pending nor active becomes pending; a rising edge of kn_irq_in[k] makes an idle edge source 448 + k pending. HOLDOFF_END of a group whose interval may be over, 2.5 CK_S cycles a tick of CK_A, takes the group out of hold-off and changes nothing else. A write of IRQ_PEND by an agent whose writable sources are not routed out gives each of those bits the written value and leaves the others. -/
def Obligations.SourcesFireSampleAndAreWritten : Prop :=
  (∀ (s : State) (n : Nat), s.hw.clocked = true → n < 512 → srcExists s.hw.cfg n = true → grpClaimed s.hw (n / 32) = false →
    let idle := srcBit s.hw IRQ_PEND n = false ∧ srcBit s.hw IRQ_ACT n = false
    (srcIsLevel s.hw n = false → idle → Gives (.eventSourceFire n) s (fun h' => srcBit h' IRQ_PEND n = true ∧ srcBit h' IRQ_ACT n = false ∧ h'.mem = s.hw.mem)) ∧
    (srcIsLevel s.hw n = false → ¬ idle → Gives (.eventSourceFire n) s (fun h' =>
      h' = s.hw.wf (IRQ_CNT n) IRQ_CNT_EVC (min (2 ^ IRQ_CNT_EVC.w - 1) (s.hw.rf (IRQ_CNT n) IRQ_CNT_EVC + 1)))) ∧
    (srcIsLevel s.hw n = true → levelCond s.hw n = true → idle → Gives (.levelSourceSample n) s (fun h' => srcBit h' IRQ_PEND n = true ∧ h'.mem = s.hw.mem)) ∧
    (∀ k, n = 448 + k → k < 32 → s.hw.rf (IRQ_CFG n) IRQ_CFG_TRIG = 1 → bit s.hw.irqIn k = false → idle →
      Gives (.knIrqInEdge k true) s (fun h' => srcBit h' IRQ_PEND n = true ∧ h'.irqIn = s.hw.irqIn + 2 ^ k))) ∧
  (∀ (s : State) (g t : Nat), s.hw.clocked = true → kvFind s.hw.irqHoff g = some t →
    2 * s.hw.rf (IRQ_HOFF g) IRQ_HOFF_INT ≤ 5 * ((s.hw.tb - BitVec.ofNat 64 t).toNat + 1) →
    Gives (.holdoffEnd g) s (fun h' => h' = { s.hw with irqHoff := kvDel s.hw.irqHoff g })) ∧
  (∀ (s : State) (w : Who) (g : Nat) (v : W32), g < 16 → regGrant s.hw w (IRQ_PEND g) true = true →
    (∀ k, k < 32 → irqBitWritable s.hw w (32 * g + k) = true → srcRouted s.hw (32 * g + k) = false) →
    Gives (.irqPendWrite w g v) s (fun h' => ∀ k, k < 32 → srcBit h' IRQ_PEND (32 * g + k) =
      if irqBitWritable s.hw w (32 * g + k) then bit v.toNat k else srcBit s.hw IRQ_PEND (32 * g + k)))

/-- From every state POR_ASSERT and TEST_EN_HIGH give every register its reset value, hold every frond in reset and put every region in off. POR_RELEASE with por_n low and test_en low sets TB to 0 and waits for the PLL; with rst_n high it starts a cold start at step 1 in slot A. RST_ASSERT with both resets high and no lichen proposal ends the start: STEP, CODE, BOOT_TIME, SYS_LOCK and MEU_STAT.FATAL go to 0, with memory, fronds and power state unchanged. RST_RELEASE before any cold start reached step 5 begins a cold start: every frond keeps its world and is in reset, every region keeps its power state and advances its epoch, no march is under way, TB is unchanged, and memory is unchanged where no march was cut. -/
def Obligations.ResetPinsHoldAndStartTheBlock : Prop :=
  ∀ (s : State),
    let h := s.hw
    Gives .porAssert s (fun h' => h'.porN = false ∧ h'.cfg = h.cfg ∧ (∀ a, h'.rd a = regReset h.cfg a) ∧ (∀ f, (h'.frond f).run = .reset) ∧
      ∀ r, r < 4 → h'.pwrState r = psOff) ∧
    Gives .testEnHigh s (fun h' => h'.testEn = true ∧ h'.porN = false ∧ (∀ a, h'.rd a = regReset h.cfg a) ∧ ∀ f, (h'.frond f).run = .reset) ∧
    (h.porN = false → h.testEn = false →
      Gives .porRelease s (fun h' => h'.porN = true ∧ h'.tb = 0 ∧ h'.clkStop = true ∧ h'.mem = h.mem ∧ h'.fronds = h.fronds ∧
        (h.rstN = true → h'.bootStep = 1 ∧ h'.rf BOOT_STAT BOOT_STAT_SLOT = 0) ∧ (h.rstN = false → h'.regs = h.regs))) ∧
    (h.porN = true → h.rstN = true → h.lcState = lcIdle →
      Gives .rstAssert s (fun h' => h'.rstN = false ∧ h'.bootStep = 0 ∧ h'.rf BOOT_STAT BOOT_STAT_CODE = 0 ∧ h'.rd BOOT_TIME = 0 ∧ h'.rd SYS_LOCK = 0 ∧
        h'.rb MEU_STAT MEU_STAT_FATAL = false ∧ h'.mem = h.mem ∧ h'.fronds = h.fronds ∧ ∀ r, h'.pwrState r = h.pwrState r)) ∧
    (h.porN = true → h.rstN = false → h.boot.reached = false →
      Gives .rstRelease s (fun h' => h'.rstN = true ∧ h'.bootStep = 1 ∧ h'.rf BOOT_STAT BOOT_STAT_SLOT = 0 ∧ h'.tb = h.tb ∧
        (∀ f, f < 2 * h.nRegions → (h'.frond f).world = (h.frond f).world ∧ (h'.frond f).run = .reset) ∧
        (∀ r, h.hasRegion r = true → h'.epoch r = (h.epoch r + 1) % 16 ∧ h'.pwrState r = h.pwrState r ∧ (h'.mat r).march = none) ∧
        ((∀ r, (h.mat r).march = none) → h'.mem = h.mem)))

/-- With por_n high and the PLL not locked, a lock sets PLLLOCK and starts the core clocks, unless the lock had been lost; 10,000 ticks of CK_A (100 µs) without lock in step 1, every link DOWN, fail the start with code 0x11. A loss of lock sets LOL, clears PLLLOCK and stops the clocks. A restart at least 1,000 ticks after the PLL relocked runs the stopped clocks again and changes nothing else. Memory and fronds stand unchanged in a lock and a loss. -/
def Obligations.PllAndTheStoppedClocks : Prop :=
  ∀ (s : State),
    let h := s.hw
    h.porN = true →
    (h.rb CLK_STAT CLK_STAT_PLLLOCK = false →
      Gives (.pllLock true) s (fun h' => h'.rb CLK_STAT CLK_STAT_PLLLOCK = true ∧ h'.clkStop = h.pllLost ∧ h'.pllAt = h.tb.toNat ∧
        h'.mem = h.mem ∧ h'.fronds = h.fronds ∧ h'.boot = h.boot)) ∧
    (h.rb CLK_STAT CLK_STAT_PLLLOCK = false → h.bootStep = 1 → 10000 ≤ h.tb.toNat → (∀ lk, lk < 128 → h.lkState lk = lsDown) →
      Gives (.pllLock false) s (fun h' => h'.bootStep = 0xF ∧ h'.rf BOOT_STAT BOOT_STAT_CODE = 0x11 ∧ h'.mem = h.mem)) ∧
    (h.rb CLK_STAT CLK_STAT_PLLLOCK = true →
      Gives .pllLossOfLock s (fun h' => h'.rb CLK_STAT CLK_STAT_LOL = true ∧ h'.rb CLK_STAT CLK_STAT_PLLLOCK = false ∧ h'.clkStop = true ∧
        h'.pllLost = true ∧ h'.mem = h.mem ∧ h'.fronds = h.fronds)) ∧
    (h.clkStop = true → h.pllLost = true → h.rb CLK_STAT CLK_STAT_PLLLOCK = true → 1000 ≤ (h.tb - BitVec.ofNat 64 h.pllAt).toNat →
      Gives .clockRestart s (fun h' => h' = { h with clkStop := false, pllLost := false }))

/-- With clocks running: in step 1 with no discovery yet, FLASH_COMMAND_DONE sets OCT and the read mode. In step 1 of slot A a timeout, or an image that fails a check, leaves its code in CODEA and goes to slot B; in slot B, every link DOWN, it fails the start with that code. In slot A an image that asks for no march, with a region still to power, is either accepted, when it passes every check: BOOT_IMG takes its version, the image is kept shadowed and step 3 follows; or refused, and the loader goes to slot B with nothing shadowed. In step 3 a second read whose patch digest differs fails the start with 0x32, and one whose digests agree is complete while a region is still powering. A start-up march of powered regions with no failing row leaves every byte of their mat and cushion zero. -/
def Obligations.LoaderReadsAndJudgesTheImage : Prop :=
  ∀ (s : State), s.hw.clocked = true →
    let h := s.hw
    (∀ (octal : Bool), h.bootStep = 1 → h.boot.flash = 0 →
      Gives (.flashCommandDone octal) s (fun h' => h'.rb BOOT_STAT BOOT_STAT_OCT = octal ∧ h'.boot.flash = (if octal then 2 else 1) ∧ h'.bootStep = 1 ∧
        h'.mem = h.mem ∧ h'.fronds = h.fronds)) ∧
    (h.bootStep = 1 → h.rf BOOT_STAT BOOT_STAT_SLOT = 0 →
      Gives .flashCommandTimeout s (fun h' => h'.rf BOOT_STAT BOOT_STAT_CODEA = 0x12 ∧ h'.rf BOOT_STAT BOOT_STAT_SLOT = 1 ∧ h'.bootStep = 1 ∧ h'.mem = h.mem)) ∧
    (h.bootStep = 1 → h.rf BOOT_STAT BOOT_STAT_SLOT = 1 → (∀ lk, lk < 128 → h.lkState lk = lsDown) →
      Gives .flashCommandTimeout s (fun h' => h'.bootStep = 0xF ∧ h'.rf BOOT_STAT BOOT_STAT_CODE = 0x12 ∧ h'.mem = h.mem)) ∧
    (∀ (img : List Byte) (code : Nat), code < 256 → h.bootStep = 1 → h.boot.flash ≠ 0 → h.rb CLK_STAT CLK_STAT_PLLLOCK = true → imgFault h img = some code →
      h.rf BOOT_STAT BOOT_STAT_SLOT = 0 →
      Gives (.imageFirstReadDone img) s (fun h' => h'.rf BOOT_STAT BOOT_STAT_CODEA = code ∧ h'.rf BOOT_STAT BOOT_STAT_SLOT = 1 ∧ h'.bootStep = 1 ∧ h'.mem = h.mem)) ∧
    (∀ (img : List Byte), h.bootStep = 1 → h.boot.flash ≠ 0 → h.rb CLK_STAT CLK_STAT_PLLLOCK = true →
      h.rf BOOT_STAT BOOT_STAT_SLOT = 0 → (shadowOf img).march = false → (∃ r, h.hasRegion r = true ∧ h.memServed r = false) →
      Gives (.imageFirstReadDone img) s (fun h' => h'.mem = h.mem ∧ h'.fronds = h.fronds ∧ if imgFault h img = none
        then h'.bootStep = 3 ∧ h'.boot.shadow = some (shadowOf img) ∧ h'.rd BOOT_IMG = BitVec.ofNat 32 (imgLE img 0x14 4) ∧
          h'.lchKey = (imgSect img 8).map (fun bs => imgBytes bs 0 97) ∧ h'.dbg.key = imgSect img 9
        else h'.bootStep = 1 ∧ h'.rf BOOT_STAT BOOT_STAT_SLOT = 1 ∧ h'.boot.shadow = h.boot.shadow)) ∧
    (∀ (sh : Shadow) (p c : List Byte), h.boot.shadow = some sh → h.bootStep = 3 → h.boot.read2 = false →
      (sh.hasP = true → Config.sha384 p ≠ sh.digP → (∀ lk, lk < 128 → h.lkState lk = lsDown) →
        Gives (.imageSecondReadDone p c) s (fun h' => h'.bootStep = 0xF ∧ h'.rf BOOT_STAT BOOT_STAT_CODE = 0x32 ∧ h'.mem = h.mem)) ∧
      ((sh.hasP = true → Config.sha384 p = sh.digP) → (sh.hasC = true → Config.sha384 c = sh.digC) → h.boot.busy ≠ [] →
        Gives (.imageSecondReadDone p c) s (fun h' => h' = { h with boot := { h.boot with
          read2 := true, secsP := (if sh.hasP then p else []), secs := (if sh.hasC then c else []) } }))) ∧
    (∀ (sh : Shadow), h.boot.shadow = some sh → h.bootStep = 2 → (∀ r, r ∈ marchRegions h → h.rb (PWR_STAT r) PWR_STAT_PACK = true) →
      (∃ r, h.hasRegion r = true ∧ h.memServed r = false ∧ r ∉ marchRegions h) →
      Gives (.startupMarchDone []) s (fun h' => h'.bootStep = 3 ∧ (∀ a, memRegion a ∈ marchRegions h → h.inMem a = true → memGet h'.mem a = 0) ∧
        ∀ a, memRegion a ∉ marchRegions h → memGet h'.mem a = memGet h.mem a))

/-- With clocks running: pwr_ack rising for an existing region in WAKE that came from off, outside step 2, sets PACK and begins its power-up at this tick. A region that the loader powers and whose pwr_ack stays low for 10,000 ticks of CK_A fails step 2 with 0x22 and step 3 with 0x31. In step 6 the end of the link wait, a beat boundary at least 4 beats for each unit of it after step 5, goes to step 7. In step 6 or 7 a nonzero BOOTTMO that runs out likewise fails the start with 0x71, and a BOOTTMO of 0 never does. A BOOTX write of a keeper supervisor, once armed, clears LOADER, sets STEP to 9 and BOOT_TIME, and disarms BOOTX. In the failures every link is DOWN before. -/
def Obligations.LoaderPowersWaitsAndHandsOver : Prop :=
  ∀ (s : State), s.hw.clocked = true →
    let h := s.hw
    (∀ r, h.hasRegion r = true → h.rb (PWR_STAT r) PWR_STAT_PREQ = true → h.rb (PWR_STAT r) PWR_STAT_PACK = false → h.pwrState r = psWake →
      (h.pw r).fromOff = true → h.bootStep ≠ 2 →
      Gives (.pwrAckRise r) s (fun h' => h'.rb (PWR_STAT r) PWR_STAT_PACK = true ∧ (h'.pw r).acked = true ∧ (h'.pw r).ackAt = h.tb ∧ h'.mem = h.mem ∧
        h'.fronds = h.fronds ∧ ∀ q, q < 4 → q ≠ r → h'.pwrState q = h.pwrState q)) ∧
    (∀ r, h.boot.busy.contains r = true → h.pwrState r = psWake → h.rb (PWR_STAT r) PWR_STAT_PACK = false → 10000 ≤ ticksSince h (h.pw r).since → (∀ lk, lk < 128 → h.lkState lk = lsDown) →
      (h.bootStep = 2 → Gives (.startupPowerHandshakeTimeout r) s (fun h' => h'.bootStep = 0xF ∧ h'.rf BOOT_STAT BOOT_STAT_CODE = 0x22 ∧ h'.mem = h.mem)) ∧
      (h.bootStep = 3 → Gives (.startupPowerHandshakeTimeout r) s (fun h' => h'.bootStep = 0xF ∧ h'.rf BOOT_STAT BOOT_STAT_CODE = 0x31 ∧ h'.mem = h.mem))) ∧
    (∀ (sh : Shadow), h.boot.shadow = some sh → h.bootStep = 6 → h.beatsOver h.boot.step5.toNat (4 * sh.lwait) = true →
      Gives .bootLinkWaitExpire s (fun h' => h'.bootStep = 7 ∧ h'.boot = { h.boot with waitEnd := true } ∧ h'.mem = h.mem ∧ h'.fronds = h.fronds)) ∧
    (∀ (sh : Shadow), h.boot.shadow = some sh → (h.bootStep = 6 ∨ h.bootStep = 7) →
      (sh.bootT ≠ 0 → h.beatsOver h.boot.step5.toNat (4 * sh.bootT) = true → (∀ lk, lk < 128 → h.lkState lk = lsDown) → Gives .boottmoExpire s (fun h' => h'.bootStep = 0xF ∧ h'.rf BOOT_STAT BOOT_STAT_CODE = 0x71 ∧
        (∀ f, f < 2 * h.nRegions → (h'.frond f).run = .reset) ∧ h'.mem = h.mem)) ∧
      (sh.bootT = 0 → Gives .boottmoExpire s (fun h' => h' = h))) ∧
    (∀ (w : Who), regGrant h w LCH_MAINT true = true → w.keeperSup = true → h.boot.bootx = true →
      Gives (.bootx w) s (fun h' => h'.rb LCH_MAINT LCH_MAINT_LOADER = false ∧ h'.bootStep = 9 ∧ h'.rd BOOT_TIME = bootTicks h ∧
        h'.boot = { h.boot with bootx := false, waitEnd := true } ∧ h'.mem = h.mem ∧ h'.fronds = h.fronds))

/-- With por_n high and 50,000 ticks of CK_A since the last, a beat boundary adds 1 to SYS_BEAT, sets TASK, adds 1 to OVR up to 255 when TASK still stood, and copies and clears the error count of every region's memory and the byte count of every host port. Behind the grants of their register: writing TASK = 1 clears TASK; a claim request of a free cushion window with a feature code it admits gives it to the agent with the next generation, one of a held window by another agent sets CLAIM and changes nothing else, and a release by the holder frees it and keeps the generation; a write of a plain host-port or error-unit register sets its writable bits alone; a read of MAT_STAT answers its value and clears its RC bits but for those that hardware sets in the same cycle. -/
def Obligations.BeatsClaimsAndPlainRegisters : Prop :=
  ∀ (s : State),
    let h := s.hw
    (h.porN = true → h.beatDiv = beatTicks → Gives .beatBoundary s (fun h' => h'.beatDiv = 0 ∧ h'.rd SYS_BEAT = h.rd SYS_BEAT + 1 ∧ h'.rb SYS_BEATST SYS_BEATST_TASK = true ∧
      h'.rf SYS_BEATST SYS_BEATST_OVR = (if h.rb SYS_BEATST SYS_BEATST_TASK then min 255 (h.rf SYS_BEATST SYS_BEATST_OVR + 1) else h.rf SYS_BEATST SYS_BEATST_OVR) ∧
      h'.tb = h.tb ∧
      (∀ r, h.hasRegion r = true → h'.rd (MAT_ERRCNT_LAST r) = h.rd (MAT_ERRCNT r) ∧ h'.rd (MAT_ERRCNT r) = 0) ∧
      (∀ p, h.hasPort p = true → h'.rd (HP_BYTES_LAST p) = h.rd (HP_BYTES p) ∧ h'.rd (HP_BYTES p) = 0))) ∧
    (∀ (w : Who) (v : W32), regGrant h w SYS_BEATST true = true → fldGet SYS_BEATST_TASK v = 1 →
      Gives (.beatTaskDone w v) s (fun h' => h'.rb SYS_BEATST SYS_BEATST_TASK = false ∧ h'.rf SYS_BEATST SYS_BEATST_OVR = h.rf SYS_BEATST SYS_BEATST_OVR ∧
        h'.mem = h.mem ∧ h'.fronds = h.fronds ∧ ∀ a, a ≠ SYS_BEATST → h'.rd a = h.rd a)) ∧
    (∀ (w : Who) (r n : Nat) (v : W32), r < 4 → n < 16 → regGrant h w (CSH_WCLAIM r n) true = true →
      let a := CSH_WCLAIM r n
      let f := fldGet cFEAT v
      (fldGet cREQ v = 1 → fldGet cREL v = 0 → h.rf a cHELD = 0 → (f = 7 ∨ f = 8 ∨ 128 ≤ f) →
        Gives (.claimReq w a v) s (fun h' => h'.holds a w = true ∧ h'.rf a cFEAT = f ∧ h'.rf a cGEN = (h.rf a cGEN + 1) % 256 ∧ h'.mem = h.mem ∧
          ∀ b, b ≠ a → h'.rd b = h.rd b)) ∧
      (fldGet cREQ v = 1 → fldGet cREL v = 0 → h.rf a cHELD = 1 → h.holds a w = false →
        Gives (.claimReq w a v) s (fun h' => h'.rb (MAT_STAT r) MAT_STAT_CLAIM = true ∧ h'.mem = h.mem ∧ ∀ b, b ≠ MAT_STAT r → h'.rd b = h.rd b)) ∧
      (fldGet cREQ v = 0 → fldGet cREL v = 1 → h.holds a w = true →
        Gives (.claimRel w a v) s (fun h' => h'.rf a cHELD = 0 ∧ h'.rf a cGEN = h.rf a cGEN ∧ h'.mem = h.mem ∧ ∀ b, b ≠ a → h'.rd b = h.rd b))) ∧
    (∀ (w : Who) (a o : Nat) (b : Blk) (i : RegInfo) (v : W32), regGrant h w a true = true → blockOf h a = some (b, o) → infoOf h b o = some i →
      (b = .meu ∨ ∃ p, b = .hp p) →
      Gives (.registerWrite w a v) s (fun h' => h'.rd a = ((h.rd a &&& ~~~i.rw) ||| (v &&& i.rw)) ∧ h'.mem = h.mem ∧ h'.fronds = h.fronds ∧
        ∀ c, c ≠ a → h'.rd c = h.rd c)) ∧
    (∀ (w : Who) (r : Nat) (sets : W32), r < 4 → regGrant h w (MAT_STAT r) false = true →
      Gives (.rcFieldRead w (MAT_STAT r) sets) s (fun h' => h'.busRd = h.rd (MAT_STAT r) ∧
        h'.rd (MAT_STAT r) = ((h.rd (MAT_STAT r) &&& ~~~0x1FF) ||| (sets &&& 0x1FF)) ∧ h'.mem = h.mem ∧ ∀ c, c ≠ MAT_STAT r → h'.rd c = h.rd c))

/-- With clocks, for every master with no stream waiting on the access, at an offset it has a path to, that no line lock holds off and, for the debugger, within its session and with the fronds halted, and outside any cushion meeting. A permitted read of words with good parity answers the bytes stored and changes only IDLE back to RUN. A refused read answers status 1 with zeros, sets PROT and, when PROT_INFO was free, records cause and master, memory unchanged. A read of one word whose check fails twice answers status 2, sets PERR, marks the word, memory unchanged. A permitted read whose beat has a sideband error answers status 2 without data, memory unchanged, and sets XBPERR between regions. A permitted write with good parity stores each enabled byte and leaves every other byte as it read before. A refused write stores nothing and answers status 1. -/
def Obligations.MatReadsAndWritesAnswerTheirMaster : Prop :=
  ∀ (s : State) (m : Master) (a : Nat), s.hw.clocked = true → plainMaster s.hw m = true → (∀ par, par.beat ≠ .stale → matReach s.hw m a par = true) →
    let h := s.hw
    let log := fun (c : Nat) (wr : Bool) (h' : Hw) =>
      h'.rb (MAT_STAT (protMaster m).1) MAT_STAT_PROT = true ∧ (h.rb (PROT_INFO (protMaster m).1) PROT_INFO_VALID = false →
        h'.rb (PROT_INFO (protMaster m).1) PROT_INFO_VALID = true ∧ h'.rf (PROT_INFO (protMaster m).1) PROT_INFO_CAUSE = c % 4 ∧
        h'.rf (PROT_INFO (protMaster m).1) PROT_INFO_MASTER = (protMaster m).2 ∧ h'.rb (PROT_INFO (protMaster m).1) PROT_INFO_WRITE = wr)
    (∀ len, protCause h m a len false = none → (∀ w, w ∈ wordsOf a len → isMarked h w = false) →
      Gives (.matRead m a len .good []) s (fun h' => h' = { h.idleLeave (memRegion a) with matResp := some ⟨m, 0, false, h.bytesAt a len⟩ })) ∧
    (∀ len par c, par.beat ≠ .stale → protCause h m a len false = some c →
      Gives (.matRead m a len par []) s (fun h' => h'.matResp = some ⟨m, 1, false, List.replicate len 0⟩ ∧ log c false h' ∧ h'.mem = h.mem ∧ h'.marked = h.marked ∧
        h'.fronds = h.fronds)) ∧
    (∀ len, protCause h m a len false = none → wordsOf a len = [a / 8 * 8] →
      Gives (.matRead m a len .failed []) s (fun h' => (∃ d, h'.matResp = some ⟨m, 2, false, d⟩) ∧ h'.rb (MAT_STAT (memRegion a)) MAT_STAT_PERR = true ∧
        isMarked h' a = true ∧ h'.mem = h.mem ∧ h'.fronds = h.fronds)) ∧
    (∀ len, protCause h m a len false = none → sideHit m a .sideband = true →
      Gives (.matRead m a len .sideband []) s (fun h' => h'.matResp = some ⟨m, 2, false, []⟩ ∧ h'.mem = h.mem ∧ h'.fronds = h.fronds ∧
        ((protMaster m).1 ≠ memRegion a → h'.rb MEU_STAT MEU_STAT_XBPERR = true))) ∧
    (∀ (data : List (Option Byte)), 0 < data.length → protCause h m a data.length true = none → (∀ w, w ∈ wordsOf a data.length → isMarked h w = false) →
      Gives (.matWrite m a data .good []) s (fun h' => h'.matResp = some ⟨m, 0, false, []⟩ ∧ h'.scratch = h.scratch ∧ h'.fronds = h.fronds ∧
        ∀ b, h'.byteAt b = if a ≤ b ∧ b < a + data.length then ((data[b - a]?).join).getD (h.byteAt b) else h.byteAt b)) ∧
    (∀ (data : List (Option Byte)) par c, par.beat ≠ .stale → 0 < data.length → protCause h m a data.length true = some c →
      Gives (.matWrite m a data par []) s (fun h' => h'.matResp = some ⟨m, 1, false, []⟩ ∧ log c true h' ∧ h'.mem = h.mem ∧ h'.fronds = h.fronds))

/-- Behind the grants of MCH_CTL, for a keeper supervisor: START of a group run with legal groups begins it when none runs (a destructive one when the chains, links, queues and movers of the region are idle and CONSENT stands), and sets REFUSE when one runs; ABORT marks the run. With clocks: a transparent run that locks a row of a group at or past its own records that group, and a first failing word of a data row that no good spare serves takes a free spare under REPAIR; a destructive run of existing groups or one existing bank that ends unaborted leaves every byte from the group under test to its last zero and no other byte changed, a transparent one changes no byte, and both set DONE and clear BUSY; the suspect service takes the oldest suspect bank into a transparent repairing run. A read of MAT_SUSP without SVC_REPAIR pops the oldest suspect, a read of RPL_DATA the oldest repair, and each answers it. -/
def Obligations.MarchRunsAndTheirLogs : Prop :=
  ∀ (s : State) (r : Nat), s.hw.hasRegion r = true →
    let h := s.hw
    (∀ (w : Who) (v : W32) (busy : Bool), regGrant h w (MCH_CTL r) true = true → w.keeperSup = true → fldGet MCH_CTL_START v = 1 → fldGet MCH_CTL_ABORT v = 0 →
      fldGet MCH_CTL_TARGET v = 0 → fldGet MCH_CTL_MODE v < 2 → fldGet MCH_CTL_GFIRST v ≤ fldGet MCH_CTL_GLAST v → fldGet MCH_CTL_GLAST v ≤ 16 →
      ((h.mat r).march = none → (fldGet MCH_CTL_MODE v = 0 → busy = false ∧ marchIdle h r = true ∧ h.rb LCH_MAINT LCH_MAINT_CONSENT = true) →
        Gives (.mchStart w r v busy) s (fun h' => (h'.mat r).march = some ⟨fldGet MCH_CTL_MODE v == 0, fldGet MCH_CTL_REPAIR v == 1, 2, none,
            fldGet MCH_CTL_GFIRST v, fldGet MCH_CTL_GLAST v, false, fldGet MCH_CTL_BKG v, h.tb.toNat, []⟩ ∧ h'.rf (MCH_STAT r) MCH_STAT_GROUP = fldGet MCH_CTL_GFIRST v ∧ h'.rb (MCH_STAT r) MCH_STAT_BUSY = true ∧ h'.rf (MCH_STAT r) MCH_STAT_FAILS = 0 ∧ h'.mem = h.mem)) ∧
      ((h.mat r).march ≠ none →
        Gives (.mchStart w r v busy) s (fun h' => h'.rb (MCH_STAT r) MCH_STAT_REFUSE = true ∧ h'.mats = h.mats ∧ h'.mem = h.mem))) ∧
    (∀ (w : Who) (v : W32) (run : MarchRun), regGrant h w (MCH_CTL r) true = true → w.keeperSup = true → fldGet MCH_CTL_START v = 0 → fldGet MCH_CTL_ABORT v = 1 →
      (h.mat r).march = some run →
      Gives (.mchAbort w r v) s (fun h' => (h'.mat r).march = some { run with abortReq := true } ∧ h'.mem = h.mem)) ∧
    (∀ (run : MarchRun) (g : Nat), h.clocked = true → (h.mat r).march = some run → run.destructive = false → g < 32 → h.rf (MCH_STAT r) MCH_STAT_GROUP ≤ g →
      (match run.single with | some (c, b) => g = bankGroup c b | none => g ≤ run.glast) →
      Gives (.marchRowLock r g []) s (fun h' => h'.rf (MCH_STAT r) MCH_STAT_GROUP = g ∧ h'.mat r = h.mat r ∧ h'.mem = h.mem ∧ h'.rmap = h.rmap) ∧
      (∀ (f : MarchFail) (k : Nat), run.repair = true → f.prow < dataRows f.cush → marchBit h r run f ≠ none → marchPlace run g g f = true →
        (∀ e, e ∈ run.rows → e.1 ≠ (f.cush, f.bank, f.prow)) → rowServed h r f.cush f.bank f.prow = false → freeSpare h r f.cush f.bank = some k →
        Gives (.marchRowLock r g [f]) s (fun h' => rmapGet h' r f.cush f.bank k = 2 ^ 15 + f.prow ∧ h'.mem = h.mem))) ∧
    (∀ (run : MarchRun) (spares fails : List MarchFail), h.clocked = true → (h.mat r).march = some run → run.abortReq = false → run.glast ≤ 16 → (∀ c b, run.single = some (c, b) → b < 1024) →
      Gives (.marchRunEnd r spares fails) s (fun h' => (h'.mat r).march = none ∧ h'.rb (MCH_STAT r) MCH_STAT_DONE = true ∧ h'.rb (MCH_STAT r) MCH_STAT_BUSY = false ∧
        ∀ a, h'.byteAt a = if run.destructive && runCovers run r (h.rf (MCH_STAT r) MCH_STAT_GROUP) run.glast a then 0 else h.byteAt a)) ∧
    (∀ (c : Bool) (b : Nat) (rest : List (Bool × Nat)), (h.mat r).susp = (c, b) :: rest →
      (h.clocked = true → (h.mat r).march = none → h.rb (MAT_CTL r) MAT_CTL_SVC_REPAIR = true → h.memServed r = true →
        Gives (.suspectServiceRun r) s (fun h' => (h'.mat r).susp = rest ∧ (h'.mat r).march = some ⟨false, true, 3, some (c, b), 0, 0, false, 0, h.tb.toNat, []⟩ ∧
          h'.rb (MCH_STAT r) MCH_STAT_BUSY = true ∧ h'.mem = h.mem)) ∧
      (∀ (w : Who), regGrant h w (MAT_SUSP r) false = true → h.rb (MAT_CTL r) MAT_CTL_SVC_REPAIR = false → b < 1024 →
        Gives (.matSuspPop w r) s (fun h' => (h'.mat r).susp = rest ∧ fldGet MAT_SUSP_VALID h'.busRd = 1 ∧ fldGet MAT_SUSP_BANK h'.busRd = b ∧
          fldGet MAT_SUSP_CUSH h'.busRd = b2n c ∧ h'.mem = h.mem))) ∧
    (∀ (w : Who) (e : W32) (rest : List W32), regGrant h w (RPL_DATA r) false = true → (h.mat r).repLog = e :: rest → rest.length < 64 →
      Gives (.repairLogPop w r) s (fun h' => h'.busRd = e ∧ (h'.mat r).repLog = rest ∧ h'.rf (RPL_STAT r) RPL_STAT_COUNT = rest.length ∧ h'.mem = h.mem))

/-- A running frond that moves an aligned descriptor address to a chain of its region that is empty, the region working, gives the chain that command with the next acceptance number, its world and epoch, and CMD.RES = 0; with the running and the pending place taken the trigger is refused with TREF and CMD.RES = 1, the chains unchanged. For a command of a frond that awaits its descriptor from the local space, alone on the chains of its region: a descriptor that lies in no served memory ends it with status 0x1D and sets DFERR; one that fails a check ends it with status 0x10 and the subcode; a FENCE without FPBAR and ORD that passes starts and ends OK. A running command that has issued its last fetch lets the pending command follow it into the running place. -/
def Obligations.ChainTriggersAndDescriptors : Prop :=
  (∀ (s : State) (f c : Nat) (v : W64), frondReady s.hw f = true → c < 8 →
    let h := s.hw
    let ch := 8 * (f / 2) + c
    let pa := v.toNat % 2 ^ 53
    pa % 64 = 0 → h.working (f / 2) = true → h.rgnState (f / 2) = 0 →
    ((h.chain ch).act = [] →
      Gives (.chainTrigger f c v) s (fun h' => (h'.chain ch).act = [execNew (h.seq + 1) (.frond f) (h.frond f).world 0 pa (h.epoch (f / 2))] ∧
        (h'.frond f).cmdRes = 0 ∧ h'.mem = h.mem ∧ h'.scratch = h.scratch ∧ ∀ d, d ≠ ch → h'.chain d = h.chain d)) ∧
    ((h.chain ch).act ≠ [] → (h.chain ch).pend.isSome = true →
      Gives (.chainTrigger f c v) s (fun h' => h'.rb (CHN_STAT (f / 2) c) CHN_STAT_TREF = true ∧ (h'.frond f).cmdRes = 1 ∧ (∀ d, h'.chain d = h.chain d) ∧ h'.mem = h.mem))) ∧
  (∀ (s : State) (ch off : Nat) (e : Exec), s.hw.clocked = true → soleCmd s.hw ch e = true → paLocal e.descPA = some off →
    let h := s.hw
    let ws := (List.range 8).map (fun k => leNat (h.bytesAt (off + 8 * k) 8))
    let served := h.inMem off && h.memServed (memRegion off) && !underTest h off
    e.checked = false → e.ending = none → e.words = [] → e.outQ = [] → e.accs = [] →
    (served = false → Gives (.descriptorFetchDone ch ⟨.good, []⟩) s (fun h' => h'.rb (CHN_STAT (ch / 8) (ch % 8)) CHN_STAT_DFERR = true ∧
      (h'.chain ch).act.map (fun y => (y.id, y.ending)) = [(e.id, some ⟨0x1D, 4, 0, e.descPA⟩)] ∧ h'.mem = h.mem)) ∧
    (∀ sub, served = true → (∀ w, w ∈ wordsOf off 64 → isMarked h w = false) → (∃ f, e.src = .frond f) → descCheck h (ch / 8) (ch % 8) e.world ws = some sub →
      Gives (.descriptorFetchDone ch ⟨.good, []⟩) s (fun h' => (h'.chain ch).act.map (fun y => (y.id, y.words, y.ending)) = [(e.id, ws, some ⟨0x10, 4, sub, e.descPA⟩)] ∧ h'.mem = h.mem)) ∧
    (served = true → (∀ w, w ∈ wordsOf off 64 → isMarked h w = false) → descCheck h (ch / 8) (ch % 8) e.world ws = none → dOPC ws = opFENCE → dChained ws = false →
      dFPBAR ws = false → dORD ws = false → (∃ f, e.src = .frond f) → e.stopReq = false → e.started = false → e.fail = none → h.rgnState (ch / 8) = 0 → h.memServed (ch / 8) = true →
      Gives (.descriptorFetchDone ch ⟨.good, []⟩) s (fun h' => (h'.chain ch).act.map (fun y => (y.id, y.words, y.started, y.ending)) = [(e.id, ws, true, some ⟨0, 0, 0, 0⟩)] ∧ h'.mem = h.mem))) ∧
  (∀ (s : State) (ch : Nat) (e p : Exec), s.hw.clocked = true → (s.hw.chain ch).act = [e] → (s.hw.chain ch).pend = some p → lastFetch e = true →
    Gives (.pendingPromote ch) s (fun h' => (h'.chain ch).act.map (fun y => y.id) = [e.id, p.id] ∧ (h'.chain ch).pend = none ∧ h'.mem = s.hw.mem))

/-- For a chain whose one command stands alone in its region. Behind the grants of CHN_CTL, for a keeper supervisor: STOP marks a command whose descriptor is still to come, and ends a checked one that has not started with status 1, the region working on chains; ABORT ends a checked command with status 2. With clocks: a started command with nothing under way and no cached translation that reads memory, and whose read failed in a segment not yet re-read and in no page with side effects, goes back to the first element of that segment with nothing in its buffers, marked as re-read and counted in SEGRR; a beat of a link input that fails before its segment has wholly arrived marks the command, which waits. A progress word of a command whose first boundary is stored is written to bytes 56 to 63 of its served local descriptor, and no other byte of memory changes. -/
def Obligations.ChainsStopAbortAndReread : Prop :=
  ∀ (s : State) (ch : Nat) (e : Exec), soleCmd s.hw ch e = true →
    let h := s.hw
    let ctl := CHN_CTL (ch / 8) (ch % 8)
    (∀ (w : Who) (v : W32), regGrant h w ctl true = true → w.anySup = true → w.world = .keeper → e.ending = none → e.outQ = [] →
      (fldGet CHN_CTL_STOP v = 1 → fldGet CHN_CTL_ABORT v = 0 → e.accs = [] → e.fail = none → e.started = false →
        (e.checked = false → Gives (.chainStop w ch v) s (fun h' => (h'.chain ch).act = [{ e with stopReq := true }] ∧ h'.mem = h.mem)) ∧
        (e.checked = true → h.rgnState (ch / 8) = 0 → h.memServed (ch / 8) = true → h.clocked = true →
          Gives (.chainStop w ch v) s (fun h' => (h'.chain ch).act.map (fun y => (y.id, y.idx, y.ending)) = [(e.id, e.idx, some ⟨1, 0, 0, 0⟩)] ∧ h'.mem = h.mem))) ∧
      (fldGet CHN_CTL_ABORT v = 1 → e.checked = true →
        Gives (.chainAbort w ch v) s (fun h' => (h'.chain ch).act.map (fun y => (y.id, y.idx, y.ending)) = [(e.id, e.idx, some ⟨2, 0, 0, 0⟩)] ∧ h'.mem = h.mem))) ∧
    (h.clocked = true → e.started = true → e.pairOk = true → e.checked = true → e.ending = none → e.frame = [] → usesA e.words = true → dKB e.words ≠ kLink → needsRec e.words = false → e.sl ≠ 0 → e.idx < dCOUNT e.words →
      (h.chain ch).ubuf = [] → dOPC e.words ≠ opGATHER → e.accs = [] → e.outQ = [] →
      (e.fail.isSome = true → e.failSE = false → e.rereads.contains (e.idx / e.sl) = false → e.seRead = none → e.snap.seg = e.idx / e.sl → dKA e.words = kMem →
        Gives (.segmentReread (ch, none)) s (fun h' => (h'.chain ch).act.map (fun y => (y.id, y.idx, y.rereads.contains (e.idx / e.sl), y.fail, y.bufA, y.bufB, y.flags)) =
          [(e.id, e.idx / e.sl * e.sl, true, none, [], [], e.snap.flg)] ∧
        h'.rf (RGN_ECNT (ch / 8)) RGN_ECNT_SEGRR = min 65535 (h.rf (RGN_ECNT (ch / 8)) RGN_ECNT_SEGRR + 1) ∧ h'.mem = h.mem)) ∧
      (e.fail = none → dKA e.words = kLink → e.idx / e.sl * e.sl < linkExp e 0 → linkExp e 0 < segEnd e →
        Gives (.segmentReread (ch, some 0)) s (fun h' => (h'.chain ch).act.map (fun y => (y.id, y.idx, y.fail)) = [(e.id, e.idx, some ⟨0x16, 7, 0, 0⟩)] ∧ h'.mem = h.mem))) ∧
    (∀ (off : Nat) (b : Bound) (rest : List Bound), h.clocked = true → writesProg e = true → e.accs.all (fun a => a.stream != 5) = true → e.bounds = b :: rest →
      storedBefore e b.seg = true → paLocal e.descPA = some off → off % 64 = 0 → h.inMem (off + 56) = true → h.memServed (memRegion (off + 56)) = true → underTest h (off + 56) = false →
      Gives (.progressWordWrite ⟨ch, .good, []⟩) s (fun h' => memGets h'.mem (off + 56) 8 = leBytes 8 (progWord b) ∧
        ∀ a, (a < off + 56 ∨ off + 64 ≤ a) → memGet h'.mem a = memGet h.mem a))

/-- With clocks and room for a record, no collective request running and no link holding a frame: a lone command of a frond or a timer that ends with nothing left to store, send or write, no other chain of the region busy and no command pending behind it, leaves its chain; CHN_STAT shows its status in LAST, ENDED = 1, STATE = 0 and no pending command, and the fronds of the region see the chain event. Memory and scratchpads are unchanged. -/
def Obligations.CommandsLeaveTheirChain : Prop :=
  ∀ (s : State) (ch : Nat) (e : Exec) (en : Ending), s.hw.clocked = true → soleCmd s.hw ch e = true → (s.hw.chain ch).pend = none → recordRoom s.hw ch [(ch, e)] = true →
    e.ending = some en → drained e = true → e.checked = true → e.fromQ = none → e.svc = none → ch < 8 * s.hw.nRegions → en.status < 64 →
    svcQuiet s.hw = true →
    Gives (.chainCommandEnd ch) s (fun h' => (h'.chain ch).act = [] ∧ h'.rf (CHN_STAT (ch / 8) (ch % 8)) CHN_STAT_LAST = en.status ∧
      h'.rb (CHN_STAT (ch / 8) (ch % 8)) CHN_STAT_ENDED = true ∧ h'.rf (CHN_STAT (ch / 8) (ch % 8)) CHN_STAT_STATE = 0 ∧
      (∀ f, f ∈ frondsOf (ch / 8) → (h'.frond f).wevHit.getLsbD 2 = true) ∧ h'.mem = s.hw.mem ∧ h'.scratch = s.hw.scratch ∧ ∀ d, d ≠ ch → h'.chain d = s.hw.chain d)

/-- For an existing queue. Behind the grants of SQ_CFG, for an agent that configures queues: EN = 1 on a queue that is off with legal binding, sizes and rings starts it, with TAIL, HEAD, FETCH and INFL 0; with an illegal binding it sets CFGERR and stays off; EN = 0 on a running queue with nothing issued turns it off, with entries issued it drains. A doorbell through a view that admits the agent, on a running queue of a region that is not halted: DB_SQ with a TAIL within the ring takes it and leaves HEAD, and one beyond the ring sets DBERR and changes nothing else; DB_CQ with a head no further than the tail takes it. -/
def Obligations.QueuesAreConfiguredAndRung : Prop :=
  ∀ (s : State) (w : Who) (q : Nat) (v : W32), s.hw.hasQueue q = true →
    let h := s.hw
    let ring := (blockOf h (DB_SQ q)).any (fun b => blkServed h b.1 && fabricRuns h w b.1 && whoValid h w)
    (regGrant h w (SQ_CFG q) true = true → sqWriter w = true →
      let h1 := h.wr (SQ_CFG q) (v &&& sqCfgMask)
      let k := fldGet SQ_CFG_SQSZ v
      let j := fldGet SQ_CFG_CQSZ v
      (fldGet SQ_CFG_EN v = 1 → h.sqState q = sqOff → (fldGet SQ_CFG_BIND v = 1 ∨ fldGet SQ_CFG_BIND v = 2) → 4 ≤ k → k ≤ 14 → 4 ≤ j → j ≤ 14 →
        ringOk h1 (q / 256) (h1.rdPair (SQ_BASE_LO q) (SQ_BASE_HI q)) (64 * 2 ^ k) = true → ringOk h1 (q / 256) (h1.rdPair (CQ_BASE_LO q) (CQ_BASE_HI q)) (32 * 2 ^ j) = true →
        Gives (.queueEnable w q v) s (fun h' => h'.sqState q = sqRun ∧ h'.rd (DB_SQ q) = 0 ∧ h'.rd (DB_CQ q) = 0 ∧ h'.rd (SQ_FETCH q) = 0 ∧ h'.rf (SQ_STAT q) SQ_STAT_INFL = 0 ∧
          h'.mem = h.mem ∧ ∀ p, p < 1024 → p ≠ q → h'.sqState p = h.sqState p)) ∧
      (fldGet SQ_CFG_EN v = 1 → h.sqState q = sqOff → fldGet SQ_CFG_BIND v = 0 →
        Gives (.queueEnable w q v) s (fun h' => h'.rb (SQ_STAT q) SQ_STAT_CFGERR = true ∧ h'.sqState q = sqOff ∧ h'.mem = h.mem)) ∧
      (fldGet SQ_CFG_EN v = 0 → h.sqState q = sqRun → (h.queue q).joins = [] → (h.queue q).toErr = false →
        Gives (.queueDisable w q v) s (fun h' => h'.sqState q = (if (h.queue q).ended.all (fun x => x.2) then sqOff else sqDrain) ∧ h'.rb (SQ_CFG q) SQ_CFG_EN = false ∧ h'.mem = h.mem))) ∧
    (ring = true → h.sqState q = sqRun → h.rgnState (q / 256) ≠ 5 → dbWorldOk h q w = true →
      let t := fldGet DB_SQ_TAIL v
      let sz := 2 ^ h.rf (SQ_CFG q) SQ_CFG_SQSZ
      (idxDiff t (h.rf (DB_SQ q) DB_SQ_HEAD) ≤ sz → idxDiff t (h.rf (DB_SQ q) DB_SQ_TAIL) ≤ sz →
        Gives (.dbSq w q v) s (fun h' => h'.rf (DB_SQ q) DB_SQ_TAIL = t ∧ h'.rf (DB_SQ q) DB_SQ_HEAD = h.rf (DB_SQ q) DB_SQ_HEAD ∧ h'.mem = h.mem)) ∧
      (sz < idxDiff t (h.rf (DB_SQ q) DB_SQ_HEAD) →
        Gives (.dbSq w q v) s (fun h' => h' = h.sb (SQ_STAT q) SQ_STAT_DBERR)) ∧
      (idxDiff (h.rf (DB_CQ q) DB_CQ_CQ_TAIL) (fldGet DB_CQ_CQ_HEAD v) ≤ idxDiff (h.rf (DB_CQ q) DB_CQ_CQ_TAIL) (h.rf (DB_CQ q) DB_CQ_CQ_HEAD) →
        Gives (.dbCq w q v) s (fun h' => h'.rf (DB_CQ q) DB_CQ_CQ_HEAD = fldGet DB_CQ_CQ_HEAD v ∧ h'.rf (DB_CQ q) DB_CQ_CQ_TAIL = h.rf (DB_CQ q) DB_CQ_CQ_TAIL ∧ h'.mem = h.mem)))

/-- With clocks, for an existing queue. The chosen ready queue of a working region bound to the service hands entry FETCH to it: the request with its index and address joins the service queue, FETCH advances and the entry counts as issued. When the command at the front of the order has ended with a record and an earlier write is not under way, a record whose ring slot lies in the cushion and whose write is permitted is stored there in 32 bytes, and no other byte reads otherwise. The response to that write advances CQ_TAIL and takes the command from the order, and an error response sets CQERR and puts a running queue in ERR. -/
def Obligations.EntriesAreIssuedAndRecordsWritten : Prop :=
  ∀ (s : State) (q : Nat), s.hw.clocked = true → s.hw.hasQueue q = true →
    let h := s.hw
    let r := q / 256
    (sqReady h q = true → sqChosen h q = true → h.working r = true → h.rgnState r = 0 → h.rf (SQ_CFG q) SQ_CFG_BIND ≠ 1 →
      let i := h.rf (SQ_FETCH q) SQ_FETCH_FETCH
      Gives (.queueIssue q) s (fun h' => kvGet [] h'.svcQ r = kvGet [] h.svcQ r ++ [(q, i, h.rdPair (SQ_BASE_LO q) (SQ_BASE_HI q) + 64 * (i % 2 ^ h.rf (SQ_CFG q) SQ_CFG_SQSZ))] ∧
        h'.rf (SQ_FETCH q) SQ_FETCH_FETCH = (i + 1) % 2 ^ 16 ∧ (h'.queue q).ended = (h.queue q).ended ++ [(i, false)] ∧ h'.mem = h.mem ∧ h'.chains = h.chains)) ∧
    (∀ (j : Join) (rc : Rec) (rest : List Join), (h.queue q).joins = j :: rest → j.recd = some rc →
      (j.done = true → (h.queue q).writing = none → (h.queue q).mute = false → h.sqState q = sqRun → allNamed h j.ord = true → h.rgnState r = 0 →
        let k := h.rf (SQ_CFG q) SQ_CFG_CQSZ
        let t := h.rf (DB_CQ q) DB_CQ_CQ_TAIL
        let pa := h.rdPair (CQ_BASE_LO q) (CQ_BASE_HI q) + 32 * (t % 2 ^ k)
        ∀ off, paLocal pa = some off → off % 32 = 0 → h.inCush off = true → protCause h (.queueEngine r) off 32 true = none →
        (h.rf (DB_CQ q) DB_CQ_CQ_HEAD + 2 ^ k + 2 ^ 16 - t) % 2 ^ 16 ≠ 0 →
        Gives (.completionRecordWrite (q, [])) s (fun h' => (h'.queue q).writing = some rc ∧ h'.bytesAt off 32 = recBytes rc t k ∧
          ∀ a, (a < off ∨ off + 32 ≤ a) → h'.byteAt a = h.byteAt a)) ∧
      ((h.queue q).writing = some rc → (h.queue q).wrErr = false → (h.queue q).mute = false → (∀ m, m ∈ h.mreqs → m.use ≠ .record q) → j.fromQ = none → (∀ x, x ∈ rest → x.done = false) → (h.queue q).toErr = false → h.sqState q = sqRun → rc.status ≠ 4 →
        Gives (.completionRecordWriteDone q false) s (fun h' => h'.rf (DB_CQ q) DB_CQ_CQ_TAIL = (h.rf (DB_CQ q) DB_CQ_CQ_TAIL + 1) % 2 ^ 16 ∧
          h'.rf (DB_CQ q) DB_CQ_CQ_HEAD = h.rf (DB_CQ q) DB_CQ_CQ_HEAD ∧ (h'.queue q).joins = rest ∧ (h'.queue q).writing = none ∧ h'.sqState q = sqRun ∧ h'.mem = h.mem) ∧
        Gives (.completionRecordWriteDone q true) s (fun h' => h'.rb (SQ_STAT q) SQ_STAT_CQERR = true ∧ h'.sqState q = sqErr ∧ (h'.queue q).writing = none ∧ h'.mem = h.mem)))

/-- A running service frond takes the first request handed to its region when that may start. One of a context of the region that passes the checks puts the context in RUN with its OPID, STEP 0 and ARDY 0, and the service then goes on with its schedule as far as it can; a RESTART with a link and no FENCE yet received puts it in FENCE and queues FENCE in TC0 to TC2 on each link; one that fails a check leaves the state of the context and every link, and CXE_LAST shows the status. With clocks, a request with no chain command left whose ending is decided, or whose schedule is carried out, has word 7 written with its status, and no other byte of memory changes; in the second case CXE_LAST shows OK. A step wait or fence armed for its limit in beats ends the request with status 0x21: its context is HALTED, CXE_LAST shows it, and ABORT is queued on each of its links. -/
def Obligations.CollectiveRequestsStartAndEnd : Prop :=
  (∀ (s : State) (f q i pa : Nat) (words : List W64) (rest : List (Nat × Nat × Nat)), frondLive s.hw f = true → (s.hw.frond f).run = .run →
    let h := s.hw
    let r := f / 2
    let ws := rqWordsAt h pa words
    let n := rqCTX ws
    svcList h r = (q, i, pa) :: rest → rqMayStart h f q i ws = true → rqKnown h r ws = true →
    (rqCheck (svcTake h r 0) r (h.sqWorld q) ws = none → rqCOP ws ≠ copRESTART →
      Gives (.collectiveRequest f words) s (fun h' => ∃ h1, h' = svcAdvance h1 r ∧ h1.cxState n = csRun ∧ h1.cxOpid n = rqOPID ws ∧ h1.rf (CXE_RUN n) CXE_RUN_STEP = 0 ∧
        h1.rd (CXE_ARDY n) = 0 ∧ (h1.ctx n).run.map (fun u => (u.words, u.pa, u.queue, u.sqIdx, u.ended)) = some (ws, pa, q, i, none) ∧ svcList h1 r = rest ∧
        h1.mem = h.mem ∧ h1.fronds = h.fronds ∧ h1.chains = h.chains ∧ ∀ m, m ≠ n → h1.ctx m = h.ctx m)) ∧
    (rqCheck (svcTake h r 0) r (h.sqWorld q) ws = none → rqCOP ws = copRESTART → h.cxLinks n ≠ [] → (h.ctx n).fences = [] →
      Gives (.collectiveRequest f words) s (fun h' => h'.cxState n = csFence ∧ h'.cxOpid n = rqOPID ws ∧ h'.mem = h.mem ∧
        ∀ lk, lk ∈ h.cxLinks n → ∀ tc, tc < 3 → ∃ m, m ∈ (h'.link lk).txq ∧ m.typ = ftTOKEN ∧ m.fmt = 4 ∧ m.tc = tc ∧ m.ctx = n ∧ m.offset = rqOPID ws)) ∧
    (∀ st sub, rqCheck (svcTake h r 0) r (h.sqWorld q) ws = some (st, sub) → st < 64 → h.cxState n ≠ csRun →
      Gives (.collectiveRequest f words) s (fun h' => h'.rf (CXE_LAST n) CXE_LAST_STATUS = st ∧ h'.cxState n = h.cxState n ∧ h'.links = h.links ∧ h'.chains = h.chains))) ∧
  (∀ (s : State) (n : Nat) (u : CtxRun), s.hw.clocked = true → s.hw.hasCtx n = true → (s.hw.ctx n).run = some u →
    let h := s.hw
    (∀ st peer off, svcHeld h n = false → u.w7 = 0 → paLocal (u.pa + 56) = some off → off % 8 = 0 → h.inMem off = true → protCause h (.frond (h.cxFrond n)) off 8 true = none →
      (u.ended = some (st, peer) ∨ (u.ended = none ∧ u.fail = none ∧ h.cxState n = csRun ∧ inRecovery h (n / 1024) = false ∧ svcOver h u = true ∧ st = 0 ∧ peer = h.cxRank n)) →
      Gives (.collectiveRequestEnd n .good []) s (fun h' => (u.ended = none → h'.rf (CXE_LAST n) CXE_LAST_STATUS = 0) ∧
        h'.bytesAt off 8 = leBytes 8 (rqWord7 u.last st peer) ∧ ∀ a, (a < off ∨ off + 8 ≤ a) → h'.byteAt a = h.byteAt a)) ∧
    (∀ a, u.ended = none → u.armed = some a → inRecovery h (n / 1024) = false → h.cxRank n < 1024 →
      let past := fun (limit : Nat) => limit ≠ 0 ∧ h.beatsOver a limit = true
      let fails := fun (h' : Hw) => (h'.ctx n).run = some { u with ended := some (0x21, h.cxRank n), todo := [], armed := none } ∧ h'.cxState n = csHalted ∧
        h'.rf (CXE_LAST n) CXE_LAST_STATUS = 0x21 ∧ h'.rf (CXE_LAST n) CXE_LAST_PEER = h.cxRank n ∧ h'.rf (CXE_LAST n) CXE_LAST_STEP = h.rf (CXE_RUN n) CXE_RUN_STEP ∧
        h'.mem = h.mem ∧ ∀ lk, lk ∈ h.cxLinks n → ∃ m, m ∈ (h'.link lk).txq ∧ m.typ = ftTOKEN ∧ m.fmt = 3 ∧ m.ctx = n
      (h.cxState n = csRun → past (h.rf (CXE_OPT n) CXE_OPT_TMO_STEP) → Gives (.stepTimeout n) s fails) ∧
      (h.cxState n = csFence → past (h.rf (CXE_OPT n) CXE_OPT_TMO_FENCE) → Gives (.fenceTimeout n) s fails)))

/-- Behind the grants of its register, for a keeper supervisor: V = 1 on a free context with a legal group size and rank and a frond of its world makes it valid and IDLE; with an illegal rank it sets WREF and leaves the context free; CX_HALT of an idle context of the region makes it HALTED and reports it. For a running service frond: a CXE_ARDY that does not fall is taken for a context of its own, and the chains and the service go on with it; a post of a context of its region takes the last of at most 8 places of a link of its region, and the service goes on with it; a token, a READY only with a post of its step in place, is queued on the link in class TC2, a FENCE in the class it names, with its context, step, code, OPID and the payload length of its code. -/
def Obligations.ContextsPostsAndTokens : Prop :=
  (∀ (s : State) (w : Who) (n : Nat) (v : W32), s.hw.hasCtx n = true → regGrant s.hw w (CXE_CTL n) true = true → w.keeperSup = true →
    let h := s.hw
    h.cxState n = csFree → fldGet CXE_CTL_V v = 1 → fldGet CXE_CTL_AGENT v = 0 →
    (h.frond (2 * (n / 1024) + fldGet CXE_CTL_FROND v)).world = (if fldGet CXE_CTL_WORLD v = 1 then World.tenant else World.keeper) →
    (h.cxN n ≠ 0 → h.cxN n ≤ 1024 → h.cxRank n < h.cxN n →
      Gives (.contextValidate w n v) s (fun h' => h'.cxState n = csIdle ∧ h'.rb (CXE_CTL n) CXE_CTL_V = true ∧ h'.mem = h.mem ∧ h'.ctxs = h.ctxs ∧
        ∀ m, m < 4096 → m ≠ n → h'.cxState m = h.cxState m)) ∧
    (h.cxN n ≤ h.cxRank n →
      Gives (.contextValidate w n v) s (fun h' => h' = h.sb (CX_SVC_STAT (n / 1024)) CX_SVC_STAT_WREF))) ∧
  (∀ (s : State) (w : Who) (r : Nat) (v : W32), s.hw.hasRegion r = true → regGrant s.hw w (CX_HALT r) true = true → w.keeperSup = true →
    let n := fldGet CX_HALT_CTX v
    n / 1024 = r → s.hw.hasCtx n = true → s.hw.cxState n = csIdle →
    Gives (.cxHalt w r v) s (fun h' => h'.cxState n = csHalted ∧ h'.rb (CX_SVC_STAT r) CX_SVC_STAT_HALT = true ∧ h'.mem = s.hw.mem ∧ h'.ctxs = s.hw.ctxs)) ∧
  (∀ (s : State) (f : Nat), frondLive s.hw f = true → (s.hw.frond f).run = .run →
    let h := s.hw
    (∀ n v, h.hasCtx n = true → n / 1024 = f / 2 → h.rf (CXE_CTL n) CXE_CTL_FROND = f % 2 → h.rf (CXE_ARDY n) CXE_ARDY_ARDY ≤ v → v < 2 ^ CXE_ARDY_ARDY.w →
      Gives (.cxeArdyUpdate f n v) s (fun h' => ∃ h1, h1.rf (CXE_ARDY n) CXE_ARDY_ARDY = v ∧ (∀ a, a ≠ CXE_ARDY n → h1.rd a = h.rd a) ∧ h1 = { h with regs := h1.regs } ∧
        h' = svcAdvance (chainsAdvance h1 (f / 2)) (f / 2))) ∧
    (∀ lk (p : Post), lk / 32 = f / 2 → h.hasLane lk = true → p.ctx / 1024 = f / 2 → h.hasCtx p.ctx = true → postOk h (f / 2) p = true → (h.link lk).posts.length < 8 →
      Gives (.receivePost f lk p) s (fun h' => ∃ h1, h' = svcAdvance h1 (f / 2) ∧ h1 = h.setLink lk { h.link lk with posts := (h.link lk).posts ++ [{ p with got := 0 }] })) ∧
    (∀ lk n step code opid (payload : List Byte), lk / 32 = f / 2 → h.hasLane lk = true → n / 1024 = f / 2 → h.hasCtx n = true → h.rf (CXE_CTL n) CXE_CTL_FROND = f % 2 → 1 ≤ code → code ≤ 6 →
      (code = 1 → readyPosted h lk n step = true) →
      Gives (.tokenSend f lk n step code opid payload) s (fun h' => ∃ m : Frame, m.typ = ftTOKEN ∧ m.ctx = n ∧ m.step = step ∧ m.fmt = code ∧ m.offset = opid ∧ m.tc = (if code = 4 then min 2 (payload.headD 2).toNat else 2) ∧ m.len = m.payload.length ∧ m.len = (if code = 3 then 4 else if code = 6 then 12 else 0) ∧
        h' = h.setLink lk { h.link lk with txq := (h.link lk).txq ++ [m] })))

/-- With clocks, h0 being the state once the figures of the lane and the acknowledgement word of the slot are taken. A good IDLE leaves h0, the row going on. A good sequenced frame that is next in order advances EXP, ends NAK and is acknowledged: DATA and AREC of the link's epoch that no relay takes, with no request and no chain command in the region, land in the one post that matches, byte for byte, and owe the partner a credit of their class; CREDIT adds its four counts to the credits, up to 255; EPOCH sets RXEP; MGMT of the link's epoch joins a management queue with room. A frame of a reserved TYPE or code takes the link DOWN with PROTO. A slot that fails counts CRCF, and in the receive set of an UP link enters NAK. -/
def Obligations.FramesOfDataReachTheirPosts : Prop :=
  ∀ (s : State) (lk pos l : Nat) (f : Frame) (aw : AckWord), s.hw.clocked = true → frameReserved f = false →
    let h0 := slotTaken s.hw lk l aw
    let as := fun (typ fmt : Nat) => ({ f with typ := typ, fmt := fmt } : Frame)
    let next := fun (h' : Hw) => h'.rf (LK_RXSEQ lk) LK_RXSEQ_EXP = (f.seq + 1) % 2 ^ 20 ∧ h'.rb (LK_RXSEQ lk) LK_RXSEQ_NAKST = false ∧ (h'.link lk).accSeq = some f.seq
    (frameSlot s.hw lk pos l (as ftIDLE f.fmt) aw = true → Gives (.idle lk pos f aw) s (fun h' => h' = slotRead h0 lk l (inRxSet s.hw lk l))) ∧
    (∀ (t : Nat), frameNext s.hw lk pos l (as t f.fmt) aw = true →
      f.epoch = h0.rf (LK_STAT lk) LK_STAT_RXEP → relayFor h0 lk (as t f.fmt) = none → fenceDrops h0 lk (as t f.fmt) = false → f.step ≠ 0xFFF → f.rsnd = false →
      svcQuiet h0 = true → h0.rgnState (lk / 32) = 0 → (∀ ch c, (ch, c) ∈ h0.chains → c.act = [] ∧ c.pend = none) →
      ∀ (p : Post), (h0.link lk).posts = [p] → p.ctx = f.ctx → p.step = f.step → p.chain = false → f.payload.length = f.len → f.len ≤ p.len - p.got → h0.inMat (p.base + p.got) = true →
      protCause h0 (.rxWriter lk) (p.base + p.got) f.len true = none → (∀ w, w ∈ wordsOf (p.base + p.got) f.len → isMarked h0 w = false) →
      let lands := fun (h' : Hw) => next h' ∧ kvGet 0 (h'.link lk).owed f.tc = kvGet 0 (h0.link lk).owed f.tc + 1 ∧
        ∀ a, h'.byteAt a = if p.base + p.got ≤ a ∧ a < p.base + p.got + f.len then f.payload.getD (a - (p.base + p.got)) 0 else h0.byteAt a
      (t = ftDATA → Gives (.data lk pos f aw) s lands) ∧ (t = ftAREC → Gives (.arec lk pos f aw) s lands)) ∧
    (frameNext s.hw lk pos l (as ftCREDIT f.fmt) aw = true →
      let c := fun (tc : Nat) => if f.crdN ≠ 0 ∧ tc = f.crdTc % 4 then min 255 (h0.cred lk tc + f.crdN) else h0.cred lk tc
      Gives (.credit lk pos f aw) s (fun h' => next h' ∧ (∀ tc, tc < 4 → h'.cred lk tc = min 255 (c tc + leNat ((f.payload.drop (2 * tc)).take 2))) ∧ h'.mem = h0.mem)) ∧
    (frameNext s.hw lk pos l (as ftEPOCH f.fmt) aw = true → f.epoch < 16 →
      Gives (.epoch lk pos f aw) s (fun h' => next h' ∧ h'.rf (LK_STAT lk) LK_STAT_RXEP = f.epoch ∧ h'.mem = h0.mem ∧ h'.fronds = h0.fronds)) ∧
    (frameNext s.hw lk pos l (as ftMGMT f.fmt) aw = true → f.epoch = h0.rf (LK_STAT lk) LK_STAT_RXEP → (h0.link lk).mgmt = [] → (kvGet [] h0.mgmtQ (lk / 32)).length < 16 →
      Gives (.mgmt lk pos f aw) s (fun h' => next h' ∧ kvGet [] h'.mgmtQ (lk / 32) = kvGet [] h0.mgmtQ (lk / 32) ++ [as ftMGMT f.fmt] ∧
        kvGet 0 (h'.link lk).owed f.tc = kvGet 0 (h0.link lk).owed f.tc + 1 ∧ h'.mem = h0.mem)) ∧
    (∀ (g : Frame), frameReserved g = true → frameSlot s.hw lk pos l f aw = true →
      ∀ i ∈ [Instr.idle lk pos g aw, .data lk pos g aw, .ready lk pos g aw, .down lk pos g aw], Gives i s (fun h' => h'.lkState lk = lsDown ∧ h'.rb (LK_STAT lk) LK_STAT_PROTO = true ∧ h'.mem = h0.mem)) ∧
    (s.hw.laneAt lk pos = some l → s.hw.rf (LN_STAT l) LN_STAT_DLN = 2 → s.hw.loopOf l = 0 → s.hw.memServed (lk / 32) = true → rxTurn s.hw lk l = true → aw.ok = false →
      inRxSet s.hw lk l = true → (aw.hcrc = true → (s.hw.lane l).hfail < 5) →
      Gives (.frameReceiveFailed lk pos aw) s (fun h' => h'.rb (LK_RXSEQ lk) LK_RXSEQ_NAKST = true ∧ (h'.lane l).hfail = (if aw.hcrc then (s.hw.lane l).hfail + 1 else 0) ∧
        h'.rf (LN_ERR l) LN_ERR_CRCF = min (2 ^ LN_ERR_CRCF.w - 1) (s.hw.rf (LN_ERR l) LN_ERR_CRCF + 1) ∧ h'.mem = s.hw.mem ∧ h'.fronds = s.hw.fronds))

/-- With clocks, h0 being the state once the figures of the lane and the acknowledgement word of the slot are taken: a token that is next in order, of the link's epoch, that no relay takes, for a valid context of the region. Each acts as follows, and then the service of the region goes on as far as it can. READY for a context that does not fence, idle or with the OPID of the running request, is recorded, and so are BARRIER and, for a fencing context too, FENCE; the last FENCE that a restart waits for makes the context IDLE at step 0 and its request OK; ABORT with the OPID of the running request halts the context, CX_ERR passed on and any other status as PEER_ABORT; DONE with the OPID of a running request is recorded in it; GETREQ within the exposure window is admitted, and beyond it is answered with ABORT in class TC2. -/
def Obligations.TokensReachTheirContext : Prop :=
  ∀ (s : State) (lk pos l : Nat) (f : Frame) (aw : AckWord), s.hw.clocked = true → frameReserved f = false →
    let h0 := slotTaken s.hw lk l aw
    let as := fun (typ fmt : Nat) => ({ f with typ := typ, fmt := fmt } : Frame)
    let next := fun (h' : Hw) => h'.rf (LK_RXSEQ lk) LK_RXSEQ_EXP = (f.seq + 1) % 2 ^ 20 ∧ h'.rb (LK_RXSEQ lk) LK_RXSEQ_NAKST = false ∧ (h'.link lk).accSeq = some f.seq
    let n := f.ctx
    let opid := f.offset % 2 ^ 16
    let acts := fun (P : Hw → Prop) (h' : Hw) => ∃ h1, next h1 ∧ P h1 ∧ h' = slotRead (svcAdvance h1 (lk / 32)) lk l true
    let good := fun (code : Nat) => frameNext s.hw lk pos l (as ftTOKEN code) aw = true ∧ relayFor h0 lk (as ftTOKEN code) = none
    f.epoch = h0.rf (LK_STAT lk) LK_STAT_RXEP → n / 1024 = lk / 32 → h0.hasCtx n = true → h0.rb (CXE_CTL n) CXE_CTL_V = true →
    (good 4 → h0.cxState n = csFence → (∀ u, (h0.ctx n).run = some u → u.ended = none) → (h0.ctx n).run.isSome = true → opid = h0.cxOpid n →
      (∀ k, k ∈ h0.cxLinks n → ∀ tc, tc < 3 → (k, tc, opid) = (lk, f.tc, opid) ∨ (k, tc, opid) ∈ (h0.ctx n).fences) →
      Gives (.fence lk pos f aw) s (acts (fun h1 => h1.cxState n = csIdle ∧ h1.rf (CXE_RUN n) CXE_RUN_STEP = 0 ∧ h1.rf (CXE_LAST n) CXE_LAST_STATUS = 0))) ∧
    (h0.cxState n ≠ csFence →
    (good 1 → (h0.cxState n = csIdle ∨ (h0.cxState n = csRun ∧ opid = h0.cxOpid n)) →
      Gives (.ready lk pos f aw) s (acts (fun h1 => (h1.ctx n).ready = (h0.ctx n).ready ++ [(lk, f.step, opid)] ∧ h1.cxState n = h0.cxState n ∧ h1.mem = h0.mem))) ∧
    (good 2 →
      Gives (.barrier lk pos f aw) s (acts (fun h1 => (h1.ctx n).barrier = (h0.ctx n).barrier ++ [(lk, f.step, opid)] ∧ h1.cxState n = h0.cxState n ∧ h1.mem = h0.mem))) ∧
    (∀ (u : CtxRun), good 3 → inRecovery h0 (n / 1024) = false → h0.cxState n = csRun → (h0.ctx n).run = some u → u.ended = none → opid = h0.cxOpid n →
      let st := if (f.payload.headD 0).toNat = 0x20 then 0x20 else 0x22
      Gives (.abort lk pos f aw) s (acts (fun h1 => (h1.ctx n).run.map (fun x => (x.words, x.ended)) = some (u.words, some (st, leNat ((f.payload.drop 2).take 2) % 1024)) ∧ h1.cxState n = csHalted ∧
        h1.rf (CXE_LAST n) CXE_LAST_STATUS = st ∧ h1.mem = h0.mem))) ∧
    (good 4 →
      Gives (.fence lk pos f aw) s (acts (fun h1 => (lk, f.tc, opid) ∈ (h1.ctx n).fences ∧ (h1.ctx n).run = (h0.ctx n).run ∧ h1.cxState n = h0.cxState n ∧ h1.mem = h0.mem))) ∧
    (∀ (u : CtxRun), good 5 → h0.cxState n = csRun → (h0.ctx n).run = some u → u.ended = none → opid = h0.cxOpid n →
      Gives (.done lk pos f aw) s (acts (fun h1 => (h1.ctx n).run.map (fun x => (x.words, x.ended, x.gotDone)) = some (u.words, none, true) ∧ h1.cxState n = csRun ∧ h1.mem = h0.mem))) ∧
    (good 6 →
      let woff := leNat (f.payload.take 4)
      let cnt := leNat ((f.payload.drop 4).take 8)
      (woff + cnt ≤ xwBytes h0 n → Gives (.getreq lk pos f aw) s (acts (fun h1 => (h1.ctx n).gets = (h0.ctx n).gets ++ [(lk, f.step, opid, woff, cnt)] ∧ h1.mem = h0.mem))) ∧
      (xwBytes h0 n < woff + cnt → Gives (.getreq lk pos f aw) s (acts (fun h1 => (h1.ctx n).gets = (h0.ctx n).gets ∧ h1.mem = h0.mem ∧
        ∃ m : Frame, m.typ = ftTOKEN ∧ m.fmt = 3 ∧ m.tc = 2 ∧ m.offset = opid ∧ (h1.link lk).txq = (h0.link lk).txq ++ [m])))))

/-- With clocks, h0 being the state once the figures of the lane and the acknowledgement word of the slot are taken. On a link in ALIGN or beyond: INIT of a partner that is not the own link records its version and credits and queues INITACK, and makes a link in INIT that has its own INITACK UP, or QUIESCE while its region recovers; INITACK for the own INIT does the same for a link in INIT that has INIT, with SEQ 0 and TXEP at the epoch of the region; ALIGN on an UP link deskews its lane within 2 frame times. In order on an UP link: SNAK for items that one held frame covers has that frame sent again, with nothing held it is refused with SREF; SREF ends the waiting command PARITY; LANESET of ready lanes is acknowledged and taken from the next row, of others refused; LSACK takes the set asked for from the next row and LSREF drops it, when no later set waits; LREQ asks for the set without the named lanes, when none is asked for; DOWN takes the link DOWN with cause 1. -/
def Obligations.LinkControlFramesActOnTheirLink : Prop :=
  ∀ (s : State) (lk pos l : Nat) (f : Frame) (aw : AckWord), s.hw.clocked = true → frameReserved f = false →
    let h0 := slotTaken s.hw lk l aw
    let as := fun (typ fmt : Nat) => ({ f with typ := typ, fmt := fmt } : Frame)
    let next := fun (h' : Hw) => h'.rf (LK_RXSEQ lk) LK_RXSEQ_EXP = (f.seq + 1) % 2 ^ 20 ∧ h'.rb (LK_RXSEQ lk) LK_RXSEQ_NAKST = false ∧ (h'.link lk).accSeq = some f.seq
    let p := fun (i n : Nat) => leNat ((f.payload.drop i).take n)
    let up := if inRecovery h0 (lk / 32) then lsQuiesce else lsUp
    let last := rowLeft (h0.rf (LK_STAT lk) LK_STAT_RXACT) ((h0.lane l).outPos + 1) = false
    (frameSlot s.hw lk pos l (as ftLCTL 1) aw = true → (p 4 8 = nodeId h0 (lk / 32) → p 12 1 ≠ lk) → p 0 2 < 2 ^ LK_PEER_VER.w → h0.lkState lk = lsInit →
      Gives (.init lk pos f aw) s (fun h' => h'.rf (LK_PEER lk) LK_PEER_VER = p 0 2 ∧ (h'.link lk).gotInit = true ∧ (∀ tc, tc < 4 → h'.cred lk tc = min 255 (p (16 + 2 * tc) 2)) ∧
        (∃ m : Frame, m.typ = ftLCTL ∧ m.fmt = 2 ∧ (h'.link lk).unseq = (h0.link lk).unseq ++ [m]) ∧
        h'.lkState lk = (if (h0.link lk).gotAck then up else lsInit) ∧ h'.mem = h0.mem)) ∧
    (frameSlot s.hw lk pos l (as ftLCTL 2) aw = true → p 0 8 = nodeId h0 (lk / 32) → (f.payload.getD 8 0).toNat = lk → h0.lkState lk = lsInit →
      Gives (.initack lk pos f aw) s (fun h' => (h'.link lk).gotAck = true ∧ h'.lkState lk = (if (h0.link lk).gotInit then up else lsInit) ∧
        ((h0.link lk).gotInit = true → h'.rd (LK_TXSEQ lk) = 0 ∧ h'.rd (LK_RXSEQ lk) = 0 ∧ h'.rf (LK_STAT lk) LK_STAT_TXEP = h0.epoch (lk / 32)) ∧ h'.mem = h0.mem)) ∧
    (frameSlot s.hw lk pos l (as ftLCTL 3) aw = true → h0.lkUp lk = true →
      (aw.skew ≤ 16 → Gives (.align lk pos f aw) s (fun h' => (h'.lane l).desk = true ∧ (h'.lane l).outPos = (f.payload.headD 0).toNat ∧ h'.rf (LN_STAT l) LN_STAT_SKEW = aw.skew ∧ h'.mem = h0.mem)) ∧
      (16 < aw.skew → Gives (.align lk pos f aw) s (fun h' => (h'.lane l).desk = false ∧ h'.mem = h0.mem))) ∧
    (frameNext s.hw lk pos l (as ftSNAK f.fmt) aw = true → f.epoch = h0.rf (LK_STAT lk) LK_STAT_RXEP →
      ((h0.link lk).hist = [] →
        Gives (.snak lk pos f aw) s (fun h' => next h' ∧ h'.mem = h0.mem ∧
          ∃ m : Frame, m.typ = ftSREF ∧ m.ctx = f.ctx ∧ m.step = f.step ∧ m.offset = f.offset ∧ (h'.link lk).ctlq = (h0.link lk).ctlq ++ [m])) ∧
      (∀ g, (h0.link lk).hist = [g] → g.typ = ftDATA → g.ctx = f.ctx → g.step = f.step → g.offset ≤ f.offset → 0 < p 0 4 → f.offset + p 0 4 ≤ g.offset + frameItems g →
        Gives (.snak lk pos f aw) s (fun h' => next h' ∧ h'.mem = h0.mem ∧ (h'.link lk).txq = (h0.link lk).txq ++ [{ g with rsnd := true, rpl := false }]))) ∧
    (∀ (ch : Nat) (e : Exec), frameNext s.hw lk pos l (as ftSREF f.fmt) aw = true → f.epoch = h0.rf (LK_STAT lk) LK_STAT_RXEP → soleCmd h0 ch e = true → ch / 8 = lk / 32 →
      e.ending = none → e.outQ = [] → e.accs = [] → dCTX e.words = f.ctx → e.rsA.isSome = true → opLINK (dOp e.words 0) = lk → opSTEP (dOp e.words 0) = f.step →
      Gives (.sref lk pos f aw) s (fun h' => (h'.chain ch).act.map (fun y => (y.id, y.ending)) = [(e.id, some ⟨0x16, 7, 0, 0⟩)] ∧ h'.mem = h0.mem)) ∧
    (frameNext s.hw lk pos l (as ftLCTL 4) aw = true → (h0.link lk).rxNew = none →
      let m := (f.payload.headD 0).toNat % 16
      (maskReady h0 lk m = true → Gives (.laneset lk pos f aw) s (fun h' => next h' ∧ (h'.link lk).ctlq = (h0.link lk).ctlq ++ [maskFrame 5 m] ∧
        (last → h'.rf (LK_STAT lk) LK_STAT_RXACT = m) ∧ (¬ last → h'.rf (LK_STAT lk) LK_STAT_RXACT = h0.rf (LK_STAT lk) LK_STAT_RXACT ∧ (h'.link lk).rxNew = some m))) ∧
      (maskReady h0 lk m = false → Gives (.laneset lk pos f aw) s (fun h' => next h' ∧ h'.rf (LK_STAT lk) LK_STAT_RXACT = h0.rf (LK_STAT lk) LK_STAT_RXACT ∧
        (h'.link lk).ctlq = (h0.link lk).ctlq ++ [maskFrame 6 m]))) ∧
    (∀ m, (h0.link lk).newSet = some m → m < 16 → (h0.link lk).want = none →
      (frameNext s.hw lk pos l (as ftLCTL 5) aw = true → Gives (.lsack lk pos f aw) s (fun h' => next h' ∧ (h'.link lk).newSet = none ∧
        ((h0.link lk).txAt = 0 → h'.rf (LK_STAT lk) LK_STAT_TXACT = m) ∧
        ((h0.link lk).txAt ≠ 0 → h'.rf (LK_STAT lk) LK_STAT_TXACT = h0.rf (LK_STAT lk) LK_STAT_TXACT ∧ (h'.link lk).txNew = some m))) ∧
      (frameNext s.hw lk pos l (as ftLCTL 6) aw = true → Gives (.lsref lk pos f aw) s (fun h' => next h' ∧ (h'.link lk).newSet = none ∧
        h'.rf (LK_STAT lk) LK_STAT_TXACT = h0.rf (LK_STAT lk) LK_STAT_TXACT))) ∧
    (frameNext s.hw lk pos l (as ftLCTL 7) aw = true →
      let m := Nat.land (h0.rf (LK_STAT lk) LK_STAT_TXACT) (15 - ownMask h0 lk ((f.payload.headD 0).toNat % 16))
      m ≠ 0 → (h0.link lk).newSet = none → (h0.link lk).want = none → (h0.link lk).txNew = none → h0.lkState lk = lsUp →
      Gives (.lreq lk pos f aw) s (fun h' => next h' ∧ (h'.link lk).newSet = some m ∧ h'.lkState lk = lsChange ∧ (h'.link lk).ctlq = (h0.link lk).ctlq ++ [maskFrame 4 m])) ∧
    (frameNext s.hw lk pos l (as ftLCTL 8) aw = true →
      Gives (.down lk pos f aw) s (fun h' => h'.lkState lk = lsDown ∧ h'.rf (LK_STAT lk) LK_STAT_DCAUSE = 1 ∧ h'.mem = h0.mem))

/-- With clocks, for a link of a served region. The slot of an UP link whose turn it is in its row, on a lane in no loopback, with nothing to send carries an IDLE frame with the acknowledgement word; one with a waiting class frame that has credit, the link not in QUIESCE, sends it as the next in sequence: it leaves the queue, takes a place in the retry buffer, and SEQ advances and the credit of its class falls by 1. A replay timeout with a held frame and no replay under way, RPL_TMO units of 32 ns after it was armed, starts a replay from the oldest frame unless it is the last that REPLAY_MAX allows. A NAK timeout likewise makes the next trailer carry NK. A LANESET unanswered for 10 µs takes the link DOWN with cause 5. -/
def Obligations.FramesAreSentAndTimeOut : Prop :=
  ∀ (s : State) (lk : Nat), s.hw.clocked = true → s.hw.memServed (lk / 32) = true →
    let h := s.hw
    let x := h.link lk
    (∀ pos l, h.laneAt lk pos = some l → h.loopOf l = 0 → h.lkUp lk = true → bit (h.rf (LK_STAT lk) LK_STAT_TXACT) pos = true → rowNext (h.rf (LK_STAT lk) LK_STAT_TXACT) x.txAt = some pos →
      x.unseq = [] → x.ctlq = [] → x.replay = none → x.newSet = none → x.txNew = none → x.retry.length < 64 →
      (x.txq = [] → (∀ tc, tc < 4 → kvGet 0 x.owed tc < 8) →
        Gives (.frameTransmit lk pos) s (fun h' => (h'.lane l).sent = frameBytes (idleFrame h lk) (ackBits x.accSeq x.nkDue) ∧ (h'.link lk).nkDue = false ∧
          (h'.link lk).retry = x.retry ∧ h'.rf (LK_TXSEQ lk) LK_TXSEQ_NEXT = h.rf (LK_TXSEQ lk) LK_TXSEQ_NEXT ∧ h'.mem = h.mem ∧ h'.fronds = h.fronds)) ∧
      (∀ (f : Frame), x.txq = [f] → f.tc < 4 → h.cred lk f.tc ≠ 0 → credited f = true → h.lkState lk ≠ lsQuiesce →
        Gives (.frameTransmit lk pos) s (fun h' => (h'.link lk).txq = [] ∧ h'.rf (LK_TXSEQ lk) LK_TXSEQ_NEXT = (h.rf (LK_TXSEQ lk) LK_TXSEQ_NEXT + 1) % 2 ^ 20 ∧
          h'.cred lk f.tc = h.cred lk f.tc - 1 ∧ (∃ g : Frame, g.seq = h.rf (LK_TXSEQ lk) LK_TXSEQ_NEXT ∧ g.payload = f.payload ∧ g.typ = f.typ ∧
            (h'.link lk).retry = x.retry ++ [g] ∧ (h'.lane l).sent = frameBytes g (ackBits x.accSeq x.nkDue)) ∧ h'.mem = h.mem))) ∧
    (∀ (f : Frame) (rest : List Frame), h.lkUp lk = true → x.retry = f :: rest → x.replay = none →
      32 * h.rf (LNK_TMR (lk / 32)) LNK_TMR_RPL_TMO ≤ 10 * ((h.tb - BitVec.ofNat 64 x.tm.rpl).toNat + 1) →
      (if x.rplSeq = some f.seq then x.rplCnt + 1 else 1) < max 1 (h.rf (LNK_THR1 (lk / 32)) LNK_THR1_REPLAY_MAX) →
      Gives (.replayTimeout lk) s (fun h' => (h'.link lk).replay = some 0 ∧ (h'.link lk).retry = x.retry ∧ h'.lkState lk = h.lkState lk ∧
        h'.rf (LK_CNT lk) LK_CNT_RPL = min (2 ^ LK_CNT_RPL.w - 1) (h.rf (LK_CNT lk) LK_CNT_RPL + 1) ∧ h'.mem = h.mem)) ∧
    (h.lkUp lk = true → h.rb (LK_RXSEQ lk) LK_RXSEQ_NAKST = true → 32 * h.rf (LNK_TMR (lk / 32)) LNK_TMR_NAK_TMO ≤ 10 * ((h.tb - BitVec.ofNat 64 x.tm.nak).toNat + 1) →
      Gives (.nakTimeout lk) s (fun h' => h' = h.setLink lk { x with nkDue := true, tm := { x.tm with nak := h.tb.toNat } })) ∧
    (h.lkUp lk = true → x.newSet.isSome = true → x.lsSent = true → 10000 ≤ 10 * (h.tb - BitVec.ofNat 64 x.tm.lset).toNat →
      Gives (.lanesetTimeout lk) s (fun h' => h'.lkState lk = lsDown ∧ h'.rf (LK_STAT lk) LK_STAT_DCAUSE = 5 ∧ h'.mem = h.mem))

/-- For an existing lane number. Behind the grants of LK_CTL, for a keeper supervisor: UP of an enabled link that is DOWN in a working region, its lanes in no test, begins autonegotiation; DOWN of a link takes it DOWN with cause 1; RETRAIN of an enabled one with a lane that has not failed, its lanes in no test, begins training. RETRAIN of a lane of an UP link that others are left to trains that lane alone. With clocks: the end of autonegotiation begins training at the rate agreed; the end of training with no further failure begins ALIGN; a timeout in either takes the link DOWN with cause 4, one in ALIGN or INIT, after INIT_TMO, with cause 6, both with INITF; INIT is sent again every 1 µs while INITACK is awaited; a lane goes from HUNT to PRESYNC to SYNC; one that loses SYNC takes an UP link with no other lane DOWN with cause 2, and a wider one runs on without it and asks the partner to remove it. -/
def Obligations.LinksAreBroughtUpAndDown : Prop :=
  ∀ (s : State) (lk : Nat), s.hw.hasLane lk = true →
    let h := s.hw
    let untested := ∀ l, l ∈ h.linkLanes lk → h.rf (LT_CLAIM l) cHELD = 0 ∨ h.rf (LT_CLAIM l) cAGENT = 0xA
    let goes := fun (st cause : Nat) (h' : Hw) => h'.lkState lk = st ∧ h'.rf (LK_STAT lk) LK_STAT_DCAUSE = cause ∧ h'.mem = h.mem
    (∀ (w : Who) (v : W32), regGrant h w (LK_CTL lk) true = true → w.keeperSup = true →
      (fldGet LK_CTL_UP v = 1 → fldGet LK_CTL_DOWN v = 0 → fldGet LK_CTL_RETRAIN v = 0 → h.working (lk / 32) = true → h.rb (LK_CFG lk) LK_CFG_EN = true → h.lkState lk = lsDown → h.linkLanes lk ≠ [] → untested →
        Gives (.linkUp w lk v) s (fun h' => h'.lkState lk = lsAn ∧ h'.mem = h.mem)) ∧
      (fldGet LK_CTL_UP v = 0 → fldGet LK_CTL_DOWN v = 1 → fldGet LK_CTL_RETRAIN v = 0 → h.lkState lk ≠ lsDown → Gives (.linkDownCmd w lk v) s (goes lsDown 1)) ∧
      (fldGet LK_CTL_UP v = 0 → fldGet LK_CTL_DOWN v = 0 → fldGet LK_CTL_RETRAIN v = 1 → h.rb (LK_CFG lk) LK_CFG_EN = true → h.working (lk / 32) = true → h.usable lk ≠ 0 → untested →
        Gives (.linkRetrain w lk v) s (fun h' => h'.lkState lk = lsTrain ∧ (h.lkState lk ≠ lsDown → h'.rf (LK_STAT lk) LK_STAT_DCAUSE = 1) ∧ h'.mem = h.mem))) ∧
    (∀ (w : Who) (v : W32) (k : Nat), regGrant h w (LN_CTL lk) true = true → w.keeperSup = true → fldGet LN_CTL_RETRAIN v = 1 → h.linkOfLane lk = some k → h.lkUp k = true → laneFailed h lk = false →
      Nat.land (txWanted h k) (15 - 2 ^ h.posOf k lk) ≠ 0 → Nat.land (h.rf (LK_STAT k) LK_STAT_RXACT) (15 - 2 ^ (h.lane lk).outPos) ≠ 0 →
      Gives (.laneRetrain w lk v) s (fun h' => h'.rf (LN_STAT lk) LN_STAT_STATE = 2 ∧ (h'.lane lk).alone = true ∧ h'.mem = h.mem)) ∧
    (h.clocked = true →
      (∀ fb, h.lkState lk = lsAn → Gives (.anDone lk fb) s (fun h' => h'.lkState lk = lsTrain ∧
        h'.rb (LK_STAT lk) LK_STAT_RATE = (h.rb (LK_CFG lk) LK_CFG_FBONLY || (fb && h.rb (LK_CFG lk) LK_CFG_FB100)) ∧ h'.mem = h.mem)) ∧
      (∀ failed pre, h.lkState lk = lsTrain → h.usable lk ≠ 0 → failed % 2 ^ ((h.linkLanes lk).zip (List.range 4)).length = 0 →
        Gives (.trainDone lk failed pre) s (fun h' => h'.lkState lk = lsAlign ∧ (∀ e, e ∈ (h.linkLanes lk) → laneFailed h e = false → h'.rf (LN_STAT e) LN_STAT_STATE = 3) ∧ h'.mem = h.mem)) ∧
      ((h.lkState lk = lsAn ∨ h.lkState lk = lsTrain) → Gives (.trainTimeout lk) s (fun h' => goes lsDown 4 h' ∧ h'.rb (LK_STAT lk) LK_STAT_INITF = true)) ∧
      ((h.lkState lk = lsAlign ∨ h.lkState lk = lsInit) → 8000 * h.rf (LNK_TMR (lk / 32)) LNK_TMR_INIT_TMO ≤ 10 * (h.tb - BitVec.ofNat 64 (h.link lk).tm.init).toNat →
        Gives (.initTimeout lk) s (fun h' => goes lsDown 6 h' ∧ h'.rb (LK_STAT lk) LK_STAT_INITF = true)) ∧
      (h.lkState lk = lsInit → (h.link lk).gotAck = false → (∀ t, (h.link lk).tm.again = some t → 100 ≤ (h.tb - BitVec.ofNat 64 t).toNat) →
        Gives (.initResend lk) s (fun h' => h' = h.setLink lk { h.link lk with unseq := (h.link lk).unseq ++ [initFrame h lk], tm := { (h.link lk).tm with again := some h.tb.toNat } })) ∧
      (h.rf (LN_STAT lk) LN_STAT_DLN < 2 →
        Gives (.laneSyncAcquired lk) s (fun h' => h'.rf (LN_STAT lk) LN_STAT_DLN = h.rf (LN_STAT lk) LN_STAT_DLN + 1 ∧ h'.mem = h.mem ∧ h'.links = h.links)) ∧
      (∀ los, h.loopOf lk ≠ 1 → h.linkOfLane lk = none →
        Gives (.laneSyncLoss lk los) s (fun h' => h'.rf (LN_STAT lk) LN_STAT_DLN = 0 ∧ (los = true → h'.rb (LN_STAT lk) LN_STAT_LOS = true) ∧
          (los = false → h.rf (LN_STAT lk) LN_STAT_DLN = 2 → h'.rb (LN_STAT lk) LN_STAT_DLOSS = true) ∧ h'.links = h.links)) ∧
      (∀ los k, h.loopOf lk ≠ 1 → h.linkOfLane lk = some k → h.lkUp k = true → bit (h.rf (LK_STAT k) LK_STAT_RXACT) (h.lane lk).outPos = true →
        let left := Nat.land (h.rf (LK_STAT k) LK_STAT_RXACT) (15 - 2 ^ (h.lane lk).outPos)
        (left = 0 → Gives (.laneSyncLoss lk los) s (fun h' => h'.lkState k = lsDown ∧ h'.rf (LK_STAT k) LK_STAT_DCAUSE = 2 ∧ h'.mem = h.mem)) ∧
        (left ≠ 0 → (h.link k).rxNew = none → Gives (.laneSyncLoss lk los) s (fun h' => h'.rf (LK_STAT k) LK_STAT_RXACT = left ∧ h'.lkState k = h.lkState k ∧
          (h'.link k).ctlq = (h.link k).ctlq ++ [maskFrame 7 (2 ^ h.posOf k lk)] ∧ h'.mem = h.mem))))

/-- For the holder of an existing lane's test engine, behind the grants of LT_CTL: SCAN starts a scan, and CLR clears the error count and its span; anyone else sets CLAIM and changes nothing else. With clocks, a scan under way ends with its error count, SDONE set and BUSY clear. -/
def Obligations.LaneTestEngines : Prop :=
  ∀ (s : State) (l : Nat), s.hw.hasLane l = true →
    let h := s.hw
    (∀ (w : Who) (v : W32), regGrant h w (LT_CTL l) true = true →
      (h.holds (LT_CLAIM l) w = true → fldGet LT_CTL_SCAN v = 1 →
        Gives (.ltScan w l v) s (fun h' => h'.rb (LT_STAT l) LT_STAT_BUSY = true ∧ h'.rd (LT_CTL l) = v &&& 0xFFFFFCF8 ∧ h'.mem = h.mem ∧ h'.lanes = h.lanes ∧ h'.links = h.links)) ∧
      (h.holds (LT_CLAIM l) w = true → fldGet LT_CTL_CLR v = 1 →
        Gives (.ltClr w l v) s (fun h' => h'.rd (LT_ERR l) = 0 ∧ h'.rd (LT_UI l) = 0 ∧ h'.mem = h.mem ∧ (h'.lane l).ui = 0 ∧ (∀ k, k ≠ l → h'.lane k = h.lane k) ∧ h'.links = h.links)) ∧
      (h.holds (LT_CLAIM l) w = false → fldGet LT_CTL_SCAN v = 1 → Gives (.ltScan w l v) s (fun h' => h' = h.sb (LT_STAT l) LT_STAT_CLAIM)) ∧
      (h.holds (LT_CLAIM l) w = false → fldGet LT_CTL_CLR v = 1 → Gives (.ltClr w l v) s (fun h' => h' = h.sb (LT_STAT l) LT_STAT_CLAIM))) ∧
    (∀ (errs : W32), h.clocked = true → h.rb (LT_STAT l) LT_STAT_BUSY = true →
      Gives (.ltScanDone l errs) s (fun h' => h'.rd (LT_SCAN l) = errs ∧ h'.rb (LT_STAT l) LT_STAT_BUSY = false ∧ h'.rb (LT_STAT l) LT_STAT_SDONE = true ∧ h'.mem = h.mem ∧
        h'.lanes = h.lanes ∧ h'.links = h.links))

/-- With clocks, for an existing port whose host clock runs and none of whose requests waits in a region: a READ of cushion words that the windows permit and that have good parity answers OK with the bytes stored, no beat busy where it meets no other access, and changes no byte; a READ of an offset that is neither cushion nor register is answered UNMAPPED, one with a request parity error PARITY, both with zeros; a permitted WRITE of the cushion stores each enabled byte and no other and answers OK; a CAS64 is refused with ERR and stores nothing. -/
def Obligations.HostRequestsAreServedOrRefused : Prop :=
  ∀ (s : State) (port addr tag : Nat) (priv : Bool), s.hw.clocked = true → s.hw.hasPort port = true → hpRunning s.hw port = true →
    (∀ r, r ∈ s.hw.regionList → ∀ q, q ∈ (s.hw.pw r).held → q.port ≠ port) →
    let h := s.hw
    let answer := fun (h' : Hw) => kvFind h'.sresp port
    (∀ len, h.inCush addr = true → protCause h (.hostB port) addr len false = none → (∀ w, w ∈ wordsOf addr len → isMarked h w = false) →
      Gives (.hostSRead port addr len tag priv false .good []) s (fun h' => answer h' = some ⟨tag, false, 0, h.bytesAt addr len, List.replicate (mBeats addr len) false⟩ ∧ h'.mem = h.mem ∧ h'.fronds = h.fronds)) ∧
    (∀ len, h.inCush addr = false → inPriv addr = false → inUnpriv addr = false →
      Gives (.hostSRead port addr len tag priv false .good []) s (fun h' => answer h' = some ⟨tag, false, 2, List.replicate (beatLen addr len) 0, []⟩ ∧
        h'.rb (HP_STAT port) HP_STAT_SREF = true ∧ h'.mem = h.mem ∧ h'.fronds = h.fronds)) ∧
    (∀ len par meets, Gives (.hostSRead port addr len tag priv true par meets) s (fun h' => answer h' = some ⟨tag, false, 3, List.replicate (beatLen addr len) 0, []⟩ ∧
      h'.rb (HP_STAT port) HP_STAT_SPERR = true ∧ h'.mem = h.mem ∧ h'.fronds = h.fronds)) ∧
    (∀ (data : List (Option Byte)), 0 < data.length → h.inCush addr = true → protCause h (.hostB port) addr data.length true = none →
      (∀ w, w ∈ wordsOf addr data.length → isMarked h w = false) →
      Gives (.hostSWrite port addr tag 1 priv false data [] .good []) s (fun h' => answer h' = some ⟨tag, true, 0, [], [false]⟩ ∧ h'.fronds = h.fronds ∧
        ∀ b, h'.byteAt b = if addr ≤ b ∧ b < addr + data.length then ((data[b - addr]?).join).getD (h.byteAt b) else h.byteAt b)) ∧
    (∀ (data : List (Option Byte)) par meets, Gives (.hostSWrite port addr tag 2 priv false data [] par meets) s (fun h' => (∃ d, answer h' = some ⟨tag, false, 1, d, []⟩) ∧
      h'.mem = h.mem ∧ h'.fronds = h.fronds))

/-- With clocks, for an existing port. Its host clock running, the last beat of a good READ for a load of a frond gives the load its bytes, a good response gives a store its acknowledgement, and the old value of a CAS64 reaches the walk that marks a page. At a beat boundary RTMO beats or more after its grant, RTMO nonzero, a request timeout completes the load with a bus error and retires the tag. A credit returned with no request waiting adds 1 below 1,024, and sets CRDOVF at 1,024. The loss of the host clock holds the port in reset with no credits, no answer and nothing on its outbound side, and its return makes it run and grant 128 request and 256 data credits. -/
def Obligations.LicenseeMemoryAnswers : Prop :=
  ∀ (s : State) (p tag : Nat), s.hw.clocked = true → s.hw.hasPort p = true →
    let h := s.hw
    (hpRunning h p = true →
      (∀ (q : MReq) (f seq : Nat) (l : LsuLoad) (data : List Byte), mFind h p tag 0 = some q → q.use = .load f seq → q.st = 0 → q.bad = [] → (h.frond f).load = some l → l.seq = seq →
        Gives (.mReadData p tag data [] 0 true) s (fun h' =>
          (h'.frond f).load = some { l with served := some (BitVec.ofNat 64 (leNat (q.got ++ data)), 0) } ∧ h'.mem = h.mem)) ∧
      (∀ (q : MReq) (f seq : Nat) (t : LsuStore), mFind h p tag 1 = some q → q.use = .store f seq → (h.frond f).stores = [t] → t.seq = seq →
        Gives (.mWriteResponse p tag 0 false) s (fun h' => (h'.frond f).stores = [{ t with served := some 0 }] ∧ h'.mem = h.mem)) ∧
      (∀ (q : MReq) (r k : Nat) (w : Walk) (old : W64), mFind h p tag 2 = some q → q.use = .cas r k → walkAt h r k = some w → w.phase = 3 →
        Gives (.mCasResponse p tag old false 0) s (fun h' => walkAt h' r k = some { w with phase := 4, entry := old.toNat, st := 0, bad := false } ∧ h'.mem = h.mem)) ∧
      (∀ (wd : Bool), (∀ q, q ∈ h.mreqs → q.port = p → q.tag.isSome = true) →
        let f := if wd then HP_CRED_MWD else HP_CRED_MREQ
        (h.rf (HP_CRED p) f < 1024 → Gives (.hostCreditReturn p wd) s (fun h' => h' = h.wf (HP_CRED p) f (h.rf (HP_CRED p) f + 1))) ∧
        (1024 ≤ h.rf (HP_CRED p) f → Gives (.hostCreditReturn p wd) s (fun h' => h' = h.sb (HP_STAT p) HP_STAT_CRDOVF))) ∧
      Gives (.hostClockLoss p) s (fun h' => hpRunning h' p = false ∧ h'.rd (HP_CRED p) = 0 ∧ kvFind h'.sresp p = none ∧ kvFind h'.scred p = none ∧ kvFind h'.out p = none)) ∧
    (∀ (q : MReq) (f seq : Nat) (l : LsuLoad), h.mreqs.find? (fun x => x.port == p && x.tag == some tag) = some q → q.use = .load f seq → (h.frond f).load = some l → l.seq = seq →
      h.rf (HP_CTL p) HP_CTL_RTMO ≠ 0 → h.beatsOver q.since (h.rf (HP_CTL p) HP_CTL_RTMO) = true →
      Gives (.mRequestTimeout p tag) s (fun h' => (h'.frond f).load = some { l with served := some (0, 3) } ∧ (p, tag) ∈ h'.retired ∧ h'.rb (HP_STAT p) HP_STAT_RTMO = true)) ∧
    (hpRunning h p = false → Gives (.hostClockReturn p) s (fun h' => hpRunning h' p = true ∧ kvFind h'.scred p = some (128, 256) ∧ h'.mreqs = h.mreqs ∧ h'.mem = h.mem))

/-- With clocks, for an existing region. A stream of a working chain that lacks a translation which no cache holds asks for one demand walk of its page. A single waiting walk starts: with no cached table it reads the directory entry of its ASID, and without a valid directory it ends and leaves no walk; each start counts in XLT_CNT. A look-ahead that lacks a page asks for a walk that is no demand. A table read judged as a table reads the next level, of a directory entry level 0 where the pointer cache is empty; one judged as a permitted leaf of a demand, of a space it may map and with its marks set fills the cache with a translation that covers the address and ends the walk; a mark whose CAS64 found the leaf unchanged fills it with A set. -/
def Obligations.TranslationsAreLookedUpAndWalked : Prop :=
  ∀ (s : State) (r : Nat), s.hw.clocked = true → s.hw.hasRegion r = true →
    let h := s.hw
    let x := h.xlt r
    let asked := fun (ch st : Nat) (demand : Bool) (va : Nat) (h' : Hw) => ∃ y, y ∈ (h'.xlt r).walks ∧ y.who = .chain ch st ∧ y.demand = demand ∧ y.va / 4096 = va / 4096 ∧ y.phase = 0
    (∀ ch st (n : Need), ch / 8 = r → h.working r = true → h.rgnState r = 0 → streamNeed h ch st = some n → n.mark = false → x.walks = [] →
      tcFind x (exSpace h n.exec).1 (exSpace h n.exec).2 n.va = none →
      Gives (.translationLookup ch st) s (fun h' => asked ch st true n.va h' ∧ (h'.xlt r).tc = x.tc ∧ h'.mem = h.mem ∧ h'.chains = h.chains)) ∧
    (∀ (w : Walk), h.working r = true → h.rgnState r = 0 → x.walks = [w] → 16 ≤ w.k → w.phase = 0 → x.ptr = [] → x.root = [] →
      let counted := fun (h' : Hw) => h'.rf (XLT_CNT r) XLT_CNT_WALKS = min (2 ^ 16 - 1) (h.rf (XLT_CNT r) XLT_CNT_WALKS + 1)
      (∀ b, dirBase h r w.world = some b → Gives (.translationWalk r) s (fun h' => counted h' ∧ h'.mem = h.mem ∧
        (walkAt h' r 0).map (fun y => (y.who, y.va, y.level, y.ea, y.phase)) = some (w.who, w.va, 4, b + 8 * w.asid, 1))) ∧
      (dirBase h r w.world = none → (∀ f, w.who ≠ .probe f) → Gives (.translationWalk r) s (fun h' => counted h' ∧ (h'.xlt r).walks = [] ∧ h'.mem = h.mem))) ∧
    (∀ ch st (e : Exec) (p : Nat) (ps : List Nat), ch / 8 = r → h.running ch = some e → e.started = true → e.ending = none → dNOLA e.words = false → h.working r = true → h.rgnState r = 0 →
      laPages e st (min 16 (h.rf (XLT_CTL r) XLT_CTL_LADEPTH)) = p :: ps → x = XltSt.empty → (h.chain ch).ubuf = [] →
      Gives (.lookaheadWalk ch st) s (fun h' => asked ch st false (p * 4096) h' ∧ h'.mem = h.mem ∧ h'.chains = h.chains)) ∧
    (∀ k (w : Walk) ch st, walkAt h r k = some w → k < 16 → w.stale = false → w.st = 0 → w.bad = false → w.who = .chain ch st →
      let filled := fun (h' : Hw) => walkAt h' r k = none ∧ ∃ key e, kvFind (h'.xlt r).tc key = some e ∧ e.covers w.world w.asid w.va = true ∧ e.aBit w.va = true
      (∀ a, w.phase = 2 → (w.level = 4 → x.ptr = []) → judge w.level w.entry = .table a → Gives (.walkTableReadDone r k) s (fun h' => h'.mem = h.mem ∧
        (walkAt h' r k).map (fun y => (y.who, y.va, y.level, y.ea, y.phase)) = some (w.who, w.va, (if w.level = 4 then 0 else w.level + 1), entryAddr (if w.level = 4 then 0 else w.level + 1) a w.va, 1))) ∧
      (w.phase = 2 → judge w.level w.entry = .leaf → w.demand = true → entPermits h (leafEnt w w.entry) w.write = true → bit w.entry 6 = true → (w.write = true → bit w.entry 7 = true) →
        Gives (.walkTableReadDone r k) s (fun h' => filled h' ∧ h'.mem = h.mem)) ∧
      (w.phase = 4 → w.entry = w.leaf → Gives (.markCasDone r k) s (fun h' => filled h' ∧ h'.mem = h.mem)))

/-- Outside maintenance: an invalidation of a supervisor frond, or of the privileged host behind the grants of XLT_INV_CTL, into an empty queue of the region begins at once, and no cached translation that it names is left; a frond's shows busy in XLT.IST. A frond's ninth is refused with XLT.IST = 4, the host's with INVREF. With clocks, one that has begun and waits for no access completes: the queue is empty and the host sees INVDONE, a frond sees done. A supervisor frond's probe clears XLT.PR and is answered at once from the cache or by a walk; its result reaches XLT.PR with bit 63. The tenant directory takes a keeper supervisor's write. -/
def Obligations.InvalidationsProbesAndDirectories : Prop :=
  ∀ (s : State) (r : Nat), s.hw.hasRegion r = true →
    let h := s.hw
    let x := h.xlt r
    let purged := fun (h' : Hw) (kind : Nat) (w : World) (asid va : Nat) =>
      (h'.xlt r).inv.map (fun i => (i.kind, i.world, i.asid, i.va, i.begun)) = [(kind, w, asid, va, true)] ∧ ∀ k e, (k, e) ∈ (h'.xlt r).tc → (∀ i, i ∈ (h'.xlt r).inv → i.hits e = false)
    (∀ f (v : W64), f / 2 = r → frondReady h f = true → stS (h.frond f).st = true → maint h = false →
      let w := if bit v.toNat 14 then World.tenant else World.keeper
      let mine := (h.frond f).world = .keeper ∨ w = .tenant
      (mine → x.inv = [] → Gives (.xltInv f v) s (fun h' => (h'.frond f).xIST = 1 ∧ purged h' (bits v.toNat 13 12) w (v.toNat % 4096) ((h.frond f).xIVA.toNat % 2 ^ 48) ∧ h'.mem = h.mem)) ∧
      (8 ≤ x.inv.length → Gives (.xltInv f v) s (fun h' => (h'.frond f).xIST = 4 ∧ h'.xlts = h.xlts ∧ h'.mem = h.mem))) ∧
    (∀ (w : Who) (v : W32), regGrant h w (XLT_INV_CTL r) true = true → w.agent = .host → w.sup = true → fldGet XLT_INV_CTL_GO v = 1 → maint h = false →
      (x.inv = [] → Gives (.xltInvGo w r v) s (fun h' => purged h' (fldGet XLT_INV_CTL_KIND v) (if fldGet XLT_INV_CTL_WORLD v = 1 then .tenant else .keeper) (fldGet XLT_INV_CTL_ASID v)
        (h.rdPair (XLT_INV_VA_LO r) (XLT_INV_VA_HI r)) ∧ h'.mem = h.mem)) ∧
      (8 ≤ x.inv.length → Gives (.xltInvGo w r v) s (fun h' => h'.rb (XLT_STAT r) XLT_STAT_INVREF = true ∧ h'.xlts = h.xlts ∧ h'.mem = h.mem))) ∧
    (∀ (i : Inval), h.clocked = true → x.inv = [i] → i.begun = true → i.bcast = false → i.home = r → i.awaits.any (accOut h) = false →
      (i.by_ = none → Gives (.invalidationDone r) s (fun h' => (h'.xlt r).inv = [] ∧ h'.rb (XLT_STAT r) XLT_STAT_INVDONE = true ∧ h'.mem = h.mem ∧ h'.chains = h.chains)) ∧
      (∀ f, i.by_ = some f → (h.frond f).xIST = 1 → Gives (.invalidationDone r) s (fun h' => (h'.xlt r).inv = [] ∧ (h'.frond f).xIST = 2 ∧ h'.mem = h.mem))) ∧
    (∀ f (v : W64), f / 2 = r → frondReady h f = true → stS (h.frond f).st = true → x.walks = [] →
      Gives (.xltPrb f v) s (fun h' => (h'.frond f).xPR = 0 ∧ h'.mem = h.mem ∧
        (h'.xlt r).walks.map (fun y => (y.who, y.va, y.asid, y.write)) = [(.probe f, (h.frond f).xPVA.toNat % 2 ^ 48, v.toNat % 4096, bit v.toNat 13)])) ∧
    (∀ f (y : Walk), h.clocked = true → f / 2 = r → x.walks = [y] → y.who = .probe f → y.phase = 5 →
      Gives (.probeDone f) s (fun h' => (h'.frond f).xPR = BitVec.ofNat 64 (2 ^ 63 + y.entry) ∧ (h'.xlt r).walks = [] ∧ h'.mem = h.mem)) ∧
    (∀ (w : Who) (v : W32), regGrant h w (XLT_TDIR_LO r) true = true → w.keeperSup = true →
      Gives (.xltDirWrite w (XLT_TDIR_LO r) v) s (fun h' => h' = h.wr (XLT_TDIR_LO r) (v &&& 0xFFFF8001)))

/-- Out of power-on reset, for a running channel c below 31 whose gate condition holds. A tick in which CMP = CNT and no wrap falls moves CNT on by 1, applies the output mode, makes every channel that selects this match capture its own CNT, and issues the match actions: the interrupt makes source 416 + c pending, a link operation is queued for the following tick, a conversion to a chain of an absent region sets TREF, a timestamp while one is outstanding sets MOVOVF and one for a region out of service sets MERR. A tick in which CNT = PER wraps: CNT becomes 0, CMP takes PRE, a periodic channel keeps running and a one-shot channel stops with its output low unless it toggles. -/
def Obligations.TimersMatchAndWrap : Prop :=
  ∀ (s : State) (c : Nat), s.hw.porN = true → c < 31 → s.hw.tmrRun c = true → tmrGate s.hw c = true →
    let h := s.hw
    let m := h.rf (TMR_ACT c) TMR_ACT_MACT
    let o := h.rf (TMR_ACT c) TMR_ACT_OACT
    let mode := h.rf (TMR_CTL c) TMR_CTL_OMODE
    let out := h.rb (TMR_STAT c) TMR_STAT_OUT
    let inner := fun (a : Nat) => bit a 1 = false ∧ bit a 2 = false
    let fired := fun (n : Nat) (h' : Hw) => grpClaimed h (n / 32) = false → srcBit h IRQ_PEND n = false → srcBit h IRQ_ACT n = false → srcBit h' IRQ_PEND n = true
    (h.rd (TMR_CMP c) = h.rd (TMR_CNT c) → h.rd (TMR_CNT c) ≠ h.rd (TMR_PER c) →
      let counted := fun (h' : Hw) => h'.rd (TMR_CNT c) = h.rd (TMR_CNT c) + 1 ∧ h'.rd (TMR_CMP c) = h.rd (TMR_CMP c) ∧ h'.tmrRun c = true ∧
        h'.rb (TMR_STAT c) TMR_STAT_OUT = (mode == 1 || (mode == 2 && !out) || mode == 3)
      (inner m → Gives (.timerMatch c) s (fun h' => counted h' ∧ h'.mem = h.mem ∧ (bit m 0 = true → fired (416 + c) h') ∧
        h'.tmrLink = h.tmrLink ++ (if bit m 3 then [(h.rf (TMR_ACT c) TMR_ACT_MLOP, h.rf (TMR_ACT c) TMR_ACT_MLCH)] else []) ∧
        ∀ d, d < 31 → h'.rd (TMR_CAP d) = if h.rf (TMR_CTL d) TMR_CTL_CAPSEL = 0x20 + c then h.rd (TMR_CNT d) else h.rd (TMR_CAP d))) ∧
      (bit m 1 = true → bit m 2 = false → h.hasChain (h.rf (TMR_ADR_HI c) TMR_ADR_HI_TGT) = false →
        Gives (.timerMatch c) s (fun h' => counted h' ∧ h'.rb (TMR_STAT c) TMR_STAT_TREF = true ∧ h'.chains = h.chains)) ∧
      (bit m 1 = false → bit m 2 = true → (h.tmr c).mover = true →
        Gives (.timerMatch c) s (fun h' => counted h' ∧ h'.rb (TMR_STAT c) TMR_STAT_MOVOVF = true ∧ h'.mreqs = h.mreqs)) ∧
      (bit m 1 = false → bit m 2 = true → (h.tmr c).mover = false → h.hasRegion (h.rf (TMR_ADR_HI c) TMR_ADR_HI_TGT % 8 / 2) = false →
        Gives (.timerMatch c) s (fun h' => counted h' ∧ h'.rb (TMR_STAT c) TMR_STAT_MERR = true ∧ h'.mreqs = h.mreqs))) ∧
    (h.rd (TMR_CNT c) = h.rd (TMR_PER c) → inner o → (h.rd (TMR_CMP c) = h.rd (TMR_CNT c) → inner m) →
      let wrapped := fun (h' : Hw) => h'.rd (TMR_CNT c) = 0 ∧ h'.rd (TMR_CMP c) = h.rd (TMR_PRE c) ∧ (bit o 0 = true → h.rd (TMR_CMP c) ≠ h.rd (TMR_CNT c) → fired (416 + c) h') ∧
        h'.mem = h.mem
      (h.rb (TMR_CTL c) TMR_CTL_OS = false → Gives (.timerWrap c) s (fun h' => wrapped h' ∧ h'.tmrRun c = true)) ∧
      (h.rb (TMR_CTL c) TMR_CTL_OS = true → Gives (.timerWrap c) s (fun h' => wrapped h' ∧ h'.tmrRun c = false ∧ (mode ≠ 2 → h'.rb (TMR_STAT c) TMR_STAT_OUT = false))))

/-- For a channel c below 31. Behind the grants of TMR_CMD, for its holder: START of a permitted configuration makes CNT 0, CMP PRE and RUN 1, of another sets CFGERR and changes nothing else; STOP clears RUN and keeps CNT; from another agent either sets CLAIM and changes nothing else. The first queued link operation acts on its channel whoever holds it, and channel 31 ignores it. A stagger write that satisfies its conditions sets up its channels in one tick; a refused one sets WREF. A tgate edge that a channel selects captures its CNT, no other one of it does, and levels without an edge change nothing; a read of TMR_CAP returns CAP and clears CAPF, and beside a capture returns the previous value. A mover response ends the mover write, and an error sets MERR. -/
def Obligations.TimersAreCommandedAndCaptured : Prop :=
  ∀ (s : State) (c : Nat), c < 31 →
    let h := s.hw
    let started := fun (d : Nat) (h' : Hw) => h'.rd (TMR_CNT d) = 0 ∧ h'.rd (TMR_CMP d) = h.rd (TMR_PRE d) ∧ h'.tmrRun d = true ∧ h'.mem = h.mem
    let stopped := fun (d : Nat) (h' : Hw) => h'.rd (TMR_CNT d) = h.rd (TMR_CNT d) ∧ h'.tmrRun d = false ∧
      h'.rb (TMR_STAT d) TMR_STAT_OUT = (h.rf (TMR_CTL d) TMR_CTL_OMODE == 2 && h.rb (TMR_STAT d) TMR_STAT_OUT) ∧ h'.mem = h.mem
    let captured := fun (d : Nat) (h' : Hw) => h'.rd (TMR_CAP d) = h.rd (TMR_CNT d) ∧ h'.rb (TMR_STAT d) TMR_STAT_CAPF = true ∧
      h'.rb (TMR_STAT d) TMR_STAT_CAPOVR = (h.rb (TMR_STAT d) TMR_STAT_CAPF || h.rb (TMR_STAT d) TMR_STAT_CAPOVR) ∧ h'.rd (TMR_CNT d) = h.rd (TMR_CNT d)
    (∀ (w : Who) (v : W32), regGrant h w (TMR_CMD c) true = true →
      (fldGet TMR_CMD_START v = 1 → fldGet TMR_CMD_STOP v = 0 → h.holds (TMR_CLAIM c) w = true →
        (tmrCfgErr h c = false → Gives (.timerStart w c v) s (started c)) ∧
        (tmrCfgErr h c = true → Gives (.timerStart w c v) s (fun h' => h' = h.sb (TMR_STAT c) TMR_STAT_CFGERR))) ∧
      (fldGet TMR_CMD_START v = 0 → fldGet TMR_CMD_STOP v = 1 → h.holds (TMR_CLAIM c) w = true → Gives (.timerStop w c v) s (stopped c)) ∧
      (h.holds (TMR_CLAIM c) w = false →
        (fldGet TMR_CMD_START v = 1 → Gives (.timerStart w c v) s (fun h' => h' = h.sb (TMR_STAT c) TMR_STAT_CLAIM)) ∧
        (fldGet TMR_CMD_STOP v = 1 → Gives (.timerStop w c v) s (fun h' => h' = h.sb (TMR_STAT c) TMR_STAT_CLAIM)))) ∧
    (h.porN = true → ∀ rest,
      (h.tmrLink = (0, c) :: rest → tmrCfgErr h c = false → Gives .timerLinkOperation s (fun h' => started c h' ∧ h'.tmrLink = rest)) ∧
      (h.tmrLink = (1, c) :: rest → Gives .timerLinkOperation s (fun h' => stopped c h' ∧ h'.tmrLink = rest)) ∧
      (h.tmrLink = (2, c) :: rest → Gives .timerLinkOperation s (fun h' => captured c h' ∧ h'.tmrLink = rest)) ∧
      (∀ op, h.tmrLink = (op, 31) :: rest → Gives .timerLinkOperation s (fun h' => h' = { h with tmrLink := rest }))) ∧
    (∀ (w : Who) (v : W32), regGrant h w TMR_STG true = true → fldGet TMR_STG_GO v = 1 →
      let f := fldGet TMR_STG_FIRST v
      let n := fldGet TMR_STG_N v
      let p := (h.rd STG_PER).toNat
      (2 ≤ n → f + n ≤ 31 → n ≤ p →
        (∀ k, k < n → h.holds (TMR_CLAIM (f + k)) w = true ∧ h.rf (TMR_CLAIM (f + k)) cFEAT = h.rf (TMR_CLAIM f) cFEAT ∧ h.tmrRun (f + k) = false ∧
          h.rf (TMR_CTL (f + k)) TMR_CTL_GSEL = 0) →
        Gives (.staggerGo w v) s (fun h' => (∀ k, k < n → (h'.rd (TMR_PER (f + k))).toNat = p - 1 ∧ h'.rd (TMR_CMP (f + k)) = h.rd (TMR_PRE (f + k)) ∧
          (h'.rd (TMR_CNT (f + k))).toNat = (p - k * p / n) % p ∧ h'.tmrRun (f + k) = true) ∧
          ∀ d, d < 31 → (d < f ∨ f + n ≤ d) → h'.rd (TMR_CNT d) = h.rd (TMR_CNT d) ∧ h'.rd (TMR_STAT d) = h.rd (TMR_STAT d))) ∧
      ((n < 2 ∨ 31 < f + n ∨ p < n) →
        Gives (.staggerGo w v) s (fun h' => h'.rb (TMR_STAT f) TMR_STAT_WREF = true ∧ ∀ d, d < 31 → h'.rd (TMR_CNT d) = h.rd (TMR_CNT d) ∧ h'.tmrRun d = h.tmrRun d))) ∧
    (h.porN = true → ∀ (levels k : Nat), k < 8 →
      (h.rf (TMR_CTL c) TMR_CTL_CAPSEL = 1 + k →
        (bit levels k = true → bit h.tgate k = false → Gives (.timerCapture c levels) s (fun h' => captured c h' ∧ h'.tgate = levels % 256)) ∧
        ((bit levels k = false ∨ bit h.tgate k = true) → Gives (.timerCapture c levels) s (fun h' => h'.rd (TMR_CAP c) = h.rd (TMR_CAP c) ∧
          h'.rd (TMR_STAT c) = h.rd (TMR_STAT c) ∧ h'.tgate = levels % 256)) ∧
        ((∀ i, i < 8 → bit levels i = bit h.tgate i) → Gives (.timerCapture c levels) s (fun h' => h' = { h with tgate := levels % 256 }))) ∧
      (h.rf (TMR_CTL c) TMR_CTL_CAPSEL = 9 + k → bit levels k = false → bit h.tgate k = true →
        Gives (.timerCapture c levels) s (fun h' => captured c h' ∧ h'.tgate = levels % 256))) ∧
    (∀ (w : Who), regGrant h w (TMR_CAP c) false = true →
      Gives (.tmrCapRead w c false) s (fun h' => h'.busRd = h.rd (TMR_CAP c) ∧ h'.rb (TMR_STAT c) TMR_STAT_CAPF = false ∧ h'.rd (TMR_CAP c) = h.rd (TMR_CAP c) ∧ h'.mem = h.mem) ∧
      Gives (.tmrCapRead w c true) s (fun h' => h'.busRd = h.rd (TMR_CAP c) ∧ captured c h' ∧ h'.mem = h.mem)) ∧
    (h.clocked = true → (h.tmr c).mover = true → ∀ err,
      Gives (.timerMoverResponse c err) s (fun h' => (h'.tmr c).mover = false ∧ h'.mreqs = h.mreqs ∧
        h'.rb (TMR_STAT c) TMR_STAT_MERR = (err || h.rb (TMR_STAT c) TMR_STAT_MERR)))

/-- A read of TB_LO returns the low word and takes the high word as the reading agent's snapshot, and no other agent's. TB_WRAP in a tick in which TB[47:0] has not wrapped, or with no frond tracing, changes nothing but the mark of the wrap. A service with the key, by an agent that may, of an enabled watchdog returns it to the start of stage one with a full WDT_T1, clears HALTL and leaves REQ; in window mode it also starts the window channel, where that is configured as permitted, and while that channel runs it is early: EARLY is set, source 447 fires and stage two begins. Any other write sets BADKEY and changes nothing else. With the count of the stage complete, an expiry of stage one fires source 447 and begins stage two; one of stage two sets REQ; in halt either is latched in HALTL, and the release acts on it. WIN is set for a channel held under feature 0x04 and otherwise refused with CLAIM. -/
def Obligations.TimebaseAndWatchdog : Prop :=
  ∀ (s : State),
    let h := s.hw
    let stage := h.rf WDT_STAT WDT_STAT_STAGE
    let fired := fun (n : Nat) (h' : Hw) => grpClaimed h (n / 32) = false → srcBit h IRQ_PEND n = false → srcBit h IRQ_ACT n = false → srcBit h' IRQ_PEND n = true
    let begins := fun (k : Nat) (h' : Hw) => h'.rf WDT_STAT WDT_STAT_STAGE = k ∧ h'.rd (TMR_CNT 31) = 0 ∧ h'.wdtLim = (h.rd (if k = 1 then WDT_T1 else WDT_T2)).toNat ∧
      h'.rb WDT_STAT WDT_STAT_REQ = h.rb WDT_STAT WDT_STAT_REQ
    let win := 28 + h.rf WDT_CTL WDT_CTL_WCH
    (∀ (w : Who), regGrant h w TB_LO false = true →
      Gives (.tbLoRead w) s (fun h' => h'.busRd = lo32 h.tb ∧ kvGet 0 h'.snaps (snapKey w) = hi32 h.tb ∧ ∀ k, k ≠ snapKey w → kvGet 0 h'.snaps k = kvGet 0 h.snaps k)) ∧
    (h.porN = true → h.dbg.wrap = false ∨ (∀ f, f < 2 * h.nRegions → h.rb (DBG_TCTL f) DBG_TCTL_EN = false) →
      Gives .tbWrap s (fun h' => h' = { h with dbg := { h.dbg with wrap := false } })) ∧
    (∀ (w : Who) (v : W32), regGrant h w WDT_SVC true = true →
      let may := (∃ f, w.agent = .frond f ∧ w.keeperFrond = true) ∨ w.agent = .loader ∨ (w.agent = .host ∧ w.hostPriv = true ∧ h.rb WDT_CTL WDT_CTL_HSVC = true)
      (v = 0xA55A → may → h.rb WDT_CTL WDT_CTL_EN = true →
        (h.rb WDT_CTL WDT_CTL_WIN = false → Gives (.wdtSvc w v) s (fun h' => begins 1 h' ∧ h'.rb WDT_STAT WDT_STAT_HALTL = false)) ∧
        (h.rb WDT_CTL WDT_CTL_WIN = true → win < 31 → h.tmrRun win = false → tmrCfgErr h win = false →
          Gives (.wdtSvc w v) s (fun h' => begins 1 h' ∧ h'.rb WDT_STAT WDT_STAT_HALTL = false ∧ h'.tmrRun win = true ∧ h'.rb (TMR_CTL win) TMR_CTL_OS = true ∧ h'.rd (TMR_CNT win) = 0)) ∧
        (h.rb WDT_CTL WDT_CTL_WIN = true → h.tmrRun win = true →
          Gives (.wdtSvc w v) s (fun h' => begins 2 h' ∧ h'.rb WDT_STAT WDT_STAT_EARLY = true ∧ fired 447 h'))) ∧
      ((v ≠ 0xA55A ∨ ¬ may) → Gives (.wdtSvc w v) s (fun h' => h' = h.sb WDT_STAT WDT_STAT_BADKEY))) ∧
    (h.porN = true → h.rb WDT_CTL WDT_CTL_EN = true → h.rb WDT_STAT WDT_STAT_HALTL = false → h.wdtLim ≤ (h.rd (TMR_CNT 31)).toNat →
      (wdtHalt h = false →
        (stage = 1 → Gives .watchdogStage1Expire s (fun h' => begins 2 h' ∧ h'.rb WDT_STAT WDT_STAT_S1 = true ∧ fired 447 h')) ∧
        (stage = 2 → Gives .watchdogStage2Expire s (fun h' => h'.rb WDT_STAT WDT_STAT_REQ = true ∧ h'.rf WDT_STAT WDT_STAT_STAGE = 3))) ∧
      (wdtHalt h = true →
        (stage = 1 → Gives .watchdogStage1Expire s (fun h' => h' = (h.sb WDT_STAT WDT_STAT_HALTL).wr (TMR_CNT 31) 0)) ∧
        (stage = 2 → Gives .watchdogStage2Expire s (fun h' => h' = (h.sb WDT_STAT WDT_STAT_HALTL).wr (TMR_CNT 31) 0)))) ∧
    (h.porN = true → h.rb WDT_STAT WDT_STAT_HALTL = true → wdtHalt h = false →
      (stage = 1 → Gives .watchdogHaltRelease s (fun h' => begins 2 h' ∧ h'.rb WDT_STAT WDT_STAT_HALTL = false ∧ fired 447 h')) ∧
      (stage = 2 → Gives .watchdogHaltRelease s (fun h' => h'.rb WDT_STAT WDT_STAT_REQ = true ∧ h'.rb WDT_STAT WDT_STAT_HALTL = false))) ∧
    (∀ (w : Who) (v : W32), regGrant h w WDT_CTL true = true → w.keeperSup = true → fldGet WDT_CTL_WIN v = 1 → h.rb WDT_CTL WDT_CTL_EN = true →
      let c := 28 + fldGet WDT_CTL_WCH v
      (c < 31 → h.rf (TMR_CLAIM c) cHELD = 1 → h.rf (TMR_CLAIM c) cFEAT = 4 →
        Gives (.wdtWinWrite w v) s (fun h' => h'.rb WDT_CTL WDT_CTL_WIN = true ∧ h'.rf WDT_CTL WDT_CTL_WCH = fldGet WDT_CTL_WCH v ∧ h'.rb WDT_CTL WDT_CTL_EN = true ∧
          h'.rb WDT_CTL WDT_CTL_HSVC = (fldGet WDT_CTL_HSVC v == 1) ∧ h'.mem = h.mem)) ∧
      (h.rf (TMR_CLAIM c) cHELD = 0 →
        Gives (.wdtWinWrite w v) s (fun h' => h'.rb WDT_CTL WDT_CTL_WIN = h.rb WDT_CTL WDT_CTL_WIN ∧ h'.rb WDT_STAT WDT_STAT_CLAIM = true ∧ h'.mem = h.mem)))

/-- For an existing region in run or idle with no recovery under way, each trigger takes it into QUIESCE with its CAUSE: RECOVER behind the grants of RGN_CMD by a keeper supervisor or the privileged host 4; with clocks a control parity error of no cache 1, a protocol error 2, both fronds in LOCKUP under LKREC 3, a trigger that waited its own. Then RCNT counts, RECOV is set, the region is in run, the locks of its fronds are gone, and each UP link enters QUIESCE with nothing to send. A parity error in a cache entry drops the entry and counts it. RECOVER in recovery, sleep or off sets RREF and changes nothing else; another trigger in recovery leaves the phase. -/
def Obligations.RecoveryStartsOnItsTriggers : Prop :=
  ∀ (s : State) (r : Nat), s.hw.hasRegion r = true →
    let h := s.hw
    let starts := fun (cause : Nat) (h' : Hw) => h'.rgnState r = rpQuiesce ∧ h'.rf (RGN_STAT r) RGN_STAT_CAUSE = cause ∧
      h'.rf (RGN_STAT r) RGN_STAT_RCNT = min 255 (h.rf (RGN_STAT r) RGN_STAT_RCNT + 1) ∧ h'.rb LCH_MAINT LCH_MAINT_RECOV = true ∧ h'.pwrState r = psRun ∧
      (∀ f, f / 2 = r → (h'.frond f).lockLine = none ∧ (h'.frond f).run = (h.frond f).run) ∧
      (∀ lk, lk / 32 = r → (h'.link lk).txq = [] ∧ (h'.link lk).ctlq = [] ∧ (h'.link lk).retry = (h.link lk).retry ∧
        h'.lkState lk = (if h.lkState lk = lsUp ∨ h.lkState lk = lsChange then lsQuiesce else h.lkState lk)) ∧ h'.mem = h.mem
    (h.inService r = true → h.rgnState r = rpRun →
      (∀ (w : Who) (v : W32), recGrant h w r = true → fldGet RGN_CMD_RECOVER v = 1 → (w.keeperSup = true ∨ w.hostPriv = true) →
        Gives (.recover w r v) s (starts 4)) ∧
      (h.clocked = true →
        (∀ unit addr, (unit < 0x100 ∨ 0x103 < unit) → Gives (.controlParityError r unit addr) s (starts 1)) ∧
        (∀ unit addr, Gives (.streamProtocolError r unit addr) s (starts 2)) ∧
        ((h.recSt r).want = 0 → (∀ f, f < 8 → f / 2 = r → (h.frond f).run = .lockup) → h.rb (RGN_CTL r) RGN_CTL_LKREC = true → Gives (.regionRecoveryStart r) s (starts 3)) ∧
        (0 < (h.recSt r).want → (h.recSt r).want < 16 → Gives (.regionRecoveryStart r) s (starts (h.recSt r).want)))) ∧
    (h.inService r = true → h.clocked = true → ∀ addr,
      let counts := fun (h' : Hw) => h'.rf (RGN_ECNT r) RGN_ECNT_CACHE = min 65535 (h.rf (RGN_ECNT r) RGN_ECNT_CACHE + 1) ∧ h'.rd (RGN_STAT r) = h.rd (RGN_STAT r) ∧ h'.mem = h.mem
      Gives (.controlParityError r 0x100 addr) s (fun h' => counts h' ∧ h'.xlt r = { h.xlt r with tc := kvDel (h.xlt r).tc addr }) ∧
      Gives (.controlParityError r 0x101 addr) s (fun h' => counts h' ∧ (h'.chain (8 * r + addr / 64 % 8)).ubuf = (h.chain (8 * r + addr / 64 % 8)).ubuf.eraseIdx (addr % 64)) ∧
      Gives (.controlParityError r 0x102 addr) s (fun h' => counts h' ∧ h'.xlt r = { h.xlt r with root := kvDel (h.xlt r).root addr }) ∧
      Gives (.controlParityError r 0x103 addr) s (fun h' => counts h' ∧ h'.xlt r = { h.xlt r with ptr := kvDel (h.xlt r).ptr addr })) ∧
    (∀ (w : Who) (v : W32), recGrant h w r = true → fldGet RGN_CMD_RECOVER v = 1 → (w.keeperSup = true ∨ w.hostPriv = true) →
      (h.rgnState r ≠ rpRun ∨ h.pwrState r = psSleep ∨ h.pwrState r = psOff) → Gives (.recover w r v) s (fun h' => h' = h.sb (RGN_STAT r) RGN_STAT_RREF)) ∧
    (h.clocked = true → h.inService r = true → h.rgnState r ≠ rpRun → ∀ unit addr,
      Gives (.streamProtocolError r unit addr) s (fun h' => h'.rgnState r = h.rgnState r ∧ h'.recs = h.recs ∧ h'.links = h.links ∧ h'.fronds = h.fronds ∧ h'.mem = h.mem))

/-- With clocks, for an existing region. A drained region in QUIESCE goes to DISCARD and records its drain time; with nothing to discard no record falls due, and the command a chain holds alone ends with status DISCARDED and leaves the chain. A region in DISCARD with every record written goes to RESET: its chains are empty, its fronds in the state of reset in their worlds, its links without posts and waiting frames. After the 100 ticks of RESET its end returns the region to RUN with REC set and its epoch moved on by 1 modulo 16, each quiesced link UP again, EPOCH the next frame of each link that is up, its fronds running from address 0, and RECOV clear when no other region recovers; after kn_fatal it ends in HALTED. A drain still not complete at a beat boundary DRAIN beats after its start ends in HALTED with DRAINF set and the awaited requests abandoned. Where a region halts and no other recovers RECOV clears too (DEDUCED, in the log). Host requests held for the region are assumed absent where it is released. -/
def Obligations.RecoveryRunsThroughItsPhases : Prop :=
  ∀ (s : State) (r : Nat), s.hw.clocked = true → s.hw.hasRegion r = true →
    let h := s.hw
    let drainTime := h.tb.toNat - (h.recSt r).since
    (h.rgnState r = rpQuiesce → regionDrained h r = true → kvGet [] h.svcQ r = [] → kvGet [] h.svcTaken r = [] → (∀ c, c ∈ h.ctxs → c.1 / 1024 = r → c.2.run = none) →
      ((∀ ch, ch < 32 → ch / 8 = r → (h.chain ch).act = [] ∧ (h.chain ch).pend = none) →
        Gives (.quiesceDrainDone r) s (fun h' => h'.rgnState r = rpDiscard ∧ h'.rd (RGN_DRAIN r) = BitVec.ofNat 32 drainTime ∧ h'.rf (RGN_DISC r) RGN_DISC_RECS = 0 ∧
          h'.mem = h.mem ∧ h'.fronds = h.fronds ∧ h'.queues = h.queues)) ∧
      (∀ ch e, ch / 8 = r → soleCmd h ch e = true → (∀ d, d < 32 → d / 8 = r → (h.chain d).pend = none) → e.ending = none → e.words ≠ [] →
        Gives (.quiesceDrainDone r) s (fun h' => h'.rgnState r = rpDiscard ∧ (h'.chain ch).act = [] ∧ h'.rf (CHN_STAT (ch / 8) (ch % 8)) CHN_STAT_LAST = 4))) ∧
    (h.rgnState r = rpDiscard → (∀ q, q ∈ h.queues → q.1 / 256 = r → q.2.writing = none ∧ q.2.joins = []) →
      (∀ q j, q ∈ h.queues → j ∈ q.2.joins → j.recd = none) → (∀ q, q ∈ h.mreqs → mRegionOf q ≠ r) →
      Gives (.discardDone r) s (fun h' => h'.rgnState r = rpReset ∧ (∀ ch, ch / 8 = r → (h'.chain ch).act = [] ∧ (h'.chain ch).pend = none) ∧
        (∀ f, f / 2 = r → (h'.frond f).run = .reset ∧ (h'.frond f).world = (h.frond f).world ∧ (h'.frond f).pstack = [] ∧ (h'.frond f).stores = []) ∧
        (∀ lk, lk / 32 = r → (h'.link lk).txq = [] ∧ (h'.link lk).posts = []) ∧ h'.mem = h.mem)) ∧
    ((kvGet PwrRgn.zero h.pwr r).held = [] → resetOver h r = true → (h.recSt r).fatal = false →
      let new := (h.epoch r + 1) % 16
      Gives (.rejoin r) s (fun h' => h'.rgnState r = rpRun ∧ h'.epoch r = new ∧ h'.rb (RGN_STAT r) RGN_STAT_REC = true ∧
        (∀ lk, lk / 32 = r → (h.link lk).want = none →
          h'.lkState lk = (if h.lkState lk = lsQuiesce then lsUp else h.lkState lk) ∧
          (h.lkUp lk = true → h'.rf (LK_STAT lk) LK_STAT_TXEP = new ∧ (h'.link lk).ctlq = epochFrame new (h.rf (LK_STAT lk) LK_STAT_TXEP) :: (h.link lk).ctlq) ∧
          (h.lkUp lk = false → h'.link lk = h.link lk ∧ h'.rd (LK_STAT lk) = h.rd (LK_STAT lk))) ∧
        (∀ f, f / 2 = r → frondsStarted h = true → h.rb (DBG_FCTL f) DBG_FCTL_RHALT = false → (h'.frond f).run = .run ∧ (h'.frond f).pc = 0) ∧
        ((∀ q, q < 4 → q ≠ r → inRecovery h q = false) → h'.rb LCH_MAINT LCH_MAINT_RECOV = false))) ∧
    ((kvGet PwrRgn.zero h.pwr r).held = [] → (∀ lk, lk < 128 → lk / 32 = r → h.lkState lk = lsDown) →
      (resetOver h r = true → (h.recSt r).fatal = true →
        Gives (.rejoin r) s (fun h' => h'.rgnState r = rpHalted ∧ bit (h'.rf MEU_STAT MEU_STAT_HALTED) r = true ∧ h'.epoch r = h.epoch r ∧ h'.fronds = h.fronds ∧ h'.mem = h.mem ∧
          ((∀ q, q < 4 → q ≠ r → inRecovery h q = false) → h'.rb LCH_MAINT LCH_MAINT_RECOV = false))) ∧
      (drainDue h r = true → regionDrained h r = false →
        Gives (.drainTimeout r) s (fun h' => h'.rgnState r = rpHalted ∧ h'.rb (RGN_STAT r) RGN_STAT_DRAINF = true ∧ h'.rb MEU_STAT MEU_STAT_DRAINF = true ∧
          bit (h'.rf MEU_STAT MEU_STAT_HALTED) r = true ∧ (∀ q, q ∈ h'.mreqs → mRegionOf q ≠ r) ∧ (∀ f, f / 2 = r → (h'.frond f).run = .reset) ∧ h'.mem = h.mem ∧
          ((∀ q, q < 4 → q ≠ r → inRecovery h q = false) → h'.rb LCH_MAINT LCH_MAINT_RECOV = false))))

/-- With clocks, when every keeper frond is locked and one of them is in LOCKUP, kn_fatal asserts; the tick after, every region in run or idle starts recovery with CAUSE FATAL, and one in recovery is marked to halt. A register-fabric parity error sets RFPERR and is logged; a host access on a running port is answered ERR, a read with zero, and a frond's access to that register is answered with LSU cause 2. A read of a log's information register returns the oldest entry, takes it from the log and leaves its address in the address register; with an empty log it returns 0. -/
def Obligations.FatalErrorsAndTheErrorLogs : Prop :=
  ∀ (s : State),
    let h := s.hw
    (h.clocked = true → h.rb SYS_LOCK SYS_LOCK_FATAL = false →
      let keepers := fun (f : Nat) => f < 2 * h.nRegions ∧ (h.frond f).world = .keeper
      ((∀ f, f < 8 → keepers f → countsLocked h f = true) → (∃ f, keepers f ∧ (h.frond f).run = .lockup) →
        Gives .knFatal s (fun h' => h'.rb SYS_LOCK SYS_LOCK_FATAL = true ∧ h'.fronds = h.fronds ∧ h'.recs = h.recs ∧ h'.mem = h.mem)) ∧
      ((∃ f, keepers f ∧ countsLocked h f = false) → Gives .knFatal s (fun h' => h' = h))) ∧
    (h.clocked = true → h.rb SYS_LOCK SYS_LOCK_FATAL = true → h.rb MEU_STAT MEU_STAT_FATAL = false →
      Gives .fatalRecovery s (fun h' => h'.rb MEU_STAT MEU_STAT_FATAL = true ∧ h'.mem = h.mem ∧ ∀ r, h.hasRegion r = true →
        (h.inService r = true → h.rgnState r = rpRun → h'.rgnState r = rpQuiesce ∧ h'.rf (RGN_STAT r) RGN_STAT_CAUSE = 5 ∧ (h'.recSt r).fatal = true) ∧
        (inRecovery h r = true → h'.rgnState r = h.rgnState r ∧ (h'.recSt r).fatal = true))) ∧
    (h.clocked = true → h.meuLogs.length < 16 → ∀ (w : Who) (a : Nat),
      let logged := fun (h' : Hw) => h'.rb MEU_STAT MEU_STAT_RFPERR = true ∧ (∃ e, h'.meuLogs = h.meuLogs ++ [(e, BitVec.ofNat 32 (a % 2 ^ 30))]) ∧ h'.mem = h.mem
      (w.agent = .host → h.hasPort w.port = true → hpRunning h w.port = true →
        Gives (.registerFabricParityError w true a) s (fun h' => logged h' ∧ h'.fronds = h.fronds ∧ h'.busRd = h.busRd ∧ ∃ t, kvFind h'.sresp w.port = some ⟨t, true, 1, [], []⟩) ∧
        Gives (.registerFabricParityError w false a) s (fun h' => logged h' ∧ h'.fronds = h.fronds ∧ h'.busRd = 0 ∧ ∃ t, kvFind h'.sresp w.port = some ⟨t, false, 1, [0, 0, 0, 0], []⟩)) ∧
      (∀ (f : Nat) (l : LsuLoad), w.agent = .frond f → (h.frond f).load = some l → l.pa = 2 ^ 52 + a → l.served = none →
        Gives (.registerFabricParityError w false a) s (fun h' => logged h' ∧ (h'.frond f).load = some { l with served := some (0, 2) })) ∧
      (∀ f, w.agent = .frond f → Gives (.registerFabricParityError w true a) s (fun h' => logged h' ∧
        (h'.frond f).stores = (h.frond f).stores.map (fun x => if x.pa = 2 ^ 52 + a ∧ x.served = none then { x with served := some 2 } else x)))) ∧
    (∀ (w : Who) (r : Nat), r < 4 → regGrant h w (RGN_LOG_INFO r) false = true →
      (∀ i a rest, kvGet [] h.rgnLogs r = (i, a) :: rest → Gives (.rgnLogPop w r) s (fun h' => h'.busRd = i ∧ h'.rd (RGN_LOG_ADDR r) = a ∧ kvGet [] h'.rgnLogs r = rest ∧ h'.mem = h.mem)) ∧
      (kvGet [] h.rgnLogs r = [] → Gives (.rgnLogPop w r) s (fun h' => h' = { h with busRd := 0 }))) ∧
    (∀ (w : Who), regGrant h w MEU_LOG_INFO false = true →
      (∀ i a rest, h.meuLogs = (i, a) :: rest → Gives (.meuLogPop w) s (fun h' => h'.busRd = i ∧ h'.rd MEU_LOG_ADDR = a ∧ h'.meuLogs = rest ∧ h'.mem = h.mem)) ∧
      (h.meuLogs = [] → Gives (.meuLogPop w) s (fun h' => h' = { h with busRd := 0 })))

/-- Behind the grants of LCH_CMD: PROPOSE by a keeper supervisor frond in IDLE enters HASH with its item, PSEQ moved on and a salt from the random source, in another state it sets PREF alone; WITHDRAW in HASH or PENDING ends the proposal WITHDRAWN; another agent sets PREF alone. Out of power-on reset, 200 ticks after PROPOSE, the hash's end shows the digest and the salt and arms the window in PENDING. A host confirmation of the displayed digest with a key enters VERIFY, a debugger one of an item other than 7 APPLY; each failure is counted with its agent and code. The signature check ends in APPLY, or fails with code 5 back in PENDING, or EXPIRED when the window passed; at a beat boundary 8 beats after PENDING was entered the window ends a pending proposal EXPIRED. -/
def Obligations.ProposalsAreMadeAndConfirmed : Prop :=
  ∀ (s : State),
    let h := s.hw
    let ends := fun (last : Nat) (h' : Hw) => h'.lcState = lcIdle ∧ h'.rf LCH_STAT LCH_STAT_LAST = last ∧ h'.rb LCH_STAT LCH_STAT_DONE = true ∧ h'.mem = h.mem
    let fails := fun (agent code : Nat) (h' : Hw) => h'.rf LCH_CFAIL LCH_CFAIL_AGENT = agent ∧ h'.rf LCH_CFAIL LCH_CFAIL_CODE = code ∧
      h'.rf LCH_CNT LCH_CNT_CFAILS = min 65535 (h.rf LCH_CNT LCH_CNT_CFAILS + 1) ∧ h'.rb LCH_STAT LCH_STAT_CFAIL = true ∧ h'.mem = h.mem
    let stays := fun (h' : Hw) => h'.lcState = h.lcState
    (∀ (w : Who) (v : W32), regGrant h w LCH_CMD true = true →
      (w.keeperFrond = true → fldGet LCH_CMD_PROPOSE v = 1 → fldGet LCH_CMD_WITHDRAW v = 0 →
        (h.lcState = lcIdle → Gives (.propose w v) s (fun h' => h'.lcState = lcHash ∧ h'.rd LCH_PSEQ = h.rd LCH_PSEQ + 1 ∧
          h'.rf LCH_STAT LCH_STAT_ITEM = h.rf LCH_PITEM LCH_PITEM_ITEM ∧ h'.free = h.free + 2 ∧
          h'.lchSalt = leBytes 8 (Config.freeValue h.free).toNat ++ leBytes 8 (Config.freeValue (h.free + 1)).toNat ∧ h'.mem = h.mem)) ∧
        (h.lcState ≠ lcIdle → Gives (.propose w v) s (fun h' => h' = h.sb LCH_STAT LCH_STAT_PREF))) ∧
      (w.keeperFrond = true → fldGet LCH_CMD_PROPOSE v = 0 → fldGet LCH_CMD_WITHDRAW v = 1 →
        ((h.lcState = lcHash ∨ h.lcState = lcPending) → Gives (.withdraw w v) s (ends 3)) ∧
        (h.lcState ≠ lcHash → h.lcState ≠ lcPending → Gives (.withdraw w v) s (fun h' => h' = h))) ∧
      (w.keeperFrond = false →
        (fldGet LCH_CMD_PROPOSE v = 1 → Gives (.propose w v) s (fun h' => h' = h.sb LCH_STAT LCH_STAT_PREF)) ∧
        (fldGet LCH_CMD_WITHDRAW v = 1 → Gives (.withdraw w v) s (fun h' => h' = h.sb LCH_STAT LCH_STAT_PREF)))) ∧
    (h.porN = true →
      (lchHashDue h = true →
        let d := padTo 48 (Config.sha384 (lchRecord h))
        Gives .lichenHashDone s (fun h' => h'.lcState = lcPending ∧ h'.lchArm = h.tb.toNat ∧ h'.lchExp = false ∧
          (∀ k, k < 12 → h'.rd (LCH_DIG k) = BitVec.ofNat 32 (beNat ((d.drop (4 * k)).take 4))) ∧
          (∀ k, k < 4 → h'.rd (LCH_SALT k) = BitVec.ofNat 32 (leNat ((h.lchSalt.drop (4 * k)).take 4))) ∧ h'.mem = h.mem)) ∧
      (h.lcState = lcVerify →
        Gives .lichenVerifyDone s (fun h' => if Config.ecdsaVerify (h.lchKey.getD []) (wordsBe h LCH_DIG 12) (wordsBe h LCH_HSIG 24) then h' = h.wf LCH_STAT LCH_STAT_STATE lcApply
          else fails 8 5 h' ∧ (if h.lchExp then ends 2 h' else h'.lcState = lcPending)) ∧
        (lchWindowDue h = true → Gives .lichenWindowExpire s (fun h' => h' = { h with lchExp := true }))) ∧
      (h.lcState = lcPending → lchWindowDue h = true → Gives .lichenWindowExpire s (ends 2))) ∧
    (∀ (w : Who) (v : W32), regGrant h w LCH_HGO true = true → w.hostPriv = true → fldGet LCH_HGO_GO v = 1 →
      let same := ∀ k, k < 12 → h.rd (LCH_HDIG k) = h.rd (LCH_DIG k)
      (h.lcState ≠ lcPending → Gives (.lchHgo w v) s (fun h' => fails 8 1 h' ∧ stays h')) ∧
      (h.lcState = lcPending → ¬ same → Gives (.lchHgo w v) s (fun h' => fails 8 2 h' ∧ stays h')) ∧
      (h.lcState = lcPending → same → h.lchKey = none → Gives (.lchHgo w v) s (fun h' => fails 8 4 h' ∧ stays h')) ∧
      (h.lcState = lcPending → same → h.lchKey ≠ none → Gives (.lchHgo w v) s (fun h' => h' = h.wf LCH_STAT LCH_STAT_STATE lcVerify))) ∧
    (∀ (w : Who) (v : W32), regGrant h w LCH_DGO true = true → w.agent = .debugger → w.world = .keeper → fldGet LCH_DGO_GO v = 1 →
      let same := ∀ k, k < 12 → h.rd (LCH_DDIG k) = h.rd (LCH_DIG k)
      let item := h.rf LCH_PITEM LCH_PITEM_ITEM
      (h.lcState ≠ lcPending → Gives (.lchDgo w v) s (fun h' => fails 9 1 h' ∧ stays h')) ∧
      (h.lcState = lcPending → ¬ same → Gives (.lchDgo w v) s (fun h' => fails 9 2 h' ∧ stays h')) ∧
      (h.lcState = lcPending → same → item = 7 → Gives (.lchDgo w v) s (fun h' => fails 9 3 h' ∧ stays h')) ∧
      (h.lcState = lcPending → same → item ≠ 7 → Gives (.lchDgo w v) s (fun h' => h' = h.wf LCH_STAT LCH_STAT_STATE lcApply)))

/-- Out of power-on reset, in APPLY. A value that R402 refuses ends the proposal REFUSED with nothing written but, for a configuration of item 5 that a link of the macro cannot take, INITF. Any other ends it APPLIED, counts it, and gives the item its value: the eight windows of a master; the world of a frond; the keeper translation root; the region windows of the masters of a cushion grant, with BASE and LIMIT from the cushion window or zero to revoke; LK_CFG of a link; CONSENT; the debug key; the patch enables of one region or of all. -/
def Obligations.ConfirmedItemsAreApplied : Prop :=
  ∀ (s : State), s.hw.porN = true → s.hw.lcState = lcApply →
    let h := s.hw
    let item := h.rf LCH_PITEM LCH_PITEM_ITEM
    let idx := h.rf LCH_PITEM LCH_PITEM_INDEX
    let v := fun (k : Nat) => h.rd (LCH_PVAL k)
    let r := bits idx 13 12
    let ends := fun (last : Nat) (h' : Hw) => h'.lcState = lcIdle ∧ h'.rf LCH_STAT LCH_STAT_LAST = last ∧ h'.rb LCH_STAT LCH_STAT_DONE = true
    let applies := fun (P : Hw → Prop) => Gives .lichenApply s (fun h' => ends 1 h' ∧ h'.rf LCH_CNT LCH_CNT_APPLIED = min 65535 (h.rf LCH_CNT LCH_CNT_APPLIED + 1) ∧ P h')
    (lchRefused h item idx (lchVals h) = true →
      Gives .lichenApply s (fun h' => ends 4 h' ∧ h'.rd LCH_CNT = h.rd LCH_CNT ∧ h'.mem = h.mem ∧ h'.fronds = h.fronds ∧ h'.dbg = h.dbg ∧
        (item = 5 → h.hasLane idx = true → linkCfgOk h idx (v 0) = false → h'.rb (LK_STAT idx) LK_STAT_INITF = true))) ∧
    ((item = 0 ∨ 8 < item) → Gives .lichenApply s (fun h' => ends 4 h' ∧ h'.mem = h.mem ∧ h'.fronds = h.fronds)) ∧
    (lchRefused h item idx (lchVals h) = false →
      (item = 1 → applies (fun h' => ∀ n, n < 8 → h'.rd (RWIN_LO r (idx % 16) n) = v (2 * n) ∧ h'.rd (RWIN_HI r (idx % 16) n) = v (2 * n + 1))) ∧
      (item = 2 → applies (fun h' => (h'.frond idx).world = (if v 0 = 1 then World.tenant else World.keeper) ∧ (h'.frond idx).pstack = [] ∧ (h'.frond idx).g = [] ∧
        ∀ f, f ≠ idx → (h'.frond f).world = (h.frond f).world)) ∧
      (item = 3 → applies (fun h' => h'.rd (XLT_KDIR_LO r) = v 0 ∧ h'.rd (XLT_KDIR_HI r) = v 1 ∧ h'.mem = h.mem)) ∧
      (item = 4 →
        let win := CSH_WIN r (idx % 16)
        applies (fun h' => ∀ m, m < 15 →
          let n := bits (v 0).toNat 18 16
          if bit (v 0).toNat m then
            (if bit (v 1).toNat 31 then h'.rf (RWIN_LO r m n) RWIN_LO_BASE = 0x10000 + 256 * r + h.rf win CSH_WIN_FIRST ∧
              h'.rf (RWIN_HI r m n) RWIN_HI_LIMIT = 0x10000 + 256 * r + h.rf win CSH_WIN_LAST ∧ h'.rb (RWIN_LO r m n) RWIN_LO_EN = true ∧
              h'.rb (RWIN_LO r m n) RWIN_LO_RD = bit (v 1).toNat 30 ∧ h'.rb (RWIN_LO r m n) RWIN_LO_WR = bit (v 1).toNat 29
             else h'.rd (RWIN_LO r m n) = 0 ∧ h'.rd (RWIN_HI r m n) = 0)
          else h'.rd (RWIN_LO r m n) = h.rd (RWIN_LO r m n) ∧ h'.rd (RWIN_HI r m n) = h.rd (RWIN_HI r m n))) ∧
      (item = 5 → h.lkState idx = lsDown → applies (fun h' => h'.rd (LK_CFG idx) = v 0 ∧ h'.lkState idx = lsDown ∧ h'.mem = h.mem)) ∧
      (item = 6 → applies (fun h' => h'.rb LCH_MAINT LCH_MAINT_CONSENT = bit (v 0).toNat 0 ∧ h'.mem = h.mem ∧ h'.fronds = h.fronds)) ∧
      (item = 7 → applies (fun h' => h'.dbg.key = some ((List.range 12).flatMap (fun k => beBytes 4 (v k).toNat)) ∧ h'.rb DBG_STAT DBG_STAT_KEYV = true ∧
        h'.rf DBG_STAT DBG_STAT_SESS = 0)) ∧
      (item = 8 → applies (fun h' => ∀ q n, n < 64 → h.hasRegion q = true → (bits idx 15 12 = 15 ∨ q = r) →
        h'.rb (CS_MATCH q n) CS_MATCH_V = bit (v (n / 32)).toNat (n % 32))))

/-- Out of power-on reset on a line that is not ignored. NOP answers DBG_STAT. With no session an open register answers its value and any other address AUTH, reads and writes alike, and nothing else changes. With a session that the region admits, RD and WR of permitted memory answer and store its bytes, and those of a frond's scratchpad; with a frond of the region running the answer is STATE; a tenant session that names a keeper frond is answered PROT. PRD of a port a halted frond admits answers the chosen half without an effect; PWR changes that half alone and keeps the other; a refused one answers its code. A CRC failure sets CRCERR, answers nothing and ignores the line until a line reset. -/
def Obligations.DebugFramesAreAnswered : Prop :=
  ∀ (s : State), s.hw.porN = true →
    let h := s.hw
    let answers := fun (ack : Nat) (peek : Bool) (data : W32) (h' : Hw) => h'.dbg.rsp = some ⟨ack, peek, data⟩ ∧ h'.dbg.last = h.tb.toNat
    let only := fun (h' : Hw) => h' = { h with dbg := h'.dbg }
    Gives .debugLineReset s (fun h' => h'.dbg.ignore = false ∧ only h') ∧
    (h.dbg.ignore = false →
      Gives .debugNop s (fun h' => answers ackOK false (h.rd DBG_STAT) h' ∧ only h') ∧
      Gives .debugCrcFail s (fun h' => h'.dbg.ignore = true ∧ h'.dbg.rsp = none ∧ h'.rb DBG_STAT DBG_STAT_CRCERR = true ∧ h'.mem = h.mem ∧ h'.fronds = h.fronds) ∧
      (sessLevel h = 0 → ∀ frn a v x,
        (openReg a = true → Gives (.debugRd frn false a x) s (fun h' => answers ackOK (readActs h a) (regPeek h (dbgWho h) a) h' ∧ only h')) ∧
        (openReg a = false → Gives (.debugRd frn false a x) s (fun h' => answers ackAUTH false 0 h' ∧ only h') ∧
          Gives (.debugWr frn a v x) s (fun h' => answers ackAUTH false 0 h' ∧ only h'))) ∧
      (sessLevel h ≠ 0 → ∀ frn a v, a % 4 = 0 →
        (h.inMem a = true → regionAck h (memRegion a) frn = ackOK → lineWaits h (.debugger frn) a = false → isMarked h a = false →
          (protCause h (.debugger frn) a 4 false = none →
            Gives (.debugRd frn false a ⟨.good, []⟩) s (fun h' => answers ackOK false (BitVec.ofNat 32 (leNat (h.bytesAt a 4))) h' ∧
              h' = { h.idleLeave (memRegion a) with dbg := h'.dbg })) ∧
          (protCause h (.debugger frn) a 4 true = none →
            Gives (.debugWr frn a v ⟨.good, []⟩) s (fun h' => answers ackOK false 0 h' ∧ h'.fronds = h.fronds ∧
              ∀ b, h'.byteAt b = if a ≤ b ∧ b < a + 4 then (leBytes 4 v.toNat).getD (b - a) 0 else h.byteAt b))) ∧
        (h.inMem a = true → (h.frond frn).run = .run → frn / 2 = memRegion a → (sessLevel h = 1 ∨ (h.frond frn).world = .tenant) →
          Gives (.debugWr frn a v ⟨.good, []⟩) s (fun h' => answers ackSTATE false 0 h' ∧ only h')) ∧
        (h.inMem a = true → sessLevel h = 2 → (h.frond frn).world = .keeper →
          Gives (.debugRd frn false a ⟨.good, []⟩) s (fun h' => answers ackPROT false 0 h' ∧ only h') ∧
          Gives (.debugWr frn a v ⟨.good, []⟩) s (fun h' => answers ackPROT false 0 h' ∧ only h')) ∧
        (h.inMem a = false → 0x30000000 ≤ a → a < 0x30010000 → regionAck h (frn / 2) frn = ackOK →
          Gives (.debugRd frn false a ⟨.good, []⟩) s (fun h' => answers ackOK false (BitVec.ofNat 32 (leNat (memGets h.scratch (frn * 65536 + a % 65536) 4))) h' ∧ only h') ∧
          Gives (.debugWr frn a v ⟨.good, []⟩) s (fun h' => answers ackOK false 0 h' ∧ h'.mem = h.mem ∧
            ∀ b, memGet h'.scratch b = if frn * 65536 + a % 65536 ≤ b ∧ b < frn * 65536 + a % 65536 + 4
              then (leBytes 4 v.toNat).getD (b - (frn * 65536 + a % 65536)) 0 else memGet h.scratch b))) ∧
      (∀ frn hi port v,
        (portAck h frn port false = ackOK → port ≠ 0x38A →
          Gives (.debugPrd frn false hi port) s (fun h' => answers ackOK (portActs port) (if hi then hi32 (portRead h frn port) else lo32 (portRead h frn port)) h' ∧ only h')) ∧
        (portAck h frn port false ≠ ackOK → Gives (.debugPrd frn false hi port) s (fun h' => answers (portAck h frn port false) false 0 h' ∧ only h')) ∧
        (portAck h frn port true ≠ ackOK → Gives (.debugPwr frn hi port v) s (fun h' => answers (portAck h frn port true) false 0 h' ∧ only h')) ∧
        (∀ k, k < 64 → port = 0x40 + k → portAck h frn port true = ackOK →
          Gives (.debugPwr frn hi port v) s (fun h' => answers ackOK false 0 h' ∧
            (if hi then hi32 (portRead h' frn port) = v ∧ lo32 (portRead h' frn port) = lo32 (portRead h frn port)
             else lo32 (portRead h' frn port) = v ∧ hi32 (portRead h' frn port) = hi32 (portRead h frn port)) ∧
            h'.mem = h.mem ∧ ∀ f, f ≠ frn → h'.frond f = h.frond f))))

/-- Out of power-on reset. CHAL, unless held off or under verification, shows a fresh nonce and leaves a challenge outstanding; held off it changes the LEVEL it writes and nothing else. GO takes LEVEL and begins verification, noting whether a challenge was outstanding. The end of verification opens the session at that level when the checks hold, and otherwise sets AFAIL and AHOLD, holds CHAL off and opens nothing. CLOSE, and the idle limit when it is enabled and over at a beat boundary, end an open session: SESS clears, fronds in debug halt run on at their halted address, their RHALT clears; SEND is set for the idle limit alone. Where the limit is not over nothing changes. -/
def Obligations.DebugSessionsOpenAndClose : Prop :=
  ∀ (s : State), s.hw.porN = true →
    let h := s.hw
    let nonce := fun (k : Nat) => Config.freeValue (h.free + k / 2)
    let closes := fun (h' : Hw) => h'.rf DBG_STAT DBG_STAT_SESS = 0 ∧ h'.mem = h.mem ∧ ∀ f, h.hasFrond f = true → h'.rb (DBG_FCTL f) DBG_FCTL_RHALT = false ∧
      (h'.frond f).haltReq = false ∧ (if (h.frond f).run = .debugHalt then (h'.frond f).run = .run ∧ (h'.frond f).pc = (h.frond f).dfpc
        else (h'.frond f).run = (h.frond f).run ∧ (h'.frond f).pc = (h.frond f).pc)
    (∀ (v : W32), fldGet DBG_AUTH_CHAL v = 1 → fldGet DBG_AUTH_GO v = 0 → fldGet DBG_AUTH_CLOSE v = 0 →
      (h.dbg.hold = none → h.rf DBG_STAT DBG_STAT_AST ≠ 2 →
        Gives (.chal v) s (fun h' => h'.rf DBG_STAT DBG_STAT_AST = 1 ∧ h'.free = h.free + 4 ∧ (∀ k, k < 8 → h'.rd (DBG_NONCE k) = if k % 2 = 1 then hi32 (nonce k) else lo32 (nonce k)) ∧
          h'.dbg = h.dbg ∧ h'.mem = h.mem)) ∧
      ((h.dbg.hold ≠ none ∨ h.rf DBG_STAT DBG_STAT_AST = 2) → Gives (.chal v) s (fun h' => h' = h.wf DBG_AUTH DBG_AUTH_LEVEL (fldGet DBG_AUTH_LEVEL v)))) ∧
    (∀ (v : W32), fldGet DBG_AUTH_CHAL v = 0 → fldGet DBG_AUTH_GO v = 1 → fldGet DBG_AUTH_CLOSE v = 0 → h.rf DBG_STAT DBG_STAT_AST ≠ 2 →
      Gives (.go v) s (fun h' => h'.rf DBG_STAT DBG_STAT_AST = 2 ∧ h'.dbg.goLevel = fldGet DBG_AUTH_LEVEL v ∧ h'.dbg.goOk = (h.rf DBG_STAT DBG_STAT_AST == 1) ∧
        h'.rf DBG_STAT DBG_STAT_SESS = h.rf DBG_STAT DBG_STAT_SESS ∧ h'.mem = h.mem)) ∧
    (h.rf DBG_STAT DBG_STAT_AST = 2 →
      Gives .debugVerifyDone s (fun h' => h'.rf DBG_STAT DBG_STAT_AST = 0 ∧ h'.mem = h.mem ∧ h'.fronds = h.fronds ∧
        if dbgVerified h then h'.rf DBG_STAT DBG_STAT_SESS = h.dbg.goLevel ∧ h'.dbg = { h.dbg with last := h.tb.toNat }
        else h'.rb DBG_STAT DBG_STAT_AFAIL = true ∧ h'.rb DBG_STAT DBG_STAT_AHOLD = true ∧ h'.rf DBG_STAT DBG_STAT_SESS = h.rf DBG_STAT DBG_STAT_SESS ∧ h'.dbg = { h.dbg with hold := some h.tb.toNat })) ∧
    (h.rf DBG_STAT DBG_STAT_SESS ≠ 0 →
      (∀ (v : W32), fldGet DBG_AUTH_CHAL v = 0 → fldGet DBG_AUTH_GO v = 0 → fldGet DBG_AUTH_CLOSE v = 1 →
        Gives (.close v) s (fun h' => closes h' ∧ h'.rb DBG_STAT DBG_STAT_SEND = h.rb DBG_STAT DBG_STAT_SEND)) ∧
      (idleLimitOver h = true → Gives .debugIdleTimeout s (fun h' => closes h' ∧ h'.rb DBG_STAT DBG_STAT_SEND = true))) ∧
    (idleLimitOver h = false → Gives .debugIdleTimeout s (fun h' => h' = h))

/-- Out of power-on reset, for an existing frond and an open session that may control it: a halt request of a running frond is noted, and one of a frond in WAIT at a permitted boundary halts it at once; a session that may not sets REFUSE and changes nothing else. A frond whose halt is due enters debug halt with its next address in DBG_FPC, and a step that ended sets SDONE. RESUME and STEP of a frond in debug halt or HALT let it run on at DBG_FPC, STEP for one word; in LOCKUP they set REFUSE and leave the frond. -/
def Obligations.FrondsHaltStepAndResume : Prop :=
  ∀ (s : State) (f : Nat), s.hw.porN = true → s.hw.hasFrond f = true →
    let h := s.hw
    let x := h.frond f
    let halts := fun (h' : Hw) => (h'.frond f).run = .debugHalt ∧ (h'.frond f).dfpc = x.pc ∧ (h'.frond f).dfrpi = x.rep.isSome ∧ (h'.frond f).haltReq = false ∧
      (h'.frond f).stepReq = false ∧ (h'.frond f).g = x.g ∧ (∀ e, e ≠ f → h'.frond e = h.frond e) ∧ h'.mem = h.mem
    let goes := fun (step : Bool) (h' : Hw) => h'.frond f = { x with run := .run, pc := x.dfpc, haltReq := false, stepReq := step } ∧ (∀ e, e ≠ f → h'.frond e = h.frond e) ∧ h'.mem = h.mem
    (∀ (v : W32), sessMay h f = true →
      let one := fun (a b c : Nat) => fldGet DBG_FCTL_HALT v = a ∧ fldGet DBG_FCTL_RESUME v = b ∧ fldGet DBG_FCTL_STEP v = c
      (one 1 0 0 → x.run = .run → Gives (.debugHaltReq f v) s (fun h' => h'.frond f = { x with haltReq := true } ∧ h'.mem = h.mem)) ∧
      (one 1 0 0 → x.run = .wait → haltBoundary x = true → Gives (.debugHaltReq f v) s halts) ∧
      ((x.run = .debugHalt ∨ x.run = .halt) → (one 0 1 0 → Gives (.debugResume f v) s (goes false)) ∧ (one 0 0 1 → Gives (.debugStep f v) s (goes true))) ∧
      (x.run = .lockup → (one 0 1 0 → Gives (.debugResume f v) s (fun h' => h'.rb (DBG_FSTAT f) DBG_FSTAT_REFUSE = true ∧ h'.fronds = h.fronds)) ∧
        (one 0 0 1 → Gives (.debugStep f v) s (fun h' => h'.rb (DBG_FSTAT f) DBG_FSTAT_REFUSE = true ∧ h'.fronds = h.fronds)))) ∧
    (∀ (v : W32), h.rf DBG_STAT DBG_STAT_SESS ≠ 0 → sessMay h f = false → fldGet DBG_FCTL_HALT v = 1 →
      Gives (.debugHaltReq f v) s (fun h' => h' = h.sb (DBG_FSTAT f) DBG_FSTAT_REFUSE)) ∧
    (haltDue x = true → Gives (.debugHaltTaken f) s (fun h' => halts h' ∧ (x.stepReq = true → h'.rb (DBG_FSTAT f) DBG_FSTAT_SDONE = true))) ∧
    (haltDue x = false → Gives (.debugHaltTaken f) s (fun h' => h' = h))

/-- A carry of TB queues a SYNC packet for a tracing frond with room. A pop of the debug FIFO shows the oldest packet, or zero, in DBG_TPKT0 to 3 and takes it, while no frond has a packet for the FIFO. Enabling a sink by its holder with a legal ring sets ACT and starts at slot 0, an illegal ring sets CFGERR alone, disabling clears ACT, and another agent sets CLAIM alone. With clocks a disabled sink writes nothing; an enabled one of a region in service, with one packet waiting in ring mode on a local ring, writes its 16 bytes at its slot and advances, and on a failed write stops with ERR. -/
def Obligations.TracePacketsReachTheirSink : Prop :=
  ∀ (s : State),
    let h := s.hw
    (∀ f, h.porN = true → h.dbg.wrap = true → h.hasFrond f = true → h.rb (DBG_TCTL f) DBG_TCTL_EN = true → traceToFifo h f = false → (h.tq f).pkts.length < 16 →
      Gives .tbWrap s (fun h' => (h'.tq f).pkts = (h.tq f).pkts ++ [⟨h.tb, pktWord1 h 3 f 0⟩] ∧ h'.dbg.wrap = false ∧ h'.mem = h.mem ∧ h'.fronds = h.fronds)) ∧
    (∀ w, regGrant h w (DBG_TPKT 0) false = true → (∀ f, f < 8 → h.hasFrond f = true → traceToFifo h f = false ∨ (h.tq f).pkts = []) →
      let shows := fun (a b : W64) (h' : Hw) => h'.rd (DBG_TPKT 0) = lo32 a ∧ h'.rd (DBG_TPKT 1) = hi32 a ∧ h'.rd (DBG_TPKT 2) = lo32 b ∧ h'.rd (DBG_TPKT 3) = hi32 b ∧ h'.busRd = lo32 a
      (∀ p rest, h.dbg.fifo = p :: rest → Gives (.dbgTpktPop w) s (fun h' => shows p.w0 p.w1 h' ∧ h'.dbg.fifo = rest ∧ h'.trace = h.trace ∧ h'.mem = h.mem)) ∧
      (h.dbg.fifo = [] → Gives (.dbgTpktPop w) s (fun h' => shows 0 0 h' ∧ h'.dbg.fifo = [] ∧ h'.trace = h.trace ∧ h'.mem = h.mem))) ∧
    (∀ w r v, regGrant h w (TS_CTL r) true = true → h.hasRegion r = true →
      let size := fldGet TS_CTL_SIZE v
      let legal := 8 ≤ size ∧ size ≤ 20 ∧ ringOk h r (tsBase h r) (2 ^ size * 16) = true
      (h.holds (TS_CLAIM r) w = true →
        (fldGet TS_CTL_EN v = 1 → legal → h.rb (TS_CTL r) TS_CTL_EN = false →
          Gives (.tsEnable w r v) s (fun h' => h'.rd (TS_CTL r) = v &&& 0xC000001F ∧ h'.rd (TS_WR r) = 0 ∧ h'.rb (TS_STAT r) TS_STAT_ACT = true ∧ h'.mem = h.mem)) ∧
        (fldGet TS_CTL_EN v = 1 → ¬ legal → Gives (.tsEnable w r v) s (fun h' => h' = h.sb (TS_STAT r) TS_STAT_CFGERR)) ∧
        (fldGet TS_CTL_EN v = 0 → Gives (.tsEnable w r v) s (fun h' => h'.rb (TS_CTL r) TS_CTL_EN = false ∧ h'.rb (TS_STAT r) TS_STAT_ACT = false ∧ h'.mem = h.mem))) ∧
      (h.holds (TS_CLAIM r) w = false → Gives (.tsEnable w r v) s (fun h' => h' = h.sb (TS_STAT r) TS_STAT_CLAIM))) ∧
    (∀ r, h.clocked = true → h.hasRegion r = true →
      (∀ x, h.rb (TS_CTL r) TS_CTL_EN = false → Gives (.traceSinkWrite r x) s (fun h' => h' = h)) ∧
      (∀ f g p off, (f = 2 * r ∧ g = 2 * r + 1 ∨ f = 2 * r + 1 ∧ g = 2 * r) → h.inService r = true → h.rgnState r = rpRun → h.rb (TS_CTL r) TS_CTL_EN = true →
        h.rb (TS_STAT r) TS_STAT_ACT = true → h.tq f = ⟨[p], 0⟩ → traceToFifo h f = false → (h.tq g).pkts = [] →
        ((h.frond f).world = .tenant ∨ h.rf (TS_CLAIM r) cWORLD = 0) →
        let slot := (h.rd (TS_WR r)).toNat % 2 ^ h.rf (TS_CTL r) TS_CTL_SIZE
        paLocal (tsBase h r + 16 * slot) = some off → off % 16 = 0 → h.inMem off = true → isMarked h off = false → isMarked h (off + 8) = false →
        protCause h (.traceSink r) off 16 true = none →
        (h.rb (TS_CTL r) TS_CTL_MODE = false →
          Gives (.traceSinkWrite r (true, [])) s (fun h' => (h'.tq f).pkts = [] ∧ h'.rd (TS_WR r) = h.rd (TS_WR r) + 1 ∧ h'.rb (TS_STAT r) TS_STAT_ACT = true ∧
            ∀ b, h'.byteAt b = if off ≤ b ∧ b < off + 16 then (leBytes 8 p.w0.toNat ++ leBytes 8 p.w1.toNat).getD (b - off) 0 else h.byteAt b)) ∧
        Gives (.traceSinkWrite r (false, [])) s (fun h' => h'.rb (TS_CTL r) TS_CTL_EN = false ∧ h'.rb (TS_STAT r) TS_STAT_ACT = false ∧ h'.rb (TS_STAT r) TS_STAT_ERR = true ∧ h'.mem = h.mem)))

/-- For an existing region. Behind the grants of PWR_CTL, for a keeper supervisor frond or the privileged host: SLEEP and OFF of a region in RUN or IDLE enter ENTER with their target, wait while recovery or a debug halt holds them, and otherwise set REF; WAKE of a sleeping region is recorded with cause 4 unless kn_fatal stands, which sets REF. With clocks, when the conditions of ENTER hold and every link is down already, the drain begins; a request that waited is accepted once nothing holds it. Conditions not met in 1,000 ticks, or a last answer more than 1,000 ticks after they were, return the region to the state it came from with REF; the last answer in time empties the caches and stops the clocks. The commit 10 ticks later keeps memory for SLEEP, and for OFF zeroes the region's memory alone; both lower pwr_req and set SDONE. PACK follows pwr_ack down. -/
def Obligations.RegionsGoToSleep : Prop :=
  ∀ (s : State) (r : Nat), s.hw.hasRegion r = true →
    let h := s.hw
    let p := h.pw r
    let slept := fun (st : Nat) (h' : Hw) => h'.pwrState r = st ∧ h'.rf (PWR_STAT r) PWR_STAT_TGT = 0 ∧ h'.rb (PWR_STAT r) PWR_STAT_PREQ = false ∧
      h'.rb (PWR_STAT r) PWR_STAT_SDONE = true ∧ h'.xlts = h.xlts ∧ h'.fronds = h.fronds ∧ (h'.pw r).phase = 0
    (∀ (w : Who) (v : W32), regGrant h w (PWR_CTL r) true = true → pwrMay w = true →
      (∀ (cmd : Nat), fldGet PWR_CTL_CMD v = cmd →
        let enters := fun (h' : Hw) => h'.pwrState r = psEnter ∧ h'.rf (PWR_STAT r) PWR_STAT_TGT = cmd ∧ h'.pw r = { p with phase := 1, back := h.pwrState r, wait := none, since := h.tb } ∧
          h'.fronds = h.fronds ∧ h'.mem = h.mem
        let waits := fun (h' : Hw) => h'.pwrState r = h.pwrState r ∧ h'.pw r = { p with wait := some cmd } ∧ h'.fronds = h.fronds ∧ h'.mem = h.mem
        let refused := fun (h' : Hw) => h'.rb (PWR_STAT r) PWR_STAT_REF = true ∧ h'.pwrState r = h.pwrState r ∧ h'.pwr = h.pwr ∧ h'.mem = h.mem
        (h.inService r = true → p.wait = none → pwrMustWait h r = false → (cmd = 1 → Gives (.pwrSleep w r v) s enters) ∧ (cmd = 2 → Gives (.pwrOff w r v) s enters)) ∧
        (h.inService r = true → p.wait = none → pwrMustWait h r = true → (cmd = 1 → Gives (.pwrSleep w r v) s waits) ∧ (cmd = 2 → Gives (.pwrOff w r v) s waits)) ∧
        ((h.inService r = false ∨ p.wait ≠ none) → (cmd = 1 → Gives (.pwrSleep w r v) s refused) ∧ (cmd = 2 → Gives (.pwrOff w r v) s refused))) ∧
      (fldGet PWR_CTL_CMD v = 3 → (h.pwrState r = psSleep ∨ h.pwrState r = psOff) →
        (h.rb SYS_LOCK SYS_LOCK_FATAL = false → Gives (.pwrWake w r v) s (fun h' => h'.pw r = { p with wake := some 4 } ∧ h'.pwrState r = h.pwrState r ∧ h'.mem = h.mem)) ∧
        (h.rb SYS_LOCK SYS_LOCK_FATAL = true → Gives (.pwrWake w r v) s (fun h' => h'.rb (PWR_STAT r) PWR_STAT_REF = true ∧ h'.pwr = h.pwr ∧ h'.mem = h.mem))) ∧
      (fldGet PWR_CTL_CMD v = 3 → h.pwrState r = psEnter →
        Gives (.pwrWake w r v) s (fun h' => h'.pwrState r = psRun ∧ h'.rb (PWR_STAT r) PWR_STAT_SLPABT = true ∧ (h'.pw r).phase = 0 ∧ h'.mem = h.mem))) ∧
    (h.clocked = true →
      (p.wait = none → h.pwrState r = psEnter → p.phase = 1 →
        (enterReady h r = true → (∀ lk, lk < 128 → lk / 32 = r → h.lkState lk = lsDown) → Gives (.enterConditionsMet r) s (fun h' => h' = h.setPw r { p with phase := 2, mark := h.tb })) ∧
        (enterReady h r = false → Gives (.enterConditionsMet r) s (fun h' => h' = h))) ∧
      (∀ tgt, p.wait = some tgt → tgt < 4 → pwrMustWait h r = false → h.inService r = true → frondsStill h r = false →
        Gives (.enterConditionsMet r) s (fun h' => h'.pwrState r = psEnter ∧ h'.rf (PWR_STAT r) PWR_STAT_TGT = tgt ∧ (h'.pw r).wait = none ∧ (h'.pw r).phase = 1 ∧ h'.mem = h.mem))) ∧
    (h.porN = true → h.pwrState r = psEnter →
      let refused := fun (h' : Hw) => h'.pwrState r = p.back ∧ h'.rf (PWR_STAT r) PWR_STAT_TGT = 0 ∧ h'.rb (PWR_STAT r) PWR_STAT_REF = true ∧ h'.pw r = { p with phase := 0 } ∧ h'.mem = h.mem
      ((p.back = psRun ∨ p.back = psIdle) → enterLate h r = true → Gives (.enterTimeout r) s refused) ∧
      ((p.back = psRun ∨ p.back = psIdle) → p.phase = 2 → mDone h r = true → 1000 < ticksSince h p.mark → Gives (.enterTimeout r) s refused) ∧
      (p.phase = 2 → mDone h r = true → ticksSince h p.mark ≤ 1000 → (h.xlt r).inv = [] →
        Gives (.enterTimeout r) s (fun h' => h'.pwrState r = psEnter ∧ h'.pw r = { p with phase := 3, mark := h.tb } ∧ h'.xlt r = XltSt.empty ∧ h'.fronds = h.fronds ∧ h'.mem = h.mem))) ∧
    (h.clocked = true → commitDue h r = true →
      (h.rf (PWR_STAT r) PWR_STAT_TGT = 1 → Gives (.sleepCommit r) s (fun h' => slept psSleep h' ∧ h'.mem = h.mem)) ∧
      (h.rf (PWR_STAT r) PWR_STAT_TGT = 2 → Gives (.sleepCommit r) s (fun h' => slept psOff h' ∧ ∀ a, h.inMem a = true → h'.byteAt a = if memRegion a = r then 0 else h.byteAt a))) ∧
    (h.porN = true → h.rb (PWR_STAT r) PWR_STAT_PREQ = false →
      Gives (.pwrAckFall r) s (fun h' => h' = h.wf (PWR_STAT r) PWR_STAT_PACK 0))

/-- For an existing region. Out of power-on reset: a recorded wake event starts the wake of a sleeping region, raises pwr_req and records the cause, unless kn_fatal or PACK stands; pwr_ack in a wake from SLEEP is recorded, late past 150 ticks; an acknowledgement missing for 10,000 ticks outside a start abandons the wake with HSTMO. With clocks: 200 ticks after the acknowledgement a wake from OFF takes STATE to POWERUP, and the end of the clear, 6,759 ticks later, returns it to WAKE; a wake whose time has passed outside a start, with no host request held, ends in RUN with WDONE; automatic idle takes a region idle for its delay from RUN to IDLE, and IDLE_EXIT returns it. A sensor sample is shown, and TMAX keeps the highest temperature. -/
def Obligations.RegionsWakeAndIdle : Prop :=
  ∀ (s : State) (r : Nat), s.hw.hasRegion r = true →
    let h := s.hw
    let p := h.pw r
    let still := fun (h' : Hw) => h'.fronds = h.fronds ∧ h'.mem = h.mem
    let asleep := h.pwrState r = psSleep ∨ h.pwrState r = psOff
    (h.porN = true →
      (∀ c, p.wake = some c → c < 8 → asleep →
        (h.rb SYS_LOCK SYS_LOCK_FATAL = false → h.rb (PWR_STAT r) PWR_STAT_PACK = false →
          Gives (.wakeStart r) s (fun h' => h'.pwrState r = psWake ∧ h'.rb (PWR_STAT r) PWR_STAT_PREQ = true ∧ h'.rf (PWR_WLAST r) PWR_WLAST_CAUSE = c ∧
            h'.pw r = { p with since := h.tb, fromOff := h.pwrState r == psOff, acked := false, cleared := false, wake := none } ∧ still h')) ∧
        ((h.rb SYS_LOCK SYS_LOCK_FATAL = true ∨ h.rb (PWR_STAT r) PWR_STAT_PACK = true) → Gives (.wakeStart r) s (fun h' => h' = h))) ∧
      (h.pwrState r = psWake → h.rb (PWR_STAT r) PWR_STAT_PREQ = true → h.rb (PWR_STAT r) PWR_STAT_PACK = false → r ∉ h.boot.busy →
        Gives (.pwrAckRise r) s (fun h' => h'.rb (PWR_STAT r) PWR_STAT_PACK = true ∧ h'.pw r = { p with acked := true, ackAt := h.tb } ∧ h'.pwrState r = psWake ∧
          (150 < (h.tb - p.since).toNat → h'.rb (PWR_STAT r) PWR_STAT_ACKLATE = true) ∧ still h') ∧
        (ackLate h r = true → Gives (.wakeAckTimeout r) s (fun h' => h'.pwrState r = (if p.fromOff then psOff else psSleep) ∧ h'.rb (PWR_STAT r) PWR_STAT_PREQ = false ∧
          h'.rb (PWR_STAT r) PWR_STAT_HSTMO = true ∧ h'.pwr = h.pwr ∧ still h'))) ∧
      (∀ v, Gives (.sensorSample r v) s (fun h' => h'.rd (WR_SENS r) = v ∧ h'.rf (WR_TMAX r) WR_TMAX_TMAX = max (h.rf (WR_TMAX r) WR_TMAX_TMAX) (fldGet WR_SENS_TEMP v) ∧ still h'))) ∧
    (h.clocked = true →
      (h.pwrState r = psWake → p.acked = true → p.fromOff = true → p.cleared = false → 200 ≤ ticksSince h p.ackAt → ticksSince h p.ackAt < 6959 →
        Gives (.powerupClearDone r) s (fun h' => h'.pwrState r = psPowerup ∧ h'.pwr = h.pwr ∧ still h')) ∧
      (h.pwrState r = psPowerup → p.acked = true → 6959 ≤ ticksSince h p.ackAt →
        Gives (.powerupClearDone r) s (fun h' => h'.pwrState r = psWake ∧ h'.pw r = { p with cleared := true } ∧ still h')) ∧
      (wakeReady h r = true → p.held = [] → h.bootStep ≠ 3 →
        Gives (.wakeComplete r) s (fun h' => h'.pwrState r = psRun ∧ h'.rb (PWR_STAT r) PWR_STAT_WDONE = true ∧
          h'.rf (PWR_TIME r) PWR_TIME_WAKE = min 65535 (h.tb - p.since).toNat ∧ (h'.pw r).acked = false ∧ still h')) ∧
      (mayIdle h r = true → idleDelay h r = true → Gives (.idleEntry r) s (fun h' => h'.pwrState r = psIdle ∧ h'.pw r = { p with still := 0 } ∧ still h')) ∧
      ((mayIdle h r = false ∨ idleDelay h r = false) → Gives (.idleEntry r) s (fun h' => h' = h)) ∧
      (h.pwrState r = psIdle → Gives (.idleExit r) s (fun h' => h'.pwrState r = psRun ∧ h'.pwr = h.pwr ∧ still h')))

/-- For every command and state, a step of the state with that command at the front of its queue is the command's effect on the state with the queue's rest. With no command waiting and por_n low a step leaves the state as it is. That a step with no command waiting is a CK_A tick is the model's choice (log entry 3). -/
def Obligations.StepRunsTheFrontCommand : Prop :=
  (∀ (c : Instr) (rest : List Instr) (s : State), step { s with pending := c :: rest } = exec c { s with pending := rest }) ∧
  (∀ (s : State), s.pending = [] → s.hw.porN = false → step s = .next s)

/-- Out of power-on reset with no command waiting, away from a beat boundary, with the regions settled in a power state and in no recovery, no march and no collective request, no command on a chain, the links down and empty, no result or lock of a frond due, no lichen digest due, no kn_fatal, no link operation due and the watchdog off, and with every channel ungated and no running channel at its compare or period value: a step adds 1 to TB and to CNT of every running channel, leaves CNT of every stopped one, and keeps memory, fronds and the queue. That the tick stands on the empty queue is the model's choice (log entry 3). -/
def Obligations.IdleStepsTickTheTimebaseAndTimers : Prop :=
  ∀ (s : State), s.pending = [] → s.hw.porN = true → s.hw.tmrLink = [] → s.hw.rb WDT_CTL WDT_CTL_EN = false → (∀ ch, ch < 32 → (s.hw.chain ch).act = []) →
    s.hw.atBeat = false → s.hw.lcState ≠ lcHash → s.hw.rb SYS_LOCK SYS_LOCK_FATAL = false → s.hw.ctxs = [] →
    (∀ r, r < 4 → (s.hw.pwrState r = psRun ∨ s.hw.pwrState r = psIdle ∨ ((s.hw.pwrState r = psSleep ∨ s.hw.pwrState r = psOff) ∧ (s.hw.pw r).wake = none)) ∧
      s.hw.rgnState r = rpRun ∧ (s.hw.mat r).march = none ∧ kvGet [] s.hw.svcQ r = [] ∧ kvGet [] s.hw.svcTaken r = []) →
    (∀ e, e ∈ s.hw.links → s.hw.lkState e.1 = lsDown ∧ e.2.rbuf = [] ∧ e.2.strays = []) →
    (∀ f, f < 8 → (s.hw.frond f).fPend = [] ∧ (s.hw.frond f).resWait = 0 ∧ (s.hw.frond f).istWait = 0 ∧ (s.hw.frond f).heldWas = false ∧ (s.hw.frond f).lockLine = none) →
    (∀ c, c < 31 → s.hw.rf (TMR_CTL c) TMR_CTL_GSEL = 0 ∧ (s.hw.tmrRun c = true → s.hw.rd (TMR_CNT c) ≠ s.hw.rd (TMR_CMP c) ∧ s.hw.rd (TMR_CNT c) ≠ s.hw.rd (TMR_PER c))) →
    ∃ t, step s = .next t ∧ t.pending = [] ∧ t.hw.tb = s.hw.tb + 1 ∧ t.hw.mem = s.hw.mem ∧ t.hw.fronds = s.hw.fronds ∧
      ∀ c, c < 31 → t.hw.rd (TMR_CNT c) = if s.hw.tmrRun c then s.hw.rd (TMR_CNT c) + 1 else s.hw.rd (TMR_CNT c)

/-- The state after reset has its storage in canonical form and an empty queue; every region is in OFF with epoch 0 and no recovery, TB is 0, the watchdog is off and channel 31 is held by macro hardware under feature 3 while every other channel is free and stopped; no frond holds a lock or a stacked interrupt, every link is DOWN, no session is open, the lichen is idle and memory lists nothing. That an unlisted byte reads as zero is the model's choice. -/
def Obligations.ResetHoldsTheValuesOfTheSpecification : Prop :=
  let h := State.reset.hw
  State.reset.canonical = true ∧ State.reset.pending = [] ∧ h.mem = [] ∧ h.scratch = [] ∧ h.tb = 0 ∧ h.porN = false ∧
  (∀ r, r < 4 → h.pwrState r = psOff ∧ h.epoch r = 0 ∧ h.rgnState r = rpRun) ∧ h.rb WDT_CTL WDT_CTL_EN = false ∧ h.rd (TMR_CLAIM 31) = 0x80030A00 ∧
  (∀ c, c < 31 → h.rf (TMR_CLAIM c) cHELD = 0 ∧ h.tmrRun c = false ∧ h.rd (TMR_CNT c) = 0) ∧
  (∀ f, (h.frond f).lockLine = none ∧ (h.frond f).pstack = [] ∧ (h.frond f).run = .reset) ∧ (∀ lk, lk < 128 → h.lkState lk = lsDown) ∧
  h.rf DBG_STAT DBG_STAT_SESS = 0 ∧ h.lcState = lcIdle

/-- Every command of every state answers a next state with the queue untouched: none ends in a fault or a refusal. While por_n is low every command but those of the pins por_n, rst_n and TEST_EN leaves the block exactly as it is. -/
def Obligations.EveryCommandAnswersAndPowerOnResetHoldsItOff : Prop :=
  (∀ (i : Instr) (s : State), Gives i s (fun _ => True)) ∧
  (∀ (i : Instr) (s : State), s.hw.porN = false → pinCommand i = false → Gives i s (fun h' => h' = s.hw))

/-- From every state in which por_n is low, the block holds its power-on reset values but for its configuration, its pins and the free value's counter, and neither TEST_EN nor the release of por_n waits in the queue, a step answers a state of the same kind: a command that waits is taken without effect, and the assertions of por_n and of rst_n change nothing. -/
def Obligations.PowerOnResetHoldsTheBlockWhateverWaits : Prop :=
  let atReset := fun (h : Hw) => h = { Hw.reset with cfg := h.cfg, rstN := h.rstN, testEn := h.testEn, irqIn := h.irqIn, tgate := h.tgate, free := h.free }
  let held := fun (s : State) => s.hw.porN = false ∧ atReset s.hw ∧ ∀ c, c ∈ s.pending → c ≠ .testEnHigh ∧ c ≠ .porRelease
  ∀ (s t : State), held s → step s = .next t → held t ∧ t.hw = s.hw

/-- From every state whose mat and cushion memory, scratchpads and register file are in canonical form (keys strictly rising, no zero byte listed), every step answers a state whose storage is in canonical form. The canonical form is the model's representation of the memories that the specification clears to zero. -/
def Obligations.EveryStepKeepsCanonicalStorage : Prop :=
  ∀ (s t : State), s.canonical = true → step s = .next t → t.canonical = true
end

