-- ==== Sys2Proof/Laws/State.lean ====
section
/-!
SUPPORT. What each update of the block leaves: one lemma for each field and each named update, so that no proof unfolds a record update.
-/
namespace Sys2Proof.Machine

@[simp] theorem Hw.wr_cfg (h : Hw) (a : Nat) (v : W32) : (h.wr a v).cfg = h.cfg := rfl
@[simp] theorem Hw.wr_mem (h : Hw) (a : Nat) (v : W32) : (h.wr a v).mem = h.mem := rfl
@[simp] theorem Hw.wr_marked (h : Hw) (a : Nat) (v : W32) : (h.wr a v).marked = h.marked := rfl
@[simp] theorem Hw.wr_undefBank (h : Hw) (a : Nat) (v : W32) : (h.wr a v).undefBank = h.undefBank := rfl
@[simp] theorem Hw.wr_defd (h : Hw) (a : Nat) (v : W32) : (h.wr a v).defd = h.defd := rfl
@[simp] theorem Hw.wr_mats (h : Hw) (a : Nat) (v : W32) : (h.wr a v).mats = h.mats := rfl
@[simp] theorem Hw.wr_rmap (h : Hw) (a : Nat) (v : W32) : (h.wr a v).rmap = h.rmap := rfl
@[simp] theorem Hw.wr_matResp (h : Hw) (a : Nat) (v : W32) : (h.wr a v).matResp = h.matResp := rfl
@[simp] theorem Hw.wr_rgnLogs (h : Hw) (a : Nat) (v : W32) : (h.wr a v).rgnLogs = h.rgnLogs := rfl
@[simp] theorem Hw.wr_meuLogs (h : Hw) (a : Nat) (v : W32) : (h.wr a v).meuLogs = h.meuLogs := rfl
@[simp] theorem Hw.wr_fronds (h : Hw) (a : Nat) (v : W32) : (h.wr a v).fronds = h.fronds := rfl
@[simp] theorem Hw.wr_scratch (h : Hw) (a : Nat) (v : W32) : (h.wr a v).scratch = h.scratch := rfl
@[simp] theorem Hw.wr_csRam (h : Hw) (a : Nat) (v : W32) : (h.wr a v).csRam = h.csRam := rfl
@[simp] theorem Hw.wr_mbxK (h : Hw) (a : Nat) (v : W32) : (h.wr a v).mbxK = h.mbxK := rfl
@[simp] theorem Hw.wr_mbxT (h : Hw) (a : Nat) (v : W32) : (h.wr a v).mbxT = h.mbxT := rfl
@[simp] theorem Hw.wr_mgmtQ (h : Hw) (a : Nat) (v : W32) : (h.wr a v).mgmtQ = h.mgmtQ := rfl
@[simp] theorem Hw.wr_svcQ (h : Hw) (a : Nat) (v : W32) : (h.wr a v).svcQ = h.svcQ := rfl
@[simp] theorem Hw.wr_svcTaken (h : Hw) (a : Nat) (v : W32) : (h.wr a v).svcTaken = h.svcTaken := rfl
@[simp] theorem Hw.wr_chains (h : Hw) (a : Nat) (v : W32) : (h.wr a v).chains = h.chains := rfl
@[simp] theorem Hw.wr_links (h : Hw) (a : Nat) (v : W32) : (h.wr a v).links = h.links := rfl
@[simp] theorem Hw.wr_lanes (h : Hw) (a : Nat) (v : W32) : (h.wr a v).lanes = h.lanes := rfl
@[simp] theorem Hw.wr_ctxs (h : Hw) (a : Nat) (v : W32) : (h.wr a v).ctxs = h.ctxs := rfl
@[simp] theorem Hw.wr_queues (h : Hw) (a : Nat) (v : W32) : (h.wr a v).queues = h.queues := rfl
@[simp] theorem Hw.wr_mreqs (h : Hw) (a : Nat) (v : W32) : (h.wr a v).mreqs = h.mreqs := rfl
@[simp] theorem Hw.wr_sresp (h : Hw) (a : Nat) (v : W32) : (h.wr a v).sresp = h.sresp := rfl
@[simp] theorem Hw.wr_out (h : Hw) (a : Nat) (v : W32) : (h.wr a v).out = h.out := rfl
@[simp] theorem Hw.wr_scred (h : Hw) (a : Nat) (v : W32) : (h.wr a v).scred = h.scred := rfl
@[simp] theorem Hw.wr_retired (h : Hw) (a : Nat) (v : W32) : (h.wr a v).retired = h.retired := rfl
@[simp] theorem Hw.wr_hpAcc (h : Hw) (a : Nat) (v : W32) : (h.wr a v).hpAcc = h.hpAcc := rfl
@[simp] theorem Hw.wr_xlts (h : Hw) (a : Nat) (v : W32) : (h.wr a v).xlts = h.xlts := rfl
@[simp] theorem Hw.wr_irqAge (h : Hw) (a : Nat) (v : W32) : (h.wr a v).irqAge = h.irqAge := rfl
@[simp] theorem Hw.wr_irqHoff (h : Hw) (a : Nat) (v : W32) : (h.wr a v).irqHoff = h.irqHoff := rfl
@[simp] theorem Hw.wr_irqIn (h : Hw) (a : Nat) (v : W32) : (h.wr a v).irqIn = h.irqIn := rfl
@[simp] theorem Hw.wr_tmrs (h : Hw) (a : Nat) (v : W32) : (h.wr a v).tmrs = h.tmrs := rfl
@[simp] theorem Hw.wr_tmrLink (h : Hw) (a : Nat) (v : W32) : (h.wr a v).tmrLink = h.tmrLink := rfl
@[simp] theorem Hw.wr_tgate (h : Hw) (a : Nat) (v : W32) : (h.wr a v).tgate = h.tgate := rfl
@[simp] theorem Hw.wr_snaps (h : Hw) (a : Nat) (v : W32) : (h.wr a v).snaps = h.snaps := rfl
@[simp] theorem Hw.wr_wdtLim (h : Hw) (a : Nat) (v : W32) : (h.wr a v).wdtLim = h.wdtLim := rfl
@[simp] theorem Hw.wr_tb (h : Hw) (a : Nat) (v : W32) : (h.wr a v).tb = h.tb := rfl
@[simp] theorem Hw.wr_beatDiv (h : Hw) (a : Nat) (v : W32) : (h.wr a v).beatDiv = h.beatDiv := rfl
@[simp] theorem Hw.wr_lchKey (h : Hw) (a : Nat) (v : W32) : (h.wr a v).lchKey = h.lchKey := rfl
@[simp] theorem Hw.wr_lchArm (h : Hw) (a : Nat) (v : W32) : (h.wr a v).lchArm = h.lchArm := rfl
@[simp] theorem Hw.wr_lchSalt (h : Hw) (a : Nat) (v : W32) : (h.wr a v).lchSalt = h.lchSalt := rfl
@[simp] theorem Hw.wr_lchExp (h : Hw) (a : Nat) (v : W32) : (h.wr a v).lchExp = h.lchExp := rfl
@[simp] theorem Hw.wr_boot (h : Hw) (a : Nat) (v : W32) : (h.wr a v).boot = h.boot := rfl
@[simp] theorem Hw.wr_dbg (h : Hw) (a : Nat) (v : W32) : (h.wr a v).dbg = h.dbg := rfl
@[simp] theorem Hw.wr_trace (h : Hw) (a : Nat) (v : W32) : (h.wr a v).trace = h.trace := rfl
@[simp] theorem Hw.wr_pwr (h : Hw) (a : Nat) (v : W32) : (h.wr a v).pwr = h.pwr := rfl
@[simp] theorem Hw.wr_recs (h : Hw) (a : Nat) (v : W32) : (h.wr a v).recs = h.recs := rfl
@[simp] theorem Hw.wr_wearBeats (h : Hw) (a : Nat) (v : W32) : (h.wr a v).wearBeats = h.wearBeats := rfl
@[simp] theorem Hw.wr_wear (h : Hw) (a : Nat) (v : W32) : (h.wr a v).wear = h.wear := rfl
@[simp] theorem Hw.wr_porN (h : Hw) (a : Nat) (v : W32) : (h.wr a v).porN = h.porN := rfl
@[simp] theorem Hw.wr_rstN (h : Hw) (a : Nat) (v : W32) : (h.wr a v).rstN = h.rstN := rfl
@[simp] theorem Hw.wr_testEn (h : Hw) (a : Nat) (v : W32) : (h.wr a v).testEn = h.testEn := rfl
@[simp] theorem Hw.wr_clkStop (h : Hw) (a : Nat) (v : W32) : (h.wr a v).clkStop = h.clkStop := rfl
@[simp] theorem Hw.wr_pllLost (h : Hw) (a : Nat) (v : W32) : (h.wr a v).pllLost = h.pllLost := rfl
@[simp] theorem Hw.wr_pllAt (h : Hw) (a : Nat) (v : W32) : (h.wr a v).pllAt = h.pllAt := rfl
@[simp] theorem Hw.wr_busRd (h : Hw) (a : Nat) (v : W32) : (h.wr a v).busRd = h.busRd := rfl
@[simp] theorem Hw.wr_seq (h : Hw) (a : Nat) (v : W32) : (h.wr a v).seq = h.seq := rfl
@[simp] theorem Hw.wr_free (h : Hw) (a : Nat) (v : W32) : (h.wr a v).free = h.free := rfl

@[simp] theorem Hw.setFrond_cfg (h : Hw) (f : Nat) (x : Frond) : (h.setFrond f x).cfg = h.cfg := rfl
@[simp] theorem Hw.setFrond_regs (h : Hw) (f : Nat) (x : Frond) : (h.setFrond f x).regs = h.regs := rfl
@[simp] theorem Hw.setFrond_mem (h : Hw) (f : Nat) (x : Frond) : (h.setFrond f x).mem = h.mem := rfl
@[simp] theorem Hw.setFrond_marked (h : Hw) (f : Nat) (x : Frond) : (h.setFrond f x).marked = h.marked := rfl
@[simp] theorem Hw.setFrond_undefBank (h : Hw) (f : Nat) (x : Frond) : (h.setFrond f x).undefBank = h.undefBank := rfl
@[simp] theorem Hw.setFrond_defd (h : Hw) (f : Nat) (x : Frond) : (h.setFrond f x).defd = h.defd := rfl
@[simp] theorem Hw.setFrond_mats (h : Hw) (f : Nat) (x : Frond) : (h.setFrond f x).mats = h.mats := rfl
@[simp] theorem Hw.setFrond_rmap (h : Hw) (f : Nat) (x : Frond) : (h.setFrond f x).rmap = h.rmap := rfl
@[simp] theorem Hw.setFrond_matResp (h : Hw) (f : Nat) (x : Frond) : (h.setFrond f x).matResp = h.matResp := rfl
@[simp] theorem Hw.setFrond_rgnLogs (h : Hw) (f : Nat) (x : Frond) : (h.setFrond f x).rgnLogs = h.rgnLogs := rfl
@[simp] theorem Hw.setFrond_meuLogs (h : Hw) (f : Nat) (x : Frond) : (h.setFrond f x).meuLogs = h.meuLogs := rfl
@[simp] theorem Hw.setFrond_scratch (h : Hw) (f : Nat) (x : Frond) : (h.setFrond f x).scratch = h.scratch := rfl
@[simp] theorem Hw.setFrond_csRam (h : Hw) (f : Nat) (x : Frond) : (h.setFrond f x).csRam = h.csRam := rfl
@[simp] theorem Hw.setFrond_mbxK (h : Hw) (f : Nat) (x : Frond) : (h.setFrond f x).mbxK = h.mbxK := rfl
@[simp] theorem Hw.setFrond_mbxT (h : Hw) (f : Nat) (x : Frond) : (h.setFrond f x).mbxT = h.mbxT := rfl
@[simp] theorem Hw.setFrond_mgmtQ (h : Hw) (f : Nat) (x : Frond) : (h.setFrond f x).mgmtQ = h.mgmtQ := rfl
@[simp] theorem Hw.setFrond_svcQ (h : Hw) (f : Nat) (x : Frond) : (h.setFrond f x).svcQ = h.svcQ := rfl
@[simp] theorem Hw.setFrond_svcTaken (h : Hw) (f : Nat) (x : Frond) : (h.setFrond f x).svcTaken = h.svcTaken := rfl
@[simp] theorem Hw.setFrond_chains (h : Hw) (f : Nat) (x : Frond) : (h.setFrond f x).chains = h.chains := rfl
@[simp] theorem Hw.setFrond_links (h : Hw) (f : Nat) (x : Frond) : (h.setFrond f x).links = h.links := rfl
@[simp] theorem Hw.setFrond_lanes (h : Hw) (f : Nat) (x : Frond) : (h.setFrond f x).lanes = h.lanes := rfl
@[simp] theorem Hw.setFrond_ctxs (h : Hw) (f : Nat) (x : Frond) : (h.setFrond f x).ctxs = h.ctxs := rfl
@[simp] theorem Hw.setFrond_queues (h : Hw) (f : Nat) (x : Frond) : (h.setFrond f x).queues = h.queues := rfl
@[simp] theorem Hw.setFrond_mreqs (h : Hw) (f : Nat) (x : Frond) : (h.setFrond f x).mreqs = h.mreqs := rfl
@[simp] theorem Hw.setFrond_sresp (h : Hw) (f : Nat) (x : Frond) : (h.setFrond f x).sresp = h.sresp := rfl
@[simp] theorem Hw.setFrond_out (h : Hw) (f : Nat) (x : Frond) : (h.setFrond f x).out = h.out := rfl
@[simp] theorem Hw.setFrond_scred (h : Hw) (f : Nat) (x : Frond) : (h.setFrond f x).scred = h.scred := rfl
@[simp] theorem Hw.setFrond_retired (h : Hw) (f : Nat) (x : Frond) : (h.setFrond f x).retired = h.retired := rfl
@[simp] theorem Hw.setFrond_hpAcc (h : Hw) (f : Nat) (x : Frond) : (h.setFrond f x).hpAcc = h.hpAcc := rfl
@[simp] theorem Hw.setFrond_xlts (h : Hw) (f : Nat) (x : Frond) : (h.setFrond f x).xlts = h.xlts := rfl
@[simp] theorem Hw.setFrond_irqAge (h : Hw) (f : Nat) (x : Frond) : (h.setFrond f x).irqAge = h.irqAge := rfl
@[simp] theorem Hw.setFrond_irqHoff (h : Hw) (f : Nat) (x : Frond) : (h.setFrond f x).irqHoff = h.irqHoff := rfl
@[simp] theorem Hw.setFrond_irqIn (h : Hw) (f : Nat) (x : Frond) : (h.setFrond f x).irqIn = h.irqIn := rfl
@[simp] theorem Hw.setFrond_tmrs (h : Hw) (f : Nat) (x : Frond) : (h.setFrond f x).tmrs = h.tmrs := rfl
@[simp] theorem Hw.setFrond_tmrLink (h : Hw) (f : Nat) (x : Frond) : (h.setFrond f x).tmrLink = h.tmrLink := rfl
@[simp] theorem Hw.setFrond_tgate (h : Hw) (f : Nat) (x : Frond) : (h.setFrond f x).tgate = h.tgate := rfl
@[simp] theorem Hw.setFrond_snaps (h : Hw) (f : Nat) (x : Frond) : (h.setFrond f x).snaps = h.snaps := rfl
@[simp] theorem Hw.setFrond_wdtLim (h : Hw) (f : Nat) (x : Frond) : (h.setFrond f x).wdtLim = h.wdtLim := rfl
@[simp] theorem Hw.setFrond_tb (h : Hw) (f : Nat) (x : Frond) : (h.setFrond f x).tb = h.tb := rfl
@[simp] theorem Hw.setFrond_beatDiv (h : Hw) (f : Nat) (x : Frond) : (h.setFrond f x).beatDiv = h.beatDiv := rfl
@[simp] theorem Hw.setFrond_lchKey (h : Hw) (f : Nat) (x : Frond) : (h.setFrond f x).lchKey = h.lchKey := rfl
@[simp] theorem Hw.setFrond_lchArm (h : Hw) (f : Nat) (x : Frond) : (h.setFrond f x).lchArm = h.lchArm := rfl
@[simp] theorem Hw.setFrond_lchSalt (h : Hw) (f : Nat) (x : Frond) : (h.setFrond f x).lchSalt = h.lchSalt := rfl
@[simp] theorem Hw.setFrond_lchExp (h : Hw) (f : Nat) (x : Frond) : (h.setFrond f x).lchExp = h.lchExp := rfl
@[simp] theorem Hw.setFrond_boot (h : Hw) (f : Nat) (x : Frond) : (h.setFrond f x).boot = h.boot := rfl
@[simp] theorem Hw.setFrond_dbg (h : Hw) (f : Nat) (x : Frond) : (h.setFrond f x).dbg = h.dbg := rfl
@[simp] theorem Hw.setFrond_trace (h : Hw) (f : Nat) (x : Frond) : (h.setFrond f x).trace = h.trace := rfl
@[simp] theorem Hw.setFrond_pwr (h : Hw) (f : Nat) (x : Frond) : (h.setFrond f x).pwr = h.pwr := rfl
@[simp] theorem Hw.setFrond_recs (h : Hw) (f : Nat) (x : Frond) : (h.setFrond f x).recs = h.recs := rfl
@[simp] theorem Hw.setFrond_wearBeats (h : Hw) (f : Nat) (x : Frond) : (h.setFrond f x).wearBeats = h.wearBeats := rfl
@[simp] theorem Hw.setFrond_wear (h : Hw) (f : Nat) (x : Frond) : (h.setFrond f x).wear = h.wear := rfl
@[simp] theorem Hw.setFrond_porN (h : Hw) (f : Nat) (x : Frond) : (h.setFrond f x).porN = h.porN := rfl
@[simp] theorem Hw.setFrond_rstN (h : Hw) (f : Nat) (x : Frond) : (h.setFrond f x).rstN = h.rstN := rfl
@[simp] theorem Hw.setFrond_testEn (h : Hw) (f : Nat) (x : Frond) : (h.setFrond f x).testEn = h.testEn := rfl
@[simp] theorem Hw.setFrond_clkStop (h : Hw) (f : Nat) (x : Frond) : (h.setFrond f x).clkStop = h.clkStop := rfl
@[simp] theorem Hw.setFrond_pllLost (h : Hw) (f : Nat) (x : Frond) : (h.setFrond f x).pllLost = h.pllLost := rfl
@[simp] theorem Hw.setFrond_pllAt (h : Hw) (f : Nat) (x : Frond) : (h.setFrond f x).pllAt = h.pllAt := rfl
@[simp] theorem Hw.setFrond_busRd (h : Hw) (f : Nat) (x : Frond) : (h.setFrond f x).busRd = h.busRd := rfl
@[simp] theorem Hw.setFrond_seq (h : Hw) (f : Nat) (x : Frond) : (h.setFrond f x).seq = h.seq := rfl
@[simp] theorem Hw.setFrond_free (h : Hw) (f : Nat) (x : Frond) : (h.setFrond f x).free = h.free := rfl

@[simp] theorem Hw.setMat_cfg (h : Hw) (r : Nat) (x : MatRgn) : (h.setMat r x).cfg = h.cfg := rfl
@[simp] theorem Hw.setMat_regs (h : Hw) (r : Nat) (x : MatRgn) : (h.setMat r x).regs = h.regs := rfl
@[simp] theorem Hw.setMat_mem (h : Hw) (r : Nat) (x : MatRgn) : (h.setMat r x).mem = h.mem := rfl
@[simp] theorem Hw.setMat_marked (h : Hw) (r : Nat) (x : MatRgn) : (h.setMat r x).marked = h.marked := rfl
@[simp] theorem Hw.setMat_undefBank (h : Hw) (r : Nat) (x : MatRgn) : (h.setMat r x).undefBank = h.undefBank := rfl
@[simp] theorem Hw.setMat_defd (h : Hw) (r : Nat) (x : MatRgn) : (h.setMat r x).defd = h.defd := rfl
@[simp] theorem Hw.setMat_rmap (h : Hw) (r : Nat) (x : MatRgn) : (h.setMat r x).rmap = h.rmap := rfl
@[simp] theorem Hw.setMat_matResp (h : Hw) (r : Nat) (x : MatRgn) : (h.setMat r x).matResp = h.matResp := rfl
@[simp] theorem Hw.setMat_rgnLogs (h : Hw) (r : Nat) (x : MatRgn) : (h.setMat r x).rgnLogs = h.rgnLogs := rfl
@[simp] theorem Hw.setMat_meuLogs (h : Hw) (r : Nat) (x : MatRgn) : (h.setMat r x).meuLogs = h.meuLogs := rfl
@[simp] theorem Hw.setMat_fronds (h : Hw) (r : Nat) (x : MatRgn) : (h.setMat r x).fronds = h.fronds := rfl
@[simp] theorem Hw.setMat_scratch (h : Hw) (r : Nat) (x : MatRgn) : (h.setMat r x).scratch = h.scratch := rfl
@[simp] theorem Hw.setMat_csRam (h : Hw) (r : Nat) (x : MatRgn) : (h.setMat r x).csRam = h.csRam := rfl
@[simp] theorem Hw.setMat_mbxK (h : Hw) (r : Nat) (x : MatRgn) : (h.setMat r x).mbxK = h.mbxK := rfl
@[simp] theorem Hw.setMat_mbxT (h : Hw) (r : Nat) (x : MatRgn) : (h.setMat r x).mbxT = h.mbxT := rfl
@[simp] theorem Hw.setMat_mgmtQ (h : Hw) (r : Nat) (x : MatRgn) : (h.setMat r x).mgmtQ = h.mgmtQ := rfl
@[simp] theorem Hw.setMat_svcQ (h : Hw) (r : Nat) (x : MatRgn) : (h.setMat r x).svcQ = h.svcQ := rfl
@[simp] theorem Hw.setMat_svcTaken (h : Hw) (r : Nat) (x : MatRgn) : (h.setMat r x).svcTaken = h.svcTaken := rfl
@[simp] theorem Hw.setMat_chains (h : Hw) (r : Nat) (x : MatRgn) : (h.setMat r x).chains = h.chains := rfl
@[simp] theorem Hw.setMat_links (h : Hw) (r : Nat) (x : MatRgn) : (h.setMat r x).links = h.links := rfl
@[simp] theorem Hw.setMat_lanes (h : Hw) (r : Nat) (x : MatRgn) : (h.setMat r x).lanes = h.lanes := rfl
@[simp] theorem Hw.setMat_ctxs (h : Hw) (r : Nat) (x : MatRgn) : (h.setMat r x).ctxs = h.ctxs := rfl
@[simp] theorem Hw.setMat_queues (h : Hw) (r : Nat) (x : MatRgn) : (h.setMat r x).queues = h.queues := rfl
@[simp] theorem Hw.setMat_mreqs (h : Hw) (r : Nat) (x : MatRgn) : (h.setMat r x).mreqs = h.mreqs := rfl
@[simp] theorem Hw.setMat_sresp (h : Hw) (r : Nat) (x : MatRgn) : (h.setMat r x).sresp = h.sresp := rfl
@[simp] theorem Hw.setMat_out (h : Hw) (r : Nat) (x : MatRgn) : (h.setMat r x).out = h.out := rfl
@[simp] theorem Hw.setMat_scred (h : Hw) (r : Nat) (x : MatRgn) : (h.setMat r x).scred = h.scred := rfl
@[simp] theorem Hw.setMat_retired (h : Hw) (r : Nat) (x : MatRgn) : (h.setMat r x).retired = h.retired := rfl
@[simp] theorem Hw.setMat_hpAcc (h : Hw) (r : Nat) (x : MatRgn) : (h.setMat r x).hpAcc = h.hpAcc := rfl
@[simp] theorem Hw.setMat_xlts (h : Hw) (r : Nat) (x : MatRgn) : (h.setMat r x).xlts = h.xlts := rfl
@[simp] theorem Hw.setMat_irqAge (h : Hw) (r : Nat) (x : MatRgn) : (h.setMat r x).irqAge = h.irqAge := rfl
@[simp] theorem Hw.setMat_irqHoff (h : Hw) (r : Nat) (x : MatRgn) : (h.setMat r x).irqHoff = h.irqHoff := rfl
@[simp] theorem Hw.setMat_irqIn (h : Hw) (r : Nat) (x : MatRgn) : (h.setMat r x).irqIn = h.irqIn := rfl
@[simp] theorem Hw.setMat_tmrs (h : Hw) (r : Nat) (x : MatRgn) : (h.setMat r x).tmrs = h.tmrs := rfl
@[simp] theorem Hw.setMat_tmrLink (h : Hw) (r : Nat) (x : MatRgn) : (h.setMat r x).tmrLink = h.tmrLink := rfl
@[simp] theorem Hw.setMat_tgate (h : Hw) (r : Nat) (x : MatRgn) : (h.setMat r x).tgate = h.tgate := rfl
@[simp] theorem Hw.setMat_snaps (h : Hw) (r : Nat) (x : MatRgn) : (h.setMat r x).snaps = h.snaps := rfl
@[simp] theorem Hw.setMat_wdtLim (h : Hw) (r : Nat) (x : MatRgn) : (h.setMat r x).wdtLim = h.wdtLim := rfl
@[simp] theorem Hw.setMat_tb (h : Hw) (r : Nat) (x : MatRgn) : (h.setMat r x).tb = h.tb := rfl
@[simp] theorem Hw.setMat_beatDiv (h : Hw) (r : Nat) (x : MatRgn) : (h.setMat r x).beatDiv = h.beatDiv := rfl
@[simp] theorem Hw.setMat_lchKey (h : Hw) (r : Nat) (x : MatRgn) : (h.setMat r x).lchKey = h.lchKey := rfl
@[simp] theorem Hw.setMat_lchArm (h : Hw) (r : Nat) (x : MatRgn) : (h.setMat r x).lchArm = h.lchArm := rfl
@[simp] theorem Hw.setMat_lchSalt (h : Hw) (r : Nat) (x : MatRgn) : (h.setMat r x).lchSalt = h.lchSalt := rfl
@[simp] theorem Hw.setMat_lchExp (h : Hw) (r : Nat) (x : MatRgn) : (h.setMat r x).lchExp = h.lchExp := rfl
@[simp] theorem Hw.setMat_boot (h : Hw) (r : Nat) (x : MatRgn) : (h.setMat r x).boot = h.boot := rfl
@[simp] theorem Hw.setMat_dbg (h : Hw) (r : Nat) (x : MatRgn) : (h.setMat r x).dbg = h.dbg := rfl
@[simp] theorem Hw.setMat_trace (h : Hw) (r : Nat) (x : MatRgn) : (h.setMat r x).trace = h.trace := rfl
@[simp] theorem Hw.setMat_pwr (h : Hw) (r : Nat) (x : MatRgn) : (h.setMat r x).pwr = h.pwr := rfl
@[simp] theorem Hw.setMat_recs (h : Hw) (r : Nat) (x : MatRgn) : (h.setMat r x).recs = h.recs := rfl
@[simp] theorem Hw.setMat_wearBeats (h : Hw) (r : Nat) (x : MatRgn) : (h.setMat r x).wearBeats = h.wearBeats := rfl
@[simp] theorem Hw.setMat_wear (h : Hw) (r : Nat) (x : MatRgn) : (h.setMat r x).wear = h.wear := rfl
@[simp] theorem Hw.setMat_porN (h : Hw) (r : Nat) (x : MatRgn) : (h.setMat r x).porN = h.porN := rfl
@[simp] theorem Hw.setMat_rstN (h : Hw) (r : Nat) (x : MatRgn) : (h.setMat r x).rstN = h.rstN := rfl
@[simp] theorem Hw.setMat_testEn (h : Hw) (r : Nat) (x : MatRgn) : (h.setMat r x).testEn = h.testEn := rfl
@[simp] theorem Hw.setMat_clkStop (h : Hw) (r : Nat) (x : MatRgn) : (h.setMat r x).clkStop = h.clkStop := rfl
@[simp] theorem Hw.setMat_pllLost (h : Hw) (r : Nat) (x : MatRgn) : (h.setMat r x).pllLost = h.pllLost := rfl
@[simp] theorem Hw.setMat_pllAt (h : Hw) (r : Nat) (x : MatRgn) : (h.setMat r x).pllAt = h.pllAt := rfl
@[simp] theorem Hw.setMat_busRd (h : Hw) (r : Nat) (x : MatRgn) : (h.setMat r x).busRd = h.busRd := rfl
@[simp] theorem Hw.setMat_seq (h : Hw) (r : Nat) (x : MatRgn) : (h.setMat r x).seq = h.seq := rfl
@[simp] theorem Hw.setMat_free (h : Hw) (r : Nat) (x : MatRgn) : (h.setMat r x).free = h.free := rfl

@[simp] theorem Hw.setChain_cfg (h : Hw) (ch : Nat) (x : Chain) : (h.setChain ch x).cfg = h.cfg := rfl
@[simp] theorem Hw.setChain_regs (h : Hw) (ch : Nat) (x : Chain) : (h.setChain ch x).regs = h.regs := rfl
@[simp] theorem Hw.setChain_mem (h : Hw) (ch : Nat) (x : Chain) : (h.setChain ch x).mem = h.mem := rfl
@[simp] theorem Hw.setChain_marked (h : Hw) (ch : Nat) (x : Chain) : (h.setChain ch x).marked = h.marked := rfl
@[simp] theorem Hw.setChain_undefBank (h : Hw) (ch : Nat) (x : Chain) : (h.setChain ch x).undefBank = h.undefBank := rfl
@[simp] theorem Hw.setChain_defd (h : Hw) (ch : Nat) (x : Chain) : (h.setChain ch x).defd = h.defd := rfl
@[simp] theorem Hw.setChain_mats (h : Hw) (ch : Nat) (x : Chain) : (h.setChain ch x).mats = h.mats := rfl
@[simp] theorem Hw.setChain_rmap (h : Hw) (ch : Nat) (x : Chain) : (h.setChain ch x).rmap = h.rmap := rfl
@[simp] theorem Hw.setChain_matResp (h : Hw) (ch : Nat) (x : Chain) : (h.setChain ch x).matResp = h.matResp := rfl
@[simp] theorem Hw.setChain_rgnLogs (h : Hw) (ch : Nat) (x : Chain) : (h.setChain ch x).rgnLogs = h.rgnLogs := rfl
@[simp] theorem Hw.setChain_meuLogs (h : Hw) (ch : Nat) (x : Chain) : (h.setChain ch x).meuLogs = h.meuLogs := rfl
@[simp] theorem Hw.setChain_fronds (h : Hw) (ch : Nat) (x : Chain) : (h.setChain ch x).fronds = h.fronds := rfl
@[simp] theorem Hw.setChain_scratch (h : Hw) (ch : Nat) (x : Chain) : (h.setChain ch x).scratch = h.scratch := rfl
@[simp] theorem Hw.setChain_csRam (h : Hw) (ch : Nat) (x : Chain) : (h.setChain ch x).csRam = h.csRam := rfl
@[simp] theorem Hw.setChain_mbxK (h : Hw) (ch : Nat) (x : Chain) : (h.setChain ch x).mbxK = h.mbxK := rfl
@[simp] theorem Hw.setChain_mbxT (h : Hw) (ch : Nat) (x : Chain) : (h.setChain ch x).mbxT = h.mbxT := rfl
@[simp] theorem Hw.setChain_mgmtQ (h : Hw) (ch : Nat) (x : Chain) : (h.setChain ch x).mgmtQ = h.mgmtQ := rfl
@[simp] theorem Hw.setChain_svcQ (h : Hw) (ch : Nat) (x : Chain) : (h.setChain ch x).svcQ = h.svcQ := rfl
@[simp] theorem Hw.setChain_svcTaken (h : Hw) (ch : Nat) (x : Chain) : (h.setChain ch x).svcTaken = h.svcTaken := rfl
@[simp] theorem Hw.setChain_links (h : Hw) (ch : Nat) (x : Chain) : (h.setChain ch x).links = h.links := rfl
@[simp] theorem Hw.setChain_lanes (h : Hw) (ch : Nat) (x : Chain) : (h.setChain ch x).lanes = h.lanes := rfl
@[simp] theorem Hw.setChain_ctxs (h : Hw) (ch : Nat) (x : Chain) : (h.setChain ch x).ctxs = h.ctxs := rfl
@[simp] theorem Hw.setChain_queues (h : Hw) (ch : Nat) (x : Chain) : (h.setChain ch x).queues = h.queues := rfl
@[simp] theorem Hw.setChain_mreqs (h : Hw) (ch : Nat) (x : Chain) : (h.setChain ch x).mreqs = h.mreqs := rfl
@[simp] theorem Hw.setChain_sresp (h : Hw) (ch : Nat) (x : Chain) : (h.setChain ch x).sresp = h.sresp := rfl
@[simp] theorem Hw.setChain_out (h : Hw) (ch : Nat) (x : Chain) : (h.setChain ch x).out = h.out := rfl
@[simp] theorem Hw.setChain_scred (h : Hw) (ch : Nat) (x : Chain) : (h.setChain ch x).scred = h.scred := rfl
@[simp] theorem Hw.setChain_retired (h : Hw) (ch : Nat) (x : Chain) : (h.setChain ch x).retired = h.retired := rfl
@[simp] theorem Hw.setChain_hpAcc (h : Hw) (ch : Nat) (x : Chain) : (h.setChain ch x).hpAcc = h.hpAcc := rfl
@[simp] theorem Hw.setChain_xlts (h : Hw) (ch : Nat) (x : Chain) : (h.setChain ch x).xlts = h.xlts := rfl
@[simp] theorem Hw.setChain_irqAge (h : Hw) (ch : Nat) (x : Chain) : (h.setChain ch x).irqAge = h.irqAge := rfl
@[simp] theorem Hw.setChain_irqHoff (h : Hw) (ch : Nat) (x : Chain) : (h.setChain ch x).irqHoff = h.irqHoff := rfl
@[simp] theorem Hw.setChain_irqIn (h : Hw) (ch : Nat) (x : Chain) : (h.setChain ch x).irqIn = h.irqIn := rfl
@[simp] theorem Hw.setChain_tmrs (h : Hw) (ch : Nat) (x : Chain) : (h.setChain ch x).tmrs = h.tmrs := rfl
@[simp] theorem Hw.setChain_tmrLink (h : Hw) (ch : Nat) (x : Chain) : (h.setChain ch x).tmrLink = h.tmrLink := rfl
@[simp] theorem Hw.setChain_tgate (h : Hw) (ch : Nat) (x : Chain) : (h.setChain ch x).tgate = h.tgate := rfl
@[simp] theorem Hw.setChain_snaps (h : Hw) (ch : Nat) (x : Chain) : (h.setChain ch x).snaps = h.snaps := rfl
@[simp] theorem Hw.setChain_wdtLim (h : Hw) (ch : Nat) (x : Chain) : (h.setChain ch x).wdtLim = h.wdtLim := rfl
@[simp] theorem Hw.setChain_tb (h : Hw) (ch : Nat) (x : Chain) : (h.setChain ch x).tb = h.tb := rfl
@[simp] theorem Hw.setChain_beatDiv (h : Hw) (ch : Nat) (x : Chain) : (h.setChain ch x).beatDiv = h.beatDiv := rfl
@[simp] theorem Hw.setChain_lchKey (h : Hw) (ch : Nat) (x : Chain) : (h.setChain ch x).lchKey = h.lchKey := rfl
@[simp] theorem Hw.setChain_lchArm (h : Hw) (ch : Nat) (x : Chain) : (h.setChain ch x).lchArm = h.lchArm := rfl
@[simp] theorem Hw.setChain_lchSalt (h : Hw) (ch : Nat) (x : Chain) : (h.setChain ch x).lchSalt = h.lchSalt := rfl
@[simp] theorem Hw.setChain_lchExp (h : Hw) (ch : Nat) (x : Chain) : (h.setChain ch x).lchExp = h.lchExp := rfl
@[simp] theorem Hw.setChain_boot (h : Hw) (ch : Nat) (x : Chain) : (h.setChain ch x).boot = h.boot := rfl
@[simp] theorem Hw.setChain_dbg (h : Hw) (ch : Nat) (x : Chain) : (h.setChain ch x).dbg = h.dbg := rfl
@[simp] theorem Hw.setChain_trace (h : Hw) (ch : Nat) (x : Chain) : (h.setChain ch x).trace = h.trace := rfl
@[simp] theorem Hw.setChain_pwr (h : Hw) (ch : Nat) (x : Chain) : (h.setChain ch x).pwr = h.pwr := rfl
@[simp] theorem Hw.setChain_recs (h : Hw) (ch : Nat) (x : Chain) : (h.setChain ch x).recs = h.recs := rfl
@[simp] theorem Hw.setChain_wearBeats (h : Hw) (ch : Nat) (x : Chain) : (h.setChain ch x).wearBeats = h.wearBeats := rfl
@[simp] theorem Hw.setChain_wear (h : Hw) (ch : Nat) (x : Chain) : (h.setChain ch x).wear = h.wear := rfl
@[simp] theorem Hw.setChain_porN (h : Hw) (ch : Nat) (x : Chain) : (h.setChain ch x).porN = h.porN := rfl
@[simp] theorem Hw.setChain_rstN (h : Hw) (ch : Nat) (x : Chain) : (h.setChain ch x).rstN = h.rstN := rfl
@[simp] theorem Hw.setChain_testEn (h : Hw) (ch : Nat) (x : Chain) : (h.setChain ch x).testEn = h.testEn := rfl
@[simp] theorem Hw.setChain_clkStop (h : Hw) (ch : Nat) (x : Chain) : (h.setChain ch x).clkStop = h.clkStop := rfl
@[simp] theorem Hw.setChain_pllLost (h : Hw) (ch : Nat) (x : Chain) : (h.setChain ch x).pllLost = h.pllLost := rfl
@[simp] theorem Hw.setChain_pllAt (h : Hw) (ch : Nat) (x : Chain) : (h.setChain ch x).pllAt = h.pllAt := rfl
@[simp] theorem Hw.setChain_busRd (h : Hw) (ch : Nat) (x : Chain) : (h.setChain ch x).busRd = h.busRd := rfl
@[simp] theorem Hw.setChain_seq (h : Hw) (ch : Nat) (x : Chain) : (h.setChain ch x).seq = h.seq := rfl
@[simp] theorem Hw.setChain_free (h : Hw) (ch : Nat) (x : Chain) : (h.setChain ch x).free = h.free := rfl

@[simp] theorem Hw.setLink_cfg (h : Hw) (lk : Nat) (x : LinkSt) : (h.setLink lk x).cfg = h.cfg := rfl
@[simp] theorem Hw.setLink_regs (h : Hw) (lk : Nat) (x : LinkSt) : (h.setLink lk x).regs = h.regs := rfl
@[simp] theorem Hw.setLink_mem (h : Hw) (lk : Nat) (x : LinkSt) : (h.setLink lk x).mem = h.mem := rfl
@[simp] theorem Hw.setLink_marked (h : Hw) (lk : Nat) (x : LinkSt) : (h.setLink lk x).marked = h.marked := rfl
@[simp] theorem Hw.setLink_undefBank (h : Hw) (lk : Nat) (x : LinkSt) : (h.setLink lk x).undefBank = h.undefBank := rfl
@[simp] theorem Hw.setLink_defd (h : Hw) (lk : Nat) (x : LinkSt) : (h.setLink lk x).defd = h.defd := rfl
@[simp] theorem Hw.setLink_mats (h : Hw) (lk : Nat) (x : LinkSt) : (h.setLink lk x).mats = h.mats := rfl
@[simp] theorem Hw.setLink_rmap (h : Hw) (lk : Nat) (x : LinkSt) : (h.setLink lk x).rmap = h.rmap := rfl
@[simp] theorem Hw.setLink_matResp (h : Hw) (lk : Nat) (x : LinkSt) : (h.setLink lk x).matResp = h.matResp := rfl
@[simp] theorem Hw.setLink_rgnLogs (h : Hw) (lk : Nat) (x : LinkSt) : (h.setLink lk x).rgnLogs = h.rgnLogs := rfl
@[simp] theorem Hw.setLink_meuLogs (h : Hw) (lk : Nat) (x : LinkSt) : (h.setLink lk x).meuLogs = h.meuLogs := rfl
@[simp] theorem Hw.setLink_fronds (h : Hw) (lk : Nat) (x : LinkSt) : (h.setLink lk x).fronds = h.fronds := rfl
@[simp] theorem Hw.setLink_scratch (h : Hw) (lk : Nat) (x : LinkSt) : (h.setLink lk x).scratch = h.scratch := rfl
@[simp] theorem Hw.setLink_csRam (h : Hw) (lk : Nat) (x : LinkSt) : (h.setLink lk x).csRam = h.csRam := rfl
@[simp] theorem Hw.setLink_mbxK (h : Hw) (lk : Nat) (x : LinkSt) : (h.setLink lk x).mbxK = h.mbxK := rfl
@[simp] theorem Hw.setLink_mbxT (h : Hw) (lk : Nat) (x : LinkSt) : (h.setLink lk x).mbxT = h.mbxT := rfl
@[simp] theorem Hw.setLink_mgmtQ (h : Hw) (lk : Nat) (x : LinkSt) : (h.setLink lk x).mgmtQ = h.mgmtQ := rfl
@[simp] theorem Hw.setLink_svcQ (h : Hw) (lk : Nat) (x : LinkSt) : (h.setLink lk x).svcQ = h.svcQ := rfl
@[simp] theorem Hw.setLink_svcTaken (h : Hw) (lk : Nat) (x : LinkSt) : (h.setLink lk x).svcTaken = h.svcTaken := rfl
@[simp] theorem Hw.setLink_chains (h : Hw) (lk : Nat) (x : LinkSt) : (h.setLink lk x).chains = h.chains := rfl
@[simp] theorem Hw.setLink_lanes (h : Hw) (lk : Nat) (x : LinkSt) : (h.setLink lk x).lanes = h.lanes := rfl
@[simp] theorem Hw.setLink_ctxs (h : Hw) (lk : Nat) (x : LinkSt) : (h.setLink lk x).ctxs = h.ctxs := rfl
@[simp] theorem Hw.setLink_queues (h : Hw) (lk : Nat) (x : LinkSt) : (h.setLink lk x).queues = h.queues := rfl
@[simp] theorem Hw.setLink_mreqs (h : Hw) (lk : Nat) (x : LinkSt) : (h.setLink lk x).mreqs = h.mreqs := rfl
@[simp] theorem Hw.setLink_sresp (h : Hw) (lk : Nat) (x : LinkSt) : (h.setLink lk x).sresp = h.sresp := rfl
@[simp] theorem Hw.setLink_out (h : Hw) (lk : Nat) (x : LinkSt) : (h.setLink lk x).out = h.out := rfl
@[simp] theorem Hw.setLink_scred (h : Hw) (lk : Nat) (x : LinkSt) : (h.setLink lk x).scred = h.scred := rfl
@[simp] theorem Hw.setLink_retired (h : Hw) (lk : Nat) (x : LinkSt) : (h.setLink lk x).retired = h.retired := rfl
@[simp] theorem Hw.setLink_hpAcc (h : Hw) (lk : Nat) (x : LinkSt) : (h.setLink lk x).hpAcc = h.hpAcc := rfl
@[simp] theorem Hw.setLink_xlts (h : Hw) (lk : Nat) (x : LinkSt) : (h.setLink lk x).xlts = h.xlts := rfl
@[simp] theorem Hw.setLink_irqAge (h : Hw) (lk : Nat) (x : LinkSt) : (h.setLink lk x).irqAge = h.irqAge := rfl
@[simp] theorem Hw.setLink_irqHoff (h : Hw) (lk : Nat) (x : LinkSt) : (h.setLink lk x).irqHoff = h.irqHoff := rfl
@[simp] theorem Hw.setLink_irqIn (h : Hw) (lk : Nat) (x : LinkSt) : (h.setLink lk x).irqIn = h.irqIn := rfl
@[simp] theorem Hw.setLink_tmrs (h : Hw) (lk : Nat) (x : LinkSt) : (h.setLink lk x).tmrs = h.tmrs := rfl
@[simp] theorem Hw.setLink_tmrLink (h : Hw) (lk : Nat) (x : LinkSt) : (h.setLink lk x).tmrLink = h.tmrLink := rfl
@[simp] theorem Hw.setLink_tgate (h : Hw) (lk : Nat) (x : LinkSt) : (h.setLink lk x).tgate = h.tgate := rfl
@[simp] theorem Hw.setLink_snaps (h : Hw) (lk : Nat) (x : LinkSt) : (h.setLink lk x).snaps = h.snaps := rfl
@[simp] theorem Hw.setLink_wdtLim (h : Hw) (lk : Nat) (x : LinkSt) : (h.setLink lk x).wdtLim = h.wdtLim := rfl
@[simp] theorem Hw.setLink_tb (h : Hw) (lk : Nat) (x : LinkSt) : (h.setLink lk x).tb = h.tb := rfl
@[simp] theorem Hw.setLink_beatDiv (h : Hw) (lk : Nat) (x : LinkSt) : (h.setLink lk x).beatDiv = h.beatDiv := rfl
@[simp] theorem Hw.setLink_lchKey (h : Hw) (lk : Nat) (x : LinkSt) : (h.setLink lk x).lchKey = h.lchKey := rfl
@[simp] theorem Hw.setLink_lchArm (h : Hw) (lk : Nat) (x : LinkSt) : (h.setLink lk x).lchArm = h.lchArm := rfl
@[simp] theorem Hw.setLink_lchSalt (h : Hw) (lk : Nat) (x : LinkSt) : (h.setLink lk x).lchSalt = h.lchSalt := rfl
@[simp] theorem Hw.setLink_lchExp (h : Hw) (lk : Nat) (x : LinkSt) : (h.setLink lk x).lchExp = h.lchExp := rfl
@[simp] theorem Hw.setLink_boot (h : Hw) (lk : Nat) (x : LinkSt) : (h.setLink lk x).boot = h.boot := rfl
@[simp] theorem Hw.setLink_dbg (h : Hw) (lk : Nat) (x : LinkSt) : (h.setLink lk x).dbg = h.dbg := rfl
@[simp] theorem Hw.setLink_trace (h : Hw) (lk : Nat) (x : LinkSt) : (h.setLink lk x).trace = h.trace := rfl
@[simp] theorem Hw.setLink_pwr (h : Hw) (lk : Nat) (x : LinkSt) : (h.setLink lk x).pwr = h.pwr := rfl
@[simp] theorem Hw.setLink_recs (h : Hw) (lk : Nat) (x : LinkSt) : (h.setLink lk x).recs = h.recs := rfl
@[simp] theorem Hw.setLink_wearBeats (h : Hw) (lk : Nat) (x : LinkSt) : (h.setLink lk x).wearBeats = h.wearBeats := rfl
@[simp] theorem Hw.setLink_wear (h : Hw) (lk : Nat) (x : LinkSt) : (h.setLink lk x).wear = h.wear := rfl
@[simp] theorem Hw.setLink_porN (h : Hw) (lk : Nat) (x : LinkSt) : (h.setLink lk x).porN = h.porN := rfl
@[simp] theorem Hw.setLink_rstN (h : Hw) (lk : Nat) (x : LinkSt) : (h.setLink lk x).rstN = h.rstN := rfl
@[simp] theorem Hw.setLink_testEn (h : Hw) (lk : Nat) (x : LinkSt) : (h.setLink lk x).testEn = h.testEn := rfl
@[simp] theorem Hw.setLink_clkStop (h : Hw) (lk : Nat) (x : LinkSt) : (h.setLink lk x).clkStop = h.clkStop := rfl
@[simp] theorem Hw.setLink_pllLost (h : Hw) (lk : Nat) (x : LinkSt) : (h.setLink lk x).pllLost = h.pllLost := rfl
@[simp] theorem Hw.setLink_pllAt (h : Hw) (lk : Nat) (x : LinkSt) : (h.setLink lk x).pllAt = h.pllAt := rfl
@[simp] theorem Hw.setLink_busRd (h : Hw) (lk : Nat) (x : LinkSt) : (h.setLink lk x).busRd = h.busRd := rfl
@[simp] theorem Hw.setLink_seq (h : Hw) (lk : Nat) (x : LinkSt) : (h.setLink lk x).seq = h.seq := rfl
@[simp] theorem Hw.setLink_free (h : Hw) (lk : Nat) (x : LinkSt) : (h.setLink lk x).free = h.free := rfl

@[simp] theorem Hw.setLane_cfg (h : Hw) (l : Nat) (x : LaneSt) : (h.setLane l x).cfg = h.cfg := rfl
@[simp] theorem Hw.setLane_regs (h : Hw) (l : Nat) (x : LaneSt) : (h.setLane l x).regs = h.regs := rfl
@[simp] theorem Hw.setLane_mem (h : Hw) (l : Nat) (x : LaneSt) : (h.setLane l x).mem = h.mem := rfl
@[simp] theorem Hw.setLane_marked (h : Hw) (l : Nat) (x : LaneSt) : (h.setLane l x).marked = h.marked := rfl
@[simp] theorem Hw.setLane_undefBank (h : Hw) (l : Nat) (x : LaneSt) : (h.setLane l x).undefBank = h.undefBank := rfl
@[simp] theorem Hw.setLane_defd (h : Hw) (l : Nat) (x : LaneSt) : (h.setLane l x).defd = h.defd := rfl
@[simp] theorem Hw.setLane_mats (h : Hw) (l : Nat) (x : LaneSt) : (h.setLane l x).mats = h.mats := rfl
@[simp] theorem Hw.setLane_rmap (h : Hw) (l : Nat) (x : LaneSt) : (h.setLane l x).rmap = h.rmap := rfl
@[simp] theorem Hw.setLane_matResp (h : Hw) (l : Nat) (x : LaneSt) : (h.setLane l x).matResp = h.matResp := rfl
@[simp] theorem Hw.setLane_rgnLogs (h : Hw) (l : Nat) (x : LaneSt) : (h.setLane l x).rgnLogs = h.rgnLogs := rfl
@[simp] theorem Hw.setLane_meuLogs (h : Hw) (l : Nat) (x : LaneSt) : (h.setLane l x).meuLogs = h.meuLogs := rfl
@[simp] theorem Hw.setLane_fronds (h : Hw) (l : Nat) (x : LaneSt) : (h.setLane l x).fronds = h.fronds := rfl
@[simp] theorem Hw.setLane_scratch (h : Hw) (l : Nat) (x : LaneSt) : (h.setLane l x).scratch = h.scratch := rfl
@[simp] theorem Hw.setLane_csRam (h : Hw) (l : Nat) (x : LaneSt) : (h.setLane l x).csRam = h.csRam := rfl
@[simp] theorem Hw.setLane_mbxK (h : Hw) (l : Nat) (x : LaneSt) : (h.setLane l x).mbxK = h.mbxK := rfl
@[simp] theorem Hw.setLane_mbxT (h : Hw) (l : Nat) (x : LaneSt) : (h.setLane l x).mbxT = h.mbxT := rfl
@[simp] theorem Hw.setLane_mgmtQ (h : Hw) (l : Nat) (x : LaneSt) : (h.setLane l x).mgmtQ = h.mgmtQ := rfl
@[simp] theorem Hw.setLane_svcQ (h : Hw) (l : Nat) (x : LaneSt) : (h.setLane l x).svcQ = h.svcQ := rfl
@[simp] theorem Hw.setLane_svcTaken (h : Hw) (l : Nat) (x : LaneSt) : (h.setLane l x).svcTaken = h.svcTaken := rfl
@[simp] theorem Hw.setLane_chains (h : Hw) (l : Nat) (x : LaneSt) : (h.setLane l x).chains = h.chains := rfl
@[simp] theorem Hw.setLane_links (h : Hw) (l : Nat) (x : LaneSt) : (h.setLane l x).links = h.links := rfl
@[simp] theorem Hw.setLane_ctxs (h : Hw) (l : Nat) (x : LaneSt) : (h.setLane l x).ctxs = h.ctxs := rfl
@[simp] theorem Hw.setLane_queues (h : Hw) (l : Nat) (x : LaneSt) : (h.setLane l x).queues = h.queues := rfl
@[simp] theorem Hw.setLane_mreqs (h : Hw) (l : Nat) (x : LaneSt) : (h.setLane l x).mreqs = h.mreqs := rfl
@[simp] theorem Hw.setLane_sresp (h : Hw) (l : Nat) (x : LaneSt) : (h.setLane l x).sresp = h.sresp := rfl
@[simp] theorem Hw.setLane_out (h : Hw) (l : Nat) (x : LaneSt) : (h.setLane l x).out = h.out := rfl
@[simp] theorem Hw.setLane_scred (h : Hw) (l : Nat) (x : LaneSt) : (h.setLane l x).scred = h.scred := rfl
@[simp] theorem Hw.setLane_retired (h : Hw) (l : Nat) (x : LaneSt) : (h.setLane l x).retired = h.retired := rfl
@[simp] theorem Hw.setLane_hpAcc (h : Hw) (l : Nat) (x : LaneSt) : (h.setLane l x).hpAcc = h.hpAcc := rfl
@[simp] theorem Hw.setLane_xlts (h : Hw) (l : Nat) (x : LaneSt) : (h.setLane l x).xlts = h.xlts := rfl
@[simp] theorem Hw.setLane_irqAge (h : Hw) (l : Nat) (x : LaneSt) : (h.setLane l x).irqAge = h.irqAge := rfl
@[simp] theorem Hw.setLane_irqHoff (h : Hw) (l : Nat) (x : LaneSt) : (h.setLane l x).irqHoff = h.irqHoff := rfl
@[simp] theorem Hw.setLane_irqIn (h : Hw) (l : Nat) (x : LaneSt) : (h.setLane l x).irqIn = h.irqIn := rfl
@[simp] theorem Hw.setLane_tmrs (h : Hw) (l : Nat) (x : LaneSt) : (h.setLane l x).tmrs = h.tmrs := rfl
@[simp] theorem Hw.setLane_tmrLink (h : Hw) (l : Nat) (x : LaneSt) : (h.setLane l x).tmrLink = h.tmrLink := rfl
@[simp] theorem Hw.setLane_tgate (h : Hw) (l : Nat) (x : LaneSt) : (h.setLane l x).tgate = h.tgate := rfl
@[simp] theorem Hw.setLane_snaps (h : Hw) (l : Nat) (x : LaneSt) : (h.setLane l x).snaps = h.snaps := rfl
@[simp] theorem Hw.setLane_wdtLim (h : Hw) (l : Nat) (x : LaneSt) : (h.setLane l x).wdtLim = h.wdtLim := rfl
@[simp] theorem Hw.setLane_tb (h : Hw) (l : Nat) (x : LaneSt) : (h.setLane l x).tb = h.tb := rfl
@[simp] theorem Hw.setLane_beatDiv (h : Hw) (l : Nat) (x : LaneSt) : (h.setLane l x).beatDiv = h.beatDiv := rfl
@[simp] theorem Hw.setLane_lchKey (h : Hw) (l : Nat) (x : LaneSt) : (h.setLane l x).lchKey = h.lchKey := rfl
@[simp] theorem Hw.setLane_lchArm (h : Hw) (l : Nat) (x : LaneSt) : (h.setLane l x).lchArm = h.lchArm := rfl
@[simp] theorem Hw.setLane_lchSalt (h : Hw) (l : Nat) (x : LaneSt) : (h.setLane l x).lchSalt = h.lchSalt := rfl
@[simp] theorem Hw.setLane_lchExp (h : Hw) (l : Nat) (x : LaneSt) : (h.setLane l x).lchExp = h.lchExp := rfl
@[simp] theorem Hw.setLane_boot (h : Hw) (l : Nat) (x : LaneSt) : (h.setLane l x).boot = h.boot := rfl
@[simp] theorem Hw.setLane_dbg (h : Hw) (l : Nat) (x : LaneSt) : (h.setLane l x).dbg = h.dbg := rfl
@[simp] theorem Hw.setLane_trace (h : Hw) (l : Nat) (x : LaneSt) : (h.setLane l x).trace = h.trace := rfl
@[simp] theorem Hw.setLane_pwr (h : Hw) (l : Nat) (x : LaneSt) : (h.setLane l x).pwr = h.pwr := rfl
@[simp] theorem Hw.setLane_recs (h : Hw) (l : Nat) (x : LaneSt) : (h.setLane l x).recs = h.recs := rfl
@[simp] theorem Hw.setLane_wearBeats (h : Hw) (l : Nat) (x : LaneSt) : (h.setLane l x).wearBeats = h.wearBeats := rfl
@[simp] theorem Hw.setLane_wear (h : Hw) (l : Nat) (x : LaneSt) : (h.setLane l x).wear = h.wear := rfl
@[simp] theorem Hw.setLane_porN (h : Hw) (l : Nat) (x : LaneSt) : (h.setLane l x).porN = h.porN := rfl
@[simp] theorem Hw.setLane_rstN (h : Hw) (l : Nat) (x : LaneSt) : (h.setLane l x).rstN = h.rstN := rfl
@[simp] theorem Hw.setLane_testEn (h : Hw) (l : Nat) (x : LaneSt) : (h.setLane l x).testEn = h.testEn := rfl
@[simp] theorem Hw.setLane_clkStop (h : Hw) (l : Nat) (x : LaneSt) : (h.setLane l x).clkStop = h.clkStop := rfl
@[simp] theorem Hw.setLane_pllLost (h : Hw) (l : Nat) (x : LaneSt) : (h.setLane l x).pllLost = h.pllLost := rfl
@[simp] theorem Hw.setLane_pllAt (h : Hw) (l : Nat) (x : LaneSt) : (h.setLane l x).pllAt = h.pllAt := rfl
@[simp] theorem Hw.setLane_busRd (h : Hw) (l : Nat) (x : LaneSt) : (h.setLane l x).busRd = h.busRd := rfl
@[simp] theorem Hw.setLane_seq (h : Hw) (l : Nat) (x : LaneSt) : (h.setLane l x).seq = h.seq := rfl
@[simp] theorem Hw.setLane_free (h : Hw) (l : Nat) (x : LaneSt) : (h.setLane l x).free = h.free := rfl

@[simp] theorem Hw.setCtx_cfg (h : Hw) (n : Nat) (x : CtxSt) : (h.setCtx n x).cfg = h.cfg := rfl
@[simp] theorem Hw.setCtx_regs (h : Hw) (n : Nat) (x : CtxSt) : (h.setCtx n x).regs = h.regs := rfl
@[simp] theorem Hw.setCtx_mem (h : Hw) (n : Nat) (x : CtxSt) : (h.setCtx n x).mem = h.mem := rfl
@[simp] theorem Hw.setCtx_marked (h : Hw) (n : Nat) (x : CtxSt) : (h.setCtx n x).marked = h.marked := rfl
@[simp] theorem Hw.setCtx_undefBank (h : Hw) (n : Nat) (x : CtxSt) : (h.setCtx n x).undefBank = h.undefBank := rfl
@[simp] theorem Hw.setCtx_defd (h : Hw) (n : Nat) (x : CtxSt) : (h.setCtx n x).defd = h.defd := rfl
@[simp] theorem Hw.setCtx_mats (h : Hw) (n : Nat) (x : CtxSt) : (h.setCtx n x).mats = h.mats := rfl
@[simp] theorem Hw.setCtx_rmap (h : Hw) (n : Nat) (x : CtxSt) : (h.setCtx n x).rmap = h.rmap := rfl
@[simp] theorem Hw.setCtx_matResp (h : Hw) (n : Nat) (x : CtxSt) : (h.setCtx n x).matResp = h.matResp := rfl
@[simp] theorem Hw.setCtx_rgnLogs (h : Hw) (n : Nat) (x : CtxSt) : (h.setCtx n x).rgnLogs = h.rgnLogs := rfl
@[simp] theorem Hw.setCtx_meuLogs (h : Hw) (n : Nat) (x : CtxSt) : (h.setCtx n x).meuLogs = h.meuLogs := rfl
@[simp] theorem Hw.setCtx_fronds (h : Hw) (n : Nat) (x : CtxSt) : (h.setCtx n x).fronds = h.fronds := rfl
@[simp] theorem Hw.setCtx_scratch (h : Hw) (n : Nat) (x : CtxSt) : (h.setCtx n x).scratch = h.scratch := rfl
@[simp] theorem Hw.setCtx_csRam (h : Hw) (n : Nat) (x : CtxSt) : (h.setCtx n x).csRam = h.csRam := rfl
@[simp] theorem Hw.setCtx_mbxK (h : Hw) (n : Nat) (x : CtxSt) : (h.setCtx n x).mbxK = h.mbxK := rfl
@[simp] theorem Hw.setCtx_mbxT (h : Hw) (n : Nat) (x : CtxSt) : (h.setCtx n x).mbxT = h.mbxT := rfl
@[simp] theorem Hw.setCtx_mgmtQ (h : Hw) (n : Nat) (x : CtxSt) : (h.setCtx n x).mgmtQ = h.mgmtQ := rfl
@[simp] theorem Hw.setCtx_svcQ (h : Hw) (n : Nat) (x : CtxSt) : (h.setCtx n x).svcQ = h.svcQ := rfl
@[simp] theorem Hw.setCtx_svcTaken (h : Hw) (n : Nat) (x : CtxSt) : (h.setCtx n x).svcTaken = h.svcTaken := rfl
@[simp] theorem Hw.setCtx_chains (h : Hw) (n : Nat) (x : CtxSt) : (h.setCtx n x).chains = h.chains := rfl
@[simp] theorem Hw.setCtx_links (h : Hw) (n : Nat) (x : CtxSt) : (h.setCtx n x).links = h.links := rfl
@[simp] theorem Hw.setCtx_lanes (h : Hw) (n : Nat) (x : CtxSt) : (h.setCtx n x).lanes = h.lanes := rfl
@[simp] theorem Hw.setCtx_queues (h : Hw) (n : Nat) (x : CtxSt) : (h.setCtx n x).queues = h.queues := rfl
@[simp] theorem Hw.setCtx_mreqs (h : Hw) (n : Nat) (x : CtxSt) : (h.setCtx n x).mreqs = h.mreqs := rfl
@[simp] theorem Hw.setCtx_sresp (h : Hw) (n : Nat) (x : CtxSt) : (h.setCtx n x).sresp = h.sresp := rfl
@[simp] theorem Hw.setCtx_out (h : Hw) (n : Nat) (x : CtxSt) : (h.setCtx n x).out = h.out := rfl
@[simp] theorem Hw.setCtx_scred (h : Hw) (n : Nat) (x : CtxSt) : (h.setCtx n x).scred = h.scred := rfl
@[simp] theorem Hw.setCtx_retired (h : Hw) (n : Nat) (x : CtxSt) : (h.setCtx n x).retired = h.retired := rfl
@[simp] theorem Hw.setCtx_hpAcc (h : Hw) (n : Nat) (x : CtxSt) : (h.setCtx n x).hpAcc = h.hpAcc := rfl
@[simp] theorem Hw.setCtx_xlts (h : Hw) (n : Nat) (x : CtxSt) : (h.setCtx n x).xlts = h.xlts := rfl
@[simp] theorem Hw.setCtx_irqAge (h : Hw) (n : Nat) (x : CtxSt) : (h.setCtx n x).irqAge = h.irqAge := rfl
@[simp] theorem Hw.setCtx_irqHoff (h : Hw) (n : Nat) (x : CtxSt) : (h.setCtx n x).irqHoff = h.irqHoff := rfl
@[simp] theorem Hw.setCtx_irqIn (h : Hw) (n : Nat) (x : CtxSt) : (h.setCtx n x).irqIn = h.irqIn := rfl
@[simp] theorem Hw.setCtx_tmrs (h : Hw) (n : Nat) (x : CtxSt) : (h.setCtx n x).tmrs = h.tmrs := rfl
@[simp] theorem Hw.setCtx_tmrLink (h : Hw) (n : Nat) (x : CtxSt) : (h.setCtx n x).tmrLink = h.tmrLink := rfl
@[simp] theorem Hw.setCtx_tgate (h : Hw) (n : Nat) (x : CtxSt) : (h.setCtx n x).tgate = h.tgate := rfl
@[simp] theorem Hw.setCtx_snaps (h : Hw) (n : Nat) (x : CtxSt) : (h.setCtx n x).snaps = h.snaps := rfl
@[simp] theorem Hw.setCtx_wdtLim (h : Hw) (n : Nat) (x : CtxSt) : (h.setCtx n x).wdtLim = h.wdtLim := rfl
@[simp] theorem Hw.setCtx_tb (h : Hw) (n : Nat) (x : CtxSt) : (h.setCtx n x).tb = h.tb := rfl
@[simp] theorem Hw.setCtx_beatDiv (h : Hw) (n : Nat) (x : CtxSt) : (h.setCtx n x).beatDiv = h.beatDiv := rfl
@[simp] theorem Hw.setCtx_lchKey (h : Hw) (n : Nat) (x : CtxSt) : (h.setCtx n x).lchKey = h.lchKey := rfl
@[simp] theorem Hw.setCtx_lchArm (h : Hw) (n : Nat) (x : CtxSt) : (h.setCtx n x).lchArm = h.lchArm := rfl
@[simp] theorem Hw.setCtx_lchSalt (h : Hw) (n : Nat) (x : CtxSt) : (h.setCtx n x).lchSalt = h.lchSalt := rfl
@[simp] theorem Hw.setCtx_lchExp (h : Hw) (n : Nat) (x : CtxSt) : (h.setCtx n x).lchExp = h.lchExp := rfl
@[simp] theorem Hw.setCtx_boot (h : Hw) (n : Nat) (x : CtxSt) : (h.setCtx n x).boot = h.boot := rfl
@[simp] theorem Hw.setCtx_dbg (h : Hw) (n : Nat) (x : CtxSt) : (h.setCtx n x).dbg = h.dbg := rfl
@[simp] theorem Hw.setCtx_trace (h : Hw) (n : Nat) (x : CtxSt) : (h.setCtx n x).trace = h.trace := rfl
@[simp] theorem Hw.setCtx_pwr (h : Hw) (n : Nat) (x : CtxSt) : (h.setCtx n x).pwr = h.pwr := rfl
@[simp] theorem Hw.setCtx_recs (h : Hw) (n : Nat) (x : CtxSt) : (h.setCtx n x).recs = h.recs := rfl
@[simp] theorem Hw.setCtx_wearBeats (h : Hw) (n : Nat) (x : CtxSt) : (h.setCtx n x).wearBeats = h.wearBeats := rfl
@[simp] theorem Hw.setCtx_wear (h : Hw) (n : Nat) (x : CtxSt) : (h.setCtx n x).wear = h.wear := rfl
@[simp] theorem Hw.setCtx_porN (h : Hw) (n : Nat) (x : CtxSt) : (h.setCtx n x).porN = h.porN := rfl
@[simp] theorem Hw.setCtx_rstN (h : Hw) (n : Nat) (x : CtxSt) : (h.setCtx n x).rstN = h.rstN := rfl
@[simp] theorem Hw.setCtx_testEn (h : Hw) (n : Nat) (x : CtxSt) : (h.setCtx n x).testEn = h.testEn := rfl
@[simp] theorem Hw.setCtx_clkStop (h : Hw) (n : Nat) (x : CtxSt) : (h.setCtx n x).clkStop = h.clkStop := rfl
@[simp] theorem Hw.setCtx_pllLost (h : Hw) (n : Nat) (x : CtxSt) : (h.setCtx n x).pllLost = h.pllLost := rfl
@[simp] theorem Hw.setCtx_pllAt (h : Hw) (n : Nat) (x : CtxSt) : (h.setCtx n x).pllAt = h.pllAt := rfl
@[simp] theorem Hw.setCtx_busRd (h : Hw) (n : Nat) (x : CtxSt) : (h.setCtx n x).busRd = h.busRd := rfl
@[simp] theorem Hw.setCtx_seq (h : Hw) (n : Nat) (x : CtxSt) : (h.setCtx n x).seq = h.seq := rfl
@[simp] theorem Hw.setCtx_free (h : Hw) (n : Nat) (x : CtxSt) : (h.setCtx n x).free = h.free := rfl

@[simp] theorem Hw.setPw_cfg (h : Hw) (r : Nat) (x : PwrRgn) : (h.setPw r x).cfg = h.cfg := rfl
@[simp] theorem Hw.setPw_regs (h : Hw) (r : Nat) (x : PwrRgn) : (h.setPw r x).regs = h.regs := rfl
@[simp] theorem Hw.setPw_mem (h : Hw) (r : Nat) (x : PwrRgn) : (h.setPw r x).mem = h.mem := rfl
@[simp] theorem Hw.setPw_marked (h : Hw) (r : Nat) (x : PwrRgn) : (h.setPw r x).marked = h.marked := rfl
@[simp] theorem Hw.setPw_undefBank (h : Hw) (r : Nat) (x : PwrRgn) : (h.setPw r x).undefBank = h.undefBank := rfl
@[simp] theorem Hw.setPw_defd (h : Hw) (r : Nat) (x : PwrRgn) : (h.setPw r x).defd = h.defd := rfl
@[simp] theorem Hw.setPw_mats (h : Hw) (r : Nat) (x : PwrRgn) : (h.setPw r x).mats = h.mats := rfl
@[simp] theorem Hw.setPw_rmap (h : Hw) (r : Nat) (x : PwrRgn) : (h.setPw r x).rmap = h.rmap := rfl
@[simp] theorem Hw.setPw_matResp (h : Hw) (r : Nat) (x : PwrRgn) : (h.setPw r x).matResp = h.matResp := rfl
@[simp] theorem Hw.setPw_rgnLogs (h : Hw) (r : Nat) (x : PwrRgn) : (h.setPw r x).rgnLogs = h.rgnLogs := rfl
@[simp] theorem Hw.setPw_meuLogs (h : Hw) (r : Nat) (x : PwrRgn) : (h.setPw r x).meuLogs = h.meuLogs := rfl
@[simp] theorem Hw.setPw_fronds (h : Hw) (r : Nat) (x : PwrRgn) : (h.setPw r x).fronds = h.fronds := rfl
@[simp] theorem Hw.setPw_scratch (h : Hw) (r : Nat) (x : PwrRgn) : (h.setPw r x).scratch = h.scratch := rfl
@[simp] theorem Hw.setPw_csRam (h : Hw) (r : Nat) (x : PwrRgn) : (h.setPw r x).csRam = h.csRam := rfl
@[simp] theorem Hw.setPw_mbxK (h : Hw) (r : Nat) (x : PwrRgn) : (h.setPw r x).mbxK = h.mbxK := rfl
@[simp] theorem Hw.setPw_mbxT (h : Hw) (r : Nat) (x : PwrRgn) : (h.setPw r x).mbxT = h.mbxT := rfl
@[simp] theorem Hw.setPw_mgmtQ (h : Hw) (r : Nat) (x : PwrRgn) : (h.setPw r x).mgmtQ = h.mgmtQ := rfl
@[simp] theorem Hw.setPw_svcQ (h : Hw) (r : Nat) (x : PwrRgn) : (h.setPw r x).svcQ = h.svcQ := rfl
@[simp] theorem Hw.setPw_svcTaken (h : Hw) (r : Nat) (x : PwrRgn) : (h.setPw r x).svcTaken = h.svcTaken := rfl
@[simp] theorem Hw.setPw_chains (h : Hw) (r : Nat) (x : PwrRgn) : (h.setPw r x).chains = h.chains := rfl
@[simp] theorem Hw.setPw_links (h : Hw) (r : Nat) (x : PwrRgn) : (h.setPw r x).links = h.links := rfl
@[simp] theorem Hw.setPw_lanes (h : Hw) (r : Nat) (x : PwrRgn) : (h.setPw r x).lanes = h.lanes := rfl
@[simp] theorem Hw.setPw_ctxs (h : Hw) (r : Nat) (x : PwrRgn) : (h.setPw r x).ctxs = h.ctxs := rfl
@[simp] theorem Hw.setPw_queues (h : Hw) (r : Nat) (x : PwrRgn) : (h.setPw r x).queues = h.queues := rfl
@[simp] theorem Hw.setPw_mreqs (h : Hw) (r : Nat) (x : PwrRgn) : (h.setPw r x).mreqs = h.mreqs := rfl
@[simp] theorem Hw.setPw_sresp (h : Hw) (r : Nat) (x : PwrRgn) : (h.setPw r x).sresp = h.sresp := rfl
@[simp] theorem Hw.setPw_out (h : Hw) (r : Nat) (x : PwrRgn) : (h.setPw r x).out = h.out := rfl
@[simp] theorem Hw.setPw_scred (h : Hw) (r : Nat) (x : PwrRgn) : (h.setPw r x).scred = h.scred := rfl
@[simp] theorem Hw.setPw_retired (h : Hw) (r : Nat) (x : PwrRgn) : (h.setPw r x).retired = h.retired := rfl
@[simp] theorem Hw.setPw_hpAcc (h : Hw) (r : Nat) (x : PwrRgn) : (h.setPw r x).hpAcc = h.hpAcc := rfl
@[simp] theorem Hw.setPw_xlts (h : Hw) (r : Nat) (x : PwrRgn) : (h.setPw r x).xlts = h.xlts := rfl
@[simp] theorem Hw.setPw_irqAge (h : Hw) (r : Nat) (x : PwrRgn) : (h.setPw r x).irqAge = h.irqAge := rfl
@[simp] theorem Hw.setPw_irqHoff (h : Hw) (r : Nat) (x : PwrRgn) : (h.setPw r x).irqHoff = h.irqHoff := rfl
@[simp] theorem Hw.setPw_irqIn (h : Hw) (r : Nat) (x : PwrRgn) : (h.setPw r x).irqIn = h.irqIn := rfl
@[simp] theorem Hw.setPw_tmrs (h : Hw) (r : Nat) (x : PwrRgn) : (h.setPw r x).tmrs = h.tmrs := rfl
@[simp] theorem Hw.setPw_tmrLink (h : Hw) (r : Nat) (x : PwrRgn) : (h.setPw r x).tmrLink = h.tmrLink := rfl
@[simp] theorem Hw.setPw_tgate (h : Hw) (r : Nat) (x : PwrRgn) : (h.setPw r x).tgate = h.tgate := rfl
@[simp] theorem Hw.setPw_snaps (h : Hw) (r : Nat) (x : PwrRgn) : (h.setPw r x).snaps = h.snaps := rfl
@[simp] theorem Hw.setPw_wdtLim (h : Hw) (r : Nat) (x : PwrRgn) : (h.setPw r x).wdtLim = h.wdtLim := rfl
@[simp] theorem Hw.setPw_tb (h : Hw) (r : Nat) (x : PwrRgn) : (h.setPw r x).tb = h.tb := rfl
@[simp] theorem Hw.setPw_beatDiv (h : Hw) (r : Nat) (x : PwrRgn) : (h.setPw r x).beatDiv = h.beatDiv := rfl
@[simp] theorem Hw.setPw_lchKey (h : Hw) (r : Nat) (x : PwrRgn) : (h.setPw r x).lchKey = h.lchKey := rfl
@[simp] theorem Hw.setPw_lchArm (h : Hw) (r : Nat) (x : PwrRgn) : (h.setPw r x).lchArm = h.lchArm := rfl
@[simp] theorem Hw.setPw_lchSalt (h : Hw) (r : Nat) (x : PwrRgn) : (h.setPw r x).lchSalt = h.lchSalt := rfl
@[simp] theorem Hw.setPw_lchExp (h : Hw) (r : Nat) (x : PwrRgn) : (h.setPw r x).lchExp = h.lchExp := rfl
@[simp] theorem Hw.setPw_boot (h : Hw) (r : Nat) (x : PwrRgn) : (h.setPw r x).boot = h.boot := rfl
@[simp] theorem Hw.setPw_dbg (h : Hw) (r : Nat) (x : PwrRgn) : (h.setPw r x).dbg = h.dbg := rfl
@[simp] theorem Hw.setPw_trace (h : Hw) (r : Nat) (x : PwrRgn) : (h.setPw r x).trace = h.trace := rfl
@[simp] theorem Hw.setPw_recs (h : Hw) (r : Nat) (x : PwrRgn) : (h.setPw r x).recs = h.recs := rfl
@[simp] theorem Hw.setPw_wearBeats (h : Hw) (r : Nat) (x : PwrRgn) : (h.setPw r x).wearBeats = h.wearBeats := rfl
@[simp] theorem Hw.setPw_wear (h : Hw) (r : Nat) (x : PwrRgn) : (h.setPw r x).wear = h.wear := rfl
@[simp] theorem Hw.setPw_porN (h : Hw) (r : Nat) (x : PwrRgn) : (h.setPw r x).porN = h.porN := rfl
@[simp] theorem Hw.setPw_rstN (h : Hw) (r : Nat) (x : PwrRgn) : (h.setPw r x).rstN = h.rstN := rfl
@[simp] theorem Hw.setPw_testEn (h : Hw) (r : Nat) (x : PwrRgn) : (h.setPw r x).testEn = h.testEn := rfl
@[simp] theorem Hw.setPw_clkStop (h : Hw) (r : Nat) (x : PwrRgn) : (h.setPw r x).clkStop = h.clkStop := rfl
@[simp] theorem Hw.setPw_pllLost (h : Hw) (r : Nat) (x : PwrRgn) : (h.setPw r x).pllLost = h.pllLost := rfl
@[simp] theorem Hw.setPw_pllAt (h : Hw) (r : Nat) (x : PwrRgn) : (h.setPw r x).pllAt = h.pllAt := rfl
@[simp] theorem Hw.setPw_busRd (h : Hw) (r : Nat) (x : PwrRgn) : (h.setPw r x).busRd = h.busRd := rfl
@[simp] theorem Hw.setPw_seq (h : Hw) (r : Nat) (x : PwrRgn) : (h.setPw r x).seq = h.seq := rfl
@[simp] theorem Hw.setPw_free (h : Hw) (r : Nat) (x : PwrRgn) : (h.setPw r x).free = h.free := rfl

@[simp] theorem Hw.setQueue_cfg (h : Hw) (q : Nat) (x : QueueSt) : (h.setQueue q x).cfg = h.cfg := rfl
@[simp] theorem Hw.setQueue_regs (h : Hw) (q : Nat) (x : QueueSt) : (h.setQueue q x).regs = h.regs := rfl
@[simp] theorem Hw.setQueue_mem (h : Hw) (q : Nat) (x : QueueSt) : (h.setQueue q x).mem = h.mem := rfl
@[simp] theorem Hw.setQueue_marked (h : Hw) (q : Nat) (x : QueueSt) : (h.setQueue q x).marked = h.marked := rfl
@[simp] theorem Hw.setQueue_undefBank (h : Hw) (q : Nat) (x : QueueSt) : (h.setQueue q x).undefBank = h.undefBank := rfl
@[simp] theorem Hw.setQueue_defd (h : Hw) (q : Nat) (x : QueueSt) : (h.setQueue q x).defd = h.defd := rfl
@[simp] theorem Hw.setQueue_mats (h : Hw) (q : Nat) (x : QueueSt) : (h.setQueue q x).mats = h.mats := rfl
@[simp] theorem Hw.setQueue_rmap (h : Hw) (q : Nat) (x : QueueSt) : (h.setQueue q x).rmap = h.rmap := rfl
@[simp] theorem Hw.setQueue_matResp (h : Hw) (q : Nat) (x : QueueSt) : (h.setQueue q x).matResp = h.matResp := rfl
@[simp] theorem Hw.setQueue_rgnLogs (h : Hw) (q : Nat) (x : QueueSt) : (h.setQueue q x).rgnLogs = h.rgnLogs := rfl
@[simp] theorem Hw.setQueue_meuLogs (h : Hw) (q : Nat) (x : QueueSt) : (h.setQueue q x).meuLogs = h.meuLogs := rfl
@[simp] theorem Hw.setQueue_fronds (h : Hw) (q : Nat) (x : QueueSt) : (h.setQueue q x).fronds = h.fronds := rfl
@[simp] theorem Hw.setQueue_scratch (h : Hw) (q : Nat) (x : QueueSt) : (h.setQueue q x).scratch = h.scratch := rfl
@[simp] theorem Hw.setQueue_csRam (h : Hw) (q : Nat) (x : QueueSt) : (h.setQueue q x).csRam = h.csRam := rfl
@[simp] theorem Hw.setQueue_mbxK (h : Hw) (q : Nat) (x : QueueSt) : (h.setQueue q x).mbxK = h.mbxK := rfl
@[simp] theorem Hw.setQueue_mbxT (h : Hw) (q : Nat) (x : QueueSt) : (h.setQueue q x).mbxT = h.mbxT := rfl
@[simp] theorem Hw.setQueue_mgmtQ (h : Hw) (q : Nat) (x : QueueSt) : (h.setQueue q x).mgmtQ = h.mgmtQ := rfl
@[simp] theorem Hw.setQueue_svcQ (h : Hw) (q : Nat) (x : QueueSt) : (h.setQueue q x).svcQ = h.svcQ := rfl
@[simp] theorem Hw.setQueue_svcTaken (h : Hw) (q : Nat) (x : QueueSt) : (h.setQueue q x).svcTaken = h.svcTaken := rfl
@[simp] theorem Hw.setQueue_chains (h : Hw) (q : Nat) (x : QueueSt) : (h.setQueue q x).chains = h.chains := rfl
@[simp] theorem Hw.setQueue_links (h : Hw) (q : Nat) (x : QueueSt) : (h.setQueue q x).links = h.links := rfl
@[simp] theorem Hw.setQueue_lanes (h : Hw) (q : Nat) (x : QueueSt) : (h.setQueue q x).lanes = h.lanes := rfl
@[simp] theorem Hw.setQueue_ctxs (h : Hw) (q : Nat) (x : QueueSt) : (h.setQueue q x).ctxs = h.ctxs := rfl
@[simp] theorem Hw.setQueue_mreqs (h : Hw) (q : Nat) (x : QueueSt) : (h.setQueue q x).mreqs = h.mreqs := rfl
@[simp] theorem Hw.setQueue_sresp (h : Hw) (q : Nat) (x : QueueSt) : (h.setQueue q x).sresp = h.sresp := rfl
@[simp] theorem Hw.setQueue_out (h : Hw) (q : Nat) (x : QueueSt) : (h.setQueue q x).out = h.out := rfl
@[simp] theorem Hw.setQueue_scred (h : Hw) (q : Nat) (x : QueueSt) : (h.setQueue q x).scred = h.scred := rfl
@[simp] theorem Hw.setQueue_retired (h : Hw) (q : Nat) (x : QueueSt) : (h.setQueue q x).retired = h.retired := rfl
@[simp] theorem Hw.setQueue_hpAcc (h : Hw) (q : Nat) (x : QueueSt) : (h.setQueue q x).hpAcc = h.hpAcc := rfl
@[simp] theorem Hw.setQueue_xlts (h : Hw) (q : Nat) (x : QueueSt) : (h.setQueue q x).xlts = h.xlts := rfl
@[simp] theorem Hw.setQueue_irqAge (h : Hw) (q : Nat) (x : QueueSt) : (h.setQueue q x).irqAge = h.irqAge := rfl
@[simp] theorem Hw.setQueue_irqHoff (h : Hw) (q : Nat) (x : QueueSt) : (h.setQueue q x).irqHoff = h.irqHoff := rfl
@[simp] theorem Hw.setQueue_irqIn (h : Hw) (q : Nat) (x : QueueSt) : (h.setQueue q x).irqIn = h.irqIn := rfl
@[simp] theorem Hw.setQueue_tmrs (h : Hw) (q : Nat) (x : QueueSt) : (h.setQueue q x).tmrs = h.tmrs := rfl
@[simp] theorem Hw.setQueue_tmrLink (h : Hw) (q : Nat) (x : QueueSt) : (h.setQueue q x).tmrLink = h.tmrLink := rfl
@[simp] theorem Hw.setQueue_tgate (h : Hw) (q : Nat) (x : QueueSt) : (h.setQueue q x).tgate = h.tgate := rfl
@[simp] theorem Hw.setQueue_snaps (h : Hw) (q : Nat) (x : QueueSt) : (h.setQueue q x).snaps = h.snaps := rfl
@[simp] theorem Hw.setQueue_wdtLim (h : Hw) (q : Nat) (x : QueueSt) : (h.setQueue q x).wdtLim = h.wdtLim := rfl
@[simp] theorem Hw.setQueue_tb (h : Hw) (q : Nat) (x : QueueSt) : (h.setQueue q x).tb = h.tb := rfl
@[simp] theorem Hw.setQueue_beatDiv (h : Hw) (q : Nat) (x : QueueSt) : (h.setQueue q x).beatDiv = h.beatDiv := rfl
@[simp] theorem Hw.setQueue_lchKey (h : Hw) (q : Nat) (x : QueueSt) : (h.setQueue q x).lchKey = h.lchKey := rfl
@[simp] theorem Hw.setQueue_lchArm (h : Hw) (q : Nat) (x : QueueSt) : (h.setQueue q x).lchArm = h.lchArm := rfl
@[simp] theorem Hw.setQueue_lchSalt (h : Hw) (q : Nat) (x : QueueSt) : (h.setQueue q x).lchSalt = h.lchSalt := rfl
@[simp] theorem Hw.setQueue_lchExp (h : Hw) (q : Nat) (x : QueueSt) : (h.setQueue q x).lchExp = h.lchExp := rfl
@[simp] theorem Hw.setQueue_boot (h : Hw) (q : Nat) (x : QueueSt) : (h.setQueue q x).boot = h.boot := rfl
@[simp] theorem Hw.setQueue_dbg (h : Hw) (q : Nat) (x : QueueSt) : (h.setQueue q x).dbg = h.dbg := rfl
@[simp] theorem Hw.setQueue_trace (h : Hw) (q : Nat) (x : QueueSt) : (h.setQueue q x).trace = h.trace := rfl
@[simp] theorem Hw.setQueue_pwr (h : Hw) (q : Nat) (x : QueueSt) : (h.setQueue q x).pwr = h.pwr := rfl
@[simp] theorem Hw.setQueue_recs (h : Hw) (q : Nat) (x : QueueSt) : (h.setQueue q x).recs = h.recs := rfl
@[simp] theorem Hw.setQueue_wearBeats (h : Hw) (q : Nat) (x : QueueSt) : (h.setQueue q x).wearBeats = h.wearBeats := rfl
@[simp] theorem Hw.setQueue_wear (h : Hw) (q : Nat) (x : QueueSt) : (h.setQueue q x).wear = h.wear := rfl
@[simp] theorem Hw.setQueue_porN (h : Hw) (q : Nat) (x : QueueSt) : (h.setQueue q x).porN = h.porN := rfl
@[simp] theorem Hw.setQueue_rstN (h : Hw) (q : Nat) (x : QueueSt) : (h.setQueue q x).rstN = h.rstN := rfl
@[simp] theorem Hw.setQueue_testEn (h : Hw) (q : Nat) (x : QueueSt) : (h.setQueue q x).testEn = h.testEn := rfl
@[simp] theorem Hw.setQueue_clkStop (h : Hw) (q : Nat) (x : QueueSt) : (h.setQueue q x).clkStop = h.clkStop := rfl
@[simp] theorem Hw.setQueue_pllLost (h : Hw) (q : Nat) (x : QueueSt) : (h.setQueue q x).pllLost = h.pllLost := rfl
@[simp] theorem Hw.setQueue_pllAt (h : Hw) (q : Nat) (x : QueueSt) : (h.setQueue q x).pllAt = h.pllAt := rfl
@[simp] theorem Hw.setQueue_busRd (h : Hw) (q : Nat) (x : QueueSt) : (h.setQueue q x).busRd = h.busRd := rfl
@[simp] theorem Hw.setQueue_seq (h : Hw) (q : Nat) (x : QueueSt) : (h.setQueue q x).seq = h.seq := rfl
@[simp] theorem Hw.setQueue_free (h : Hw) (q : Nat) (x : QueueSt) : (h.setQueue q x).free = h.free := rfl

@[simp] theorem Hw.setRec_cfg (h : Hw) (r : Nat) (x : RecSt) : (h.setRec r x).cfg = h.cfg := rfl
@[simp] theorem Hw.setRec_regs (h : Hw) (r : Nat) (x : RecSt) : (h.setRec r x).regs = h.regs := rfl
@[simp] theorem Hw.setRec_mem (h : Hw) (r : Nat) (x : RecSt) : (h.setRec r x).mem = h.mem := rfl
@[simp] theorem Hw.setRec_marked (h : Hw) (r : Nat) (x : RecSt) : (h.setRec r x).marked = h.marked := rfl
@[simp] theorem Hw.setRec_undefBank (h : Hw) (r : Nat) (x : RecSt) : (h.setRec r x).undefBank = h.undefBank := rfl
@[simp] theorem Hw.setRec_defd (h : Hw) (r : Nat) (x : RecSt) : (h.setRec r x).defd = h.defd := rfl
@[simp] theorem Hw.setRec_mats (h : Hw) (r : Nat) (x : RecSt) : (h.setRec r x).mats = h.mats := rfl
@[simp] theorem Hw.setRec_rmap (h : Hw) (r : Nat) (x : RecSt) : (h.setRec r x).rmap = h.rmap := rfl
@[simp] theorem Hw.setRec_matResp (h : Hw) (r : Nat) (x : RecSt) : (h.setRec r x).matResp = h.matResp := rfl
@[simp] theorem Hw.setRec_rgnLogs (h : Hw) (r : Nat) (x : RecSt) : (h.setRec r x).rgnLogs = h.rgnLogs := rfl
@[simp] theorem Hw.setRec_meuLogs (h : Hw) (r : Nat) (x : RecSt) : (h.setRec r x).meuLogs = h.meuLogs := rfl
@[simp] theorem Hw.setRec_fronds (h : Hw) (r : Nat) (x : RecSt) : (h.setRec r x).fronds = h.fronds := rfl
@[simp] theorem Hw.setRec_scratch (h : Hw) (r : Nat) (x : RecSt) : (h.setRec r x).scratch = h.scratch := rfl
@[simp] theorem Hw.setRec_csRam (h : Hw) (r : Nat) (x : RecSt) : (h.setRec r x).csRam = h.csRam := rfl
@[simp] theorem Hw.setRec_mbxK (h : Hw) (r : Nat) (x : RecSt) : (h.setRec r x).mbxK = h.mbxK := rfl
@[simp] theorem Hw.setRec_mbxT (h : Hw) (r : Nat) (x : RecSt) : (h.setRec r x).mbxT = h.mbxT := rfl
@[simp] theorem Hw.setRec_mgmtQ (h : Hw) (r : Nat) (x : RecSt) : (h.setRec r x).mgmtQ = h.mgmtQ := rfl
@[simp] theorem Hw.setRec_svcQ (h : Hw) (r : Nat) (x : RecSt) : (h.setRec r x).svcQ = h.svcQ := rfl
@[simp] theorem Hw.setRec_svcTaken (h : Hw) (r : Nat) (x : RecSt) : (h.setRec r x).svcTaken = h.svcTaken := rfl
@[simp] theorem Hw.setRec_chains (h : Hw) (r : Nat) (x : RecSt) : (h.setRec r x).chains = h.chains := rfl
@[simp] theorem Hw.setRec_links (h : Hw) (r : Nat) (x : RecSt) : (h.setRec r x).links = h.links := rfl
@[simp] theorem Hw.setRec_lanes (h : Hw) (r : Nat) (x : RecSt) : (h.setRec r x).lanes = h.lanes := rfl
@[simp] theorem Hw.setRec_ctxs (h : Hw) (r : Nat) (x : RecSt) : (h.setRec r x).ctxs = h.ctxs := rfl
@[simp] theorem Hw.setRec_queues (h : Hw) (r : Nat) (x : RecSt) : (h.setRec r x).queues = h.queues := rfl
@[simp] theorem Hw.setRec_mreqs (h : Hw) (r : Nat) (x : RecSt) : (h.setRec r x).mreqs = h.mreqs := rfl
@[simp] theorem Hw.setRec_sresp (h : Hw) (r : Nat) (x : RecSt) : (h.setRec r x).sresp = h.sresp := rfl
@[simp] theorem Hw.setRec_out (h : Hw) (r : Nat) (x : RecSt) : (h.setRec r x).out = h.out := rfl
@[simp] theorem Hw.setRec_scred (h : Hw) (r : Nat) (x : RecSt) : (h.setRec r x).scred = h.scred := rfl
@[simp] theorem Hw.setRec_retired (h : Hw) (r : Nat) (x : RecSt) : (h.setRec r x).retired = h.retired := rfl
@[simp] theorem Hw.setRec_hpAcc (h : Hw) (r : Nat) (x : RecSt) : (h.setRec r x).hpAcc = h.hpAcc := rfl
@[simp] theorem Hw.setRec_xlts (h : Hw) (r : Nat) (x : RecSt) : (h.setRec r x).xlts = h.xlts := rfl
@[simp] theorem Hw.setRec_irqAge (h : Hw) (r : Nat) (x : RecSt) : (h.setRec r x).irqAge = h.irqAge := rfl
@[simp] theorem Hw.setRec_irqHoff (h : Hw) (r : Nat) (x : RecSt) : (h.setRec r x).irqHoff = h.irqHoff := rfl
@[simp] theorem Hw.setRec_irqIn (h : Hw) (r : Nat) (x : RecSt) : (h.setRec r x).irqIn = h.irqIn := rfl
@[simp] theorem Hw.setRec_tmrs (h : Hw) (r : Nat) (x : RecSt) : (h.setRec r x).tmrs = h.tmrs := rfl
@[simp] theorem Hw.setRec_tmrLink (h : Hw) (r : Nat) (x : RecSt) : (h.setRec r x).tmrLink = h.tmrLink := rfl
@[simp] theorem Hw.setRec_tgate (h : Hw) (r : Nat) (x : RecSt) : (h.setRec r x).tgate = h.tgate := rfl
@[simp] theorem Hw.setRec_snaps (h : Hw) (r : Nat) (x : RecSt) : (h.setRec r x).snaps = h.snaps := rfl
@[simp] theorem Hw.setRec_wdtLim (h : Hw) (r : Nat) (x : RecSt) : (h.setRec r x).wdtLim = h.wdtLim := rfl
@[simp] theorem Hw.setRec_tb (h : Hw) (r : Nat) (x : RecSt) : (h.setRec r x).tb = h.tb := rfl
@[simp] theorem Hw.setRec_beatDiv (h : Hw) (r : Nat) (x : RecSt) : (h.setRec r x).beatDiv = h.beatDiv := rfl
@[simp] theorem Hw.setRec_lchKey (h : Hw) (r : Nat) (x : RecSt) : (h.setRec r x).lchKey = h.lchKey := rfl
@[simp] theorem Hw.setRec_lchArm (h : Hw) (r : Nat) (x : RecSt) : (h.setRec r x).lchArm = h.lchArm := rfl
@[simp] theorem Hw.setRec_lchSalt (h : Hw) (r : Nat) (x : RecSt) : (h.setRec r x).lchSalt = h.lchSalt := rfl
@[simp] theorem Hw.setRec_lchExp (h : Hw) (r : Nat) (x : RecSt) : (h.setRec r x).lchExp = h.lchExp := rfl
@[simp] theorem Hw.setRec_boot (h : Hw) (r : Nat) (x : RecSt) : (h.setRec r x).boot = h.boot := rfl
@[simp] theorem Hw.setRec_dbg (h : Hw) (r : Nat) (x : RecSt) : (h.setRec r x).dbg = h.dbg := rfl
@[simp] theorem Hw.setRec_trace (h : Hw) (r : Nat) (x : RecSt) : (h.setRec r x).trace = h.trace := rfl
@[simp] theorem Hw.setRec_pwr (h : Hw) (r : Nat) (x : RecSt) : (h.setRec r x).pwr = h.pwr := rfl
@[simp] theorem Hw.setRec_wearBeats (h : Hw) (r : Nat) (x : RecSt) : (h.setRec r x).wearBeats = h.wearBeats := rfl
@[simp] theorem Hw.setRec_wear (h : Hw) (r : Nat) (x : RecSt) : (h.setRec r x).wear = h.wear := rfl
@[simp] theorem Hw.setRec_porN (h : Hw) (r : Nat) (x : RecSt) : (h.setRec r x).porN = h.porN := rfl
@[simp] theorem Hw.setRec_rstN (h : Hw) (r : Nat) (x : RecSt) : (h.setRec r x).rstN = h.rstN := rfl
@[simp] theorem Hw.setRec_testEn (h : Hw) (r : Nat) (x : RecSt) : (h.setRec r x).testEn = h.testEn := rfl
@[simp] theorem Hw.setRec_clkStop (h : Hw) (r : Nat) (x : RecSt) : (h.setRec r x).clkStop = h.clkStop := rfl
@[simp] theorem Hw.setRec_pllLost (h : Hw) (r : Nat) (x : RecSt) : (h.setRec r x).pllLost = h.pllLost := rfl
@[simp] theorem Hw.setRec_pllAt (h : Hw) (r : Nat) (x : RecSt) : (h.setRec r x).pllAt = h.pllAt := rfl
@[simp] theorem Hw.setRec_busRd (h : Hw) (r : Nat) (x : RecSt) : (h.setRec r x).busRd = h.busRd := rfl
@[simp] theorem Hw.setRec_seq (h : Hw) (r : Nat) (x : RecSt) : (h.setRec r x).seq = h.seq := rfl
@[simp] theorem Hw.setRec_free (h : Hw) (r : Nat) (x : RecSt) : (h.setRec r x).free = h.free := rfl

@[simp] theorem Hw.setTmr_cfg (h : Hw) (c : Nat) (x : TmrSt) : (h.setTmr c x).cfg = h.cfg := rfl
@[simp] theorem Hw.setTmr_regs (h : Hw) (c : Nat) (x : TmrSt) : (h.setTmr c x).regs = h.regs := rfl
@[simp] theorem Hw.setTmr_mem (h : Hw) (c : Nat) (x : TmrSt) : (h.setTmr c x).mem = h.mem := rfl
@[simp] theorem Hw.setTmr_marked (h : Hw) (c : Nat) (x : TmrSt) : (h.setTmr c x).marked = h.marked := rfl
@[simp] theorem Hw.setTmr_undefBank (h : Hw) (c : Nat) (x : TmrSt) : (h.setTmr c x).undefBank = h.undefBank := rfl
@[simp] theorem Hw.setTmr_defd (h : Hw) (c : Nat) (x : TmrSt) : (h.setTmr c x).defd = h.defd := rfl
@[simp] theorem Hw.setTmr_mats (h : Hw) (c : Nat) (x : TmrSt) : (h.setTmr c x).mats = h.mats := rfl
@[simp] theorem Hw.setTmr_rmap (h : Hw) (c : Nat) (x : TmrSt) : (h.setTmr c x).rmap = h.rmap := rfl
@[simp] theorem Hw.setTmr_matResp (h : Hw) (c : Nat) (x : TmrSt) : (h.setTmr c x).matResp = h.matResp := rfl
@[simp] theorem Hw.setTmr_rgnLogs (h : Hw) (c : Nat) (x : TmrSt) : (h.setTmr c x).rgnLogs = h.rgnLogs := rfl
@[simp] theorem Hw.setTmr_meuLogs (h : Hw) (c : Nat) (x : TmrSt) : (h.setTmr c x).meuLogs = h.meuLogs := rfl
@[simp] theorem Hw.setTmr_fronds (h : Hw) (c : Nat) (x : TmrSt) : (h.setTmr c x).fronds = h.fronds := rfl
@[simp] theorem Hw.setTmr_scratch (h : Hw) (c : Nat) (x : TmrSt) : (h.setTmr c x).scratch = h.scratch := rfl
@[simp] theorem Hw.setTmr_csRam (h : Hw) (c : Nat) (x : TmrSt) : (h.setTmr c x).csRam = h.csRam := rfl
@[simp] theorem Hw.setTmr_mbxK (h : Hw) (c : Nat) (x : TmrSt) : (h.setTmr c x).mbxK = h.mbxK := rfl
@[simp] theorem Hw.setTmr_mbxT (h : Hw) (c : Nat) (x : TmrSt) : (h.setTmr c x).mbxT = h.mbxT := rfl
@[simp] theorem Hw.setTmr_mgmtQ (h : Hw) (c : Nat) (x : TmrSt) : (h.setTmr c x).mgmtQ = h.mgmtQ := rfl
@[simp] theorem Hw.setTmr_svcQ (h : Hw) (c : Nat) (x : TmrSt) : (h.setTmr c x).svcQ = h.svcQ := rfl
@[simp] theorem Hw.setTmr_svcTaken (h : Hw) (c : Nat) (x : TmrSt) : (h.setTmr c x).svcTaken = h.svcTaken := rfl
@[simp] theorem Hw.setTmr_chains (h : Hw) (c : Nat) (x : TmrSt) : (h.setTmr c x).chains = h.chains := rfl
@[simp] theorem Hw.setTmr_links (h : Hw) (c : Nat) (x : TmrSt) : (h.setTmr c x).links = h.links := rfl
@[simp] theorem Hw.setTmr_lanes (h : Hw) (c : Nat) (x : TmrSt) : (h.setTmr c x).lanes = h.lanes := rfl
@[simp] theorem Hw.setTmr_ctxs (h : Hw) (c : Nat) (x : TmrSt) : (h.setTmr c x).ctxs = h.ctxs := rfl
@[simp] theorem Hw.setTmr_queues (h : Hw) (c : Nat) (x : TmrSt) : (h.setTmr c x).queues = h.queues := rfl
@[simp] theorem Hw.setTmr_mreqs (h : Hw) (c : Nat) (x : TmrSt) : (h.setTmr c x).mreqs = h.mreqs := rfl
@[simp] theorem Hw.setTmr_sresp (h : Hw) (c : Nat) (x : TmrSt) : (h.setTmr c x).sresp = h.sresp := rfl
@[simp] theorem Hw.setTmr_out (h : Hw) (c : Nat) (x : TmrSt) : (h.setTmr c x).out = h.out := rfl
@[simp] theorem Hw.setTmr_scred (h : Hw) (c : Nat) (x : TmrSt) : (h.setTmr c x).scred = h.scred := rfl
@[simp] theorem Hw.setTmr_retired (h : Hw) (c : Nat) (x : TmrSt) : (h.setTmr c x).retired = h.retired := rfl
@[simp] theorem Hw.setTmr_hpAcc (h : Hw) (c : Nat) (x : TmrSt) : (h.setTmr c x).hpAcc = h.hpAcc := rfl
@[simp] theorem Hw.setTmr_xlts (h : Hw) (c : Nat) (x : TmrSt) : (h.setTmr c x).xlts = h.xlts := rfl
@[simp] theorem Hw.setTmr_irqAge (h : Hw) (c : Nat) (x : TmrSt) : (h.setTmr c x).irqAge = h.irqAge := rfl
@[simp] theorem Hw.setTmr_irqHoff (h : Hw) (c : Nat) (x : TmrSt) : (h.setTmr c x).irqHoff = h.irqHoff := rfl
@[simp] theorem Hw.setTmr_irqIn (h : Hw) (c : Nat) (x : TmrSt) : (h.setTmr c x).irqIn = h.irqIn := rfl
@[simp] theorem Hw.setTmr_tmrLink (h : Hw) (c : Nat) (x : TmrSt) : (h.setTmr c x).tmrLink = h.tmrLink := rfl
@[simp] theorem Hw.setTmr_tgate (h : Hw) (c : Nat) (x : TmrSt) : (h.setTmr c x).tgate = h.tgate := rfl
@[simp] theorem Hw.setTmr_snaps (h : Hw) (c : Nat) (x : TmrSt) : (h.setTmr c x).snaps = h.snaps := rfl
@[simp] theorem Hw.setTmr_wdtLim (h : Hw) (c : Nat) (x : TmrSt) : (h.setTmr c x).wdtLim = h.wdtLim := rfl
@[simp] theorem Hw.setTmr_tb (h : Hw) (c : Nat) (x : TmrSt) : (h.setTmr c x).tb = h.tb := rfl
@[simp] theorem Hw.setTmr_beatDiv (h : Hw) (c : Nat) (x : TmrSt) : (h.setTmr c x).beatDiv = h.beatDiv := rfl
@[simp] theorem Hw.setTmr_lchKey (h : Hw) (c : Nat) (x : TmrSt) : (h.setTmr c x).lchKey = h.lchKey := rfl
@[simp] theorem Hw.setTmr_lchArm (h : Hw) (c : Nat) (x : TmrSt) : (h.setTmr c x).lchArm = h.lchArm := rfl
@[simp] theorem Hw.setTmr_lchSalt (h : Hw) (c : Nat) (x : TmrSt) : (h.setTmr c x).lchSalt = h.lchSalt := rfl
@[simp] theorem Hw.setTmr_lchExp (h : Hw) (c : Nat) (x : TmrSt) : (h.setTmr c x).lchExp = h.lchExp := rfl
@[simp] theorem Hw.setTmr_boot (h : Hw) (c : Nat) (x : TmrSt) : (h.setTmr c x).boot = h.boot := rfl
@[simp] theorem Hw.setTmr_dbg (h : Hw) (c : Nat) (x : TmrSt) : (h.setTmr c x).dbg = h.dbg := rfl
@[simp] theorem Hw.setTmr_trace (h : Hw) (c : Nat) (x : TmrSt) : (h.setTmr c x).trace = h.trace := rfl
@[simp] theorem Hw.setTmr_pwr (h : Hw) (c : Nat) (x : TmrSt) : (h.setTmr c x).pwr = h.pwr := rfl
@[simp] theorem Hw.setTmr_recs (h : Hw) (c : Nat) (x : TmrSt) : (h.setTmr c x).recs = h.recs := rfl
@[simp] theorem Hw.setTmr_wearBeats (h : Hw) (c : Nat) (x : TmrSt) : (h.setTmr c x).wearBeats = h.wearBeats := rfl
@[simp] theorem Hw.setTmr_wear (h : Hw) (c : Nat) (x : TmrSt) : (h.setTmr c x).wear = h.wear := rfl
@[simp] theorem Hw.setTmr_porN (h : Hw) (c : Nat) (x : TmrSt) : (h.setTmr c x).porN = h.porN := rfl
@[simp] theorem Hw.setTmr_rstN (h : Hw) (c : Nat) (x : TmrSt) : (h.setTmr c x).rstN = h.rstN := rfl
@[simp] theorem Hw.setTmr_testEn (h : Hw) (c : Nat) (x : TmrSt) : (h.setTmr c x).testEn = h.testEn := rfl
@[simp] theorem Hw.setTmr_clkStop (h : Hw) (c : Nat) (x : TmrSt) : (h.setTmr c x).clkStop = h.clkStop := rfl
@[simp] theorem Hw.setTmr_pllLost (h : Hw) (c : Nat) (x : TmrSt) : (h.setTmr c x).pllLost = h.pllLost := rfl
@[simp] theorem Hw.setTmr_pllAt (h : Hw) (c : Nat) (x : TmrSt) : (h.setTmr c x).pllAt = h.pllAt := rfl
@[simp] theorem Hw.setTmr_busRd (h : Hw) (c : Nat) (x : TmrSt) : (h.setTmr c x).busRd = h.busRd := rfl
@[simp] theorem Hw.setTmr_seq (h : Hw) (c : Nat) (x : TmrSt) : (h.setTmr c x).seq = h.seq := rfl
@[simp] theorem Hw.setTmr_free (h : Hw) (c : Nat) (x : TmrSt) : (h.setTmr c x).free = h.free := rfl

@[simp] theorem Hw.setTq_cfg (h : Hw) (f : Nat) (x : TraceQ) : (h.setTq f x).cfg = h.cfg := rfl
@[simp] theorem Hw.setTq_regs (h : Hw) (f : Nat) (x : TraceQ) : (h.setTq f x).regs = h.regs := rfl
@[simp] theorem Hw.setTq_mem (h : Hw) (f : Nat) (x : TraceQ) : (h.setTq f x).mem = h.mem := rfl
@[simp] theorem Hw.setTq_marked (h : Hw) (f : Nat) (x : TraceQ) : (h.setTq f x).marked = h.marked := rfl
@[simp] theorem Hw.setTq_undefBank (h : Hw) (f : Nat) (x : TraceQ) : (h.setTq f x).undefBank = h.undefBank := rfl
@[simp] theorem Hw.setTq_defd (h : Hw) (f : Nat) (x : TraceQ) : (h.setTq f x).defd = h.defd := rfl
@[simp] theorem Hw.setTq_mats (h : Hw) (f : Nat) (x : TraceQ) : (h.setTq f x).mats = h.mats := rfl
@[simp] theorem Hw.setTq_rmap (h : Hw) (f : Nat) (x : TraceQ) : (h.setTq f x).rmap = h.rmap := rfl
@[simp] theorem Hw.setTq_matResp (h : Hw) (f : Nat) (x : TraceQ) : (h.setTq f x).matResp = h.matResp := rfl
@[simp] theorem Hw.setTq_rgnLogs (h : Hw) (f : Nat) (x : TraceQ) : (h.setTq f x).rgnLogs = h.rgnLogs := rfl
@[simp] theorem Hw.setTq_meuLogs (h : Hw) (f : Nat) (x : TraceQ) : (h.setTq f x).meuLogs = h.meuLogs := rfl
@[simp] theorem Hw.setTq_fronds (h : Hw) (f : Nat) (x : TraceQ) : (h.setTq f x).fronds = h.fronds := rfl
@[simp] theorem Hw.setTq_scratch (h : Hw) (f : Nat) (x : TraceQ) : (h.setTq f x).scratch = h.scratch := rfl
@[simp] theorem Hw.setTq_csRam (h : Hw) (f : Nat) (x : TraceQ) : (h.setTq f x).csRam = h.csRam := rfl
@[simp] theorem Hw.setTq_mbxK (h : Hw) (f : Nat) (x : TraceQ) : (h.setTq f x).mbxK = h.mbxK := rfl
@[simp] theorem Hw.setTq_mbxT (h : Hw) (f : Nat) (x : TraceQ) : (h.setTq f x).mbxT = h.mbxT := rfl
@[simp] theorem Hw.setTq_mgmtQ (h : Hw) (f : Nat) (x : TraceQ) : (h.setTq f x).mgmtQ = h.mgmtQ := rfl
@[simp] theorem Hw.setTq_svcQ (h : Hw) (f : Nat) (x : TraceQ) : (h.setTq f x).svcQ = h.svcQ := rfl
@[simp] theorem Hw.setTq_svcTaken (h : Hw) (f : Nat) (x : TraceQ) : (h.setTq f x).svcTaken = h.svcTaken := rfl
@[simp] theorem Hw.setTq_chains (h : Hw) (f : Nat) (x : TraceQ) : (h.setTq f x).chains = h.chains := rfl
@[simp] theorem Hw.setTq_links (h : Hw) (f : Nat) (x : TraceQ) : (h.setTq f x).links = h.links := rfl
@[simp] theorem Hw.setTq_lanes (h : Hw) (f : Nat) (x : TraceQ) : (h.setTq f x).lanes = h.lanes := rfl
@[simp] theorem Hw.setTq_ctxs (h : Hw) (f : Nat) (x : TraceQ) : (h.setTq f x).ctxs = h.ctxs := rfl
@[simp] theorem Hw.setTq_queues (h : Hw) (f : Nat) (x : TraceQ) : (h.setTq f x).queues = h.queues := rfl
@[simp] theorem Hw.setTq_mreqs (h : Hw) (f : Nat) (x : TraceQ) : (h.setTq f x).mreqs = h.mreqs := rfl
@[simp] theorem Hw.setTq_sresp (h : Hw) (f : Nat) (x : TraceQ) : (h.setTq f x).sresp = h.sresp := rfl
@[simp] theorem Hw.setTq_out (h : Hw) (f : Nat) (x : TraceQ) : (h.setTq f x).out = h.out := rfl
@[simp] theorem Hw.setTq_scred (h : Hw) (f : Nat) (x : TraceQ) : (h.setTq f x).scred = h.scred := rfl
@[simp] theorem Hw.setTq_retired (h : Hw) (f : Nat) (x : TraceQ) : (h.setTq f x).retired = h.retired := rfl
@[simp] theorem Hw.setTq_hpAcc (h : Hw) (f : Nat) (x : TraceQ) : (h.setTq f x).hpAcc = h.hpAcc := rfl
@[simp] theorem Hw.setTq_xlts (h : Hw) (f : Nat) (x : TraceQ) : (h.setTq f x).xlts = h.xlts := rfl
@[simp] theorem Hw.setTq_irqAge (h : Hw) (f : Nat) (x : TraceQ) : (h.setTq f x).irqAge = h.irqAge := rfl
@[simp] theorem Hw.setTq_irqHoff (h : Hw) (f : Nat) (x : TraceQ) : (h.setTq f x).irqHoff = h.irqHoff := rfl
@[simp] theorem Hw.setTq_irqIn (h : Hw) (f : Nat) (x : TraceQ) : (h.setTq f x).irqIn = h.irqIn := rfl
@[simp] theorem Hw.setTq_tmrs (h : Hw) (f : Nat) (x : TraceQ) : (h.setTq f x).tmrs = h.tmrs := rfl
@[simp] theorem Hw.setTq_tmrLink (h : Hw) (f : Nat) (x : TraceQ) : (h.setTq f x).tmrLink = h.tmrLink := rfl
@[simp] theorem Hw.setTq_tgate (h : Hw) (f : Nat) (x : TraceQ) : (h.setTq f x).tgate = h.tgate := rfl
@[simp] theorem Hw.setTq_snaps (h : Hw) (f : Nat) (x : TraceQ) : (h.setTq f x).snaps = h.snaps := rfl
@[simp] theorem Hw.setTq_wdtLim (h : Hw) (f : Nat) (x : TraceQ) : (h.setTq f x).wdtLim = h.wdtLim := rfl
@[simp] theorem Hw.setTq_tb (h : Hw) (f : Nat) (x : TraceQ) : (h.setTq f x).tb = h.tb := rfl
@[simp] theorem Hw.setTq_beatDiv (h : Hw) (f : Nat) (x : TraceQ) : (h.setTq f x).beatDiv = h.beatDiv := rfl
@[simp] theorem Hw.setTq_lchKey (h : Hw) (f : Nat) (x : TraceQ) : (h.setTq f x).lchKey = h.lchKey := rfl
@[simp] theorem Hw.setTq_lchArm (h : Hw) (f : Nat) (x : TraceQ) : (h.setTq f x).lchArm = h.lchArm := rfl
@[simp] theorem Hw.setTq_lchSalt (h : Hw) (f : Nat) (x : TraceQ) : (h.setTq f x).lchSalt = h.lchSalt := rfl
@[simp] theorem Hw.setTq_lchExp (h : Hw) (f : Nat) (x : TraceQ) : (h.setTq f x).lchExp = h.lchExp := rfl
@[simp] theorem Hw.setTq_boot (h : Hw) (f : Nat) (x : TraceQ) : (h.setTq f x).boot = h.boot := rfl
@[simp] theorem Hw.setTq_dbg (h : Hw) (f : Nat) (x : TraceQ) : (h.setTq f x).dbg = h.dbg := rfl
@[simp] theorem Hw.setTq_pwr (h : Hw) (f : Nat) (x : TraceQ) : (h.setTq f x).pwr = h.pwr := rfl
@[simp] theorem Hw.setTq_recs (h : Hw) (f : Nat) (x : TraceQ) : (h.setTq f x).recs = h.recs := rfl
@[simp] theorem Hw.setTq_wearBeats (h : Hw) (f : Nat) (x : TraceQ) : (h.setTq f x).wearBeats = h.wearBeats := rfl
@[simp] theorem Hw.setTq_wear (h : Hw) (f : Nat) (x : TraceQ) : (h.setTq f x).wear = h.wear := rfl
@[simp] theorem Hw.setTq_porN (h : Hw) (f : Nat) (x : TraceQ) : (h.setTq f x).porN = h.porN := rfl
@[simp] theorem Hw.setTq_rstN (h : Hw) (f : Nat) (x : TraceQ) : (h.setTq f x).rstN = h.rstN := rfl
@[simp] theorem Hw.setTq_testEn (h : Hw) (f : Nat) (x : TraceQ) : (h.setTq f x).testEn = h.testEn := rfl
@[simp] theorem Hw.setTq_clkStop (h : Hw) (f : Nat) (x : TraceQ) : (h.setTq f x).clkStop = h.clkStop := rfl
@[simp] theorem Hw.setTq_pllLost (h : Hw) (f : Nat) (x : TraceQ) : (h.setTq f x).pllLost = h.pllLost := rfl
@[simp] theorem Hw.setTq_pllAt (h : Hw) (f : Nat) (x : TraceQ) : (h.setTq f x).pllAt = h.pllAt := rfl
@[simp] theorem Hw.setTq_busRd (h : Hw) (f : Nat) (x : TraceQ) : (h.setTq f x).busRd = h.busRd := rfl
@[simp] theorem Hw.setTq_seq (h : Hw) (f : Nat) (x : TraceQ) : (h.setTq f x).seq = h.seq := rfl
@[simp] theorem Hw.setTq_free (h : Hw) (f : Nat) (x : TraceQ) : (h.setTq f x).free = h.free := rfl

@[simp] theorem Hw.setXlt_cfg (h : Hw) (r : Nat) (x : XltSt) : (h.setXlt r x).cfg = h.cfg := rfl
@[simp] theorem Hw.setXlt_regs (h : Hw) (r : Nat) (x : XltSt) : (h.setXlt r x).regs = h.regs := rfl
@[simp] theorem Hw.setXlt_mem (h : Hw) (r : Nat) (x : XltSt) : (h.setXlt r x).mem = h.mem := rfl
@[simp] theorem Hw.setXlt_marked (h : Hw) (r : Nat) (x : XltSt) : (h.setXlt r x).marked = h.marked := rfl
@[simp] theorem Hw.setXlt_undefBank (h : Hw) (r : Nat) (x : XltSt) : (h.setXlt r x).undefBank = h.undefBank := rfl
@[simp] theorem Hw.setXlt_defd (h : Hw) (r : Nat) (x : XltSt) : (h.setXlt r x).defd = h.defd := rfl
@[simp] theorem Hw.setXlt_mats (h : Hw) (r : Nat) (x : XltSt) : (h.setXlt r x).mats = h.mats := rfl
@[simp] theorem Hw.setXlt_rmap (h : Hw) (r : Nat) (x : XltSt) : (h.setXlt r x).rmap = h.rmap := rfl
@[simp] theorem Hw.setXlt_matResp (h : Hw) (r : Nat) (x : XltSt) : (h.setXlt r x).matResp = h.matResp := rfl
@[simp] theorem Hw.setXlt_rgnLogs (h : Hw) (r : Nat) (x : XltSt) : (h.setXlt r x).rgnLogs = h.rgnLogs := rfl
@[simp] theorem Hw.setXlt_meuLogs (h : Hw) (r : Nat) (x : XltSt) : (h.setXlt r x).meuLogs = h.meuLogs := rfl
@[simp] theorem Hw.setXlt_fronds (h : Hw) (r : Nat) (x : XltSt) : (h.setXlt r x).fronds = h.fronds := rfl
@[simp] theorem Hw.setXlt_scratch (h : Hw) (r : Nat) (x : XltSt) : (h.setXlt r x).scratch = h.scratch := rfl
@[simp] theorem Hw.setXlt_csRam (h : Hw) (r : Nat) (x : XltSt) : (h.setXlt r x).csRam = h.csRam := rfl
@[simp] theorem Hw.setXlt_mbxK (h : Hw) (r : Nat) (x : XltSt) : (h.setXlt r x).mbxK = h.mbxK := rfl
@[simp] theorem Hw.setXlt_mbxT (h : Hw) (r : Nat) (x : XltSt) : (h.setXlt r x).mbxT = h.mbxT := rfl
@[simp] theorem Hw.setXlt_mgmtQ (h : Hw) (r : Nat) (x : XltSt) : (h.setXlt r x).mgmtQ = h.mgmtQ := rfl
@[simp] theorem Hw.setXlt_svcQ (h : Hw) (r : Nat) (x : XltSt) : (h.setXlt r x).svcQ = h.svcQ := rfl
@[simp] theorem Hw.setXlt_svcTaken (h : Hw) (r : Nat) (x : XltSt) : (h.setXlt r x).svcTaken = h.svcTaken := rfl
@[simp] theorem Hw.setXlt_chains (h : Hw) (r : Nat) (x : XltSt) : (h.setXlt r x).chains = h.chains := rfl
@[simp] theorem Hw.setXlt_links (h : Hw) (r : Nat) (x : XltSt) : (h.setXlt r x).links = h.links := rfl
@[simp] theorem Hw.setXlt_lanes (h : Hw) (r : Nat) (x : XltSt) : (h.setXlt r x).lanes = h.lanes := rfl
@[simp] theorem Hw.setXlt_ctxs (h : Hw) (r : Nat) (x : XltSt) : (h.setXlt r x).ctxs = h.ctxs := rfl
@[simp] theorem Hw.setXlt_queues (h : Hw) (r : Nat) (x : XltSt) : (h.setXlt r x).queues = h.queues := rfl
@[simp] theorem Hw.setXlt_mreqs (h : Hw) (r : Nat) (x : XltSt) : (h.setXlt r x).mreqs = h.mreqs := rfl
@[simp] theorem Hw.setXlt_sresp (h : Hw) (r : Nat) (x : XltSt) : (h.setXlt r x).sresp = h.sresp := rfl
@[simp] theorem Hw.setXlt_out (h : Hw) (r : Nat) (x : XltSt) : (h.setXlt r x).out = h.out := rfl
@[simp] theorem Hw.setXlt_scred (h : Hw) (r : Nat) (x : XltSt) : (h.setXlt r x).scred = h.scred := rfl
@[simp] theorem Hw.setXlt_retired (h : Hw) (r : Nat) (x : XltSt) : (h.setXlt r x).retired = h.retired := rfl
@[simp] theorem Hw.setXlt_hpAcc (h : Hw) (r : Nat) (x : XltSt) : (h.setXlt r x).hpAcc = h.hpAcc := rfl
@[simp] theorem Hw.setXlt_irqAge (h : Hw) (r : Nat) (x : XltSt) : (h.setXlt r x).irqAge = h.irqAge := rfl
@[simp] theorem Hw.setXlt_irqHoff (h : Hw) (r : Nat) (x : XltSt) : (h.setXlt r x).irqHoff = h.irqHoff := rfl
@[simp] theorem Hw.setXlt_irqIn (h : Hw) (r : Nat) (x : XltSt) : (h.setXlt r x).irqIn = h.irqIn := rfl
@[simp] theorem Hw.setXlt_tmrs (h : Hw) (r : Nat) (x : XltSt) : (h.setXlt r x).tmrs = h.tmrs := rfl
@[simp] theorem Hw.setXlt_tmrLink (h : Hw) (r : Nat) (x : XltSt) : (h.setXlt r x).tmrLink = h.tmrLink := rfl
@[simp] theorem Hw.setXlt_tgate (h : Hw) (r : Nat) (x : XltSt) : (h.setXlt r x).tgate = h.tgate := rfl
@[simp] theorem Hw.setXlt_snaps (h : Hw) (r : Nat) (x : XltSt) : (h.setXlt r x).snaps = h.snaps := rfl
@[simp] theorem Hw.setXlt_wdtLim (h : Hw) (r : Nat) (x : XltSt) : (h.setXlt r x).wdtLim = h.wdtLim := rfl
@[simp] theorem Hw.setXlt_tb (h : Hw) (r : Nat) (x : XltSt) : (h.setXlt r x).tb = h.tb := rfl
@[simp] theorem Hw.setXlt_beatDiv (h : Hw) (r : Nat) (x : XltSt) : (h.setXlt r x).beatDiv = h.beatDiv := rfl
@[simp] theorem Hw.setXlt_lchKey (h : Hw) (r : Nat) (x : XltSt) : (h.setXlt r x).lchKey = h.lchKey := rfl
@[simp] theorem Hw.setXlt_lchArm (h : Hw) (r : Nat) (x : XltSt) : (h.setXlt r x).lchArm = h.lchArm := rfl
@[simp] theorem Hw.setXlt_lchSalt (h : Hw) (r : Nat) (x : XltSt) : (h.setXlt r x).lchSalt = h.lchSalt := rfl
@[simp] theorem Hw.setXlt_lchExp (h : Hw) (r : Nat) (x : XltSt) : (h.setXlt r x).lchExp = h.lchExp := rfl
@[simp] theorem Hw.setXlt_boot (h : Hw) (r : Nat) (x : XltSt) : (h.setXlt r x).boot = h.boot := rfl
@[simp] theorem Hw.setXlt_dbg (h : Hw) (r : Nat) (x : XltSt) : (h.setXlt r x).dbg = h.dbg := rfl
@[simp] theorem Hw.setXlt_trace (h : Hw) (r : Nat) (x : XltSt) : (h.setXlt r x).trace = h.trace := rfl
@[simp] theorem Hw.setXlt_pwr (h : Hw) (r : Nat) (x : XltSt) : (h.setXlt r x).pwr = h.pwr := rfl
@[simp] theorem Hw.setXlt_recs (h : Hw) (r : Nat) (x : XltSt) : (h.setXlt r x).recs = h.recs := rfl
@[simp] theorem Hw.setXlt_wearBeats (h : Hw) (r : Nat) (x : XltSt) : (h.setXlt r x).wearBeats = h.wearBeats := rfl
@[simp] theorem Hw.setXlt_wear (h : Hw) (r : Nat) (x : XltSt) : (h.setXlt r x).wear = h.wear := rfl
@[simp] theorem Hw.setXlt_porN (h : Hw) (r : Nat) (x : XltSt) : (h.setXlt r x).porN = h.porN := rfl
@[simp] theorem Hw.setXlt_rstN (h : Hw) (r : Nat) (x : XltSt) : (h.setXlt r x).rstN = h.rstN := rfl
@[simp] theorem Hw.setXlt_testEn (h : Hw) (r : Nat) (x : XltSt) : (h.setXlt r x).testEn = h.testEn := rfl
@[simp] theorem Hw.setXlt_clkStop (h : Hw) (r : Nat) (x : XltSt) : (h.setXlt r x).clkStop = h.clkStop := rfl
@[simp] theorem Hw.setXlt_pllLost (h : Hw) (r : Nat) (x : XltSt) : (h.setXlt r x).pllLost = h.pllLost := rfl
@[simp] theorem Hw.setXlt_pllAt (h : Hw) (r : Nat) (x : XltSt) : (h.setXlt r x).pllAt = h.pllAt := rfl
@[simp] theorem Hw.setXlt_busRd (h : Hw) (r : Nat) (x : XltSt) : (h.setXlt r x).busRd = h.busRd := rfl
@[simp] theorem Hw.setXlt_seq (h : Hw) (r : Nat) (x : XltSt) : (h.setXlt r x).seq = h.seq := rfl
@[simp] theorem Hw.setXlt_free (h : Hw) (r : Nat) (x : XltSt) : (h.setXlt r x).free = h.free := rfl

@[simp] theorem Hw.wf_cfg (h : Hw) (a : Nat) (f : Fld) (n : Nat) : (h.wf a f n).cfg = h.cfg := rfl
@[simp] theorem Hw.wf_mem (h : Hw) (a : Nat) (f : Fld) (n : Nat) : (h.wf a f n).mem = h.mem := rfl
@[simp] theorem Hw.wf_marked (h : Hw) (a : Nat) (f : Fld) (n : Nat) : (h.wf a f n).marked = h.marked := rfl
@[simp] theorem Hw.wf_undefBank (h : Hw) (a : Nat) (f : Fld) (n : Nat) : (h.wf a f n).undefBank = h.undefBank := rfl
@[simp] theorem Hw.wf_defd (h : Hw) (a : Nat) (f : Fld) (n : Nat) : (h.wf a f n).defd = h.defd := rfl
@[simp] theorem Hw.wf_mats (h : Hw) (a : Nat) (f : Fld) (n : Nat) : (h.wf a f n).mats = h.mats := rfl
@[simp] theorem Hw.wf_rmap (h : Hw) (a : Nat) (f : Fld) (n : Nat) : (h.wf a f n).rmap = h.rmap := rfl
@[simp] theorem Hw.wf_matResp (h : Hw) (a : Nat) (f : Fld) (n : Nat) : (h.wf a f n).matResp = h.matResp := rfl
@[simp] theorem Hw.wf_rgnLogs (h : Hw) (a : Nat) (f : Fld) (n : Nat) : (h.wf a f n).rgnLogs = h.rgnLogs := rfl
@[simp] theorem Hw.wf_meuLogs (h : Hw) (a : Nat) (f : Fld) (n : Nat) : (h.wf a f n).meuLogs = h.meuLogs := rfl
@[simp] theorem Hw.wf_fronds (h : Hw) (a : Nat) (f : Fld) (n : Nat) : (h.wf a f n).fronds = h.fronds := rfl
@[simp] theorem Hw.wf_scratch (h : Hw) (a : Nat) (f : Fld) (n : Nat) : (h.wf a f n).scratch = h.scratch := rfl
@[simp] theorem Hw.wf_csRam (h : Hw) (a : Nat) (f : Fld) (n : Nat) : (h.wf a f n).csRam = h.csRam := rfl
@[simp] theorem Hw.wf_mbxK (h : Hw) (a : Nat) (f : Fld) (n : Nat) : (h.wf a f n).mbxK = h.mbxK := rfl
@[simp] theorem Hw.wf_mbxT (h : Hw) (a : Nat) (f : Fld) (n : Nat) : (h.wf a f n).mbxT = h.mbxT := rfl
@[simp] theorem Hw.wf_mgmtQ (h : Hw) (a : Nat) (f : Fld) (n : Nat) : (h.wf a f n).mgmtQ = h.mgmtQ := rfl
@[simp] theorem Hw.wf_svcQ (h : Hw) (a : Nat) (f : Fld) (n : Nat) : (h.wf a f n).svcQ = h.svcQ := rfl
@[simp] theorem Hw.wf_svcTaken (h : Hw) (a : Nat) (f : Fld) (n : Nat) : (h.wf a f n).svcTaken = h.svcTaken := rfl
@[simp] theorem Hw.wf_chains (h : Hw) (a : Nat) (f : Fld) (n : Nat) : (h.wf a f n).chains = h.chains := rfl
@[simp] theorem Hw.wf_links (h : Hw) (a : Nat) (f : Fld) (n : Nat) : (h.wf a f n).links = h.links := rfl
@[simp] theorem Hw.wf_lanes (h : Hw) (a : Nat) (f : Fld) (n : Nat) : (h.wf a f n).lanes = h.lanes := rfl
@[simp] theorem Hw.wf_ctxs (h : Hw) (a : Nat) (f : Fld) (n : Nat) : (h.wf a f n).ctxs = h.ctxs := rfl
@[simp] theorem Hw.wf_queues (h : Hw) (a : Nat) (f : Fld) (n : Nat) : (h.wf a f n).queues = h.queues := rfl
@[simp] theorem Hw.wf_mreqs (h : Hw) (a : Nat) (f : Fld) (n : Nat) : (h.wf a f n).mreqs = h.mreqs := rfl
@[simp] theorem Hw.wf_sresp (h : Hw) (a : Nat) (f : Fld) (n : Nat) : (h.wf a f n).sresp = h.sresp := rfl
@[simp] theorem Hw.wf_out (h : Hw) (a : Nat) (f : Fld) (n : Nat) : (h.wf a f n).out = h.out := rfl
@[simp] theorem Hw.wf_scred (h : Hw) (a : Nat) (f : Fld) (n : Nat) : (h.wf a f n).scred = h.scred := rfl
@[simp] theorem Hw.wf_retired (h : Hw) (a : Nat) (f : Fld) (n : Nat) : (h.wf a f n).retired = h.retired := rfl
@[simp] theorem Hw.wf_hpAcc (h : Hw) (a : Nat) (f : Fld) (n : Nat) : (h.wf a f n).hpAcc = h.hpAcc := rfl
@[simp] theorem Hw.wf_xlts (h : Hw) (a : Nat) (f : Fld) (n : Nat) : (h.wf a f n).xlts = h.xlts := rfl
@[simp] theorem Hw.wf_irqAge (h : Hw) (a : Nat) (f : Fld) (n : Nat) : (h.wf a f n).irqAge = h.irqAge := rfl
@[simp] theorem Hw.wf_irqHoff (h : Hw) (a : Nat) (f : Fld) (n : Nat) : (h.wf a f n).irqHoff = h.irqHoff := rfl
@[simp] theorem Hw.wf_irqIn (h : Hw) (a : Nat) (f : Fld) (n : Nat) : (h.wf a f n).irqIn = h.irqIn := rfl
@[simp] theorem Hw.wf_tmrs (h : Hw) (a : Nat) (f : Fld) (n : Nat) : (h.wf a f n).tmrs = h.tmrs := rfl
@[simp] theorem Hw.wf_tmrLink (h : Hw) (a : Nat) (f : Fld) (n : Nat) : (h.wf a f n).tmrLink = h.tmrLink := rfl
@[simp] theorem Hw.wf_tgate (h : Hw) (a : Nat) (f : Fld) (n : Nat) : (h.wf a f n).tgate = h.tgate := rfl
@[simp] theorem Hw.wf_snaps (h : Hw) (a : Nat) (f : Fld) (n : Nat) : (h.wf a f n).snaps = h.snaps := rfl
@[simp] theorem Hw.wf_wdtLim (h : Hw) (a : Nat) (f : Fld) (n : Nat) : (h.wf a f n).wdtLim = h.wdtLim := rfl
@[simp] theorem Hw.wf_tb (h : Hw) (a : Nat) (f : Fld) (n : Nat) : (h.wf a f n).tb = h.tb := rfl
@[simp] theorem Hw.wf_beatDiv (h : Hw) (a : Nat) (f : Fld) (n : Nat) : (h.wf a f n).beatDiv = h.beatDiv := rfl
@[simp] theorem Hw.wf_lchKey (h : Hw) (a : Nat) (f : Fld) (n : Nat) : (h.wf a f n).lchKey = h.lchKey := rfl
@[simp] theorem Hw.wf_lchArm (h : Hw) (a : Nat) (f : Fld) (n : Nat) : (h.wf a f n).lchArm = h.lchArm := rfl
@[simp] theorem Hw.wf_lchSalt (h : Hw) (a : Nat) (f : Fld) (n : Nat) : (h.wf a f n).lchSalt = h.lchSalt := rfl
@[simp] theorem Hw.wf_lchExp (h : Hw) (a : Nat) (f : Fld) (n : Nat) : (h.wf a f n).lchExp = h.lchExp := rfl
@[simp] theorem Hw.wf_boot (h : Hw) (a : Nat) (f : Fld) (n : Nat) : (h.wf a f n).boot = h.boot := rfl
@[simp] theorem Hw.wf_dbg (h : Hw) (a : Nat) (f : Fld) (n : Nat) : (h.wf a f n).dbg = h.dbg := rfl
@[simp] theorem Hw.wf_trace (h : Hw) (a : Nat) (f : Fld) (n : Nat) : (h.wf a f n).trace = h.trace := rfl
@[simp] theorem Hw.wf_pwr (h : Hw) (a : Nat) (f : Fld) (n : Nat) : (h.wf a f n).pwr = h.pwr := rfl
@[simp] theorem Hw.wf_recs (h : Hw) (a : Nat) (f : Fld) (n : Nat) : (h.wf a f n).recs = h.recs := rfl
@[simp] theorem Hw.wf_wearBeats (h : Hw) (a : Nat) (f : Fld) (n : Nat) : (h.wf a f n).wearBeats = h.wearBeats := rfl
@[simp] theorem Hw.wf_wear (h : Hw) (a : Nat) (f : Fld) (n : Nat) : (h.wf a f n).wear = h.wear := rfl
@[simp] theorem Hw.wf_porN (h : Hw) (a : Nat) (f : Fld) (n : Nat) : (h.wf a f n).porN = h.porN := rfl
@[simp] theorem Hw.wf_rstN (h : Hw) (a : Nat) (f : Fld) (n : Nat) : (h.wf a f n).rstN = h.rstN := rfl
@[simp] theorem Hw.wf_testEn (h : Hw) (a : Nat) (f : Fld) (n : Nat) : (h.wf a f n).testEn = h.testEn := rfl
@[simp] theorem Hw.wf_clkStop (h : Hw) (a : Nat) (f : Fld) (n : Nat) : (h.wf a f n).clkStop = h.clkStop := rfl
@[simp] theorem Hw.wf_pllLost (h : Hw) (a : Nat) (f : Fld) (n : Nat) : (h.wf a f n).pllLost = h.pllLost := rfl
@[simp] theorem Hw.wf_pllAt (h : Hw) (a : Nat) (f : Fld) (n : Nat) : (h.wf a f n).pllAt = h.pllAt := rfl
@[simp] theorem Hw.wf_busRd (h : Hw) (a : Nat) (f : Fld) (n : Nat) : (h.wf a f n).busRd = h.busRd := rfl
@[simp] theorem Hw.wf_seq (h : Hw) (a : Nat) (f : Fld) (n : Nat) : (h.wf a f n).seq = h.seq := rfl
@[simp] theorem Hw.wf_free (h : Hw) (a : Nat) (f : Fld) (n : Nat) : (h.wf a f n).free = h.free := rfl

@[simp] theorem Hw.sb_cfg (h : Hw) (a : Nat) (f : Fld) : (h.sb a f).cfg = h.cfg := rfl
@[simp] theorem Hw.sb_mem (h : Hw) (a : Nat) (f : Fld) : (h.sb a f).mem = h.mem := rfl
@[simp] theorem Hw.sb_marked (h : Hw) (a : Nat) (f : Fld) : (h.sb a f).marked = h.marked := rfl
@[simp] theorem Hw.sb_undefBank (h : Hw) (a : Nat) (f : Fld) : (h.sb a f).undefBank = h.undefBank := rfl
@[simp] theorem Hw.sb_defd (h : Hw) (a : Nat) (f : Fld) : (h.sb a f).defd = h.defd := rfl
@[simp] theorem Hw.sb_mats (h : Hw) (a : Nat) (f : Fld) : (h.sb a f).mats = h.mats := rfl
@[simp] theorem Hw.sb_rmap (h : Hw) (a : Nat) (f : Fld) : (h.sb a f).rmap = h.rmap := rfl
@[simp] theorem Hw.sb_matResp (h : Hw) (a : Nat) (f : Fld) : (h.sb a f).matResp = h.matResp := rfl
@[simp] theorem Hw.sb_rgnLogs (h : Hw) (a : Nat) (f : Fld) : (h.sb a f).rgnLogs = h.rgnLogs := rfl
@[simp] theorem Hw.sb_meuLogs (h : Hw) (a : Nat) (f : Fld) : (h.sb a f).meuLogs = h.meuLogs := rfl
@[simp] theorem Hw.sb_fronds (h : Hw) (a : Nat) (f : Fld) : (h.sb a f).fronds = h.fronds := rfl
@[simp] theorem Hw.sb_scratch (h : Hw) (a : Nat) (f : Fld) : (h.sb a f).scratch = h.scratch := rfl
@[simp] theorem Hw.sb_csRam (h : Hw) (a : Nat) (f : Fld) : (h.sb a f).csRam = h.csRam := rfl
@[simp] theorem Hw.sb_mbxK (h : Hw) (a : Nat) (f : Fld) : (h.sb a f).mbxK = h.mbxK := rfl
@[simp] theorem Hw.sb_mbxT (h : Hw) (a : Nat) (f : Fld) : (h.sb a f).mbxT = h.mbxT := rfl
@[simp] theorem Hw.sb_mgmtQ (h : Hw) (a : Nat) (f : Fld) : (h.sb a f).mgmtQ = h.mgmtQ := rfl
@[simp] theorem Hw.sb_svcQ (h : Hw) (a : Nat) (f : Fld) : (h.sb a f).svcQ = h.svcQ := rfl
@[simp] theorem Hw.sb_svcTaken (h : Hw) (a : Nat) (f : Fld) : (h.sb a f).svcTaken = h.svcTaken := rfl
@[simp] theorem Hw.sb_chains (h : Hw) (a : Nat) (f : Fld) : (h.sb a f).chains = h.chains := rfl
@[simp] theorem Hw.sb_links (h : Hw) (a : Nat) (f : Fld) : (h.sb a f).links = h.links := rfl
@[simp] theorem Hw.sb_lanes (h : Hw) (a : Nat) (f : Fld) : (h.sb a f).lanes = h.lanes := rfl
@[simp] theorem Hw.sb_ctxs (h : Hw) (a : Nat) (f : Fld) : (h.sb a f).ctxs = h.ctxs := rfl
@[simp] theorem Hw.sb_queues (h : Hw) (a : Nat) (f : Fld) : (h.sb a f).queues = h.queues := rfl
@[simp] theorem Hw.sb_mreqs (h : Hw) (a : Nat) (f : Fld) : (h.sb a f).mreqs = h.mreqs := rfl
@[simp] theorem Hw.sb_sresp (h : Hw) (a : Nat) (f : Fld) : (h.sb a f).sresp = h.sresp := rfl
@[simp] theorem Hw.sb_out (h : Hw) (a : Nat) (f : Fld) : (h.sb a f).out = h.out := rfl
@[simp] theorem Hw.sb_scred (h : Hw) (a : Nat) (f : Fld) : (h.sb a f).scred = h.scred := rfl
@[simp] theorem Hw.sb_retired (h : Hw) (a : Nat) (f : Fld) : (h.sb a f).retired = h.retired := rfl
@[simp] theorem Hw.sb_hpAcc (h : Hw) (a : Nat) (f : Fld) : (h.sb a f).hpAcc = h.hpAcc := rfl
@[simp] theorem Hw.sb_xlts (h : Hw) (a : Nat) (f : Fld) : (h.sb a f).xlts = h.xlts := rfl
@[simp] theorem Hw.sb_irqAge (h : Hw) (a : Nat) (f : Fld) : (h.sb a f).irqAge = h.irqAge := rfl
@[simp] theorem Hw.sb_irqHoff (h : Hw) (a : Nat) (f : Fld) : (h.sb a f).irqHoff = h.irqHoff := rfl
@[simp] theorem Hw.sb_irqIn (h : Hw) (a : Nat) (f : Fld) : (h.sb a f).irqIn = h.irqIn := rfl
@[simp] theorem Hw.sb_tmrs (h : Hw) (a : Nat) (f : Fld) : (h.sb a f).tmrs = h.tmrs := rfl
@[simp] theorem Hw.sb_tmrLink (h : Hw) (a : Nat) (f : Fld) : (h.sb a f).tmrLink = h.tmrLink := rfl
@[simp] theorem Hw.sb_tgate (h : Hw) (a : Nat) (f : Fld) : (h.sb a f).tgate = h.tgate := rfl
@[simp] theorem Hw.sb_snaps (h : Hw) (a : Nat) (f : Fld) : (h.sb a f).snaps = h.snaps := rfl
@[simp] theorem Hw.sb_wdtLim (h : Hw) (a : Nat) (f : Fld) : (h.sb a f).wdtLim = h.wdtLim := rfl
@[simp] theorem Hw.sb_tb (h : Hw) (a : Nat) (f : Fld) : (h.sb a f).tb = h.tb := rfl
@[simp] theorem Hw.sb_beatDiv (h : Hw) (a : Nat) (f : Fld) : (h.sb a f).beatDiv = h.beatDiv := rfl
@[simp] theorem Hw.sb_lchKey (h : Hw) (a : Nat) (f : Fld) : (h.sb a f).lchKey = h.lchKey := rfl
@[simp] theorem Hw.sb_lchArm (h : Hw) (a : Nat) (f : Fld) : (h.sb a f).lchArm = h.lchArm := rfl
@[simp] theorem Hw.sb_lchSalt (h : Hw) (a : Nat) (f : Fld) : (h.sb a f).lchSalt = h.lchSalt := rfl
@[simp] theorem Hw.sb_lchExp (h : Hw) (a : Nat) (f : Fld) : (h.sb a f).lchExp = h.lchExp := rfl
@[simp] theorem Hw.sb_boot (h : Hw) (a : Nat) (f : Fld) : (h.sb a f).boot = h.boot := rfl
@[simp] theorem Hw.sb_dbg (h : Hw) (a : Nat) (f : Fld) : (h.sb a f).dbg = h.dbg := rfl
@[simp] theorem Hw.sb_trace (h : Hw) (a : Nat) (f : Fld) : (h.sb a f).trace = h.trace := rfl
@[simp] theorem Hw.sb_pwr (h : Hw) (a : Nat) (f : Fld) : (h.sb a f).pwr = h.pwr := rfl
@[simp] theorem Hw.sb_recs (h : Hw) (a : Nat) (f : Fld) : (h.sb a f).recs = h.recs := rfl
@[simp] theorem Hw.sb_wearBeats (h : Hw) (a : Nat) (f : Fld) : (h.sb a f).wearBeats = h.wearBeats := rfl
@[simp] theorem Hw.sb_wear (h : Hw) (a : Nat) (f : Fld) : (h.sb a f).wear = h.wear := rfl
@[simp] theorem Hw.sb_porN (h : Hw) (a : Nat) (f : Fld) : (h.sb a f).porN = h.porN := rfl
@[simp] theorem Hw.sb_rstN (h : Hw) (a : Nat) (f : Fld) : (h.sb a f).rstN = h.rstN := rfl
@[simp] theorem Hw.sb_testEn (h : Hw) (a : Nat) (f : Fld) : (h.sb a f).testEn = h.testEn := rfl
@[simp] theorem Hw.sb_clkStop (h : Hw) (a : Nat) (f : Fld) : (h.sb a f).clkStop = h.clkStop := rfl
@[simp] theorem Hw.sb_pllLost (h : Hw) (a : Nat) (f : Fld) : (h.sb a f).pllLost = h.pllLost := rfl
@[simp] theorem Hw.sb_pllAt (h : Hw) (a : Nat) (f : Fld) : (h.sb a f).pllAt = h.pllAt := rfl
@[simp] theorem Hw.sb_busRd (h : Hw) (a : Nat) (f : Fld) : (h.sb a f).busRd = h.busRd := rfl
@[simp] theorem Hw.sb_seq (h : Hw) (a : Nat) (f : Fld) : (h.sb a f).seq = h.seq := rfl
@[simp] theorem Hw.sb_free (h : Hw) (a : Nat) (f : Fld) : (h.sb a f).free = h.free := rfl

@[simp] theorem Hw.addSat_cfg (h : Hw) (a : Nat) (f : Fld) (n : Nat) : (h.addSat a f n).cfg = h.cfg := rfl
@[simp] theorem Hw.addSat_mem (h : Hw) (a : Nat) (f : Fld) (n : Nat) : (h.addSat a f n).mem = h.mem := rfl
@[simp] theorem Hw.addSat_marked (h : Hw) (a : Nat) (f : Fld) (n : Nat) : (h.addSat a f n).marked = h.marked := rfl
@[simp] theorem Hw.addSat_undefBank (h : Hw) (a : Nat) (f : Fld) (n : Nat) : (h.addSat a f n).undefBank = h.undefBank := rfl
@[simp] theorem Hw.addSat_defd (h : Hw) (a : Nat) (f : Fld) (n : Nat) : (h.addSat a f n).defd = h.defd := rfl
@[simp] theorem Hw.addSat_mats (h : Hw) (a : Nat) (f : Fld) (n : Nat) : (h.addSat a f n).mats = h.mats := rfl
@[simp] theorem Hw.addSat_rmap (h : Hw) (a : Nat) (f : Fld) (n : Nat) : (h.addSat a f n).rmap = h.rmap := rfl
@[simp] theorem Hw.addSat_matResp (h : Hw) (a : Nat) (f : Fld) (n : Nat) : (h.addSat a f n).matResp = h.matResp := rfl
@[simp] theorem Hw.addSat_rgnLogs (h : Hw) (a : Nat) (f : Fld) (n : Nat) : (h.addSat a f n).rgnLogs = h.rgnLogs := rfl
@[simp] theorem Hw.addSat_meuLogs (h : Hw) (a : Nat) (f : Fld) (n : Nat) : (h.addSat a f n).meuLogs = h.meuLogs := rfl
@[simp] theorem Hw.addSat_fronds (h : Hw) (a : Nat) (f : Fld) (n : Nat) : (h.addSat a f n).fronds = h.fronds := rfl
@[simp] theorem Hw.addSat_scratch (h : Hw) (a : Nat) (f : Fld) (n : Nat) : (h.addSat a f n).scratch = h.scratch := rfl
@[simp] theorem Hw.addSat_csRam (h : Hw) (a : Nat) (f : Fld) (n : Nat) : (h.addSat a f n).csRam = h.csRam := rfl
@[simp] theorem Hw.addSat_mbxK (h : Hw) (a : Nat) (f : Fld) (n : Nat) : (h.addSat a f n).mbxK = h.mbxK := rfl
@[simp] theorem Hw.addSat_mbxT (h : Hw) (a : Nat) (f : Fld) (n : Nat) : (h.addSat a f n).mbxT = h.mbxT := rfl
@[simp] theorem Hw.addSat_mgmtQ (h : Hw) (a : Nat) (f : Fld) (n : Nat) : (h.addSat a f n).mgmtQ = h.mgmtQ := rfl
@[simp] theorem Hw.addSat_svcQ (h : Hw) (a : Nat) (f : Fld) (n : Nat) : (h.addSat a f n).svcQ = h.svcQ := rfl
@[simp] theorem Hw.addSat_svcTaken (h : Hw) (a : Nat) (f : Fld) (n : Nat) : (h.addSat a f n).svcTaken = h.svcTaken := rfl
@[simp] theorem Hw.addSat_chains (h : Hw) (a : Nat) (f : Fld) (n : Nat) : (h.addSat a f n).chains = h.chains := rfl
@[simp] theorem Hw.addSat_links (h : Hw) (a : Nat) (f : Fld) (n : Nat) : (h.addSat a f n).links = h.links := rfl
@[simp] theorem Hw.addSat_lanes (h : Hw) (a : Nat) (f : Fld) (n : Nat) : (h.addSat a f n).lanes = h.lanes := rfl
@[simp] theorem Hw.addSat_ctxs (h : Hw) (a : Nat) (f : Fld) (n : Nat) : (h.addSat a f n).ctxs = h.ctxs := rfl
@[simp] theorem Hw.addSat_queues (h : Hw) (a : Nat) (f : Fld) (n : Nat) : (h.addSat a f n).queues = h.queues := rfl
@[simp] theorem Hw.addSat_mreqs (h : Hw) (a : Nat) (f : Fld) (n : Nat) : (h.addSat a f n).mreqs = h.mreqs := rfl
@[simp] theorem Hw.addSat_sresp (h : Hw) (a : Nat) (f : Fld) (n : Nat) : (h.addSat a f n).sresp = h.sresp := rfl
@[simp] theorem Hw.addSat_out (h : Hw) (a : Nat) (f : Fld) (n : Nat) : (h.addSat a f n).out = h.out := rfl
@[simp] theorem Hw.addSat_scred (h : Hw) (a : Nat) (f : Fld) (n : Nat) : (h.addSat a f n).scred = h.scred := rfl
@[simp] theorem Hw.addSat_retired (h : Hw) (a : Nat) (f : Fld) (n : Nat) : (h.addSat a f n).retired = h.retired := rfl
@[simp] theorem Hw.addSat_hpAcc (h : Hw) (a : Nat) (f : Fld) (n : Nat) : (h.addSat a f n).hpAcc = h.hpAcc := rfl
@[simp] theorem Hw.addSat_xlts (h : Hw) (a : Nat) (f : Fld) (n : Nat) : (h.addSat a f n).xlts = h.xlts := rfl
@[simp] theorem Hw.addSat_irqAge (h : Hw) (a : Nat) (f : Fld) (n : Nat) : (h.addSat a f n).irqAge = h.irqAge := rfl
@[simp] theorem Hw.addSat_irqHoff (h : Hw) (a : Nat) (f : Fld) (n : Nat) : (h.addSat a f n).irqHoff = h.irqHoff := rfl
@[simp] theorem Hw.addSat_irqIn (h : Hw) (a : Nat) (f : Fld) (n : Nat) : (h.addSat a f n).irqIn = h.irqIn := rfl
@[simp] theorem Hw.addSat_tmrs (h : Hw) (a : Nat) (f : Fld) (n : Nat) : (h.addSat a f n).tmrs = h.tmrs := rfl
@[simp] theorem Hw.addSat_tmrLink (h : Hw) (a : Nat) (f : Fld) (n : Nat) : (h.addSat a f n).tmrLink = h.tmrLink := rfl
@[simp] theorem Hw.addSat_tgate (h : Hw) (a : Nat) (f : Fld) (n : Nat) : (h.addSat a f n).tgate = h.tgate := rfl
@[simp] theorem Hw.addSat_snaps (h : Hw) (a : Nat) (f : Fld) (n : Nat) : (h.addSat a f n).snaps = h.snaps := rfl
@[simp] theorem Hw.addSat_wdtLim (h : Hw) (a : Nat) (f : Fld) (n : Nat) : (h.addSat a f n).wdtLim = h.wdtLim := rfl
@[simp] theorem Hw.addSat_tb (h : Hw) (a : Nat) (f : Fld) (n : Nat) : (h.addSat a f n).tb = h.tb := rfl
@[simp] theorem Hw.addSat_beatDiv (h : Hw) (a : Nat) (f : Fld) (n : Nat) : (h.addSat a f n).beatDiv = h.beatDiv := rfl
@[simp] theorem Hw.addSat_lchKey (h : Hw) (a : Nat) (f : Fld) (n : Nat) : (h.addSat a f n).lchKey = h.lchKey := rfl
@[simp] theorem Hw.addSat_lchArm (h : Hw) (a : Nat) (f : Fld) (n : Nat) : (h.addSat a f n).lchArm = h.lchArm := rfl
@[simp] theorem Hw.addSat_lchSalt (h : Hw) (a : Nat) (f : Fld) (n : Nat) : (h.addSat a f n).lchSalt = h.lchSalt := rfl
@[simp] theorem Hw.addSat_lchExp (h : Hw) (a : Nat) (f : Fld) (n : Nat) : (h.addSat a f n).lchExp = h.lchExp := rfl
@[simp] theorem Hw.addSat_boot (h : Hw) (a : Nat) (f : Fld) (n : Nat) : (h.addSat a f n).boot = h.boot := rfl
@[simp] theorem Hw.addSat_dbg (h : Hw) (a : Nat) (f : Fld) (n : Nat) : (h.addSat a f n).dbg = h.dbg := rfl
@[simp] theorem Hw.addSat_trace (h : Hw) (a : Nat) (f : Fld) (n : Nat) : (h.addSat a f n).trace = h.trace := rfl
@[simp] theorem Hw.addSat_pwr (h : Hw) (a : Nat) (f : Fld) (n : Nat) : (h.addSat a f n).pwr = h.pwr := rfl
@[simp] theorem Hw.addSat_recs (h : Hw) (a : Nat) (f : Fld) (n : Nat) : (h.addSat a f n).recs = h.recs := rfl
@[simp] theorem Hw.addSat_wearBeats (h : Hw) (a : Nat) (f : Fld) (n : Nat) : (h.addSat a f n).wearBeats = h.wearBeats := rfl
@[simp] theorem Hw.addSat_wear (h : Hw) (a : Nat) (f : Fld) (n : Nat) : (h.addSat a f n).wear = h.wear := rfl
@[simp] theorem Hw.addSat_porN (h : Hw) (a : Nat) (f : Fld) (n : Nat) : (h.addSat a f n).porN = h.porN := rfl
@[simp] theorem Hw.addSat_rstN (h : Hw) (a : Nat) (f : Fld) (n : Nat) : (h.addSat a f n).rstN = h.rstN := rfl
@[simp] theorem Hw.addSat_testEn (h : Hw) (a : Nat) (f : Fld) (n : Nat) : (h.addSat a f n).testEn = h.testEn := rfl
@[simp] theorem Hw.addSat_clkStop (h : Hw) (a : Nat) (f : Fld) (n : Nat) : (h.addSat a f n).clkStop = h.clkStop := rfl
@[simp] theorem Hw.addSat_pllLost (h : Hw) (a : Nat) (f : Fld) (n : Nat) : (h.addSat a f n).pllLost = h.pllLost := rfl
@[simp] theorem Hw.addSat_pllAt (h : Hw) (a : Nat) (f : Fld) (n : Nat) : (h.addSat a f n).pllAt = h.pllAt := rfl
@[simp] theorem Hw.addSat_busRd (h : Hw) (a : Nat) (f : Fld) (n : Nat) : (h.addSat a f n).busRd = h.busRd := rfl
@[simp] theorem Hw.addSat_seq (h : Hw) (a : Nat) (f : Fld) (n : Nat) : (h.addSat a f n).seq = h.seq := rfl
@[simp] theorem Hw.addSat_free (h : Hw) (a : Nat) (f : Fld) (n : Nat) : (h.addSat a f n).free = h.free := rfl

@[simp] theorem Hw.addWrap_cfg (h : Hw) (a : Nat) (f : Fld) (n : Nat) : (h.addWrap a f n).cfg = h.cfg := rfl
@[simp] theorem Hw.addWrap_mem (h : Hw) (a : Nat) (f : Fld) (n : Nat) : (h.addWrap a f n).mem = h.mem := rfl
@[simp] theorem Hw.addWrap_marked (h : Hw) (a : Nat) (f : Fld) (n : Nat) : (h.addWrap a f n).marked = h.marked := rfl
@[simp] theorem Hw.addWrap_undefBank (h : Hw) (a : Nat) (f : Fld) (n : Nat) : (h.addWrap a f n).undefBank = h.undefBank := rfl
@[simp] theorem Hw.addWrap_defd (h : Hw) (a : Nat) (f : Fld) (n : Nat) : (h.addWrap a f n).defd = h.defd := rfl
@[simp] theorem Hw.addWrap_mats (h : Hw) (a : Nat) (f : Fld) (n : Nat) : (h.addWrap a f n).mats = h.mats := rfl
@[simp] theorem Hw.addWrap_rmap (h : Hw) (a : Nat) (f : Fld) (n : Nat) : (h.addWrap a f n).rmap = h.rmap := rfl
@[simp] theorem Hw.addWrap_matResp (h : Hw) (a : Nat) (f : Fld) (n : Nat) : (h.addWrap a f n).matResp = h.matResp := rfl
@[simp] theorem Hw.addWrap_rgnLogs (h : Hw) (a : Nat) (f : Fld) (n : Nat) : (h.addWrap a f n).rgnLogs = h.rgnLogs := rfl
@[simp] theorem Hw.addWrap_meuLogs (h : Hw) (a : Nat) (f : Fld) (n : Nat) : (h.addWrap a f n).meuLogs = h.meuLogs := rfl
@[simp] theorem Hw.addWrap_fronds (h : Hw) (a : Nat) (f : Fld) (n : Nat) : (h.addWrap a f n).fronds = h.fronds := rfl
@[simp] theorem Hw.addWrap_scratch (h : Hw) (a : Nat) (f : Fld) (n : Nat) : (h.addWrap a f n).scratch = h.scratch := rfl
@[simp] theorem Hw.addWrap_csRam (h : Hw) (a : Nat) (f : Fld) (n : Nat) : (h.addWrap a f n).csRam = h.csRam := rfl
@[simp] theorem Hw.addWrap_mbxK (h : Hw) (a : Nat) (f : Fld) (n : Nat) : (h.addWrap a f n).mbxK = h.mbxK := rfl
@[simp] theorem Hw.addWrap_mbxT (h : Hw) (a : Nat) (f : Fld) (n : Nat) : (h.addWrap a f n).mbxT = h.mbxT := rfl
@[simp] theorem Hw.addWrap_mgmtQ (h : Hw) (a : Nat) (f : Fld) (n : Nat) : (h.addWrap a f n).mgmtQ = h.mgmtQ := rfl
@[simp] theorem Hw.addWrap_svcQ (h : Hw) (a : Nat) (f : Fld) (n : Nat) : (h.addWrap a f n).svcQ = h.svcQ := rfl
@[simp] theorem Hw.addWrap_svcTaken (h : Hw) (a : Nat) (f : Fld) (n : Nat) : (h.addWrap a f n).svcTaken = h.svcTaken := rfl
@[simp] theorem Hw.addWrap_chains (h : Hw) (a : Nat) (f : Fld) (n : Nat) : (h.addWrap a f n).chains = h.chains := rfl
@[simp] theorem Hw.addWrap_links (h : Hw) (a : Nat) (f : Fld) (n : Nat) : (h.addWrap a f n).links = h.links := rfl
@[simp] theorem Hw.addWrap_lanes (h : Hw) (a : Nat) (f : Fld) (n : Nat) : (h.addWrap a f n).lanes = h.lanes := rfl
@[simp] theorem Hw.addWrap_ctxs (h : Hw) (a : Nat) (f : Fld) (n : Nat) : (h.addWrap a f n).ctxs = h.ctxs := rfl
@[simp] theorem Hw.addWrap_queues (h : Hw) (a : Nat) (f : Fld) (n : Nat) : (h.addWrap a f n).queues = h.queues := rfl
@[simp] theorem Hw.addWrap_mreqs (h : Hw) (a : Nat) (f : Fld) (n : Nat) : (h.addWrap a f n).mreqs = h.mreqs := rfl
@[simp] theorem Hw.addWrap_sresp (h : Hw) (a : Nat) (f : Fld) (n : Nat) : (h.addWrap a f n).sresp = h.sresp := rfl
@[simp] theorem Hw.addWrap_out (h : Hw) (a : Nat) (f : Fld) (n : Nat) : (h.addWrap a f n).out = h.out := rfl
@[simp] theorem Hw.addWrap_scred (h : Hw) (a : Nat) (f : Fld) (n : Nat) : (h.addWrap a f n).scred = h.scred := rfl
@[simp] theorem Hw.addWrap_retired (h : Hw) (a : Nat) (f : Fld) (n : Nat) : (h.addWrap a f n).retired = h.retired := rfl
@[simp] theorem Hw.addWrap_hpAcc (h : Hw) (a : Nat) (f : Fld) (n : Nat) : (h.addWrap a f n).hpAcc = h.hpAcc := rfl
@[simp] theorem Hw.addWrap_xlts (h : Hw) (a : Nat) (f : Fld) (n : Nat) : (h.addWrap a f n).xlts = h.xlts := rfl
@[simp] theorem Hw.addWrap_irqAge (h : Hw) (a : Nat) (f : Fld) (n : Nat) : (h.addWrap a f n).irqAge = h.irqAge := rfl
@[simp] theorem Hw.addWrap_irqHoff (h : Hw) (a : Nat) (f : Fld) (n : Nat) : (h.addWrap a f n).irqHoff = h.irqHoff := rfl
@[simp] theorem Hw.addWrap_irqIn (h : Hw) (a : Nat) (f : Fld) (n : Nat) : (h.addWrap a f n).irqIn = h.irqIn := rfl
@[simp] theorem Hw.addWrap_tmrs (h : Hw) (a : Nat) (f : Fld) (n : Nat) : (h.addWrap a f n).tmrs = h.tmrs := rfl
@[simp] theorem Hw.addWrap_tmrLink (h : Hw) (a : Nat) (f : Fld) (n : Nat) : (h.addWrap a f n).tmrLink = h.tmrLink := rfl
@[simp] theorem Hw.addWrap_tgate (h : Hw) (a : Nat) (f : Fld) (n : Nat) : (h.addWrap a f n).tgate = h.tgate := rfl
@[simp] theorem Hw.addWrap_snaps (h : Hw) (a : Nat) (f : Fld) (n : Nat) : (h.addWrap a f n).snaps = h.snaps := rfl
@[simp] theorem Hw.addWrap_wdtLim (h : Hw) (a : Nat) (f : Fld) (n : Nat) : (h.addWrap a f n).wdtLim = h.wdtLim := rfl
@[simp] theorem Hw.addWrap_tb (h : Hw) (a : Nat) (f : Fld) (n : Nat) : (h.addWrap a f n).tb = h.tb := rfl
@[simp] theorem Hw.addWrap_beatDiv (h : Hw) (a : Nat) (f : Fld) (n : Nat) : (h.addWrap a f n).beatDiv = h.beatDiv := rfl
@[simp] theorem Hw.addWrap_lchKey (h : Hw) (a : Nat) (f : Fld) (n : Nat) : (h.addWrap a f n).lchKey = h.lchKey := rfl
@[simp] theorem Hw.addWrap_lchArm (h : Hw) (a : Nat) (f : Fld) (n : Nat) : (h.addWrap a f n).lchArm = h.lchArm := rfl
@[simp] theorem Hw.addWrap_lchSalt (h : Hw) (a : Nat) (f : Fld) (n : Nat) : (h.addWrap a f n).lchSalt = h.lchSalt := rfl
@[simp] theorem Hw.addWrap_lchExp (h : Hw) (a : Nat) (f : Fld) (n : Nat) : (h.addWrap a f n).lchExp = h.lchExp := rfl
@[simp] theorem Hw.addWrap_boot (h : Hw) (a : Nat) (f : Fld) (n : Nat) : (h.addWrap a f n).boot = h.boot := rfl
@[simp] theorem Hw.addWrap_dbg (h : Hw) (a : Nat) (f : Fld) (n : Nat) : (h.addWrap a f n).dbg = h.dbg := rfl
@[simp] theorem Hw.addWrap_trace (h : Hw) (a : Nat) (f : Fld) (n : Nat) : (h.addWrap a f n).trace = h.trace := rfl
@[simp] theorem Hw.addWrap_pwr (h : Hw) (a : Nat) (f : Fld) (n : Nat) : (h.addWrap a f n).pwr = h.pwr := rfl
@[simp] theorem Hw.addWrap_recs (h : Hw) (a : Nat) (f : Fld) (n : Nat) : (h.addWrap a f n).recs = h.recs := rfl
@[simp] theorem Hw.addWrap_wearBeats (h : Hw) (a : Nat) (f : Fld) (n : Nat) : (h.addWrap a f n).wearBeats = h.wearBeats := rfl
@[simp] theorem Hw.addWrap_wear (h : Hw) (a : Nat) (f : Fld) (n : Nat) : (h.addWrap a f n).wear = h.wear := rfl
@[simp] theorem Hw.addWrap_porN (h : Hw) (a : Nat) (f : Fld) (n : Nat) : (h.addWrap a f n).porN = h.porN := rfl
@[simp] theorem Hw.addWrap_rstN (h : Hw) (a : Nat) (f : Fld) (n : Nat) : (h.addWrap a f n).rstN = h.rstN := rfl
@[simp] theorem Hw.addWrap_testEn (h : Hw) (a : Nat) (f : Fld) (n : Nat) : (h.addWrap a f n).testEn = h.testEn := rfl
@[simp] theorem Hw.addWrap_clkStop (h : Hw) (a : Nat) (f : Fld) (n : Nat) : (h.addWrap a f n).clkStop = h.clkStop := rfl
@[simp] theorem Hw.addWrap_pllLost (h : Hw) (a : Nat) (f : Fld) (n : Nat) : (h.addWrap a f n).pllLost = h.pllLost := rfl
@[simp] theorem Hw.addWrap_pllAt (h : Hw) (a : Nat) (f : Fld) (n : Nat) : (h.addWrap a f n).pllAt = h.pllAt := rfl
@[simp] theorem Hw.addWrap_busRd (h : Hw) (a : Nat) (f : Fld) (n : Nat) : (h.addWrap a f n).busRd = h.busRd := rfl
@[simp] theorem Hw.addWrap_seq (h : Hw) (a : Nat) (f : Fld) (n : Nat) : (h.addWrap a f n).seq = h.seq := rfl
@[simp] theorem Hw.addWrap_free (h : Hw) (a : Nat) (f : Fld) (n : Nat) : (h.addWrap a f n).free = h.free := rfl

@[simp] theorem Hw.beatCopy_cfg (h : Hw) (a b : Nat) : (h.beatCopy a b).cfg = h.cfg := rfl
@[simp] theorem Hw.beatCopy_mem (h : Hw) (a b : Nat) : (h.beatCopy a b).mem = h.mem := rfl
@[simp] theorem Hw.beatCopy_marked (h : Hw) (a b : Nat) : (h.beatCopy a b).marked = h.marked := rfl
@[simp] theorem Hw.beatCopy_undefBank (h : Hw) (a b : Nat) : (h.beatCopy a b).undefBank = h.undefBank := rfl
@[simp] theorem Hw.beatCopy_defd (h : Hw) (a b : Nat) : (h.beatCopy a b).defd = h.defd := rfl
@[simp] theorem Hw.beatCopy_mats (h : Hw) (a b : Nat) : (h.beatCopy a b).mats = h.mats := rfl
@[simp] theorem Hw.beatCopy_rmap (h : Hw) (a b : Nat) : (h.beatCopy a b).rmap = h.rmap := rfl
@[simp] theorem Hw.beatCopy_matResp (h : Hw) (a b : Nat) : (h.beatCopy a b).matResp = h.matResp := rfl
@[simp] theorem Hw.beatCopy_rgnLogs (h : Hw) (a b : Nat) : (h.beatCopy a b).rgnLogs = h.rgnLogs := rfl
@[simp] theorem Hw.beatCopy_meuLogs (h : Hw) (a b : Nat) : (h.beatCopy a b).meuLogs = h.meuLogs := rfl
@[simp] theorem Hw.beatCopy_fronds (h : Hw) (a b : Nat) : (h.beatCopy a b).fronds = h.fronds := rfl
@[simp] theorem Hw.beatCopy_scratch (h : Hw) (a b : Nat) : (h.beatCopy a b).scratch = h.scratch := rfl
@[simp] theorem Hw.beatCopy_csRam (h : Hw) (a b : Nat) : (h.beatCopy a b).csRam = h.csRam := rfl
@[simp] theorem Hw.beatCopy_mbxK (h : Hw) (a b : Nat) : (h.beatCopy a b).mbxK = h.mbxK := rfl
@[simp] theorem Hw.beatCopy_mbxT (h : Hw) (a b : Nat) : (h.beatCopy a b).mbxT = h.mbxT := rfl
@[simp] theorem Hw.beatCopy_mgmtQ (h : Hw) (a b : Nat) : (h.beatCopy a b).mgmtQ = h.mgmtQ := rfl
@[simp] theorem Hw.beatCopy_svcQ (h : Hw) (a b : Nat) : (h.beatCopy a b).svcQ = h.svcQ := rfl
@[simp] theorem Hw.beatCopy_svcTaken (h : Hw) (a b : Nat) : (h.beatCopy a b).svcTaken = h.svcTaken := rfl
@[simp] theorem Hw.beatCopy_chains (h : Hw) (a b : Nat) : (h.beatCopy a b).chains = h.chains := rfl
@[simp] theorem Hw.beatCopy_links (h : Hw) (a b : Nat) : (h.beatCopy a b).links = h.links := rfl
@[simp] theorem Hw.beatCopy_lanes (h : Hw) (a b : Nat) : (h.beatCopy a b).lanes = h.lanes := rfl
@[simp] theorem Hw.beatCopy_ctxs (h : Hw) (a b : Nat) : (h.beatCopy a b).ctxs = h.ctxs := rfl
@[simp] theorem Hw.beatCopy_queues (h : Hw) (a b : Nat) : (h.beatCopy a b).queues = h.queues := rfl
@[simp] theorem Hw.beatCopy_mreqs (h : Hw) (a b : Nat) : (h.beatCopy a b).mreqs = h.mreqs := rfl
@[simp] theorem Hw.beatCopy_sresp (h : Hw) (a b : Nat) : (h.beatCopy a b).sresp = h.sresp := rfl
@[simp] theorem Hw.beatCopy_out (h : Hw) (a b : Nat) : (h.beatCopy a b).out = h.out := rfl
@[simp] theorem Hw.beatCopy_scred (h : Hw) (a b : Nat) : (h.beatCopy a b).scred = h.scred := rfl
@[simp] theorem Hw.beatCopy_retired (h : Hw) (a b : Nat) : (h.beatCopy a b).retired = h.retired := rfl
@[simp] theorem Hw.beatCopy_hpAcc (h : Hw) (a b : Nat) : (h.beatCopy a b).hpAcc = h.hpAcc := rfl
@[simp] theorem Hw.beatCopy_xlts (h : Hw) (a b : Nat) : (h.beatCopy a b).xlts = h.xlts := rfl
@[simp] theorem Hw.beatCopy_irqAge (h : Hw) (a b : Nat) : (h.beatCopy a b).irqAge = h.irqAge := rfl
@[simp] theorem Hw.beatCopy_irqHoff (h : Hw) (a b : Nat) : (h.beatCopy a b).irqHoff = h.irqHoff := rfl
@[simp] theorem Hw.beatCopy_irqIn (h : Hw) (a b : Nat) : (h.beatCopy a b).irqIn = h.irqIn := rfl
@[simp] theorem Hw.beatCopy_tmrs (h : Hw) (a b : Nat) : (h.beatCopy a b).tmrs = h.tmrs := rfl
@[simp] theorem Hw.beatCopy_tmrLink (h : Hw) (a b : Nat) : (h.beatCopy a b).tmrLink = h.tmrLink := rfl
@[simp] theorem Hw.beatCopy_tgate (h : Hw) (a b : Nat) : (h.beatCopy a b).tgate = h.tgate := rfl
@[simp] theorem Hw.beatCopy_snaps (h : Hw) (a b : Nat) : (h.beatCopy a b).snaps = h.snaps := rfl
@[simp] theorem Hw.beatCopy_wdtLim (h : Hw) (a b : Nat) : (h.beatCopy a b).wdtLim = h.wdtLim := rfl
@[simp] theorem Hw.beatCopy_tb (h : Hw) (a b : Nat) : (h.beatCopy a b).tb = h.tb := rfl
@[simp] theorem Hw.beatCopy_beatDiv (h : Hw) (a b : Nat) : (h.beatCopy a b).beatDiv = h.beatDiv := rfl
@[simp] theorem Hw.beatCopy_lchKey (h : Hw) (a b : Nat) : (h.beatCopy a b).lchKey = h.lchKey := rfl
@[simp] theorem Hw.beatCopy_lchArm (h : Hw) (a b : Nat) : (h.beatCopy a b).lchArm = h.lchArm := rfl
@[simp] theorem Hw.beatCopy_lchSalt (h : Hw) (a b : Nat) : (h.beatCopy a b).lchSalt = h.lchSalt := rfl
@[simp] theorem Hw.beatCopy_lchExp (h : Hw) (a b : Nat) : (h.beatCopy a b).lchExp = h.lchExp := rfl
@[simp] theorem Hw.beatCopy_boot (h : Hw) (a b : Nat) : (h.beatCopy a b).boot = h.boot := rfl
@[simp] theorem Hw.beatCopy_dbg (h : Hw) (a b : Nat) : (h.beatCopy a b).dbg = h.dbg := rfl
@[simp] theorem Hw.beatCopy_trace (h : Hw) (a b : Nat) : (h.beatCopy a b).trace = h.trace := rfl
@[simp] theorem Hw.beatCopy_pwr (h : Hw) (a b : Nat) : (h.beatCopy a b).pwr = h.pwr := rfl
@[simp] theorem Hw.beatCopy_recs (h : Hw) (a b : Nat) : (h.beatCopy a b).recs = h.recs := rfl
@[simp] theorem Hw.beatCopy_wearBeats (h : Hw) (a b : Nat) : (h.beatCopy a b).wearBeats = h.wearBeats := rfl
@[simp] theorem Hw.beatCopy_wear (h : Hw) (a b : Nat) : (h.beatCopy a b).wear = h.wear := rfl
@[simp] theorem Hw.beatCopy_porN (h : Hw) (a b : Nat) : (h.beatCopy a b).porN = h.porN := rfl
@[simp] theorem Hw.beatCopy_rstN (h : Hw) (a b : Nat) : (h.beatCopy a b).rstN = h.rstN := rfl
@[simp] theorem Hw.beatCopy_testEn (h : Hw) (a b : Nat) : (h.beatCopy a b).testEn = h.testEn := rfl
@[simp] theorem Hw.beatCopy_clkStop (h : Hw) (a b : Nat) : (h.beatCopy a b).clkStop = h.clkStop := rfl
@[simp] theorem Hw.beatCopy_pllLost (h : Hw) (a b : Nat) : (h.beatCopy a b).pllLost = h.pllLost := rfl
@[simp] theorem Hw.beatCopy_pllAt (h : Hw) (a b : Nat) : (h.beatCopy a b).pllAt = h.pllAt := rfl
@[simp] theorem Hw.beatCopy_busRd (h : Hw) (a b : Nat) : (h.beatCopy a b).busRd = h.busRd := rfl
@[simp] theorem Hw.beatCopy_seq (h : Hw) (a b : Nat) : (h.beatCopy a b).seq = h.seq := rfl
@[simp] theorem Hw.beatCopy_free (h : Hw) (a b : Nat) : (h.beatCopy a b).free = h.free := rfl

@[simp] theorem Hw.resetRegs_cfg (h : Hw) (p : Nat → Bool) : (h.resetRegs p).cfg = h.cfg := rfl
@[simp] theorem Hw.resetRegs_mem (h : Hw) (p : Nat → Bool) : (h.resetRegs p).mem = h.mem := rfl
@[simp] theorem Hw.resetRegs_marked (h : Hw) (p : Nat → Bool) : (h.resetRegs p).marked = h.marked := rfl
@[simp] theorem Hw.resetRegs_undefBank (h : Hw) (p : Nat → Bool) : (h.resetRegs p).undefBank = h.undefBank := rfl
@[simp] theorem Hw.resetRegs_defd (h : Hw) (p : Nat → Bool) : (h.resetRegs p).defd = h.defd := rfl
@[simp] theorem Hw.resetRegs_mats (h : Hw) (p : Nat → Bool) : (h.resetRegs p).mats = h.mats := rfl
@[simp] theorem Hw.resetRegs_rmap (h : Hw) (p : Nat → Bool) : (h.resetRegs p).rmap = h.rmap := rfl
@[simp] theorem Hw.resetRegs_matResp (h : Hw) (p : Nat → Bool) : (h.resetRegs p).matResp = h.matResp := rfl
@[simp] theorem Hw.resetRegs_rgnLogs (h : Hw) (p : Nat → Bool) : (h.resetRegs p).rgnLogs = h.rgnLogs := rfl
@[simp] theorem Hw.resetRegs_meuLogs (h : Hw) (p : Nat → Bool) : (h.resetRegs p).meuLogs = h.meuLogs := rfl
@[simp] theorem Hw.resetRegs_fronds (h : Hw) (p : Nat → Bool) : (h.resetRegs p).fronds = h.fronds := rfl
@[simp] theorem Hw.resetRegs_scratch (h : Hw) (p : Nat → Bool) : (h.resetRegs p).scratch = h.scratch := rfl
@[simp] theorem Hw.resetRegs_csRam (h : Hw) (p : Nat → Bool) : (h.resetRegs p).csRam = h.csRam := rfl
@[simp] theorem Hw.resetRegs_mbxK (h : Hw) (p : Nat → Bool) : (h.resetRegs p).mbxK = h.mbxK := rfl
@[simp] theorem Hw.resetRegs_mbxT (h : Hw) (p : Nat → Bool) : (h.resetRegs p).mbxT = h.mbxT := rfl
@[simp] theorem Hw.resetRegs_mgmtQ (h : Hw) (p : Nat → Bool) : (h.resetRegs p).mgmtQ = h.mgmtQ := rfl
@[simp] theorem Hw.resetRegs_svcQ (h : Hw) (p : Nat → Bool) : (h.resetRegs p).svcQ = h.svcQ := rfl
@[simp] theorem Hw.resetRegs_svcTaken (h : Hw) (p : Nat → Bool) : (h.resetRegs p).svcTaken = h.svcTaken := rfl
@[simp] theorem Hw.resetRegs_chains (h : Hw) (p : Nat → Bool) : (h.resetRegs p).chains = h.chains := rfl
@[simp] theorem Hw.resetRegs_links (h : Hw) (p : Nat → Bool) : (h.resetRegs p).links = h.links := rfl
@[simp] theorem Hw.resetRegs_lanes (h : Hw) (p : Nat → Bool) : (h.resetRegs p).lanes = h.lanes := rfl
@[simp] theorem Hw.resetRegs_ctxs (h : Hw) (p : Nat → Bool) : (h.resetRegs p).ctxs = h.ctxs := rfl
@[simp] theorem Hw.resetRegs_queues (h : Hw) (p : Nat → Bool) : (h.resetRegs p).queues = h.queues := rfl
@[simp] theorem Hw.resetRegs_mreqs (h : Hw) (p : Nat → Bool) : (h.resetRegs p).mreqs = h.mreqs := rfl
@[simp] theorem Hw.resetRegs_sresp (h : Hw) (p : Nat → Bool) : (h.resetRegs p).sresp = h.sresp := rfl
@[simp] theorem Hw.resetRegs_out (h : Hw) (p : Nat → Bool) : (h.resetRegs p).out = h.out := rfl
@[simp] theorem Hw.resetRegs_scred (h : Hw) (p : Nat → Bool) : (h.resetRegs p).scred = h.scred := rfl
@[simp] theorem Hw.resetRegs_retired (h : Hw) (p : Nat → Bool) : (h.resetRegs p).retired = h.retired := rfl
@[simp] theorem Hw.resetRegs_hpAcc (h : Hw) (p : Nat → Bool) : (h.resetRegs p).hpAcc = h.hpAcc := rfl
@[simp] theorem Hw.resetRegs_xlts (h : Hw) (p : Nat → Bool) : (h.resetRegs p).xlts = h.xlts := rfl
@[simp] theorem Hw.resetRegs_irqAge (h : Hw) (p : Nat → Bool) : (h.resetRegs p).irqAge = h.irqAge := rfl
@[simp] theorem Hw.resetRegs_irqHoff (h : Hw) (p : Nat → Bool) : (h.resetRegs p).irqHoff = h.irqHoff := rfl
@[simp] theorem Hw.resetRegs_irqIn (h : Hw) (p : Nat → Bool) : (h.resetRegs p).irqIn = h.irqIn := rfl
@[simp] theorem Hw.resetRegs_tmrs (h : Hw) (p : Nat → Bool) : (h.resetRegs p).tmrs = h.tmrs := rfl
@[simp] theorem Hw.resetRegs_tmrLink (h : Hw) (p : Nat → Bool) : (h.resetRegs p).tmrLink = h.tmrLink := rfl
@[simp] theorem Hw.resetRegs_tgate (h : Hw) (p : Nat → Bool) : (h.resetRegs p).tgate = h.tgate := rfl
@[simp] theorem Hw.resetRegs_snaps (h : Hw) (p : Nat → Bool) : (h.resetRegs p).snaps = h.snaps := rfl
@[simp] theorem Hw.resetRegs_wdtLim (h : Hw) (p : Nat → Bool) : (h.resetRegs p).wdtLim = h.wdtLim := rfl
@[simp] theorem Hw.resetRegs_tb (h : Hw) (p : Nat → Bool) : (h.resetRegs p).tb = h.tb := rfl
@[simp] theorem Hw.resetRegs_beatDiv (h : Hw) (p : Nat → Bool) : (h.resetRegs p).beatDiv = h.beatDiv := rfl
@[simp] theorem Hw.resetRegs_lchKey (h : Hw) (p : Nat → Bool) : (h.resetRegs p).lchKey = h.lchKey := rfl
@[simp] theorem Hw.resetRegs_lchArm (h : Hw) (p : Nat → Bool) : (h.resetRegs p).lchArm = h.lchArm := rfl
@[simp] theorem Hw.resetRegs_lchSalt (h : Hw) (p : Nat → Bool) : (h.resetRegs p).lchSalt = h.lchSalt := rfl
@[simp] theorem Hw.resetRegs_lchExp (h : Hw) (p : Nat → Bool) : (h.resetRegs p).lchExp = h.lchExp := rfl
@[simp] theorem Hw.resetRegs_boot (h : Hw) (p : Nat → Bool) : (h.resetRegs p).boot = h.boot := rfl
@[simp] theorem Hw.resetRegs_dbg (h : Hw) (p : Nat → Bool) : (h.resetRegs p).dbg = h.dbg := rfl
@[simp] theorem Hw.resetRegs_trace (h : Hw) (p : Nat → Bool) : (h.resetRegs p).trace = h.trace := rfl
@[simp] theorem Hw.resetRegs_pwr (h : Hw) (p : Nat → Bool) : (h.resetRegs p).pwr = h.pwr := rfl
@[simp] theorem Hw.resetRegs_recs (h : Hw) (p : Nat → Bool) : (h.resetRegs p).recs = h.recs := rfl
@[simp] theorem Hw.resetRegs_wearBeats (h : Hw) (p : Nat → Bool) : (h.resetRegs p).wearBeats = h.wearBeats := rfl
@[simp] theorem Hw.resetRegs_wear (h : Hw) (p : Nat → Bool) : (h.resetRegs p).wear = h.wear := rfl
@[simp] theorem Hw.resetRegs_porN (h : Hw) (p : Nat → Bool) : (h.resetRegs p).porN = h.porN := rfl
@[simp] theorem Hw.resetRegs_rstN (h : Hw) (p : Nat → Bool) : (h.resetRegs p).rstN = h.rstN := rfl
@[simp] theorem Hw.resetRegs_testEn (h : Hw) (p : Nat → Bool) : (h.resetRegs p).testEn = h.testEn := rfl
@[simp] theorem Hw.resetRegs_clkStop (h : Hw) (p : Nat → Bool) : (h.resetRegs p).clkStop = h.clkStop := rfl
@[simp] theorem Hw.resetRegs_pllLost (h : Hw) (p : Nat → Bool) : (h.resetRegs p).pllLost = h.pllLost := rfl
@[simp] theorem Hw.resetRegs_pllAt (h : Hw) (p : Nat → Bool) : (h.resetRegs p).pllAt = h.pllAt := rfl
@[simp] theorem Hw.resetRegs_busRd (h : Hw) (p : Nat → Bool) : (h.resetRegs p).busRd = h.busRd := rfl
@[simp] theorem Hw.resetRegs_seq (h : Hw) (p : Nat → Bool) : (h.resetRegs p).seq = h.seq := rfl
@[simp] theorem Hw.resetRegs_free (h : Hw) (p : Nat → Bool) : (h.resetRegs p).free = h.free := rfl

end Sys2Proof.Machine
end

