-- ==== Sys2Proof/Laws/Maps.lean ====
section
/-!
SUPPORT. The laws of the sparse maps, of the byte memory's canonical form, of register fields and of the register file: read after write, and that a write leaves every
other place alone.
-/
namespace Sys2Proof.Machine

variable {α : Type}

/-! ### Sparse maps -/

theorem kvFind_kvIns_same (m : KV α) (k : Nat) (v : α) : kvFind (kvIns m k v) k = some v := by
  induction m with
  | nil => simp [kvIns, kvFind]
  | cons e m ih =>
    obtain ⟨k', v'⟩ := e
    unfold kvIns
    split
    · simp [kvFind]
    · split
      · simp [kvFind]
      · rename_i h; simp [kvFind, h, ih]

theorem kvFind_kvIns_other (m : KV α) {k j : Nat} (v : α) (hne : j ≠ k) : kvFind (kvIns m k v) j = kvFind m j := by
  induction m with
  | nil => simp [kvIns, kvFind, hne]
  | cons e m ih =>
    obtain ⟨k', v'⟩ := e
    unfold kvIns
    split
    · simp [kvFind, hne]
    · split
      · rename_i h; subst h; simp [kvFind, hne]
      · simp only [kvFind, ih]

theorem kvFind_kvKeep (m : KV α) (p : Nat → Bool) (k : Nat) : kvFind (kvKeep p m) k = if p k then kvFind m k else none := by
  induction m with
  | nil => simp [kvKeep, kvFind]
  | cons e m ih =>
    obtain ⟨k', v'⟩ := e
    unfold kvKeep at ih ⊢
    by_cases hp : p k'
    · by_cases hk : k = k'
      · subst hk; simp [kvFind, hp]
      · simp [kvFind, hp, hk, ih]
    · by_cases hk : k = k'
      · subst hk; simp [hp] at ih ⊢; exact ih
      · simp [kvFind, hp, hk, ih]

@[simp] theorem kvGet_kvIns_same (d : α) (m : KV α) (k : Nat) (v : α) : kvGet d (kvIns m k v) k = v := by
  simp [kvGet, kvFind_kvIns_same]

theorem kvGet_kvIns_other (d : α) (m : KV α) {k j : Nat} (v : α) (hne : j ≠ k) : kvGet d (kvIns m k v) j = kvGet d m j := by
  simp [kvGet, kvFind_kvIns_other m v hne]

/-! ### Rising keys -/

theorem kvSorted_iff (m : KV α) : kvSorted m = true ↔ (m.map (·.1)).Pairwise (· < ·) := by simp [kvSorted]

theorem mem_keys_kvIns (m : KV α) (k : Nat) (v : α) (j : Nat) (hj : j ∈ (kvIns m k v).map (·.1)) : j = k ∨ j ∈ m.map (·.1) := by
  induction m with
  | nil => simp [kvIns] at hj; exact .inl hj
  | cons e m ih =>
    obtain ⟨k', v'⟩ := e
    unfold kvIns at hj
    split at hj
    · simpa using hj
    · split at hj
      · simp at hj ⊢; tauto
      · simp only [List.map_cons, List.mem_cons] at hj ⊢
        rcases hj with h | h
        · exact .inr (.inl h)
        · rcases ih h with h | h
          · exact .inl h
          · exact .inr (.inr h)

/-- Storing a value keeps the keys strictly rising. -/
theorem kvIns_sorted (m : KV α) (k : Nat) (v : α) (hm : kvSorted m = true) : kvSorted (kvIns m k v) = true := by
  rw [kvSorted_iff] at hm ⊢
  induction m with
  | nil => simp [kvIns]
  | cons e m ih =>
    obtain ⟨k', v'⟩ := e
    simp only [List.map_cons, List.pairwise_cons] at hm
    unfold kvIns
    split
    · rename_i h
      simp only [List.map_cons, List.pairwise_cons, List.mem_cons]
      exact ⟨fun j hj => by rcases hj with rfl | hj; exacts [h, lt_trans h (hm.1 j hj)], hm⟩
    · split
      · rename_i h; subst h; simpa using hm
      · rename_i h1 h2
        simp only [List.map_cons, List.pairwise_cons]
        refine ⟨fun j hj => ?_, ih hm.2⟩
        rcases mem_keys_kvIns m k v j hj with rfl | hj
        · omega
        · exact hm.1 j hj

/-- Keeping some entries keeps the keys strictly rising. -/
theorem kvKeep_sorted (m : KV α) (p : Nat → Bool) (hm : kvSorted m = true) : kvSorted (kvKeep p m) = true := by
  rw [kvSorted_iff] at hm ⊢
  exact hm.sublist (List.Sublist.map _ List.filter_sublist)

theorem kvDel_sorted (m : KV α) (k : Nat) (hm : kvSorted m = true) : kvSorted (kvDel m k) = true :=
  kvKeep_sorted m (fun j => j != k) hm

/-! ### Byte memory -/

theorem mem_kvIns (m : KV α) (k : Nat) (v : α) (e : Nat × α) (he : e ∈ kvIns m k v) : e = (k, v) ∨ e ∈ m := by
  induction m with
  | nil => simp [kvIns] at he; exact .inl he
  | cons x m ih =>
    obtain ⟨k', v'⟩ := x
    unfold kvIns at he
    split at he
    · simpa using he
    · split at he
      · simp at he ⊢; tauto
      · simp only [List.mem_cons] at he ⊢
        rcases he with h | h
        · exact .inr (.inl h)
        · rcases ih h with h | h
          · exact .inl h
          · exact .inr (.inr h)

/-- Storing a byte keeps the canonical form. -/
theorem memSet_wf (m : KV Byte) (a : Nat) (v : Byte) (hm : Memory.wf m = true) : Memory.wf (memSet m a v) = true := by
  simp only [Memory.wf, Bool.and_eq_true, List.all_eq_true] at hm ⊢
  unfold memSet
  split
  · exact ⟨kvDel_sorted m a hm.1, fun e he => hm.2 e (List.mem_of_mem_filter he)⟩
  · rename_i hv
    refine ⟨kvIns_sorted m a v hm.1, fun e he => ?_⟩
    rcases mem_kvIns m a v e he with rfl | he
    · simpa using hv
    · exact hm.2 e he

/-- Storing consecutive bytes keeps the canonical form. -/
theorem memSets_wf (m : KV Byte) (a : Nat) (bs : List Byte) (hm : Memory.wf m = true) : Memory.wf (memSets m a bs) = true := by
  induction bs generalizing m a with
  | nil => exact hm
  | cons b bs ih => exact ih _ _ (memSet_wf m a b hm)

/-- Removing entries keeps the canonical form. -/
theorem kvKeep_wf (m : KV Byte) (p : Nat → Bool) (hm : Memory.wf m = true) : Memory.wf (kvKeep p m) = true := by
  simp only [Memory.wf, Bool.and_eq_true, List.all_eq_true] at hm ⊢
  exact ⟨kvKeep_sorted m p hm.1, fun e he => hm.2 e (List.mem_of_mem_filter he)⟩

@[simp] theorem memGet_memSet_same (m : KV Byte) (a : Nat) (v : Byte) : memGet (memSet m a v) a = v := by
  unfold memSet memGet kvGet
  split
  · rename_i h
    have := kvFind_kvKeep m (fun j => j != a) a
    simp only [bne_self_eq_false, Bool.false_eq_true, if_false] at this
    show ((kvFind (kvDel m a) a).getD 0) = v
    unfold kvDel; unfold kvKeep at this; rw [this, h]; rfl
  · simp [kvFind_kvIns_same]

theorem memGet_memSet_other (m : KV Byte) {a b : Nat} (v : Byte) (hne : b ≠ a) : memGet (memSet m a v) b = memGet m b := by
  unfold memSet memGet kvGet
  split
  · have := kvFind_kvKeep m (fun j => j != a) b
    rw [if_pos (by simpa using hne)] at this
    unfold kvDel; unfold kvKeep at this; rw [this]
  · rw [kvFind_kvIns_other m v hne]

/-- A byte outside a store keeps its value. -/
theorem memGet_memSets_other (m : KV Byte) (a b : Nat) (bs : List Byte) (hout : b < a ∨ a + bs.length ≤ b) : memGet (memSets m a bs) b = memGet m b := by
  induction bs generalizing m a with
  | nil => rfl
  | cons x bs ih =>
    simp only [List.length_cons] at hout
    have h1 := ih (memSet m a x) (a + 1) (by omega)
    rw [memSets, h1]
    exact memGet_memSet_other m x (by omega)

/-! ### The register file -/

@[simp] theorem Hw.rd_wr_same (h : Hw) (a : Nat) (v : W32) : (h.wr a v).rd a = v := by
  simp [Hw.rd, Hw.wr, kvFind_kvIns_same]

theorem Hw.rd_wr_other (h : Hw) {a b : Nat} (v : W32) (hne : b ≠ a) : (h.wr a v).rd b = h.rd b := by
  simp [Hw.rd, Hw.wr, kvFind_kvIns_other h.regs v hne]

theorem Hw.rd_resetRegs (h : Hw) (p : Nat → Bool) (a : Nat) : (h.resetRegs p).rd a = if p a then regReset h.cfg a else h.rd a := by
  unfold Hw.rd Hw.resetRegs
  simp only [kvFind_kvKeep]
  cases p a <;> simp

/-- Writing a register keeps the register file's keys rising. -/
theorem Hw.wr_sorted (h : Hw) (a : Nat) (v : W32) (hs : kvSorted h.regs = true) : kvSorted (h.wr a v).regs = true := kvIns_sorted h.regs a v hs

@[simp] theorem Hw.frond_setFrond_same (h : Hw) (f : Nat) (x : Frond) : (h.setFrond f x).frond f = x := by
  simp [Hw.frond, Hw.setFrond]

theorem Hw.frond_setFrond_other (h : Hw) {f g : Nat} (x : Frond) (hne : g ≠ f) : (h.setFrond f x).frond g = h.frond g := by
  simp [Hw.frond, Hw.setFrond, kvGet_kvIns_other _ _ _ hne]

/-! ### Fields -/

/-- A field reads the value written to it, cut to its width. -/
theorem fldGet_fldSet_same (f : Fld) (v : W32) (n : Nat) (hw : 0 < f.w) (hf : f.lo + f.w ≤ 32) : fldGet f (fldSet f v n) = n % 2 ^ f.w := by
  have hle : f.lo + f.w - 1 + 1 - f.lo = f.w := by omega
  unfold fldGet bits fldSet
  rw [hle]
  apply Nat.eq_of_testBit_eq
  intro i
  simp only [Nat.testBit_mod_two_pow, Nat.testBit_shiftRight, BitVec.testBit_toNat, BitVec.getLsbD_or, BitVec.getLsbD_and, BitVec.getLsbD_not,
    BitVec.getLsbD_ofNat, Nat.testBit_shiftLeft, Nat.testBit_two_pow_sub_one]
  by_cases hi : i < f.w
  · have h1 : f.lo + i < 32 := by omega
    simp [hi, h1]
  · simp [hi]

/-- Writing a field leaves the bits outside it. -/
theorem fldSet_outside (f : Fld) (v : W32) (n i : Nat) (hi : i < f.lo ∨ f.lo + f.w ≤ i) : (fldSet f v n).getLsbD i = v.getLsbD i := by
  unfold fldSet
  simp only [BitVec.getLsbD_or, BitVec.getLsbD_and, BitVec.getLsbD_not, BitVec.getLsbD_ofNat, Nat.testBit_shiftLeft, Nat.testBit_two_pow_sub_one]
  by_cases h32 : i < 32
  · have : ¬ (f.lo ≤ i ∧ i - f.lo < f.w) := by omega
    simp only [h32, decide_true, Bool.true_and]
    by_cases hlo : f.lo ≤ i
    · have : ¬ (i - f.lo < f.w) := by omega
      simp [hlo, this]
    · simp [hlo]
  · simp [h32, BitVec.getLsbD_of_ge v i (by omega)]

end Sys2Proof.Machine
end

