-- ==== Sys2Proof/WellFormed.lean ====
section
/-!
DEFINITION. Well-formed commands: every operand within the range that the largest configuration, KN4-L, and the field widths of the specification give it.
-/
namespace Sys2Proof

/-- A region, frond, chain, lane or link, lane position, queue, port, tag, context, source and local address. -/
def rOk (r : Nat) : Bool := decide (r < 4)
def fOk (f : Nat) : Bool := decide (f < 8)
def chOk (ch : Nat) : Bool := decide (ch < 32)
def laneOk (l : Nat) : Bool := decide (l < 128)
def posOk (p : Nat) : Bool := decide (p < 4)
def qOk (q : Nat) : Bool := decide (q < 1024)
def portOk (p : Nat) : Bool := decide (p < 8)
def tagOk (t : Nat) : Bool := decide (t < 1024)
def ctxOk (n : Nat) : Bool := decide (n < 4096)
def srcOk (s : Nat) : Bool := decide (s < 512)
def laOk (a : Nat) : Bool := decide (a < 2 ^ 30)

/-- A writer or reader names a frond or a port that can exist. -/
def whoOk (w : Who) : Bool :=
  portOk w.port && (match w.agent with | .frond f => fOk f | .host => true | .debugger => true | .hw => true | .loader => true)

/-- The fields of a frame within their widths (R195), and a payload of LEN bytes. -/
def frameOk (f : Frame) : Bool :=
  decide (f.typ < 16) && decide (f.epoch < 16) && decide (f.ctx < 4096) && decide (f.step < 4096) && decide (f.seq < 2 ^ 20) &&
  decide (f.offset < 2 ^ 32) && decide (f.fmt < 64) && decide (f.len < 512) && decide (f.crdTc < 4) && decide (f.crdN < 64) && decide (f.tc < 4) &&
  decide (f.payload.length = f.len)

/-- The fields of an acknowledgement word (R197), the eye margin (LN_STAT.EYE) and the deskew (LN_STAT.SKEW). -/
def awOk (aw : AckWord) : Bool := decide (aw.aseq < 2 ^ 20) && decide (aw.eye < 256) && decide (aw.skew < 256)

/-- A master names a resource that can exist. -/
def masterOk : Master → Bool
  | .frond f => fOk f
  | .fetchA ch => chOk ch
  | .fetchB ch => chOk ch
  | .store ch => chOk ch
  | .mover hp => portOk hp
  | .rxWriter lk => laneOk lk
  | .txReader lk => laneOk lk
  | .march r => rOk r
  | .debugger f => fOk f
  | .queueEngine r => rOk r
  | .traceSink r => rOk r
  | .hostB hp => portOk hp

/-- A receive post (R175). -/
def postOk (p : Post) : Bool := ctxOk p.ctx && decide (p.step < 4096) && decide (p.got = 0)

/-- At most three words are fetched ahead (R294), and the failing ones are among them. -/
def envOk (e : FetchEnv) : Bool := decide (e.spec ≤ 3) && decide (e.specBad ≤ e.spec)

/-- The other accesses of collisions come from an index of their master's space, on words of the access. -/
def meetsOk (ms : List Meet) : Bool := ms.all (fun m => decide (m.other < 256) && decide (m.word < 513))

/-- The checks of the words of an access, at most those of 4,096 bytes. -/
def parOk (p : Par) : Bool := decide (p.words.length ≤ 513)

/-- How an access is served. -/
def servedOk (x : Served) : Bool := parOk x.par && meetsOk x.meets

/-- The command is well formed. -/
def wellFormed : Instr → Bool
  | .porAssert => true
  | .porRelease => true
  | .rstAssert => true
  | .rstRelease => true
  | .testEnHigh => true
  | .pllLock _ => true
  | .pllLossOfLock => true
  | .clockRestart => true
  | .flashCommandDone _ => true
  | .flashCommandTimeout => true
  | .imageFirstReadDone _ => true
  | .startupMarchDone _ => true
  | .imageSecondReadDone _ _ => true
  | .bootLinkWaitExpire => true
  | .boottmoExpire => true
  | .bootx w => whoOk w
  | .beatBoundary => true
  | .beatTaskDone w _ => whoOk w
  | .claimReq w a _ => whoOk w && laOk a
  | .claimRel w a _ => whoOk w && laOk a
  | .registerWrite w a _ => whoOk w && laOk a
  | .rcFieldRead w a _ => whoOk w && laOk a
  | .matRead m a len par meets => masterOk m && laOk a && decide (1 ≤ len) && decide (len ≤ 64) && parOk par && meetsOk meets
  | .matWrite m a data par meets => masterOk m && laOk a && decide (1 ≤ data.length) && decide (data.length ≤ 64) && parOk par && meetsOk meets
  | .mchStart w r _ _ => whoOk w && rOk r
  | .mchAbort w r _ => whoOk w && rOk r
  | .marchRowLock r group _ => rOk r && decide (group < 32)
  | .marchRunEnd r _ _ => rOk r
  | .suspectServiceRun r => rOk r
  | .matSuspPop w r => whoOk w && rOk r
  | .repairLogPop w r => whoOk w && rOk r
  | .chainTrigger f c _ => fOk f && decide (c < 8)
  | .descriptorFetchDone ch x => chOk ch && servedOk x
  | .pendingPromote ch => chOk ch
  | .chainStop w ch _ => whoOk w && chOk ch
  | .chainAbort w ch _ => whoOk w && chOk ch
  | .segmentReread x => chOk x.1 && x.2.all (fun s => decide (s < 4))
  | .progressWordWrite x => chOk x.unit && parOk x.par && meetsOk x.meets
  | .chainCommandEnd ch => chOk ch
  | .completionRecordWrite x => qOk x.1 && meetsOk x.2
  | .completionRecordWriteDone q _ => qOk q
  | .queueIssue q => qOk q
  | .dbSq w q _ => whoOk w && qOk q
  | .dbCq w q _ => whoOk w && qOk q
  | .queueEnable w q _ => whoOk w && qOk q
  | .queueDisable w q _ => whoOk w && qOk q
  | .collectiveRequest f words => fOk f && decide (words.length = 8)
  | .collectiveRequestEnd n par meets => ctxOk n && parOk par && meetsOk meets
  | .stepTimeout n => ctxOk n
  | .fenceTimeout n => ctxOk n
  | .contextValidate w n _ => whoOk w && ctxOk n
  | .cxHalt w r _ => whoOk w && rOk r
  | .cxeArdyUpdate f n v => fOk f && ctxOk n && decide (v < 2 ^ 24)
  | .receivePost f lk p => fOk f && laneOk lk && postOk p
  | .tokenSend f lk n step code opid payload => fOk f && laneOk lk && ctxOk n && decide (step < 4096) && decide (1 ≤ code) && decide (code ≤ 6) && decide (opid < 65536) && decide (payload.length ≤ 256)
  | .frameTransmit lk pos => laneOk lk && posOk pos
  | .frameReceiveFailed lk pos aw => laneOk lk && posOk pos && awOk aw
  | .idle lk pos f aw => laneOk lk && posOk pos && frameOk f && awOk aw
  | .data lk pos f aw => laneOk lk && posOk pos && frameOk f && awOk aw
  | .arec lk pos f aw => laneOk lk && posOk pos && frameOk f && awOk aw
  | .ready lk pos f aw => laneOk lk && posOk pos && frameOk f && awOk aw
  | .barrier lk pos f aw => laneOk lk && posOk pos && frameOk f && awOk aw
  | .abort lk pos f aw => laneOk lk && posOk pos && frameOk f && awOk aw
  | .fence lk pos f aw => laneOk lk && posOk pos && frameOk f && awOk aw
  | .done lk pos f aw => laneOk lk && posOk pos && frameOk f && awOk aw
  | .getreq lk pos f aw => laneOk lk && posOk pos && frameOk f && awOk aw
  | .credit lk pos f aw => laneOk lk && posOk pos && frameOk f && awOk aw
  | .epoch lk pos f aw => laneOk lk && posOk pos && frameOk f && awOk aw
  | .snak lk pos f aw => laneOk lk && posOk pos && frameOk f && awOk aw
  | .sref lk pos f aw => laneOk lk && posOk pos && frameOk f && awOk aw
  | .mgmt lk pos f aw => laneOk lk && posOk pos && frameOk f && awOk aw
  | .init lk pos f aw => laneOk lk && posOk pos && frameOk f && awOk aw
  | .initack lk pos f aw => laneOk lk && posOk pos && frameOk f && awOk aw
  | .align lk pos f aw => laneOk lk && posOk pos && frameOk f && awOk aw
  | .laneset lk pos f aw => laneOk lk && posOk pos && frameOk f && awOk aw
  | .lsack lk pos f aw => laneOk lk && posOk pos && frameOk f && awOk aw
  | .lsref lk pos f aw => laneOk lk && posOk pos && frameOk f && awOk aw
  | .lreq lk pos f aw => laneOk lk && posOk pos && frameOk f && awOk aw
  | .down lk pos f aw => laneOk lk && posOk pos && frameOk f && awOk aw
  | .replayTimeout lk => laneOk lk
  | .nakTimeout lk => laneOk lk
  | .lanesetTimeout lk => laneOk lk
  | .linkUp w lk _ => whoOk w && laneOk lk
  | .linkDownCmd w lk _ => whoOk w && laneOk lk
  | .linkRetrain w lk _ => whoOk w && laneOk lk
  | .laneRetrain w l _ => whoOk w && laneOk l
  | .anDone lk _ => laneOk lk
  | .trainDone lk failed precode => laneOk lk && decide (failed < 2 ^ 32) && decide (precode < 2 ^ 32)
  | .trainTimeout lk => laneOk lk
  | .initTimeout lk => laneOk lk
  | .initResend lk => laneOk lk
  | .laneSyncLoss l _ => laneOk l
  | .ltScan w l _ => whoOk w && laneOk l
  | .ltScanDone l _ => laneOk l
  | .ltClr w l _ => whoOk w && laneOk l
  | .hostSRead port addr len tag _ _ par meets => portOk port && laOk addr && decide (1 ≤ len) && decide (len ≤ 4096) && tagOk tag && parOk par && meetsOk meets
  | .hostSWrite port addr tag op _ _ data badWords par meets => portOk port && laOk addr && tagOk tag && decide (op < 8) && decide (1 ≤ data.length) && decide (data.length ≤ 4096) && badWords.all (fun i => decide (i < 513)) && parOk par && meetsOk meets
  | .mReadData port tag data bad st _ => portOk port && tagOk tag && decide (data.length ≤ 128) && bad.all (fun i => decide (i < 513)) && decide (st < 64)
  | .mWriteResponse port tag st _ => portOk port && tagOk tag && decide (st < 64)
  | .mCasResponse port tag _ _ st => portOk port && tagOk tag && decide (st < 64)
  | .hostCreditReturn port _ => portOk port
  | .mRequestTimeout port tag => portOk port && tagOk tag
  | .hostClockLoss port => portOk port
  | .hostClockReturn port => portOk port
  | .translationLookup ch stream => chOk ch && decide (stream < 4)
  | .translationWalk r => rOk r
  | .lookaheadWalk ch stream => chOk ch && decide (stream < 4)
  | .walkTableReadDone r k => rOk r && decide (k < 16)
  | .markCasDone r k => rOk r && decide (k < 16)
  | .xltInv f _ => fOk f
  | .xltInvGo w r _ => whoOk w && rOk r
  | .invalidationDone r => rOk r
  | .xltPrb f _ => fOk f
  | .probeDone f => fOk f
  | .xltDirWrite w a _ => whoOk w && laOk a
  | .seq f e => fOk f && envOk e
  | .jmp f e => fOk f && envOk e
  | .jmpc f e => fOk f && envOk e
  | .mway f e => fOk f && envOk e
  | .call f e => fOk f && envOk e
  | .ret f e => fOk f && envOk e
  | .retx f e => fOk f && envOk e
  | .wait f e => fOk f && envOk e
  | .waitWake f => fOk f
  | .halt f e => fOk f && envOk e
  | .rep f e => fOk f && envOk e
  | .repeatIteration f e => fOk f && envOk e
  | .knFatal => true
  | .fatalRecovery => true
  | .sysGate f _ => fOk f
  | .sysStWrite f _ => fOk f
  | .sysPfl f _ => fOk f
  | .sysFpbar f _ => fOk f
  | .sysMbxs f _ => fOk f
  | .sysMbxr f => fOk f
  | .cmdSqin f => fOk f
  | .cmdMgq f => fOk f
  | .cmdMgs f lk payload => fOk f && laneOk lk && decide (payload.length ≤ 256)
  | .stimWrite f k _ => fOk f && decide (k < 64)
  | .aluAdd f _ => fOk f
  | .aluSub f _ => fOk f
  | .aluAnd f _ => fOk f
  | .aluOr f _ => fOk f
  | .aluXor f _ => fOk f
  | .aluAndn f _ => fOk f
  | .aluShl f _ => fOk f
  | .aluShr f _ => fOk f
  | .aluSar f _ => fOk f
  | .aluRor f _ => fOk f
  | .aluEq f _ => fOk f
  | .aluNe f _ => fOk f
  | .aluLts f _ => fOk f
  | .aluLtu f _ => fOk f
  | .aluGes f _ => fOk f
  | .aluGeu f _ => fOk f
  | .mstepMul f _ => fOk f
  | .mstepDiv f _ => fOk f
  | .fpuFma f _ => fOk f
  | .fpuAdd f _ => fOk f
  | .fpuMul f _ => fOk f
  | .fpuMax f _ => fOk f
  | .fpuMin f _ => fOk f
  | .fpuRcp f _ => fOk f
  | .fpuCvw f _ => fOk f
  | .fpuCvi f _ => fOk f
  | .fpuCvf f _ => fOk f
  | .fpuResultWrite f => fOk f
  | .lsuLd8 f _ => fOk f
  | .lsuLd4 f _ => fOk f
  | .lsuSt8 f _ => fOk f
  | .lsuSt4 f _ => fOk f
  | .lsuLoadDone f x => fOk f && servedOk x
  | .lsuStoreAck x => fOk x.unit && parOk x.par && meetsOk x.meets
  | .lsuLock f _ => fOk f
  | .lsuLockAcquired f => fOk f
  | .lsuUnlock f _ => fOk f
  | .lsuLockBreak f => fOk f
  | .irqEoi f _ => fOk f
  | .eventSourceFire s => srcOk s
  | .levelSourceSample s => srcOk s
  | .knIrqInEdge k _ => decide (k < 32)
  | .interruptPresent => true
  | .interruptEntry f late e => fOk f && late.all srcOk && envOk e
  | .holdoffEnd g => decide (g < 16)
  | .irqPendWrite w g _ => whoOk w && decide (g < 16)
  | .timerMatch c => decide (c < 31)
  | .timerWrap c => decide (c < 31)
  | .timerMoverResponse c _ => decide (c < 31)
  | .timerLinkOperation => true
  | .timerCapture c levels => decide (c < 31) && decide (levels < 2 ^ 32)
  | .tmrCapRead w c _ => whoOk w && decide (c < 31)
  | .timerStart w c _ => whoOk w && decide (c < 31)
  | .timerStop w c _ => whoOk w && decide (c < 31)
  | .staggerGo w _ => whoOk w
  | .tbLoRead w => whoOk w
  | .wdtSvc w _ => whoOk w
  | .watchdogStage1Expire => true
  | .watchdogStage2Expire => true
  | .watchdogHaltRelease => true
  | .wdtWinWrite w _ => whoOk w
  | .propose w _ => whoOk w
  | .lichenHashDone => true
  | .withdraw w _ => whoOk w
  | .lchHgo w _ => whoOk w
  | .lchDgo w _ => whoOk w
  | .lichenVerifyDone => true
  | .lichenApply => true
  | .lichenWindowExpire => true
  | .controlParityError r unit addr => rOk r && decide (unit < 2 ^ 32) && laOk addr
  | .streamProtocolError r unit addr => rOk r && decide (unit < 2 ^ 32) && laOk addr
  | .recover w r _ => whoOk w && rOk r
  | .regionRecoveryStart r => rOk r
  | .quiesceDrainDone r => rOk r
  | .drainTimeout r => rOk r
  | .discardDone r => rOk r
  | .rejoin r => rOk r
  | .registerFabricParityError w _ a => whoOk w && laOk a
  | .rgnLogPop w r => whoOk w && rOk r
  | .meuLogPop w => whoOk w
  | .debugNop => true
  | .debugRd frn _ a x => fOk frn && laOk a && decide (a % 4 = 0) && servedOk x
  | .debugWr frn a _ x => fOk frn && laOk a && decide (a % 4 = 0) && servedOk x
  | .debugPrd frn _ _ port => fOk frn && decide (port < 4096)
  | .debugPwr frn _ port _ => fOk frn && decide (port < 4096)
  | .debugCrcFail => true
  | .debugLineReset => true
  | .chal _ => true
  | .go _ => true
  | .debugVerifyDone => true
  | .close _ => true
  | .debugIdleTimeout => true
  | .debugHaltReq f _ => fOk f
  | .debugHaltTaken f => fOk f
  | .debugResume f _ => fOk f
  | .debugStep f _ => fOk f
  | .dbgTpktPop w => whoOk w
  | .traceSinkWrite r x => rOk r && meetsOk x.2
  | .tsEnable w r _ => whoOk w && rOk r
  | .pwrSleep w r _ => whoOk w && rOk r
  | .pwrOff w r _ => whoOk w && rOk r
  | .pwrWake w r _ => whoOk w && rOk r
  | .enterConditionsMet r => rOk r
  | .enterTimeout r => rOk r
  | .sleepCommit r => rOk r
  | .wakeStart r => rOk r
  | .pwrAckRise r => rOk r
  | .pwrAckFall r => rOk r
  | .wakeComplete r => rOk r
  | .powerupClearDone r => rOk r
  | .wakeAckTimeout r => rOk r
  | .idleEntry r => rOk r
  | .idleExit r => rOk r
  | .sensorSample r _ => rOk r
  | .laneSyncAcquired l => laneOk l
  | .startupPowerHandshakeTimeout r => rOk r
  | .tbWrap => true

end Sys2Proof
end

