-- ==== Sys2Proof/Tests/Slice0.lean ====
section
/-!
SUPPORT. Small checks: each WellFormed check refuses an ill-formed term, single steps on small states, and for every statement a concrete state and operands that meet its hypotheses.
-/
set_option maxRecDepth 100000
namespace Sys2Proof.Tests
open Sys2Proof Sys2Proof.Machine

/-- KN4-S, out of power-on reset, clocks running, region 0 in RUN, both worlds admitted in the first 256 words of customer microcode. -/
def live : Hw := (({ Hw.reset with cfg := .kn4S, porN := true, tb := 7 }.wf (PWR_STAT 0) PWR_STAT_STATE psRun).wr (CS_ATTR 0 0) 3)
/-- A frond that runs at 0x8000, at supervisor level and ML 2. -/
def sup0 : Frond := { Frond.zero with run := .run, pc := 0x8000, st := 0x48000000 }
/-- The live block with a frond 0. -/
def hF (x : Frond) : Hw := live.setFrond 0 x
/-- With a word at 0x8000. -/
def hW (x : Frond) (w : BitVec 256) : Hw := { hF x with csRam := [(0x8000, w)] }
/-- No parity error and nothing fetched ahead. -/
def e0 : FetchEnv := ⟨0, 0, 0, 0⟩
/-- Six leaflets guarded by p0 = 1: with p = 0 no move executes. -/
def idleMoves : Nat := 2 ^ 35 + 2 ^ 71 + 2 ^ 107 + 2 ^ 143 + 2 ^ 179 + 2 ^ 215
/-- A SEQ word, and the control word of a NAM with COND always and TARGET 0x8010, without an executing move. -/
def seqW : BitVec 256 := BitVec.ofNat 256 idleMoves
def ctl (nam : Nat) : BitVec 256 := BitVec.ofNat 256 (nam * 2 ^ 252 + 0x3F * 2 ^ 245 + 0x8010 * 2 ^ 221 + idleMoves)
/-- A keeper supervisor frond 0, and the privileged host on port 0. -/
def kF : Who := { agent := .frond 0, world := .keeper, sup := true }
def pH : Who := { agent := .host, world := .keeper, sup := true, port := 0 }

theorem wit_AluSumsAndLogicLeaveResultAndFlags : frondReady (hF { sup0 with aluO := 5 }) 0 = true := by decide
theorem wit_AluShiftsAndComparesLeaveResultAndFlags : frondReady (hF { sup0 with aluO := 0x8000000000000001 }) 0 = true := by decide
theorem wit_MstepStepsMultiplyAndDivide : frondReady (hF { sup0 with msM := 3, msQ := 1 }) 0 = true := by decide
theorem wit_FpuTriggersQueueAndResultsAreWritten : frondReady (hF { sup0 with fA := 3 }) 0 = true ∧
    ((hF { sup0 with fPend := [⟨2, 7, 1, 0⟩] }).clocked = true ∧ (hF sup0).hasFrond 0 = true ∧ ((hF { sup0 with fPend := [⟨2, 7, 1, 0⟩] }).frond 0).fPend = ⟨2, 7, 1, 0⟩ :: []) := by decide
theorem wit_LsuTriggersRecordTheAccess : frondReady (hF sup0) 0 = true ∧ ((hF sup0).frond 0).loadErr = false ∧ (8 : W64).toNat % 8 = 0 ∧ (8 : W64).toNat % 4 = 0 ∧
    ((hF sup0).frond 0).load = none ∧ ((hF sup0).frond 0).stores.length < 4 := by decide

/-- Fault table entry 11, at scratch offset 44, valid with handler 0x8020; entry 9 likewise. -/
def hT (x : Frond) : Hw := { hF x with scratch := memSets (memSets [] 44 (leBytes 4 0x80008020)) 36 (leBytes 4 0x80008020) }
theorem wit_MisalignedLsuTriggerTakesItsFault : frondReady (hT sup0) 0 = true ∧ (4 : W64).toNat % 8 ≠ 0 ∧ ((hT sup0).frond 0).load = none ∧
    ((hT sup0).frond 0).stores.length < 4 ∧ ((hT sup0).frond 0).retx = false ∧ ((hT sup0).frond 0).stNext = none ∧ ((hT sup0).frond 0).stepReq = false ∧
    stML ((hT sup0).frond 0).st < 11 ∧ bit (faultEntry (hT sup0) 0 11) 31 = true ∧ handlerBad (hT sup0) 0 (faultEntry (hT sup0) 0 11 % 65536) = false := by decide
theorem wit_PrivilegedPortAtUserLevelRaisesPriv :
    (let x : Frond := { sup0 with st := 0 }
     frondReady (hT x) 0 = true ∧ stS x.st = false ∧ x.retx = false ∧ x.stNext = none ∧ x.stepReq = false ∧ stML x.st < 12 ∧ bit (faultEntry (hT x) 0 9) 31 = true ∧
       handlerBad (hT x) 0 (faultEntry (hT x) 0 9 % 65536) = false) ∧
    (let x : Frond := { sup0 with st := 0x3C000000 }
     frondReady (hT x) 0 = true ∧ stS x.st = false ∧ stML x.st = 15) := by decide
theorem wit_LineLocksAreTakenReleasedAndBroken :
    (frondReady (hF sup0) 0 = true ∧ ((hF sup0).frond 0).loadErr = false) ∧
    (let h := hF { sup0 with lockWait := some 4 }
     frondLive h 0 = true ∧ (h.frond 0).lockWait = some 4 ∧ ∀ g, g < 8 → g ≠ 0 → (h.frond g).lockLine ≠ some 4 ∧ (g < 0 → (h.frond g).lockWait ≠ some 4)) ∧
    (let h := { hF { sup0 with lockLine := some 4, lockAt := 0 } with tb := 25 }
     h.clocked = true ∧ (h.frond 0).lockLine = some 4 ∧ 25 ≤ (h.tb - BitVec.ofNat 64 (h.frond 0).lockAt).toNat ∧ (h.frond 0).haltReq = false ∧ (h.frond 0).stepReq = false) := by decide
theorem wit_LsuAnswersDeliverAndStore :
    (let l : LsuLoad := ⟨2 ^ 52 + 0x30000040, 8, .keeper, true, 0, none⟩
     let h := hF { sup0 with load := some l }
     h.clocked = true ∧ (h.frond 0).load = some l ∧ l.served = none ∧ lsuTarget h l.pa = 1 ∧ lsuBlocked h 0 l.seq 1 = false ∧ lsuLineWaits h 0 l.pa = false) ∧
    (let l : LsuLoad := ⟨64, 8, .keeper, true, 0, some (0, 3)⟩
     let h := hF { sup0 with load := some l }
     h.clocked = true ∧ (h.frond 0).load = some l ∧ l.served = some (0, 3) ∧ 3 ≠ 0) ∧
    (let t : LsuStore := ⟨2 ^ 52 + 0x3000FFFC, 4, 9, .keeper, true, 0, none⟩
     let h := hF { sup0 with stores := [t] }
     h.clocked = true ∧ lsuStoreReady h 0 = some t ∧ t.served = none ∧ lsuTarget h t.pa = 1) := by decide
theorem wit_ControlWordsDecideTheirTransfer :
    (wordClean (hW sup0 seqW) 0 e0 = true ∧ wordAlone ((hW sup0 seqW).frond 0) = true ∧ wordRow (hW sup0 seqW) 0 = 0) ∧
    (∀ n ∈ [1, 2, 3, 4], wordClean (hW sup0 (ctl n)) 0 e0 = true ∧ wordAlone ((hW sup0 (ctl n)).frond 0) = true ∧ wordRow (hW sup0 (ctl n)) 0 = n) ∧
    condTrue (hW sup0 (ctl 2)) 0 (wCOND (ctl 2)) = true ∧
    (let w : BitVec 256 := BitVec.ofNat 256 (2 * 2 ^ 252 + 0x8010 * 2 ^ 221 + idleMoves)
     wordClean (hW sup0 w) 0 e0 = true ∧ wordRow (hW sup0 w) 0 = 2 ∧ condTrue (hW sup0 w) 0 (wCOND w) = false) ∧
    (let x : Frond := { sup0 with ras := [0x8030] }
     wordClean (hW x (ctl 5)) 0 e0 = true ∧ wordRow (hW x (ctl 5)) 0 = 5 ∧ wordAlone x = true) ∧
    (wordClean (hW sup0 (ctl 6)) 0 e0 = true ∧ wordRow (hW sup0 (ctl 6)) 0 = 6) := by decide
theorem wit_DelayWordsCompleteTheirTransfer :
    (let z : Xfer := ⟨4, 0x8010, some 0x8002, false, true, 0, false⟩
     let x : Frond := { sup0 with xfer := some z }
     wordClean (hW x seqW) 0 e0 = true ∧ wordRow (hW x seqW) 0 = 0 ∧ x.xfer = some z ∧ x.retx = false) ∧
    (let x : Frond := { sup0 with retx := true, sst := 0x40000000, sra := 0x8040 }
     wordClean (hW x seqW) 0 e0 = true ∧ wordRow (hW x seqW) 0 = 0 ∧ x.retx = true ∧ bit x.sst.toNat 23 = false ∧ bit x.sst.toNat 17 = false ∧
       ∀ n, n < 512 → srcBit (hW x seqW) IRQ_PEND n = false) := by decide
theorem wit_WaitHaltAndRepeatWords :
    (let x : Frond := { sup0 with wev := 1 }
     wordClean (hW x (ctl 7)) 0 e0 = true ∧ wordAlone x = true ∧ wordRow (hW x (ctl 7)) 0 = 7 ∧ Nat.land x.wev.toNat (wevLevels (hW x (ctl 7)) 0) = 0) ∧
    (wordClean (hW sup0 (ctl 8)) 0 e0 = true ∧ wordRow (hW sup0 (ctl 8)) 0 = 8) ∧
    (let x : Frond := { sup0 with rptC := 3 }
     let w : BitVec 256 := BitVec.ofNat 256 (2 ^ 220 + idleMoves)
     wordClean (hW x w) 0 e0 = true ∧ wordAlone x = true ∧ wordRow (hW x w) 0 = 9) ∧
    (let x : Frond := { sup0 with rptC := 2, rep := some true }
     wordClean (hW x seqW) 0 e0 = true ∧ x.rep = some true ∧ x.inDelay = false ∧ 1 < x.rptC) ∧
    (let x : Frond := { sup0 with rptC := 1, rep := some false }
     wordClean (hW x seqW) 0 e0 = true ∧ x.rep = some false ∧ x.inDelay = false ∧ x.rptC = 1) ∧
    (let x : Frond := { sup0 with stNext := some 0 }
     wordClean (hW x seqW) 0 e0 = true ∧ x.stNext = some 0 ∧ x.inDelay = false ∧ wordRow (hW x seqW) 0 = 0) ∧
    (let x : Frond := { sup0 with run := .wait, wev := 1, wevHit := 1 }
     frondLive (hF x) 0 = true ∧ x.run = .wait ∧ wevTrue (hF x) 0 = true) := by decide
/-- Gate entry 0 at scratch offset 0x100, open to both levels, with its handler at 0x8030. -/
def hG (x : Frond) : Hw := { hF x with scratch := memSets [] 0x100 (leBytes 4 0xE0008030) }
theorem wit_GateStatusFlushAndBarrierPorts :
    (frondReady (hG sup0) 0 = true ∧ gateBad (hG sup0) 0 0 = false ∧ sup0.inDelay = false ∧ sup0.rep = none ∧ sup0.stNext = none ∧
      handlerBad (hG sup0) 0 (gateEntry (hG sup0) 0 0 % 65536) = false) ∧
    (stS sup0.st = true ∧ sup0.rep = none ∧ stBad 0x40000000 = false) := by decide

theorem wit_MailboxesServicePortsAndStimulus :
    (frondReady (hF sup0) 0 = true ∧ stS sup0.st = true ∧ (mbxTo (hF sup0) 0 (otherWorld sup0.world)).length < 8 ∧ sup0.world = .keeper) ∧
    (let h := { hF sup0 with mbxT := [(0, [1, 2, 3, 4, 5, 6, 7, 8])] }
     frondReady h 0 = true ∧ stS (h.frond 0).st = true ∧ 8 ≤ (mbxTo h 0 (otherWorld (h.frond 0).world)).length) ∧
    (let h := { hF { sup0 with pc := 0xA000 } with svcQ := [(0, [(1, 2, 3)])], mgmtQ := [(0, [Frame.blank])] }
     frondReady h 0 = true ∧ stS (h.frond 0).st = true ∧ (h.frond 0).world = .keeper ∧ vendorAddr (h.frond 0).pc.toNat = true ∧
       ∀ i, i < 32 → (h.link (32 * 0 + i)).mgmt = []) ∧
    (31 / 32 = 0 / 2 ∧ (hF sup0).hasLane 31 = true ∧ ([1, 2] : List Byte).length ≤ 256 ∧ (hF sup0).rb (DBG_TCTL 0) DBG_TCTL_EN = false) ∧
    (let h := ((hF sup0).wr (DBG_TCTL 0) 1).wr (DBG_TEN_LO 0) 0x80000000
     frondReady h 0 = true ∧ h.rb (DBG_TCTL 0) DBG_TCTL_EN = true ∧ bit (h.rd (DBG_TEN_LO 0)).toNat 31 = true ∧ (h.tq 0).pkts.length < 16 ∧ ∀ g, g < 8 → traceToFifo h g = false) := by decide

/-- Source n pending, enabled and owned by the keeper world with PRI 5 for frond 0, its vector 0x8050. -/
def hI (x : Frond) (n : Nat) : Hw :=
  let h := hF x
  (((((h.wr (IRQ_PEND (n / 32)) (BitVec.ofNat 32 (2 ^ (n % 32)))).wr (IRQ_EN (n / 32)) (BitVec.ofNat 32 (2 ^ (n % 32)))).wr (IRQ_SCLAIM n) 0x80010000).wr (IRQ_CFG n) 0x00010005).wr
    (IRQ_VEC n) 0x8050)
theorem wit_InterruptsArePresentedTakenAndEnded :
    ((hI sup0 3).clocked = true ∧ (∀ g, g < 16 → (hI sup0 3).rd (IRQ_DEFER g) = 0) ∧ reqOrder (hI sup0 3) = [3] ∧ hoffBlocks (hI sup0 3) ((List.range 8).filterMap (fun g => ((hI sup0 3).frond g).presented)) 3 = false ∧
      bestFrond (hI sup0 3) 3 [] = some 0) ∧
    (let h := { hI { sup0 with presented := some 3 } 3 with csRam := [(0x8000, seqW)] }
     h.clocked = true ∧ frondLive h 0 = true ∧ 3 < 512 ∧ (h.frond 0).presented = some 3 ∧ irqBoundary h 0 = true ∧ haltDue (h.frond 0) = false ∧ reqStands h 0 3 = true ∧
       dueFault h 0 e0 = none ∧ handlerBad h 0 (h.rf (IRQ_VEC 3) IRQ_VEC_VEC) = false) ∧
    (let h := hF { sup0 with pstack := [(3, 5)] }
     frondReady h 0 = true ∧ stS (h.frond 0).st = true ∧ (h.frond 0).pstack = (3, 5) :: [] ∧ (3 : W64).toNat % 512 = 3 ∧ srcIsLevel h 3 = false ∧ h.rf (IRQ_CNT 3) IRQ_CNT_EVC = 0) := by
  decide
theorem wit_SourcesFireSampleAndAreWritten :
    (let h := hF sup0
     h.clocked = true ∧ 3 < 512 ∧ srcExists h.cfg 3 = true ∧ grpClaimed h (3 / 32) = false ∧ srcIsLevel h 3 = false ∧ srcBit h IRQ_PEND 3 = false ∧ srcBit h IRQ_ACT 3 = false) ∧
    (let h := hI sup0 3
     srcExists h.cfg 3 = true ∧ grpClaimed h (3 / 32) = false ∧ srcIsLevel h 3 = false ∧ ¬ (srcBit h IRQ_PEND 3 = false ∧ srcBit h IRQ_ACT 3 = false)) ∧
    (let h := hF { sup0 with run := .lockup }
     h.clocked = true ∧ srcExists h.cfg 96 = true ∧ grpClaimed h (96 / 32) = false ∧ srcIsLevel h 96 = true ∧ levelCond h 96 = true ∧ srcBit h IRQ_PEND 96 = false ∧
       srcBit h IRQ_ACT 96 = false) ∧
    (let h := (hF sup0).wr (IRQ_CFG 479) 0x100
     srcExists h.cfg 479 = true ∧ grpClaimed h (479 / 32) = false ∧ 479 = 448 + 31 ∧ 31 < 32 ∧ h.rf (IRQ_CFG 479) IRQ_CFG_TRIG = 1 ∧ bit h.irqIn 31 = false ∧
       srcBit h IRQ_PEND 479 = false ∧ srcBit h IRQ_ACT 479 = false) ∧
    (let h := { (hF sup0).wf (IRQ_HOFF 0) IRQ_HOFF_INT 20 with irqHoff := [(0, 0)] }
     h.clocked = true ∧ kvFind h.irqHoff 0 = some 0 ∧ 2 * h.rf (IRQ_HOFF 0) IRQ_HOFF_INT ≤ 5 * ((h.tb - BitVec.ofNat 64 0).toNat + 1)) ∧
    (let h := hI sup0 3
     0 < 16 ∧ regGrant h kF (IRQ_PEND 0) true = true ∧ irqBitWritable h kF 3 = true ∧
       ∀ k, k < 32 → irqBitWritable h kF (32 * 0 + k) = true → srcRouted h (32 * 0 + k) = false) := by decide
theorem wit_ResetPinsHoldAndStartTheBlock :
    (Hw.reset.porN = false ∧ Hw.reset.testEn = false ∧ Hw.reset.rstN = true) ∧ (live.porN = true ∧ live.rstN = true ∧ live.lcState = lcIdle) ∧
    (let h := { live with rstN := false }
     h.porN = true ∧ h.rstN = false ∧ h.boot.reached = false) ∧ ({ Hw.reset with rstN := false }.porN = false) := by decide
theorem wit_ResetPinsHoldAndStartTheBlock_march (r : Nat) : ({ live with rstN := false }.mat r).march = none := rfl
theorem wit_PllAndTheStoppedClocks :
    (let h := (live.wf BOOT_STAT BOOT_STAT_STEP 1)
     h.porN = true ∧ h.rb CLK_STAT CLK_STAT_PLLLOCK = false ∧ h.bootStep = 1 ∧ 10000 ≤ { h with tb := 10000 }.tb.toNat ∧ ∀ lk, lk < 128 → h.lkState lk = lsDown) ∧
    (let h := { live.sb CLK_STAT CLK_STAT_PLLLOCK with clkStop := true, pllLost := true, pllAt := 3, tb := 1003 }
     h.rb CLK_STAT CLK_STAT_PLLLOCK = true ∧ h.clkStop = true ∧ h.pllLost = true ∧ 1000 ≤ (h.tb - BitVec.ofNat 64 h.pllAt).toNat) := by decide
/-- A shadowed image without sections whose link wait and BOOTTMO are given. -/
def sh0 (march : Bool) (t : Nat) (p : List Byte) : Shadow := ⟨march, 1, false, false, 0, t, 0, 0, [], [], [], p, [], !p.isEmpty, false⟩
/-- The loader in a step, with the image shadowed. -/
def hB (step : Nat) (b : BootSt) : Hw := { ((live.wf BOOT_STAT BOOT_STAT_STEP step).sb CLK_STAT CLK_STAT_PLLLOCK) with boot := b }
theorem wit_LoaderReadsAndJudgesTheImage :
    (let h := hB 1 BootSt.zero
     h.clocked = true ∧ h.bootStep = 1 ∧ h.boot.flash = 0 ∧ h.rf BOOT_STAT BOOT_STAT_SLOT = 0) ∧
    (let h := (hB 1 BootSt.zero).wf BOOT_STAT BOOT_STAT_SLOT 1
     h.bootStep = 1 ∧ h.rf BOOT_STAT BOOT_STAT_SLOT = 1 ∧ ∀ lk, lk < 128 → h.lkState lk = lsDown) ∧
    (let h := { hB 1 { BootSt.zero with flash := 1 } with cfg := .kn4M }
     0x13 < 256 ∧ h.clocked = true ∧ h.bootStep = 1 ∧ h.boot.flash ≠ 0 ∧ h.rb CLK_STAT CLK_STAT_PLLLOCK = true ∧ imgFault h (List.replicate 32 0) = some 0x13 ∧ h.rf BOOT_STAT BOOT_STAT_SLOT = 0 ∧
       (shadowOf (List.replicate 32 0)).march = false ∧ h.hasRegion 1 = true ∧ h.memServed 1 = false) ∧
    (let h := hB 3 { BootSt.zero with shadow := some (sh0 false 0 []), busy := [0] }
     h.boot.shadow = some (sh0 false 0 []) ∧ h.bootStep = 3 ∧ h.boot.read2 = false ∧ (sh0 false 0 []).hasP = false ∧ (sh0 false 0 []).hasC = false ∧ h.boot.busy ≠ []) ∧
    (let h := { (hB 2 { BootSt.zero with shadow := some (sh0 true 0 []) }).sb (PWR_STAT 0) PWR_STAT_PACK with cfg := .kn4M }
     h.clocked = true ∧ h.boot.shadow = some (sh0 true 0 []) ∧ h.bootStep = 2 ∧ (∀ r, r ∈ marchRegions h → h.rb (PWR_STAT r) PWR_STAT_PACK = true) ∧
       h.hasRegion 1 = true ∧ h.memServed 1 = false ∧ 1 ∉ marchRegions h ∧ 0 ∈ marchRegions h) := by decide
theorem wit_LoaderReadsAndJudgesTheImage_digest (p : List Byte) :
    (sh0 false 0 (0 :: Config.sha384 p)).hasP = true ∧ Config.sha384 p ≠ (sh0 false 0 (0 :: Config.sha384 p)).digP := by
  refine ⟨rfl, fun h => ?_⟩
  have := congrArg List.length h
  simp [sh0] at this
theorem wit_LoaderPowersWaitsAndHandsOver :
    (let h := ({ hB 9 BootSt.zero with pwr := [(0, { PwrRgn.zero with fromOff := true })] }.wf (PWR_STAT 0) PWR_STAT_STATE psWake).sb (PWR_STAT 0) PWR_STAT_PREQ
     h.clocked = true ∧ h.hasRegion 0 = true ∧ h.rb (PWR_STAT 0) PWR_STAT_PREQ = true ∧ h.rb (PWR_STAT 0) PWR_STAT_PACK = false ∧ h.pwrState 0 = psWake ∧
       (h.pw 0).fromOff = true ∧ h.bootStep ≠ 2) ∧
    (∀ n ∈ [2, 3], let h := { (hB n { BootSt.zero with busy := [0] }).wf (PWR_STAT 0) PWR_STAT_STATE psWake with tb := 10000 }
     h.boot.busy.contains 0 = true ∧ h.pwrState 0 = psWake ∧ h.rb (PWR_STAT 0) PWR_STAT_PACK = false ∧ 10000 ≤ ticksSince h (h.pw 0).since ∧ (∀ lk, lk < 128 → h.lkState lk = lsDown) ∧
       h.bootStep = n) ∧
    (∀ n ∈ [6, 7], ∀ t ∈ [0, 3], let h := { hB n { BootSt.zero with shadow := some (sh0 false t []) } with tb := 600000, beatDiv := beatTicks }
     h.boot.shadow = some (sh0 false t []) ∧ h.bootStep = n ∧ ((sh0 false t []).bootT = 0 ↔ t = 0) ∧ h.beatsOver h.boot.step5.toNat (4 * (sh0 false t []).lwait) = true ∧
       h.beatsOver h.boot.step5.toNat (4 * (sh0 false t []).bootT) = true ∧ ∀ lk, lk < 128 → h.lkState lk = lsDown) ∧
    (let h := hF sup0
     let g := { h with boot := { BootSt.zero with bootx := true } }
     regGrant g kF LCH_MAINT true = true ∧ kF.keeperSup = true ∧ g.boot.bootx = true) := by decide
theorem wit_BeatsClaimsAndPlainRegisters :
    (let h := hF sup0
     h.porN = true ∧ { h with beatDiv := beatTicks }.beatDiv = beatTicks ∧ regGrant h kF SYS_BEATST true = true ∧ fldGet SYS_BEATST_TASK 1 = 1) ∧
    (let h := hF sup0
     let a := CSH_WCLAIM 0 15
     let v : W32 := 0x20070000
     0 < 4 ∧ 15 < 16 ∧ regGrant h kF a true = true ∧ fldGet cREQ v = 1 ∧ fldGet cREL v = 0 ∧ h.rf a cHELD = 0 ∧ fldGet cFEAT v = 7) ∧
    (let a := CSH_WCLAIM 0 0
     let h := (hF sup0).wr a 0x80070800
     regGrant h kF a true = true ∧ h.rf a cHELD = 1 ∧ h.holds a kF = false ∧ fldGet cREQ (0x20070000 : W32) = 1) ∧
    (let a := CSH_WCLAIM 0 0
     let h := (hF sup0).wr a 0x80070000
     let v : W32 := 0x40000000
     regGrant h kF a true = true ∧ fldGet cREQ v = 0 ∧ fldGet cREL v = 1 ∧ h.holds a kF = true) ∧
    (let h := hF sup0
     regGrant h kF MEU_CTL true = true ∧ blockOf h MEU_CTL = some (.meu, 0) ∧ (infoOf h .meu 0).isSome = true ∧ regGrant h kF (MAT_STAT 0) false = true) := by decide
/-- A region window of master m in region 0 over every page, readable and writable. -/
def hM (h : Hw) (m : Nat) : Hw := (h.wr (RWIN_LO 0 m 0) 0xE0000000).wr (RWIN_HI 0 m 0) 0x1FFFF
/-- A beat of the present epoch reaches what a good one reaches. -/
theorem reach_any (h : Hw) (m : Master) (a : Nat) (par : Par) (hp : par.beat ≠ .stale) : matReach h m a par = matReach h m a .good := by
  have e : ∀ b : Beat, b ≠ .stale → (b == .stale) = false := fun b hb => by cases b <;> first | rfl | exact absurd rfl hb
  have g : (Beat.fine == .stale) = false := rfl
  simp [matReach, staleHit, Par.good, e par.beat hp, g]
theorem reach_last (par : Par) (hp : par.beat ≠ .stale) : matReach (hM (hF sup0) 0) (.frond 0) 0x1FFFFF8 par = true := (reach_any _ _ _ _ hp).trans (by decide)
theorem reach_bare (par : Par) (hp : par.beat ≠ .stale) : matReach (hF sup0) (.frond 0) 0 par = true := (reach_any _ _ _ _ hp).trans (by decide)
theorem reach_engine (par : Par) (hp : par.beat ≠ .stale) : matReach (hM (hF sup0) 12) (.queueEngine 0) 0 par = true := (reach_any _ _ _ _ hp).trans (by decide)
def hXR : Hw := ((hF sup0).wr (RWIN_LO 1 0 0) 0xE0000000).wr (RWIN_HI 1 0 0) 0x1FFFF
theorem reach_across (par : Par) (hp : par.beat ≠ .stale) : matReach hXR (.frond 2) 0 par = true := (reach_any _ _ _ _ hp).trans (by decide)
theorem wit_MatReadsAndWritesAnswerTheirMaster :
    (let h := hM (hF sup0) 0
     let m := Master.frond 0
     h.clocked = true ∧ plainMaster h m = true ∧ protCause h m 0x1FFFFF8 8 false = none ∧
       (∀ w, w ∈ wordsOf 0x1FFFFF8 8 → isMarked h w = false) ∧ wordsOf 0x1FFFFF8 8 = [0x1FFFFF8 / 8 * 8] ∧ 0 < ([some 1, none] : List (Option Byte)).length ∧
       protCause h m 0x1FFFFF8 2 true = none) ∧
    (let h := hF sup0
     let m := Master.frond 0
     plainMaster h m = true ∧ protCause h m 0 8 false = some 0 ∧ protCause h m 0 2 true = some 0 ∧ Par.failed.beat ≠ .stale) ∧
    (let h := hM (hF sup0) 12
     let m := Master.queueEngine 0
     h.clocked = true ∧ plainMaster h m = true ∧ protCause h m 0 8 false = none ∧ sideHit m 0 .sideband = true) ∧
    (let m := Master.frond 2
     hXR.clocked = true ∧ plainMaster hXR m = true ∧ protCause hXR m 0 8 false = none ∧ sideHit m 0 .sideband = true ∧ (protMaster m).1 ≠ memRegion 0) := by decide
/-- A march run, and region 0 with it. -/
def mr0 (d : Bool) : MarchRun := ⟨d, true, 2, none, 0, 16, false, 0, 7, []⟩
def hR (m : Option MarchRun) : Hw := (hF sup0).setMat 0 { MatRgn.empty with march := m, susp := [(true, 63)], repLog := [5] }
theorem wit_MarchRunsAndTheirLogs :
    (let v : W32 := fldSet MCH_CTL_START (fldSet MCH_CTL_MODE (fldSet MCH_CTL_GLAST 0 16) 1) 1
     let h := hR none
     h.hasRegion 0 = true ∧ regGrant h kF (MCH_CTL 0) true = true ∧ kF.keeperSup = true ∧ fldGet MCH_CTL_START v = 1 ∧ fldGet MCH_CTL_ABORT v = 0 ∧ fldGet MCH_CTL_TARGET v = 0 ∧
       fldGet MCH_CTL_MODE v < 2 ∧ fldGet MCH_CTL_GFIRST v ≤ fldGet MCH_CTL_GLAST v ∧ fldGet MCH_CTL_GLAST v ≤ 16 ∧ (h.mat 0).march = none ∧ ¬ fldGet MCH_CTL_MODE v = 0 ∧
       (hR (some (mr0 false)) |>.mat 0).march ≠ none) ∧
    (let v : W32 := fldSet MCH_CTL_ABORT 0 1
     let h := hR (some (mr0 false))
     regGrant h kF (MCH_CTL 0) true = true ∧ fldGet MCH_CTL_START v = 0 ∧ fldGet MCH_CTL_ABORT v = 1 ∧ (h.mat 0).march = some (mr0 false)) ∧
    (let h := hR (some (mr0 false))
     let f : MarchFail := ⟨false, 1023, 511, 7, true, 0⟩
     h.clocked = true ∧ (h.mat 0).march = some (mr0 false) ∧ (mr0 false).destructive = false ∧ 15 < 32 ∧ h.rf (MCH_STAT 0) MCH_STAT_GROUP ≤ 15 ∧ 15 ≤ (mr0 false).glast ∧ (mr0 false).repair = true ∧
       f.prow < dataRows f.cush ∧ marchBit h 0 (mr0 false) f ≠ none ∧ marchPlace (mr0 false) 15 15 f = true ∧ (mr0 false).rows = [] ∧ rowServed h 0 f.cush f.bank f.prow = false ∧
       freeSpare h 0 f.cush f.bank = some 0 ∧ (mr0 false).abortReq = false ∧ (mr0 false).glast ≤ 16 ∧ (mr0 false).single = none) ∧
    (let h := (hR none).wr (MAT_CTL 0) (fldSet MAT_CTL_SVC_REPAIR 0 1)
     (h.mat 0).susp = (true, 63) :: [] ∧ h.clocked = true ∧ (h.mat 0).march = none ∧ h.rb (MAT_CTL 0) MAT_CTL_SVC_REPAIR = true ∧ h.memServed 0 = true) ∧
    (let h := (hR none).wr (MAT_CTL 0) 0
     regGrant h kF (MAT_SUSP 0) false = true ∧ h.rb (MAT_CTL 0) MAT_CTL_SVC_REPAIR = false ∧ 63 < 1024 ∧ regGrant h kF (RPL_DATA 0) false = true ∧ (h.mat 0).repLog = 5 :: [] ∧
       ([] : List W32).length < 64) := by decide

/-- A command of frond 0 with its descriptor at offset 0x40000, and chain 7 with commands. -/
def ex0 : Exec := execNew 1 (.frond 0) .keeper 0 (2 ^ 52 + 0x40000) 0
def hC (es : List Exec) (p : Option Exec) : Hw := { hF sup0 with chains := [(7, { Chain.empty with act := es, pend := p })] }
/-- A FENCE and a COPY descriptor of context 0. -/
def fws : List Nat := [7 * 2 ^ 58 + 0x3F * 2 ^ 18, 0, 0, 0, 0, 0, 0, 0]
def cws : List Nat := [2 ^ 58 + 2 * 2 ^ 52 + 2 * 2 ^ 40 + 3 * 2 ^ 20, 300 * 2 ^ 32, 2 ^ 48, 0, 2 ^ 48 + 0x10000, 0, 0, 0]
/-- The COPY with operand A from a link. -/
def lws : List Nat := [2 ^ 58 + 2 * 2 ^ 52 + 2 * 2 ^ 40 + 2 ^ 22 + 3 * 2 ^ 20, 300 * 2 ^ 32, 2 ^ 48, 0, 2 ^ 48 + 0x10000, 0, 0, 0]
/-- The command with its FENCE in memory, and an empty one. -/
def hD (ws : List Nat) : Hw := { (hC [ex0] none).sb (CXE_CTL 0) CXE_CTL_V with mem := memSets [] 0x40000 (ws.flatMap (leBytes 8)) }
theorem wit_ChainTriggersAndDescriptors :
    (let h := hF sup0
     let v : W64 := 0x1FFFFFFFFFFFC0
     frondReady h 0 = true ∧ 7 < 8 ∧ v.toNat % 2 ^ 53 % 64 = 0 ∧ h.working 0 = true ∧ h.rgnState 0 = 0 ∧ (h.chain 7).act = []) ∧
    (let h := hC [ex0] (some { ex0 with id := 2 })
     frondReady h 0 = true ∧ (h.chain (8 * (0 / 2) + 7)).act ≠ [] ∧ (h.chain (8 * (0 / 2) + 7)).pend.isSome = true) ∧
    (∀ ws ∈ [fws, []], let h := hD ws
     h.clocked = true ∧ soleCmd h 7 ex0 = true ∧ paLocal ex0.descPA = some 0x40000 ∧ (h.inMem 0x40000 && h.memServed (memRegion 0x40000) && !underTest h 0x40000) = true ∧
       ex0.checked = false ∧ ex0.ending = none ∧ ex0.words = [] ∧ ex0.outQ = [] ∧ ex0.accs = [] ∧ ∀ w, w ∈ wordsOf 0x40000 64 → isMarked h w = false) ∧
    (let ws := (List.range 8).map (fun k => leNat ((hD fws).bytesAt (0x40000 + 8 * k) 8))
     let h := hD fws
     descCheck h 0 7 ex0.world ws = none ∧ dOPC ws = opFENCE ∧ dChained ws = false ∧ dFPBAR ws = false ∧ dORD ws = false ∧ ex0.src = .frond 0 ∧ ex0.stopReq = false ∧
       ex0.started = false ∧ ex0.fail = none ∧ h.rgnState 0 = 0 ∧ h.memServed 0 = true) ∧
    (descCheck (hD []) 0 7 ex0.world ((List.range 8).map (fun k => leNat ((hD []).bytesAt (0x40000 + 8 * k) 8))) = some 1) ∧
    (let e := { ex0 with descPA := 2 ^ 52 + 0x2000000 }
     let h := hC [e] none
     soleCmd h 7 e = true ∧ paLocal e.descPA = some 0x2000000 ∧ (h.inMem 0x2000000 && h.memServed (memRegion 0x2000000) && !underTest h 0x2000000) = false) ∧
    (let e := { ex0 with words := cws, checked := true, started := true, fetchA := 300, idx := 300 }
     let p := { ex0 with id := 2 }
     let h := hC [e] (some p)
     h.clocked = true ∧ (h.chain 7).act = [e] ∧ (h.chain 7).pend = some p ∧ lastFetch e = true) := by decide
theorem wit_ChainsStopAbortAndReread :
    (∀ b ∈ [false, true], let e := { ex0 with checked := b, words := if b then cws else [] }
     let h := hC [e] none
     soleCmd h 7 e = true ∧ regGrant h kF (CHN_CTL (7 / 8) (7 % 8)) true = true ∧ kF.anySup = true ∧ kF.world = .keeper ∧ e.ending = none ∧ e.outQ = [] ∧ e.accs = [] ∧
       e.fail = none ∧ e.started = false ∧ e.checked = b ∧ h.rgnState (7 / 8) = 0 ∧ h.memServed (7 / 8) = true ∧ h.clocked = true) ∧
    (fldGet CHN_CTL_STOP (fldSet CHN_CTL_STOP 0 1) = 1 ∧ fldGet CHN_CTL_ABORT (fldSet CHN_CTL_STOP 0 1) = 0 ∧ fldGet CHN_CTL_ABORT (fldSet CHN_CTL_ABORT 0 1) = 1) ∧
    (let e := { ex0 with words := cws, checked := true, started := true, pairOk := true, fail := some ⟨0x17, 0, 0, 0⟩, sl := 256, idx := 299, snap := ⟨1, false, false, 0, 0⟩ }
     let h := hC [e] none
     h.clocked = true ∧ soleCmd h 7 e = true ∧ e.ending = none ∧ e.fail.isSome = true ∧ e.failSE = false ∧ e.rereads.contains (e.idx / e.sl) = false ∧ e.seRead = none ∧ e.snap.seg = e.idx / e.sl ∧ e.accs = [] ∧ e.outQ = [] ∧ e.frame = [] ∧
       usesA e.words = true ∧ dKA e.words = kMem ∧ dKB e.words ≠ kLink ∧ needsRec e.words = false ∧ e.sl ≠ 0 ∧ e.idx < dCOUNT e.words ∧ (h.chain 7).ubuf = [] ∧
       dOPC e.words ≠ opGATHER) ∧
    (let e := { ex0 with words := lws, checked := true, started := true, pairOk := true, sl := 256, idx := 10 }
     soleCmd (hC [e] none) 7 e = true ∧ e.fail = none ∧ dKA e.words = kLink ∧ usesA e.words = true ∧ dKB e.words ≠ kLink ∧ needsRec e.words = false ∧ e.idx < dCOUNT e.words ∧
       e.idx / e.sl * e.sl < linkExp e 0 ∧ linkExp e 0 < segEnd e ∧ dOPC e.words ≠ opGATHER) ∧
    (let b : Bound := ⟨1, true, false, 3, 9⟩
     let e := { ex0 with words := cws, checked := true, started := true, pairOk := true, bounds := [b] }
     let h := hC [e] none
     soleCmd h 7 e = true ∧ h.clocked = true ∧ writesProg e = true ∧ e.accs.all (fun a => a.stream != 5) = true ∧ e.bounds = b :: [] ∧ storedBefore e b.seg = true ∧
       paLocal e.descPA = some 0x40000 ∧ 0x40000 % 64 = 0 ∧ h.inMem (0x40000 + 56) = true ∧ h.memServed (memRegion (0x40000 + 56)) = true ∧ underTest h (0x40000 + 56) = false) := by
  refine ⟨?_, ?_, ?_, ?_⟩ <;> decide
theorem wit_CommandsLeaveTheirChain :
    (let e := { ex0 with words := fws, checked := true, started := true, ending := some ⟨0, 0, 0, 0⟩ }
     let h := hC [e] none
     h.clocked = true ∧ soleCmd h 7 e = true ∧ (h.chain 7).pend = none ∧ recordRoom h 7 [(7, e)] = true ∧ e.ending = some ⟨0, 0, 0, 0⟩ ∧ drained e = true ∧ e.checked = true ∧
       e.fromQ = none ∧ e.svc = none ∧ svcQuiet h = true ∧ 7 < 8 * h.nRegions ∧ 0 < 64) := by decide
/-- Queue 255 bound to the service, rings of 16 entries at 0x10000000 and 0x10000800, tail 1. -/
def hQ : Hw :=
  ((((((hF sup0).wr (SQ_CFG 255) 0xA0000440).wr (SQ_BASE_LO 255) 0x10000000).wr (SQ_BASE_HI 255) 0x100000).wr (CQ_BASE_LO 255) 0x10000800).wr (CQ_BASE_HI 255) 0x100000)
def hQr : Hw := ((hQ.wf (SQ_STAT 255) SQ_STAT_STATE sqRun).wr (DB_SQ 255) 1)
theorem wit_QueuesAreConfiguredAndRung :
    (let h := hQ
     let v : W32 := 0xA0000440
     h.hasQueue 255 = true ∧ regGrant h kF (SQ_CFG 255) true = true ∧ sqWriter kF = true ∧ fldGet SQ_CFG_EN v = 1 ∧ h.sqState 255 = sqOff ∧ fldGet SQ_CFG_BIND v = 2 ∧
       fldGet SQ_CFG_SQSZ v = 4 ∧ fldGet SQ_CFG_CQSZ v = 4 ∧
       (let h1 := h.wr (SQ_CFG 255) (v &&& sqCfgMask)
        ringOk h1 (255 / 256) (h1.rdPair (SQ_BASE_LO 255) (SQ_BASE_HI 255)) (64 * 2 ^ 4) = true ∧
        ringOk h1 (255 / 256) (h1.rdPair (CQ_BASE_LO 255) (CQ_BASE_HI 255)) (32 * 2 ^ 4) = true) ∧
       fldGet SQ_CFG_EN (0x80000440 : W32) = 1 ∧ fldGet SQ_CFG_BIND (0x80000440 : W32) = 0) ∧
    (let h := hQr
     regGrant h kF (SQ_CFG 255) true = true ∧ fldGet SQ_CFG_EN (0 : W32) = 0 ∧ h.sqState 255 = sqRun ∧ (h.queue 255).joins = [] ∧ (h.queue 255).toErr = false) ∧
    (let h := hQr
     let sz := 2 ^ h.rf (SQ_CFG 255) SQ_CFG_SQSZ
     (blockOf h (DB_SQ 255)).any (fun b => blkServed h b.1 && fabricRuns h kF b.1 && whoValid h kF) = true ∧ h.rgnState (255 / 256) ≠ 5 ∧ dbWorldOk h 255 kF = true ∧
       idxDiff 16 (h.rf (DB_SQ 255) DB_SQ_HEAD) ≤ sz ∧ idxDiff 16 (h.rf (DB_SQ 255) DB_SQ_TAIL) ≤ sz ∧ sz < idxDiff 17 (h.rf (DB_SQ 255) DB_SQ_HEAD) ∧
       idxDiff (h.rf (DB_CQ 255) DB_CQ_CQ_TAIL) (fldGet DB_CQ_CQ_HEAD (0 : W32)) ≤ idxDiff (h.rf (DB_CQ 255) DB_CQ_CQ_TAIL) (h.rf (DB_CQ 255) DB_CQ_CQ_HEAD)) := by decide
theorem wit_EntriesAreIssuedAndRecordsWritten :
    (let h := hQr
     h.clocked = true ∧ h.hasQueue 255 = true ∧ sqReady h 255 = true ∧ sqChosen h 255 = true ∧ h.working (255 / 256) = true ∧ h.rgnState (255 / 256) = 0 ∧
       h.rf (SQ_CFG 255) SQ_CFG_BIND ≠ 1) ∧
    (let rc : Rec := ⟨0, 0, false, 1, 0, 0, 0, 255, 0, 0, 0, 0, 0, 0⟩
     let j : Join := ⟨4, 4, 0, none, true, some rc⟩
     let h := hM { hQr with queues := [(255, { QueueSt.empty with joins := [j] })] } 12
     let k := h.rf (SQ_CFG 255) SQ_CFG_CQSZ
     let t := h.rf (DB_CQ 255) DB_CQ_CQ_TAIL
     (h.queue 255).joins = j :: [] ∧ j.recd = some rc ∧ j.done = true ∧ (h.queue 255).writing = none ∧ h.sqState 255 = sqRun ∧ (h.queue 255).mute = false ∧ allNamed h j.ord = true ∧ h.rgnState (255 / 256) = 0 ∧
       paLocal (h.rdPair (CQ_BASE_LO 255) (CQ_BASE_HI 255) + 32 * (t % 2 ^ k)) = some 0x10000800 ∧ 0x10000800 % 32 = 0 ∧ h.inCush 0x10000800 = true ∧
       protCause h (.queueEngine (255 / 256)) 0x10000800 32 true = none ∧ (h.rf (DB_CQ 255) DB_CQ_CQ_HEAD + 2 ^ k + 2 ^ 16 - t) % 2 ^ 16 ≠ 0) ∧
    (let rc : Rec := ⟨0, 0, false, 1, 0, 0, 0, 255, 0, 0, 0, 0, 0, 0⟩
     let j : Join := ⟨4, 4, 0, none, true, some rc⟩
     let h := { hQr with queues := [(255, { QueueSt.empty with joins := [j], writing := some rc })] }
     (h.queue 255).writing = some rc ∧ (h.queue 255).wrErr = false ∧ (h.queue 255).mute = false ∧ h.mreqs = [] ∧ j.fromQ = none ∧ (h.queue 255).toErr = false ∧ h.sqState 255 = sqRun ∧ rc.status ≠ 4) := by decide

/-- A service request of queue 5 that waits, for context 7 of group size 1, with V and the state given. -/
def hX (st : Nat) (run : Option CtxRun) : Hw :=
  { (((((hF sup0).sb (CXE_CTL 7) CXE_CTL_V).wf (CXE_CTL 7) CXE_CTL_STATE st).wf (CXE_MEMB 7) CXE_MEMB_NPART 1).wr (CXE_OPT 7) 0xFFFFFFFF) with
    svcQ := [(0, [(5, 0, 0x40000)])], ctxs := [(7, { CtxSt.empty with run := run })] }
/-- BARRIER and PUT requests with OPID 0xFFFF, and a running one. -/
def rqB : List W64 := [0x9400000000000000, 0x701400, 0, 0, 0xFFFF000000000000, 0, 0, 0]
def rqP : List W64 := [0x9820000000000000, 0x300701400, 0, 0, 0xFFFF000000000000, 0, 0, 0]
def rqR : List W64 := [0xA000000000000000, 0x701400, 0, 0, 0xFFFF000000000000, 0, 0, 0]
def cr0 (ws : List W64) : CtxRun := ⟨ws.map (fun x => x.toNat), 2 ^ 52 + 0x40000, 5, 0, 0, 0, [], 0, none, 0, 0, 0, false, none, none, 0⟩
theorem wit_CollectiveRequestsStartAndEnd :
    (let h := hX csIdle none
     let ws := rqWordsAt h 0x40000 rqB
     let n := rqCTX ws
     frondLive h 0 = true ∧ (h.frond 0).run = .run ∧ svcList h 0 = (5, 0, 0x40000) :: [] ∧ rqMayStart h 0 5 0 ws = true ∧ rqKnown h 0 ws = true ∧ n = 7 ∧
       rqCheck (svcTake h 0 0) 0 (h.sqWorld 5) ws = none ∧ rqCOP ws ≠ copRESTART) ∧
    (let h := (hX csHalted none).wr (CXE_ROLE_LO 7) 1
     let ws := rqWordsAt h 0x40000 rqR
     rqMayStart h 0 5 0 ws = true ∧ rqKnown h 0 ws = true ∧ rqCheck (svcTake h 0 0) 0 (h.sqWorld 5) ws = none ∧ rqCOP ws = copRESTART ∧ h.cxLinks (rqCTX ws) ≠ [] ∧
       (h.ctx (rqCTX ws)).fences = []) ∧
    (let h := hX csHalted none
     let ws := rqWordsAt h 0x40000 rqB
     rqMayStart h 0 5 0 ws = true ∧ rqKnown h 0 ws = true ∧ rqCheck (svcTake h 0 0) 0 (h.sqWorld 5) ws = some (0x24, 0) ∧ 0x24 < 64 ∧ h.cxState (rqCTX ws) ≠ csRun) ∧
    (∀ u ∈ [{ cr0 rqB with ended := some (0x21, 3) }, { cr0 rqB with block := 1000 }], let h := hM (hX csRun (some u)) 0
     h.clocked = true ∧ h.hasCtx 7 = true ∧ (h.ctx 7).run = some u ∧ svcHeld h 7 = false ∧ u.w7 = 0 ∧ paLocal (u.pa + 56) = some 0x40038 ∧ 0x40038 % 8 = 0 ∧ h.inMem 0x40038 = true ∧
       protCause h (.frond (h.cxFrond 7)) 0x40038 8 true = none ∧
       (u.ended = some (0x21, 3) ∨ (u.ended = none ∧ u.fail = none ∧ h.cxState 7 = csRun ∧ inRecovery h (7 / 1024) = false ∧ svcOver h u = true))) ∧
    (∀ st ∈ [csRun, csFence], let u := { cr0 rqB with armed := some 0 }
     let h := { (hX st (some u)).wr (CXE_OPT 7) (fldSet CXE_OPT_TMO_FENCE (fldSet CXE_OPT_TMO_STEP 0 1) 1) with tb := 50000, beatDiv := beatTicks }
     (h.ctx 7).run = some u ∧ u.ended = none ∧ u.armed = some 0 ∧ inRecovery h (7 / 1024) = false ∧ h.cxRank 7 < 1024 ∧ h.cxState 7 = st ∧ h.rf (CXE_OPT 7) CXE_OPT_TMO_STEP ≠ 0 ∧
       h.rf (CXE_OPT 7) CXE_OPT_TMO_FENCE ≠ 0 ∧ h.beatsOver 0 (h.rf (CXE_OPT 7) CXE_OPT_TMO_STEP) = true ∧ h.beatsOver 0 (h.rf (CXE_OPT 7) CXE_OPT_TMO_FENCE) = true) := by
  refine ⟨?_, ?_, ?_, ?_, ?_⟩ <;> decide
theorem wit_ContextsPostsAndTokens :
    (let v : W32 := fldSet CXE_CTL_V 0 1
     let h := (hF sup0).wf (CXE_MEMB 7) CXE_MEMB_NPART 1024 |>.wf (CXE_MEMB 7) CXE_MEMB_RANK 1023
     h.hasCtx 7 = true ∧ regGrant h kF (CXE_CTL 7) true = true ∧ kF.keeperSup = true ∧ h.cxState 7 = csFree ∧ fldGet CXE_CTL_V v = 1 ∧ fldGet CXE_CTL_AGENT v = 0 ∧
       (h.frond (2 * (7 / 1024) + fldGet CXE_CTL_FROND v)).world = (if fldGet CXE_CTL_WORLD v = 1 then World.tenant else World.keeper) ∧
       h.cxN 7 ≠ 0 ∧ h.cxN 7 ≤ 1024 ∧ h.cxRank 7 < h.cxN 7 ∧ (hF sup0).cxN 7 ≤ (hF sup0).cxRank 7) ∧
    (let h := hX csIdle none
     let v : W32 := fldSet CX_HALT_CTX 0 7
     h.hasRegion 0 = true ∧ regGrant h kF (CX_HALT 0) true = true ∧ fldGet CX_HALT_CTX v = 7 ∧ 7 / 1024 = 0 ∧ h.hasCtx 7 = true ∧ h.cxState 7 = csIdle) ∧
    (let h := hX csIdle none
     frondLive h 0 = true ∧ (h.frond 0).run = .run ∧ h.hasCtx 7 = true ∧ 7 / 1024 = 0 / 2 ∧ h.rf (CXE_CTL 7) CXE_CTL_FROND = 0 % 2 ∧ h.rf (CXE_ARDY 7) CXE_ARDY_ARDY ≤ 0 ∧
       2 ^ CXE_ARDY_ARDY.w - 1 < 2 ^ CXE_ARDY_ARDY.w ∧ 31 / 32 = 0 / 2 ∧ h.hasLane 31 = true ∧ Machine.postOk h (0 / 2) ⟨7, 0, false, 0x1000, 64, 0⟩ = true ∧ (h.link 31).posts.length < 8 ∧
       readyPosted { h with links := [(31, { LinkSt.empty with posts := [⟨7, 5, false, 0x1000, 64, 0⟩] })] } 31 7 5 = true) := by decide
/-- Link 1 on lane 1, in a state, with both sequences at 0 and RXEP and TXEP 0, its lane in SYNC and deskewed. -/
def hL (st : Nat) (x : LinkSt) : Hw :=
  let h := { hF sup0 with links := [(1, x)], lanes := [(1, { LaneSt.zero with desk := true })] }
  ((((h.wr (LK_CFG 1) 0x80200000).wf (LK_STAT 1) LK_STAT_STATE st).wf (LK_STAT 1) LK_STAT_RXACT 1).wf (LK_STAT 1) LK_STAT_TXACT 1).wf (LN_STAT 1) LN_STAT_DLN 2

/-- A good slot without acknowledgement; a frame of a type and format; an UP link; the DATA post of context 9. -/
def aw0 : AckWord := ⟨true, false, false, 0, 0, 0, 0xFF, true, 16⟩
def fr (t fmt len : Nat) : Frame := { Frame.blank with typ := t, fmt := fmt, len := len, ctx := 7, step := 1, payload := List.replicate len 3 }
def up0 : Hw := hL lsUp LinkSt.empty
def po : Post := ⟨7, 1, false, 0x10000, 8, 6⟩
theorem wit_FramesOfDataReachTheirPosts :
    (up0.clocked = true ∧ frameSlot up0 1 0 1 (fr ftIDLE 0 0) aw0 = true) ∧
    (∀ f ∈ [fr ftDATA 0 2, fr ftAREC 0x20 2], let h := hM (hL lsUp { LinkSt.empty with posts := [po] }) 13
     let h0 := slotTaken h 1 1 aw0
     frameNext h 1 0 1 f aw0 = true ∧ f.epoch = h0.rf (LK_STAT 1) LK_STAT_RXEP ∧ relayFor h0 1 f = none ∧ fenceDrops h0 1 f = false ∧ f.step ≠ 0xFFF ∧ (h0.link 1).posts = [po] ∧
       frameReserved f = false ∧ f.rsnd = false ∧ svcQuiet h0 = true ∧ h0.rgnState 0 = 0 ∧ h0.chains = [] ∧ po.chain = false ∧ h0.inMat (po.base + po.got) = true ∧ po.ctx = f.ctx ∧ po.step = f.step ∧ f.payload.length = f.len ∧ f.len ≤ po.len - po.got ∧ protCause h0 (.rxWriter 1) (po.base + po.got) f.len true = none ∧
       ∀ w, w ∈ wordsOf (po.base + po.got) f.len → isMarked h0 w = false) ∧
    (frameNext up0 1 0 1 (fr ftCREDIT 0 8) aw0 = true ∧ frameNext up0 1 0 1 { fr ftEPOCH 0 0 with epoch := 15 } aw0 = true ∧ frameNext up0 1 0 1 (fr ftMGMT 0 8) aw0 = true ∧
      (fr ftMGMT 0 8).epoch = (slotTaken up0 1 1 aw0).rf (LK_STAT 1) LK_STAT_RXEP ∧ ((slotTaken up0 1 1 aw0).link 1).mgmt = [] ∧
      (kvGet [] (slotTaken up0 1 1 aw0).mgmtQ (1 / 32)).length < 16) ∧
    (frameReserved (fr 10 0 0) = true ∧ frameReserved (fr ftTOKEN 0 0) = true ∧ frameReserved (fr ftLCTL 9 0) = true ∧ frameReserved (fr ftIDLE 0 0) = false) ∧
    (up0.laneAt 1 0 = some 1 ∧ up0.rf (LN_STAT 1) LN_STAT_DLN = 2 ∧ up0.loopOf 1 = 0 ∧ up0.memServed (1 / 32) = true ∧ rxTurn up0 1 1 = true ∧ { aw0 with ok := false }.ok = false ∧
      inRxSet up0 1 1 = true ∧ (up0.lane 1).hfail < 5) := by decide
/-- Context 7 valid in a state, perhaps with a request, behind an UP link. -/
def hK (st : Nat) (run : Option CtxRun) : Hw :=
  { ((up0.sb (CXE_CTL 7) CXE_CTL_V).wf (CXE_CTL 7) CXE_CTL_STATE st).wf (CXE_RUN 7) CXE_RUN_OPID 5 with ctxs := [(7, { CtxSt.empty with run := run })] }
/-- A token of OPID 5; a GETREQ of a count of bytes. -/
def tok (code len : Nat) : Frame := { fr ftTOKEN code len with offset := 5 }
def getq (n : Nat) : Frame := { tok 6 12 with payload := leBytes 4 0 ++ leBytes 8 n }
theorem wit_TokensReachTheirContext :
    (∀ f ∈ [tok 1 0, tok 2 0, tok 4 0, getq 0, getq 1], let h := hK csIdle none
     let h0 := slotTaken h 1 1 aw0
     frameReserved f = false ∧ frameNext h 1 0 1 f aw0 = true ∧ relayFor h0 1 f = none ∧ f.epoch = h0.rf (LK_STAT 1) LK_STAT_RXEP ∧ f.ctx / 1024 = 1 / 32 ∧ h0.hasCtx f.ctx = true ∧
       h0.rb (CXE_CTL f.ctx) CXE_CTL_V = true ∧ h0.cxState f.ctx = csIdle ∧ xwBytes h0 f.ctx = 0) ∧
    (∀ f ∈ [tok 1 0, tok 3 4, tok 5 0], let h := hK csRun (some (cr0 rqP))
     let h0 := slotTaken h 1 1 aw0
     frameNext h 1 0 1 f aw0 = true ∧ relayFor h0 1 f = none ∧ f.epoch = h0.rf (LK_STAT 1) LK_STAT_RXEP ∧ h0.rb (CXE_CTL f.ctx) CXE_CTL_V = true ∧ h0.cxState f.ctx = csRun ∧
       inRecovery h0 (f.ctx / 1024) = false ∧ (h0.ctx f.ctx).run = some (cr0 rqP) ∧ (cr0 rqP).ended = none ∧ f.offset % 2 ^ 16 = h0.cxOpid f.ctx) ∧
    (let f := { tok 4 0 with tc := 2 }
     let h := { (hK csFence (some (cr0 rqR))).wr (CXE_ROLE_LO 7) 4 with ctxs := [(7, { CtxSt.empty with run := some (cr0 rqR), fences := [(1, 0, 5), (1, 1, 5)] })] }
     let h0 := slotTaken h 1 1 aw0
     frameNext h 1 0 1 f aw0 = true ∧ relayFor h0 1 f = none ∧ h0.cxState 7 = csFence ∧ (h0.ctx 7).run = some (cr0 rqR) ∧ f.offset % 2 ^ 16 = h0.cxOpid 7 ∧ h0.cxLinks 7 = [1] ∧
       ∀ tc, tc < 3 → tc = f.tc ∨ (1, tc, 5) ∈ (h0.ctx 7).fences) ∧
    (leNat ((getq 1).payload.take 4) + leNat (((getq 1).payload.drop 4).take 8) = 1 ∧ csRun ≠ csFence ∧ csIdle ≠ csFence) := by decide
/-- A command whose resend of link input A, of link 1, context 7 and step 1, is awaited. -/
def exS : Exec := { ex0 with words := [2 ^ 58 + 2 * 2 ^ 52 + 2 * 2 ^ 46 + 3 * 2 ^ 20, 7 * 2 ^ 20, 129, 0, 0, 0, 0, 0], checked := true, started := true, rsA := some [] }
theorem wit_LinkControlFramesActOnTheirLink :
    (∀ x ∈ [LinkSt.empty, { LinkSt.empty with gotAck := true, gotInit := true }], let h := hL lsInit x
     let f := { fr ftLCTL 1 26 with payload := leBytes 2 0x0100 ++ List.replicate 24 1 }
     frameReserved f = false ∧ frameSlot h 1 0 1 f aw0 = true ∧ ¬ leNat ((f.payload.drop 4).take 8) = nodeId (slotTaken h 1 1 aw0) (1 / 32) ∧ 0x0100 < 2 ^ LK_PEER_VER.w ∧
       (slotTaken h 1 1 aw0).lkState 1 = lsInit ∧ frameSlot h 1 0 1 { fr ftLCTL 2 9 with payload := List.replicate 8 0 ++ [1] } aw0 = true ∧
       leNat ((List.replicate 8 0 ++ [1] : List Byte).take 8) = nodeId (slotTaken h 1 1 aw0) (1 / 32)) ∧
    (frameSlot up0 1 0 1 (fr ftLCTL 3 1) aw0 = true ∧ (slotTaken up0 1 1 aw0).lkUp 1 = true ∧ aw0.skew ≤ 16 ∧ 16 < { aw0 with skew := 17 }.skew) ∧
    (let f := { fr ftSNAK 0 4 with payload := leBytes 4 1 }
     let g := fr ftDATA 3 8
     let h0 := slotTaken (hL lsUp { LinkSt.empty with hist := [g] }) 1 1 aw0
     frameNext up0 1 0 1 f aw0 = true ∧ f.epoch = (slotTaken up0 1 1 aw0).rf (LK_STAT 1) LK_STAT_RXEP ∧ ((slotTaken up0 1 1 aw0).link 1).hist = [] ∧
       frameNext (hL lsUp { LinkSt.empty with hist := [g] }) 1 0 1 f aw0 = true ∧ (h0.link 1).hist = [g] ∧ g.typ = ftDATA ∧ g.ctx = f.ctx ∧ g.step = f.step ∧ g.offset ≤ f.offset ∧
       0 < leNat ((f.payload.drop 0).take 4) ∧ f.offset + leNat ((f.payload.drop 0).take 4) ≤ g.offset + frameItems g) ∧
    (∀ f ∈ [{ fr ftLCTL 4 1 with payload := [1] }, { fr ftLCTL 4 1 with payload := [3] }, fr ftLCTL 8 0], frameNext up0 1 0 1 f aw0 = true ∧ ((slotTaken up0 1 1 aw0).link 1).rxNew = none) ∧
    (maskReady (slotTaken up0 1 1 aw0) 1 1 = true ∧ maskReady (slotTaken up0 1 1 aw0) 1 3 = false) ∧
    (∀ k ∈ [0, 1], let h := hL lsUp { LinkSt.empty with newSet := some 15, txAt := k }
     ((slotTaken h 1 1 aw0).link 1).newSet = some 15 ∧ ((slotTaken h 1 1 aw0).link 1).want = none ∧ ((slotTaken h 1 1 aw0).link 1).txAt = k ∧ frameNext h 1 0 1 (fr ftLCTL 5 1) aw0 = true ∧
       frameNext h 1 0 1 (fr ftLCTL 6 1) aw0 = true) ∧
    (let f := { fr ftLCTL 7 1 with payload := [2] }
     let h0 := slotTaken up0 1 1 aw0
     frameNext up0 1 0 1 f aw0 = true ∧ Nat.land (h0.rf (LK_STAT 1) LK_STAT_TXACT) (15 - ownMask h0 1 ((f.payload.headD 0).toNat % 16)) ≠ 0 ∧ (h0.link 1).newSet = none ∧
       (h0.link 1).want = none ∧ (h0.link 1).txNew = none ∧ h0.lkState 1 = lsUp) ∧
    (let h := { up0 with chains := [(7, { Chain.empty with act := [exS] })] }
     let f := fr ftSREF 0 0
     let h0 := slotTaken h 1 1 aw0
     frameNext h 1 0 1 f aw0 = true ∧ f.epoch = h0.rf (LK_STAT 1) LK_STAT_RXEP ∧ soleCmd h0 7 exS = true ∧ 7 / 8 = 1 / 32 ∧ exS.ending = none ∧ exS.outQ = [] ∧ exS.accs = [] ∧
       dCTX exS.words = f.ctx ∧ exS.rsA.isSome = true ∧ opLINK (dOp exS.words 0) = 1 ∧ opSTEP (dOp exS.words 0) = f.step) := by decide
theorem wit_FramesAreSentAndTimeOut :
    (∀ q ∈ [[], [fr ftMGMT 0 8]], let h := (hL lsUp { LinkSt.empty with txq := q }).wr (LK_CRED 1) 0x01010101
     let x := h.link 1
     h.clocked = true ∧ h.memServed (1 / 32) = true ∧ h.laneAt 1 0 = some 1 ∧ h.loopOf 1 = 0 ∧ h.lkUp 1 = true ∧ bit (h.rf (LK_STAT 1) LK_STAT_TXACT) 0 = true ∧
       rowNext (h.rf (LK_STAT 1) LK_STAT_TXACT) x.txAt = some 0 ∧ x.unseq = [] ∧ x.ctlq = [] ∧ x.replay = none ∧ x.newSet = none ∧ x.txNew = none ∧ x.retry.length < 64 ∧ x.txq = q ∧
       (∀ tc, tc < 4 → kvGet 0 x.owed tc < 8) ∧ h.lkState 1 ≠ lsQuiesce ∧ ∀ f, f ∈ q → f.tc < 4 ∧ h.cred 1 f.tc ≠ 0 ∧ credited f = true) ∧
    (let h := { (((hL lsUp { LinkSt.empty with retry := [fr ftMGMT 0 8], newSet := some 1, lsSent := true }).sb (LK_RXSEQ 1) LK_RXSEQ_NAKST).wf (LNK_THR1 0) LNK_THR1_REPLAY_MAX 2) with tb := 5000 }
     let x := h.link 1
     h.lkUp 1 = true ∧ x.retry = fr ftMGMT 0 8 :: [] ∧ x.replay = none ∧ (if x.rplSeq = some (fr ftMGMT 0 8).seq then x.rplCnt + 1 else 1) < max 1 (h.rf (LNK_THR1 (1 / 32)) LNK_THR1_REPLAY_MAX) ∧
       h.rb (LK_RXSEQ 1) LK_RXSEQ_NAKST = true ∧ x.newSet.isSome = true ∧ x.lsSent = true ∧ 32 * h.rf (LNK_TMR (1 / 32)) LNK_TMR_RPL_TMO ≤ 10 * ((h.tb - BitVec.ofNat 64 x.tm.rpl).toNat + 1) ∧
       32 * h.rf (LNK_TMR (1 / 32)) LNK_TMR_NAK_TMO ≤ 10 * ((h.tb - BitVec.ofNat 64 x.tm.nak).toNat + 1) ∧ 10000 ≤ 10 * (h.tb - BitVec.ofNat 64 x.tm.lset).toNat) := by decide
/-- Link 1 of two lanes 1 and 2, UP, both active and in SYNC. -/
def hL2 : Hw := ((({ up0 with lanes := [(1, { LaneSt.zero with desk := true }), (2, { LaneSt.zero with desk := true, outPos := 1 })] }.wr (LK_CFG 1) 0x80600000).wf (LK_STAT 1) LK_STAT_RXACT 3).wf (LK_STAT 1) LK_STAT_TXACT 3).wf (LN_STAT 2) LN_STAT_DLN 2
theorem wit_LinksAreBroughtUpAndDown :
    (∀ st ∈ [lsDown, lsAn, lsTrain, lsAlign, lsInit, lsUp], let h := { hL st LinkSt.empty with tb := 100000000 }
     h.hasLane 1 = true ∧ h.clocked = true ∧ h.lkState 1 = st ∧ regGrant h kF (LK_CTL 1) true = true ∧ kF.keeperSup = true ∧ h.working (1 / 32) = true ∧ h.rb (LK_CFG 1) LK_CFG_EN = true ∧
       h.linkLanes 1 = [1] ∧ (h.rf (LT_CLAIM 1) cHELD = 0 ∨ h.rf (LT_CLAIM 1) cAGENT = 0xA) ∧ h.usable 1 ≠ 0 ∧ (h.link 1).gotAck = false ∧ (h.link 1).tm.again = none ∧ h.linkOfLane 1 = some 1 ∧ h.loopOf 1 ≠ 1 ∧
       0 % 2 ^ ((h.linkLanes 1).zip (List.range 4)).length = 0 ∧ 8000 * h.rf (LNK_TMR (1 / 32)) LNK_TMR_INIT_TMO ≤ 10 * (h.tb - BitVec.ofNat 64 (h.link 1).tm.init).toNat) ∧
    (let u : W32 := fldSet LK_CTL_UP 0 1
     fldGet LK_CTL_UP u = 1 ∧ fldGet LK_CTL_DOWN u = 0 ∧ fldGet LK_CTL_RETRAIN u = 0) ∧
    (let u : W32 := fldSet LK_CTL_DOWN 0 1
     fldGet LK_CTL_UP u = 0 ∧ fldGet LK_CTL_DOWN u = 1 ∧ fldGet LK_CTL_RETRAIN u = 0) ∧
    (let u : W32 := fldSet LK_CTL_RETRAIN 0 1
     fldGet LK_CTL_UP u = 0 ∧ fldGet LK_CTL_DOWN u = 0 ∧ fldGet LK_CTL_RETRAIN u = 1) ∧
    (let h := hL2
     h.hasLane 2 = true ∧ regGrant h kF (LN_CTL 2) true = true ∧ fldGet LN_CTL_RETRAIN (fldSet LN_CTL_RETRAIN 0 1) = 1 ∧ h.linkOfLane 2 = some 1 ∧ h.lkUp 1 = true ∧ laneFailed h 2 = false ∧
       Nat.land (txWanted h 1) (15 - 2 ^ h.posOf 1 2) ≠ 0 ∧ Nat.land (h.rf (LK_STAT 1) LK_STAT_RXACT) (15 - 2 ^ (h.lane 2).outPos) ≠ 0 ∧ h.loopOf 2 ≠ 1 ∧
       bit (h.rf (LK_STAT 1) LK_STAT_RXACT) (h.lane 2).outPos = true ∧ (h.link 1).rxNew = none) ∧
    (up0.loopOf 1 ≠ 1 ∧ bit (up0.rf (LK_STAT 1) LK_STAT_RXACT) (up0.lane 1).outPos = true ∧ Nat.land (up0.rf (LK_STAT 1) LK_STAT_RXACT) (15 - 2 ^ (up0.lane 1).outPos) = 0) ∧
    (up0.hasLane 31 = true ∧ up0.clocked = true ∧ up0.rf (LN_STAT 31) LN_STAT_DLN < 2 ∧ up0.loopOf 31 ≠ 1 ∧ up0.linkOfLane 31 = none) := by decide
theorem wit_LaneTestEngines :
    (let h := up0
     h.hasLane 31 = true ∧ regGrant h kF (LT_CTL 31) true = true ∧ h.holds (LT_CLAIM 31) kF = false ∧ fldGet LT_CTL_SCAN (fldSet LT_CTL_SCAN 0 1) = 1 ∧ fldGet LT_CTL_CLR (fldSet LT_CTL_CLR 0 1) = 1) ∧
    (let h := (up0.wr (LT_CLAIM 31) 0x80000000).sb (LT_STAT 31) LT_STAT_BUSY
     regGrant h kF (LT_CTL 31) true = true ∧ h.holds (LT_CLAIM 31) kF = true ∧ h.clocked = true ∧ h.rb (LT_STAT 31) LT_STAT_BUSY = true) := by decide

/-- Host port 1 with its clock. -/
def hP (h : Hw) : Hw := h.wf CLK_STAT CLK_STAT_HCKP 2
theorem wit_HostRequestsAreServedOrRefused :
    (let h := hM (hP up0) 11
     h.clocked = true ∧ h.hasPort 1 = true ∧ hpRunning h 1 = true ∧ h.inCush 0x10000FF8 = true ∧ protCause h (.hostB 1) 0x10000FF8 8 false = none ∧
       protCause h (.hostB 1) 0x10000FF8 2 true = none ∧ (∀ w, w ∈ wordsOf 0x10000FF8 8 → isMarked h w = false) ∧
       0 < ([some 1, none] : List (Option Byte)).length ∧ h.regionList.all (fun r => (h.pw r).held.isEmpty) = true) ∧
    (up0.inCush 0x40000000 = false ∧ inPriv 0x40000000 = false ∧ inUnpriv 0x40000000 = false) := by decide
def lo : LsuLoad := ⟨64, 8, .keeper, true, 9, none⟩
def sto : LsuStore := ⟨64, 8, 9, .keeper, true, 9, none⟩
def wlk (ph : Nat) : Walk := ⟨16, .chain 7 0, true, false, .keeper, 0, 0x1000, 0, 0, ph, false, 0, 0, 0, false, false, false, 0⟩
/-- A frond with a load and a store out on port 1, a walk's CAS64 beside them. -/
def hO : Hw :=
  let x : XltSt := { XltSt.empty with walks := [wlk 3] }
  { ((hP up0).setFrond 0 { sup0 with load := some lo, stores := [sto] }).wr (HP_CTL 1) 0xFFFFFFFF with
    mreqs := [⟨1, some 7, 0, 64, 8, false, false, 0, [], [], [], 0, 0, 0, .load 0 9⟩, ⟨1, some 8, 1, 64, 8, false, false, 0, [], [], [], 0, 0, 0, .store 0 9⟩,
      ⟨1, some 511, 2, 64, 8, false, true, 0, [], [], [], 0, 0, 0, .cas 0 16⟩], xlts := [(0, x)], tb := 50000 * 65536, beatDiv := beatTicks }
theorem wit_LicenseeMemoryAnswers :
    (let h := hO
     h.clocked = true ∧ h.hasPort 1 = true ∧ hpRunning h 1 = true ∧ (mFind h 1 7 0).map (fun q => (q.use, q.st, q.bad)) = some (.load 0 9, 0, []) ∧ (h.frond 0).load = some lo ∧ lo.seq = 9 ∧
       (mFind h 1 8 1).map (fun q => q.use) = some (.store 0 9) ∧ (h.frond 0).stores = [sto] ∧ sto.seq = 9 ∧ (mFind h 1 511 2).map (fun q => q.use) = some (.cas 0 16) ∧
       walkAt h 0 16 = some (wlk 3) ∧ (wlk 3).phase = 3 ∧ (∀ q, q ∈ h.mreqs → q.port = 1 → q.tag.isSome = true) ∧ h.rf (HP_CRED 1) HP_CRED_MREQ < 1024 ∧
       (h.mreqs.find? (fun x => x.port == 1 && x.tag == some 7)).map (fun q => q.use) = some (.load 0 9) ∧ h.rf (HP_CTL 1) HP_CTL_RTMO ≠ 0 ∧ h.beatsOver 0 (h.rf (HP_CTL 1) HP_CTL_RTMO) = true) ∧
    (1024 ≤ (hO.wf (HP_CRED 1) HP_CRED_MREQ 1024).rf (HP_CRED 1) HP_CRED_MREQ ∧ 1024 ≤ (hO.wf (HP_CRED 1) HP_CRED_MWD 1024).rf (HP_CRED 1) HP_CRED_MWD) ∧
    hpRunning up0 1 = false := by decide
/-- The region's translation unit in a state, with a command of chain 7 that reads its operand A. -/
def exA : Exec := { ex0 with words := cws.set 1 (2 ^ 48), checked := true, started := true, pairOk := true, fetchA := 1, idx := 0 }
def hY (x : XltSt) : Hw := { (hC [exA] none).wr (XLT_CTL 0) 0xFFFFFFFF with xlts := [(0, x)] }
/-- A valid table entry, and a leaf of a page readable and writable, accessed and dirty. -/
def tbE : Nat := 0x200000 + 3
def lfE : Nat := 2 ^ 52 + 0x200000 + 0xCD
theorem wit_TranslationsAreLookedUpAndWalked :
    (let h := hY XltSt.empty
     h.clocked = true ∧ h.hasRegion 0 = true ∧ 7 / 8 = 0 ∧ h.working 0 = true ∧ h.rgnState 0 = 0 ∧ (streamNeed h 7 0).isSome = true ∧
       (∀ n, n ∈ (streamNeed h 7 0).toList → n.mark = false ∧ tcFind (h.xlt 0) (exSpace h n.exec).1 (exSpace h n.exec).2 n.va = none) ∧ (h.xlt 0).walks = [] ∧
       h.running 7 = some exA ∧ exA.started = true ∧ exA.ending = none ∧ dNOLA exA.words = false ∧ (laPages exA 0 (min 16 (h.rf (XLT_CTL 0) XLT_CTL_LADEPTH))) ≠ [] ∧
       h.xlt 0 = XltSt.empty ∧ (h.chain 7).ubuf = []) ∧
    (let h := hY { XltSt.empty with walks := [wlk 0] }
     (h.xlt 0).walks = [wlk 0] ∧ 16 ≤ (wlk 0).k ∧ (wlk 0).phase = 0 ∧ dirBase h 0 (wlk 0).world = none ∧ (∀ f, f < 8 → (wlk 0).who ≠ .probe f) ∧
       (dirBase (h.wr (XLT_KDIR_LO 0) 0x8001) 0 (wlk 0).world).isSome = true) ∧
    (∀ k ∈ [0, 15], ∀ lv ∈ [4, 0, 3], let w : Walk := { wlk 2 with k := k, level := lv, entry := tbE - (if lv = 4 then 2 else if lv = 3 then 1 else 0) }
     let h := hY { XltSt.empty with walks := [w] }
     walkAt h 0 k = some w ∧ k < 16 ∧ w.stale = false ∧ w.st = 0 ∧ w.bad = false ∧ w.who = .chain 7 0 ∧ w.phase = 2 ∧ (h.xlt 0).ptr = [] ∧ (lv ≠ 3 → judge w.level w.entry = .table 0x200000)) ∧
    (∀ wr ∈ [true, false], let w : Walk := { wlk 2 with k := 15, level := 3, entry := lfE, leaf := lfE, write := wr }
     let h := hY { XltSt.empty with walks := [w] }
     walkAt h 0 15 = some w ∧ judge w.level w.entry = .leaf ∧ w.demand = true ∧ entPermits h (leafEnt w w.entry) w.write = true ∧ bit w.entry 6 = true ∧ bit w.entry 7 = true ∧
       walkAt (hY { XltSt.empty with walks := [{ w with phase := 4 }] }) 0 15 = some { w with phase := 4 } ∧ w.entry = w.leaf) := by decide

/-- An invalidation of one page in progress, issued by frond 0 or by the host. -/
def inv0 (b : Option Nat) : Inval := ⟨2, .keeper, 4095, 0xFFFFFFFFF000, b, false, [(7, 1, 0, 0)], true, 0, 3⟩
theorem wit_InvalidationsProbesAndDirectories :
    (∀ x ∈ [XltSt.empty, { XltSt.empty with inv := List.replicate 8 (inv0 none) }], let h := { hF sup0 with xlts := [(0, x)] }
     h.hasRegion 0 = true ∧ 0 / 2 = 0 ∧ frondReady h 0 = true ∧ stS (h.frond 0).st = true ∧ maint h = false ∧ (h.frond 0).world = .keeper ∧ (h.xlt 0).walks = [] ∧
       regGrant h pH (XLT_INV_CTL 0) true = true ∧ pH.agent = .host ∧ pH.sup = true ∧ fldGet XLT_INV_CTL_GO (fldSet XLT_INV_CTL_GO 0 1) = 1 ∧
       ((h.xlt 0).inv = [] ∨ 8 ≤ (h.xlt 0).inv.length) ∧ regGrant h kF (XLT_TDIR_LO 0) true = true ∧ kF.keeperSup = true) ∧
    (let h := { hF { sup0 with world := .tenant } with xlts := [] }
     frondReady h 0 = true ∧ stS (h.frond 0).st = true ∧ (h.frond 0).world ≠ .keeper ∧ (h.xlt 0).inv = [] ∧ bit 0x4000 14 = true) ∧
    (∀ b ∈ [none, some 0], let h := { hF { sup0 with xIST := 1 } with xlts := [(0, { XltSt.empty with inv := [inv0 b] })] }
     h.clocked = true ∧ (h.xlt 0).inv = [inv0 b] ∧ (inv0 b).begun = true ∧ (inv0 b).bcast = false ∧ (inv0 b).home = 0 ∧ (inv0 b).awaits.any (accOut h) = false ∧ (inv0 b).by_ = b ∧
       (h.frond 0).xIST = 1) ∧
    (let y : Walk := { wlk 5 with who := .probe 0, entry := 7 }
     let h := { hF sup0 with xlts := [(0, { XltSt.empty with walks := [y] })] }
     h.clocked = true ∧ (h.xlt 0).walks = [y] ∧ y.who = .probe 0 ∧ y.phase = 5) := by decide
/-- The host privileged port holds channel c under feature 6; its registers as given. -/
def hV (c : Nat) (ct pe : W32) : Hw := ((up0.wr (TMR_CLAIM c) 0x80060800).wr (TMR_CNT c) ct).wr (TMR_PER c) pe
/-- Channel 30 in a matching tick with match actions a. -/
def hTm (a : W32) (mv : Bool) : Hw :=
  { ((((hV 30 5 9).wr (TMR_CMP 30) 5).wr (TMR_ACT 30) a).sb (TMR_STAT 30) TMR_STAT_RUN).wr (TMR_ADR_HI 30) 0x1F000000 with tmrs := [(30, ⟨mv⟩)] }
theorem wit_TimersMatchAndWrap :
    (let h := hTm 0x90000000 false
     h.porN = true ∧ h.tmrRun 30 = true ∧ tmrGate h 30 = true ∧ h.rd (TMR_CMP 30) = h.rd (TMR_CNT 30) ∧ h.rd (TMR_CNT 30) ≠ h.rd (TMR_PER 30) ∧
       bit (h.rf (TMR_ACT 30) TMR_ACT_MACT) 0 = true ∧ bit (h.rf (TMR_ACT 30) TMR_ACT_MACT) 1 = false ∧ bit (h.rf (TMR_ACT 30) TMR_ACT_MACT) 2 = false ∧
       grpClaimed h (446 / 32) = false ∧ srcBit h IRQ_PEND 446 = false ∧ srcBit h IRQ_ACT 446 = false) ∧
    (let h := hTm 0x20000000 false
     bit (h.rf (TMR_ACT 30) TMR_ACT_MACT) 1 = true ∧ bit (h.rf (TMR_ACT 30) TMR_ACT_MACT) 2 = false ∧ h.hasChain (h.rf (TMR_ADR_HI 30) TMR_ADR_HI_TGT) = false) ∧
    (∀ mv ∈ [false, true], let h := hTm 0x40000000 mv
     bit (h.rf (TMR_ACT 30) TMR_ACT_MACT) 1 = false ∧ bit (h.rf (TMR_ACT 30) TMR_ACT_MACT) 2 = true ∧ (h.tmr 30).mover = mv ∧
       h.hasRegion (h.rf (TMR_ADR_HI 30) TMR_ADR_HI_TGT % 8 / 2) = false) := by decide
theorem wit_TimersMatchAndWrap_wrap (os : Bool) : let h := ((hTm 0x11000000 false).wr (TMR_PER 30) 5).wf (TMR_CTL 30) TMR_CTL_OS (b2n os)
    h.porN = true ∧ h.tmrRun 30 = true ∧ tmrGate h 30 = true ∧ h.rd (TMR_CNT 30) = h.rd (TMR_PER 30) ∧ h.rb (TMR_CTL 30) TMR_CTL_OS = os ∧
      (let o := h.rf (TMR_ACT 30) TMR_ACT_OACT
       let m := h.rf (TMR_ACT 30) TMR_ACT_MACT
       bit o 0 = true ∧ bit o 1 = false ∧ bit o 2 = false ∧ bit m 1 = false ∧ bit m 2 = false) ∧ (h.wr (TMR_CMP 30) 9).rd (TMR_CMP 30) ≠ (h.wr (TMR_CMP 30) 9).rd (TMR_CNT 30) := by
  cases os <;> decide
theorem wit_TimersAreCommandedAndCaptured :
    (∀ c ∈ [0, 30], let h := hV c 5 9
     let s : W32 := fldSet TMR_CMD_START 0 1
     let t : W32 := fldSet TMR_CMD_STOP 0 1
     let g := h.wr (TMR_CTL c) 0xFFC00000
     regGrant h pH (TMR_CMD c) true = true ∧ fldGet TMR_CMD_START s = 1 ∧ fldGet TMR_CMD_STOP s = 0 ∧ fldGet TMR_CMD_START t = 0 ∧ fldGet TMR_CMD_STOP t = 1 ∧
       h.holds (TMR_CLAIM c) pH = true ∧ tmrCfgErr h c = false ∧ regGrant g pH (TMR_CMD c) true = true ∧ g.holds (TMR_CLAIM c) pH = true ∧ tmrCfgErr g c = true ∧
       regGrant h kF (TMR_CMD c) true = true ∧ h.holds (TMR_CLAIM c) kF = false ∧ regGrant h pH (TMR_CAP c) false = true) ∧
    (∀ op ∈ [0, 1, 2], let h := { hV 30 5 9 with tmrLink := [(op, 30)] }
     h.porN = true ∧ h.tmrLink = (op, 30) :: [] ∧ tmrCfgErr h 30 = false ∧ { h with tmrLink := [(op, 31)] }.tmrLink = (op, 31) :: []) ∧
    (let h := (((up0.wr (TMR_CLAIM 29) 0x80060800).wr (TMR_CLAIM 30) 0x80060800)).wr STG_PER 2
     let v (f n : Nat) : W32 := fldSet TMR_STG_GO (fldSet TMR_STG_N (fldSet TMR_STG_FIRST 0 f) n) 1
     regGrant h pH TMR_STG true = true ∧ fldGet TMR_STG_GO (v 29 2) = 1 ∧ fldGet TMR_STG_FIRST (v 29 2) = 29 ∧ fldGet TMR_STG_N (v 29 2) = 2 ∧ (h.rd STG_PER).toNat = 2 ∧
       (∀ k, k < 2 → h.holds (TMR_CLAIM (29 + k)) pH = true ∧ h.rf (TMR_CLAIM (29 + k)) cFEAT = h.rf (TMR_CLAIM 29) cFEAT ∧ h.tmrRun (29 + k) = false ∧
         h.rf (TMR_CTL (29 + k)) TMR_CTL_GSEL = 0) ∧
       fldGet TMR_STG_N (v 0 1) = 1 ∧ 31 < fldGet TMR_STG_FIRST (v 30 2) + fldGet TMR_STG_N (v 30 2) ∧ (h.rd STG_PER).toNat < fldGet TMR_STG_N (v 0 3)) ∧
    (∀ k ∈ [0, 7], let h := up0.wf (TMR_CTL 30) TMR_CTL_CAPSEL (1 + k)
     let g := { up0.wf (TMR_CTL 30) TMR_CTL_CAPSEL (9 + k) with tgate := 255 }
     h.porN = true ∧ h.rf (TMR_CTL 30) TMR_CTL_CAPSEL = 1 + k ∧ bit 255 k = true ∧ bit h.tgate k = false ∧ bit 0 k = false ∧ (∀ i, i < 8 → bit 0 i = bit h.tgate i) ∧ g.rf (TMR_CTL 30) TMR_CTL_CAPSEL = 9 + k ∧ bit g.tgate k = true) ∧
    (let h := { up0 with tmrs := [(30, ⟨true⟩)] }
     h.clocked = true ∧ (h.tmr 30).mover = true) := by decide
/-- The watchdog enabled in a stage, with window channel 30 and latched halt as given, and frond 0 perhaps in debug halt. -/
def hWd (stage : Nat) (win latched halt : Bool) : Hw :=
  (((((if halt then live.setFrond 0 { sup0 with run := .debugHalt } else hF sup0).wr WDT_CTL (if win then 0xF0000000 else 0xC0000000)).wf WDT_STAT WDT_STAT_STAGE stage).wr WDT_T1 7).wr WDT_T2 9).wf
    WDT_STAT WDT_STAT_HALTL (b2n latched)
theorem wit_TimebaseAndWatchdog :
    (let h := hWd 1 false false false
     regGrant h kF TB_LO false = true ∧ h.porN = true ∧ h.dbg.wrap = false ∧ (∀ f, f < 2 * h.nRegions → h.rb (DBG_TCTL f) DBG_TCTL_EN = false) ∧ regGrant h kF WDT_SVC true = true ∧ kF.agent = .frond 0 ∧
       kF.keeperFrond = true ∧ h.rb WDT_CTL WDT_CTL_EN = true ∧ h.rb WDT_CTL WDT_CTL_WIN = false ∧ (0 : W32) ≠ 0xA55A ∧
       pH.agent = .host ∧ pH.hostPriv = true ∧ h.rb WDT_CTL WDT_CTL_HSVC = true ∧ regGrant (hP h) pH WDT_SVC true = true) ∧
    (∀ run ∈ [false, true], let h := (hWd 2 true false false).wf (TMR_STAT 30) TMR_STAT_RUN (b2n run)
     regGrant h kF WDT_SVC true = true ∧ h.rb WDT_CTL WDT_CTL_EN = true ∧ h.rb WDT_CTL WDT_CTL_WIN = true ∧ 28 + h.rf WDT_CTL WDT_CTL_WCH = 30 ∧ 30 < 31 ∧ h.tmrRun 30 = run ∧ (run = false → tmrCfgErr h 30 = false) ∧
       grpClaimed h (447 / 32) = false ∧ srcBit h IRQ_PEND 447 = false ∧ srcBit h IRQ_ACT 447 = false) ∧
    (∀ st ∈ [1, 2], ∀ halt ∈ [false, true], let h := hWd st false false halt
     h.porN = true ∧ h.rb WDT_CTL WDT_CTL_EN = true ∧ h.rb WDT_STAT WDT_STAT_HALTL = false ∧ h.wdtLim ≤ (h.rd (TMR_CNT 31)).toNat ∧ wdtHalt h = halt ∧ h.rf WDT_STAT WDT_STAT_STAGE = st) ∧
    (∀ st ∈ [1, 2], let h := hWd st false true false
     h.porN = true ∧ h.rb WDT_STAT WDT_STAT_HALTL = true ∧ wdtHalt h = false ∧ h.rf WDT_STAT WDT_STAT_STAGE = st) ∧
    (let h := (hWd 1 false false false).wr (TMR_CLAIM 30) 0x80040800
     let v : W32 := fldSet WDT_CTL_WIN (fldSet WDT_CTL_WCH 0 2) 1
     regGrant h kF WDT_CTL true = true ∧ kF.keeperSup = true ∧ fldGet WDT_CTL_WIN v = 1 ∧ h.rb WDT_CTL WDT_CTL_EN = true ∧ 28 + fldGet WDT_CTL_WCH v = 30 ∧ h.rf (TMR_CLAIM 30) cHELD = 1 ∧
       h.rf (TMR_CLAIM 30) cFEAT = 4 ∧ h.rf (TMR_CLAIM 28) cHELD = 0) := by
  refine ⟨?_, ?_, ?_, ?_, ?_⟩ <;> decide

/-- Both fronds of region 0 in lockup, the region in a phase of recovery with the kn_fatal mark and the trigger that waits. -/
def hLk (phase : Nat) (fatal : Bool) (want : Nat) : Hw :=
  { ((hF { sup0 with run := .lockup }).setFrond 1 { sup0 with run := .lockup }).wf (RGN_STAT 0) RGN_STAT_STATE phase with recs := [(0, ⟨3, fatal, want, 5⟩)], tb := 50000 * 8, beatDiv := beatTicks }
theorem wit_RecoveryStartsOnItsTriggers :
    (∀ want ∈ [0, 1, 15], let h := (hLk rpRun false want).sb (RGN_CTL 0) RGN_CTL_LKREC
     let v : W32 := fldSet RGN_CMD_RECOVER 0 1
     h.hasRegion 0 = true ∧ h.inService 0 = true ∧ h.rgnState 0 = rpRun ∧ recGrant h kF 0 = true ∧ fldGet RGN_CMD_RECOVER v = 1 ∧ kF.keeperSup = true ∧ h.clocked = true ∧
       (h.recSt 0).want = want ∧ (∀ f, f < 8 → f / 2 = 0 → (h.frond f).run = .lockup) ∧ h.rb (RGN_CTL 0) RGN_CTL_LKREC = true) ∧
    (∀ ph ∈ [rpQuiesce, rpDiscard, rpReset, rpHalted], let h := hLk ph false 0
     recGrant h pH 0 = true ∧ pH.hostPriv = true ∧ h.rgnState 0 ≠ rpRun ∧ h.clocked = true ∧ h.inService 0 = true) ∧
    (∀ ps ∈ [psSleep, psOff], let h := (hF sup0).wf (PWR_STAT 0) PWR_STAT_STATE ps
     recGrant h pH 0 = true ∧ h.pwrState 0 = ps) := by
  refine ⟨?_, ?_, ?_⟩ <;> decide
theorem wit_RecoveryRunsThroughItsPhases :
    (∀ es ∈ [[], [exA]], let h := { hLk rpQuiesce false 0 with chains := [(7, { Chain.empty with act := es })] }
     h.clocked = true ∧ h.hasRegion 0 = true ∧ h.rgnState 0 = rpQuiesce ∧ regionDrained h 0 = true ∧ kvGet [] h.svcQ 0 = [] ∧ kvGet [] h.svcTaken 0 = [] ∧
       (∀ c, c ∈ h.ctxs → c.1 / 1024 = 0 → c.2.run = none) ∧ (∀ d, d < 32 → d / 8 = 0 → (h.chain d).pend = none) ∧ (h.chain 7).act = es ∧ ∀ e, e ∈ es → soleCmd h 7 e = true ∧ e.ending = none ∧ e.words ≠ []) ∧
    (let h := hLk rpDiscard false 0
     h.rgnState 0 = rpDiscard ∧ (∀ q, q ∈ h.queues → q.1 / 256 = 0 → q.2.writing = none ∧ q.2.joins = []) ∧ (∀ q, q ∈ h.queues → ∀ j, j ∈ q.2.joins → j.recd = none) ∧
       ∀ q, q ∈ h.mreqs → mRegionOf q ≠ 0) ∧
    (∀ fatal ∈ [false, true], let h := (hLk rpReset fatal 0).wf BOOT_STAT BOOT_STAT_STEP 9
     (kvGet PwrRgn.zero h.pwr 0).held = [] ∧ resetOver h 0 = true ∧ (h.recSt 0).fatal = fatal ∧ frondsStarted h = true ∧ h.rb (DBG_FCTL 0) DBG_FCTL_RHALT = false ∧
       (∀ q, q < 4 → q ≠ 0 → inRecovery h q = false) ∧ ∀ lk, lk < 128 → lk / 32 = 0 → h.lkState lk = lsDown) ∧
    (let h := { (hLk rpQuiesce false 0).wf (RGN_CTL 0) RGN_CTL_DRAIN 1 with mreqs := [⟨0, some 7, 0, 64, 8, false, false, 0, [], [], [], 0, 0, 0, .load 0 9⟩] }
     (kvGet PwrRgn.zero h.pwr 0).held = [] ∧ drainDue h 0 = true ∧ regionDrained h 0 = false ∧ ∀ lk, lk < 128 → lk / 32 = 0 → h.lkState lk = lsDown) := by
  refine ⟨?_, ?_, ?_, ?_⟩ <;> decide
theorem wit_FatalErrorsAndTheErrorLogs :
    (let h := hLk rpRun false 0
     h.clocked = true ∧ h.rb SYS_LOCK SYS_LOCK_FATAL = false ∧ (∀ f, f < 8 → (f < 2 * h.nRegions ∧ (h.frond f).world = .keeper) → countsLocked h f = true) ∧
       (0 < 2 * h.nRegions ∧ (h.frond 0).world = .keeper) ∧ (h.frond 0).run = .lockup) ∧
    (let h := hF sup0
     0 < 2 * h.nRegions ∧ (h.frond 0).world = .keeper ∧ countsLocked h 0 = false) ∧
    (∀ ph ∈ [rpRun, rpQuiesce, rpReset], let h := (hLk ph false 0).sb SYS_LOCK SYS_LOCK_FATAL
     h.clocked = true ∧ h.rb SYS_LOCK SYS_LOCK_FATAL = true ∧ h.rb MEU_STAT MEU_STAT_FATAL = false ∧ h.hasRegion 0 = true ∧ h.inService 0 = true ∧ (h.rgnState 0 = rpRun ∨ inRecovery h 0 = true)) ∧
    (let l : LsuLoad := ⟨2 ^ 52 + 64, 8, .keeper, true, 0, none⟩
     let h := { hF { sup0 with load := some l } with meuLogs := List.replicate 15 (0, 0), rgnLogs := [(3, [(1, 2)])] }
     h.meuLogs.length < 16 ∧ pH.agent = .host ∧ h.hasPort pH.port = true ∧ hpRunning (h.sb CLK_STAT ⟨8 + pH.port, 1⟩) pH.port = true ∧ kF.agent = .frond 0 ∧ (h.frond 0).load = some l ∧ l.pa = 2 ^ 52 + 64 ∧ l.served = none ∧
       regGrant ({ h with cfg := .kn4L }.wf (PWR_STAT 3) PWR_STAT_STATE psRun) kF (RGN_LOG_INFO 3) false = true ∧ kvGet [] h.rgnLogs 3 = (1, 2) :: [] ∧ kvGet [] h.rgnLogs 0 = [] ∧ regGrant h kF MEU_LOG_INFO false = true ∧
       h.meuLogs = (0, 0) :: List.replicate 14 (0, 0) ∧ (hF sup0).meuLogs = []) := by
  refine ⟨?_, ?_, ?_, ?_⟩ <;> decide
/-- The lichen in a state with an item, an index and the first value proposed. -/
def hLc (st item idx : Nat) (v0 : W32) : Hw :=
  ((hP (hF sup0)).wf DBG_STAT DBG_STAT_SESS 1 |>.wf LCH_STAT LCH_STAT_STATE st).wr (LCH_PVAL 0) v0 |>.wf LCH_PITEM LCH_PITEM_ITEM item |>.wf LCH_PITEM LCH_PITEM_INDEX idx
def dK : Who := { agent := .debugger, world := .keeper, sup := true }
theorem wit_ProposalsAreMadeAndConfirmed :
    (∀ st ∈ [lcIdle, lcHash, lcPending, lcVerify], let h := hLc st 1 0 0
     let p : W32 := fldSet LCH_CMD_PROPOSE 0 1
     let w : W32 := fldSet LCH_CMD_WITHDRAW 0 1
     regGrant h kF LCH_CMD true = true ∧ kF.keeperFrond = true ∧ h.lcState = st ∧ fldGet LCH_CMD_PROPOSE p = 1 ∧ fldGet LCH_CMD_WITHDRAW p = 0 ∧ fldGet LCH_CMD_PROPOSE w = 0 ∧
       fldGet LCH_CMD_WITHDRAW w = 1 ∧ h.porN = true ∧ regGrant h pH LCH_CMD true = true ∧ pH.keeperFrond = false ∧ regGrant h pH LCH_HGO true = true ∧ pH.hostPriv = true ∧
       fldGet LCH_HGO_GO (fldSet LCH_HGO_GO 0 1) = 1 ∧ regGrant h dK LCH_DGO true = true ∧ dK.agent = .debugger ∧ dK.world = .keeper ∧ fldGet LCH_DGO_GO (fldSet LCH_DGO_GO 0 1) = 1 ∧
       (∀ k, k < 12 → h.rd (LCH_HDIG k) = h.rd (LCH_DIG k)) ∧ (∀ k, k < 12 → h.rd (LCH_DDIG k) = h.rd (LCH_DIG k)) ∧ h.lchKey = none ∧ h.rf LCH_PITEM LCH_PITEM_ITEM ≠ 7) ∧
    (let h := ((hLc lcPending 7 0 0).wr (LCH_HDIG 11) 1).wr (LCH_DDIG 11) 1
     regGrant h pH LCH_HGO true = true ∧ regGrant h dK LCH_DGO true = true ∧ ¬ (∀ k, k < 12 → h.rd (LCH_HDIG k) = h.rd (LCH_DIG k)) ∧ ¬ (∀ k, k < 12 → h.rd (LCH_DDIG k) = h.rd (LCH_DIG k))) ∧
    (let h := { hLc lcPending 7 0 0 with lchKey := some [] }
     h.lchKey ≠ none ∧ h.rf LCH_PITEM LCH_PITEM_ITEM = 7 ∧ ∀ k, k < 12 → h.rd (LCH_DDIG k) = h.rd (LCH_DIG k)) := by
  refine ⟨?_, ?_, ?_⟩ <;> decide
theorem wit_ProposalsAreMadeAndConfirmed_times :
    lchHashDue { hLc lcHash 1 0 0 with tb := 200 } = true ∧
      (∀ st ∈ [lcPending, lcVerify], lchWindowDue { hLc st 1 0 0 with tb := 400000, beatDiv := beatTicks } = true) := by decide
theorem wit_ConfirmedItemsAreApplied :
    (∀ x ∈ [(1, 0x000E, (0xE0000000 : W32)), (2, 0, 1), (3, 0, 0x8001), (4, 15, 0x77FFF), (5, 31, 0x80800000), (6, 0, 1), (7, 0, 0), (8, 0xF000, 0xFFFFFFFF), (8, 0, 0)],
      let h := ((hLc lcApply x.1 x.2.1 x.2.2).wr (CSH_WCLAIM 0 15) 0x80000000).setFrond 1 sup0
      h.porN = true ∧ h.lcState = lcApply ∧ h.rf LCH_PITEM LCH_PITEM_ITEM = x.1 ∧ lchRefused h x.1 (h.rf LCH_PITEM LCH_PITEM_INDEX) (lchVals h) = false ∧ h.lkState 31 = lsDown) ∧
    (let h := hLc lcApply 5 31 0
     h.lcState = lcApply ∧ lchRefused { h with cfg := .kn4S } 5 32 (lchVals h) = true ∧ h.hasLane 31 = true ∧ lchRefused (hLc lcApply 5 31 1) 5 31 (lchVals (hLc lcApply 5 31 1)) = true ∧
       (let g := hLc lcApply 5 31 0x80600000
        g.porN = true ∧ lchRefused g 5 31 (lchVals g) = true ∧ linkCfgOk g 31 (g.rd (LCH_PVAL 0)) = false)) ∧
    ((hLc lcApply 0 0 0).porN = true ∧ (hLc lcApply 0 0 0).rf LCH_PITEM LCH_PITEM_ITEM = 0 ∧ 8 < (hLc lcApply 9 0 0).rf LCH_PITEM LCH_PITEM_ITEM) := by decide

/-- A session of level 1 or 2 (none for 0) with fronds 0 and 1 in debug halt. -/
def hS (lv : Nat) (x : Frond) : Hw := ((live.setFrond 0 { x with run := .debugHalt }).setFrond 1 { x with run := .debugHalt }).wf DBG_STAT DBG_STAT_SESS lv
theorem wit_DebugFramesAreAnswered :
    (let h := hF sup0
     h.porN = true ∧ h.dbg.ignore = false ∧ sessLevel h = 0 ∧ openReg DBG_STAT = true ∧ openReg (DBG_NONCE 7) = true ∧ openReg DBG_CTL = false ∧ portAck h 0 0x40 false ≠ ackOK) ∧
    (let h := hM (hS 1 sup0) 0
     let a := 0x1FFFFFC
     sessLevel h ≠ 0 ∧ a % 4 = 0 ∧ h.inMem a = true ∧ regionAck h (memRegion a) 0 = ackOK ∧ lineWaits h (.debugger 0) a = false ∧ isMarked h a = false ∧
       protCause h (.debugger 0) a 4 false = none ∧ protCause h (.debugger 0) a 4 true = none) ∧
    (let h := hS 1 sup0
     h.inMem 0x3000FFFC = false ∧ 0x30000000 ≤ 0x3000FFFC ∧ 0x3000FFFC < 0x30010000 ∧ 0x3000FFFC % 4 = 0 ∧ regionAck h (0 / 2) 0 = ackOK ∧ portAck h 0 0x111 false = ackOK ∧
       portAck h 0 0x111 true ≠ ackOK ∧ 0x111 ≠ 0x38A ∧ portAck h 0 (0x40 + 63) true = ackOK ∧ portAck h 0 (0x40 + 63) false = ackOK) ∧
    (let h := (hF sup0).wf DBG_STAT DBG_STAT_SESS 1
     h.inMem 0 = true ∧ (h.frond 0).run = .run ∧ 0 / 2 = memRegion 0 ∧ sessLevel h = 1 ∧ portAck h 0 0x40 false ≠ ackOK) ∧
    (let h := hS 2 sup0
     h.inMem 0 = true ∧ sessLevel h = 2 ∧ (h.frond 0).world = .keeper) := by decide
theorem wit_DebugSessionsOpenAndClose :
    (let h := hS 1 sup0
     let c : W32 := fldSet DBG_AUTH_CHAL 0 1
     let g : W32 := fldSet DBG_AUTH_GO 0 1
     let x : W32 := fldSet DBG_AUTH_CLOSE 0 1
     h.porN = true ∧ fldGet DBG_AUTH_CHAL c = 1 ∧ fldGet DBG_AUTH_GO c = 0 ∧ fldGet DBG_AUTH_CLOSE c = 0 ∧ fldGet DBG_AUTH_GO g = 1 ∧ fldGet DBG_AUTH_CHAL g = 0 ∧ fldGet DBG_AUTH_CLOSE g = 0 ∧
       fldGet DBG_AUTH_CLOSE x = 1 ∧ fldGet DBG_AUTH_CHAL x = 0 ∧ fldGet DBG_AUTH_GO x = 0 ∧ h.dbg.hold = none ∧ h.rf DBG_STAT DBG_STAT_AST ≠ 2 ∧ h.rf DBG_STAT DBG_STAT_SESS ≠ 0 ∧
       (let g := { h.wf DBG_CTL DBG_CTL_ITMO 1 with tb := 50000 * 2000, beatDiv := beatTicks }
        idleLimitOver h = false ∧ idleLimitOver g = true ∧ g.rf DBG_STAT DBG_STAT_SESS ≠ 0 ∧ g.porN = true)) ∧
    ((hS 0 sup0).wf DBG_STAT DBG_STAT_AST 2).rf DBG_STAT DBG_STAT_AST = 2 ∧ { hS 0 sup0 with dbg := { DbgSt.zero with hold := some 1 } }.dbg.hold ≠ none := by decide
theorem wit_FrondsHaltStepAndResume :
    (∀ r ∈ [FrondRun.run, .wait, .debugHalt, .halt, .lockup], let x : Frond := { sup0 with run := r }
     let h := (hF x).wf DBG_STAT DBG_STAT_SESS 1
     h.porN = true ∧ h.hasFrond 0 = true ∧ sessMay h 0 = true ∧ (h.frond 0).run = r ∧ (r = .wait → haltBoundary x = true) ∧ haltDue x = false) ∧
    (let v (f : Fld) : W32 := fldSet f 0 1
     let one := fun (a b c : Nat) (v : W32) => fldGet DBG_FCTL_HALT v = a ∧ fldGet DBG_FCTL_RESUME v = b ∧ fldGet DBG_FCTL_STEP v = c
     one 1 0 0 (v DBG_FCTL_HALT) ∧ one 0 1 0 (v DBG_FCTL_RESUME) ∧ one 0 0 1 (v DBG_FCTL_STEP)) ∧
    (let h := (hF sup0).wf DBG_STAT DBG_STAT_SESS 2
     h.rf DBG_STAT DBG_STAT_SESS ≠ 0 ∧ sessMay h 0 = false) ∧
    haltDue { sup0 with haltReq := true, stepReq := true } = true := by decide
def pk0 : Pkt := ⟨7, 9⟩
/-- Region 0's trace sink enabled and active with 256 slots at 0x10000000, frond 1 with a packet. -/
def hTr : Hw :=
  hM ((((((hF sup0).setFrond 1 sup0).wr (TS_BASE_HI 0) 0x100000).wr (TS_BASE_LO 0) 0x10000000).wr (TS_CTL 0) 0x80000008).sb (TS_STAT 0) TS_STAT_ACT) 14
theorem wit_TracePacketsReachTheirSink :
    (let h := { (hF sup0).sb (DBG_TCTL 1) DBG_TCTL_EN with trace := [(1, ⟨List.replicate 15 pk0, 3⟩)], dbg := { DbgSt.zero with wrap := true } }
     h.porN = true ∧ h.dbg.wrap = true ∧ h.hasFrond 1 = true ∧ h.rb (DBG_TCTL 1) DBG_TCTL_EN = true ∧ traceToFifo h 1 = false ∧ (h.tq 1).pkts.length < 16) ∧
    (∀ q ∈ [[], [pk0]], let h := { hF sup0 with dbg := { DbgSt.zero with fifo := q } }
     regGrant h kF (DBG_TPKT 0) false = true ∧ (∀ f, f < 8 → h.hasFrond f = true → traceToFifo h f = false ∨ (h.tq f).pkts = []) ∧ h.dbg.fifo = q) ∧
    (let h := ((hTr.wr (TS_CLAIM 0) 0x80080000).wr (TS_CTL 0) 0)
     let v (n : Nat) : W32 := fldSet TS_CTL_EN (fldSet TS_CTL_SIZE 0 n) 1
     h.hasRegion 0 = true ∧ regGrant h kF (TS_CTL 0) true = true ∧ h.holds (TS_CLAIM 0) kF = true ∧ fldGet TS_CTL_EN (v 8) = 1 ∧ fldGet TS_CTL_SIZE (v 8) = 8 ∧
       ringOk h 0 (tsBase h 0) (2 ^ 8 * 16) = true ∧ h.rb (TS_CTL 0) TS_CTL_EN = false ∧ fldGet TS_CTL_EN (v 21) = 1 ∧ ¬ fldGet TS_CTL_SIZE (v 21) ≤ 20 ∧ fldGet TS_CTL_EN (0 : W32) = 0 ∧
       hTr.holds (TS_CLAIM 0) kF = false ∧ regGrant hTr kF (TS_CTL 0) true = true) ∧
    (let h := { hTr.wr (TS_WR 0) 255 with trace := [(1, ⟨[pk0], 0⟩)] }
     let off := 0x10000000 + 16 * 255
     h.clocked = true ∧ h.inService 0 = true ∧ h.rgnState 0 = rpRun ∧ h.rb (TS_CTL 0) TS_CTL_EN = true ∧ h.rb (TS_STAT 0) TS_STAT_ACT = true ∧ h.tq 1 = ⟨[pk0], 0⟩ ∧ traceToFifo h 1 = false ∧
       (h.tq 0).pkts = [] ∧ h.rf (TS_CLAIM 0) cWORLD = 0 ∧ paLocal (tsBase h 0 + 16 * ((h.rd (TS_WR 0)).toNat % 2 ^ h.rf (TS_CTL 0) TS_CTL_SIZE)) = some off ∧ off % 16 = 0 ∧
       h.inMem off = true ∧ isMarked h off = false ∧ isMarked h (off + 8) = false ∧ protCause h (.traceSink 0) off 16 true = none ∧ h.rb (TS_CTL 0) TS_CTL_MODE = false ∧
       (hF sup0).rb (TS_CTL 0) TS_CTL_EN = false) := by decide

/-- Region 0 in a power state, with what its power controller holds, its fronds in WAIT. -/
def hPw (st : Nat) (p : PwrRgn) : Hw :=
  { (((live.setFrond 0 { sup0 with run := .wait }).setFrond 1 { sup0 with run := .wait }).wf (PWR_STAT 0) PWR_STAT_STATE st) with pwr := [(0, p)] }
theorem wit_RegionsGoToSleep :
    (∀ cmd ∈ [1, 2], ∀ p ∈ [PwrRgn.zero, { PwrRgn.zero with wait := some 2 }], let v : W32 := fldSet PWR_CTL_CMD 0 cmd
     let h := hPw psRun p
     h.hasRegion 0 = true ∧ regGrant h pH (PWR_CTL 0) true = true ∧ pwrMay pH = true ∧ fldGet PWR_CTL_CMD v = cmd ∧ h.inService 0 = true ∧ h.pw 0 = p ∧ pwrMustWait h 0 = false ∧
       pwrMustWait (h.setFrond 1 { sup0 with run := .debugHalt }) 0 = true) ∧
    (∀ st ∈ [psEnter, psSleep, psOff], let h := hPw st PwrRgn.zero
     regGrant h pH (PWR_CTL 0) true = true ∧ fldGet PWR_CTL_CMD (fldSet PWR_CTL_CMD 0 3) = 3 ∧ h.pwrState 0 = st ∧ h.rb SYS_LOCK SYS_LOCK_FATAL = false ∧ h.inService 0 = false ∧
       (h.sb SYS_LOCK SYS_LOCK_FATAL).rb SYS_LOCK SYS_LOCK_FATAL = true) ∧
    (let h := hPw psEnter { PwrRgn.zero with phase := 1, back := psIdle }
     h.clocked = true ∧ (h.pw 0).wait = none ∧ (h.pw 0).phase = 1 ∧ (h.pw 0).back = psIdle ∧ (∀ lk, lk < 128 → lk / 32 = 0 → h.lkState lk = lsDown) ∧
       frondsStill (h.setFrond 1 sup0) 0 = false ∧ enterReady (h.setFrond 1 sup0) 0 = false) ∧
    (let h := (hPw psRun { PwrRgn.zero with wait := some 1 }).setFrond 1 sup0
     (h.pw 0).wait = some 1 ∧ 1 < 4 ∧ pwrMustWait h 0 = false ∧ h.inService 0 = true ∧ frondsStill h 0 = false) ∧
    (∀ t ∈ [1, 2], let h := { (hPw psEnter { PwrRgn.zero with phase := 3, mark := 7 }).wf (PWR_STAT 0) PWR_STAT_TGT t with tb := 17 }
     commitDue h 0 = true ∧ h.clocked = true ∧ h.rf (PWR_STAT 0) PWR_STAT_TGT = t ∧ h.porN = true ∧ h.rb (PWR_STAT 0) PWR_STAT_PREQ = false) ∧
    (let p : PwrRgn := { PwrRgn.zero with phase := 1, back := psIdle }
     let h := { (hPw psEnter p).setFrond 1 sup0 with tb := 1000 }
     h.porN = true ∧ h.pwrState 0 = psEnter ∧ (h.pw 0).back = psIdle ∧ enterLate h 0 = true) ∧
    (let h := { hPw psEnter { PwrRgn.zero with phase := 2, back := psRun } with tb := 1000 }
     (h.pw 0).phase = 2 ∧ mDone h 0 = true ∧ (h.pw 0).back = psRun ∧ ticksSince h (h.pw 0).mark ≤ 1000 ∧ 1000 < ticksSince { h with tb := 1001 } (h.pw 0).mark ∧ (h.xlt 0).inv = []) := by
  refine ⟨?_, ?_, ?_, ?_, ?_, ?_, ?_⟩
  · decide
  · decide
  · decide
  · decide
  · decide +kernel
  · decide +kernel
  · decide +kernel
/-- No queue of region 0 has an entry to issue, and it is still. -/
theorem wit_RegionsGoToSleep_ready : enterReady (hPw psEnter { PwrRgn.zero with phase := 1, back := psIdle }) 0 = true := by decide
theorem wit_RegionsWakeAndIdle :
    (∀ st ∈ [psSleep, psOff], ∀ c ∈ [1, 7], let h := hPw st { PwrRgn.zero with wake := some c }
     h.hasRegion 0 = true ∧ h.porN = true ∧ (h.pw 0).wake = some c ∧ c < 8 ∧ h.pwrState 0 = st ∧ h.rb SYS_LOCK SYS_LOCK_FATAL = false ∧ h.rb (PWR_STAT 0) PWR_STAT_PACK = false ∧
       (h.sb (PWR_STAT 0) PWR_STAT_PACK).rb (PWR_STAT 0) PWR_STAT_PACK = true ∧ (h.sb (PWR_STAT 0) PWR_STAT_PACK).pwrState 0 = st) ∧
    (∀ o ∈ [false, true], let h := (hPw psWake { PwrRgn.zero with fromOff := o }).sb (PWR_STAT 0) PWR_STAT_PREQ
     h.pwrState 0 = psWake ∧ h.rb (PWR_STAT 0) PWR_STAT_PREQ = true ∧ h.rb (PWR_STAT 0) PWR_STAT_PACK = false ∧ 0 ∉ h.boot.busy ∧ (h.pw 0).fromOff = o) ∧
    (let h := { (hPw psWake PwrRgn.zero).sb (PWR_STAT 0) PWR_STAT_PREQ with tb := 10000 }
     ackLate h 0 = true ∧ h.porN = true ∧ h.pwrState 0 = psWake ∧ 0 ∉ h.boot.busy) ∧
    (let h := { hPw psWake { PwrRgn.zero with acked := true, fromOff := true } with tb := 200 }
     h.clocked = true ∧ h.pwrState 0 = psWake ∧ (h.pw 0).acked = true ∧ (h.pw 0).fromOff = true ∧ (h.pw 0).cleared = false ∧ 200 ≤ ticksSince h (h.pw 0).ackAt ∧
       ticksSince { h with tb := 6958 } (h.pw 0).ackAt < 6959) ∧
    (let h := { hPw psPowerup { PwrRgn.zero with acked := true, fromOff := true } with tb := 6959 }
     h.clocked = true ∧ h.pwrState 0 = psPowerup ∧ (h.pw 0).acked = true ∧ 6959 ≤ ticksSince h (h.pw 0).ackAt) ∧
    (∀ o ∈ [false, true], let h := { hPw psWake { PwrRgn.zero with acked := true, fromOff := o, cleared := o } with tb := 7009 }
     wakeReady h 0 = true ∧ h.clocked = true ∧ (h.pw 0).held = [] ∧ h.bootStep ≠ 3) ∧
    (let h := (hPw psRun { PwrRgn.zero with still := 65535 }).sb (PWR_CTL 0) PWR_CTL_AUTOIDLE
     idleDelay h 0 = true ∧ h.clocked = true ∧ mayIdle (h.setFrond 1 sup0) 0 = false ∧ idleDelay (hPw psRun PwrRgn.zero) 0 = false ∧ (hPw psIdle PwrRgn.zero).pwrState 0 = psIdle ∧
       (hPw psIdle PwrRgn.zero).clocked = true) := by
  refine ⟨?_, ?_, ?_, ?_, ?_, ?_, ?_⟩
  · decide
  · decide
  · decide +kernel
  · decide +kernel
  · decide +kernel
  · decide +kernel
  · decide +kernel
theorem wit_RegionsWakeAndIdle_idle : mayIdle ((hPw psRun PwrRgn.zero).sb (PWR_CTL 0) PWR_CTL_AUTOIDLE) 0 = true := by decide
theorem wit_IdleStepsTickTheTimebaseAndTimers : let h := { (hTm 0x90000000 false).wr (TMR_CMP 30) 7 with links := [], lanes := [], beatDiv := 7 }.wf (LK_STAT 1) LK_STAT_STATE lsDown
    h.porN = true ∧ h.tmrLink = [] ∧ h.rb WDT_CTL WDT_CTL_EN = false ∧ (∀ ch, ch < 32 → (h.chain ch).act = []) ∧ h.tmrRun 30 = true ∧ h.atBeat = false ∧ h.lcState ≠ lcHash ∧
      h.rb SYS_LOCK SYS_LOCK_FATAL = false ∧ h.ctxs = [] ∧
      (∀ r, r < 4 → (h.pwrState r = psRun ∨ h.pwrState r = psIdle ∨ ((h.pwrState r = psSleep ∨ h.pwrState r = psOff) ∧ (h.pw r).wake = none)) ∧
        h.rgnState r = rpRun ∧ (h.mat r).march = none ∧ kvGet [] h.svcQ r = [] ∧ kvGet [] h.svcTaken r = []) ∧ h.links = [] ∧
      (∀ f, f < 8 → (h.frond f).fPend = [] ∧ (h.frond f).resWait = 0 ∧ (h.frond f).istWait = 0 ∧ (h.frond f).heldWas = false ∧ (h.frond f).lockLine = none) ∧
      ∀ c, c < 31 → h.rf (TMR_CTL c) TMR_CTL_GSEL = 0 ∧ (h.tmrRun c = true → h.rd (TMR_CNT c) ≠ h.rd (TMR_CMP c) ∧ h.rd (TMR_CNT c) ≠ h.rd (TMR_PER c)) := by
  refine ⟨?_, ?_, ?_, ?_, ?_, ?_, ?_, ?_, ?_, ?_, ?_, ?_, ?_⟩ <;> decide
theorem wit_EveryCommandAnswersAndPowerOnResetHoldsItOff : Hw.reset.porN = false ∧ pinCommand (.timerMatch 30) = false := by decide
theorem wit_PowerOnResetHoldsTheBlockWhateverWaits : let s : State := ⟨Hw.reset, [.timerMatch 30, .rstAssert, .porAssert]⟩
    s.hw.porN = false ∧ s.hw = { Hw.reset with cfg := s.hw.cfg, rstN := s.hw.rstN, testEn := s.hw.testEn, irqIn := s.hw.irqIn, tgate := s.hw.tgate, free := s.hw.free } ∧
      (∀ c, c ∈ s.pending → c ≠ .testEnHigh ∧ c ≠ .porRelease) ∧ step s = .next { s with pending := [.rstAssert, .porAssert] } :=
  ⟨rfl, rfl, by decide, rfl⟩
theorem wit_EveryStepKeepsCanonicalStorage : State.canonical ⟨live, [.timerStart pH 30 1]⟩ = true := by decide

/-- An ill-formed term for each check of the operands. -/
theorem test_ill_formed_resources_are_refused : ([.rejoin 4, .probeDone 8, .pendingPromote 32, .nakTimeout 128, .queueIssue 1024, .hostClockLoss 8, .mRequestTimeout 0 1024, .stepTimeout 4096, .eventSourceFire 512,
    .claimReq kF (2 ^ 30) 0, .frameTransmit 0 4, .bootx { kF with agent := .frond 8 }, .bootx { kF with port := 8 }] : List Instr).all (fun i => !wellFormed i) = true := by decide
theorem test_ill_formed_frames_are_refused : ([{ fr 0 0 0 with typ := 16 }, { fr 0 0 0 with epoch := 16 }, { fr 0 0 0 with ctx := 4096 }, { fr 0 0 0 with step := 4096 }, { fr 0 0 0 with seq := 2 ^ 20 },
    { fr 0 0 0 with offset := 2 ^ 32 }, { fr 0 0 0 with fmt := 64 }, fr 0 0 512, { fr 0 0 0 with crdTc := 4 }, { fr 0 0 0 with crdN := 64 }, { fr 0 0 0 with tc := 4 }, { fr 0 0 0 with len := 1 }] : List Frame).all
      (fun f => !wellFormed (.idle 0 0 f aw0)) = true ∧ wellFormed (.idle 0 0 (fr 0 0 0) { aw0 with aseq := 2 ^ 20 }) = false ∧ wellFormed (.idle 0 0 (fr 0 0 0) aw0) = true := by decide
theorem test_ill_formed_masters_are_refused : ([.frond 8, .fetchA 32, .fetchB 32, .store 32, .mover 8, .rxWriter 128, .txReader 128, .march 4, .debugger 8, .queueEngine 4, .traceSink 4, .hostB 8] : List Master).all
      (fun m => !wellFormed (.matRead m 0 8 .good [])) = true := by decide
theorem test_ill_formed_ranges_are_refused : ([.chainTrigger 0 8 0, .stimWrite 0 64 0, .holdoffEnd 16, .collectiveRequest 0 [], .collectiveRequestEnd 4096 .good [], .tokenSend 0 0 0 4096 1 0 [],
    .tokenSend 0 0 0 0 0 0 [], .tokenSend 0 0 0 0 7 0 [], .tokenSend 0 0 0 0 1 65536 [], .tokenSend 0 0 0 0 1 0 (List.replicate 257 0), .cxeArdyUpdate 0 0 (2 ^ 24), .receivePost 0 0 ⟨4096, 0, false, 0, 0, 0⟩,
    .receivePost 0 0 ⟨0, 4096, false, 0, 0, 0⟩, .receivePost 0 0 ⟨0, 0, false, 0, 0, 1⟩, .translationLookup 0 4, .seq 0 ⟨0, 0, 4, 0⟩, .seq 0 ⟨0, 0, 0, 1⟩,
    .interruptEntry 0 (some 512) e0, .knIrqInEdge 32 true, .timerMatch 31, .timerCapture 0 (2 ^ 32), .controlParityError 0 (2 ^ 32) 0, .trainDone 0 (2 ^ 32) 0, .trainDone 0 0 (2 ^ 32)] : List Instr).all
      (fun i => !wellFormed i) = true := by decide
theorem test_ill_formed_accesses_are_refused : ([.matRead (.frond 0) 0 0 .good [], .matRead (.frond 0) 0 65 .good [], .matWrite (.frond 0) 0 [] .good [], .marchRowLock 0 32 [], .segmentReread (32, none), .segmentReread (0, some 4), .completionRecordWrite (1024, []), .progressWordWrite ⟨32, .good, []⟩, .lsuStoreAck ⟨8, .good, []⟩, .traceSinkWrite 0 (true, [⟨0, 256, true, 0, .equal⟩]),
    .lsuLoadDone 0 ⟨.good, [⟨513, 0, true, 0, .equal⟩]⟩,
    .matRead (.frond 0) 0 8 .good [⟨0, 256, true, 0, .equal⟩], .matRead (.frond 0) 0 8 ⟨List.replicate 514 .good, .fine⟩ [], .hostSRead 0 0 0 0 true false .good [], .hostSRead 0 0 4097 0 true false .good [],
    .hostSWrite 0 0 0 8 true false [none] [] .good [], .hostSWrite 0 0 0 1 true false [] [] .good [], .mReadData 0 0 (List.replicate 129 0) [] 0 true, .mReadData 0 0 [] [513] 0 true,
    .mWriteResponse 0 0 64 false, .walkTableReadDone 0 16, .debugRd 0 false 2 ⟨.good, []⟩, .debugWr 0 (2 ^ 30) 0 ⟨.good, []⟩, .align 0 0 (fr 0 0 0) { aw0 with skew := 256 }, .idle 0 0 (fr 0 0 0) { aw0 with eye := 256 }, .debugPrd 0 false false 4096, .debugPwr 0 false 4096 0] : List Instr).all
      (fun i => !wellFormed i) = true := by decide
/-- R311: the sum of the greatest word and 1 is 0 with carry and zero, and without overflow. -/
theorem test_alu_add_wraps : (match exec (.aluAdd 0 1) ⟨hF { sup0 with aluO := 0xFFFFFFFFFFFFFFFF }, []⟩ with
    | .next t => decide ((t.hw.frond 0).aluR = 0 ∧ (t.hw.frond 0).aluF = 0b1010) | _ => false) = true := by decide
/-- R311: a comparison of signed words; the flags of the difference are left alone by its result. -/
theorem test_alu_lts_is_signed : (match exec (.aluLts 0 1) ⟨hF { sup0 with aluO := 0xFFFFFFFFFFFFFFFF }, []⟩ with
    | .next t => decide ((t.hw.frond 0).aluR = 1) | _ => false) = true := by decide
/-- R391: a tick with no command waiting counts the timebase. -/
theorem test_idle_tick_counts : (match step ⟨live, []⟩ with | .next t => decide (t.hw.tb = 8) | _ => false) = true := by decide
/-- R490: the power-on reset holds the block off, whatever it is commanded. -/
theorem test_reset_holds : (match exec (.registerWrite kF SYS_BEATST 1) State.reset with | .next t => decide (t = State.reset) | _ => false) = true := by decide
/-- No word spells a command, and the state is as it was. -/
theorem test_no_word_spells : decodeTableWord 8 0 = none ∧ State.reset.withFetchWord 8 0 = State.reset := by decide
/-- The worked case of R152: the records, the integers converted in, the sum and its result; the rounded sum of the first order loses the 1. -/
theorem test_anchored_worked_case : let x := fDecode ffFP32
    anchRecord false [x 0x4B800000] = 0x9700 ∧ anchRecord false [x 0x3F800000] = 0x7F00 ∧ anchRecord false [x 0x35800000] = 0x6B00 ∧ recMax 0x7F00 0x9700 = 0x9700 ∧
      anchIn 48 false 0x9700 (x 0x4B800000) = (0x4000000000, 0, false) ∧ anchIn 48 false 0x9700 (x 0x3F800000) = (0x4000, 0, false) ∧ anchIn 48 false 0x9700 (x 0x35800000) = (0, fNX, true) ∧
      (aadd 48 (aadd 48 0x4000000000 0x4000).1 0x4000).1 = 0x4000008000 ∧ fEncode ffFP32 .rne 0 false (anchOut 48 false 0x9700 1 0x4000008000).1 = (0x4B800001, 0) ∧
      (let r := addF .rne (x 0x4B800000) (x 0x3F800000)
       fEncode ffFP32 .rne 0 false r.1 = (0x4B800000, fNX)) := by decide
/-- The worked case of R393: the low word read in tick 7 leaves 5 as the reader's snapshot. -/
theorem test_timebase_worked_case : (match exec (.tbLoRead kF) ⟨{ live.setFrond 0 sup0 with tb := 0x5FFFFFFFF }, []⟩ with
    | .next t => decide (t.hw.busRd = 0xFFFFFFFF ∧ portRead t.hw 0 0x301 = 5) | _ => false) = true := by decide
/-- The worked case of R343 and R351: LSU_ALIGN in the delay word of a CALL of a tenant frond at user level leaves SRA, SST and ST. -/
theorem test_fault_worked_case :
    (let x : Frond := { sup0 with world := .tenant, st := 0x80000000, pc := 0x8212, xfer := some ⟨4, 0x8300, some 0x8213, false, true, 0, false⟩ }
     match exec (.lsuLd8 0 0x0010000030000404) ⟨hT x, []⟩ with
     | .next t => decide ((t.hw.frond 0).sra = 0x8212 ∧ (t.hw.frond 0).sst = 0x80C04B00 ∧ (t.hw.frond 0).st = 0xED000000 ∧ (t.hw.frond 0).run = .run ∧ (t.hw.frond 0).pc = 0x8020)
     | _ => false) = true := by decide

end Sys2Proof.Tests
end

section
/-!
SUPPORT. The scope family (chapters 0 and 1): the reset values of O57, and the state that refutes O21.
-/
namespace Sys2Proof.Machine

/-- What `Gives` says of a command whose next state is known. -/
theorem gives_iff_of_exec {i : Instr} {s : State} {h : Hw} {P : Hw → Prop} (he : exec i s = .next { s with hw := h }) : Gives i s P ↔ P h := by
  constructor
  · rintro ⟨t, ht, -, hP⟩
    rw [he] at ht
    cases ht
    exact hP
  · exact fun hP => ⟨_, he, rfl, hP⟩

theorem exec_beatBoundary (s : State) : exec .beatBoundary s = .next { s with hw := if s.hw.porN then beatBoundary s.hw else s.hw } := rfl

/-- Out of power-on reset the command BEAT_BOUNDARY performs the boundary (R12, R490). -/
theorem gives_beatBoundary_iff {s : State} {P : Hw → Prop} (hp : s.hw.porN = true) : Gives .beatBoundary s P ↔ P (beatBoundary s.hw) := by
  rw [gives_iff_of_exec (exec_beatBoundary s), if_pos hp]

end Sys2Proof.Machine

namespace Sys2Proof.Proofs.Scope
open Sys2Proof Sys2Proof.Machine

/-! ### The state after reset (O57) -/

/-- After reset every register reads the reset value of its own table. -/
theorem rd_reset (a : Nat) : Hw.reset.rd a = regReset .kn4L a := rfl

theorem frond_reset (f : Nat) : Hw.reset.frond f = Frond.zero := rfl

/-- R422, R490: every region is OFF, in its first epoch and in no recovery. -/
theorem regions_reset : ∀ r, r < 4 → Hw.reset.pwrState r = psOff ∧ Hw.reset.epoch r = 0 ∧ Hw.reset.rgnState r = rpRun := by
  simp only [Hw.pwrState, Hw.epoch, Hw.rgnState, Hw.rf, rd_reset]
  decide

/-- R390: the channels other than the watchdog's are free and stopped. -/
theorem channels_reset : ∀ c, c < 31 → Hw.reset.rf (TMR_CLAIM c) cHELD = 0 ∧ Hw.reset.tmrRun c = false ∧ Hw.reset.rd (TMR_CNT c) = 0 := by
  simp only [Hw.tmrRun, Hw.rb, Hw.rf, rd_reset]
  decide

/-- R390, R396: the watchdog is off, and channel 31 belongs to the hardware agent under feature 3. -/
theorem watchdog_reset : Hw.reset.rb WDT_CTL WDT_CTL_EN = false ∧ Hw.reset.rd (TMR_CLAIM 31) = 0x80030A00 := by
  simp only [Hw.rb, Hw.rf, rd_reset]
  decide

theorem links_reset : ∀ lk, lk < 128 → Hw.reset.lkState lk = lsDown := by
  simp only [Hw.lkState, Hw.rf, rd_reset]
  decide

/-- R310, R368: a frond in reset holds no line lock and no stacked interrupt. -/
theorem fronds_reset (f : Nat) : (Hw.reset.frond f).lockLine = none ∧ (Hw.reset.frond f).pstack = [] ∧ (Hw.reset.frond f).run = .reset := by
  rw [frond_reset]
  exact ⟨rfl, rfl, rfl⟩

theorem session_and_lichen_reset : Hw.reset.rf DBG_STAT DBG_STAT_SESS = 0 ∧ Hw.reset.lcState = lcIdle := by decide

/-- Settles O57: an unlisted register reads its own table's reset value, and every list of the state is empty. -/
theorem resetHoldsTheValuesOfTheSpecification : Obligations.ResetHoldsTheValuesOfTheSpecification := by
  unfold Obligations.ResetHoldsTheValuesOfTheSpecification
  obtain ⟨hwdt, hclaim⟩ := watchdog_reset
  exact ⟨rfl, rfl, rfl, rfl, rfl, rfl, regions_reset, hwdt, hclaim, channels_reset, fronds_reset, links_reset, session_and_lichen_reset⟩

/-! ### An uncorrected error in the tick of a beat boundary (O21)

R14 counts an event of the boundary's tick in the new beat, so MAT_ERRCNT need not read 0 after the boundary. In the state below link 0 retrains: keeper microcode finds its only lane
bad for the second beat in succession (R222). The COMB on chain 0 that awaits a frame of link 0 ends LINK_DOWN (R98), and the next frame of link 1 is no longer its own: the COPY on
chain 1 takes it out of the receive buffer. The frame behind it then lands (R175, R211). It brings one byte of a word that holds bad parity, the read that the merge needs fails, and
MAT_ERRCNT counts it (R50, R51). -/

/-- A link that is UP on the lane at one place of its four. -/
def upOn (h : Hw) (lk place : Nat) : Hw :=
  let h1 := (h.sb (LK_CFG lk) LK_CFG_EN).wf (LK_CFG lk) LK_CFG_LANES (2 ^ place)
  ((h1.wf (LK_STAT lk) LK_STAT_STATE lsUp).wf (LK_STAT lk) LK_STAT_TXACT 1).wf (LK_STAT lk) LK_STAT_RXACT 1

/-- KN4-S at a beat boundary, started and in RUN, with links 0 and 1 UP, the eye of lane 0 closed, and a window for the link unit over the whole mat. -/
def boundaryRegs : Hw :=
  let h1 := { Hw.reset with cfg := .kn4S, porN := true, tb := 50000, beatDiv := beatTicks }
  let h2 := (h1.wf (PWR_STAT 0) PWR_STAT_STATE psRun).wf BOOT_STAT BOOT_STAT_STEP 9
  let h3 := (upOn (upOn h2 0 0) 1 1).wf (LN_EYE 0) LN_EYE_MIN 0
  (h3.wr (RWIN_LO 0 13 0) 0xE0000000).wr (RWIN_HI 0 13 0) 0x1FFFF

/-- A COMB of 256 FP32 elements with operand A from link 1 and operand B from link 0, and a COPY of 256 from link 1, both to memory. -/
def combWords : List Nat := [2 * 2 ^ 58 + 2 * 2 ^ 52 + 2 * 2 ^ 46 + 2 * 2 ^ 40 + 2 ^ 36 + 2 ^ 22 + 2 ^ 20, 2 ^ 40, 1, 0, 2 ^ 48 + 0x10000, 0, 0, 0]
def copyWords : List Nat := [2 ^ 58 + 2 * 2 ^ 52 + 2 * 2 ^ 40 + 2 ^ 36 + 2 ^ 22 + 3 * 2 ^ 20, 2 ^ 40, 1, 0, 2 ^ 48 + 0x20000, 0, 0, 0]

/-- A started command of frond 0 with items of operand A. -/
def startedExec (id : Nat) (ws : List Nat) (a : List (List Byte)) : Exec :=
  { execNew id (.frond 0) .keeper 0 (2 ^ 52) 0 with words := ws, checked := true, started := true, pairOk := true, sl := 1024, bufA := a }

/-- A DATA frame of context 0. -/
def dataFrame (step offset : Nat) (bs : List Byte) : Frame :=
  { Frame.blank with typ := ftDATA, step := step, offset := offset, fmt := 2, len := bs.length, payload := bs }

/-- The block at rest, with the boundary due. -/
def dueBoundary : Hw :=
  { boundaryRegs with
    chains := [(0, { Chain.empty with act := [startedExec 1 combWords [[0, 0, 0, 0]]] }), (1, { Chain.empty with act := [startedExec 2 copyWords []] })]
    lanes := [(0, { LaneSt.zero with bad := 1 })]
    links := [(1, { LinkSt.empty with rbuf := [dataFrame 0 1 [0, 0, 0, 0], dataFrame 1 0 [1]], posts := [⟨0, 1, false, 0x100, 64, 0⟩] })]
    marked := [(0x100 / 8, ())] }

set_option maxRecDepth 20000 in
/-- The error of the merge counts in the new beat. -/
theorem errcnt_after_dueBoundary : (beatBoundary dueBoundary).rd (MAT_ERRCNT 0) = 1 := by decide

/-- Refutes O21: after the boundary of `dueBoundary` MAT_ERRCNT of region 0 reads 1, not 0. -/
theorem not_beatsClaimsAndPlainRegisters : ¬ Obligations.BeatsClaimsAndPlainRegisters := by
  unfold Obligations.BeatsClaimsAndPlainRegisters
  intro hall
  obtain ⟨hbeat, -⟩ := hall ⟨dueBoundary, []⟩
  obtain ⟨-, -, -, -, -, hmat, -⟩ := (gives_beatBoundary_iff rfl).mp (hbeat rfl rfl)
  obtain ⟨-, hzero⟩ := hmat 0 rfl
  rw [errcnt_after_dueBoundary] at hzero
  exact absurd hzero (by decide)

end Sys2Proof.Proofs.Scope
end

section
/-!
SUPPORT. Commands behind their gates, fields of the register file, and the regions with their fronds and links.
-/
namespace Sys2Proof.Machine

/-! ### Commands behind their gates -/

section
variable {i : Instr} {s : State} {f : Hw → Hw} {P : Hw → Prop}

theorem gives_iff_of_always (he : exec i s = always s f) : Gives i s P ↔ P (f s.hw) := gives_iff_of_exec he

/-- With clocks a command of a clocked block does what its row says (R490, R491, R495). -/
theorem gives_iff_of_onClock (he : exec i s = onClock s f) (hc : s.hw.clocked = true) : Gives i s P ↔ P (f s.hw) := by
  rw [gives_iff_of_always he, if_pos hc]

end

/-! ### Fields of a register -/

/-- Two fields of one register word that share no bit. -/
def fldApart (f g : Fld) : Bool := decide (f.lo + f.w ≤ g.lo) || decide (g.lo + g.w ≤ f.lo)

/-- A field that has a bit and lies within the word. -/
def fldInWord (f : Fld) : Bool := decide (0 < f.w) && decide (f.lo + f.w ≤ 32)

theorem fldGet_fldSet_of_apart {f g : Fld} (hg : fldInWord g = true) (hfg : fldApart f g = true) (v : W32) (n : Nat) : fldGet g (fldSet f v n) = fldGet g v := by
  simp only [fldInWord, fldApart, Bool.and_eq_true, Bool.or_eq_true, decide_eq_true_eq] at hg hfg
  have hwidth : g.lo + g.w - 1 + 1 - g.lo = g.w := by omega
  apply Nat.eq_of_testBit_eq
  intro i
  simp only [fldGet, bits, hwidth, Nat.testBit_mod_two_pow, Nat.testBit_shiftRight, BitVec.testBit_toNat]
  by_cases hi : i < g.w
  · rw [fldSet_outside f v n (g.lo + i) (by omega)]
  · simp [hi]

theorem Hw.rf_wf_same (h : Hw) (a : Nat) {f : Fld} (hf : fldInWord f = true) (n : Nat) : (h.wf a f n).rf a f = n % 2 ^ f.w := by
  simp only [fldInWord, Bool.and_eq_true, decide_eq_true_eq] at hf
  rw [Hw.rf, Hw.wf, Hw.rd_wr_same, fldGet_fldSet_same f _ n hf.1 hf.2]

theorem Hw.rf_wf_apart (h : Hw) (a : Nat) {f g : Fld} (hg : fldInWord g = true) (hfg : fldApart f g = true) (n : Nat) : (h.wf a f n).rf a g = h.rf a g := by
  rw [Hw.rf, Hw.wf, Hw.rd_wr_same, fldGet_fldSet_of_apart hg hfg, Hw.rf]

theorem Hw.rd_wf_other (h : Hw) {a b : Nat} (f : Fld) (n : Nat) (hne : b ≠ a) : (h.wf a f n).rd b = h.rd b := h.rd_wr_other _ hne

theorem Hw.rf_wr_other (h : Hw) {a b : Nat} (v : W32) (g : Fld) (hne : b ≠ a) : (h.wr a v).rf b g = h.rf b g := congrArg (fldGet g) (h.rd_wr_other v hne)

/-- A register reads the same in two blocks with the same registers. -/
theorem Hw.rd_congr {h h' : Hw} (hregs : h'.regs = h.regs) (hcfg : h'.cfg = h.cfg) (a : Nat) : h'.rd a = h.rd a := by rw [Hw.rd, Hw.rd, hregs, hcfg]

theorem Hw.rf_wf_other (h : Hw) {a b : Nat} (f g : Fld) (n : Nat) (hne : b ≠ a) : (h.wf a f n).rf b g = h.rf b g := h.rf_wr_other _ g hne

/-- A saturating count stays within its field, so nothing of it is cut. -/
theorem Hw.rf_addSat_same (h : Hw) (a : Nat) {f : Fld} (hf : fldInWord f = true) (n : Nat) : (h.addSat a f n).rf a f = min (2 ^ f.w - 1) (h.rf a f + n) := by
  have hpos : 0 < 2 ^ f.w := Nat.two_pow_pos _
  rw [Hw.addSat, h.rf_wf_same a hf]
  exact Nat.mod_eq_of_lt (by omega)

/-! ### Regions, fronds and links -/

/-- R1, R4: a configuration has four regions at most. -/
theorem Hw.lt_four_of_hasRegion {h : Hw} {r : Nat} (hr : h.hasRegion r = true) : r < 4 := by
  have hle : h.cfg.regions ≤ 4 := by cases h.cfg <;> decide
  exact Nat.lt_of_lt_of_le (of_decide_eq_true hr) hle

theorem Hw.memServed_of_inService {h : Hw} {r : Nat} (hs : h.inService r = true) : h.memServed r = true := by
  simp only [Hw.inService, Bool.and_eq_true] at hs
  obtain ⟨hr, hp⟩ := hs
  simp only [Hw.memServed, hr, hp, Bool.true_or, Bool.and_self]

theorem mem_frondsOf {r f : Nat} : f ∈ frondsOf r ↔ f / 2 = r := by
  simp only [frondsOf, List.mem_cons, List.not_mem_nil, or_false]
  omega

theorem mem_linksOf {r lk : Nat} : lk ∈ linksOf r ↔ lk / 32 = r := by
  simp only [linksOf, List.mem_map, List.mem_range]
  constructor
  · rintro ⟨j, hj, rfl⟩
    omega
  · rintro rfl
    exact ⟨lk % 32, by omega, by omega⟩

theorem linksOf_nodup (r : Nat) : (linksOf r).Nodup := List.nodup_range.map (fun _ _ hij => Nat.add_left_cancel hij)

@[simp] theorem Hw.link_setLink_same (h : Hw) (lk : Nat) (x : LinkSt) : (h.setLink lk x).link lk = x := kvGet_kvIns_same _ _ _ _

theorem Hw.link_setLink_other (h : Hw) {lk j : Nat} (x : LinkSt) (hne : j ≠ lk) : (h.setLink lk x).link j = h.link j := kvGet_kvIns_other _ _ _ hne

@[simp] theorem Hw.xlt_setXlt_same (h : Hw) (r : Nat) (x : XltSt) : (h.setXlt r x).xlt r = x := kvGet_kvIns_same _ _ _ _

@[simp] theorem Hw.chain_setChain_same (h : Hw) (ch : Nat) (x : Chain) : (h.setChain ch x).chain ch = x := kvGet_kvIns_same _ _ _ _

theorem PWR_STAT_inj {q r : Nat} : PWR_STAT q = PWR_STAT r ↔ q = r := by
  unfold PWR_STAT
  omega

theorem LK_STAT_inj {j k : Nat} : LK_STAT j = LK_STAT k ↔ j = k := by
  unfold LK_STAT
  omega

/-- A write of another field of PWR_STAT leaves STATE. -/
theorem Hw.pwrState_wf_apart (h : Hw) (r q : Nat) {f : Fld} (hf : fldApart f PWR_STAT_STATE = true) (n : Nat) : (h.wf (PWR_STAT r) f n).pwrState q = h.pwrState q := by
  by_cases hq : q = r
  · subst hq
    exact h.rf_wf_apart _ rfl hf n
  · exact h.rf_wf_other _ _ _ (fun he => hq (PWR_STAT_inj.mp he))

theorem Hw.pwrState_wf_state (h : Hw) (r q : Nat) {n : Nat} (hn : n < 16) : (h.wf (PWR_STAT r) PWR_STAT_STATE n).pwrState q = if q = r then n else h.pwrState q := by
  split
  next hq =>
    subst hq
    exact (h.rf_wf_same _ rfl n).trans (Nat.mod_eq_of_lt hn)
  next hq => exact h.rf_wf_other _ _ _ (fun he => hq (PWR_STAT_inj.mp he))

end Sys2Proof.Machine
end

section
/-!
SUPPORT. What an interrupt leaves (R357, R370, R375, R501, R505): a source that fires writes the registers of the interrupt controller and, as a wake event, those of the power
controller, and a region in RUN stays in RUN.
-/
namespace Sys2Proof.Machine

/-- An address of the interrupt controller or of the power controller. -/
def irqOrPower (a : Nat) : Prop := a / 0x100000 = 0x20A ∨ a / 0x100000 = 0x219

/-- The part of the block that a firing source leaves. -/
structure IrqKeeps (h h' : Hw) : Prop where
  mem : h'.mem = h.mem
  fronds : h'.fronds = h.fronds
  links : h'.links = h.links
  rd : ∀ a, ¬ irqOrPower a → h'.rd a = h.rd a
  run : ∀ r, h.pwrState r = psRun → h'.pwrState r = psRun

namespace IrqKeeps

theorem refl (h : Hw) : IrqKeeps h h := ⟨rfl, rfl, rfl, fun _ _ => rfl, fun _ hr => hr⟩

theorem trans {h1 h2 h3 : Hw} (h12 : IrqKeeps h1 h2) (h23 : IrqKeeps h2 h3) : IrqKeeps h1 h3 where
  mem := h23.mem.trans h12.mem
  fronds := h23.fronds.trans h12.fronds
  links := h23.links.trans h12.links
  rd a ha := (h23.rd a ha).trans (h12.rd a ha)
  run r hr := h23.run r (h12.run r hr)

theorem forEach {l : List Nat} {f : Hw → Nat → Hw} (hf : ∀ i ∈ l, ∀ h, IrqKeeps h (f h i)) (h : Hw) : IrqKeeps h (forEach l h f) := by
  induction l generalizing h with
  | nil => exact refl h
  | cons i l ih => exact (hf i List.mem_cons_self h).trans (ih (fun j hj => hf j (List.mem_cons_of_mem i hj)) (f h i))

/-- A write of a register of the interrupt controller. -/
theorem wr {a : Nat} (ha : a / 0x100000 = 0x20A) (h : Hw) (v : W32) : IrqKeeps h (h.wr a v) where
  mem := rfl
  fronds := rfl
  links := rfl
  rd b hb := h.rd_wr_other v (fun hba => hb (.inl (hba.symm ▸ ha)))
  run r hr := by
    have hne : PWR_STAT r ≠ a := by
      unfold PWR_STAT
      omega
    exact (h.rf_wr_other v _ hne).trans hr

/-- A write of PWR_STAT that takes no region out of RUN. -/
theorem wf_pwrStat {r : Nat} (hr : r < 4) (h : Hw) (f : Fld) (n : Nat) (hrun : ∀ q, h.pwrState q = psRun → (h.wf (PWR_STAT r) f n).pwrState q = psRun) :
    IrqKeeps h (h.wf (PWR_STAT r) f n) where
  mem := rfl
  fronds := rfl
  links := rfl
  rd b hb := by
    refine h.rd_wf_other f n (fun hba => hb (.inr ?_))
    rw [hba, PWR_STAT]
    omega
  run := hrun

theorem wf_pwrStat_apart {r : Nat} (hr : r < 4) (h : Hw) {f : Fld} (hf : fldApart f PWR_STAT_STATE = true) (n : Nat) : IrqKeeps h (h.wf (PWR_STAT r) f n) :=
  wf_pwrStat hr h f n (fun q hq => (h.pwrState_wf_apart r q hf n).trans hq)

theorem wf_psRun {r : Nat} (hr : r < 4) (h : Hw) : IrqKeeps h (h.wf (PWR_STAT r) PWR_STAT_STATE psRun) :=
  wf_pwrStat hr h _ _ fun q hq => by
    rw [h.pwrState_wf_state r q (by decide), hq]
    exact ite_self _

theorem pwr (h : Hw) (p : KV PwrRgn) : IrqKeeps h { h with pwr := p } := ⟨rfl, rfl, rfl, fun _ _ => rfl, fun _ hr => hr⟩

/-- R503, R505: a wake event may take its region from ENTER back to RUN. -/
theorem wakeEvent {r : Nat} (hr : r < 4) (h : Hw) (cause : Nat) : IrqKeeps h (wakeEvent h r cause) := by
  have hslp : ∀ g : Hw, IrqKeeps g (g.sb (PWR_STAT r) PWR_STAT_SLPABT) := fun g => wf_pwrStat_apart hr g rfl 1
  unfold Machine.wakeEvent
  extract_lets p
  split
  · have htgt := wf_pwrStat_apart hr (h.wf (PWR_STAT r) PWR_STAT_STATE psRun) (f := PWR_STAT_TGT) rfl 0
    exact (((wf_psRun hr h).trans htgt).trans (hslp _)).trans (pwr _ _)
  · split
    · exact pwr h _
    · split
      · exact (hslp h).trans (pwr _ _)
      · exact refl h

theorem wakeOnIrq (h : Hw) (s : Nat) : IrqKeeps h (wakeOnIrq h s) := by
  unfold Machine.wakeOnIrq
  split
  · split
    · exact refl h
    · refine forEach (fun r hr g => ?_) h
      have hr4 : r < 4 := h.lt_four_of_hasRegion (decide_eq_true (List.mem_range.mp hr))
      split
      · exact wakeEvent hr4 g 1
      · exact refl g
  · exact refl h

theorem putSrcBit {reg : Nat → Nat} (hreg : ∀ g, g < 16 → reg g / 0x100000 = 0x20A) (h : Hw) (s : Nat) (v : Bool) : IrqKeeps h (putSrcBit h reg s v) := by
  unfold Machine.putSrcBit
  split
  · exact wr (hreg _ (by omega)) h _
  · exact refl h

end IrqKeeps

theorem IRQ_PEND_block {g : Nat} (hg : g < 16) : IRQ_PEND g / 0x100000 = 0x20A := by
  unfold IRQ_PEND
  omega

theorem IRQ_DEFER_block {g : Nat} (hg : g < 16) : IRQ_DEFER g / 0x100000 = 0x20A := by
  unfold IRQ_DEFER
  omega

theorem IRQ_CNT_block {s : Nat} (hs : s < 483) : IRQ_CNT s / 0x100000 = 0x20A := by
  unfold IRQ_CNT
  omega

/-- R356: the sources of the largest configuration. -/
theorem lt_of_srcExists {c : KCfg} {s : Nat} (hs : srcExists c s = true) : s < 483 := by
  unfold srcExists at hs
  split at hs
  · omega
  · exact of_decide_eq_true hs

namespace IrqKeeps

theorem deferApply {g : Nat} (hg : g < 16) (h : Hw) : IrqKeeps h (deferApply h g) := by
  unfold Machine.deferApply
  extract_lets d h1
  split
  · exact refl h
  · have hwrites : IrqKeeps h h1 := (wr (IRQ_PEND_block hg) h _).trans (wr (IRQ_DEFER_block hg) _ 0)
    refine hwrites.trans (forEach (fun k _ g' => ?_) h1)
    split
    · exact wakeOnIrq g' _
    · exact refl g'

theorem irqSetPend (h : Hw) (s : Nat) : IrqKeeps h (irqSetPend h s) := by
  unfold Machine.irqSetPend
  split
  · exact refl h
  next hs =>
    have hs483 : s < 483 := lt_of_srcExists (by simpa using hs)
    split
    · exact putSrcBit (fun _ => IRQ_DEFER_block) h s true
    · exact ((deferApply (by omega) h).trans (putSrcBit (fun _ => IRQ_PEND_block) _ s true)).trans (wakeOnIrq _ s)

theorem irqFire (h : Hw) (s : Nat) : IrqKeeps h (irqFire h s) := by
  unfold Machine.irqFire
  split
  · exact refl h
  next hs =>
    simp only [Bool.or_eq_true, Bool.not_eq_true', not_or, Bool.not_eq_false] at hs
    split
    · exact wr (IRQ_CNT_block (lt_of_srcExists hs.1)) h _
    · exact irqSetPend h s

/-- R218: a link that changes its state writes LK_STAT, and may fire its source. -/
theorem linkSetState {h : Hw} {lk s : Nat} (hs : h.lkState lk ≠ s) : IrqKeeps (h.wf (LK_STAT lk) LK_STAT_STATE s) (linkSetState h lk s) := by
  unfold Machine.linkSetState
  rw [if_neg hs]
  extract_lets h1
  split
  · exact irqFire h1 _
  · exact refl h1

end IrqKeeps

end Sys2Proof.Machine
end

section
/-!
SUPPORT. What the start of a recovery leaves (R216, R419, R420): the registers of the region, its fronds without their locks, its links in QUIESCE.
-/
namespace Sys2Proof.Machine

/-! ### The links (R216) -/

/-- The state a link of a region that starts recovery goes to. -/
def quiescedState (st : Nat) : Nat := if st = lsUp ∨ st = lsChange then lsQuiesce else st

/-- What a recovery leaves of a link: nothing to send, and the frames held for replay. -/
def LinkQuiesced (h h' : Hw) (lk : Nat) : Prop :=
  (h'.link lk).txq = [] ∧ (h'.link lk).ctlq = [] ∧ (h'.link lk).retry = (h.link lk).retry ∧ h'.lkState lk = quiescedState (h.lkState lk)

theorem LK_STAT_block {lk : Nat} (hlk : lk < 128) : LK_STAT lk / 0x100000 = 0x203 := by
  unfold LK_STAT
  omega

theorem LK_STAT_not_irqOrPower {lk : Nat} (hlk : lk < 128) : ¬ irqOrPower (LK_STAT lk) := by
  simp [irqOrPower, LK_STAT_block hlk]

theorem IrqKeeps.lkState {h h' : Hw} (hk : IrqKeeps h h') {lk : Nat} (hlk : lk < 128) : h'.lkState lk = h.lkState lk :=
  congrArg (fldGet LK_STAT_STATE) (hk.rd _ (LK_STAT_not_irqOrPower hlk))

theorem IrqKeeps.link {h h' : Hw} (hk : IrqKeeps h h') (lk : Nat) : h'.link lk = h.link lk := congrArg (kvGet LinkSt.empty · lk) hk.links

/-- A link with nothing to send; a lane set not yet asked for waits for the rejoin. -/
def stilledLink (h : Hw) (lk : Nat) : LinkSt :=
  let x := h.link lk
  if x.newSet.isSome && !x.lsSent then { x with txq := [], ctlq := [], newSet := none, want := some (txWanted h lk) } else { x with txq := [], ctlq := [] }

theorem stilledLink_queues (h : Hw) (lk : Nat) : (stilledLink h lk).txq = [] ∧ (stilledLink h lk).ctlq = [] ∧ (stilledLink h lk).retry = (h.link lk).retry := by
  unfold stilledLink
  dsimp only
  split <;> exact ⟨rfl, rfl, rfl⟩

/-- The block with the link stilled and, where it is UP, in QUIESCE: linkQuiesce without the interrupt of the change. -/
def linkStilled (h : Hw) (lk : Nat) : Hw :=
  if h.lkState lk = lsUp ∨ h.lkState lk = lsChange then (h.setLink lk (stilledLink h lk)).wf (LK_STAT lk) LK_STAT_STATE lsQuiesce else h.setLink lk (stilledLink h lk)

theorem linkQuiesce_keeps_linkStilled (h : Hw) (lk : Nat) : IrqKeeps (linkStilled h lk) (linkQuiesce h lk) := by
  change IrqKeeps _ (if h.lkState lk = lsUp ∨ h.lkState lk = lsChange then linkSetState (h.setLink lk (stilledLink h lk)) lk lsQuiesce else h.setLink lk (stilledLink h lk))
  unfold linkStilled
  split
  next hup =>
    refine IrqKeeps.linkSetState (fun hq => ?_)
    have hq' : h.lkState lk = lsQuiesce := hq
    rw [hq'] at hup
    exact absurd hup (by decide)
  · exact IrqKeeps.refl _

section
variable (h : Hw) (lk : Nat)

theorem linkStilled_links : (linkStilled h lk).links = (h.setLink lk (stilledLink h lk)).links := by
  unfold linkStilled
  split <;> rfl

theorem linkStilled_link_same : (linkStilled h lk).link lk = stilledLink h lk := by
  rw [Hw.link, linkStilled_links]
  exact h.link_setLink_same lk _

theorem linkStilled_link_other {j : Nat} (hne : j ≠ lk) : (linkStilled h lk).link j = h.link j := by
  rw [Hw.link, linkStilled_links]
  exact h.link_setLink_other _ hne

theorem linkStilled_rd {a : Nat} (hne : a ≠ LK_STAT lk) : (linkStilled h lk).rd a = h.rd a := by
  unfold linkStilled
  split
  · exact (h.setLink lk _).rd_wf_other _ _ hne
  · rfl

theorem linkStilled_lkState_same : (linkStilled h lk).lkState lk = quiescedState (h.lkState lk) := by
  unfold linkStilled quiescedState
  split
  · exact (h.setLink lk _).rf_wf_same _ rfl _
  · rfl

theorem linkStilled_mem_fronds : (linkStilled h lk).mem = h.mem ∧ (linkStilled h lk).fronds = h.fronds := by
  unfold linkStilled
  split <;> exact ⟨rfl, rfl⟩

end

/-- What is left when the links of a list have been quiesced. -/
structure LinksQuiesced (l : List Nat) (h h' : Hw) : Prop where
  mem : h'.mem = h.mem
  fronds : h'.fronds = h.fronds
  rd : ∀ a, ¬ irqOrPower a → a / 0x100000 ≠ 0x203 → h'.rd a = h.rd a
  run : ∀ r, h.pwrState r = psRun → h'.pwrState r = psRun
  others : ∀ lk, lk < 128 → lk ∉ l → h'.link lk = h.link lk ∧ h'.lkState lk = h.lkState lk
  quiesced : ∀ lk ∈ l, LinkQuiesced h h' lk

namespace LinksQuiesced

theorem linkStilled (h : Hw) {lk : Nat} (hlk : lk < 128) : LinksQuiesced [lk] h (linkStilled h lk) where
  mem := (linkStilled_mem_fronds h lk).1
  fronds := (linkStilled_mem_fronds h lk).2
  rd a _ ha := linkStilled_rd h lk (fun he => ha (he ▸ LK_STAT_block hlk))
  run r hr := by
    have hne : PWR_STAT r ≠ LK_STAT lk := by
      unfold PWR_STAT LK_STAT
      omega
    exact (congrArg (fldGet PWR_STAT_STATE) (linkStilled_rd h lk hne)).trans hr
  others j _ hj := by
    have hne : j ≠ lk := fun he => hj (List.mem_singleton.mpr he)
    exact ⟨linkStilled_link_other h lk hne, congrArg (fldGet LK_STAT_STATE) (linkStilled_rd h lk (fun he => hne (LK_STAT_inj.mp he)))⟩
  quiesced j hj := by
    obtain rfl := List.mem_singleton.mp hj
    obtain ⟨htx, hctl, hretry⟩ := stilledLink_queues h j
    unfold LinkQuiesced
    rw [linkStilled_link_same]
    exact ⟨htx, hctl, hretry, linkStilled_lkState_same h j⟩

/-- An interrupt after it leaves it so. -/
theorem irq {l : List Nat} {h h1 h2 : Hw} (hl : ∀ lk ∈ l, lk < 128) (hs : LinksQuiesced l h h1) (hk : IrqKeeps h1 h2) : LinksQuiesced l h h2 where
  mem := hk.mem.trans hs.mem
  fronds := hk.fronds.trans hs.fronds
  rd a ha hb := (hk.rd a ha).trans (hs.rd a ha hb)
  run r hr := hk.run r (hs.run r hr)
  others lk hlk hne := by
    rw [hk.link, hk.lkState hlk]
    exact hs.others lk hlk hne
  quiesced lk hlk := by
    unfold LinkQuiesced
    rw [hk.link, hk.lkState (hl lk hlk)]
    exact hs.quiesced lk hlk

theorem linkQuiesce (h : Hw) {lk : Nat} (hlk : lk < 128) : LinksQuiesced [lk] h (linkQuiesce h lk) :=
  (linkStilled h hlk).irq (fun _ hj => List.mem_singleton.mp hj ▸ hlk) (linkQuiesce_keeps_linkStilled h lk)

theorem nil (h : Hw) : LinksQuiesced [] h h where
  mem := rfl
  fronds := rfl
  rd _ _ _ := rfl
  run _ hr := hr
  others _ _ _ := ⟨rfl, rfl⟩
  quiesced _ hlk := nomatch hlk

theorem cons {lk : Nat} {l : List Nat} {h1 h2 h3 : Hw} (hlk : lk < 128) (hl : ∀ j ∈ l, j < 128) (hne : lk ∉ l) (h12 : LinksQuiesced [lk] h1 h2) (h23 : LinksQuiesced l h2 h3) :
    LinksQuiesced (lk :: l) h1 h3 where
  mem := h23.mem.trans h12.mem
  fronds := h23.fronds.trans h12.fronds
  rd a ha hb := (h23.rd a ha hb).trans (h12.rd a ha hb)
  run r hr := h23.run r (h12.run r hr)
  others j hj hjl := by
    obtain ⟨hlink1, hstate1⟩ := h12.others j hj (fun he => List.ne_of_not_mem_cons hjl (List.mem_singleton.mp he))
    obtain ⟨hlink2, hstate2⟩ := h23.others j hj (List.not_mem_of_not_mem_cons hjl)
    exact ⟨hlink2.trans hlink1, hstate2.trans hstate1⟩
  quiesced j hj := by
    unfold LinkQuiesced
    rcases List.mem_cons.mp hj with rfl | hjl
    · obtain ⟨hlink2, hstate2⟩ := h23.others j hlk hne
      rw [hlink2, hstate2]
      exact h12.quiesced j List.mem_cons_self
    · have hjne : j ≠ lk := fun he => hne (he ▸ hjl)
      obtain ⟨hlink1, hstate1⟩ := h12.others j (hl j hjl) (fun he => hjne (List.mem_singleton.mp he))
      rw [← hlink1, ← hstate1]
      exact h23.quiesced j hjl

theorem foldl {l : List Nat} (hl : ∀ lk ∈ l, lk < 128) (hnd : l.Nodup) (h : Hw) : LinksQuiesced l h (l.foldl Machine.linkQuiesce h) := by
  induction l generalizing h with
  | nil => exact nil h
  | cons lk l ih =>
    obtain ⟨hlk, hl⟩ := List.forall_mem_cons.mp hl
    obtain ⟨hne, hnd⟩ := List.nodup_cons.mp hnd
    exact cons hlk hl hne (linkQuiesce h hlk) (ih hl hnd _)

end LinksQuiesced

/-! ### The start of a recovery (R419, R420) -/

/-- The registers at the start of a recovery. -/
def recoveryRegs (h : Hw) (r cause : Nat) : Hw :=
  let h1 := ((h.wf (RGN_STAT r) RGN_STAT_STATE rpQuiesce).wf (RGN_STAT r) RGN_STAT_CAUSE cause).addSat (RGN_STAT r) RGN_STAT_RCNT 1
  ((h1.wf (PWR_STAT r) PWR_STAT_STATE psRun).wr (RGN_DISC r) 0).sb LCH_MAINT LCH_MAINT_RECOV

/-- A frond at the start of a recovery: without its line lock and without a request presented. -/
def unlocked (x : Frond) : Frond := { x with lockLine := none, lockWait := none, heldWas := false, presented := none }

/-- The block before its links quiesce. -/
def recoveryMarked (h : Hw) (r cause : Nat) : Hw :=
  ((frondsOf r).foldl (fun g f => g.setFrond f (unlocked (g.frond f))) (recoveryRegs h r cause)).setRec r ⟨h.tb.toNat, cause == 5, 0, 0⟩

theorem recoveryStart_eq (h : Hw) (r cause : Nat) : recoveryStart h r cause = (linksOf r).foldl linkQuiesce (recoveryMarked h r cause) := rfl

section
variable (h : Hw) (r : Nat)

theorem recoveryRegs_rd_rgnStat (cause : Nat) : (recoveryRegs h r cause).rd (RGN_STAT r) =
    (((h.wf (RGN_STAT r) RGN_STAT_STATE rpQuiesce).wf (RGN_STAT r) RGN_STAT_CAUSE cause).addSat (RGN_STAT r) RGN_STAT_RCNT 1).rd (RGN_STAT r) := by
  have hpwr : RGN_STAT r ≠ PWR_STAT r := by
    unfold RGN_STAT PWR_STAT
    omega
  have hdisc : RGN_STAT r ≠ RGN_DISC r := by
    unfold RGN_STAT RGN_DISC
    omega
  have hmaint : RGN_STAT r ≠ LCH_MAINT := by
    unfold RGN_STAT LCH_MAINT
    omega
  rw [recoveryRegs, Hw.sb, Hw.rd_wf_other _ _ _ hmaint, Hw.rd_wr_other _ _ hdisc, Hw.rd_wf_other _ _ _ hpwr]

theorem recoveryRegs_rf_rgnStat (cause : Nat) (f : Fld) : (recoveryRegs h r cause).rf (RGN_STAT r) f =
    (((h.wf (RGN_STAT r) RGN_STAT_STATE rpQuiesce).wf (RGN_STAT r) RGN_STAT_CAUSE cause).addSat (RGN_STAT r) RGN_STAT_RCNT 1).rf (RGN_STAT r) f :=
  congrArg (fldGet f) (recoveryRegs_rd_rgnStat h r cause)

theorem recoveryRegs_rgnState (cause : Nat) : (recoveryRegs h r cause).rgnState r = rpQuiesce := by
  rw [Hw.rgnState, recoveryRegs_rf_rgnStat, Hw.addSat, Hw.rf_wf_apart _ _ rfl rfl, Hw.rf_wf_apart _ _ rfl rfl, Hw.rf_wf_same _ _ rfl]
  rfl

theorem recoveryRegs_cause {cause : Nat} (hc : cause < 16) : (recoveryRegs h r cause).rf (RGN_STAT r) RGN_STAT_CAUSE = cause := by
  rw [recoveryRegs_rf_rgnStat, Hw.addSat, Hw.rf_wf_apart _ _ rfl rfl, Hw.rf_wf_same _ _ rfl]
  exact Nat.mod_eq_of_lt hc

theorem recoveryRegs_rcnt (cause : Nat) : (recoveryRegs h r cause).rf (RGN_STAT r) RGN_STAT_RCNT = min 255 (h.rf (RGN_STAT r) RGN_STAT_RCNT + 1) := by
  rw [recoveryRegs_rf_rgnStat, Hw.rf_addSat_same _ _ rfl, Hw.rf_wf_apart _ _ rfl rfl, Hw.rf_wf_apart _ _ rfl rfl]
  rfl

theorem recoveryRegs_recov (cause : Nat) : (recoveryRegs h r cause).rb LCH_MAINT LCH_MAINT_RECOV = true := by
  rw [Hw.rb, recoveryRegs, Hw.sb, Hw.rf_wf_same _ _ rfl]
  rfl

theorem recoveryRegs_pwrState (cause : Nat) : (recoveryRegs h r cause).pwrState r = psRun := by
  have hdisc : PWR_STAT r ≠ RGN_DISC r := by
    unfold PWR_STAT RGN_DISC
    omega
  have hmaint : PWR_STAT r ≠ LCH_MAINT := by
    unfold PWR_STAT LCH_MAINT
    omega
  rw [Hw.pwrState, recoveryRegs, Hw.sb, Hw.rf_wf_other _ _ _ _ hmaint, Hw.rf_wr_other _ _ _ hdisc, Hw.rf_wf_same _ _ rfl]
  rfl

theorem recoveryRegs_lkState (cause lk : Nat) : (recoveryRegs h r cause).lkState lk = h.lkState lk := by
  have hstat : LK_STAT lk ≠ RGN_STAT r := by
    unfold LK_STAT RGN_STAT
    omega
  have hpwr : LK_STAT lk ≠ PWR_STAT r := by
    unfold LK_STAT PWR_STAT
    omega
  have hdisc : LK_STAT lk ≠ RGN_DISC r := by
    unfold LK_STAT RGN_DISC
    omega
  have hmaint : LK_STAT lk ≠ LCH_MAINT := by
    unfold LK_STAT LCH_MAINT
    omega
  rw [Hw.lkState, recoveryRegs, Hw.sb, Hw.rf_wf_other _ _ _ _ hmaint, Hw.rf_wr_other _ _ _ hdisc, Hw.rf_wf_other _ _ _ _ hpwr, Hw.addSat,
    Hw.rf_wf_other _ _ _ _ hstat, Hw.rf_wf_other _ _ _ _ hstat, Hw.rf_wf_other _ _ _ _ hstat, Hw.lkState]

theorem recoveryMarked_eq (cause : Nat) : recoveryMarked h r cause =
    (((recoveryRegs h r cause).setFrond (2 * r) (unlocked (h.frond (2 * r)))).setFrond (2 * r + 1) (unlocked (h.frond (2 * r + 1)))).setRec r ⟨h.tb.toNat, cause == 5, 0, 0⟩ := by
  have hother : ∀ (g : Hw) (x : Frond), (g.setFrond (2 * r) x).frond (2 * r + 1) = g.frond (2 * r + 1) := fun g x => g.frond_setFrond_other x (by omega)
  have hregs : ∀ f, (recoveryRegs h r cause).frond f = h.frond f := fun _ => rfl
  simp only [recoveryMarked, frondsOf, List.foldl_cons, List.foldl_nil, hother, hregs]

theorem recoveryMarked_rd (cause a : Nat) : (recoveryMarked h r cause).rd a = (recoveryRegs h r cause).rd a := by
  rw [recoveryMarked_eq]
  exact Hw.rd_congr (by rw [Hw.setRec_regs, Hw.setFrond_regs, Hw.setFrond_regs]) (by rw [Hw.setRec_cfg, Hw.setFrond_cfg, Hw.setFrond_cfg]) a

theorem recoveryMarked_rf (cause a : Nat) (f : Fld) : (recoveryMarked h r cause).rf a f = (recoveryRegs h r cause).rf a f := congrArg (fldGet f) (recoveryMarked_rd h r cause a)

theorem recoveryMarked_mem (cause : Nat) : (recoveryMarked h r cause).mem = h.mem := by
  rw [recoveryMarked_eq]
  rfl

theorem recoveryMarked_link (cause lk : Nat) : (recoveryMarked h r cause).link lk = h.link lk := by
  rw [recoveryMarked_eq]
  rfl

theorem recoveryMarked_frond (cause : Nat) {f : Nat} (hf : f / 2 = r) : (recoveryMarked h r cause).frond f = unlocked (h.frond f) := by
  have hrec : ∀ (g : Hw) (x : RecSt), (g.setRec r x).frond f = g.frond f := fun _ _ => rfl
  rw [recoveryMarked_eq, hrec]
  obtain rfl | rfl : f = 2 * r ∨ f = 2 * r + 1 := by omega
  · rw [Hw.frond_setFrond_other _ _ (by omega), Hw.frond_setFrond_same]
  · rw [Hw.frond_setFrond_same]

end

/-- What the start of a recovery with a cause leaves of a region (R420). -/
def RecoveryStarted (h : Hw) (r cause : Nat) (h' : Hw) : Prop :=
  h'.rgnState r = rpQuiesce ∧ h'.rf (RGN_STAT r) RGN_STAT_CAUSE = cause ∧ h'.rf (RGN_STAT r) RGN_STAT_RCNT = min 255 (h.rf (RGN_STAT r) RGN_STAT_RCNT + 1) ∧
    h'.rb LCH_MAINT LCH_MAINT_RECOV = true ∧ h'.pwrState r = psRun ∧ (∀ f, f / 2 = r → (h'.frond f).lockLine = none ∧ (h'.frond f).run = (h.frond f).run) ∧
    (∀ lk, lk / 32 = r → LinkQuiesced h h' lk) ∧ h'.mem = h.mem

theorem RGN_STAT_block {r : Nat} (hr : r < 4) : RGN_STAT r / 0x100000 = 0x20D := by
  unfold RGN_STAT
  omega

/-- The links quiesce after the region's own registers are written, and leave them. -/
theorem linksQuiesced_rf_rgnStat {l : List Nat} {h h' : Hw} (hs : LinksQuiesced l h h') {r : Nat} (hr : r < 4) (f : Fld) : h'.rf (RGN_STAT r) f = h.rf (RGN_STAT r) f := by
  have hblock := RGN_STAT_block hr
  exact congrArg (fldGet f) (hs.rd _ (by simp [irqOrPower, hblock]) (by simp [hblock]))

theorem linksQuiesced_recov {l : List Nat} {h h' : Hw} (hs : LinksQuiesced l h h') : h'.rb LCH_MAINT LCH_MAINT_RECOV = h.rb LCH_MAINT LCH_MAINT_RECOV :=
  congrArg (fun v => fldGet LCH_MAINT_RECOV v == 1) (hs.rd _ (by simp [irqOrPower, LCH_MAINT]) (by simp [LCH_MAINT]))

theorem recoveryStart_started {h : Hw} {r cause : Nat} (hr : r < 4) (hc : cause < 16) : RecoveryStarted h r cause (recoveryStart h r cause) := by
  have hlinks : ∀ lk ∈ linksOf r, lk < 128 := fun lk hlk => by
    have := mem_linksOf.mp hlk
    omega
  have hs := LinksQuiesced.foldl hlinks (linksOf_nodup r) (recoveryMarked h r cause)
  rw [recoveryStart_eq]
  refine ⟨?_, ?_, ?_, ?_, ?_, ?_, ?_, ?_⟩
  · rw [Hw.rgnState, linksQuiesced_rf_rgnStat hs hr, recoveryMarked_rf]
    exact recoveryRegs_rgnState h r cause
  · rw [linksQuiesced_rf_rgnStat hs hr, recoveryMarked_rf, recoveryRegs_cause h r hc]
  · rw [linksQuiesced_rf_rgnStat hs hr, recoveryMarked_rf, recoveryRegs_rcnt]
  · rw [linksQuiesced_recov hs, Hw.rb, recoveryMarked_rf]
    exact recoveryRegs_recov h r cause
  · refine hs.run r ?_
    rw [Hw.pwrState, recoveryMarked_rf]
    exact recoveryRegs_pwrState h r cause
  · intro f hf
    have hfrond : ((linksOf r).foldl linkQuiesce (recoveryMarked h r cause)).frond f = unlocked (h.frond f) := by
      rw [Hw.frond, hs.fronds]
      exact recoveryMarked_frond h r cause hf
    rw [hfrond]
    exact ⟨rfl, rfl⟩
  · intro lk hlk
    obtain ⟨htx, hctl, hretry, hstate⟩ := hs.quiesced lk (mem_linksOf.mpr hlk)
    rw [recoveryMarked_link] at hretry
    rw [Hw.lkState, Hw.lkState, recoveryMarked_rf] at hstate
    exact ⟨htx, hctl, hretry, hstate.trans (congrArg quiescedState (recoveryRegs_lkState h r cause lk))⟩
  · exact hs.mem.trans (recoveryMarked_mem h r cause)

end Sys2Proof.Machine
end

section
/-!
SUPPORT. The triggers of a recovery (R26, R418, R419) and the statement on them (O44).
-/
namespace Sys2Proof.Machine

/-! ### The region's error log (R432) -/

section
variable (h : Hw) (r cls unit addr : Nat)

/-- An entry, or its loss, sets one bit of RGN_STAT. -/
theorem rgnLog_rd_other {a : Nat} (hne : a ≠ RGN_STAT r) : (rgnLog h r cls unit addr).rd a = h.rd a := by
  unfold rgnLog
  extract_lets log e
  split
  · exact Hw.rd_wf_other _ _ _ hne
  · exact Hw.rd_wf_other _ _ _ hne

theorem rgnLog_rf_rgnStat {f : Fld} (hf : fldInWord f = true) (hlog : fldApart RGN_STAT_LOG f = true) (hlovf : fldApart RGN_STAT_LOVF f = true) :
    (rgnLog h r cls unit addr).rf (RGN_STAT r) f = h.rf (RGN_STAT r) f := by
  unfold rgnLog
  extract_lets log e
  split
  · exact Hw.rf_wf_apart _ _ hf hlog _
  · exact Hw.rf_wf_apart _ _ hf hlovf _

theorem rgnLog_frame : (rgnLog h r cls unit addr).mem = h.mem ∧ (rgnLog h r cls unit addr).fronds = h.fronds ∧
    (rgnLog h r cls unit addr).links = h.links ∧ (rgnLog h r cls unit addr).recs = h.recs := by
  unfold rgnLog
  extract_lets log e
  split <;> exact ⟨rfl, rfl, rfl, rfl⟩

theorem rgnLog_rgnState : (rgnLog h r cls unit addr).rgnState r = h.rgnState r := rgnLog_rf_rgnStat h r cls unit addr rfl rfl rfl

theorem rgnLog_lkState (lk : Nat) : (rgnLog h r cls unit addr).lkState lk = h.lkState lk := by
  have hne : LK_STAT lk ≠ RGN_STAT r := by
    unfold LK_STAT RGN_STAT
    omega
  exact congrArg (fldGet LK_STAT_STATE) (rgnLog_rd_other h r cls unit addr hne)

end

/-- The entry that a trigger logs is no part of what its recovery is judged by. -/
theorem RecoveryStarted.of_rgnLog {h h' : Hw} {r cause cls unit addr : Nat} (hs : RecoveryStarted (rgnLog h r cls unit addr) r cause h') : RecoveryStarted h r cause h' := by
  obtain ⟨hmem, hfronds, hlinks, -⟩ := rgnLog_frame h r cls unit addr
  have hfrond : ∀ f, (rgnLog h r cls unit addr).frond f = h.frond f := fun f => congrArg (kvGet Frond.zero · f) hfronds
  have hlink : ∀ lk, (rgnLog h r cls unit addr).link lk = h.link lk := fun lk => congrArg (kvGet LinkSt.empty · lk) hlinks
  have hrcnt : (rgnLog h r cls unit addr).rf (RGN_STAT r) RGN_STAT_RCNT = h.rf (RGN_STAT r) RGN_STAT_RCNT := rgnLog_rf_rgnStat h r cls unit addr rfl rfl rfl
  unfold RecoveryStarted LinkQuiesced at hs ⊢
  simpa only [hmem, hfrond, hlink, hrcnt, rgnLog_lkState] using hs

/-! ### Triggers -/

section
variable {h : Hw} {r : Nat}

/-- R419: a trigger in run or idle starts the recovery with its cause. -/
theorem recoveryTrigger_started (hr : h.hasRegion r = true) (hserv : h.inService r = true) (hrun : h.rgnState r = rpRun) {cause : Nat} (hc : cause < 16) (cls unit addr : Nat) :
    RecoveryStarted h r cause (recoveryTrigger h r cause cls unit addr) := by
  have heq : recoveryTrigger h r cause cls unit addr = recoveryStart (rgnLog h r cls unit addr) r cause := by
    simp [recoveryTrigger, hr, hserv, hrun]
  rw [heq]
  exact (recoveryStart_started (Hw.lt_four_of_hasRegion hr) hc).of_rgnLog

/-- R419: a trigger in recovery is logged and absorbed. -/
theorem recoveryTrigger_absorbed (hr : h.hasRegion r = true) (hrec : h.rgnState r ≠ rpRun) (cause cls unit addr : Nat) :
    recoveryTrigger h r cause cls unit addr = rgnLog h r 7 unit addr := by
  simp [recoveryTrigger, hr, hrec]

theorem streamProtocolError_eq (hserv : h.inService r = true) (unit addr : Nat) : streamProtocolError r unit addr h = recoveryTrigger h r 2 5 (unit % 256) addr :=
  if_pos (Hw.memServed_of_inService hserv)

theorem controlParityError_eq_trigger (hserv : h.inService r = true) {unit : Nat} (hunit : unit < 0x100 ∨ 0x103 < unit) (addr : Nat) :
    controlParityError r unit addr h = recoveryTrigger h r 1 4 (unit % 256) addr := by
  have hne : unit ≠ 0x100 ∧ unit ≠ 0x101 ∧ unit ≠ 0x102 ∧ unit ≠ 0x103 := by omega
  simp [controlParityError, Hw.memServed_of_inService hserv, hne]

section
variable {w : Who} {v : W32} (hr : h.hasRegion r = true) (hv : fldGet RGN_CMD_RECOVER v = 1) (hw : w.keeperSup = true ∨ w.hostPriv = true)
include hr hv hw

theorem recover_eq_trigger (hserv : h.inService r = true) (hrun : h.rgnState r = rpRun) : recover w r v h = recoveryTrigger h r 4 7 0xFF 0 := by
  have hpower : h.pwrState r = psRun ∨ h.pwrState r = psIdle := by simpa [Hw.inService, hr] using hserv
  have hawake : ¬ (h.rgnState r ≠ rpRun ∨ h.pwrState r = psSleep ∨ h.pwrState r = psOff) := by
    rcases hpower with hp | hp <;> simp [hrun, hp, psRun, psIdle, psSleep, psOff]
  have hwho : (w.keeperSup || w.hostPriv) = true := (Bool.or_eq_true _ _).mpr hw
  simp only [recover, hr, hv, hwho, if_neg hawake]
  rfl

theorem recover_refused (href : h.rgnState r ≠ rpRun ∨ h.pwrState r = psSleep ∨ h.pwrState r = psOff) : recover w r v h = h.sb (RGN_STAT r) RGN_STAT_RREF := by
  have hwho : (w.keeperSup || w.hostPriv) = true := (Bool.or_eq_true _ _).mpr hw
  simp only [recover, hr, hv, hwho, if_pos href]
  rfl

end

/-- R419, R420: under LKREC a region whose fronds are both in LOCKUP, and for which no trigger waits, starts the recovery with cause 3. -/
theorem regionRecoveryStart_lockup (hr : h.hasRegion r = true) (hserv : h.inService r = true) (hrun : h.rgnState r = rpRun) (hwant : (h.recSt r).want = 0)
    (hlock : ∀ f, f < 8 → f / 2 = r → (h.frond f).run = .lockup) (hlkrec : h.rb (RGN_CTL r) RGN_CTL_LKREC = true) : RecoveryStarted h r 3 (regionRecoveryStart r h) := by
  have hr4 := Hw.lt_four_of_hasRegion hr
  have hboth : ((frondsOf r).all fun f => (h.frond f).run == .lockup) = true := by
    rw [List.all_eq_true]
    intro f hf
    have hfr := mem_frondsOf.mp hf
    exact beq_iff_eq.mpr (hlock f (by omega) hfr)
  have heq : regionRecoveryStart r h = recoveryTrigger h r 3 6 0xFF 0 := by
    simp only [regionRecoveryStart, hserv, hrun, hwant, hboth, hlkrec]
    rfl
  rw [heq]
  exact recoveryTrigger_started hr hserv hrun (by decide) _ _ _

/-- R419: a trigger that waited starts the recovery with its own cause. -/
theorem regionRecoveryStart_waited (hr : h.hasRegion r = true) (hserv : h.inService r = true) (hrun : h.rgnState r = rpRun) (hpos : 0 < (h.recSt r).want)
    (hlt : (h.recSt r).want < 16) : RecoveryStarted h r (h.recSt r).want (regionRecoveryStart r h) := by
  have heq : regionRecoveryStart r h = recoveryStart h r (h.recSt r).want := by
    simp [regionRecoveryStart, hserv, hrun, Nat.ne_of_gt hpos]
  rw [heq]
  exact recoveryStart_started (Hw.lt_four_of_hasRegion hr) hlt

end

/-! ### Parity errors of cache entries (R418) -/

/-- The block with a cache parity error of a region counted. -/
def cacheCounted (h : Hw) (r : Nat) : Hw := h.addSat (RGN_ECNT r) RGN_ECNT_CACHE 1

/-- The dropped entry stands in no register and in no memory, so the count is all that is seen there. -/
theorem cacheCounted_counts {g h : Hw} (r : Nat) (hregs : g.regs = h.regs) (hcfg : g.cfg = h.cfg) (hmem : g.mem = h.mem) :
    (cacheCounted g r).rf (RGN_ECNT r) RGN_ECNT_CACHE = min 65535 (h.rf (RGN_ECNT r) RGN_ECNT_CACHE + 1) ∧
      (cacheCounted g r).rd (RGN_STAT r) = h.rd (RGN_STAT r) ∧ (cacheCounted g r).mem = h.mem := by
  have hrd := Hw.rd_congr hregs hcfg
  have hne : RGN_STAT r ≠ RGN_ECNT r := by
    unfold RGN_STAT RGN_ECNT
    omega
  refine ⟨?_, ?_, hmem⟩
  · rw [cacheCounted, Hw.rf_addSat_same _ _ rfl, Hw.rf, hrd]
    rfl
  · rw [cacheCounted, Hw.addSat, Hw.rd_wf_other _ _ _ hne, hrd]

section
variable {h : Hw} {r : Nat} (hserv : h.inService r = true) (addr : Nat)
include hserv

theorem controlParityError_tc : controlParityError r 0x100 addr h = cacheCounted (h.setXlt r { h.xlt r with tc := kvDel (h.xlt r).tc addr }) r := by
  simp [controlParityError, Hw.memServed_of_inService hserv, cacheCounted]

theorem controlParityError_ubuf : controlParityError r 0x101 addr h =
    cacheCounted (h.setChain (8 * r + addr / 64 % 8) { h.chain (8 * r + addr / 64 % 8) with ubuf := (h.chain (8 * r + addr / 64 % 8)).ubuf.eraseIdx (addr % 64) }) r := by
  simp [controlParityError, Hw.memServed_of_inService hserv, cacheCounted]

theorem controlParityError_root : controlParityError r 0x102 addr h = cacheCounted (h.setXlt r { h.xlt r with root := kvDel (h.xlt r).root addr }) r := by
  simp [controlParityError, Hw.memServed_of_inService hserv, cacheCounted]

theorem controlParityError_ptr : controlParityError r 0x103 addr h = cacheCounted (h.setXlt r { h.xlt r with ptr := kvDel (h.xlt r).ptr addr }) r := by
  simp [controlParityError, Hw.memServed_of_inService hserv, cacheCounted]

end

end Sys2Proof.Machine

namespace Sys2Proof.Proofs.Recovery
open Sys2Proof Sys2Proof.Machine

/-- RECOVER acts behind the grants of RGN_CMD. -/
theorem gives_recover_iff {w : Who} {r : Nat} {v : W32} {s : State} {P : Hw → Prop} (hg : recGrant s.hw w r = true) : Gives (.recover w r v) s P ↔ P (recover w r v s.hw) := by
  rw [gives_iff_of_always (f := fun h => if recGrant h w r then recover w r v h else h) rfl, if_pos hg]

/-- Settles O44: each trigger in run or idle is a start of recovery after its log entry, and the start writes the region's registers, unlocks its fronds and quiesces its links one by
one; the interrupts that the links fire reach none of it. -/
theorem recoveryStartsOnItsTriggers : Obligations.RecoveryStartsOnItsTriggers := by
  unfold Obligations.RecoveryStartsOnItsTriggers
  intro s r hr h starts
  refine ⟨fun hserv hrun => ⟨fun w v hg hv hw => ?_, fun hclk => ⟨fun unit addr hunit => ?_, fun unit addr => ?_, fun hwant hlock hlkrec => ?_, fun hpos hlt => ?_⟩⟩,
    fun hserv hclk addr => ?_, fun w v hg hv hw href => ?_, fun hclk hserv hrec unit addr => ?_⟩
  · rw [gives_recover_iff hg, recover_eq_trigger hr hv hw hserv hrun]
    exact recoveryTrigger_started hr hserv hrun (by decide) _ _ _
  · rw [gives_iff_of_onClock rfl hclk, controlParityError_eq_trigger hserv hunit]
    exact recoveryTrigger_started hr hserv hrun (by decide) _ _ _
  · rw [gives_iff_of_onClock rfl hclk, streamProtocolError_eq hserv]
    exact recoveryTrigger_started hr hserv hrun (by decide) _ _ _
  · rw [gives_iff_of_onClock rfl hclk]
    exact regionRecoveryStart_lockup hr hserv hrun hwant hlock hlkrec
  · rw [gives_iff_of_onClock rfl hclk]
    exact regionRecoveryStart_waited hr hserv hrun hpos hlt
  · refine ⟨?_, ?_, ?_, ?_⟩
    · rw [gives_iff_of_onClock rfl hclk, controlParityError_tc hserv]
      exact ⟨cacheCounted_counts r rfl rfl rfl, h.xlt_setXlt_same r _⟩
    · rw [gives_iff_of_onClock rfl hclk, controlParityError_ubuf hserv]
      exact ⟨cacheCounted_counts r rfl rfl rfl, congrArg Chain.ubuf (h.chain_setChain_same _ _)⟩
    · rw [gives_iff_of_onClock rfl hclk, controlParityError_root hserv]
      exact ⟨cacheCounted_counts r rfl rfl rfl, h.xlt_setXlt_same r _⟩
    · rw [gives_iff_of_onClock rfl hclk, controlParityError_ptr hserv]
      exact ⟨cacheCounted_counts r rfl rfl rfl, h.xlt_setXlt_same r _⟩
  · rw [gives_recover_iff hg]
    exact recover_refused hr hv hw href
  · rw [gives_iff_of_onClock rfl hclk, streamProtocolError_eq hserv, recoveryTrigger_absorbed hr hrec]
    obtain ⟨hmem, hfronds, hlinks, hrecs⟩ := rgnLog_frame h r 7 (unit % 256) addr
    exact ⟨rgnLog_rgnState h r 7 _ _, hrecs, hlinks, hfronds, hmem⟩

end Sys2Proof.Proofs.Recovery
end

section
/-!
SUPPORT. What it is for the storage of the block to be in canonical form, and how branches, pairs, folds and the writers of the storage keep it (R64).
Every lemma `Hw.Canonical.f` of the parts below says that the function f of the model keeps it.
-/
namespace Sys2Proof.Machine

/-- Memories and a register file in canonical form (R64). -/
def CanonicalStore (mem scratch : KV Byte) (regs : KV W32) : Prop := Memory.wf mem = true ∧ Memory.wf scratch = true ∧ kvSorted regs = true

/-- The storage of the block is in canonical form. -/
def Hw.Canonical (h : Hw) : Prop := CanonicalStore h.mem h.scratch h.regs

/-- An operation that may not come about answers a block in canonical form when it does. -/
def AllCanonical (o : Option Hw) : Prop := ∀ h ∈ o, h.Canonical

theorem State.canonical_iff {s : State} : s.canonical = true ↔ s.hw.Canonical := by
  simp [State.canonical, Hw.memoriesOk, Hw.regsOk, Hw.Canonical, CanonicalStore, and_assoc]

/-! ### Branches, pairs and folds -/

section
variable {a b : Hw}

theorem Hw.Canonical.ite {p : Prop} [Decidable p] (ha : a.Canonical) (hb : b.Canonical) : (if p then a else b).Canonical := by
  split
  · exact ha
  · exact hb

theorem Hw.Canonical.fst_ite {α : Type} {p : Prop} [Decidable p] {x y : Hw × α} (hx : x.1.Canonical) (hy : y.1.Canonical) : (if p then x else y).1.Canonical := by
  split
  · exact hx
  · exact hy

theorem Hw.Canonical.snd_ite {α : Type} {p : Prop} [Decidable p] {x y : α × Hw} (hx : x.2.Canonical) (hy : y.2.Canonical) : (if p then x else y).2.Canonical := by
  split
  · exact hx
  · exact hy

theorem Hw.Canonical.of_eq_fst {α : Type} {p : Hw × α} {x : α} (he : p = (a, x)) (hc : p.1.Canonical) : a.Canonical := by
  rw [he] at hc
  exact hc

theorem Hw.Canonical.of_eq_snd {α : Type} {p : α × Hw} {x : α} (he : p = (x, a)) (hc : p.2.Canonical) : a.Canonical := by
  rw [he] at hc
  exact hc

theorem Hw.Canonical.foldl {α : Type} {l : List α} {f : Hw → α → Hw} {h : Hw} (hf : ∀ g x, g.Canonical → (f g x).Canonical) (hc : h.Canonical) :
    (l.foldl f h).Canonical := by
  induction l generalizing h with
  | nil => exact hc
  | cons x l ih => exact ih (hf h x hc)

theorem Hw.Canonical.fst_foldl {α β : Type} {l : List α} {f : Hw × β → α → Hw × β} {p : Hw × β} (hf : ∀ p x, p.1.Canonical → (f p x).1.Canonical)
    (hc : p.1.Canonical) : (l.foldl f p).1.Canonical := by
  induction l generalizing p with
  | nil => exact hc
  | cons x l ih => exact ih (hf p x hc)

theorem Hw.Canonical.forEach {l : List Nat} {f : Hw → Nat → Hw} {h : Hw} (hf : ∀ g x, g.Canonical → (f g x).Canonical) (hc : h.Canonical) :
    (forEach l h f).Canonical :=
  .foldl hf hc

theorem AllCanonical.none : AllCanonical Option.none := fun _ h => nomatch h

theorem AllCanonical.some (ha : a.Canonical) : AllCanonical (Option.some a) := by
  rintro _ ⟨⟩
  exact ha

theorem AllCanonical.ite {p : Prop} [Decidable p] {x y : Option Hw} (hx : AllCanonical x) (hy : AllCanonical y) : AllCanonical (if p then x else y) := by
  split
  · exact hx
  · exact hy

theorem AllCanonical.findSome?_of_mem {α : Type} {l : List α} {f : α → Option Hw} (hf : ∀ x ∈ l, AllCanonical (f x)) : AllCanonical (l.findSome? f) := by
  intro h hh
  obtain ⟨x, hx, hfx⟩ := List.exists_of_findSome?_eq_some hh
  exact hf x hx h hfx

theorem AllCanonical.findSome? {α : Type} {l : List α} {f : α → Option Hw} (hf : ∀ x, AllCanonical (f x)) : AllCanonical (l.findSome? f) :=
  .findSome?_of_mem fun x _ => hf x

theorem AllCanonical.map {α : Type} {f : α → Hw} {o : Option α} (hf : ∀ x ∈ o, (f x).Canonical) : AllCanonical (o.map f) := by
  intro h hh
  obtain ⟨x, hx, rfl⟩ := Option.map_eq_some_iff.mp hh
  exact hf x hx

theorem AllCanonical.getD {o : Option Hw} (ho : AllCanonical o) (ha : a.Canonical) : (o.getD a).Canonical := by
  cases o with
  | none => exact ha
  | some b => exact ho b rfl

end

/-! ### The writers of the storage -/

section
variable {h h' : Hw}

/-- An update of any part of the block but its storage. -/
theorem Hw.Canonical.update (hc : h.Canonical) (he : (h'.mem, h'.scratch, h'.regs) = (h.mem, h.scratch, h.regs)) : h'.Canonical := by
  obtain ⟨hmem, hrest⟩ := Prod.mk.inj he
  obtain ⟨hscratch, hregs⟩ := Prod.mk.inj hrest
  rw [Hw.Canonical, hmem, hscratch, hregs]
  exact hc

theorem Hw.Canonical.wr {a : Nat} {v : W32} (hc : h.Canonical) : (h.wr a v).Canonical := by
  obtain ⟨hmem, hscratch, hregs⟩ := hc
  exact ⟨hmem, hscratch, kvIns_sorted _ _ _ hregs⟩

theorem Hw.Canonical.resetRegs {p : Nat → Bool} (hc : h.Canonical) : (h.resetRegs p).Canonical := by
  obtain ⟨hmem, hscratch, hregs⟩ := hc
  exact ⟨hmem, hscratch, kvKeep_sorted _ (fun a => !p a) hregs⟩

theorem Hw.Canonical.scratchSets {a : Nat} {bs : List Byte} (hc : h.Canonical) : ({ h with scratch := memSets h.scratch a bs } : Hw).Canonical := by
  obtain ⟨hmem, hscratch, hregs⟩ := hc
  exact ⟨hmem, memSets_wf _ _ _ hscratch, hregs⟩

theorem Hw.Canonical.reset : Hw.reset.Canonical := ⟨rfl, rfl, rfl⟩

end

end Sys2Proof.Machine
end

section
/-!
SUPPORT. The functions of the shared operations (Machine/Ops.lean) keep the storage in canonical form.
-/
namespace Sys2Proof.Machine

theorem Hw.Canonical.wf {h : Hw} {a : Nat} {f : Fld} {n : Nat} (hc : h.Canonical) : (h.wf a f n).Canonical := hc.wr

theorem Hw.Canonical.sb {h : Hw} {a : Nat} {f : Fld} (hc : h.Canonical) : (h.sb a f).Canonical := hc.wf

theorem Hw.Canonical.addSat {h : Hw} {a : Nat} {f : Fld} {n : Nat} (hc : h.Canonical) : (h.addSat a f n).Canonical := hc.wf

theorem Hw.Canonical.addWrap {h : Hw} {a : Nat} {f : Fld} {n : Nat} (hc : h.Canonical) : (h.addWrap a f n).Canonical := hc.wf

theorem Hw.Canonical.beatCopy {h : Hw} {a last : Nat} (hc : h.Canonical) : (h.beatCopy a last).Canonical := hc.wr.wr

theorem Hw.Canonical.setFrond {h : Hw} {f : Nat} {x : Frond} (hc : h.Canonical) : (h.setFrond f x).Canonical := hc.update rfl

theorem Hw.Canonical.setMat {h : Hw} {r : Nat} {x : MatRgn} (hc : h.Canonical) : (h.setMat r x).Canonical := hc.update rfl

theorem Hw.Canonical.idleLeave {h : Hw} {r : Nat} (hc : h.Canonical) : (h.idleLeave r).Canonical := .ite hc.wf hc

theorem Hw.Canonical.fresh {h : Hw} (hc : h.Canonical) : (h.fresh).2.Canonical := hc.update rfl

theorem Hw.Canonical.claimWrite {h : Hw} {a : Nat} {w : Who} {v : W32} {admits : Bool} (hc : h.Canonical) : (claimWrite h a w v admits).1.Canonical :=
  .fst_ite hc (.fst_ite (.fst_ite (.fst_ite hc.wr hc) (.fst_ite hc hc)) (.fst_ite (.fst_ite hc.wr hc) hc))

theorem Hw.Canonical.claimFree {h : Hw} {a : Nat} (hc : h.Canonical) : (claimFree h a).Canonical := hc.wr

theorem Hw.Canonical.rgnLog {h : Hw} {r cls unit addr : Nat} (hc : h.Canonical) : (rgnLog h r cls unit addr).Canonical := .ite (.sb (hc.update rfl)) hc.sb

theorem Hw.Canonical.meuLog {h : Hw} {cls r addr : Nat} (hc : h.Canonical) : (meuLog h cls r addr).Canonical := .ite (hc.update rfl) hc.sb

end Sys2Proof.Machine
end

section
/-!
SUPPORT. The functions of the interrupt controller (Machine/Irq.lean) keep the storage in canonical form.
-/
namespace Sys2Proof.Machine

theorem Hw.Canonical.putSrcBit {h : Hw} {reg : Nat → Nat} {s : Nat} {v : Bool} (hc : h.Canonical) : (putSrcBit h reg s v).Canonical := .ite hc.wf hc

theorem Hw.Canonical.wakeEvent {h : Hw} {r cause : Nat} (hc : h.Canonical) : (wakeEvent h r cause).Canonical :=
  .ite (hc.wf.wf.sb.update rfl) (.ite (hc.update rfl) (.ite (hc.sb.update rfl) hc))

theorem Hw.Canonical.wakeOnIrq {h : Hw} {s : Nat} (hc : h.Canonical) : (wakeOnIrq h s).Canonical := by
  unfold Machine.wakeOnIrq
  refine .ite ?_ hc
  split
  · exact hc
  · exact .forEach (fun _ _ hc1 => .ite hc1.wakeEvent hc1) hc

theorem Hw.Canonical.deferApply {h : Hw} {g : Nat} (hc : h.Canonical) : (deferApply h g).Canonical :=
  .ite hc (.forEach (fun _ _ hc1 => .ite hc1.wakeOnIrq hc1) hc.wr.wr)

theorem Hw.Canonical.irqSetPend {h : Hw} {s : Nat} (hc : h.Canonical) : (irqSetPend h s).Canonical := .ite hc (.ite hc.putSrcBit hc.deferApply.putSrcBit.wakeOnIrq)

theorem Hw.Canonical.irqFire {h : Hw} {s : Nat} (hc : h.Canonical) : (irqFire h s).Canonical := .ite hc (.ite hc.addSat hc.irqSetPend)

theorem Hw.Canonical.irqSample {h : Hw} {s : Nat} (hc : h.Canonical) : (irqSample h s).Canonical := .ite hc.irqSetPend hc

theorem Hw.Canonical.irqRejudge {h : Hw} {s : Nat} (hc : h.Canonical) : (irqRejudge h s).Canonical := .ite hc (.ite hc.irqSample (.ite hc hc.wf.irqSetPend))

theorem Hw.Canonical.irqComplete {h : Hw} {s : Nat} (hc : h.Canonical) : (irqComplete h s).Canonical := hc.putSrcBit.irqRejudge

theorem Hw.Canonical.irqEnWrite {h : Hw} {g : Nat} {w : Who} {v : W32} (hc : h.Canonical) : (irqEnWrite h g w v).Canonical :=
  .forEach (fun _ _ hc1 => .ite (.ite hc1.putSrcBit.wakeOnIrq hc1.putSrcBit) hc1) hc

theorem Hw.Canonical.irqPendWrite {h : Hw} {g : Nat} {w : Who} {v : W32} (hc : h.Canonical) : (irqPendWrite h g w v).Canonical :=
  .forEach (fun _ _ hc1 => .ite (.ite hc1.putSrcBit.wakeOnIrq (.ite hc1.putSrcBit.irqRejudge hc1.putSrcBit)) hc1) hc

theorem Hw.Canonical.irqSrcWrite {h : Hw} {s off : Nat} {w : Who} {v : W32} (hc : h.Canonical) : (irqSrcWrite h s off w v).Canonical :=
  .ite hc (.ite hc.sb (.ite hc.wr (.ite hc.wf (.ite (.ite hc hc.wf) hc))))

theorem Hw.Canonical.irqSclaimWrite {h : Hw} {s : Nat} {w : Who} {v : W32} (hc : h.Canonical) : (irqSclaimWrite h s w v).Canonical := by
  unfold Machine.irqSclaimWrite
  refine .ite hc (.ite (.ite hc.claimFree hc.sb) ?_)
  extract_lets
  split
  next h1 _ he =>
    have hc1 : h1.Canonical := .of_eq_fst he hc.claimWrite
    split
    · exact hc1.sb
    · exact .ite hc1.sb hc1
    · exact hc1

theorem Hw.Canonical.grpHoldWrite {h : Hw} {g : Nat} {w : Who} {v : W32} (hc : h.Canonical) : (grpHoldWrite h g w v).Canonical := by
  unfold Machine.grpHoldWrite
  extract_lets
  split
  next h1 _ he =>
    have hc1 : h1.Canonical := .of_eq_fst he hc.claimWrite
    split
    · exact hc1.sb
    · exact hc1.deferApply
    · exact hc1

theorem Hw.Canonical.hoffStart {h : Hw} {s : Nat} (hc : h.Canonical) : (hoffStart h s).Canonical := .ite (hc.update rfl) hc

theorem Hw.Canonical.irqPresent {h : Hw} (hc : h.Canonical) : (irqPresent h).Canonical := by
  unfold Machine.irqPresent
  extract_lets g shown order h0
  have cg : g.Canonical := .forEach (fun _ _ hc => hc.deferApply) hc
  have ch0 : h0.Canonical := .forEach (fun _ _ hc => hc.setFrond) cg
  clear_value order h0
  split
  next h1 _ he =>
    have ch1 : h1.Canonical := by
      refine .of_eq_fst he (.fst_foldl (fun _ _ hp => ?_) ch0)
      split
      refine .fst_ite hp ?_
      split
      · exact hp
      · exact hp.setFrond.idleLeave.hoffStart
    exact ch1.update rfl

theorem Hw.Canonical.eventSourceFire {s : Nat} {h : Hw} (hc : h.Canonical) : (eventSourceFire s h).Canonical := hc.irqFire

theorem Hw.Canonical.levelSourceSample {s : Nat} {h : Hw} (hc : h.Canonical) : (levelSourceSample s h).Canonical := hc.irqSample

theorem Hw.Canonical.knIrqInEdge {k : Nat} {lvl : Bool} {h : Hw} (hc : h.Canonical) : (knIrqInEdge k lvl h).Canonical :=
  .ite (.ite (.ite (.irqFire (hc.update rfl)) (hc.update rfl)) (.irqSample (hc.update rfl))) hc

theorem Hw.Canonical.holdoffEnd {g : Nat} {h : Hw} (hc : h.Canonical) : (holdoffEnd g h).Canonical := by
  unfold Machine.holdoffEnd
  split
  · exact .ite (hc.update rfl) hc
  · exact hc

theorem Hw.Canonical.hoffTick {h : Hw} (hc : h.Canonical) : (hoffTick h).Canonical := hc.update rfl

end Sys2Proof.Machine
end

section
/-!
SUPPORT. The functions of the operations on links (Machine/LinkOps.lean) keep the storage in canonical form.
-/
namespace Sys2Proof.Machine

theorem Hw.Canonical.setLink {h : Hw} {lk : Nat} {x : LinkSt} (hc : h.Canonical) : (h.setLink lk x).Canonical := hc.update rfl

theorem Hw.Canonical.setLane {h : Hw} {l : Nat} {x : LaneSt} (hc : h.Canonical) : (h.setLane l x).Canonical := hc.update rfl

theorem Hw.Canonical.setCtx {h : Hw} {n : Nat} {x : CtxSt} (hc : h.Canonical) : (h.setCtx n x).Canonical := hc.update rfl

theorem Hw.Canonical.linkSetState {h : Hw} {lk s : Nat} (hc : h.Canonical) : (linkSetState h lk s).Canonical := .ite hc (.ite hc.wf.irqFire hc.wf)

theorem Hw.Canonical.linkSend {h : Hw} {lk : Nat} {f : Frame} (hc : h.Canonical) : (linkSend h lk f).Canonical := hc.setLink

theorem Hw.Canonical.linkCtl {h : Hw} {lk : Nat} {f : Frame} (hc : h.Canonical) : (linkCtl h lk f).Canonical := hc.setLink

theorem Hw.Canonical.linkOwe {h : Hw} {lk tc : Nat} (hc : h.Canonical) : (linkOwe h lk tc).Canonical := hc.setLink

theorem Hw.Canonical.freePlace {h : Hw} {lk : Nat} {f : Frame} (hc : h.Canonical) : (freePlace h lk f).Canonical := .ite hc.linkOwe hc

theorem Hw.Canonical.rbufFree {h : Hw} {lk i : Nat} (hc : h.Canonical) : (rbufFree h lk i).Canonical := by
  unfold Machine.rbufFree
  extract_lets
  split
  · exact hc.setLink.freePlace
  · exact hc

theorem Hw.Canonical.cxProgress {h : Hw} {n : Nat} (hc : h.Canonical) : (cxProgress h n).Canonical := by
  unfold Machine.cxProgress
  extract_lets
  split
  · exact hc
  · exact hc.setCtx

end Sys2Proof.Machine
end

section
/-!
SUPPORT. The functions of the mat and the cushion (Machine/Mat.lean) keep the storage in canonical form.
-/
namespace Sys2Proof.Machine

theorem Hw.Canonical.protLog {h : Hw} {ms : Master} {a cause : Nat} {write : Bool} (hc : h.Canonical) : (protLog h ms a cause write).Canonical := by
  unfold Machine.protLog
  split
  exact .ite hc.sb.addSat hc.sb.addSat.wf.wf.wf.wf.sb

theorem Hw.Canonical.putWord {h : Hw} {a : Nat} {bs : List Byte} (hc : h.Canonical) : (putWord h a bs).Canonical := by
  obtain ⟨hmem, hscratch, hregs⟩ := hc
  exact ⟨memSets_wf _ _ _ hmem, hscratch, hregs⟩

theorem Hw.Canonical.suspectCount {h : Hw} {a : Nat} (hc : h.Canonical) : (suspectCount h a).Canonical :=
  .ite (.ite hc.setMat.sb (.ite hc.setMat.sb.setMat hc.setMat.sb.sb)) hc.setMat

theorem Hw.Canonical.perrLog {h : Hw} {ms : Master} {a : Nat} (hc : h.Canonical) : (perrLog h ms a).Canonical := by
  unfold Machine.perrLog
  extract_lets _ _ h1 h2 h3 h4
  have ch1 : h1.Canonical := hc.addSat.sb
  have ch2 : h2.Canonical := ch1.addSat
  have ch3 : h3.Canonical := .ite ch2 ch2.wf.wf.wf.wf.wf.sb
  have ch4 : h4.Canonical := ch3.update rfl
  exact ch4.suspectCount

theorem Hw.Canonical.wordCheck {h : Hw} {ms : Master} {w : Nat} {c : Check} (hc : h.Canonical) : (wordCheck h ms w c).1.Canonical := by
  unfold Machine.wordCheck
  split
  · exact hc
  · exact hc.addSat
  · exact hc.perrLog

theorem Hw.Canonical.parityRead {h : Hw} {ms : Master} {a len : Nat} {par : Par} (hc : h.Canonical) : (parityRead h ms a len par).1.Canonical := by
  unfold Machine.parityRead
  refine .fst_foldl (fun _ _ hc1 => ?_) hc
  split
  next h1 _ he =>
    exact .of_eq_fst he hc1.wordCheck

theorem Hw.Canonical.sideLog {h : Hw} {ms : Master} {a : Nat} (hc : h.Canonical) : (sideLog h ms a).Canonical := .ite hc.rgnLog hc.sb.meuLog

theorem Hw.Canonical.beatRead {h : Hw} {ms : Master} {a len : Nat} {par : Par} (hc : h.Canonical) : (beatRead h ms a len par).1.Canonical := by
  unfold Machine.beatRead
  split
  next h1 _ he =>
    have hc1 : h1.Canonical := .of_eq_fst he hc.parityRead
    exact .fst_ite hc1.sideLog hc1

theorem Hw.Canonical.collOne {ms : Master} {w : Nat} {write : Bool} {h : Hw} {x : Meet} (hc : h.Canonical) : (collOne ms w write h x).Canonical :=
  .ite hc (.ite hc.sb.addSat hc.sb.addSat.wf.wf.wf.wf.wf.sb)

theorem Hw.Canonical.collLog {h : Hw} {ms : Master} {a : Nat} {write : Bool} {meets : List Meet} (hc : h.Canonical) : (collLog h ms a write meets).Canonical :=
  .foldl (fun _ _ hc1 => hc1.collOne) hc

theorem Hw.Canonical.memReadAs {cause : Option Nat} {h : Hw} {ms : Master} {a len : Nat} {par : Par} {meets : List Meet} (hc : h.Canonical) :
    (memReadAs cause h ms a len par meets).1.Canonical := by
  unfold Machine.memReadAs
  split
  · exact hc.protLog
  · extract_lets h0
    have ch0 : h0.Canonical := hc.idleLeave.collLog
    split
    next h1 _ he =>
      have hc1 : h1.Canonical := .of_eq_fst he ch0.beatRead
      exact .ite (hc1.update rfl) hc1

theorem Hw.Canonical.memRead {h : Hw} {ms : Master} {a len : Nat} {par : Par} {meets : List Meet} (hc : h.Canonical) : (memRead h ms a len par meets).1.Canonical :=
  hc.memReadAs

theorem Hw.Canonical.rawRead {h : Hw} {ms : Master} {a len : Nat} {par : Par} {meets : List Meet} (hc : h.Canonical) : (rawRead h ms a len par meets).1.Canonical :=
  hc.memReadAs

theorem Hw.Canonical.wordWrite {h : Hw} {ms : Master} {w : Nat} {bs : List (Option Byte)} {partialW : Bool} {c : Check} (hc : h.Canonical) :
    (wordWrite h ms w bs partialW c).1.Canonical := by
  unfold Machine.wordWrite
  split
  next h1 _ he =>
    have hc1 : h1.Canonical := .of_eq_fst he (.fst_ite hc.wordCheck hc)
    exact .fst_ite hc1.sb hc1.putWord

theorem Hw.Canonical.memWriteAs {cause : Option Nat} {h : Hw} {ms : Master} {a : Nat} {data : List (Option Byte)} {par : Par} {meets : List Meet}
    (hc : h.Canonical) : (memWriteAs cause h ms a data par meets).1.Canonical := by
  unfold Machine.memWriteAs
  split
  · exact hc.protLog
  · refine .fst_ite hc.idleLeave.sideLog ?_
    extract_lets h0
    have ch0 : h0.Canonical := hc.idleLeave.collLog
    split
    next h1 _ he =>
      have hc1 : h1.Canonical := by
        refine .of_eq_fst he (.fst_foldl (fun _ _ hc1 => .fst_ite hc1 ?_) ch0)
        split
        next h11 _ he1 =>
          exact .of_eq_fst he1 hc1.wordWrite
      exact hc1

theorem Hw.Canonical.memWriteEn {h : Hw} {ms : Master} {a : Nat} {data : List (Option Byte)} {par : Par} {meets : List Meet} (hc : h.Canonical) :
    (memWriteEn h ms a data par meets).1.Canonical :=
  hc.memWriteAs

theorem Hw.Canonical.rawWrite {h : Hw} {ms : Master} {a : Nat} {data : List Byte} {par : Par} {meets : List Meet} (hc : h.Canonical) :
    (rawWrite h ms a data par meets).1.Canonical :=
  hc.memWriteAs

theorem Hw.Canonical.memWrite {h : Hw} {ms : Master} {a : Nat} {data : List Byte} {par : Par} {meets : List Meet} (hc : h.Canonical) :
    (memWrite h ms a data par meets).1.Canonical :=
  hc.memWriteEn

theorem Hw.Canonical.rmapSet {h : Hw} {r : Nat} {cush : Bool} {bank spare v : Nat} (hc : h.Canonical) : (rmapSet h r cush bank spare v).Canonical := hc.update rfl

theorem Hw.Canonical.repairLog {h : Hw} {r : Nat} {cush : Bool} {bank prow spare src : Nat} (hc : h.Canonical) :
    (repairLog h r cush bank prow spare src).Canonical :=
  .ite hc.setMat.wf hc.sb

theorem Hw.Canonical.marchCopy {h : Hw} {r : Nat} {mr : MarchRun} {f : MarchFail} (hc : h.Canonical) : (marchCopy h r mr f).Canonical := .ite hc (hc.update rfl)

theorem Hw.Canonical.marchRow {h : Hw} {r : Nat} {mr : MarchRun} {f : MarchFail} {b : Nat} (hc : h.Canonical) : (marchRow h r mr f b).1.Canonical := by
  unfold Machine.marchRow
  extract_lets h1 h2
  have ch1 : h1.Canonical := hc.addSat
  have ch2 : h2.Canonical := .ite ch1 ch1.wf.wf.wf.wf.wf.sb
  refine .fst_ite ch2.rmapSet (.fst_ite ch2 ?_)
  split
  · exact ch2.sb
  · exact ch2.rmapSet.repairLog.marchCopy

theorem Hw.Canonical.marchFail {r lo hi : Nat} {acc : Hw × MarchRun} {f : MarchFail} (hc : acc.1.Canonical) : (marchFail r lo hi acc f).1.Canonical := by
  unfold Machine.marchFail
  split
  · split
    · exact hc
    · refine .fst_ite hc ?_
      split
      · exact .ite hc.marchCopy hc
      · split
        next h1 _ he =>
          exact .of_eq_fst he hc.marchRow

theorem Hw.Canonical.mchCtlWrite {h : Hw} {r : Nat} {w : Who} {v : W32} {idle startup : Bool} (hc : h.Canonical) : (mchCtlWrite h r w v idle startup).Canonical := by
  unfold Machine.mchCtlWrite
  extract_lets _ _ h1
  have ch1 : h1.Canonical := .ite hc.wr hc
  refine .ite ch1 (.ite (.ite ch1.sb ch1.setMat.wr.wf.wf.sb) (.ite ?_ ch1))
  split
  · exact ch1
  · exact ch1.setMat

theorem Hw.Canonical.marchRowLock {r group : Nat} {fails : List MarchFail} {h : Hw} (hc : h.Canonical) : (marchRowLock r group fails h).Canonical := by
  unfold Machine.marchRowLock
  split
  · exact hc
  · refine .ite hc ?_
    split
    next h1 _ he =>
      have hc1 : h1.Canonical := .of_eq_fst he (.fst_foldl (fun _ _ hc1 => hc1.marchFail) hc.wf)
      exact hc1.setMat

theorem Hw.Canonical.marchLeave {h : Hw} {r : Nat} {run : MarchRun} {lo hi : Nat} {undef : Bool} (hc : h.Canonical) :
    (marchLeave h r run lo hi undef).Canonical := by
  obtain ⟨hmem, hscratch, hregs⟩ := hc
  exact ⟨kvKeep_wf _ (fun a => !runCovers run r lo hi a) hmem, hscratch, hregs⟩

theorem Hw.Canonical.marchTick {h : Hw} {r : Nat} (hc : h.Canonical) : (marchTick h r).Canonical := by
  unfold Machine.marchTick
  split
  · exact hc
  · exact .ite hc.marchLeave.wf hc

theorem Hw.Canonical.marchRunEnd {r : Nat} {spares fails : List MarchFail} {h : Hw} (hc : h.Canonical) : (marchRunEnd r spares fails h).Canonical := by
  unfold Machine.marchRunEnd
  split
  · exact hc
  · extract_lets
    split
    next h1 _ he =>
      have hc1 : h1.Canonical := .of_eq_fst he (.fst_foldl (fun _ _ hc1 => hc1.marchFail) hc)
      extract_lets h2 h3 h3a h4 h5
      have ch2 : h2.Canonical := .ite hc1 (.ite hc1.marchLeave hc1.marchLeave)
      have ch3a : h3a.Canonical := ch2.wf.setMat
      have ch4 : h4.Canonical := .ite ch3a.wf ch3a
      have ch5 : h5.Canonical := .ite ch4.sb ch4
      exact .sb (.ite ch5 ch5.sb)

theorem Hw.Canonical.suspectServiceRun {r : Nat} {h : Hw} (hc : h.Canonical) : (suspectServiceRun r h).Canonical := by
  unfold Machine.suspectServiceRun
  extract_lets
  split
  · exact .ite hc.setMat.wr.wf.wf.sb hc
  · exact hc

theorem Hw.Canonical.suspPop {r : Nat} {h : Hw} (hc : h.Canonical) : (suspPop r h).2.Canonical := by
  unfold Machine.suspPop
  extract_lets
  split
  · exact .snd_ite hc hc.setMat
  · exact hc

theorem Hw.Canonical.repairPop {r : Nat} {h : Hw} (hc : h.Canonical) : (repairPop r h).2.Canonical := by
  unfold Machine.repairPop
  extract_lets
  split
  · exact hc.setMat.wf
  · exact hc

theorem Hw.Canonical.cshClaimWrite {h : Hw} {r n : Nat} {w : Who} {v : W32} (hc : h.Canonical) : (cshClaimWrite h r n w v).Canonical := by
  unfold Machine.cshClaimWrite
  extract_lets
  split
  next h1 _ he =>
    have hc1 : h1.Canonical := .of_eq_fst he hc.claimWrite
    exact .ite hc1.sb hc1

theorem Hw.Canonical.cshWinWrite {h : Hw} {r n : Nat} {w : Who} {v : W32} (hc : h.Canonical) : (cshWinWrite h r n w v).Canonical := .ite hc.wr hc.sb

end Sys2Proof.Machine
end

section
/-!
SUPPORT. The functions of the operations of the host ports (Machine/HostOps.lean) keep the storage in canonical form.
-/
namespace Sys2Proof.Machine

theorem Hw.Canonical.setPo {h : Hw} {p : Nat} {x : PortOut} (hc : h.Canonical) : (h.setPo p x).Canonical := hc.update rfl

theorem Hw.Canonical.outReq {h : Hw} {p t : Nat} {q : MReq} (hc : h.Canonical) : (outReq h p t q).Canonical := hc.setPo

theorem Hw.Canonical.hpBytes {h : Hw} {p : Nat} {outb : Bool} {n : Nat} (hc : h.Canonical) : (hpBytes h p outb n).Canonical :=
  .ite (hc.update rfl) (.addSat (hc.update rfl))

theorem Hw.Canonical.outCycles {k : Nat} {h : Hw} {k1 : Nat} (hc : h.Canonical) : (outCycles k h k1).Canonical := by
  induction k generalizing h k1 with
  | zero =>
    unfold Machine.outCycles
    exact hc
  | succ n ih =>
    unfold Machine.outCycles
    exact ih (.ite hc.setPo.addSat hc.setPo)

theorem Hw.Canonical.outTick {h : Hw} {p : Nat} (hc : h.Canonical) : (outTick h p).Canonical := .ite hc hc.outCycles

theorem Hw.Canonical.mGrant {k : Nat} {h : Hw} {k1 : Nat} (hc : h.Canonical) : (mGrant k h k1).Canonical := by
  induction k generalizing h k1 with
  | zero =>
    unfold Machine.mGrant
    exact hc
  | succ n ih =>
    unfold Machine.mGrant
    split
    · exact .ite (ih (.ite (.outReq (.wf (.wf (.wf (hc.update rfl))))) (.hpBytes (.outReq (.wf (.wf (.wf (hc.update rfl)))))))) hc
    · exact hc

theorem Hw.Canonical.mGrantAll {h : Hw} {p : Nat} (hc : h.Canonical) : (mGrantAll h p).Canonical := hc.mGrant

theorem Hw.Canonical.mIssue {h : Hw} {port cls op addr len : Nat} {data : List Byte} {se wlk : Bool} {use : MUse} (hc : h.Canonical) :
    (mIssue h port cls op addr len data se wlk use).Canonical :=
  .mGrantAll (hc.update rfl)

theorem Hw.Canonical.mRegion {h : Hw} {r cls op pa len : Nat} {data : List Byte} {se wlk : Bool} {use : MUse} (hc : h.Canonical) :
    (mRegion h r cls op pa len data se wlk use).Canonical :=
  hc.mIssue

theorem Hw.Canonical.mFree {h : Hw} {p t : Nat} (hc : h.Canonical) : (mFree h p t).Canonical := .mGrantAll (.wf (hc.update rfl))

theorem Hw.Canonical.physWrite {h : Hw} {ms : Master} {pa : Nat} {bs : List Byte} {cls : Nat} {use : MUse} {par : Par} {meets : List Meet} (hc : h.Canonical) :
    (physWrite h ms pa bs cls use par meets).Canonical := by
  unfold Machine.physWrite
  split
  · exact .ite hc.memWrite hc
  · exact hc.mRegion

end Sys2Proof.Machine
end

section
/-!
SUPPORT. The functions of the operations on queues (Machine/QueueOps.lean) keep the storage in canonical form.
-/
namespace Sys2Proof.Machine

theorem Hw.Canonical.setQueue {h : Hw} {q : Nat} {x : QueueSt} (hc : h.Canonical) : (h.setQueue q x).Canonical := hc.update rfl

theorem Hw.Canonical.queueJoin {h : Hw} {q : Nat} {j : Join} (hc : h.Canonical) : (queueJoin h q j).Canonical := hc.setQueue

theorem Hw.Canonical.inflSync {h : Hw} {q : Nat} (hc : h.Canonical) : (inflSync h q).Canonical := hc.wf

theorem Hw.Canonical.entryOver {h : Hw} {q idx : Nat} (hc : h.Canonical) : (entryOver h q idx).Canonical := by
  unfold Machine.entryOver
  extract_lets
  split
  exact .ite hc.setQueue.wf.inflSync.wf hc.setQueue.wf.inflSync

theorem Hw.Canonical.cxRelease {h : Hw} {q idx : Nat} (hc : h.Canonical) : (cxRelease h q idx).Canonical := by
  unfold Machine.cxRelease
  split
  · exact .ite hc.setCtx.wf hc.setCtx
  · exact hc

theorem Hw.Canonical.joinOver {h : Hw} {j : Join} (hc : h.Canonical) : (joinOver h j).Canonical := by
  unfold Machine.joinOver
  split
  · exact hc.entryOver.cxRelease
  · exact hc

theorem Hw.Canonical.queueErr {h : Hw} {q : Nat} (hc : h.Canonical) : (queueErr h q).Canonical := .ite hc.wf.setQueue hc

theorem Hw.Canonical.queueSettle {k : Nat} {h : Hw} {k1 : Nat} (hc : h.Canonical) : (queueSettle k h k1).Canonical := by
  induction k generalizing h k1 with
  | zero =>
    unfold Machine.queueSettle
    exact hc
  | succ n ih =>
    unfold Machine.queueSettle
    extract_lets
    split
    · exact .ite hc.setQueue.queueErr hc
    · exact .ite hc (.ite (ih hc.setQueue.joinOver) hc)

theorem Hw.Canonical.queueTidy {h : Hw} {q : Nat} (hc : h.Canonical) : (queueTidy h q).Canonical := hc.queueSettle

theorem Hw.Canonical.queueEnded {h : Hw} {id qn : Nat} {fromQ : Option (Nat × Nat)} {cmode status : Nat} {rec_ : Rec} (hc : h.Canonical) :
    (queueEnded h id qn fromQ cmode status rec_).Canonical := by
  unfold Machine.queueEnded
  refine .ite ?_ ?_
  · extract_lets _ h1 h2 h3
    have ch1 : h1.Canonical := .ite hc.setQueue hc.queueJoin
    have ch2 : h2.Canonical := by
      unfold h2
      split
      · exact .ite ch1 ch1.setQueue
      · exact ch1
    have ch3 : h3.Canonical := ch2.queueTidy
    split
    · exact .ite ch3 ch3.queueTidy
    · exact ch3
  · split
    · exact hc.setQueue.entryOver.queueTidy
    · exact hc

theorem Hw.Canonical.queueNamed {h : Hw} {id qn cmode : Nat} {fromQ : Option (Nat × Nat)} (hc : h.Canonical) : (queueNamed h id qn cmode fromQ).Canonical := by
  unfold Machine.queueNamed
  refine .ite hc ?_
  split
  · exact hc.queueJoin
  · exact .ite hc.setQueue hc.setQueue.queueJoin.queueTidy

theorem Hw.Canonical.recordDone {h : Hw} {q : Nat} {err : Bool} (hc : h.Canonical) : (recordDone h q err).Canonical := by
  unfold Machine.recordDone
  extract_lets
  split
  · extract_lets h1 h2
    have ch1 : h1.Canonical := hc.setQueue
    have ch2 : h2.Canonical := ch1.wf
    exact .queueTidy (.joinOver (.ite ch1.sb.queueErr (.ite (.irqFire (.ite ch2.addSat ch2)) (.ite ch2.addSat ch2))))
  · exact hc

theorem Hw.Canonical.completionRecordWrite {q : Nat} {meets : List Meet} {h0 : Hw} (hc : h0.Canonical) : (completionRecordWrite q meets h0).Canonical := by
  unfold Machine.completionRecordWrite
  refine .ite hc ?_
  extract_lets h
  have ch : h.Canonical := hc.queueTidy
  split
  · split
    · refine .ite ch ?_
      extract_lets _ h1
      have ch1 : h1.Canonical := ch.setQueue
      split
      · refine .ite ?_ ch1.setQueue
        split
        next h11 _ he =>
          have hc1 : h11.Canonical := .of_eq_fst he ch1.memWrite
          exact hc1.setQueue
      · exact ch1.mRegion
    · exact ch
  · exact ch

theorem Hw.Canonical.completionRecordWriteDone {q : Nat} {err : Bool} {h : Hw} (hc : h.Canonical) : (completionRecordWriteDone q err h).Canonical :=
  .ite hc.recordDone hc

theorem Hw.Canonical.dbSq {w : Who} {q : Nat} {v : W32} {h : Hw} (hc : h.Canonical) : (dbSq w q v h).Canonical :=
  .ite hc (.ite (.ite (hc.wf.idleLeave.update rfl) hc.wf.idleLeave) hc.sb)

theorem Hw.Canonical.dbCq {w : Who} {q : Nat} {v : W32} {h : Hw} (hc : h.Canonical) : (dbCq w q v h).Canonical := .ite hc (.ite hc.wf.idleLeave hc.sb)

theorem Hw.Canonical.queueEnable {w : Who} {q : Nat} {v : W32} {h : Hw} (hc : h.Canonical) : (queueEnable w q v h).Canonical :=
  .ite hc (.ite hc.wr.sb.wr.wr.wr.wf.wf.setQueue hc.wr.sb)

theorem Hw.Canonical.queueDisable {w : Who} {q : Nat} {v : W32} {h : Hw} (hc : h.Canonical) : (queueDisable w q v h).Canonical :=
  .ite hc (.ite hc.wr (.ite hc hc.wf.wf.queueTidy))

theorem Hw.Canonical.sqBaseWrite {h : Hw} {q a : Nat} {w : Who} {v : W32} (hc : h.Canonical) : (sqBaseWrite h q a w v).Canonical := .ite hc.wr hc

end Sys2Proof.Machine
end

section
/-!
SUPPORT. The functions of the operations of translation (Machine/XltOps.lean) keep the storage in canonical form.
-/
namespace Sys2Proof.Machine

theorem Hw.Canonical.setXlt {h : Hw} {r : Nat} {x : XltSt} (hc : h.Canonical) : (h.setXlt r x).Canonical := hc.update rfl

theorem Hw.Canonical.xltSync {h : Hw} {r : Nat} (hc : h.Canonical) : (xltSync h r).Canonical := hc.wf.wf.wf

theorem Hw.Canonical.walkPut {h : Hw} {r : Nat} {w : Walk} (hc : h.Canonical) : (walkPut h r w).Canonical := hc.setXlt

theorem Hw.Canonical.walkDrop {h : Hw} {r k : Nat} (hc : h.Canonical) : (walkDrop h r k).Canonical := hc.setXlt.xltSync

theorem Hw.Canonical.walkAsk {h : Hw} {r : Nat} {who : WalkFor} {demand write : Bool} {w : World} {asid va : Nat} (hc : h.Canonical) :
    (walkAsk h r who demand write w asid va).Canonical :=
  .ite hc (.ite hc.setXlt (.ite hc hc.setXlt))

theorem Hw.Canonical.xltFault {h : Hw} {r cls level ea : Nat} {malf write : Bool} {ch : Nat} {w : World} {asid va : Nat} (hc : h.Canonical) :
    (xltFault h r cls level ea malf write ch w asid va).Canonical :=
  .ite hc hc.wr.wr.wr.wr.wr.sb

theorem Hw.Canonical.walkRead {h : Hw} {r : Nat} {w : Walk} {level ea : Nat} (hc : h.Canonical) : (walkRead h r w level ea).Canonical := hc.walkPut.mRegion

theorem Hw.Canonical.walkBegin {h : Hw} {r : Nat} {w : Walk} (hc : h.Canonical) : (walkBegin h r w).1.Canonical := by
  unfold Machine.walkBegin
  split
  · extract_lets h1
    have ch1 : h1.Canonical := hc.setXlt
    split
    · exact ch1.walkRead
    · split
      · exact ch1.walkRead
      · split
        exact ch1.walkPut

theorem Hw.Canonical.walkLeaf {h : Hw} {r : Nat} {w : Walk} {e : Nat} (hc : h.Canonical) : (walkLeaf h r w e).1.Canonical := by
  unfold Machine.walkLeaf
  extract_lets
  split
  · exact hc.walkPut
  · exact .fst_ite (.fst_ite hc (.fst_ite hc.walkPut.mRegion hc)) (.fst_ite (.ite hc.addSat hc) (.fst_ite (.ite hc.addSat hc) (.fst_ite (.mRegion (.walkPut
      (.ite hc.addSat hc))) (.ite hc.addSat hc))))

theorem Hw.Canonical.walkJudge {h : Hw} {r : Nat} {w : Walk} (hc : h.Canonical) : (walkJudge h r w).1.Canonical := by
  unfold Machine.walkJudge
  refine .fst_ite hc.walkBegin (.fst_ite hc (.fst_ite (.fst_ite hc hc.walkPut.mRegion) ?_))
  split
  · exact hc
  · extract_lets _ _ h1
    have ch1 : h1.Canonical := .ite hc (.ite hc.setXlt hc.setXlt)
    split
    exact ch1.setXlt.walkRead
  · exact hc.walkLeaf

theorem Hw.Canonical.walkMarked {h : Hw} {r : Nat} {w : Walk} (hc : h.Canonical) : (walkMarked h r w).1.Canonical := by
  unfold Machine.walkMarked
  refine .fst_ite (.fst_ite hc.walkBegin hc) ?_
  extract_lets h1
  have ch1 : h1.Canonical := .ite hc.addSat hc
  exact .fst_ite ch1.walkBegin (.fst_ite (.fst_ite ch1.walkBegin ch1) ch1)

end Sys2Proof.Machine
end

section
/-!
SUPPORT. The functions of the chains (Machine/Chains.lean) keep the storage in canonical form.
-/
namespace Sys2Proof.Machine

theorem Hw.Canonical.setChain {h : Hw} {ch : Nat} {x : Chain} (hc : h.Canonical) : (h.setChain ch x).Canonical := hc.update rfl

theorem Hw.Canonical.putExec {h : Hw} {ch : Nat} {e : Exec} (hc : h.Canonical) : (putExec h ch e).Canonical := hc.setChain

theorem Hw.Canonical.chainSync {h : Hw} {ch : Nat} (hc : h.Canonical) : (chainSync h ch).Canonical := by
  unfold Machine.chainSync
  extract_lets _ _ _ h0
  have ch0 : h0.Canonical := hc.wf
  split
  · exact .ite ch0 ch0.wf.wf.wf.wf
  · exact .ite ch0.wr.wr.wr.wr.wf.wf.wf.wr.wr.wr ch0.wr.wr.wr.wr.wf

theorem Hw.Canonical.trefSet {h : Hw} {ch : Nat} (hc : h.Canonical) : (trefSet h ch).Canonical := .ite hc.sb.irqFire hc.sb

theorem Hw.Canonical.chainAccept {h : Hw} {ch : Nat} {src : CmdSrc} {world : World} {pa sqIdx : Nat} (hc : h.Canonical) :
    (chainAccept h ch src world pa sqIdx).1.Canonical := by
  unfold Machine.chainAccept
  refine .fst_ite hc (.fst_ite hc.trefSet ?_)
  extract_lets _ h1 h2 h3
  have ch1 : h1.Canonical := .idleLeave (hc.update rfl)
  have ch2 : h2.Canonical := .ite ch1.setChain ch1.setChain
  have ch3 : h3.Canonical := by
    unfold h3
    split
    · exact ch2
    · exact ch2.mRegion
  exact ch3.chainSync

theorem Hw.Canonical.endGroupAt {h : Hw} {ch : Nat} {e : Exec} {en : Ending} {lim : Nat} (hc : h.Canonical) : (endGroupAt h ch e en lim).Canonical :=
  .foldl (fun _ _ hc1 => .ite hc1 hc1.putExec) hc

theorem Hw.Canonical.endGroup {h : Hw} {ch : Nat} {e : Exec} {en : Ending} (hc : h.Canonical) : (endGroup h ch e en).Canonical := hc.endGroupAt

theorem Hw.Canonical.outFail {h : Hw} {ch : Nat} {e : Exec} {en : Ending} {seg : Nat} (hc : h.Canonical) : (outFail h ch e en seg).Canonical := by
  unfold Machine.outFail
  split
  · exact hc.endGroupAt
  · exact hc.putExec

theorem Hw.Canonical.tryPair {h : Hw} {ch : Nat} {e : Exec} (hc : h.Canonical) : AllCanonical (tryPair h ch e) :=
  .ite .none (.ite .none (.ite (.some (.foldl (fun _ _ hc1 => hc1.putExec) hc)) (.ite (.some (.foldl (fun _ _ hc1 => hc1.putExec) hc)) (.some (.foldl
    (fun _ _ hc1 => hc1.putExec) hc)))))

theorem Hw.Canonical.tryStart {h : Hw} {ch : Nat} {e : Exec} (hc : h.Canonical) : AllCanonical (tryStart h ch e) :=
  .ite .none (.ite (.ite (.some hc.putExec) (.some (.foldl (fun _ _ hc1 => hc1.putExec) hc))) .none)

theorem Hw.Canonical.tryStop0 {h : Hw} {ch : Nat} {e : Exec} (hc : h.Canonical) : AllCanonical (tryStop0 h ch e) := .ite (.some hc.endGroup) .none

theorem Hw.Canonical.ubTouch {h : Hw} {ch : Nat} {us : List TcEnt} (hc : h.Canonical) : (ubTouch h ch us).Canonical := hc.setChain

theorem Hw.Canonical.pieceIssue {h : Hw} {ch id : Nat} {a : Acc} (hc : h.Canonical) : (pieceIssue h ch id a).Canonical := by
  unfold Machine.pieceIssue
  split
  · split
    · exact hc
    · split
      exact .ite hc.mRegion hc.mRegion
  · exact hc

theorem Hw.Canonical.permFault {h : Hw} {ch : Nat} {e : Exec} {s : Nat} {t : TcEnt} {va : Nat} {write : Bool} (hc : h.Canonical) :
    (permFault h ch e s t va write).Canonical := by
  unfold Machine.permFault
  split
  exact hc.xltFault.endGroup

theorem Hw.Canonical.tryFetch {h : Hw} {ch : Nat} {e : Exec} {s : Nat} (hc : h.Canonical) : AllCanonical (tryFetch h ch e s) := by
  unfold Machine.tryFetch
  split
  · exact .none
  · refine .ite .none ?_
    split
    · exact .none
    · exact .none
    · exact .some hc.permFault
    · exact .ite .none (.some hc.putExec.ubTouch.pieceIssue)

theorem Hw.Canonical.tryRec {h : Hw} {ch : Nat} {e : Exec} (hc : h.Canonical) : AllCanonical (tryRec h ch e) := .ite (.some hc.putExec) .none

theorem Hw.Canonical.tryPop {h : Hw} {ch : Nat} {e : Exec} (hc : h.Canonical) : AllCanonical (tryPop h ch e) := .map (fun _ _ => hc.putExec)

theorem Hw.Canonical.tryFail {h : Hw} {ch : Nat} {e : Exec} (hc : h.Canonical) : AllCanonical (tryFail h ch e) := by
  unfold Machine.tryFail
  refine .ite .none ?_
  split
  · exact .ite (.some (.endGroup (.ite hc.rgnLog hc))) .none
  · split
    · exact .ite (.some (.endGroupAt (.ite hc.rgnLog hc))) .none
    · exact .none

theorem Hw.Canonical.accArrive {h : Hw} {ch id s item : Nat} {data : List Byte} {err : Nat} (hc : h.Canonical) : (accArrive h ch id s item data err).Canonical := by
  unfold Machine.accArrive
  split
  · exact hc
  · split
    · exact hc
    · exact .ite (.ite hc.putExec.outFail (.ite hc.putExec hc.putExec.pieceIssue)) (.ite hc.putExec.pieceIssue hc.putExec)

theorem Hw.Canonical.accLost {h : Hw} {ch id item : Nat} (hc : h.Canonical) : (accLost h ch id item).Canonical := by
  unfold Machine.accLost
  split
  · exact hc
  · split
    · exact hc
    · exact .ite hc.putExec.outFail hc.putExec

theorem Hw.Canonical.tryPages {h : Hw} {ch : Nat} {e : Exec} (hc : h.Canonical) : AllCanonical (tryPages h ch e) := by
  unfold Machine.tryPages
  refine .ite .none ?_
  split
  · extract_lets
    split
    exact .ite (.some hc.putExec) (.ite .none (.some hc.putExec))

theorem Hw.Canonical.tryStore {h : Hw} {ch : Nat} {e : Exec} (hc : h.Canonical) : AllCanonical (tryStore h ch e) := by
  unfold Machine.tryStore
  split
  · exact .none
  · refine .ite .none ?_
    split
    · exact .none
    · exact .none
    · split
      exact .some hc.xltFault.outFail
    · exact .ite (.some hc.putExec) (.ite .none (.some hc.putExec.ubTouch.pieceIssue))

theorem Hw.Canonical.trySend {h : Hw} {ch : Nat} {e : Exec} (hc : h.Canonical) : AllCanonical (trySend h ch e) := .ite .none (.ite (.some hc.linkSend.putExec) .none)

theorem Hw.Canonical.linkTake {h : Hw} {ch : Nat} {e : Exec} {s : Nat} {f : Frame} (hc : h.Canonical) :
    (linkTake h ch e s f).Canonical := .ite hc.endGroup hc.putExec

theorem Hw.Canonical.resendTake {h : Hw} {ch : Nat} {e : Exec} {s : Nat} {f : Frame} (hc : h.Canonical) : (resendTake h ch e s f).Canonical := by
  unfold Machine.resendTake
  extract_lets
  split
  · exact hc
  · exact .ite hc.endGroup hc.putExec

theorem Hw.Canonical.postTook {h : Hw} {lk : Nat} {f : Frame} (hc : h.Canonical) : (postTook h lk f).Canonical := by
  unfold Machine.postTook
  extract_lets
  split
  · exact hc.setLink
  · exact hc

theorem Hw.Canonical.putFrame {h : Hw} {lk : Nat} {f : Frame} (hc : h.Canonical) : (putFrame h lk f).Canonical := by
  unfold Machine.putFrame
  refine .ite (.ite hc.setCtx hc) (.ite ?_ ?_)
  · split
    next h1 _ he =>
      have hc1 : h1.Canonical := .of_eq_fst he hc.memWrite
      refine .ite ?_ hc1
      split
      next h11 he1 =>
        have hc2 : h11.Canonical := .of_eq_snd he1 hc1.fresh
        exact hc2.linkSend
  · split
    next h1 he =>
      have hc1 : h1.Canonical := .of_eq_snd he hc.fresh
      exact .ite hc1.linkSend hc1.linkSend.setCtx

theorem Hw.Canonical.landPosts {h : Hw} {lk n step : Nat} {l : List Post} {l1 : List Byte} (hc : h.Canonical) : (landPosts h lk n step l l1).1.Canonical := by
  induction l generalizing h lk n step l1 with
  | nil =>
    unfold Machine.landPosts
    exact hc
  | cons y ys ih =>
    unfold Machine.landPosts
    refine .fst_ite ?_ ?_
    · extract_lets
      split
      next h1 _ he =>
        have hc1 : h1.Canonical := .of_eq_fst he (.fst_ite hc hc.memWrite)
        split
        next h11 _ _ he1 =>
          exact .of_eq_fst he1 (ih hc1)
    · split
      next h1 _ _ he =>
        exact .of_eq_fst he (ih hc)

theorem Hw.Canonical.landFrame {h : Hw} {lk : Nat} {f : Frame} (hc : h.Canonical) : (landFrame h lk f).Canonical := by
  unfold Machine.landFrame
  refine .ite hc.putFrame ?_
  split
  next h1 _ _ he =>
    have hc1 : h1.Canonical := .of_eq_fst he hc.landPosts
    exact hc1.setLink

theorem Hw.Canonical.landHeads {k : Nat} {h : Hw} {k1 : Nat} (hc : h.Canonical) : (landHeads k h k1).Canonical := by
  induction k generalizing h k1 with
  | zero =>
    unfold Machine.landHeads
    exact hc
  | succ n ih =>
    unfold Machine.landHeads
    extract_lets
    split
    · exact ih hc.rbufFree.landFrame
    · exact hc

theorem Hw.Canonical.landAll {h : Hw} {lk : Nat} (hc : h.Canonical) : (landAll h lk).Canonical := hc.landHeads

theorem Hw.Canonical.tryLink {h : Hw} {ch : Nat} {e : Exec} {s : Nat} (hc : h.Canonical) : AllCanonical (tryLink h ch e s) := by
  unfold Machine.tryLink
  refine .ite .none ?_
  extract_lets
  split
  · exact .ite (.some hc.rbufFree.postTook.linkTake.landAll) .none
  · exact .none

theorem Hw.Canonical.countElems {h : Hw} {ch n : Nat} (hc : h.Canonical) : (countElems h ch n).Canonical := .ite hc.setChain hc.setChain.addSat

theorem Hw.Canonical.boundary {h : Hw} {ch : Nat} {e : Exec} (hc : h.Canonical) : (boundary h ch e).Canonical := by
  unfold Machine.boundary
  extract_lets _ _ _ h0 h1
  have ch0 : h0.Canonical := by
    refine .foldl (fun _ _ hc1 => ?_) hc
    split
    · exact hc1.rgnLog
    · exact hc1
  have ch1 : h1.Canonical := .foldl (fun _ _ hc1 => hc1.putExec) ch0
  split
  · split
    · exact ch1.endGroup
    · exact ch1
  · refine .ite ch1 ?_
    split
    · split
      · exact ch1.endGroup
      · exact ch1
    · exact ch1

theorem Hw.Canonical.tryProcess {h : Hw} {ch : Nat} {e : Exec} (hc : h.Canonical) : AllCanonical (tryProcess h ch e) := by
  unfold Machine.tryProcess
  extract_lets
  split
  · refine .ite .none (.some (.ite (.boundary (.ite ?_ hc.putExec.countElems)) (.ite ?_ hc.putExec.countElems)))
    · split
      · exact hc.putExec.countElems.putExec
      · exact hc.putExec.countElems
    · split
      · exact hc.putExec.countElems.putExec
      · exact hc.putExec.countElems

theorem Hw.Canonical.chainStep {h : Hw} {ch : Nat} (hc : h.Canonical) : AllCanonical (chainStep h ch) := by
  unfold Machine.chainStep
  split
  next he => exact .some (AllCanonical.findSome? (fun _ => hc.tryStore) _ he)
  next =>
    refine .findSome? fun e => .findSome?_of_mem ?_
    simp only [List.forall_mem_append, List.forall_mem_map, List.forall_mem_cons]
    exact ⟨⟨⟨hc.tryPop, hc.tryFail, hc.tryStop0, hc.tryPair, hc.tryStart, hc.tryPages, hc.trySend, hc.tryProcess, hc.tryRec, nofun⟩,
      hc.tryLink, hc.tryLink, nofun⟩, hc.tryFetch, hc.tryFetch, hc.tryFetch, nofun⟩

theorem Hw.Canonical.chainsLoop {k : Nat} {h : Hw} {r : Nat} (hc : h.Canonical) : (chainsLoop k h r).Canonical := by
  induction k generalizing h with
  | zero => exact hc
  | succ k ih =>
    unfold Machine.chainsLoop
    split
    next he => exact ih (AllCanonical.findSome? (fun _ => hc.chainStep) _ he)
    next => exact hc

theorem Hw.Canonical.chainsAdvance {h : Hw} {r : Nat} (hc : h.Canonical) : (chainsAdvance h r).Canonical :=
  .ite hc (.foldl (fun _ _ hc1 => hc1.chainSync) (.ite hc.chainsLoop hc))

theorem Hw.Canonical.chainResend {h : Hw} {lk : Nat} {f : Frame} (hc : h.Canonical) : AllCanonical (chainResend h lk f) :=
  .map fun _ he => .chainsAdvance (AllCanonical.findSome? (fun _ => .findSome? fun _ =>
    .ite (.some hc.resendTake) (.ite (.some hc.resendTake) .none)) _ he)

theorem Hw.Canonical.rereadLost {h : Hw} {ch : Nat} {e : Exec} (hc : h.Canonical) : (rereadLost h ch e).Canonical := by
  unfold Machine.rereadLost
  split
  · exact hc.rgnLog
  · exact hc

theorem Hw.Canonical.chainLinkDown {h : Hw} {lk : Nat} (hc : h.Canonical) : (chainLinkDown h lk).Canonical := by
  unfold Machine.chainLinkDown
  extract_lets _ h1
  have ch1 : h1.Canonical := by
    refine .forEach (fun _ _ hc1 => .foldl (fun _ _ hc2 => ?_) hc1) hc
    split
    · exact .ite hc2 (.ite (.ite hc2.outFail hc2) (.ite (.endGroup (.ite hc2.rereadLost hc2)) hc2))
    · exact hc2
  exact ch1.chainsAdvance

theorem Hw.Canonical.chainSref {h : Hw} {lk ctx step _offset : Nat} (hc : h.Canonical) : (chainSref h lk ctx step _offset).Canonical := by
  unfold Machine.chainSref
  extract_lets _ h1
  have ch1 : h1.Canonical := by
    refine .forEach (fun _ _ hc1 => .foldl (fun _ _ hc2 => ?_) hc1) hc
    split
    · exact .ite hc2.rereadLost.endGroup hc2
    · exact hc2
  exact ch1.chainsAdvance

theorem Hw.Canonical.chainAbortCtx {h : Hw} {n : Nat} (hc : h.Canonical) : (chainAbortCtx h n).Canonical := by
  unfold Machine.chainAbortCtx
  exact .chainsAdvance (.forEach (fun _ _ hc1 => .foldl (fun _ _ hc2 => .ite hc2.endGroup hc2) hc1) hc)

theorem Hw.Canonical.descriptorFetchDone {ch : Nat} {par : Par} {meets : List Meet} {h : Hw} (hc : h.Canonical) :
    (descriptorFetchDone ch par meets h).Canonical := by
  unfold Machine.descriptorFetchDone
  extract_lets
  split
  · exact hc
  · split
    next h1 _ he =>
      have hc1 : h1.Canonical := by
        refine .of_eq_fst he ?_
        split
        · split
          · split
            next hr => exact .of_eq_fst hr hc.rawRead
          · exact hc
        · exact hc
      refine .ite hc ?_
      split
      · exact hc1.sb.putExec.chainsAdvance
      · refine .ite hc1.queueNamed.putExec.chainsAdvance ?_
        split <;> exact hc1.queueNamed.putExec.chainsAdvance

theorem Hw.Canonical.promote {h : Hw} {ch : Nat} (hc : h.Canonical) : (promote h ch).Canonical := by
  unfold Machine.promote
  extract_lets
  split
  · exact hc.setChain
  · exact hc

theorem Hw.Canonical.pendingPromote {ch : Nat} {h : Hw} (hc : h.Canonical) : (pendingPromote ch h).Canonical := by
  unfold Machine.pendingPromote
  split
  · exact .ite hc.promote.chainsAdvance hc
  · exact hc

theorem Hw.Canonical.chnCtlWrite {w : Who} {ch : Nat} {v : W32} {h : Hw} (hc : h.Canonical) : (chnCtlWrite w ch v h).Canonical := by
  unfold Machine.chnCtlWrite
  refine .ite hc ?_
  extract_lets h1
  have ch1 : h1.Canonical := hc.wr
  split
  · exact ch1
  · exact .ite (.ite ch1 (.ite ch1.endGroup.chainsAdvance ch1.putExec.chainsAdvance)) (.ite (.ite ch1 ch1.putExec.chainsAdvance) ch1)

theorem Hw.Canonical.chainStop {w : Who} {ch : Nat} {v : W32} {h : Hw} (hc : h.Canonical) : (chainStop w ch v h).Canonical := hc.chnCtlWrite

theorem Hw.Canonical.chainAbort {w : Who} {ch : Nat} {v : W32} {h : Hw} (hc : h.Canonical) : (chainAbort w ch v h).Canonical := hc.chnCtlWrite

theorem Hw.Canonical.rereadOne {h : Hw} {ch k last : Nat} {e : Exec} (hc : h.Canonical) : (rereadOne h ch k last e).Canonical := by
  unfold Machine.rereadOne
  extract_lets
  split
  exact .ite (.linkCtl (.ite hc.putExec.linkCtl hc.putExec)) (.ite hc.putExec.linkCtl hc.putExec)

theorem Hw.Canonical.sideMark {h : Hw} {ch s : Nat} (hc : h.Canonical) : (sideMark h ch s).Canonical := by
  unfold Machine.sideMark
  extract_lets
  split
  · exact hc
  · exact hc.rgnLog.putExec

theorem Hw.Canonical.segmentReread {ch : Nat} {side : Option Nat} {h : Hw} (hc : h.Canonical) : (segmentReread ch side h).Canonical := by
  unfold Machine.segmentReread
  extract_lets h0
  have ch0 : h0.Canonical := by
    unfold h0
    split
    · exact hc.sideMark.chainsAdvance
    · exact hc
  split
  · exact ch0
  · exact .ite (.chainsAdvance (.foldl (fun _ _ hc1 => hc1.rereadOne) ch0.addSat)) ch0

theorem Hw.Canonical.progWrite {h : Hw} {ch : Nat} {old e : Exec} {b : Bound} {par : Par} {meets : List Meet} (hc : h.Canonical) :
    (progWrite h ch old e b par meets).Canonical := by
  unfold Machine.progWrite
  extract_lets
  split
  · refine .ite hc (.ite hc.putExec.outFail ?_)
    split
    next h1 _ he =>
      have hc1 : h1.Canonical := .of_eq_fst he hc.rawWrite
      exact .ite hc1.putExec (.ite hc1.putExec.outFail hc1.putExec)
  · exact hc.putExec.mRegion

theorem Hw.Canonical.progressWordWrite {ch : Nat} {par : Par} {meets : List Meet} {h : Hw} (hc : h.Canonical) : (progressWordWrite ch par meets h).Canonical := by
  unfold Machine.progressWordWrite
  extract_lets
  split
  · exact hc
  · split
    · exact hc.progWrite.chainsAdvance
    · exact .ite hc.progWrite.chainsAdvance hc.putExec

theorem Hw.Canonical.chnErr {h : Hw} {ch : Nat} {en : Ending} (hc : h.Canonical) : (chnErr h ch en).Canonical := .ite hc hc.wr.wr.wr

theorem Hw.Canonical.cxCollect {h : Hw} {e : Exec} {rc : Rec} (hc : h.Canonical) : (cxCollect h e rc).Canonical := by
  unfold Machine.cxCollect
  extract_lets
  split
  · exact hc
  · refine .ite ?_ ?_
    · split
      · exact hc.setCtx.linkSend
      · exact hc
    · split
      · exact hc.setCtx
      · exact hc

theorem Hw.Canonical.execLeave {h : Hw} {ch : Nat} {e : Exec} {ms : List (Nat × Exec)} {sch : Nat} (hc : h.Canonical) : (execLeave h ch e ms sch).Canonical := by
  unfold Machine.execLeave
  extract_lets _ _ _ h0 h1 _ h2 h3 h4 _ h5
  have ch0 : h0.Canonical := hc.putExec.chainSync
  have ch1 : h1.Canonical := ch0.wf.sb.chnErr
  have ch2 : h2.Canonical := by
    refine .ite ?_ (.ite ?_ (.ite ch1.cxCollect ch1.queueEnded))
    · split
      · exact ch1.sb.setQueue.queueErr.entryOver.queueTidy
      · exact ch1
    · split
      · exact .ite ch1.queueEnded ch1.queueEnded
      · exact .ite ch1.addSat ch1
  have ch3 : h3.Canonical := .ite ch2.irqFire ch2
  have ch4 : h4.Canonical := .ite ch3.irqFire ch3
  have ch5 : h5.Canonical := .foldl (fun _ _ hc1 => hc1.setFrond) ch4.setChain
  exact .chainSync (.ite ch5.promote ch5)

theorem Hw.Canonical.chainCommandEnd {ch : Nat} {h : Hw} (hc : h.Canonical) : (chainCommandEnd ch h).Canonical := by
  unfold Machine.chainCommandEnd
  split
  · exact hc
  · exact .ite (.chainsAdvance (.foldl (fun _ _ hc1 => hc1.execLeave) hc)) hc

theorem Hw.Canonical.setRes {h : Hw} {f : Nat} {v : W64} (hc : h.Canonical) : (setRes h f v).Canonical := by
  unfold Machine.setRes
  split
  next h1 he =>
    have hc1 : h1.Canonical := .of_eq_snd he hc.fresh
    exact hc1.setFrond

theorem Hw.Canonical.chainTrigger {f c : Nat} {v : W64} {h : Hw} (hc : h.Canonical) : (chainTrigger f c v h).Canonical := by
  unfold Machine.chainTrigger
  refine .ite ?_ hc
  extract_lets
  split
  next h1 _ he =>
    have hc1 : h1.Canonical := .of_eq_fst he hc.chainAccept
    exact hc1.setRes

end Sys2Proof.Machine
end

section
/-!
SUPPORT. The functions of the queues (Machine/Queues.lean) keep the storage in canonical form.
-/
namespace Sys2Proof.Machine

theorem Hw.Canonical.sqIssue {h : Hw} {q idx : Nat} (hc : h.Canonical) : (sqIssue h q idx).Canonical := .inflSync (.wf (hc.update rfl))

theorem Hw.Canonical.queueIssue {q : Nat} {h : Hw} (hc : h.Canonical) : (queueIssue q h).Canonical := by
  unfold Machine.queueIssue
  refine .ite hc (.ite (.ite hc.sqIssue.queueJoin.chainAccept hc) ?_)
  extract_lets h1
  have ch1 : h1.Canonical := hc.sqIssue.queueJoin
  exact ch1.update rfl

end Sys2Proof.Machine
end

section
/-!
SUPPORT. The functions of the walks of the translation tables (Machine/Walks.lean) keep the storage in canonical form.
-/
namespace Sys2Proof.Machine

theorem Hw.Canonical.missCount {h : Hw} {r : Nat} (hc : h.Canonical) : (missCount h r).Canonical := .ite hc.setXlt hc.setXlt.addSat

theorem Hw.Canonical.translationLookup {ch s : Nat} {h : Hw} (hc : h.Canonical) : (translationLookup ch s h).Canonical := by
  unfold Machine.translationLookup
  refine .ite hc ?_
  split
  · exact hc
  · split
    · refine .ite hc (.ite hc.walkAsk ?_)
      split
      · exact hc.setXlt.ubTouch.chainsAdvance
      · exact hc.missCount.walkAsk

theorem Hw.Canonical.walkFault {h : Hw} {r : Nat} {w : Walk} {cls level : Nat} {malf : Bool} {ch s : Nat} (hc : h.Canonical) :
    (walkFault h r w cls level malf ch s).Canonical := by
  unfold Machine.walkFault
  split
  · exact hc
  · exact .ite hc (.ite hc.putExec (.ite hc.xltFault.outFail hc.xltFault.endGroup))

theorem Hw.Canonical.walkAfter {r k : Nat} {x : Hw × WalkOut} (hc : x.1.Canonical) : (walkAfter r k x).Canonical := by
  unfold Machine.walkAfter
  split
  · split
    · split
      · exact .ite hc.walkDrop hc.xltSync
      · exact hc.xltSync
    · split
      · exact hc
      · split
        · exact .ite hc.walkDrop hc.walkPut
        · extract_lets h1
          have ch1 : h1.Canonical := hc.walkDrop
          split
          · extract_lets
            split
            exact .ite (.chainsAdvance (.ubTouch (.ite ch1.setXlt.setChain ch1.setXlt))) ch1.setXlt
          · exact .ite ch1.walkFault.chainsAdvance ch1

theorem Hw.Canonical.translationWalk {r : Nat} {h : Hw} (hc : h.Canonical) : (translationWalk r h).Canonical := by
  unfold Machine.translationWalk
  refine .ite hc ?_
  split
  · exact hc
  · split
    · exact hc
    · exact hc.setXlt.addSat.walkBegin.walkAfter

theorem Hw.Canonical.lookaheadWalk {ch s : Nat} {h : Hw} (hc : h.Canonical) : (lookaheadWalk ch s h).Canonical := by
  unfold Machine.lookaheadWalk
  extract_lets
  split
  · exact hc
  · refine .ite hc ?_
    split
    · split
      · exact hc.walkAsk
      · exact hc

theorem Hw.Canonical.walkTableReadDone {r k : Nat} {h : Hw} (hc : h.Canonical) : (walkTableReadDone r k h).Canonical := by
  unfold Machine.walkTableReadDone
  split
  · exact .ite hc.walkJudge.walkAfter hc
  · exact hc

theorem Hw.Canonical.markCasDone {r k : Nat} {h : Hw} (hc : h.Canonical) : (markCasDone r k h).Canonical := by
  unfold Machine.markCasDone
  split
  · exact .ite hc.walkMarked.walkAfter hc
  · exact hc

theorem Hw.Canonical.invBegin {h : Hw} {r : Nat} (hc : h.Canonical) : (invBegin h r).Canonical := by
  unfold Machine.invBegin
  extract_lets
  split
  · exact .ite hc (.forEach (fun _ _ hc1 => .ite hc1.setChain hc1) hc.setXlt)
  · exact hc

theorem Hw.Canonical.invPut {h : Hw} {r : Nat} {i : Inval} (hc : h.Canonical) : (invPut h r i).Canonical := hc.setXlt.invBegin.xltSync

theorem Hw.Canonical.invIssue {h : Hw} {r kind : Nat} {w : World} {asid va : Nat} {by_ : Option Nat} (hc : h.Canonical) :
    (invIssue h r kind w asid va by_).Canonical :=
  .foldl (fun _ _ hc1 => hc1.invPut) (.invPut (hc.update rfl))

theorem Hw.Canonical.setIst {h : Hw} {f : Nat} {v : W64} (hc : h.Canonical) : (setIst h f v).Canonical := by
  unfold Machine.setIst
  split
  next h1 he =>
    have hc1 : h1.Canonical := .of_eq_snd he hc.fresh
    exact hc1.setFrond

theorem Hw.Canonical.xltInvOp {h : Hw} {f : Nat} {v : W64} (hc : h.Canonical) : (xltInvOp h f v).Canonical := .ite hc.setIst hc.setIst.invIssue

theorem Hw.Canonical.xltInvGo {w : Who} {r : Nat} {v : W32} {h : Hw} (hc : h.Canonical) : (xltInvGo w r v h).Canonical :=
  .ite hc (.ite (.ite hc.wr hc) (.ite (.sb (.ite hc.wr hc)) (.invIssue (.ite hc.wr hc))))

theorem Hw.Canonical.invReport {h : Hw} {i : Inval} (hc : h.Canonical) : (invReport h i).Canonical := by
  unfold Machine.invReport
  split
  · exact hc.sb
  · exact hc.setFrond

theorem Hw.Canonical.invalidationDone {r : Nat} {h : Hw} (hc : h.Canonical) : (invalidationDone r h).Canonical := by
  unfold Machine.invalidationDone
  extract_lets
  split
  · exact hc
  · exact .ite hc (.xltSync (.invBegin (.ite hc.setXlt.invReport hc.setXlt)))

theorem Hw.Canonical.probePut {h : Hw} {r f : Nat} {write : Bool} {w : World} {asid va phase entry : Nat} (hc : h.Canonical) :
    (probePut h r f write w asid va phase entry).Canonical :=
  hc.setXlt

theorem Hw.Canonical.xltPrbOp {h : Hw} {f : Nat} {v : W64} (hc : h.Canonical) : (xltPrbOp h f v).Canonical := by
  unfold Machine.xltPrbOp
  extract_lets _ _ _ _ _ _ _ _ _ h1
  have ch1 : h1.Canonical := hc.setFrond.setXlt
  refine .ite ch1.probePut ?_
  split
  · exact ch1.setXlt.probePut
  · exact ch1.missCount.probePut

theorem Hw.Canonical.probeDone {f : Nat} {h : Hw} (hc : h.Canonical) : (probeDone f h).Canonical := by
  unfold Machine.probeDone
  extract_lets
  split
  · exact hc
  · exact hc.walkDrop.setFrond

theorem Hw.Canonical.xltDirWrite {w : Who} {a : Nat} {v : W32} {h : Hw} (hc : h.Canonical) : (xltDirWrite w a v h).Canonical := by
  unfold Machine.xltDirWrite
  split
  · exact hc
  · exact .ite hc (.ite hc.wr (.ite hc hc.wr))

theorem Hw.Canonical.xltClear {h : Hw} {r : Nat} (hc : h.Canonical) : (xltClear h r).Canonical :=
  .forEach (fun _ _ hc1 => .ite hc1 hc1.setChain) (.foldl (fun _ _ hc1 => hc1.invReport) hc.setXlt.xltSync)

end Sys2Proof.Machine
end

section
/-!
SUPPORT. The functions of the collective engine (Machine/Collect.lean) keep the storage in canonical form.
-/
namespace Sys2Proof.Machine

theorem Hw.Canonical.setRun {h : Hw} {n : Nat} {u : CtxRun} (hc : h.Canonical) : (setRun h n u).Canonical := hc.setCtx

theorem Hw.Canonical.tokenFlood {h : Hw} {n code opid tc : Nat} {payload : List Byte} (hc : h.Canonical) : (tokenFlood h n code opid tc payload).Canonical :=
  .foldl (fun _ _ hc1 => hc1.linkSend) hc

theorem Hw.Canonical.cxHalted {h : Hw} {n : Nat} (hc : h.Canonical) : (cxHalted h n).Canonical := hc.wf.wf.sb

theorem Hw.Canonical.cxLast {h : Hw} {n status peer : Nat} (hc : h.Canonical) : (cxLast h n status peer).Canonical := hc.wf.wf.wf.wf

theorem Hw.Canonical.rqHand {h : Hw} {n r : Nat} (hc : h.Canonical) : (rqHand h n r).Canonical := by
  unfold Machine.rqHand
  split
  · exact hc
  · extract_lets
    split
    exact hc.setRun.queueEnded

theorem Hw.Canonical.rqClose {h : Hw} {n r f : Nat} {par : Par} {meets : List Meet} (hc : h.Canonical) : (rqClose h n r f par meets).Canonical := by
  unfold Machine.rqClose
  split
  · exact hc
  · split
    · exact hc
    · exact .ite hc (.ite hc.setRun.physWrite.rqHand hc.setRun.physWrite)

theorem Hw.Canonical.word7Done {h : Hw} {n : Nat} (hc : h.Canonical) : (word7Done h n).Canonical := by
  unfold Machine.word7Done
  split
  · exact .ite hc.rqHand hc
  · exact hc

theorem Hw.Canonical.rqStop {h : Hw} {n st0 peer : Nat} (hc : h.Canonical) : (rqStop h n st0 peer).Canonical := by
  unfold Machine.rqStop
  split
  · exact hc
  · refine .ite hc ?_
    extract_lets _ _ h0 h1 h2 h3
    have ch0 : h0.Canonical := hc.setRun
    have ch1 : h1.Canonical := .foldl (fun _ _ hc1 => .ite hc1.setLink hc1) ch0
    have ch2 : h2.Canonical := .ite ch1 ch1.chainAbortCtx.tokenFlood
    have ch3 : h3.Canonical := ch2.cxLast.cxHalted
    exact .ite ch3.sb ch3

theorem Hw.Canonical.strayFrame {h : Hw} {lk n : Nat} (hc : h.Canonical) : (strayFrame h lk n).Canonical := .ite hc (.ite hc.addSat.rqStop hc.addSat)

theorem Hw.Canonical.cxStepSet {h : Hw} {n step : Nat} (hc : h.Canonical) : (cxStepSet h n step).Canonical := hc.wf

theorem Hw.Canonical.svcExec {h : Hw} {n ch : Nat} {c : SvcCmd} {get : Bool} (hc : h.Canonical) : (svcExec h n ch c get).1.Canonical :=
  .fst_ite hc (.chainSync (.setChain (.idleLeave (hc.update rfl))))

theorem Hw.Canonical.svcDo {h : Hw} {n : Nat} {u : CtxRun} {x : SvcAct} (hc : h.Canonical) : AllCanonical (svcDo h n u x) := by
  unfold Machine.svcDo
  split
  · exact .ite (.some (.ite hc.setLink.setRun.linkSend hc.setLink.setRun)) .none
  · refine .ite .none ?_
    split
    · exact .none
    · extract_lets _ _ h1
      have ch1 : h1.Canonical := hc.setCtx.cxStepSet
      split
      next h11 _ he =>
        have hc1 : h11.Canonical := .of_eq_fst he ch1.svcExec
        exact .some (.ite hc1 hc1.setRun)
  · exact .some hc.setRun.cxStepSet.linkSend
  · exact .ite (.some hc.setCtx) .none
  · exact .ite .none (.some hc.setRun)
  · exact .ite .none (.some hc.setRun)
  · exact .ite (.some hc.setRun) .none
  · exact .some hc.setRun.wf
  · exact .ite (.some hc.setRun) .none

theorem Hw.Canonical.svcAct {h : Hw} {n : Nat} (hc : h.Canonical) : AllCanonical (svcAct h n) := by
  unfold Machine.svcAct
  split
  · exact .none
  · refine .ite .none ?_
    split
    · exact .some hc.rqStop
    · split
      · exact hc.svcDo
      · exact .map (fun _ hc1 => hc.setRun)

theorem Hw.Canonical.svcGet {h : Hw} {n : Nat} (hc : h.Canonical) : AllCanonical (svcGet h n) := by
  unfold Machine.svcGet
  extract_lets
  split
  · exact .none
  · refine .ite (.some hc.setCtx.linkSend) (.ite .none ?_)
    split
    · exact .none
    · split
      · exact .some hc.svcExec
      · exact .none

theorem Hw.Canonical.svcGo {k : Nat} {h : Hw} {r : Nat} (hc : h.Canonical) : (svcGo k h r).Canonical := by
  induction k generalizing h with
  | zero => exact hc
  | succ k ih =>
    unfold Machine.svcGo
    split
    next he =>
      refine ih (AllCanonical.findSome? (fun _ => .ite ?_ .none) _ he)
      split
      next hs => exact .some (hc.svcAct _ hs)
      next => exact hc.svcGet
    next => exact hc

theorem Hw.Canonical.sweepLink {k : Nat} {h : Hw} {k1 : Nat} (hc : h.Canonical) : (sweepLink k h k1).Canonical := by
  induction k generalizing h k1 with
  | zero =>
    unfold Machine.sweepLink
    exact hc
  | succ n ih =>
    unfold Machine.sweepLink
    split
    · exact ih hc.setLink.strayFrame
    · split
      · exact ih hc.rbufFree.strayFrame
      · exact hc

theorem Hw.Canonical.svcArm {h : Hw} {n : Nat} (hc : h.Canonical) : (svcArm h n).Canonical := by
  unfold Machine.svcArm
  split
  · exact .ite hc (.ite hc hc.setRun)
  · exact hc

theorem Hw.Canonical.svcAdvance {h : Hw} {r : Nat} (hc : h.Canonical) : (svcAdvance h r).Canonical := by
  unfold Machine.svcAdvance
  refine .ite hc ?_
  extract_lets _ _ h1 h2
  have ch1 : h1.Canonical := .chainsAdvance (.foldl (fun _ _ hc1 => hc1.landAll) (.svcGo (.chainsAdvance (.foldl (fun _ _ hc1 => hc1.landAll) hc.svcGo))))
  have ch2 : h2.Canonical := .foldl (fun _ _ hc1 => hc1.sweepLink) ch1
  exact .foldl (fun _ _ hc1 => hc1.svcArm) ch2

theorem Hw.Canonical.commandEnd {ch : Nat} {h : Hw} (hc : h.Canonical) : (commandEnd ch h).Canonical := hc.chainCommandEnd.svcAdvance

theorem Hw.Canonical.collectiveRequestEnd {n : Nat} {par : Par} {meets : List Meet} {h : Hw} (hc : h.Canonical) :
    (collectiveRequestEnd n par meets h).Canonical := by
  unfold Machine.collectiveRequestEnd
  split
  · exact hc
  · refine .ite hc ?_
    split
    · exact hc.rqClose
    · refine .ite hc (.ite hc.rqStop.rqClose ?_)
      split
      · exact hc.rqStop
      · exact .ite hc.setRun.cxLast.rqClose hc

theorem Hw.Canonical.rqRefuse {h : Hw} {r f q idx pa : Nat} {ws : List Nat} {status sub : Nat} (hc : h.Canonical) :
    (rqRefuse h r f q idx pa ws status sub).Canonical :=
  .ite hc.setCtx.cxLast.rqClose hc.setRun.rqClose

theorem Hw.Canonical.fenceCheck {h : Hw} {n : Nat} (hc : h.Canonical) : (fenceCheck h n).Canonical := by
  unfold Machine.fenceCheck
  extract_lets
  split
  · exact .ite hc.cxStepSet.wf.setCtx.cxLast.rqClose hc
  · exact hc

theorem Hw.Canonical.svcTake {h : Hw} {r i : Nat} (hc : h.Canonical) : (svcTake h r i).Canonical := .ite (hc.update rfl) (hc.update rfl)

theorem Hw.Canonical.rqStart {h : Hw} {r q idx pa : Nat} {ws : List Nat} (hc : h.Canonical) : (rqStart h r q idx pa ws).Canonical := by
  unfold Machine.rqStart
  extract_lets _ _ _ _ _ h1 h2
  have ch1 : h1.Canonical := hc.setCtx
  have ch2 : h2.Canonical := ch1.wf.wf.wr.wf
  exact .ite (.fenceCheck (.foldl (fun _ _ hc1 => hc1.tokenFlood) ch2)) ch2.svcAdvance

theorem Hw.Canonical.collectiveRequest {f : Nat} {words : List W64} {h : Hw} (hc : h.Canonical) : (collectiveRequest f words h).Canonical := by
  unfold Machine.collectiveRequest
  extract_lets
  split
  · exact hc
  · extract_lets h1
    have ch1 : h1.Canonical := hc.svcTake
    split
    · exact ch1.rqRefuse
    · exact ch1.rqStart

theorem Hw.Canonical.stepTimeout {n : Nat} {h : Hw} (hc : h.Canonical) : (stepTimeout n h).Canonical := by
  unfold Machine.stepTimeout
  split
  · extract_lets
    split
    · exact .ite hc.rqStop hc
    · exact hc
  · exact hc

theorem Hw.Canonical.fenceTimeout {n : Nat} {h : Hw} (hc : h.Canonical) : (fenceTimeout n h).Canonical := by
  unfold Machine.fenceTimeout
  split
  · extract_lets
    split
    · exact .ite hc.rqStop hc
    · exact hc
  · exact hc

theorem Hw.Canonical.contextValidate {w : Who} {n : Nat} {v : W32} {h : Hw} (hc : h.Canonical) : (contextValidate w n v h).Canonical :=
  .ite hc (.ite hc.sb (.ite (.ite hc.sb hc.wr.wf) hc.wr.wf.setCtx))

theorem Hw.Canonical.cxeWrite {h : Hw} {n off : Nat} {w : Who} {v : W32} (hc : h.Canonical) : (cxeWrite h n off w v).Canonical :=
  .ite hc (.ite hc.contextValidate (.ite (.ite hc.wr (.ite hc.wf hc.sb)) (.ite hc.sb (.ite hc.sb hc.wr))))

theorem Hw.Canonical.rlyWrite {h : Hw} {a r : Nat} {w : Who} {v : W32} (hc : h.Canonical) : (rlyWrite h a r w v).Canonical := .ite hc.sb hc.wr

theorem Hw.Canonical.cxHalt {w : Who} {r : Nat} {v : W32} {h : Hw} (hc : h.Canonical) : (cxHalt w r v h).Canonical :=
  .ite hc (.ite hc.sb (.ite hc.rqStop (.ite hc.cxHalted hc)))

theorem Hw.Canonical.cxeArdyUpdate {f n v : Nat} {h : Hw} (hc : h.Canonical) : (cxeArdyUpdate f n v h).Canonical := .ite hc.wf.chainsAdvance.svcAdvance hc

theorem Hw.Canonical.receivePost {f lk : Nat} {p : Post} {h : Hw} (hc : h.Canonical) : (receivePost f lk p h).Canonical := .ite hc.setLink.svcAdvance hc

theorem Hw.Canonical.tokenSend {f lk n step code opid : Nat} {payload : List Byte} {h : Hw} (hc : h.Canonical) :
    (tokenSend f lk n step code opid payload h).Canonical :=
  .ite (.ite hc.linkSend hc.linkSend) hc

theorem Hw.Canonical.readyToken {h : Hw} {lk : Nat} {f : Frame} (hc : h.Canonical) : (readyToken h lk f).Canonical := .ite hc.rqStop hc.setCtx.cxProgress

theorem Hw.Canonical.barrierToken {h : Hw} {lk : Nat} {f : Frame} (hc : h.Canonical) : (barrierToken h lk f).Canonical := .ite hc.setCtx.cxProgress hc.setCtx

theorem Hw.Canonical.abortToken {h : Hw} {f : Frame} (hc : h.Canonical) : (abortToken h f).Canonical := .ite (.ite hc.setCtx.rqStop hc.rqStop) hc.addSat

theorem Hw.Canonical.fenceToken {h : Hw} {lk : Nat} {f : Frame} (hc : h.Canonical) : (fenceToken h lk f).Canonical := hc.setCtx.fenceCheck

theorem Hw.Canonical.doneToken {h : Hw} {f : Frame} (hc : h.Canonical) : (doneToken h f).Canonical := by
  unfold Machine.doneToken
  extract_lets
  split
  · exact .ite hc.setRun.cxProgress hc
  · exact hc

theorem Hw.Canonical.getreqToken {h : Hw} {lk : Nat} {f : Frame} (hc : h.Canonical) : (getreqToken h lk f).Canonical := .ite hc.setCtx hc.linkSend

end Sys2Proof.Machine
end

section
/-!
SUPPORT. The functions of the links (Machine/Links.lean) keep the storage in canonical form.
-/
namespace Sys2Proof.Machine

theorem Hw.Canonical.yieldLane {h : Hw} {l : Nat} (hc : h.Canonical) : (yieldLane h l).Canonical := .ite hc.claimFree hc

theorem Hw.Canonical.yieldLanes {h : Hw} {lk : Nat} (hc : h.Canonical) : (yieldLanes h lk).Canonical := .foldl (fun _ _ hc1 => hc1.yieldLane) hc

theorem Hw.Canonical.putsForget {h : Hw} {lk : Nat} (hc : h.Canonical) : (putsForget h lk).Canonical := hc.update rfl

theorem Hw.Canonical.linkGoDown {h : Hw} {lk cause : Nat} (hc : h.Canonical) : (linkGoDown h lk cause).Canonical := by
  unfold Machine.linkGoDown
  refine .ite hc ?_
  extract_lets _ h1 h2 h3 h4
  have ch2 : h2.Canonical := hc.setLink.putsForget
  have ch3 : h3.Canonical := ch2.wf.wf.wf.sb
  have ch4 : h4.Canonical := ch3.wf.wf.wf
  exact .chainLinkDown (.yieldLanes (.linkSetState (.foldl (fun _ _ hc1 => .setLane (.wf (.ite hc1 hc1.wf))) ch4)))

theorem Hw.Canonical.protoError {h : Hw} {lk : Nat} (hc : h.Canonical) : (protoError h lk).Canonical := .linkGoDown (.ite hc.sb.irqFire hc.sb)

theorem Hw.Canonical.laneReclaim {h : Hw} {l : Nat} (hc : h.Canonical) : (laneReclaim h l).Canonical := .ite hc hc.wr

theorem Hw.Canonical.laneStart {h : Hw} {l st : Nat} (hc : h.Canonical) : (laneStart h l st).Canonical := .ite hc hc.wf.setLane

theorem Hw.Canonical.bringUp {h : Hw} {lk : Nat} {noAn : Bool} (hc : h.Canonical) : (bringUp h lk noAn).Canonical := by
  unfold Machine.bringUp
  refine .ite hc.linkGoDown.wf (.ite hc.linkGoDown.sb.wf ?_)
  extract_lets h1 h2
  have ch1 : h1.Canonical := .foldl (fun _ _ hc1 => hc1.laneReclaim.laneStart) hc
  have ch2 : h2.Canonical := .ite (.foldl (fun _ _ hc1 => hc1.wf) ch1.sb) ch1
  exact ch2.setLink.linkSetState

theorem Hw.Canonical.linkRetrainNow {h : Hw} {lk cause : Nat} (hc : h.Canonical) : (linkRetrainNow h lk cause).Canonical := hc.linkGoDown.bringUp

theorem Hw.Canonical.startReplay {h : Hw} {lk idx : Nat} (hc : h.Canonical) : (startReplay h lk idx).Canonical := by
  unfold Machine.startReplay
  extract_lets
  split
  · exact hc
  · exact .ite hc.addSat.setLink.sb.linkRetrainNow hc.addSat.setLink

theorem Hw.Canonical.ackReceive {h : Hw} {lk : Nat} {aw : AckWord} (hc : h.Canonical) : (ackReceive h lk aw).Canonical := by
  unfold Machine.ackReceive
  refine .ite hc ?_
  extract_lets _ _ _ _ _ _ h1
  refine .ite hc.setLink.wf ?_
  split
  · exact hc.setLink.wf.startReplay
  · exact .ite hc.setLink.wf.startReplay hc.setLink.wf

theorem Hw.Canonical.replayTimeout {lk : Nat} {h : Hw} (hc : h.Canonical) : (replayTimeout lk h).Canonical := .ite hc.startReplay hc

theorem Hw.Canonical.nakSend {h : Hw} {lk : Nat} (hc : h.Canonical) : (nakSend h lk).Canonical := hc.setLink

theorem Hw.Canonical.nakTimeout {lk : Nat} {h : Hw} (hc : h.Canonical) : (nakTimeout lk h).Canonical := .ite hc.nakSend hc

theorem Hw.Canonical.enterNak {h : Hw} {lk : Nat} (hc : h.Canonical) : (enterNak h lk).Canonical := .ite hc hc.sb.nakSend

theorem Hw.Canonical.sendNew {h : Hw} {lk l : Nat} {f : Frame} {credits : Bool} (hc : h.Canonical) : (sendNew h lk l f credits).Canonical := by
  unfold Machine.sendNew
  extract_lets
  split
  · extract_lets _ _ h1 h2 h3
    have ch1 : h1.Canonical := hc.setLink.wf.wf
    have ch2 : h2.Canonical := .ite ch1.addSat ch1
    have ch3 : h3.Canonical := .ite ch2.wf ch2
    exact ch3.setLane

theorem Hw.Canonical.sendPlain {h : Hw} {lk l : Nat} {f : Frame} (hc : h.Canonical) : (sendPlain h lk l f).Canonical := .setLane (.ite hc.setLink.addSat hc.setLink)

theorem Hw.Canonical.sendClass {h : Hw} {lk l i : Nat} (hc : h.Canonical) : (sendClass h lk l i).Canonical := by
  unfold Machine.sendClass
  extract_lets
  split
  · exact hc
  · exact hc.setLink.sendNew

theorem Hw.Canonical.tc0Slot {h : Hw} {lk : Nat} (hc : h.Canonical) : (tc0Slot h lk).Canonical := .ite hc.setLink hc

theorem Hw.Canonical.sendUp {h : Hw} {lk l : Nat} (hc : h.Canonical) : (sendUp h lk l).Canonical := by
  unfold Machine.sendUp
  extract_lets
  split
  · split
    · exact hc.setLink.sendPlain.tc0Slot
    · exact hc.setLink.sendPlain
  · refine .ite hc.sendPlain.tc0Slot ?_
    split
    · exact hc.setLink.sendNew.tc0Slot
    · split
      · exact hc.tc0Slot.sendClass
      · exact .ite hc.setLink.sendNew hc.sendPlain

theorem Hw.Canonical.relayFrame {h : Hw} {lk out : Nat} {f : Frame} (hc : h.Canonical) : (relayFrame h lk out f).Canonical :=
  .ite hc.freePlace.idleLeave.linkSend hc.freePlace.idleLeave

theorem Hw.Canonical.mgmtFill {k : Nat} {h : Hw} {k1 : Nat} (hc : h.Canonical) : (mgmtFill k h k1).Canonical := by
  induction k generalizing h k1 with
  | zero =>
    unfold Machine.mgmtFill
    exact hc
  | succ n ih =>
    unfold Machine.mgmtFill
    extract_lets
    split
    · exact hc
    · exact .ite (ih (.freePlace (.idleLeave (hc.update rfl)))) hc

theorem Hw.Canonical.frameProgress {h : Hw} {lk : Nat} {f : Frame} (hc : h.Canonical) : (frameProgress h lk f).Canonical := .ite hc.cxProgress hc

theorem Hw.Canonical.dataDeliver {h : Hw} {lk : Nat} {f : Frame} (hc : h.Canonical) : (dataDeliver h lk f).Canonical := by
  unfold Machine.dataDeliver
  extract_lets _ h0 h2 h1
  have ch0 : h0.Canonical := hc.idleLeave.frameProgress
  have ch2 : h2.Canonical := ch0.freePlace
  exact .svcAdvance (.ite (ch2.chainResend.getD ch2.strayFrame) ch0.setLink)

theorem Hw.Canonical.tokenTake {h : Hw} {lk : Nat} {f : Frame} (hc : h.Canonical) : (tokenTake h lk f).Canonical := by
  unfold Machine.tokenTake
  split
  · exact hc.readyToken
  · exact hc.barrierToken
  · exact hc.abortToken
  · exact hc.fenceToken
  · exact hc.doneToken
  · exact hc.getreqToken
  · exact hc

theorem Hw.Canonical.tokenDeliver {h : Hw} {lk : Nat} {f : Frame} (hc : h.Canonical) : (tokenDeliver h lk f).Canonical :=
  .ite hc.freePlace (.ite hc.freePlace hc.freePlace.tokenTake.svcAdvance)

theorem Hw.Canonical.creditTake {h : Hw} {lk : Nat} {f : Frame} (hc : h.Canonical) : (creditTake h lk f).Canonical :=
  .chainsAdvance (.forEach (fun _ _ hc1 => hc1.wf) hc)

theorem Hw.Canonical.snakServe {h : Hw} {lk : Nat} {f : Frame} (hc : h.Canonical) : (snakServe h lk f).Canonical :=
  .ite (.addSat (.foldl (fun _ _ hc1 => hc1.linkSend) hc)) hc.linkCtl.addSat

theorem Hw.Canonical.sendLaneset {h : Hw} {lk mask : Nat} (hc : h.Canonical) : (sendLaneset h lk mask).Canonical :=
  .ite hc (.ite hc.setLink (.ite hc.setLink.linkCtl.linkSetState hc.setLink.linkCtl))

theorem Hw.Canonical.sendWanted {h : Hw} {lk : Nat} (hc : h.Canonical) : (sendWanted h lk).Canonical := by
  unfold Machine.sendWanted
  split
  · exact hc
  · exact .ite hc.setLink hc.sendLaneset

theorem Hw.Canonical.laneSyncAcquired {l : Nat} {h : Hw} (hc : h.Canonical) : (laneSyncAcquired l h).Canonical := .ite hc (.ite hc.wf (.ite hc.wf.setLane hc))

theorem Hw.Canonical.alignCheck {h : Hw} {lk : Nat} (hc : h.Canonical) : (alignCheck h lk).Canonical := .ite hc.setLink.linkSetState hc

theorem Hw.Canonical.bootLinksUp {h : Hw} (hc : h.Canonical) : (bootLinksUp h).Canonical := .ite hc.wf hc

theorem Hw.Canonical.upCheck {h : Hw} {lk : Nat} (hc : h.Canonical) : (upCheck h lk).Canonical :=
  .ite (.bootLinksUp (.linkSetState (.foldl (fun _ _ hc1 => .ite hc1 hc1.wf) hc.wr.wr.wf.wf.wf.setLink))) hc

theorem Hw.Canonical.initTake {h : Hw} {lk : Nat} {f : Frame} (hc : h.Canonical) : (initTake h lk f).Canonical :=
  .ite hc.protoError (.ite hc.setLink (.upCheck (.setLink (.wf (.wf (.forEach (fun _ _ hc1 => hc1.wf) hc.wf.wf.wf.wr.wr))))))

theorem Hw.Canonical.initackTake {h : Hw} {lk : Nat} {f : Frame} (hc : h.Canonical) : (initackTake h lk f).Canonical := .ite hc.setLink.upCheck hc

theorem Hw.Canonical.alignTake {h : Hw} {lk l : Nat} {f : Frame} {skew : Nat} (hc : h.Canonical) : (alignTake h lk l f skew).Canonical :=
  .ite (.alignCheck (.setLane (.wf (.ite hc hc.setLink)))) (.setLane (.ite hc hc.setLink))

theorem Hw.Canonical.lanesFollow {h : Hw} {lk m : Nat} (hc : h.Canonical) : (lanesFollow h lk m).Canonical := by
  unfold Machine.lanesFollow
  refine .foldl (fun _ _ hc1 => ?_) hc
  split
  · exact hc1
  · exact .ite (.ite hc1.wf hc1) (.ite hc1.wf hc1)

theorem Hw.Canonical.txRowEnd {h : Hw} {lk : Nat} (hc : h.Canonical) : (txRowEnd h lk).Canonical := by
  unfold Machine.txRowEnd
  extract_lets _ h1
  have ch1 : h1.Canonical := hc.setLink
  split
  · exact ch1.wf.lanesFollow.sb
  · exact ch1

theorem Hw.Canonical.rxRowEnd {h : Hw} {lk : Nat} (hc : h.Canonical) : (rxRowEnd h lk).Canonical := by
  unfold Machine.rxRowEnd
  extract_lets _ h1
  have ch1 : h1.Canonical := hc.setLink
  split
  · exact ch1.wf.sb
  · exact ch1

theorem Hw.Canonical.txAdvance {h : Hw} {lk set pos : Nat} (hc : h.Canonical) : (txAdvance h lk set pos).Canonical := .ite hc.setLink hc.txRowEnd

theorem Hw.Canonical.rxAdvance {h : Hw} {lk q : Nat} (hc : h.Canonical) : (rxAdvance h lk q).Canonical := .ite hc.setLink hc.rxRowEnd

theorem Hw.Canonical.lanesetTake {h : Hw} {lk : Nat} {f : Frame} (hc : h.Canonical) : (lanesetTake h lk f).Canonical := .ite hc.setLink.linkCtl hc.linkCtl

theorem Hw.Canonical.lanesetAnswer {h : Hw} {lk : Nat} {accepted : Bool} (hc : h.Canonical) : (lanesetAnswer h lk accepted).Canonical := by
  unfold Machine.lanesetAnswer
  extract_lets
  split
  · exact hc
  · extract_lets h1 h2
    have ch1 : h1.Canonical := hc.setLink
    exact .sendWanted (.ite (.linkSetState (.ite ch1.setLink.wf.lanesFollow.sb ch1)) (.ite ch1.setLink.wf.lanesFollow.sb ch1))

theorem Hw.Canonical.lreqTake {h : Hw} {lk : Nat} {f : Frame} (hc : h.Canonical) : (lreqTake h lk f).Canonical := hc.sendLaneset

theorem Hw.Canonical.frameAct {h : Hw} {lk l : Nat} {f : Frame} {skew : Nat} (hc : h.Canonical) : (frameAct h lk l f skew).Canonical := by
  unfold Machine.frameAct
  refine .ite hc.freePlace.addSat (.ite hc.freePlace ?_)
  split
  · exact hc.relayFrame
  · refine .ite hc.freePlace.addSat (.ite hc.dataDeliver (.ite hc.tokenDeliver (.ite hc.creditTake (.ite hc.wf (.ite hc.snakServe (.ite hc.chainSref
      (.ite hc.setLink.mgmtFill (.ite ?_ hc))))))))
    split
    · exact hc.initTake
    · exact hc.initackTake
    · exact hc.alignTake
    · exact hc.lanesetTake
    · exact hc.lanesetAnswer
    · exact hc.lanesetAnswer
    · exact hc.lreqTake
    · exact hc.linkGoDown
    · exact hc

theorem Hw.Canonical.acceptFrame {h : Hw} {lk l : Nat} {f : Frame} {skew : Nat} (hc : h.Canonical) : (acceptFrame h lk l f skew).Canonical :=
  .frameAct (.ite hc.wf.wf.setLink hc.wf.wf.setLink.wf)

theorem Hw.Canonical.laneFigures {h : Hw} {l : Nat} {aw : AckWord} (hc : h.Canonical) : (laneFigures h l aw).Canonical := hc.addSat.addSat.wf.wf

theorem Hw.Canonical.slotRead {h : Hw} {lk l : Nat} {inSet : Bool} (hc : h.Canonical) : (slotRead h lk l inSet).Canonical := .ite hc.rxAdvance hc

theorem Hw.Canonical.goodSlot {h : Hw} {lk l : Nat} {f : Frame} {aw : AckWord} {skew : Nat} {inSet : Bool} (hc : h.Canonical) :
    (goodSlot h lk l f aw skew inSet).Canonical := by
  unfold Machine.goodSlot
  extract_lets h0
  have ch0 : h0.Canonical := hc.ackReceive
  exact .ite ch0 (.ite ch0.protoError (.ite (.ite ch0 ch0.frameAct) (.ite ch0 (.ite ch0.acceptFrame (.ite (.ite ch0 ch0.addSat)
    (.ite ch0.enterNak ch0.protoError))))))

theorem Hw.Canonical.goodFrame {lk pos : Nat} {f : Frame} {aw : AckWord} {skew : Nat} {h : Hw} (hc : h.Canonical) : (goodFrame lk pos f aw skew h).Canonical := by
  unfold Machine.goodFrame
  split
  · exact hc
  · exact .ite hc hc.setLane.goodSlot.slotRead

theorem Hw.Canonical.frameArrives {lk pos : Nat} {f : Frame} {aw : AckWord} {skew : Nat} {h : Hw} (hc : h.Canonical) :
    (frameArrives lk pos f aw skew h).Canonical := by
  unfold Machine.frameArrives
  split
  · exact hc
  · exact .ite hc (.goodFrame (.ite hc.laneFigures.setLane hc.laneFigures))

theorem Hw.Canonical.typedFrame {typ : Nat} {fmt : Option Nat} {lk pos : Nat} {f : Frame} {aw : AckWord} {h : Hw} (hc : h.Canonical) :
    (typedFrame typ fmt lk pos f aw h).Canonical :=
  hc.frameArrives

theorem Hw.Canonical.alignReceived {lk pos : Nat} {f : Frame} {aw : AckWord} {skew : Nat} {h : Hw} (hc : h.Canonical) :
    (alignReceived lk pos f aw skew h).Canonical :=
  hc.frameArrives

theorem Hw.Canonical.laneDrop {h : Hw} {l : Nat} (hc : h.Canonical) : (laneDrop h l).Canonical := by
  unfold Machine.laneDrop
  split
  · exact hc
  · exact .ite hc (.ite hc.linkGoDown (.wf (.linkCtl (.ite hc.wf.sb.setLink.rxRowEnd hc.wf.sb.setLink))))

theorem Hw.Canonical.laneSyncLoss {l : Nat} {signal : Bool} {h : Hw} (hc : h.Canonical) : (laneSyncLoss l signal h).Canonical :=
  .ite hc (.laneDrop (.setLane (.ite hc.wf.sb (.ite hc.wf.sb hc.wf))))

theorem Hw.Canonical.badSlot {h : Hw} {lk : Nat} {aw : AckWord} {inSet : Bool} (hc : h.Canonical) : (badSlot h lk aw inSet).Canonical :=
  .ite hc.ackReceive.enterNak hc.ackReceive

theorem Hw.Canonical.frameReceiveFailed {lk pos : Nat} {aw : AckWord} {hcrc : Bool} {h : Hw} (hc : h.Canonical) :
    (frameReceiveFailed lk pos aw hcrc h).Canonical := by
  unfold Machine.frameReceiveFailed
  split
  · exact hc
  · refine .ite hc ?_
    extract_lets h0 h1
    have ch0 : h0.Canonical := hc.laneFigures
    exact .ite (.ite (.laneSyncLoss (.ite ch0.setLane ch0)) (.ite ch0.setLane ch0)) (.ite (.ite ch0.setLane ch0) (.ite (.laneSyncLoss (.slotRead (.badSlot
      (.setLane (.addSat (.ite ch0.setLane ch0)))))) (.slotRead (.badSlot (.setLane (.addSat (.ite ch0.setLane ch0)))))))

theorem Hw.Canonical.sendInit {h : Hw} {lk l pos : Nat} (hc : h.Canonical) : (sendInit h lk l pos).Canonical := by
  unfold Machine.sendInit
  extract_lets
  split
  · exact .ite hc.setLink.sendPlain hc.sendPlain
  · exact hc.sendPlain

theorem Hw.Canonical.slotSend {h : Hw} {lk l pos : Nat} (hc : h.Canonical) : (slotSend h lk l pos).Canonical := by
  unfold Machine.slotSend
  refine .ite (.ite hc.sendInit.txAdvance.alignCheck hc) (.ite hc (.ite (.ite hc (.txAdvance ?_)) (.ite hc.sendPlain hc)))
  split
  · exact hc.setLink.sendPlain
  · exact hc.sendUp

theorem Hw.Canonical.frameTransmit {lk pos : Nat} {h : Hw} (hc : h.Canonical) : (frameTransmit lk pos h).Canonical := by
  unfold Machine.frameTransmit
  split
  · exact hc
  · exact .ite hc (.ite (.ite hc.setLane.slotSend hc.setLane.slotSend.setLane.goodFrame) hc.slotSend)

theorem Hw.Canonical.linkUp {lk : Nat} {h : Hw} (hc : h.Canonical) : (linkUp lk h).Canonical := .ite (.bringUp (.ite (.foldl (fun _ _ hc1 => hc1.wf.wf) hc) hc)) hc

theorem Hw.Canonical.linkRequestDown {h : Hw} {lk : Nat} (hc : h.Canonical) : (linkRequestDown h lk).Canonical := by
  unfold Machine.linkRequestDown
  refine .ite hc ?_
  extract_lets h1
  refine .linkGoDown (.ite ?_ hc)
  split
  · exact hc.sendNew
  · exact hc

theorem Hw.Canonical.lkCtlWrite {h : Hw} {lk : Nat} {w : Who} {v : W32} (hc : h.Canonical) : (lkCtlWrite h lk w v).Canonical := by
  unfold Machine.lkCtlWrite
  refine .ite hc ?_
  extract_lets h1 h2 h3
  have ch1 : h1.Canonical := hc.wr
  have ch2 : h2.Canonical := .ite ch1.linkRequestDown ch1
  have ch3 : h3.Canonical := .ite ch2.linkRetrainNow ch2
  exact .ite ch3.linkUp ch3

theorem Hw.Canonical.linkUpCmd {w : Who} {lk : Nat} {v : W32} {h : Hw} (hc : h.Canonical) : (linkUpCmd w lk v h).Canonical := hc.lkCtlWrite

theorem Hw.Canonical.linkDownCmd {w : Who} {lk : Nat} {v : W32} {h : Hw} (hc : h.Canonical) : (linkDownCmd w lk v h).Canonical := hc.lkCtlWrite

theorem Hw.Canonical.linkRetrain {w : Who} {lk : Nat} {v : W32} {h : Hw} (hc : h.Canonical) : (linkRetrain w lk v h).Canonical := hc.lkCtlWrite

theorem Hw.Canonical.anDone {lk : Nat} {fallback : Bool} {h : Hw} (hc : h.Canonical) : (anDone lk fallback h).Canonical :=
  .ite hc (.linkSetState (.foldl (fun _ _ hc1 => .wf (.ite hc1 hc1.wf)) hc.wf))

theorem Hw.Canonical.laneTrainFail {h : Hw} {l : Nat} (hc : h.Canonical) : (laneTrainFail h l).Canonical := .ite hc.wf.sb.wf.yieldLane hc.wf.sb

theorem Hw.Canonical.laneTrained {h : Hw} {l : Nat} {pre : Bool} (hc : h.Canonical) : (laneTrained h l pre).Canonical := hc.wf.wf.wf

theorem Hw.Canonical.bringUpFail {h : Hw} {lk cause : Nat} (hc : h.Canonical) : (bringUpFail h lk cause).Canonical := hc.sb.linkGoDown

theorem Hw.Canonical.linkTrained {h : Hw} {lk failed precode : Nat} (hc : h.Canonical) : (linkTrained h lk failed precode).Canonical := by
  unfold Machine.linkTrained
  refine .ite (.foldl (fun _ _ hc1 => hc1.wf) hc.setLink.wf) ?_
  extract_lets h1
  have ch1 : h1.Canonical := .foldl (fun _ _ hc1 => hc1.laneTrainFail) hc
  exact .ite ch1.bringUpFail (.linkSetState (.setLink (.foldl (fun _ _ hc1 => .ite hc1 hc1.laneTrained) ch1)))

theorem Hw.Canonical.loneTrained {h : Hw} {l : Nat} {failed pre : Bool} (hc : h.Canonical) : (loneTrained h l failed pre).Canonical :=
  .ite hc (.ite (.ite hc.laneTrainFail.setLane hc.laneTrainFail) hc.laneTrained.setLane)

theorem Hw.Canonical.trainDone {lk failed precode : Nat} {h : Hw} (hc : h.Canonical) : (trainDone lk failed precode h).Canonical :=
  .ite hc.linkTrained (.ite (.foldl (fun _ _ hc1 => hc1.loneTrained) hc) hc)

theorem Hw.Canonical.trainTimeout {lk : Nat} {h : Hw} (hc : h.Canonical) : (trainTimeout lk h).Canonical := .ite hc.bringUpFail hc

theorem Hw.Canonical.initTimeout {lk : Nat} {h : Hw} (hc : h.Canonical) : (initTimeout lk h).Canonical := .ite hc.bringUpFail hc

theorem Hw.Canonical.initResend {lk : Nat} {h : Hw} (hc : h.Canonical) : (initResend lk h).Canonical := .ite hc.alignCheck.setLink hc.alignCheck

theorem Hw.Canonical.lanesetTimeout {lk : Nat} {h : Hw} (hc : h.Canonical) : (lanesetTimeout lk h).Canonical := .ite hc.linkGoDown hc

theorem Hw.Canonical.laneRemove {h : Hw} {lk l : Nat} (hc : h.Canonical) : (laneRemove h lk l).Canonical := hc.sendLaneset.linkCtl

theorem Hw.Canonical.laneRetrainNow {h : Hw} {l : Nat} (hc : h.Canonical) : (laneRetrainNow h l).Canonical := by
  unfold Machine.laneRetrainNow
  split
  · exact hc
  · exact .ite hc (.ite hc.linkRetrainNow hc.laneRemove.wf.setLane)

theorem Hw.Canonical.lnCtlWrite {h : Hw} {l : Nat} {w : Who} {v : W32} (hc : h.Canonical) : (lnCtlWrite h l w v).Canonical :=
  .ite hc (.ite (.laneRetrainNow (.ite hc.wf.wf hc.wf)) (.ite hc.wf.wf hc.wf))

theorem Hw.Canonical.laneRetrain {w : Who} {l : Nat} {v : W32} {h : Hw} (hc : h.Canonical) : (laneRetrain w l v h).Canonical := hc.lnCtlWrite

theorem Hw.Canonical.laneHealth {h : Hw} {r : Nat} (hc : h.Canonical) : (laneHealth h r).Canonical := by
  unfold Machine.laneHealth
  refine .ite hc ?_
  extract_lets h1
  have ch1 : h1.Canonical := by
    refine .foldl (fun _ _ hc1 => ?_) hc
    split
    · exact hc1
    · exact .ite hc1 (.ite hc1.setLane.laneRetrainNow (.ite hc1.setLane.sendLaneset hc1.setLane))
  exact .foldl (fun _ _ hc1 => .ite hc1.bringUp hc1) ch1

theorem Hw.Canonical.ltFree {h : Hw} {l : Nat} (hc : h.Canonical) : (ltFree h l).Canonical := hc.wf.wr

theorem Hw.Canonical.ltClaimWrite {h : Hw} {l : Nat} {w : Who} {v : W32} (hc : h.Canonical) : (ltClaimWrite h l w v).Canonical := by
  unfold Machine.ltClaimWrite
  extract_lets _ h0
  have ch0 : h0.Canonical := .ite hc.yieldLane hc
  split
  next h1 _ he =>
    have hc1 : h1.Canonical := .of_eq_fst he ch0.claimWrite
    split
    · exact hc
    · exact hc.sb
    · exact hc1.wf
    · exact hc1.ltFree
    · exact hc1

theorem Hw.Canonical.ltCtlWrite {h : Hw} {l : Nat} {w : Who} {v : W32} (hc : h.Canonical) : (ltCtlWrite h l w v).Canonical :=
  .ite hc.sb (.ite (.sb (.ite hc.wr.wr.wr.setLane hc.wr)) (.ite hc.wr.wr.wr.setLane hc.wr))

theorem Hw.Canonical.ltScan {w : Who} {l : Nat} {v : W32} {h : Hw} (hc : h.Canonical) : (ltScan w l v h).Canonical := hc.ltCtlWrite

theorem Hw.Canonical.ltClr {w : Who} {l : Nat} {v : W32} {h : Hw} (hc : h.Canonical) : (ltClr w l v h).Canonical := hc.ltCtlWrite

theorem Hw.Canonical.ltScanDone {l : Nat} {errs : W32} {h : Hw} (hc : h.Canonical) : (ltScanDone l errs h).Canonical := .ite hc.wr.wf.sb hc

theorem Hw.Canonical.checkTick {h : Hw} {l : Nat} (hc : h.Canonical) : (checkTick h l).Canonical := by
  unfold Machine.checkTick
  extract_lets _ h1
  refine .ite hc.setLane.addSat.sb ?_
  split
  next h11 he =>
    have hc1 : h11.Canonical := .of_eq_snd he hc.setLane.addSat.fresh
    exact hc1.addSat.wf

theorem Hw.Canonical.laneTestTick {h : Hw} {l : Nat} (hc : h.Canonical) : (laneTestTick h l).Canonical :=
  .ite hc (.ite (.checkTick (.ite hc.setLane hc)) (.ite (.wf (.ite hc.setLane hc)) (.ite hc.setLane hc)))

theorem Hw.Canonical.testTick {h : Hw} (hc : h.Canonical) : (testTick h).Canonical := .foldl (fun _ _ hc1 => hc1.laneTestTick) hc

theorem Hw.Canonical.lnrWrite {h : Hw} {a : Nat} {w : Who} {v m : W32} (hc : h.Canonical) : (lnrWrite h a w v m).Canonical := .ite (.ite hc.wr hc) (.ite hc.wr hc)

end Sys2Proof.Machine
end

section
/-!
SUPPORT. The functions of the trace (Machine/Trace.lean) keep the storage in canonical form.
-/
namespace Sys2Proof.Machine

theorem Hw.Canonical.setTq {h : Hw} {f : Nat} {x : TraceQ} (hc : h.Canonical) : (h.setTq f x).Canonical := hc.update rfl

theorem Hw.Canonical.traceLost {h : Hw} {f n : Nat} (hc : h.Canonical) : (traceLost h f n).Canonical := .ite hc hc.setTq.addSat

theorem Hw.Canonical.traceNext {h h' : Hw} {f : Nat} {p : Pkt} (hc : h.Canonical) (he : traceNext h f = some (p, h')) : h'.Canonical := by
  unfold Machine.traceNext at he
  extract_lets x at he
  split at he
  · cases he
  · split at he <;> cases he <;> exact hc.setTq

theorem Hw.Canonical.traceDrop {h : Hw} {f : Nat} (hc : h.Canonical) : (traceDrop h f).Canonical := hc.setTq.traceLost

theorem Hw.Canonical.fifoFrom {k : Nat} {h : Hw} {f : Nat} (hc : h.Canonical) : (fifoFrom k h f).Canonical := by
  induction k generalizing h with
  | zero => exact hc
  | succ k ih =>
    unfold Machine.fifoFrom
    refine .ite ?_ hc
    split
    next he => exact ih ((hc.traceNext he).update rfl)
    next => exact hc

theorem Hw.Canonical.fifoFill {h : Hw} (hc : h.Canonical) : (fifoFill h).Canonical := .wf (.forEach (fun _ _ hc1 => hc1.fifoFrom) hc)

theorem Hw.Canonical.traceEmit {h : Hw} {f : Nat} {p : Pkt} (hc : h.Canonical) : (traceEmit h f p).Canonical := .ite hc.traceLost hc.setTq.fifoFill

theorem Hw.Canonical.stimEmit {h : Hw} {f k : Nat} {v : W64} (hc : h.Canonical) : (stimEmit h f k v).Canonical := .ite hc.traceEmit hc

theorem Hw.Canonical.traceSync {h : Hw} {f : Nat} (hc : h.Canonical) : (traceSync h f).Canonical := hc.traceEmit

theorem Hw.Canonical.tbWrap {h : Hw} (hc : h.Canonical) : (tbWrap h).Canonical := .ite (.forEach (fun _ _ hc1 => .ite hc1.traceSync hc1) (hc.update rfl)) hc

theorem Hw.Canonical.tsStop {h : Hw} {r : Nat} (hc : h.Canonical) : (tsStop h r).Canonical := hc.wf.wf

theorem Hw.Canonical.tsFail {h : Hw} {r : Nat} (hc : h.Canonical) : (tsFail h r).Canonical := hc.tsStop.sb

theorem Hw.Canonical.tsDrop {h : Hw} {r : Nat} (hc : h.Canonical) : (tsDrop h r).Canonical := .foldl (fun _ _ hc1 => .ite hc1 hc1.setTq.traceLost) hc

theorem Hw.Canonical.tsClaimWrite {h : Hw} {r : Nat} {w : Who} {v : W32} (hc : h.Canonical) : (tsClaimWrite h r w v).Canonical := by
  unfold Machine.tsClaimWrite
  extract_lets
  split
  next h1 _ he =>
    have hc1 : h1.Canonical := .of_eq_fst he hc.claimWrite
    split
    · exact hc1.sb
    · exact hc1.tsStop.tsDrop
    · exact hc1

theorem Hw.Canonical.tsBaseWrite {h : Hw} {r a : Nat} {w : Who} {v : W32} (hc : h.Canonical) : (tsBaseWrite h r a w v).Canonical := .ite hc.wr hc.sb

theorem Hw.Canonical.tsEnable {w : Who} {r : Nat} {v : W32} {h : Hw} (hc : h.Canonical) : (tsEnable w r v h).Canonical :=
  .ite hc (.ite hc.sb (.ite hc.wr.wf (.ite (.ite hc.wr hc.wr.wr.sb) hc.sb)))

theorem Hw.Canonical.tsWriteOne {h : Hw} {r : Nat} {p : Pkt} {ok : Bool} {meets : List Meet} (hc : h.Canonical) : (tsWriteOne h r p ok meets).Canonical := by
  unfold Machine.tsWriteOne
  refine .ite hc.tsFail ?_
  split
  · split
    next h1 _ he =>
      have hc1 : h1.Canonical := .of_eq_fst he hc.memWrite
      exact .ite (.ite hc1.wr.sb.wf hc1.wr) hc1.tsFail
  · exact .ite hc.mRegion.wr.sb.wf hc.mRegion.wr

theorem Hw.Canonical.tsDrain {k : Nat} {h : Hw} {r : Nat} {ok : Bool} {meets : List Meet} (hc : h.Canonical) : (tsDrain k h r ok meets).Canonical := by
  induction k generalizing h meets with
  | zero => exact hc
  | succ k ih =>
    unfold Machine.tsDrain
    refine .ite hc ?_
    split
    · exact hc
    · refine .ite (ih hc.traceDrop) ?_
      split
      · exact hc
      next he => exact ih (hc.traceNext he).tsWriteOne

theorem Hw.Canonical.traceSinkWrite {r : Nat} {ok : Bool} {meets : List Meet} {h : Hw} (hc : h.Canonical) : (traceSinkWrite r ok meets h).Canonical :=
  .ite hc.tsDrain hc

theorem Hw.Canonical.tpktPop {h : Hw} (hc : h.Canonical) : (tpktPop h).Canonical := by
  unfold Machine.tpktPop
  split
  exact .fifoFill (hc.wr.wr.wr.wr.update rfl)

end Sys2Proof.Machine
end

section
/-!
SUPPORT. The functions of the timers and the stagger engine (Machine/Timers.lean) keep the storage in canonical form.
-/
namespace Sys2Proof.Machine

theorem Hw.Canonical.setTmr {h : Hw} {c : Nat} {x : TmrSt} (hc : h.Canonical) : (h.setTmr c x).Canonical := hc.update rfl

theorem Hw.Canonical.tmrCapture {h : Hw} {c : Nat} {cnt : W32} (hc : h.Canonical) : (tmrCapture h c cnt).Canonical := .sb (.wr (.ite hc.sb hc))

theorem Hw.Canonical.tmrStart {h : Hw} {c : Nat} (hc : h.Canonical) : (tmrStart h c).Canonical := .ite hc.sb hc.wr.wr.sb

theorem Hw.Canonical.tmrStop {h : Hw} {c : Nat} (hc : h.Canonical) : (tmrStop h c).Canonical := .ite hc.wf hc.wf.wf

theorem Hw.Canonical.tmrRelease {h : Hw} {c : Nat} (hc : h.Canonical) : (tmrRelease h c).Canonical := .ite hc.wr.wr.wf.wf.wf.wf hc.wr.wr.wf.wf

theorem Hw.Canonical.tmrRefused {h : Hw} {c : Nat} {w : Who} {v : W32} (hc : h.Canonical) : (tmrRefused h c w v).Canonical := .ite hc.sb hc.sb

theorem Hw.Canonical.tmrClaimWrite {h : Hw} {c : Nat} {w : Who} {v : W32} (hc : h.Canonical) : (tmrClaimWrite h c w v).Canonical := by
  unfold Machine.tmrClaimWrite
  refine .ite (.ite hc hc.tmrRefused) ?_
  extract_lets
  split
  next h1 _ he =>
    have hc1 : h1.Canonical := .of_eq_fst he hc.claimWrite
    split
    · exact hc1.tmrRefused
    · exact hc1.tmrRelease
    · exact hc1

theorem Hw.Canonical.tmrConv {h : Hw} {c : Nat} (hc : h.Canonical) : (tmrConv h c).Canonical := by
  unfold Machine.tmrConv
  refine .ite hc.sb ?_
  split
  next h1 _ he =>
    have hc1 : h1.Canonical := .of_eq_fst he hc.chainAccept
    exact .ite hc1 hc1.sb

theorem Hw.Canonical.tmrMover {h : Hw} {c : Nat} (hc : h.Canonical) : (tmrMover h c).Canonical := .ite hc.sb (.ite hc.sb hc.setTmr.mIssue)

theorem Hw.Canonical.tmrActs {h : Hw} {c acts lop lch : Nat} (hc : h.Canonical) : (tmrActs h c acts lop lch).Canonical := by
  unfold Machine.tmrActs
  extract_lets h1 h2 h3
  have ch1 : h1.Canonical := .ite hc.irqFire hc
  have ch2 : h2.Canonical := .ite ch1.tmrConv ch1
  have ch3 : h3.Canonical := .ite ch2.tmrMover ch2
  exact .ite (ch3.update rfl) ch3

theorem Hw.Canonical.capOn {h0 h : Hw} {sel : Nat} (hc : h.Canonical) : (capOn h0 h sel).Canonical :=
  .forEach (fun _ _ hc2 => .ite hc2.tmrCapture hc2) hc

theorem Hw.Canonical.tmrOut {h : Hw} {c : Nat} {m wrap : Bool} (hc : h.Canonical) : (tmrOut h c m wrap).Canonical := hc.wf

theorem Hw.Canonical.tmrTickAt {h0 h : Hw} {c : Nat} (hc : h.Canonical) : (tmrTickAt h0 h c).Canonical := by
  unfold Machine.tmrTickAt
  refine .ite ?_ (.ite hc.wf hc)
  extract_lets _ _ _ h1 h2 h3
  have ch1 : h1.Canonical := .ite hc.tmrActs.capOn hc
  have ch2 : h2.Canonical := ch1.tmrActs
  have ch3 : h3.Canonical := .ite ch2.wr.wr ch1.wr
  exact .ite ch3.tmrOut.tmrStop ch3.tmrOut

theorem Hw.Canonical.tmrTick {h : Hw} {c : Nat} (hc : h.Canonical) : (tmrTick h c).Canonical := hc.tmrTickAt

theorem Hw.Canonical.timerMatch {c : Nat} {h : Hw} (hc : h.Canonical) : (timerMatch c h).Canonical := .ite hc.tmrTick hc

theorem Hw.Canonical.timerWrap {c : Nat} {h : Hw} (hc : h.Canonical) : (timerWrap c h).Canonical := .ite hc.tmrTick hc

theorem Hw.Canonical.timerMoverResponse {c : Nat} {err : Bool} {h : Hw} (hc : h.Canonical) : (timerMoverResponse c err h).Canonical :=
  .ite (.ite hc.setTmr.sb hc.setTmr) hc

theorem Hw.Canonical.tmrLinkOp {h : Hw} {op c : Nat} (hc : h.Canonical) : (tmrLinkOp h op c).Canonical := by
  unfold Machine.tmrLinkOp
  refine .ite hc ?_
  split
  · exact hc.tmrStart
  · exact hc.tmrStop
  · exact hc.tmrCapture
  · exact hc

theorem Hw.Canonical.timerLinkOperation {h : Hw} (hc : h.Canonical) : (timerLinkOperation h).Canonical := by
  unfold Machine.timerLinkOperation
  split
  · exact hc
  · exact .tmrLinkOp (hc.update rfl)

theorem Hw.Canonical.timerCapture {c levels : Nat} {h : Hw} (hc : h.Canonical) : (timerCapture c levels h).Canonical := by
  unfold Machine.timerCapture
  extract_lets _ h1
  have ch1 : h1.Canonical := .foldl (fun _ _ hc1 => .ite hc1.capOn (.ite hc1.capOn hc1)) (hc.update rfl)
  exact .ite ch1.timerMatch ch1

theorem Hw.Canonical.tmrCapRead {c : Nat} {capture : Bool} {h : Hw} (hc : h.Canonical) : (tmrCapRead c capture h).Canonical :=
  .ite hc (.ite (.tmrCapture (hc.update rfl)) (.wf (hc.update rfl)))

theorem Hw.Canonical.tmrCmdWrite {h : Hw} {c : Nat} {w : Who} {v : W32} (hc : h.Canonical) : (tmrCmdWrite h c w v).Canonical :=
  .ite hc (.ite hc.sb (.ite hc (.ite hc.tmrStart (.ite hc.tmrStop hc))))

theorem Hw.Canonical.tmrCtlSet {h : Hw} {c : Nat} {v : W32} (hc : h.Canonical) : (tmrCtlSet h c v).Canonical := .ite hc.wr.wf hc.wr

theorem Hw.Canonical.tmrRegWrite {h : Hw} {c off : Nat} {w : Who} {v : W32} (hc : h.Canonical) : (tmrRegWrite h c off w v).Canonical :=
  .ite hc.tmrClaimWrite (.ite hc.tmrCmdWrite (.ite hc (.ite hc.sb (.ite hc.sb (.ite hc.tmrCtlSet (.ite hc.wr (.ite hc.wr (.ite hc.wr (.ite hc.wr hc)))))))))

theorem Hw.Canonical.staggerGo {w : Who} {v : W32} {h : Hw} (hc : h.Canonical) : (staggerGo w v h).Canonical :=
  .ite hc.wr (.ite hc.wr.sb (.forEach (fun _ _ hc1 => hc1.wr.wr.wr.sb) hc.wr))

theorem Hw.Canonical.tbLoRead {w : Who} {h : Hw} (hc : h.Canonical) : (tbLoRead w h).Canonical := hc.update rfl

theorem Hw.Canonical.wdtStage {h : Hw} {stage : Nat} (hc : h.Canonical) : (wdtStage h stage).Canonical := hc.wf.wr.update rfl

theorem Hw.Canonical.wdtStage1Act {h : Hw} (hc : h.Canonical) : (wdtStage1Act h).Canonical := hc.sb.irqFire.wdtStage

theorem Hw.Canonical.wdtStage2Act {h : Hw} (hc : h.Canonical) : (wdtStage2Act h).Canonical := hc.wf.sb

theorem Hw.Canonical.watchdogStage1Expire {h : Hw} (hc : h.Canonical) : (watchdogStage1Expire h).Canonical := .ite (.ite hc.sb.wr hc.wdtStage1Act) hc

theorem Hw.Canonical.watchdogStage2Expire {h : Hw} (hc : h.Canonical) : (watchdogStage2Expire h).Canonical := .ite (.ite hc.sb.wr hc.wdtStage2Act) hc

theorem Hw.Canonical.watchdogHaltRelease {h : Hw} (hc : h.Canonical) : (watchdogHaltRelease h).Canonical := .ite (.ite hc.wf.wdtStage1Act hc.wf.wdtStage2Act) hc

theorem Hw.Canonical.wdtService {h : Hw} (hc : h.Canonical) : (wdtService h).Canonical := .ite hc (.ite hc.wdtStage.wf.sb.tmrStart hc.wdtStage.wf)

theorem Hw.Canonical.wdtSvc {w : Who} {v : W32} {h : Hw} (hc : h.Canonical) : (wdtSvc w v h).Canonical := .ite hc.sb (.ite hc.sb.irqFire.wf.wdtStage hc.wdtService)

theorem Hw.Canonical.wdtCtlWrite {h : Hw} {w : Who} {v : W32} (hc : h.Canonical) : (wdtCtlWrite h w v).Canonical :=
  .ite hc (.ite hc.sb (.ite (.wdtStage (.wf (.wf (.wf (.ite hc.sb hc))))) (.wf (.wf (.wf (.ite hc.sb hc))))))

theorem Hw.Canonical.wdtWinWrite {w : Who} {v : W32} {h : Hw} (hc : h.Canonical) : (wdtWinWrite w v h).Canonical := hc.wdtCtlWrite

theorem Hw.Canonical.wdtTick {h : Hw} (hc : h.Canonical) : (wdtTick h).Canonical := .ite hc.wr hc

theorem Hw.Canonical.tmrsTick {h : Hw} (hc : h.Canonical) : (tmrsTick h).Canonical := by
  unfold Machine.tmrsTick
  extract_lets _ h1
  have ch1 : h1.Canonical := .foldl (fun _ _ hc1 => hc1.tmrLinkOp) (hc.update rfl)
  exact .forEach (fun _ _ hc1 => .ite hc1 hc1.tmrTickAt) ch1

theorem Hw.Canonical.ckaTick {h : Hw} (hc : h.Canonical) : (ckaTick h).Canonical := by
  unfold Machine.ckaTick
  extract_lets h1 h2
  have ch1 : h1.Canonical := hc.tmrsTick.wdtTick
  exact .foldl (fun _ _ hc1 => hc1.chainsAdvance.svcAdvance) (.testTick (.foldl (fun _ _ hc1 => hc1.marchTick) (ch1.update rfl)))

end Sys2Proof.Machine
end

section
/-!
SUPPORT. The functions of the fronds (Machine/Frond.lean) keep the storage in canonical form.
-/
namespace Sys2Proof.Machine

theorem Hw.Canonical.countFetch {h : Hw} {f : Nat} {as : List Nat} (hc : h.Canonical) : (countFetch h f as).Canonical := hc.addWrap.addWrap

theorem Hw.Canonical.countAhead {h : Hw} {f : Nat} {path : List Nat} {e : FetchEnv} (hc : h.Canonical) : (countAhead h f path e).Canonical := hc.countFetch.addSat

theorem Hw.Canonical.frondLockup {h : Hw} {f why idx pc : Nat} (hc : h.Canonical) : (frondLockup h f why idx pc).Canonical :=
  .ite hc.setFrond.wr.wr.wf.sb hc.setFrond.wr.wr.wf

theorem Hw.Canonical.debugHaltNow {h : Hw} {f : Nat} (hc : h.Canonical) : (debugHaltNow h f).Canonical := .ite hc.setFrond.sb hc.setFrond

theorem Hw.Canonical.stepEnd {h : Hw} {f : Nat} (hc : h.Canonical) : (stepEnd h f).Canonical := .ite hc (.ite hc.setFrond.sb (.ite hc (.ite hc.debugHaltNow hc)))

theorem Hw.Canonical.faultEnter {h0 : Hw} {f idx : Nat} (hc : h0.Canonical) : (faultEnter h0 f idx).Canonical := by
  unfold Machine.faultEnter
  extract_lets _ _ h
  have ch : h.Canonical := hc.setFrond
  exact .ite ch.frondLockup (.ite ch.frondLockup (.ite ch.setFrond.frondLockup
    (.ite ch.setFrond.addSat.addSat.wr.setFrond.debugHaltNow ch.setFrond.addSat.addSat.wr.setFrond)))

theorem Hw.Canonical.faultTake {h : Hw} {f idx : Nat} (hc : h.Canonical) : (faultTake h f idx).Canonical :=
  .faultEnter (.ite (.setFrond (.ite hc.wr hc)) (.ite (.setFrond (.ite hc.wr hc)) (.ite hc.wr hc)))

theorem Hw.Canonical.setMbxTo {h : Hw} {r : Nat} {w : World} {q : List W64} (hc : h.Canonical) : (setMbxTo h r w q).Canonical := .ite (hc.update rfl) (hc.update rfl)

theorem Hw.Canonical.portReadEffect {h : Hw} {f p : Nat} (hc : h.Canonical) : (portReadEffect h f p).Canonical :=
  .ite hc.setFrond (.ite hc.setFrond (.ite (hc.update rfl) (.ite (.forEach (fun _ _ hc1 => hc1.mgmtFill) (hc.update rfl)) (.ite (hc.update rfl) (.ite
    (hc.update rfl) (.ite hc.setMbxTo (.ite hc.setFrond hc)))))))

theorem Hw.Canonical.portWrite {h : Hw} {f p : Nat} {v : W64} (hc : h.Canonical) : (portWrite h f p v).Canonical :=
  .ite hc.setFrond (.ite hc.setFrond (.ite hc.setFrond (.ite hc.setFrond (.ite hc.setFrond (.ite hc.setFrond (.ite hc.setFrond (.ite hc.setFrond (.ite hc.setFrond
    (.ite hc.setFrond (.ite hc.setFrond (.ite hc.setFrond (.ite hc.setFrond (.ite hc.setFrond (.ite hc.setFrond (.ite hc.setFrond (.ite hc.setFrond
    (.ite hc.setFrond (.ite hc.setFrond (.ite hc.setFrond (.ite hc.setFrond (.ite hc.setFrond (.ite (.ite hc.setMbxTo hc.setFrond) (.ite hc.stimEmit
    (.ite hc.setFrond hc))))))))))))))))))))))))

theorem Hw.Canonical.fpuFire {h : Hw} {f k : Nat} {v : W64} (hc : h.Canonical) : (fpuFire h f k v).Canonical := by
  unfold Machine.fpuFire
  extract_lets
  split
  exact hc.setFrond

theorem Hw.Canonical.lsuPump {h : Hw} {f : Nat} (hc : h.Canonical) : (lsuPump h f).Canonical := by
  unfold Machine.lsuPump
  refine .ite ?_ ?_
  · split
    · exact .ite hc hc.mRegion
    · exact hc
  · split
    · exact .ite hc hc.mRegion
    · exact hc

theorem Hw.Canonical.lsuLoad {h : Hw} {f size : Nat} {v : W64} (hc : h.Canonical) : (lsuLoad h f size v).Canonical := hc.setFrond.lsuPump

theorem Hw.Canonical.lsuStore {h : Hw} {f size : Nat} {v : W64} (hc : h.Canonical) : (lsuStore h f size v).Canonical := hc.setFrond.lsuPump

theorem Hw.Canonical.lsuLockOp {h : Hw} {f : Nat} {v : W64} (hc : h.Canonical) : (lsuLockOp h f v).Canonical := by
  unfold Machine.lsuLockOp
  extract_lets
  split
  · exact .ite hc.setFrond hc.setFrond
  · exact hc.setFrond

theorem Hw.Canonical.lsuUnlockOp {h : Hw} {f : Nat} (hc : h.Canonical) : (lsuUnlockOp h f).Canonical := hc.setFrond

theorem Hw.Canonical.eoiOp {h : Hw} {f : Nat} (hc : h.Canonical) : (eoiOp h f).Canonical := by
  unfold Machine.eoiOp
  split
  · exact hc.setFrond.irqComplete
  · exact hc

theorem Hw.Canonical.portFire {h : Hw} {f p : Nat} {v : W64} (hc : h.Canonical) : (portFire h f p v).Canonical := by
  unfold Machine.portFire
  refine .ite ?_ (.ite ?_ (.ite ?_ (.ite hc.fpuFire (.ite hc.lsuLoad (.ite hc.lsuLoad (.ite hc.lsuStore (.ite hc.lsuStore (.ite hc.lsuLockOp (.ite hc.lsuUnlockOp
    (.ite hc.chainTrigger (.ite hc.xltInvOp (.ite hc.xltPrbOp (.ite hc.eoiOp (.ite hc.setFrond hc))))))))))))))
  · split
    exact hc.setFrond
  · split
    exact hc.setFrond
  · split
    exact hc.setFrond

theorem Hw.Canonical.transport {h : Hw} {f : Nat} {ms : List Move} (hc : h.Canonical) : (transport h f ms).Canonical := by
  unfold Machine.transport
  extract_lets _ _ _ h1 h2 h3
  have ch1 : h1.Canonical := .foldl (fun _ _ hc1 => hc1.portReadEffect) hc
  have ch2 : h2.Canonical := .foldl (fun _ _ hc1 => .ite hc1 hc1.portWrite) ch1
  have ch3 : h3.Canonical := .foldl (fun _ _ hc1 => .ite hc1.portFire hc1) ch2
  exact ch3.addSat

theorem Hw.Canonical.gateEnter {h : Hw} {f g : Nat} (hc : h.Canonical) : (gateEnter h f g).Canonical := .ite hc.setFrond.frondLockup hc.setFrond.setFrond.wr

theorem Hw.Canonical.irqTake {h : Hw} {f s : Nat} (hc : h.Canonical) : (irqTake h f s).Canonical :=
  .ite hc.setFrond.frondLockup hc.setFrond.putSrcBit.putSrcBit.setFrond

theorem Hw.Canonical.returnNow {h : Hw} {f : Nat} (hc : h.Canonical) : (returnNow h f).Canonical := by
  unfold Machine.returnNow
  extract_lets
  split
  · exact hc.setFrond.hoffStart.irqTake
  · refine .ite ?_ (.ite hc.setFrond hc.setFrond)
    split
    next h1 he =>
      have hc1 : h1.Canonical := .of_eq_snd he hc.countFetch.fresh
      exact .setFrond (.ite hc1 hc.countFetch)

theorem Hw.Canonical.romLeave {h : Hw} {f a : Nat} (hc : h.Canonical) : (romLeave h f a).Canonical := .ite (.setFrond (hc.update rfl)) hc

theorem Hw.Canonical.retire {h0 : Hw} {f : Nat} {e : FetchEnv} (hc : h0.Canonical) : (retire h0 f e).Canonical := by
  unfold Machine.retire
  extract_lets _ _ _ _ _ _ _ gate _ _ hA hB hC _ _ hE _ x2 _ g _ h1 _ h2 h3
  clear_value gate x2
  have cA : hA.Canonical := .ite hc.countFetch hc
  have cB : hB.Canonical := .ite cA.addSat cA
  have cC : hC.Canonical := .ite cB.countAhead (.ite cB.countAhead (.ite cB.countAhead cB))
  have cE : hE.Canonical := cC.addWrap.setFrond.transport.romLeave
  have cg : g.Canonical := cE.setFrond
  have ch1 : h1.Canonical := by
    unfold h1
    refine .ite cE.setFrond.returnNow ?_
    split
    · exact cE.setFrond
    · split
      · exact cE.setFrond
      · exact .ite cE.setFrond (.ite cE.setFrond (.ite cE.setFrond (.ite (.ite cg cg.setFrond) (.ite cE.setFrond cE.setFrond))))
  have ch2 : h2.Canonical := .ite ch1.setFrond ch1
  have ch3 : h3.Canonical := by
    unfold h3
    split
    · exact ch2.gateEnter
    · exact ch2
  exact ch3.stepEnd

theorem Hw.Canonical.wordAged {h : Hw} {f : Nat} {e : FetchEnv} (hc : h.Canonical) : (wordAged h f e).Canonical := .ite hc hc.setFrond

theorem Hw.Canonical.frondWord {h : Hw} {f : Nat} {e : FetchEnv} (hc : h.Canonical) : (frondWord h f e).Canonical := by
  unfold Machine.frondWord
  refine .ite hc ?_
  extract_lets g
  have cg : g.Canonical := hc.wordAged
  split
  · exact .faultTake (.ite (.addSat (.ite cg.countFetch.countAhead cg)) (.ite cg.countFetch.countAhead cg))
  · exact .ite hc cg.retire

theorem Hw.Canonical.wordOfRow {row f : Nat} {e : FetchEnv} {h : Hw} (hc : h.Canonical) : (wordOfRow row f e h).Canonical := .ite hc.frondWord hc

theorem Hw.Canonical.wordSeq {f : Nat} {e : FetchEnv} {h : Hw} (hc : h.Canonical) : (wordSeq f e h).Canonical := hc.wordOfRow

theorem Hw.Canonical.wordJmp {f : Nat} {e : FetchEnv} {h : Hw} (hc : h.Canonical) : (wordJmp f e h).Canonical := hc.wordOfRow

theorem Hw.Canonical.wordJmpc {f : Nat} {e : FetchEnv} {h : Hw} (hc : h.Canonical) : (wordJmpc f e h).Canonical := hc.wordOfRow

theorem Hw.Canonical.wordMway {f : Nat} {e : FetchEnv} {h : Hw} (hc : h.Canonical) : (wordMway f e h).Canonical := hc.wordOfRow

theorem Hw.Canonical.wordCall {f : Nat} {e : FetchEnv} {h : Hw} (hc : h.Canonical) : (wordCall f e h).Canonical := hc.wordOfRow

theorem Hw.Canonical.wordRet {f : Nat} {e : FetchEnv} {h : Hw} (hc : h.Canonical) : (wordRet f e h).Canonical := hc.wordOfRow

theorem Hw.Canonical.wordRetx {f : Nat} {e : FetchEnv} {h : Hw} (hc : h.Canonical) : (wordRetx f e h).Canonical := hc.wordOfRow

theorem Hw.Canonical.wordWait {f : Nat} {e : FetchEnv} {h : Hw} (hc : h.Canonical) : (wordWait f e h).Canonical := hc.wordOfRow

theorem Hw.Canonical.wordHalt {f : Nat} {e : FetchEnv} {h : Hw} (hc : h.Canonical) : (wordHalt f e h).Canonical := hc.wordOfRow

theorem Hw.Canonical.wordRep {f : Nat} {e : FetchEnv} {h : Hw} (hc : h.Canonical) : (wordRep f e h).Canonical := hc.wordOfRow

theorem Hw.Canonical.wordIter {f : Nat} {e : FetchEnv} {h : Hw} (hc : h.Canonical) : (wordIter f e h).Canonical := hc.wordOfRow

theorem Hw.Canonical.waitWake {f : Nat} {h : Hw} (hc : h.Canonical) : (waitWake f h).Canonical := .ite hc.setFrond.idleLeave hc

theorem Hw.Canonical.interruptEntry {f : Nat} {late : Option Nat} {e : FetchEnv} {h : Hw} (hc : h.Canonical) : (interruptEntry f late e h).Canonical := by
  unfold Machine.interruptEntry
  refine .ite hc ?_
  split
  · exact hc
  · refine .ite hc ?_
    split
    · exact hc.faultTake
    · exact .irqTake (.hoffStart (.setFrond (.ite hc.countFetch.countAhead hc)))

theorem Hw.Canonical.frondMove {h : Hw} {f p : Nat} {v : W64} (hc : h.Canonical) : (frondMove h f p v).Canonical := by
  unfold Machine.frondMove
  refine .ite hc (.ite hc.faultTake (.ite hc.faultTake (.ite hc.faultTake (.ite hc.faultTake (.ite hc (.ite hc.faultTake (.ite hc.faultTake (.ite hc.faultTake
    (.ite hc.faultTake (.ite hc.faultTake ?_))))))))))
  extract_lets h1
  have ch1 : h1.Canonical := hc.setFrond
  exact .ite ch1.gateEnter (.ite (.ite ch1.setFrond ch1) (.ite ch1.portFire (.ite ch1.setFrond ch1.portWrite)))

theorem Hw.Canonical.frondReadPort {h : Hw} {f p : Nat} (hc : h.Canonical) : (frondReadPort h f p).Canonical :=
  .ite hc (.ite hc.faultTake (.ite hc.faultTake (.ite hc.faultTake (.ite hc.faultTake (.ite hc (.ite hc.faultTake (.portReadEffect (hc.update rfl))))))))

theorem Hw.Canonical.fpuResultWrite {f : Nat} {h : Hw} (hc : h.Canonical) : (fpuResultWrite f h).Canonical := by
  unfold Machine.fpuResultWrite
  refine .ite hc ?_
  split
  · exact hc
  · exact hc.setFrond

theorem Hw.Canonical.lsuLockAcquired {f : Nat} {h : Hw} (hc : h.Canonical) : (lsuLockAcquired f h).Canonical := by
  unfold Machine.lsuLockAcquired
  extract_lets
  split
  · exact hc
  · exact .ite hc hc.setFrond

theorem Hw.Canonical.lsuLockBreak {f : Nat} {h : Hw} (hc : h.Canonical) : (lsuLockBreak f h).Canonical := .ite (.stepEnd (.ite hc.setFrond.sb hc.setFrond)) hc

theorem Hw.Canonical.frondTick {h : Hw} {f : Nat} (hc : h.Canonical) : (frondTick h f).Canonical := .ite (.lsuLockBreak (.ite hc.setFrond hc)) (.ite hc.setFrond hc)

theorem Hw.Canonical.frondStart {h : Hw} {f : Nat} (hc : h.Canonical) : (frondStart h f).Canonical := .ite hc.setFrond hc.setFrond

theorem Hw.Canonical.frondClear {h : Hw} {f : Nat} {w : World} {keepStores : Bool} (hc : h.Canonical) : (frondClear h f w keepStores).Canonical :=
  .foldl (fun _ _ hc1 => hc1.irqComplete) (hc.setFrond.wf.update rfl)

theorem Hw.Canonical.frondReset {h : Hw} {f : Nat} {w : World} (hc : h.Canonical) : (frondReset h f w).Canonical := .ite hc.frondClear.frondStart hc.frondClear

end Sys2Proof.Machine
end

section
/-!
SUPPORT. The functions of the claims (Machine/Claims.lean) keep the storage in canonical form.
-/
namespace Sys2Proof.Machine

theorem Hw.Canonical.claimWriteAt {h : Hw} {w : Who} {k : ClaimOf} {v : W32} (hc : h.Canonical) : (claimWriteAt h w k v).Canonical := by
  unfold Machine.claimWriteAt
  split
  · exact hc.irqSclaimWrite
  · exact hc.grpHoldWrite
  · exact hc.tmrClaimWrite
  · exact hc.tsClaimWrite
  · exact hc.ltClaimWrite
  · exact hc.cshClaimWrite

theorem Hw.Canonical.claimDrop {h : Hw} {k : ClaimOf} (hc : h.Canonical) : (claimDrop h k).Canonical := by
  unfold Machine.claimDrop
  extract_lets h1
  have ch1 : h1.Canonical := hc.claimFree
  split
  · exact ch1
  · exact ch1.deferApply
  · exact ch1.tmrRelease
  · exact ch1.tsStop.tsDrop
  · exact ch1.ltFree
  · exact ch1

theorem Hw.Canonical.releaseClaims {h : Hw} {p : Nat → Bool} (hc : h.Canonical) : (releaseClaims h p).Canonical := by
  unfold Machine.releaseClaims
  refine .foldl (fun _ _ hc1 => ?_) hc
  split
  · exact hc1
  · exact .ite hc1.claimDrop hc1

theorem Hw.Canonical.claimReq {w : Who} {a : Nat} {v : W32} {h : Hw} (hc : h.Canonical) : (claimReq w a v h).Canonical := by
  unfold Machine.claimReq
  refine .ite hc ?_
  split
  · exact hc.claimWriteAt
  · exact hc

theorem Hw.Canonical.claimRel {w : Who} {a : Nat} {v : W32} {h : Hw} (hc : h.Canonical) : (claimRel w a v h).Canonical := by
  unfold Machine.claimRel
  refine .ite hc ?_
  split
  · exact hc.claimWriteAt
  · exact hc

end Sys2Proof.Machine
end

section
/-!
SUPPORT. The functions of the debug session (Machine/Session.lean) keep the storage in canonical form.
-/
namespace Sys2Proof.Machine

theorem Hw.Canonical.haltAsk {h : Hw} {f : Nat} (hc : h.Canonical) : (haltAsk h f).Canonical := .ite hc.debugHaltNow (.ite hc hc.setFrond)

theorem Hw.Canonical.frondGo {h : Hw} {f : Nat} {step : Bool} (hc : h.Canonical) : (frondGo h f step).Canonical := .ite hc.sb (.ite hc.setFrond.idleLeave hc)

theorem Hw.Canonical.fctlWrite {h : Hw} {f : Nat} {v : W32} (hc : h.Canonical) : (fctlWrite h f v).Canonical :=
  .ite hc (.ite hc.sb (.ite hc (.ite hc.wr.haltAsk (.ite hc.wr.frondGo (.ite hc.wr.frondGo hc.wr)))))

theorem Hw.Canonical.debugHaltReq {f : Nat} {v : W32} {h : Hw} (hc : h.Canonical) : (debugHaltReq f v h).Canonical := .ite hc.fctlWrite hc

theorem Hw.Canonical.debugResume {f : Nat} {v : W32} {h : Hw} (hc : h.Canonical) : (debugResume f v h).Canonical := .ite hc.fctlWrite hc

theorem Hw.Canonical.debugStep {f : Nat} {v : W32} {h : Hw} (hc : h.Canonical) : (debugStep f v h).Canonical := .ite hc.fctlWrite hc

theorem Hw.Canonical.debugHaltTaken {f : Nat} {h : Hw} (hc : h.Canonical) : (debugHaltTaken f h).Canonical := .ite hc.debugHaltNow hc

theorem Hw.Canonical.fpcWrite {h : Hw} {f : Nat} {v : W32} (hc : h.Canonical) : (fpcWrite h f v).Canonical := .ite hc (.ite hc.setFrond hc)

theorem Hw.Canonical.sessionEnd {h : Hw} {setSend : Bool} (hc : h.Canonical) : (sessionEnd h setSend).Canonical := by
  unfold Machine.sessionEnd
  refine .ite hc ?_
  extract_lets h1 h2
  have ch1 : h1.Canonical := .wf (.ite hc.sb hc)
  have ch2 : h2.Canonical := ch1.releaseClaims
  exact .forEach (fun _ _ hc1 => hc1.setFrond.wf) (ch2.update rfl)

theorem Hw.Canonical.chalDo {h : Hw} (hc : h.Canonical) : (chalDo h).Canonical := by
  unfold Machine.chalDo
  refine .ite hc ?_
  extract_lets h1
  have ch1 : h1.Canonical := .forEach (fun _ _ hc1 => hc1.wr) hc
  exact .wf (ch1.update rfl)

theorem Hw.Canonical.goDo {h : Hw} {level : Nat} (hc : h.Canonical) : (goDo h level).Canonical := .ite hc (hc.wf.update rfl)

theorem Hw.Canonical.authWrite {h : Hw} {v : W32} (hc : h.Canonical) : (authWrite h v).Canonical := by
  unfold Machine.authWrite
  extract_lets h0 h1 h2
  have ch0 : h0.Canonical := hc.wf
  have ch1 : h1.Canonical := .ite ch0.chalDo ch0
  have ch2 : h2.Canonical := .ite ch1.goDo ch1
  exact .ite ch2.sessionEnd ch2

theorem Hw.Canonical.chal {v : W32} {h : Hw} (hc : h.Canonical) : (chal v h).Canonical := .ite hc.authWrite hc

theorem Hw.Canonical.go {v : W32} {h : Hw} (hc : h.Canonical) : (go v h).Canonical := .ite hc.authWrite hc

theorem Hw.Canonical.close {v : W32} {h : Hw} (hc : h.Canonical) : (close v h).Canonical := .ite hc.authWrite hc

theorem Hw.Canonical.debugVerifyDone {h : Hw} (hc : h.Canonical) : (debugVerifyDone h).Canonical := .ite hc (.ite (hc.wf.wf.update rfl) (hc.wf.sb.sb.update rfl))

theorem Hw.Canonical.debugIdleTimeout {h : Hw} (hc : h.Canonical) : (debugIdleTimeout h).Canonical := .ite hc.sessionEnd hc

theorem Hw.Canonical.holdEnd {h : Hw} (hc : h.Canonical) : (holdEnd h).Canonical := by
  unfold Machine.holdEnd
  split
  · exact .ite (hc.wf.update rfl) hc
  · exact hc

theorem Hw.Canonical.bootxWrite {h : Hw} {w : Who} (hc : h.Canonical) : (bootxWrite h w).Canonical := .ite hc (hc.wf.wf.wr.update rfl)

theorem Hw.Canonical.bootx {w : Who} {h : Hw} (hc : h.Canonical) : (bootx w h).Canonical := hc.bootxWrite

end Sys2Proof.Machine
end

section
/-!
SUPPORT. The functions of the maintenance unit (Machine/Lichen.lean) keep the storage in canonical form.
-/
namespace Sys2Proof.Machine

theorem Hw.Canonical.lchEnd {h : Hw} {last : Nat} (hc : h.Canonical) : (lchEnd h last).Canonical := hc.wf.wf.sb.update rfl

theorem Hw.Canonical.lchCmdWrite {h : Hw} {w : Who} {v : W32} (hc : h.Canonical) : (lchCmdWrite h w v).Canonical := by
  unfold Machine.lchCmdWrite
  refine .ite hc.sb ?_
  extract_lets _ h1
  have ch1 : h1.Canonical := by
    refine .ite (.ite ?_ hc.sb) hc
    split
    next h11 he =>
      have hc1 : h11.Canonical := .of_eq_snd he hc.fresh
      split
      next h12 he1 =>
        have hc2 : h12.Canonical := .of_eq_snd he1 hc1.fresh
        exact hc2.wr.wf.wf.update rfl
  exact .ite ch1.lchEnd ch1

theorem Hw.Canonical.propose {w : Who} {v : W32} {h : Hw} (hc : h.Canonical) : (propose w v h).Canonical := hc.lchCmdWrite

theorem Hw.Canonical.withdraw {w : Who} {v : W32} {h : Hw} (hc : h.Canonical) : (withdraw w v h).Canonical := hc.lchCmdWrite

theorem Hw.Canonical.lichenHashDone {h : Hw} (hc : h.Canonical) : (lichenHashDone h).Canonical := by
  unfold Machine.lichenHashDone
  refine .ite hc ?_
  extract_lets _ h1 h2
  have ch1 : h1.Canonical := .forEach (fun _ _ hc1 => hc1.wr) hc
  have ch2 : h2.Canonical := .forEach (fun _ _ hc1 => hc1.wr) ch1
  clear_value h2
  exact ch2.wf.update rfl

theorem Hw.Canonical.lchFail {h : Hw} {agent code : Nat} (hc : h.Canonical) : (lchFail h agent code).Canonical := hc.wf.wf.addSat.sb

theorem Hw.Canonical.lchHgo {w : Who} {v : W32} {h : Hw} (hc : h.Canonical) : (lchHgo w v h).Canonical :=
  .ite hc (.ite hc.lchFail (.ite hc.lchFail (.ite hc.lchFail hc.wf)))

theorem Hw.Canonical.lchDgo {w : Who} {v : W32} {h : Hw} (hc : h.Canonical) : (lchDgo w v h).Canonical :=
  .ite hc (.ite hc.lchFail (.ite hc.lchFail (.ite hc.lchFail hc.wf)))

theorem Hw.Canonical.lichenVerifyDone {h : Hw} (hc : h.Canonical) : (lichenVerifyDone h).Canonical := .ite hc (.ite hc.wf (.ite hc.lchFail.lchEnd hc.lchFail.wf))

theorem Hw.Canonical.lichenWindowExpire {h : Hw} (hc : h.Canonical) : (lichenWindowExpire h).Canonical := .ite hc (.ite hc.lchEnd (hc.update rfl))

theorem Hw.Canonical.lchWrite {h : Hw} {item idx : Nat} {vals : List Nat} (hc : h.Canonical) : (lchWrite h item idx vals).Canonical := by
  unfold Machine.lchWrite
  extract_lets
  split
  · exact .forEach (fun _ _ hc1 => hc1.wr.wr) hc
  · exact hc.frondReset
  · exact hc.wr.wr
  · exact .forEach (fun _ _ hc1 => .ite hc1.wr.wr hc1) hc
  · exact hc.linkRequestDown.wr.update rfl
  · exact hc.wf
  · exact .sessionEnd (hc.sb.update rfl)
  · exact .foldl (fun _ _ hc1 => .forEach (fun _ _ hc2 => hc2.wf) hc1) hc
  · exact hc

theorem Hw.Canonical.lichenApply {h : Hw} (hc : h.Canonical) : (lichenApply h).Canonical := .ite hc (.ite (.lchEnd (.ite hc.sb hc)) hc.lchWrite.addSat.lchEnd)

theorem Hw.Canonical.lchRegWrite {h : Hw} {off : Nat} {w : Who} {v : W32} (hc : h.Canonical) : (lchRegWrite h off w v).Canonical :=
  .ite hc.lchCmdWrite (.ite (.ite hc.sb (.ite hc hc.wr)) (.ite (.ite hc.wr hc) (.ite (.ite hc.wr hc) (.ite (.ite hc.wr hc) (.ite hc.lchHgo (.ite hc.lchDgo (.ite
    (.ite hc.bootxWrite hc) hc)))))))

end Sys2Proof.Machine
end

section
/-!
SUPPORT. The functions of the recovery of a region (Machine/Recovery.lean) keep the storage in canonical form.
-/
namespace Sys2Proof.Machine

theorem Hw.Canonical.setRec {h : Hw} {r : Nat} {x : RecSt} (hc : h.Canonical) : (h.setRec r x).Canonical := hc.update rfl

theorem Hw.Canonical.linkQuiesce {h : Hw} {lk : Nat} (hc : h.Canonical) : (linkQuiesce h lk).Canonical := .ite hc.setLink.linkSetState hc.setLink

theorem Hw.Canonical.recoveryStart {h : Hw} {r cause : Nat} (hc : h.Canonical) : (recoveryStart h r cause).Canonical := by
  unfold Machine.recoveryStart
  extract_lets h1 h2 h3
  have ch1 : h1.Canonical := hc.wf.wf.addSat
  have ch2 : h2.Canonical := ch1.wf.wr.sb
  have ch3 : h3.Canonical := .foldl (fun _ _ hc1 => hc1.setFrond) ch2
  exact .foldl (fun _ _ hc1 => hc1.linkQuiesce) ch3.setRec

theorem Hw.Canonical.recoveryTrigger {h : Hw} {r cause cls unit addr : Nat} (hc : h.Canonical) : (recoveryTrigger h r cause cls unit addr).Canonical :=
  .ite hc (.ite hc.rgnLog (.ite hc.rgnLog.recoveryStart (.ite hc hc.rgnLog.setRec)))

theorem Hw.Canonical.recover {w : Who} {r : Nat} {v : W32} {h : Hw} (hc : h.Canonical) : (recover w r v h).Canonical := .ite hc (.ite hc.sb hc.recoveryTrigger)

theorem Hw.Canonical.regionRecoveryStart {r : Nat} {h : Hw} (hc : h.Canonical) : (regionRecoveryStart r h).Canonical :=
  .ite hc (.ite hc.recoveryStart (.ite hc.recoveryTrigger hc))

theorem Hw.Canonical.controlParityError {r unit addr : Nat} {h : Hw} (hc : h.Canonical) : (controlParityError r unit addr h).Canonical :=
  .ite hc (.ite hc.setXlt.addSat (.ite hc.setChain.addSat (.ite hc.setXlt.addSat (.ite hc.setXlt.addSat hc.recoveryTrigger))))

theorem Hw.Canonical.streamProtocolError {r unit addr : Nat} {h : Hw} (hc : h.Canonical) :
    (streamProtocolError r unit addr h).Canonical := .ite hc.recoveryTrigger hc

theorem Hw.Canonical.chainDiscard {g h : Hw} {ch : Nat} (hc : h.Canonical) : (chainDiscard g h ch).Canonical := by
  unfold Machine.chainDiscard
  extract_lets _ _ h1
  have ch1 : h1.Canonical := hc.setChain
  refine .foldl (fun _ _ hc2 => ?_) ch1
  split
  · exact hc2.execLeave
  · exact hc2

theorem Hw.Canonical.svcDiscard {h : Hw} {r : Nat} {x : Nat × Nat × Nat} (hc : h.Canonical) : (svcDiscard h r x).Canonical := by
  unfold Machine.svcDiscard
  split
  exact hc.queueEnded

theorem Hw.Canonical.discardAll {h : Hw} {r : Nat} (hc : h.Canonical) : (discardAll h r).Canonical := by
  unfold Machine.discardAll
  extract_lets _ h0 h1 h2 h3 h4
  have ch0 : h0.Canonical := .ite (.foldl (fun _ _ hc1 => hc1.setQueue) hc) hc
  have ch1 : h1.Canonical := .forEach (fun _ _ hc1 => hc1.chainDiscard) ch0
  have ch2 : h2.Canonical := .foldl (fun _ _ hc1 => hc1.svcDiscard) ch1
  have ch3 : h3.Canonical := ch2.update rfl
  have ch4 : h4.Canonical := .foldl (fun _ _ hc1 => .ite hc1.rqStop.rqClose hc1) ch3
  exact .foldl (fun _ _ hc1 => hc1.queueTidy) ch4

theorem Hw.Canonical.quiesceDrainDone {r : Nat} {h : Hw} (hc : h.Canonical) : (quiesceDrainDone r h).Canonical := .ite hc.wr.wf.discardAll hc

theorem Hw.Canonical.rbufClear {h : Hw} {lk : Nat} (hc : h.Canonical) : (rbufClear h lk).Canonical := .foldl (fun _ _ hc1 => hc1.rbufFree) hc

theorem Hw.Canonical.cxStrand {h : Hw} {n : Nat} (hc : h.Canonical) : (cxStrand h n).Canonical := .ite hc.cxLast.cxHalted hc

theorem Hw.Canonical.regionReset {h : Hw} {r : Nat} (hc : h.Canonical) : (regionReset h r).Canonical := by
  unfold Machine.regionReset
  extract_lets h1 h2 h3 h4 h5
  have ch1 : h1.Canonical := .xltClear (hc.update rfl)
  have ch2 : h2.Canonical := ch1.resetRegs
  have ch3 : h3.Canonical := .foldl (fun _ _ hc => hc.frondClear) ch2
  have ch4 : h4.Canonical := .foldl (fun _ _ hc => hc.rbufClear.setLink) ch3
  have ch5 : h5.Canonical := .foldl (fun _ _ hc => .ite hc.cxStrand hc) ch4.releaseClaims
  clear_value h5
  exact ch5.update rfl

theorem Hw.Canonical.regionHalt {h : Hw} {r : Nat} (hc : h.Canonical) : (regionHalt h r).Canonical := .ite hc.wf.wf hc.wf.wf.wf

theorem Hw.Canonical.discardDone {r : Nat} {h : Hw} (hc : h.Canonical) : (discardDone r h).Canonical := .ite hc.wf.setRec.regionReset hc

theorem Hw.Canonical.linkRejoin {new : Nat} {h : Hw} {lk : Nat} (hc : h.Canonical) : (linkRejoin new h lk).Canonical := by
  unfold Machine.linkRejoin
  refine .ite ?_ hc
  extract_lets _ h1 h2
  have ch1 : h1.Canonical := hc.wf.setLink
  have ch2 : h2.Canonical := .ite ch1.linkSetState ch1
  exact .ite ch2.sendWanted ch2

theorem Hw.Canonical.rejoin {r : Nat} {h : Hw} (hc : h.Canonical) : (rejoin r h).Canonical := by
  unfold Machine.rejoin
  refine .ite hc (.ite (.regionHalt (.foldl (fun _ _ hc1 => hc1.linkRequestDown) hc)) ?_)
  extract_lets _ h1 h2 h3
  have ch1 : h1.Canonical := hc.wf.wf.sb
  have ch2 : h2.Canonical := .foldl (fun _ _ hc1 => hc1.linkRejoin) ch1
  have ch3 : h3.Canonical := .foldl (fun _ _ hc1 => .ite hc1.frondStart hc1) ch2
  exact .ite ch3 ch3.wf

theorem Hw.Canonical.drainTimeout {r : Nat} {h : Hw} (hc : h.Canonical) : (drainTimeout r h).Canonical := by
  unfold Machine.drainTimeout
  refine .ite hc (.ite hc.quiesceDrainDone ?_)
  extract_lets _ h1 h2 h4
  have ch1 : h1.Canonical := hc.wr.sb
  have ch2 : h2.Canonical := ch1.update rfl
  have ch4 : h4.Canonical := .foldl (fun _ _ hc1 => hc1.linkGoDown) ch2.wf.regionReset
  exact ch4.regionHalt.sb.meuLog

theorem Hw.Canonical.knFatal {h : Hw} (hc : h.Canonical) : (knFatal h).Canonical := .ite hc.sb.meuLog hc

theorem Hw.Canonical.fatalRecovery {h : Hw} (hc : h.Canonical) : (fatalRecovery h).Canonical :=
  .ite hc (.forEach (fun _ _ hc1 => .ite hc1.rgnLog.setRec (.ite hc1.recoveryStart (.ite hc1.setRec hc1))) hc.sb)

theorem Hw.Canonical.rgnLogTake {r : Nat} {h : Hw} (hc : h.Canonical) : (rgnLogTake r h).2.Canonical := by
  unfold Machine.rgnLogTake
  split
  · exact hc
  · exact .wr (hc.update rfl)

theorem Hw.Canonical.meuLogTake {h : Hw} (hc : h.Canonical) : (meuLogTake h).2.Canonical := by
  unfold Machine.meuLogTake
  split
  · exact hc
  · exact .wr (hc.update rfl)

end Sys2Proof.Machine
end

section
/-!
SUPPORT. The functions of the power states (Machine/Power.lean) keep the storage in canonical form.
-/
namespace Sys2Proof.Machine

theorem Hw.Canonical.setPw {h : Hw} {r : Nat} {x : PwrRgn} (hc : h.Canonical) : (h.setPw r x).Canonical := hc.update rfl

theorem Hw.Canonical.pwrTo {h : Hw} {r st : Nat} (hc : h.Canonical) : (pwrTo h r st).Canonical := hc.wf

theorem Hw.Canonical.pwrAccept {h : Hw} {r tgt : Nat} (hc : h.Canonical) : (pwrAccept h r tgt).Canonical := hc.pwrTo.wf.setPw

theorem Hw.Canonical.pwrRequest {h : Hw} {r tgt : Nat} (hc : h.Canonical) : (pwrRequest h r tgt).Canonical := .ite hc.sb (.ite hc.setPw hc.pwrAccept)

theorem Hw.Canonical.pwrWakeCmd {h : Hw} {r : Nat} (hc : h.Canonical) : (pwrWakeCmd h r).Canonical := .ite hc.sb hc.wakeEvent

theorem Hw.Canonical.pwrCtlWrite {h : Hw} {r : Nat} {w : Who} {v : W32} (hc : h.Canonical) : (pwrCtlWrite h r w v).Canonical :=
  .ite hc (.ite hc.wr.pwrRequest (.ite hc.wr.pwrRequest (.ite hc.wr.pwrWakeCmd hc.wr)))

theorem Hw.Canonical.pwrSleep {w : Who} {r : Nat} {v : W32} {h : Hw} (hc : h.Canonical) : (pwrSleep w r v h).Canonical := .ite hc.pwrCtlWrite hc

theorem Hw.Canonical.pwrOff {w : Who} {r : Nat} {v : W32} {h : Hw} (hc : h.Canonical) : (pwrOff w r v h).Canonical := .ite hc.pwrCtlWrite hc

theorem Hw.Canonical.pwrWake {w : Who} {r : Nat} {v : W32} {h : Hw} (hc : h.Canonical) : (pwrWake w r v h).Canonical := .ite hc.pwrCtlWrite hc

theorem Hw.Canonical.enterBegin {h : Hw} {r : Nat} (hc : h.Canonical) : (enterBegin h r).Canonical := .foldl (fun _ _ hc1 => hc1.linkRequestDown) hc.setPw

theorem Hw.Canonical.enterConditionsMet {r : Nat} {h : Hw} (hc : h.Canonical) : (enterConditionsMet r h).Canonical := by
  unfold Machine.enterConditionsMet
  split
  · exact .ite hc (.ite hc.pwrAccept.enterBegin hc.pwrAccept)
  · exact .ite hc.enterBegin hc

theorem Hw.Canonical.enterRefuse {h : Hw} {r : Nat} (hc : h.Canonical) : (enterRefuse h r).Canonical := hc.pwrTo.wf.sb.setPw

theorem Hw.Canonical.enterDrain {r : Nat} {h : Hw} (hc : h.Canonical) : (enterDrain r h).Canonical := .ite (.ite hc.enterRefuse hc.xltClear.setPw) hc

theorem Hw.Canonical.enterTimeout {r : Nat} {h : Hw} (hc : h.Canonical) : (enterTimeout r h).Canonical := .ite hc.enterRefuse hc.enterDrain

theorem Hw.Canonical.arraysOff {h : Hw} {r : Nat} (hc : h.Canonical) : (arraysOff h r).Canonical := by
  obtain ⟨hmem, hscratch, hregs⟩ := hc
  unfold Machine.arraysOff
  extract_lets mine h1
  have ch1 : h1.Canonical := ⟨kvKeep_wf _ (fun a => !mine a) hmem, hscratch, hregs⟩
  exact ch1.setMat.resetRegs

theorem Hw.Canonical.sleepCommit {r : Nat} {h0 : Hw} (hc : h0.Canonical) : (sleepCommit r h0).Canonical :=
  .ite (.setPw (.wf (.sb (.wf (.wf (.pwrTo (.ite hc.enterDrain.arraysOff hc.enterDrain))))))) hc.enterDrain

theorem Hw.Canonical.wakeBegin {h : Hw} {r cause : Nat} (hc : h.Canonical) : (wakeBegin h r cause).Canonical := hc.pwrTo.wf.wf.wf.setPw

theorem Hw.Canonical.wakeStart {r : Nat} {h : Hw} (hc : h.Canonical) : (wakeStart r h).Canonical := by
  unfold Machine.wakeStart
  split
  · exact .ite hc.wakeBegin hc
  · exact hc

theorem Hw.Canonical.pwrAckSeen {h : Hw} {r : Nat} (hc : h.Canonical) : (pwrAckSeen h r).Canonical := .ite hc (.ite hc.sb (.setPw (.ite hc.sb.sb hc.sb)))

theorem Hw.Canonical.pwrAckFall {r : Nat} {h : Hw} (hc : h.Canonical) : (pwrAckFall r h).Canonical := .ite hc.wf hc

theorem Hw.Canonical.clearBegin {r : Nat} {h : Hw} (hc : h.Canonical) : (clearBegin r h).Canonical := .ite hc.pwrTo hc

theorem Hw.Canonical.powerupClearDone {r : Nat} {h0 : Hw} (hc : h0.Canonical) : (powerupClearDone r h0).Canonical := .ite hc.clearBegin.pwrTo.setPw hc.clearBegin

theorem Hw.Canonical.wakeDone {h : Hw} {r : Nat} (hc : h.Canonical) : (wakeDone h r).Canonical := hc.pwrTo.sb.wf.setPw

theorem Hw.Canonical.wakeAckTimeout {r : Nat} {h : Hw} (hc : h.Canonical) : (wakeAckTimeout r h).Canonical := .ite hc.pwrTo.wf.sb hc

theorem Hw.Canonical.idleEntry {r : Nat} {h : Hw} (hc : h.Canonical) : (idleEntry r h).Canonical := .ite hc.pwrTo.setPw hc

theorem Hw.Canonical.stillTick {h : Hw} {r : Nat} (hc : h.Canonical) : (stillTick h r).Canonical := .ite hc hc.setPw

theorem Hw.Canonical.idleExit {r : Nat} {h : Hw} (hc : h.Canonical) : (idleExit r h).Canonical := .ite hc.idleLeave hc

theorem Hw.Canonical.sensorSample {r : Nat} {v : W32} {h : Hw} (hc : h.Canonical) : (sensorSample r v h).Canonical := .ite hc.wr (.ite (.ite hc.wr.wf hc.wr) hc)

theorem Hw.Canonical.sensorFlags {h : Hw} {r : Nat} (hc : h.Canonical) : (sensorFlags h r).Canonical := by
  unfold Machine.sensorFlags
  refine .ite hc ?_
  extract_lets _ _ h1
  have ch1 : h1.Canonical := .ite (.ite hc.wf hc.wf.addSat) hc
  exact .ite (.ite ch1.wf ch1.wf.addSat) ch1

theorem Hw.Canonical.wearBeat {close : Bool} {h : Hw} {r : Nat} (hc : h.Canonical) : (wearBeat close h r).Canonical := by
  unfold Machine.wearBeat
  split
  exact .ite (hc.wr.wr.update rfl) (hc.update rfl)

theorem Hw.Canonical.wearUpdate {h : Hw} (hc : h.Canonical) : (wearUpdate h).Canonical := by
  unfold Machine.wearUpdate
  extract_lets _ h1
  have ch1 : h1.Canonical := .forEach (fun _ _ hc1 => hc1.wearBeat) hc
  exact ch1.update rfl

theorem Hw.Canonical.wrStatWrite {h : Hw} {w : Who} {v : W32} (hc : h.Canonical) : (wrStatWrite h w v).Canonical := .ite hc.wr hc

end Sys2Proof.Machine
end

section
/-!
SUPPORT. The functions of the register accesses (Machine/Regs.lean) keep the storage in canonical form.
-/
namespace Sys2Proof.Machine

theorem Hw.Canonical.readEffect {h : Hw} {w : Who} {a : Nat} {sets : W32} (hc : h.Canonical) : (readEffect h w a sets).Canonical := by
  unfold Machine.readEffect
  split
  · exact hc
  · split
    · exact hc
    · extract_lets
      split
      · exact .ite hc.suspPop (.ite hc.repairPop (.ite hc hc.wr))
      · exact .ite hc.rgnLogTake (.ite hc hc.wr)
      · exact .ite hc.meuLogTake (.ite hc hc.wr)
      · exact .ite hc.tbLoRead (.ite hc.tmrCapRead (.ite hc hc.wr))
      · exact .ite hc.tpktPop (.ite hc hc.wr)
      · exact .ite hc hc.wr

theorem Hw.Canonical.regRead {h : Hw} {w : Who} {a : Nat} {sets : W32} (hc : h.Canonical) : (regRead h w a sets).2.Canonical := hc.readEffect.update rfl

theorem Hw.Canonical.beatTaskDone {_w : Who} {v : W32} {h : Hw} (hc : h.Canonical) : (beatTaskDone _w v h).Canonical := .ite hc.wf hc

theorem Hw.Canonical.traceWrite {h : Hw} {f a : Nat} {w : Who} {v : W32} (hc : h.Canonical) : (traceWrite h f a w v).Canonical :=
  .ite hc (.ite (.ite hc.wr.traceSync hc.wr) hc.wr)

theorem Hw.Canonical.plainWrite {h : Hw} {a : Nat} {i : RegInfo} {v : W32} (hc : h.Canonical) : (plainWrite h a i v).Canonical := .ite hc hc.wr

theorem Hw.Canonical.keeperWrite {h : Hw} {a : Nat} {i : RegInfo} {w : Who} {v : W32} (hc : h.Canonical) : (keeperWrite h a i w v).Canonical := .ite hc.plainWrite hc

theorem Hw.Canonical.dbgWrite {h : Hw} {o a : Nat} {i : RegInfo} {w : Who} {v : W32} (hc : h.Canonical) : (dbgWrite h o a i w v).Canonical := by
  unfold Machine.dbgWrite
  refine .ite (.ite hc.plainWrite hc) (.ite (.ite hc.authWrite hc) (.ite (.ite hc.wr hc) (.ite (.ite hc.wr hc) (.ite (.ite (.ite hc.fctlWrite hc) (.ite
    (.ite hc.fpcWrite hc) (.ite hc.traceWrite hc))) (.ite hc.traceWrite (.ite ?_ hc))))))
  split
  · exact hc.tsClaimWrite
  · exact hc.tsEnable
  · exact hc.tsBaseWrite
  · exact hc.tsBaseWrite
  · exact hc

theorem Hw.Canonical.pwrWrite {h : Hw} {o a : Nat} {i : RegInfo} {w : Who} {v : W32} (hc : h.Canonical) : (pwrWrite h o a i w v).Canonical :=
  .ite (.ite hc.pwrCtlWrite (.ite hc.plainWrite hc)) (.ite (.ite hc.plainWrite hc) (.ite hc.keeperWrite (.ite hc.wrStatWrite hc)))

theorem Hw.Canonical.tmbWrite {h : Hw} {o a : Nat} {i : RegInfo} {w : Who} {v : W32} (hc : h.Canonical) : (tmbWrite h o a i w v).Canonical := by
  unfold Machine.tmbWrite
  refine .ite (.ite hc.tmrClaimWrite hc.tmrRegWrite) ?_
  split
  · exact hc.staggerGo
  · exact hc.plainWrite
  · exact hc.wdtCtlWrite
  · exact hc.keeperWrite
  · exact hc.keeperWrite
  · exact hc.wdtSvc
  · exact hc

theorem Hw.Canonical.irqWrite {h : Hw} {o a : Nat} {i : RegInfo} {w : Who} {v : W32} (hc : h.Canonical) : (irqWrite h o a i w v).Canonical :=
  .ite hc.keeperWrite (.ite hc.irqPendWrite (.ite hc.irqEnWrite (.ite hc.keeperWrite (.ite hc.grpHoldWrite (.ite (.ite hc.irqSclaimWrite hc.irqSrcWrite) hc)))))

theorem Hw.Canonical.lnkWrite {h : Hw} {r o a : Nat} {i : RegInfo} {w : Who} {v : W32} (hc : h.Canonical) : (lnkWrite h r o a i w v).Canonical := by
  unfold Machine.lnkWrite
  refine .ite ?_ (.ite (.ite hc.lkCtlWrite hc) (.ite hc.lnrWrite hc))
  extract_lets
  split
  · exact hc.lnCtlWrite
  · exact hc.ltClaimWrite
  · exact hc.ltCtlWrite
  · exact hc

theorem Hw.Canonical.matWriteReg {h : Hw} {r o a : Nat} {i : RegInfo} {w : Who} {v : W32} (hc : h.Canonical) : (matWriteReg h r o a i w v).Canonical :=
  .ite hc.mchCtlWrite (.ite (.ite hc.cshClaimWrite (.ite hc.cshWinWrite hc)) (.ite (.ite hc.wr hc) hc.plainWrite))

theorem Hw.Canonical.qeWrite {h : Hw} {r o a : Nat} {w : Who} {v : W32} (hc : h.Canonical) : (qeWrite h r o a w v).Canonical :=
  .ite (.ite hc.queueEnable hc.queueDisable) (.ite hc.sqBaseWrite hc)

theorem Hw.Canonical.regWrite {h : Hw} {w : Who} {a : Nat} {v : W32} (hc : h.Canonical) : (regWrite h w a v).Canonical := by
  unfold Machine.regWrite
  split
  · exact hc
  · split
    · exact hc
    · split
      · exact .ite hc.beatTaskDone hc
      · exact hc.matWriteReg
      · exact .ite hc.chnCtlWrite hc
      · exact hc.lnkWrite
      · exact .ite hc.cxeWrite (.ite hc.rlyWrite (.ite hc.plainWrite (.ite hc.cxHalt hc)))
      · exact hc.qeWrite
      · exact hc.plainWrite
      · exact .ite hc.xltDirWrite (.ite hc.xltInvGo hc.plainWrite)
      · exact hc
      · exact hc
      · exact hc.irqWrite
      · exact hc.tmbWrite
      · exact hc.lchRegWrite
      · exact .ite hc.keeperWrite (.ite hc.recover hc)
      · exact hc.plainWrite
      · exact hc
      · exact .ite hc.dbSq hc.dbCq
      · exact hc.dbgWrite
      · exact hc.pwrWrite

theorem Hw.Canonical.unprivWrite {h : Hw} {w : Who} {a : Nat} {v : W32} (hc : h.Canonical) : (unprivWrite h w a v).Canonical := by
  -- the function by a name of its own: the kernel must not compute the twin's address
  obtain ⟨F, hF⟩ : ∃ F, F = Machine.unprivWrite := ⟨_, rfl⟩
  rw [← hF]
  delta Machine.unprivWrite at hF
  subst hF
  beta_reduce
  generalize twin a = t
  split
  · exact hc.regWrite
  · exact hc

theorem Hw.Canonical.registerWrite {w : Who} {a : Nat} {v : W32} {h : Hw} (hc : h.Canonical) : (registerWrite w a v h).Canonical := by
  unfold Machine.registerWrite
  refine .ite (.ite hc.regWrite hc) (.ite ?_ hc)
  split
  · exact .ite hc.unprivWrite hc
  · exact hc

theorem Hw.Canonical.rcFieldRead {w : Who} {a : Nat} {sets : W32} {h : Hw} (hc : h.Canonical) : (rcFieldRead w a sets h).Canonical := by
  unfold Machine.rcFieldRead
  refine .ite (.ite hc.regRead hc) (.ite ?_ hc)
  split
  · exact .ite (hc.update rfl) hc
  · exact hc

end Sys2Proof.Machine
end

section
/-!
SUPPORT. The functions of reset and boot (Machine/Boot.lean) keep the storage in canonical form.
-/
namespace Sys2Proof.Machine

theorem Hw.Canonical.ctxApply {h : Hw} {e : Nat × List W32} (hc : h.Canonical) : (ctxApply h e).Canonical := .cxeWrite (.foldl (fun _ _ hc1 => hc1.cxeWrite) hc)

theorem Hw.Canonical.bootTo {h : Hw} {s : Nat} (hc : h.Canonical) : (bootTo h s).Canonical := hc.wf

theorem Hw.Canonical.holdAll {h : Hw} (hc : h.Canonical) : (holdAll h).Canonical :=
  .forEach (fun _ _ hc1 => .ite hc1 hc1.linkGoDown) (.forEach (fun _ _ hc1 => hc1.frondClear) hc)

theorem Hw.Canonical.bootFail {h : Hw} {code : Nat} (hc : h.Canonical) : (bootFail h code).Canonical := hc.bootTo.wf.holdAll.wr.update rfl

theorem Hw.Canonical.keysNone {h : Hw} (hc : h.Canonical) : (keysNone h).Canonical := hc.wf.wf.wf.update rfl

theorem Hw.Canonical.slotFail {h : Hw} {code : Nat} (hc : h.Canonical) : (slotFail h code).Canonical := .ite hc.wf.wf hc.keysNone.bootFail

theorem Hw.Canonical.recApply {warm : Bool} {h : Hw} {e : Nat × W32} (hc : h.Canonical) : (recApply warm h e).Canonical := .ite hc hc.regWrite

theorem Hw.Canonical.laneApply {h : Hw} {v : W32} (hc : h.Canonical) : (laneApply h v).Canonical := .ite hc (.ite hc.wr hc.sb)

theorem Hw.Canonical.bootWrites {h : Hw} {s : Shadow} {warm : Bool} (hc : h.Canonical) : (bootWrites h s warm).Canonical := by
  unfold Machine.bootWrites
  extract_lets h0 h1 h2 h3 h4
  have ch0 : h0.Canonical := hc.sb
  have ch1 : h1.Canonical := .ite ch0 (.forEach (fun _ _ hc1 => hc1.frondClear) ch0)
  have ch2 : h2.Canonical := .forEach (fun _ _ hc1 => hc1.wr.wr) ch1
  have ch3 : h3.Canonical := .foldl (fun _ _ hc1 => hc1.laneApply) ch2
  have ch4 : h4.Canonical := .foldl (fun _ _ hc1 => hc1.recApply) ch3
  exact .foldl (fun _ _ hc1 => hc1.ctxApply) ch4

theorem Hw.Canonical.bootRun {h : Hw} (hc : h.Canonical) : (bootRun h).Canonical := by
  unfold Machine.bootRun
  split
  · exact hc
  · extract_lets _ b h1 h2
    have ch1 : h1.Canonical := .bootTo (.bootWrites (.bootTo (hc.update rfl)))
    have ch2 : h2.Canonical := .forEach (fun _ _ hc1 => hc1.frondStart) ch1
    exact .bootLinksUp (.bootTo (ch2.update rfl))

theorem Hw.Canonical.csLoad {h : Hw} {r : Nat} {p c : List Byte} (hc : h.Canonical) : (csLoad h r p c).Canonical :=
  .sb (.wf (.wf (.forEach (fun _ _ hc1 => hc1.wr) (.forEach (fun _ _ hc1 => hc1.wr) (hc.update rfl)))))

theorem Hw.Canonical.bootStep3 {h : Hw} (hc : h.Canonical) : (bootStep3 h).Canonical := .ite (.bootRun (.ite hc (.forEach (fun _ _ hc1 => hc1.csLoad) hc))) hc

theorem Hw.Canonical.startPower {h : Hw} {r : Nat} (hc : h.Canonical) : (startPower h r).Canonical := .ite hc.wakeBegin hc

theorem Hw.Canonical.bootBegin3 {h : Hw} (hc : h.Canonical) : (bootBegin3 h).Canonical := .bootStep3 (.foldl (fun _ _ hc1 => hc1.startPower) (hc.bootTo.update rfl))

theorem Hw.Canonical.bootNext2 {h : Hw} (hc : h.Canonical) : (bootNext2 h).Canonical := by
  unfold Machine.bootNext2
  split
  · exact hc.startPower
  · exact hc

theorem Hw.Canonical.bootAfter1 {h : Hw} (hc : h.Canonical) : (bootAfter1 h).Canonical := .ite hc.bootBegin3 (.bootNext2 (hc.bootTo.update rfl))

theorem Hw.Canonical.pwrAckRise {r : Nat} {h : Hw} (hc : h.Canonical) : (pwrAckRise r h).Canonical := .ite hc (.ite hc.pwrAckSeen.bootNext2 hc.pwrAckSeen)

theorem Hw.Canonical.startMarch {run : MarchRun} {fails : List (Nat × MarchFail)} {acc : Hw × Bool} {r : Nat} (hc : acc.1.Canonical) :
    (startMarch run fails acc r).1.Canonical := by
  unfold Machine.startMarch
  split
  next h1 _ he =>
    have hc1 : h1.Canonical := .of_eq_fst he (.fst_foldl (fun _ _ hc1 => hc1.marchFail) hc)
    exact .ite hc1.setMat.wf.marchRunEnd.wakeDone hc1.setMat.wf.marchRunEnd

theorem Hw.Canonical.startupMarchDone {fails : List (Nat × MarchFail)} {h : Hw} (hc : h.Canonical) : (startupMarchDone fails h).Canonical := by
  unfold Machine.startupMarchDone
  split
  · exact hc
  · refine .ite hc ?_
    split
    next h1 _ he =>
      have hc1 : h1.Canonical := .of_eq_fst he (.fst_foldl (fun _ _ hc1 => hc1.startMarch) hc)
      exact .ite hc1.bootFail hc1.bootBegin3

theorem Hw.Canonical.startupPowerHandshakeTimeout {r : Nat} {h : Hw} (hc : h.Canonical) : (startupPowerHandshakeTimeout r h).Canonical :=
  .ite (.ite hc.bootFail (.ite hc.bootFail hc)) hc

theorem Hw.Canonical.flashCommandDone {octal : Bool} {h : Hw} (hc : h.Canonical) : (flashCommandDone octal h).Canonical := .ite (hc.wf.update rfl) hc

theorem Hw.Canonical.flashCommandTimeout {h : Hw} (hc : h.Canonical) : (flashCommandTimeout h).Canonical := .ite hc.slotFail (.ite hc.bootFail hc)

theorem Hw.Canonical.repairFill {h : Hw} {e : RepEnt} (hc : h.Canonical) : (repairFill h e).Canonical := by
  unfold Machine.repairFill
  refine .ite hc ?_
  split
  · exact hc.rmapSet
  · exact hc

theorem Hw.Canonical.imgAccept {h : Hw} {img : List Byte} (hc : h.Canonical) : (imgAccept h img).Canonical := by
  unfold Machine.imgAccept
  extract_lets _ h1 _ _ h2 h3 h4
  have ch1 : h1.Canonical := .foldl (fun _ _ hc1 => hc1.repairFill) hc
  have ch2 : h2.Canonical := ch1.wf.wf.wf
  have ch3 : h3.Canonical := ch2.wr.wr.wr
  have ch4 : h4.Canonical := ch3.wf.wf.wf
  exact ch4.update rfl

theorem Hw.Canonical.imageFirstReadDone {img : List Byte} {h : Hw} (hc : h.Canonical) : (imageFirstReadDone img h).Canonical := by
  unfold Machine.imageFirstReadDone
  refine .ite hc ?_
  split
  · exact hc.slotFail
  · exact hc.imgAccept.bootAfter1

theorem Hw.Canonical.imageSecondReadDone {patch cust : List Byte} {h : Hw} (hc : h.Canonical) : (imageSecondReadDone patch cust h).Canonical := by
  unfold Machine.imageSecondReadDone
  split
  · exact hc
  · exact .ite hc (.ite hc.bootFail (.bootStep3 (hc.update rfl)))

theorem Hw.Canonical.bootLinkWaitExpire {h : Hw} (hc : h.Canonical) : (bootLinkWaitExpire h).Canonical := .ite (hc.bootTo.update rfl) hc

theorem Hw.Canonical.boottmoExpire {h : Hw} (hc : h.Canonical) : (boottmoExpire h).Canonical := by
  unfold Machine.boottmoExpire
  split
  · exact .ite hc.bootFail hc
  · exact hc

theorem Hw.Canonical.coldStart {h : Hw} (hc : h.Canonical) : (coldStart h).Canonical := hc.bootTo.wf.wf.wf.update rfl

theorem Hw.Canonical.warmStart {h : Hw} (hc : h.Canonical) : (warmStart h).Canonical := .bootBegin3 (hc.sb.update rfl)

theorem Hw.Canonical.powerOnReset {h : Hw} : (powerOnReset h).Canonical := .update .reset rfl

theorem Hw.Canonical.porAssert {h : Hw} : (porAssert h).Canonical := .powerOnReset

theorem Hw.Canonical.testEnHigh {h : Hw} : (testEnHigh h).Canonical := .update .reset rfl

theorem Hw.Canonical.porRelease {h : Hw} (hc : h.Canonical) : (porRelease h).Canonical := .ite hc (.ite (.coldStart (hc.update rfl)) (hc.update rfl))

theorem Hw.Canonical.rstAssert {h : Hw} (hc : h.Canonical) : (rstAssert h).Canonical := by
  unfold Machine.rstAssert
  refine .ite hc ?_
  extract_lets h1 h2 h3 h4
  have ch1 : h1.Canonical := hc.wr.wf
  have ch2 : h2.Canonical := ch1.wf.wf
  have ch3 : h3.Canonical := ch2.bootTo.wf.wr
  have ch4 : h4.Canonical := .ite ch3 (.ite ch3.lichenApply ch3.lchEnd)
  exact ch4.update rfl

theorem Hw.Canonical.marchCut {h : Hw} {r : Nat} (hc : h.Canonical) : (marchCut h r).Canonical := by
  unfold Machine.marchCut
  split
  · exact hc
  · exact hc.setMat.marchRunEnd

theorem Hw.Canonical.rstRegion {h : Hw} {r : Nat} (hc : h.Canonical) : (rstRegion h r).Canonical := hc.marchCut.wf.wf.setMat.setPw

theorem Hw.Canonical.rstState {h : Hw} (hc : h.Canonical) : (rstState h).Canonical := by
  unfold Machine.rstState
  extract_lets h1 h2 h3 h4 h5
  have ch1 : h1.Canonical := .forEach (fun _ _ hc1 => hc1.frondClear) hc
  have ch2 : h2.Canonical := .forEach (fun _ _ hc1 => hc1.rstRegion) ch1.releaseClaims
  have ch3 : h3.Canonical := ch2.resetRegs
  have ch4 : h4.Canonical := ch3.wf.wf
  have ch5 : h5.Canonical := .ite ch4.wdtStage.wf ch4
  exact ch5.update rfl

theorem Hw.Canonical.rstRelease {h : Hw} (hc : h.Canonical) : (rstRelease h).Canonical := by
  unfold Machine.rstRelease
  refine .ite hc ?_
  extract_lets h1
  have ch1 : h1.Canonical := hc.rstState
  exact .ite (.warmStart (ch1.update rfl)) (.coldStart (ch1.update rfl))

theorem Hw.Canonical.pllLock {ok : Bool} {h : Hw} (hc : h.Canonical) : (pllLock ok h).Canonical := .ite hc (.ite (hc.sb.update rfl) (.ite hc.bootFail hc))

theorem Hw.Canonical.pllLossOfLock {h : Hw} (hc : h.Canonical) : (pllLossOfLock h).Canonical := .ite (hc.sb.wf.update rfl) hc

theorem Hw.Canonical.clockRestart {h : Hw} (hc : h.Canonical) : (clockRestart h).Canonical := .ite (hc.update rfl) hc

end Sys2Proof.Machine
end

section
/-!
SUPPORT. The functions of the masters of the mat (Machine/Masters.lean) keep the storage in canonical form.
-/
namespace Sys2Proof.Machine

theorem Hw.Canonical.viewRead {h : Hw} {w : Who} {a : Nat} (hc : h.Canonical) : (viewRead h w a).2.Canonical := by
  have hread : ∀ v, ((v, { h with busRd := v }) : W32 × Hw).2.Canonical := fun _ => hc.update rfl
  exact .snd_ite hc.regRead (hread _)

theorem Hw.Canonical.viewWrite {h : Hw} {w : Who} {a : Nat} {v : W32} (hc : h.Canonical) : (viewWrite h w a v).Canonical := .ite hc.regWrite hc.unprivWrite

theorem Hw.Canonical.lsuServeLoad {h : Hw} {f : Nat} {l : LsuLoad} {par : Par} {meets : List Meet} (hc : h.Canonical) :
    (lsuServeLoad h f l par meets).1.Canonical := by
  unfold Machine.lsuServeLoad
  extract_lets
  split
  · split
    next h1 _ _ he =>
      exact .of_eq_fst he hc.memRead
  · exact hc
  · refine .fst_ite ?_ hc
    split
    next h1 he =>
      exact .of_eq_snd he hc.viewRead
  · exact hc

theorem Hw.Canonical.lsuServeStore {h : Hw} {f : Nat} {s : LsuStore} {par : Par} {meets : List Meet} (hc : h.Canonical) :
    (lsuServeStore h f s par meets).1.Canonical := by
  unfold Machine.lsuServeStore
  extract_lets
  split
  · split
    next he => exact .of_eq_fst he hc.memWrite
  · exact hc.scratchSets
  · exact .fst_ite hc.viewWrite hc
  · exact hc

theorem Hw.Canonical.lsuGive {h : Hw} {f : Nat} {l : LsuLoad} {v : W64} {c : Nat} (hc : h.Canonical) : (lsuGive h f l v c).Canonical := hc.setFrond.lsuPump

theorem Hw.Canonical.lsuTake {h : Hw} {f : Nat} {s : LsuStore} {c : Nat} (hc : h.Canonical) : (lsuTake h f s c).Canonical := hc.setFrond.lsuPump

theorem Hw.Canonical.lsuLoadDone {f : Nat} {par : Par} {meets : List Meet} {h : Hw} (hc : h.Canonical) : (lsuLoadDone f par meets h).Canonical := by
  unfold Machine.lsuLoadDone
  split
  · exact hc
  · split
    · exact hc.lsuGive
    · refine .ite hc ?_
      split
      next h1 _ _ he =>
        have hc1 : h1.Canonical := .of_eq_fst he hc.lsuServeLoad
        exact hc1.lsuGive

theorem Hw.Canonical.lsuStoreAck {f : Nat} {par : Par} {meets : List Meet} {h : Hw} (hc : h.Canonical) : (lsuStoreAck f par meets h).Canonical := by
  unfold Machine.lsuStoreAck
  split
  · exact hc
  · split
    · exact hc.lsuTake
    · split
      next h1 _ he =>
        have hc1 : h1.Canonical := .of_eq_fst he hc.lsuServeStore
        exact hc1.lsuTake

theorem Hw.Canonical.matReadRaw {h : Hw} {m : Master} {a len : Nat} {par : Par} {meets : List Meet} (hc : h.Canonical) :
    (matReadRaw h m a len par meets).Canonical := by
  unfold Machine.matReadRaw
  split
  next h1 _ _ he =>
    have hc1 : h1.Canonical := .of_eq_fst he hc.memRead
    exact hc1.update rfl

theorem Hw.Canonical.matWriteRaw {h : Hw} {m : Master} {a : Nat} {data : List (Option Byte)} {par : Par} {meets : List Meet} (hc : h.Canonical) :
    (matWriteRaw h m a data par meets).Canonical := by
  unfold Machine.matWriteRaw
  split
  next h1 _ he =>
    have hc1 : h1.Canonical := .of_eq_fst he hc.memWriteEn
    exact hc1.update rfl

theorem Hw.Canonical.chainRead {h : Hw} {m : Master} {ch : Nat} {streams : List Nat} {a len : Nat} {par : Par} {meets : List Meet} (hc : h.Canonical) :
    (chainRead h m ch streams a len par meets).Canonical := by
  unfold Machine.chainRead
  split
  · exact hc.matReadRaw.accArrive.chainsAdvance
  · exact hc
  · exact hc.matReadRaw

theorem Hw.Canonical.chainWrite {h : Hw} {m : Master} {ch a : Nat} {data : List (Option Byte)} {par : Par} {meets : List Meet} (hc : h.Canonical) :
    (chainWrite h m ch a data par meets).Canonical := by
  unfold Machine.chainWrite
  split
  · exact .chainsAdvance (.ite hc.matWriteRaw.accLost hc.matWriteRaw.accArrive)
  · exact hc
  · exact hc.matWriteRaw

theorem Hw.Canonical.frondRead {h : Hw} {f a len : Nat} {par : Par} {meets : List Meet} (hc : h.Canonical) : (frondRead h f a len par meets).Canonical := by
  unfold Machine.frondRead
  split
  · refine .ite (.ite hc ?_) hc.matReadRaw
    extract_lets h1
    have ch1 : h1.Canonical := hc.matReadRaw
    split
    exact ch1.setFrond
  · exact hc.matReadRaw

theorem Hw.Canonical.frondWrite {h : Hw} {f a : Nat} {data : List (Option Byte)} {par : Par} {meets : List Meet} (hc : h.Canonical) :
    (frondWrite h f a data par meets).Canonical := by
  unfold Machine.frondWrite
  split
  · exact .ite hc hc.matWriteRaw.setFrond
  · exact hc.matWriteRaw

theorem Hw.Canonical.matRead {m : Master} {a len : Nat} {par : Par} {meets : List Meet} {h : Hw} (hc : h.Canonical) : (matRead m a len par meets h).Canonical := by
  unfold Machine.matRead
  refine .ite hc ?_
  split
  · exact hc.frondRead
  · exact hc.chainRead
  · exact hc.chainRead
  · exact hc.matReadRaw

theorem Hw.Canonical.matWrite {m : Master} {a : Nat} {data : List (Option Byte)} {par : Par} {meets : List Meet} {h : Hw} (hc : h.Canonical) :
    (matWrite m a data par meets h).Canonical := by
  unfold Machine.matWrite
  refine .ite hc ?_
  split
  · exact hc.frondWrite
  · exact hc.chainWrite
  · exact hc.matWriteRaw

theorem Hw.Canonical.hpCapture {h : Hw} {p : Nat} {sdir : Bool} {st op cls tag addr : Nat} (hc : h.Canonical) : (hpCapture h p sdir st op cls tag addr).Canonical :=
  .ite hc hc.wr.wr.wr

theorem Hw.Canonical.mError {h : Hw} {q : MReq} {st : Nat} (hc : h.Canonical) : (mError h q st).Canonical := .ite hc hc.sb.hpCapture

theorem Hw.Canonical.mDeliver {h : Hw} {q : MReq} {st : Nat} (hc : h.Canonical) : (mDeliver h q st).Canonical := by
  unfold Machine.mDeliver
  split
  · split
    · exact .ite hc.walkPut hc
    · exact hc
  · split
    · exact .ite hc.walkPut hc
    · exact hc
  · split
    · exact .ite hc (.ite hc.putExec hc.putExec)
    · exact hc
  · exact hc.accArrive.chainsAdvance
  · exact hc.accArrive.chainsAdvance
  · exact hc.setFrond
  · exact hc.setFrond
  · exact hc.recordDone
  · exact hc.timerMoverResponse
  · exact .ite hc hc.tsFail
  · exact hc.word7Done

theorem Hw.Canonical.mFinish {h : Hw} {q : MReq} {st : Nat} (hc : h.Canonical) : (mFinish h q st).Canonical := hc.mError.mFree.mDeliver

theorem Hw.Canonical.mReadData {p tag : Nat} {data : List Byte} {bad : List Nat} {st : Nat} {last : Bool} {h : Hw} (hc : h.Canonical) :
    (mReadData p tag data bad st last h).Canonical := by
  unfold Machine.mReadData
  refine .ite hc ?_
  extract_lets h1
  have ch1 : h1.Canonical := .ite hc hc.sb
  split
  · exact ch1
  · exact .ite (.mFinish (ch1.hpBytes.update rfl)) (ch1.hpBytes.update rfl)

theorem Hw.Canonical.mWriteResponse {p tag st : Nat} {parErr : Bool} {h : Hw} (hc : h.Canonical) : (mWriteResponse p tag st parErr h).Canonical := by
  unfold Machine.mWriteResponse
  refine .ite hc ?_
  extract_lets h1
  have ch1 : h1.Canonical := .ite hc.sb hc
  split
  · exact ch1
  · exact ch1.mFinish

theorem Hw.Canonical.mCasResponse {p tag : Nat} {old : W64} {parErr : Bool} {st : Nat} {h : Hw} (hc : h.Canonical) :
    (mCasResponse p tag old parErr st h).Canonical := by
  unfold Machine.mCasResponse
  refine .ite hc ?_
  extract_lets h1
  have ch1 : h1.Canonical := .ite hc.sb hc
  split
  · exact ch1
  · exact ch1.hpBytes.mFinish

theorem Hw.Canonical.mRetire {h : Hw} {q : MReq} (hc : h.Canonical) : (mRetire h q).Canonical := .mDeliver (hc.update rfl)

theorem Hw.Canonical.mRequestTimeout {p tag : Nat} {h : Hw} (hc : h.Canonical) : (mRequestTimeout p tag h).Canonical := by
  unfold Machine.mRequestTimeout
  split
  · exact .ite hc.sb.mRetire.mGrantAll hc
  · exact hc

theorem Hw.Canonical.hostCreditReturn {p : Nat} {writeData : Bool} {h : Hw} (hc : h.Canonical) : (hostCreditReturn p writeData h).Canonical :=
  .ite hc (.ite hc.wf.mGrantAll hc.sb)

theorem Hw.Canonical.hostClockLoss {p : Nat} {h : Hw} (hc : h.Canonical) : (hostClockLoss p h).Canonical :=
  .ite hc (.foldl (fun _ _ hc1 => hc1.mRetire) (hc.wf.wr.update rfl))

theorem Hw.Canonical.hostClockReturn {p : Nat} {h : Hw} (hc : h.Canonical) : (hostClockReturn p h).Canonical := .ite hc (hc.wf.update rfl)

end Sys2Proof.Machine
end

section
/-!
SUPPORT. The functions of the host ports (Machine/Host.lean) keep the storage in canonical form.
-/
namespace Sys2Proof.Machine

theorem Hw.Canonical.sAnswer {h : Hw} {port addr tag op : Nat} {write : Bool} {st : Nat} {data : List Byte} {busy : List Bool} (hc : h.Canonical) :
    (sAnswer h port addr tag op write st data busy).Canonical := by
  unfold Machine.sAnswer
  extract_lets _ h1 h2 h3
  have ch1 : h1.Canonical := .setPo (hc.update rfl)
  have ch2 : h2.Canonical := .ite ch1 ch1.hpBytes
  have ch3 : h3.Canonical := .ite ch2.sb ch2
  exact .ite ch3 ch3.hpCapture

theorem Hw.Canonical.sRefuse {h : Hw} {port addr len tag op : Nat} {write : Bool} {st : Nat} (hc : h.Canonical) :
    (sRefuse h port addr len tag op write st).Canonical :=
  hc.sAnswer

theorem Hw.Canonical.dbWake {h : Hw} {a : Nat} (hc : h.Canonical) : (dbWake h a).Canonical := by
  unfold Machine.dbWake
  split
  · exact .ite hc.wakeEvent hc
  · exact hc

theorem Hw.Canonical.hostRegRead {h : Hw} {port a tag : Nat} {priv : Bool} (hc : h.Canonical) : (hostRegRead h port a tag priv).Canonical := by
  unfold Machine.hostRegRead
  split
  next h1 he =>
    have hc1 : h1.Canonical := .of_eq_snd he hc.viewRead
    exact hc1.sAnswer

theorem Hw.Canonical.hostRegWrite {h : Hw} {q : HeldReq} (hc : h.Canonical) : (hostRegWrite h q).Canonical := by
  unfold Machine.hostRegWrite
  split
  · exact hc.dbWake.viewWrite.sAnswer
  · exact hc.sAnswer

theorem Hw.Canonical.hostHold {h : Hw} {r : Nat} {q : HeldReq} (hc : h.Canonical) : (hostHold h r q).Canonical := hc.setPw

theorem Hw.Canonical.hostCush {h : Hw} {q : HeldReq} (hc : h.Canonical) : (hostCush h q).Canonical := by
  unfold Machine.hostCush
  refine .ite ?_ ?_
  · split
    next h1 _ he =>
      have hc1 : h1.Canonical := .of_eq_fst he hc.memWriteEn
      exact hc1.sAnswer
  · split
    next h1 _ _ he =>
      have hc1 : h1.Canonical := .of_eq_fst he hc.memRead
      exact hc1.sAnswer

theorem Hw.Canonical.hostDo {h : Hw} {q : HeldReq} (hc : h.Canonical) : (hostDo h q).Canonical := by
  unfold Machine.hostDo
  extract_lets
  split
  · exact hc.hostHold
  · refine .ite hc.hostCush (.ite ?_ hc.sRefuse)
    split
    · exact .ite hc.hostRegWrite hc.hostRegRead
    · exact .ite hc.sAnswer hc.sAnswer
    · exact hc.sRefuse
    · exact .hostHold (.ite hc.dbWake hc)

theorem Hw.Canonical.heldOne {r : Nat} {h : Hw} {q : HeldReq} (hc : h.Canonical) : (heldOne r h q).Canonical := .ite hc.sb.sAnswer hc.hostDo

theorem Hw.Canonical.heldRelease {h : Hw} {r : Nat} (hc : h.Canonical) : (heldRelease h r).Canonical := .ite hc (.foldl (fun _ _ hc1 => hc1.heldOne) hc.setPw)

theorem Hw.Canonical.hostSRead {port addr len tag : Nat} {priv parErr : Bool} {par : Par} {meets : List Meet} {h : Hw} (hc : h.Canonical) :
    (hostSRead port addr len tag priv parErr par meets h).Canonical :=
  .ite hc (.ite hc.sb.sRefuse hc.hostDo)

theorem Hw.Canonical.hostSWrite {port addr tag op : Nat} {priv parErr : Bool} {data : List
  (Option Byte)} {badWords : List Nat} {par : Par} {meets : List Meet} {h0 : Hw} (hc : h0.Canonical) :
  (hostSWrite port addr tag op priv parErr data badWords par meets h0).Canonical := by
  unfold Machine.hostSWrite
  refine .ite hc ?_
  extract_lets _ _ h1 h
  have ch1 : h1.Canonical := hc.hpBytes
  have ch : h.Canonical := .ite ch1.sb ch1
  exact .ite ch.sRefuse (.ite ch.sRefuse ch.hostDo)

theorem Hw.Canonical.registerFabricParityError {w : Who} {write : Bool} {a : Nat} {h : Hw} (hc : h.Canonical) :
    (registerFabricParityError w write a h).Canonical := by
  unfold Machine.registerFabricParityError
  extract_lets h1
  have ch1 : h1.Canonical := hc.sb.meuLog
  split
  · exact .ite ch1.setFrond ch1.setFrond
  · split
    next h11 he =>
      have hc1 : h11.Canonical := .of_eq_snd he ch1.fresh
      exact .ite (.sAnswer (.ite hc1 (hc1.update rfl))) ch1
  · exact .ite ch1 (ch1.update rfl)

theorem Hw.Canonical.wakeComplete {r : Nat} {h : Hw} (hc : h.Canonical) :
    (wakeComplete r h).Canonical := .ite hc (.bootStep3 (.heldRelease (hc.wakeDone.update rfl)))

theorem Hw.Canonical.regionRejoin {r : Nat} {h : Hw} (hc : h.Canonical) : (regionRejoin r h).Canonical := .ite hc.rejoin.heldRelease hc

theorem Hw.Canonical.regionDrainTimeout {r : Nat} {h : Hw} (hc : h.Canonical) : (regionDrainTimeout r h).Canonical := .ite hc.drainTimeout.heldRelease hc

theorem Hw.Canonical.beatOne {h : Hw} {a last : Nat} (hc : h.Canonical) : (beatOne h a last).Canonical := .ite hc hc.beatCopy

theorem Hw.Canonical.beatEye {h : Hw} {l : Nat} (hc : h.Canonical) : (beatEye h l).Canonical := .ite hc hc.wf.wf

theorem Hw.Canonical.beatRegion {h : Hw} {r : Nat} (hc : h.Canonical) : (beatRegion h r).Canonical := by
  unfold Machine.beatRegion
  extract_lets h1 h2 h3 h4 h5
  have ch1 : h1.Canonical := hc.beatOne
  have ch2 : h2.Canonical := .forEach (fun _ _ hc1 => hc1.beatOne.beatOne) ch1
  have ch3 : h3.Canonical := .foldl (fun _ _ hc1 => hc1.beatEye.beatOne.beatOne.beatOne) ch2
  have ch4 : h4.Canonical := .foldl (fun _ _ hc1 => hc1.beatOne.beatOne) ch3
  have ch5 : h5.Canonical := ch4.beatOne.beatOne
  exact .ite ch5 ch5.setMat

theorem Hw.Canonical.beatParts {h : Hw} (hc : h.Canonical) : (beatParts h).Canonical := hc.update rfl

theorem Hw.Canonical.beatWake {h : Hw} {r : Nat} (hc : h.Canonical) : (beatWake h r).Canonical := .ite hc.wakeEvent hc

theorem Hw.Canonical.beatCount {h : Hw} (hc : h.Canonical) : (beatCount h).Canonical := .sb (.ite hc.wr.addSat hc.wr)

theorem Hw.Canonical.beatKeeper {h : Hw} (hc : h.Canonical) : (beatKeeper h).Canonical :=
  .ite (.forEach (fun _ _ hc1 => .ite hc1.sensorFlags hc1) (.forEach (fun _ _ hc1 => hc1.laneHealth) hc)) hc

theorem Hw.Canonical.beatBoundary {h : Hw} (hc : h.Canonical) : (beatBoundary h).Canonical := by
  unfold Machine.beatBoundary
  refine .ite hc ?_
  extract_lets h0 h1 h2 h3 h4
  have ch0 : h0.Canonical := hc.update rfl
  have ch1 : h1.Canonical := .beatParts (.forEach (fun _ _ hc1 => hc1.beatRegion) ch0.beatCount)
  have ch2 : h2.Canonical := ch1.irqFire.holdEnd
  have ch3 : h3.Canonical := ch2.capOn
  have ch4 : h4.Canonical := ch3.beatKeeper.wearUpdate
  exact .forEach (fun _ _ hc1 => hc1.beatWake) ch4

end Sys2Proof.Machine
end

section
/-!
SUPPORT. The functions of the clock tick (Machine/Clock.lean) keep the storage in canonical form.
-/
namespace Sys2Proof.Machine

theorem Hw.Canonical.beatsCore {h : Hw} (hc : h.Canonical) : (beatsCore h).Canonical := by
  unfold Machine.beatsCore
  extract_lets h1 h2 h3
  have ch1 : h1.Canonical := .foldl (fun _ _ hc1 => hc1.mRequestTimeout) hc
  have ch2 : h2.Canonical := .foldl (fun _ _ hc1 => hc1.stepTimeout.fenceTimeout) ch1
  have ch3 : h3.Canonical := .foldl (fun _ _ hc1 => .ite hc1.trainTimeout hc1) ch2
  exact .foldl (fun _ _ hc1 => hc1.regionDrainTimeout) ch3

theorem Hw.Canonical.beatsIsland {h : Hw} (hc : h.Canonical) : (beatsIsland h).Canonical := hc.lichenWindowExpire.debugIdleTimeout.bootLinkWaitExpire.boottmoExpire

theorem Hw.Canonical.beatTick {h : Hw} (hc : h.Canonical) : (beatTick h).Canonical :=
  .ite (.ite hc.beatBoundary.beatsIsland.beatsCore hc.beatBoundary.beatsIsland) hc.beatBoundary

theorem Hw.Canonical.linkTick {h : Hw} {lk : Nat} (hc : h.Canonical) : (linkTick h lk).Canonical := by
  unfold Machine.linkTick
  extract_lets h1 h2 h3
  have ch1 : h1.Canonical := .ite hc.replayTimeout hc
  have ch2 : h2.Canonical := .ite ch1.nakTimeout ch1
  have ch3 : h3.Canonical := ch2.initTimeout.lanesetTimeout
  exact .ite ch3.initResend ch3

theorem Hw.Canonical.powerLimits {h : Hw} {r : Nat} (hc : h.Canonical) : (powerLimits h r).Canonical :=
  hc.enterTimeout.startupPowerHandshakeTimeout.wakeAckTimeout.idleEntry

theorem Hw.Canonical.tickEnd {h : Hw} (hc : h.Canonical) : (tickEnd h).Canonical := by
  unfold Machine.tickEnd
  extract_lets h1 h2
  have ch1 : h1.Canonical := hc.tbWrap.beatTick.watchdogStage1Expire.watchdogStage2Expire
  have ch2 : h2.Canonical := .lichenHashDone (.foldl (fun _ _ hc1 => hc1.powerLimits) ch1)
  exact .ite (.foldl (fun _ _ hc1 => hc1.linkTick) ch2) ch2

theorem Hw.Canonical.unitTicks {h : Hw} (hc : h.Canonical) : (unitTicks h).Canonical := by
  unfold Machine.unitTicks
  extract_lets h1 h2
  have ch1 : h1.Canonical := .forEach (fun _ _ hc1 => hc1.frondTick) hc
  have ch2 : h2.Canonical := .forEach (fun _ _ hc1 => hc1.stillTick) ch1.hoffTick
  exact .forEach (fun _ _ hc1 => hc1.outTick) ch2

theorem Hw.Canonical.regionBegin {h : Hw} {r : Nat} (hc : h.Canonical) : (regionBegin h r).Canonical :=
  hc.regionRejoin.sleepCommit.powerupClearDone.wakeComplete.wakeStart

theorem Hw.Canonical.tickBegin {h : Hw} (hc : h.Canonical) : (tickBegin h).Canonical :=
  .foldl (fun _ _ hc1 => hc1.regionBegin) hc.lichenApply.clockRestart.fatalRecovery.knFatal

theorem Hw.Canonical.clockTick {h : Hw} (hc : h.Canonical) : (clockTick h).Canonical := .tickBegin (.ite hc.tickEnd.ckaTick.unitTicks hc.tickEnd.ckaTick)

end Sys2Proof.Machine
end

section
/-!
SUPPORT. The functions of the debugger (Machine/Debug.lean) keep the storage in canonical form.
-/
namespace Sys2Proof.Machine

theorem Hw.Canonical.dbgAns {h : Hw} {ack : Nat} {peek : Bool} {data : W32} (hc : h.Canonical) : (dbgAns h ack peek data).Canonical := hc.update rfl

theorem Hw.Canonical.dbgMemRead {h : Hw} {frn : Nat} {eff : Bool} {a : Nat} {par : Par} {meets : List Meet} (hc : h.Canonical) :
    (dbgMemRead h frn eff a par meets).Canonical := by
  unfold Machine.dbgMemRead
  refine .ite hc.dbgAns ?_
  split
  next h1 _ _ he =>
    have hc1 : h1.Canonical := .of_eq_fst he hc.memRead
    exact .ite hc1.dbgAns (.dbgAns (hc.idleLeave.collLog.update rfl))

theorem Hw.Canonical.dbgMemWrite {h : Hw} {frn a : Nat} {v : W32} {par : Par} {meets : List Meet} (hc : h.Canonical) :
    (dbgMemWrite h frn a v par meets).Canonical := by
  unfold Machine.dbgMemWrite
  refine .ite hc.dbgAns ?_
  split
  next h1 _ he =>
    have hc1 : h1.Canonical := .of_eq_fst he hc.memWrite
    exact hc1.dbgAns

theorem Hw.Canonical.debugRd {frn : Nat} {eff : Bool} {a : Nat} {par : Par} {meets : List Meet} {h : Hw} (hc : h.Canonical) :
    (debugRd frn eff a par meets h).Canonical := by
  unfold Machine.debugRd
  refine .ite hc ?_
  split
  · exact hc.dbgAns
  · exact .ite hc hc.dbgMemRead
  · exact hc.dbgAns
  · exact hc.dbgAns
  · refine .ite ?_ hc.dbgAns
    split
    next h1 he =>
      have hc1 : h1.Canonical := .of_eq_snd he hc.regRead
      exact hc1.dbgAns

theorem Hw.Canonical.debugWr {frn a : Nat} {v : W32} {par : Par} {meets : List Meet} {h : Hw} (hc : h.Canonical) : (debugWr frn a v par meets h).Canonical := by
  unfold Machine.debugWr
  refine .ite hc ?_
  split
  · refine .dbgAns ?_
    split
    · exact .ite hc.fctlWrite hc
    · exact hc
  · exact .ite hc hc.dbgMemWrite
  · exact hc.scratchSets.dbgAns
  · exact hc.unprivWrite.dbgAns
  · exact hc.regWrite.dbgAns

theorem Hw.Canonical.debugPrd {frn : Nat} {eff hi : Bool} {port : Nat} {h : Hw} (hc : h.Canonical) : (debugPrd frn eff hi port h).Canonical :=
  .ite hc (.ite hc.dbgAns (.dbgAns (.ite hc.portReadEffect hc)))

theorem Hw.Canonical.debugPwr {frn : Nat} {hi : Bool} {port : Nat} {v : W32} {h : Hw} (hc : h.Canonical) : (debugPwr frn hi port v h).Canonical :=
  .ite hc (.ite hc.dbgAns (.ite (.ite hc.dbgAns hc.setFrond.dbgAns) hc.portWrite.dbgAns))

theorem Hw.Canonical.debugNop {h : Hw} (hc : h.Canonical) : (debugNop h).Canonical := .ite hc.dbgAns hc

theorem Hw.Canonical.debugCrcFail {h : Hw} (hc : h.Canonical) : (debugCrcFail h).Canonical := .ite (hc.sb.update rfl) hc

theorem Hw.Canonical.debugLineReset {h : Hw} (hc : h.Canonical) : (debugLineReset h).Canonical := .ite (hc.update rfl) hc

theorem Hw.Canonical.dbgTpktPop {w : Who} {h : Hw} (hc : h.Canonical) : (dbgTpktPop w h).Canonical := .ite hc.regRead hc

end Sys2Proof.Machine
end

section
/-!
SUPPORT. The functions of the grants of a register access (Machine/Gate.lean) keep the storage in canonical form.
-/
namespace Sys2Proof.Machine

theorem Hw.Canonical.whenSet {b : Fld} {v : W32} {f : Hw → Hw} {h : Hw} (hf : (f h).Canonical) (hc : h.Canonical) : (whenSet b v f h).Canonical := .ite hf hc

theorem Hw.Canonical.cmdMgs {f lk : Nat} {payload : List Byte} {h : Hw} (hc : h.Canonical) : (cmdMgs f lk payload h).Canonical := .ite hc.linkSend hc

end Sys2Proof.Machine
end

section
/-!
SUPPORT. Every command, and so every step, keeps the storage in canonical form.
-/
namespace Sys2Proof.Machine

/-- The next state of an outcome, when it answers one, has its storage in canonical form. -/
def OutcomeCanonical (o : Host.Outcome State Fault Refusal) : Prop := ∀ t, o = .next t → t.hw.Canonical

section
variable {s : State} {f : Hw → Hw}

theorem OutcomeCanonical.always (hf : (f s.hw).Canonical) : OutcomeCanonical (always s f) := by
  rintro _ ⟨⟩
  exact hf

theorem OutcomeCanonical.onIsland (hc : s.hw.Canonical) (hf : (f s.hw).Canonical) : OutcomeCanonical (onIsland s f) := .always (.ite hf hc)

theorem OutcomeCanonical.onStart (hc : s.hw.Canonical) (hf : (f s.hw).Canonical) : OutcomeCanonical (onStart s f) := .always (.ite hf hc)

theorem OutcomeCanonical.onClock (hc : s.hw.Canonical) (hf : (f s.hw).Canonical) : OutcomeCanonical (onClock s f) := .always (.ite hf hc)

theorem OutcomeCanonical.onWrite {w : Who} {a : Nat} (hc : s.hw.Canonical) (hf : (f s.hw).Canonical) : OutcomeCanonical (onWrite s w a f) := .always (.ite hf hc)

theorem OutcomeCanonical.onRead {w : Who} {a : Nat} (hc : s.hw.Canonical) (hf : (f s.hw).Canonical) : OutcomeCanonical (onRead s w a f) := .always (.ite hf hc)

theorem OutcomeCanonical.onDoorbell {w : Who} {a : Nat} (hc : s.hw.Canonical) (hf : (f s.hw).Canonical) : OutcomeCanonical (onDoorbell s w a f) := by
  refine .always ?_
  split
  · exact .ite hf hc
  · exact hc

theorem OutcomeCanonical.onService {n : Nat} (hc : s.hw.Canonical) (hf : (f s.hw).Canonical) : OutcomeCanonical (onService s n f) := .always (.ite hf hc)

end

/-! ### The gates of the commands that share one function -/

section
variable {s : State}

theorem OutcomeCanonical.frondMove {f p : Nat} {v : W64} (hc : s.hw.Canonical) : OutcomeCanonical (Machine.always s (fun h => Machine.frondMove h f p v)) :=
  .always hc.frondMove

theorem OutcomeCanonical.iteFrondMove {f p : Nat} {v : W64} {c : Prop} [Decidable c] (hc : s.hw.Canonical) :
    OutcomeCanonical (Machine.always s (fun h => if c then Machine.frondMove h f p v else h)) :=
  .always (.ite hc.frondMove hc)

theorem OutcomeCanonical.frondReadPort {f p : Nat} (hc : s.hw.Canonical) :
    OutcomeCanonical (Machine.always s (fun h => Machine.frondReadPort h f p)) :=
  .always hc.frondReadPort

theorem OutcomeCanonical.regRead {w : Who} {a : Nat} {sets : W32} (hc : s.hw.Canonical) :
    OutcomeCanonical (Machine.onRead s w a (fun h => (Machine.regRead h w a sets).2)) :=
  .onRead hc hc.regRead

end

/-- What every command keeps: each arm of the executor is a gate over one function of the block, and every gate and function keeps the storage canonical. -/
theorem exec_canonical {s : State} (i : Instr) (hc : s.hw.Canonical) : OutcomeCanonical (exec i s) := by
  cases i with
  | porAssert => exact .always .porAssert
  | porRelease => exact .always hc.porRelease
  | rstAssert => exact .always hc.rstAssert
  | rstRelease => exact .always hc.rstRelease
  | testEnHigh => exact .always .testEnHigh
  | pllLock => exact .always hc.pllLock
  | pllLossOfLock => exact .always hc.pllLossOfLock
  | clockRestart => exact .always hc.clockRestart
  | flashCommandDone => exact .onClock hc hc.flashCommandDone
  | flashCommandTimeout => exact .onStart hc hc.flashCommandTimeout
  | imageFirstReadDone => exact .onClock hc hc.imageFirstReadDone
  | startupMarchDone => exact .onClock hc hc.startupMarchDone
  | imageSecondReadDone => exact .onClock hc hc.imageSecondReadDone
  | bootLinkWaitExpire => exact .onStart hc hc.bootLinkWaitExpire
  | boottmoExpire => exact .onStart hc hc.boottmoExpire
  | bootx => exact .onWrite hc hc.bootx
  | beatBoundary => exact .onIsland hc hc.beatBoundary
  | beatTaskDone => exact .onWrite hc hc.beatTaskDone
  | claimReq => exact .onWrite hc hc.claimReq
  | claimRel => exact .onWrite hc hc.claimRel
  | registerWrite => exact .always hc.registerWrite
  | rcFieldRead => exact .always hc.rcFieldRead
  | matRead => exact .onClock hc hc.matRead
  | matWrite => exact .onClock hc hc.matWrite
  | mchStart | mchAbort => exact .onWrite hc (.whenSet hc.mchCtlWrite hc)
  | marchRowLock => exact .onClock hc hc.marchRowLock
  | marchRunEnd => exact .onClock hc hc.marchRunEnd
  | suspectServiceRun => exact .onClock hc hc.suspectServiceRun
  | matSuspPop | repairLogPop | rgnLogPop | meuLogPop => exact .regRead hc
  | chainTrigger | stimWrite => exact .iteFrondMove hc
  | descriptorFetchDone => exact .onClock hc hc.descriptorFetchDone
  | pendingPromote => exact .onClock hc hc.pendingPromote
  | chainStop => exact .onWrite hc (.whenSet hc.chainStop hc)
  | chainAbort => exact .onWrite hc (.whenSet hc.chainAbort hc)
  | segmentReread => exact .onClock hc hc.segmentReread
  | progressWordWrite => exact .onClock hc hc.progressWordWrite
  | chainCommandEnd => exact .onClock hc hc.commandEnd
  | completionRecordWrite => exact .onClock hc hc.completionRecordWrite
  | completionRecordWriteDone => exact .onClock hc hc.completionRecordWriteDone
  | queueIssue => exact .onClock hc hc.queueIssue
  | dbSq => exact .onDoorbell hc hc.dbSq
  | dbCq => exact .onDoorbell hc hc.dbCq
  | queueEnable => exact .onWrite hc hc.queueEnable
  | queueDisable => exact .onWrite hc hc.queueDisable
  | collectiveRequest => exact .onService hc hc.collectiveRequest
  | collectiveRequestEnd => exact .onClock hc hc.collectiveRequestEnd
  | stepTimeout => exact .onClock hc hc.stepTimeout
  | fenceTimeout => exact .onClock hc hc.fenceTimeout
  | contextValidate => exact .onWrite hc (.whenSet hc.contextValidate hc)
  | cxHalt => exact .onWrite hc hc.cxHalt
  | cxeArdyUpdate => exact .onService hc hc.cxeArdyUpdate
  | receivePost => exact .onService hc hc.receivePost
  | tokenSend => exact .onService hc hc.tokenSend
  | frameTransmit => exact .onClock hc hc.frameTransmit
  | frameReceiveFailed => exact .onClock hc hc.frameReceiveFailed
  | idle | data | arec | ready | barrier | abort | fence | done | getreq | credit | epoch | snak | sref | mgmt | init | initack | laneset | lsack
  | lsref | lreq | down => exact .onClock hc hc.typedFrame
  | align => exact .onClock hc hc.alignReceived
  | replayTimeout => exact .onClock hc hc.replayTimeout
  | nakTimeout => exact .onClock hc hc.nakTimeout
  | lanesetTimeout => exact .onClock hc hc.lanesetTimeout
  | linkUp => exact .onWrite hc (.whenSet hc.linkUpCmd hc)
  | linkDownCmd => exact .onWrite hc (.whenSet hc.linkDownCmd hc)
  | linkRetrain => exact .onWrite hc (.whenSet hc.linkRetrain hc)
  | laneRetrain => exact .onWrite hc (.whenSet hc.laneRetrain hc)
  | anDone => exact .onClock hc hc.anDone
  | trainDone => exact .onClock hc hc.trainDone
  | trainTimeout => exact .onClock hc hc.trainTimeout
  | initTimeout => exact .onClock hc hc.initTimeout
  | initResend => exact .onClock hc hc.initResend
  | laneSyncLoss => exact .onClock hc hc.laneSyncLoss
  | ltScan => exact .onWrite hc (.whenSet hc.ltScan hc)
  | ltScanDone => exact .onClock hc hc.ltScanDone
  | ltClr => exact .onWrite hc (.whenSet hc.ltClr hc)
  | hostSRead => exact .onClock hc hc.hostSRead
  | hostSWrite => exact .onClock hc hc.hostSWrite
  | mReadData => exact .onClock hc hc.mReadData
  | mWriteResponse => exact .onClock hc hc.mWriteResponse
  | mCasResponse => exact .onClock hc hc.mCasResponse
  | hostCreditReturn => exact .onClock hc hc.hostCreditReturn
  | mRequestTimeout => exact .onClock hc hc.mRequestTimeout
  | hostClockLoss => exact .onClock hc hc.hostClockLoss
  | hostClockReturn => exact .onClock hc hc.hostClockReturn
  | translationLookup => exact .onClock hc hc.translationLookup
  | translationWalk => exact .onClock hc hc.translationWalk
  | lookaheadWalk => exact .onClock hc hc.lookaheadWalk
  | walkTableReadDone => exact .onClock hc hc.walkTableReadDone
  | markCasDone => exact .onClock hc hc.markCasDone
  | xltInv | xltPrb | sysGate | sysStWrite | sysPfl | sysFpbar | sysMbxs | aluAdd | aluSub | aluAnd | aluOr | aluXor | aluAndn | aluShl | aluShr
  | aluSar | aluRor | aluEq | aluNe | aluLts | aluLtu | aluGes | aluGeu | mstepMul | mstepDiv | fpuFma | fpuAdd | fpuMul | fpuMax | fpuMin | fpuRcp
  | fpuCvw | fpuCvi | fpuCvf | lsuLd8 | lsuLd4 | lsuSt8 | lsuSt4 | lsuLock | lsuUnlock | irqEoi => exact .frondMove hc
  | xltInvGo => exact .onWrite hc (.whenSet hc.xltInvGo hc)
  | invalidationDone => exact .onClock hc hc.invalidationDone
  | probeDone => exact .onClock hc hc.probeDone
  | xltDirWrite => exact .onWrite hc hc.xltDirWrite
  | seq => exact .onClock hc hc.wordSeq
  | jmp => exact .onClock hc hc.wordJmp
  | jmpc => exact .onClock hc hc.wordJmpc
  | mway => exact .onClock hc hc.wordMway
  | call => exact .onClock hc hc.wordCall
  | ret => exact .onClock hc hc.wordRet
  | retx => exact .onClock hc hc.wordRetx
  | wait => exact .onClock hc hc.wordWait
  | waitWake => exact .onClock hc hc.waitWake
  | halt => exact .onClock hc hc.wordHalt
  | rep => exact .onClock hc hc.wordRep
  | repeatIteration => exact .onClock hc hc.wordIter
  | knFatal => exact .onClock hc hc.knFatal
  | fatalRecovery => exact .onClock hc hc.fatalRecovery
  | sysMbxr | cmdSqin | cmdMgq => exact .frondReadPort hc
  | cmdMgs => exact .onService hc hc.cmdMgs
  | fpuResultWrite => exact .onClock hc hc.fpuResultWrite
  | lsuLoadDone => exact .onClock hc hc.lsuLoadDone
  | lsuStoreAck => exact .onClock hc hc.lsuStoreAck
  | lsuLockAcquired => exact .onClock hc hc.lsuLockAcquired
  | lsuLockBreak => exact .onClock hc hc.lsuLockBreak
  | eventSourceFire => exact .onClock hc hc.eventSourceFire
  | levelSourceSample => exact .onClock hc hc.levelSourceSample
  | knIrqInEdge => exact .onClock hc hc.knIrqInEdge
  | interruptPresent => exact .onClock hc hc.irqPresent
  | interruptEntry => exact .onClock hc hc.interruptEntry
  | holdoffEnd => exact .onClock hc hc.holdoffEnd
  | irqPendWrite => exact .onWrite (f := fun h => Machine.irqPendWrite h _ _ _) hc hc.irqPendWrite
  | timerMatch => exact .onIsland hc hc.timerMatch
  | timerWrap => exact .onIsland hc hc.timerWrap
  | timerMoverResponse => exact .onClock hc hc.timerMoverResponse
  | timerLinkOperation => exact .onIsland hc hc.timerLinkOperation
  | timerCapture => exact .onIsland hc hc.timerCapture
  | tmrCapRead => exact .onRead hc hc.tmrCapRead
  | timerStart | timerStop => exact .onWrite hc (.whenSet hc.tmrCmdWrite hc)
  | staggerGo => exact .onWrite hc (.whenSet hc.staggerGo hc)
  | tbLoRead => exact .onRead hc hc.tbLoRead
  | wdtSvc => exact .onWrite hc hc.wdtSvc
  | watchdogStage1Expire => exact .onIsland hc hc.watchdogStage1Expire
  | watchdogStage2Expire => exact .onIsland hc hc.watchdogStage2Expire
  | watchdogHaltRelease => exact .onIsland hc hc.watchdogHaltRelease
  | wdtWinWrite => exact .onWrite hc (.whenSet hc.wdtWinWrite hc)
  | propose => exact .onWrite hc (.whenSet hc.propose hc)
  | lichenHashDone => exact .onIsland hc hc.lichenHashDone
  | withdraw => exact .onWrite hc (.whenSet hc.withdraw hc)
  | lchHgo => exact .onWrite hc hc.lchHgo
  | lchDgo => exact .onWrite hc hc.lchDgo
  | lichenVerifyDone => exact .onIsland hc hc.lichenVerifyDone
  | lichenApply => exact .onIsland hc hc.lichenApply
  | lichenWindowExpire => exact .onIsland hc hc.lichenWindowExpire
  | controlParityError => exact .onClock hc hc.controlParityError
  | streamProtocolError => exact .onClock hc hc.streamProtocolError
  | recover => exact .always (.ite hc.recover hc)
  | regionRecoveryStart => exact .onClock hc hc.regionRecoveryStart
  | quiesceDrainDone => exact .onClock hc hc.quiesceDrainDone
  | drainTimeout => exact .onClock hc hc.regionDrainTimeout
  | discardDone => exact .onClock hc hc.discardDone
  | rejoin => exact .onClock hc hc.regionRejoin
  | registerFabricParityError => exact .onClock hc hc.registerFabricParityError
  | debugNop => exact .onIsland hc hc.debugNop
  | debugRd => exact .onIsland hc hc.debugRd
  | debugWr => exact .onIsland hc hc.debugWr
  | debugPrd => exact .onIsland hc hc.debugPrd
  | debugPwr => exact .onIsland hc hc.debugPwr
  | debugCrcFail => exact .onIsland hc hc.debugCrcFail
  | debugLineReset => exact .onIsland hc hc.debugLineReset
  | chal => exact .onIsland hc hc.chal
  | go => exact .onIsland hc hc.go
  | debugVerifyDone => exact .onIsland hc hc.debugVerifyDone
  | close => exact .onIsland hc hc.close
  | debugIdleTimeout => exact .onIsland hc hc.debugIdleTimeout
  | debugHaltReq => exact .onIsland hc hc.debugHaltReq
  | debugHaltTaken => exact .onIsland hc hc.debugHaltTaken
  | debugResume => exact .onIsland hc hc.debugResume
  | debugStep => exact .onIsland hc hc.debugStep
  | dbgTpktPop => exact .always hc.dbgTpktPop
  | traceSinkWrite => exact .onClock hc hc.traceSinkWrite
  | tsEnable => exact .onWrite hc hc.tsEnable
  | pwrSleep => exact .onWrite hc hc.pwrSleep
  | pwrOff => exact .onWrite hc hc.pwrOff
  | pwrWake => exact .onWrite hc hc.pwrWake
  | enterConditionsMet => exact .onClock hc hc.enterConditionsMet
  | enterTimeout => exact .onIsland hc hc.enterTimeout
  | sleepCommit => exact .onClock hc hc.sleepCommit
  | wakeStart => exact .onIsland hc hc.wakeStart
  | pwrAckRise => exact .onIsland hc hc.pwrAckRise
  | pwrAckFall => exact .onIsland hc hc.pwrAckFall
  | wakeComplete => exact .onClock hc hc.wakeComplete
  | powerupClearDone => exact .onClock hc hc.powerupClearDone
  | wakeAckTimeout => exact .onIsland hc hc.wakeAckTimeout
  | idleEntry => exact .onClock hc hc.idleEntry
  | idleExit => exact .onClock hc hc.idleExit
  | sensorSample => exact .onIsland hc hc.sensorSample
  | laneSyncAcquired => exact .onClock hc hc.laneSyncAcquired
  | startupPowerHandshakeTimeout => exact .onStart hc hc.startupPowerHandshakeTimeout
  | tbWrap => exact .onIsland hc hc.tbWrap

/-- One step: the next command of the queue, or a clock tick of an idle block. -/
theorem step_canonical {s : State} (hc : s.hw.Canonical) : OutcomeCanonical (step s) := by
  unfold step
  split
  · rintro _ ⟨⟩
    exact .ite hc.clockTick hc
  · exact exec_canonical _ hc

end Sys2Proof.Machine
end

section
/-!
SUPPORT. The memories and the register file of the model stay in canonical form (R64).
-/
namespace Sys2Proof.Proofs.MatCushion
open Sys2Proof Sys2Proof.Machine

/-- Settles O60: each command is a gate over one function of the block, and every function of the block keeps the storage canonical. -/
theorem everyStepKeepsCanonicalStorage : Obligations.EveryStepKeepsCanonicalStorage := fun _ t hs hstep =>
  State.canonical_iff.2 (step_canonical (State.canonical_iff.1 hs) t hstep)

end Sys2Proof.Proofs.MatCushion
end

section
/-!
SUPPORT. The words of the mat and the cushion: addresses of one word, stored bytes after a word is written, and what the logs of an access leave (R43 to R59).
-/
namespace Sys2Proof.Machine

/-! ### Byte memory -/

/-- Every byte after a store of consecutive bytes. -/
theorem memGet_memSets (m : KV Byte) (a b : Nat) (bs : List Byte) :
    memGet (memSets m a bs) b = if a ≤ b ∧ b < a + bs.length then bs.getD (b - a) 0 else memGet m b := by
  induction bs generalizing m a with
  | nil => simp [memSets]
  | cons x bs ih =>
    rw [memSets, ih, List.length_cons]
    rcases Nat.lt_trichotomy b a with hlt | rfl | hgt
    · rw [if_neg (by omega), if_neg (by omega), memGet_memSet_other m x (by omega)]
    · rw [if_neg (by omega), if_pos (by omega), memGet_memSet_same, Nat.sub_self, List.getD_cons_zero]
    · obtain ⟨k, rfl⟩ := Nat.exists_eq_add_of_lt hgt
      have hin : (a + 1 ≤ a + k + 1 ∧ a + k + 1 < a + 1 + bs.length) ↔ (a ≤ a + k + 1 ∧ a + k + 1 < a + (bs.length + 1)) := by omega
      rw [memGet_memSet_other m x (by omega), show a + k + 1 - a = k + 1 by omega, show a + k + 1 - (a + 1) = k by omega, List.getD_cons_succ]
      simp only [hin]

theorem kvFind_kvDel_same {α : Type} (m : KV α) (k : Nat) : kvFind (kvDel m k) k = none := by
  simpa [kvKeep, kvDel] using kvFind_kvKeep m (fun j => j != k) k

theorem kvFind_kvDel_other {α : Type} (m : KV α) {j k : Nat} (hne : j ≠ k) : kvFind (kvDel m k) j = kvFind m j := by
  simpa [kvKeep, kvDel, hne] using kvFind_kvKeep m (fun j => j != k) j

/-! ### One word (R43, R44, R53) -/

section
variable {a b : Nat}

theorem bits_eq_of_word {hi lo : Nat} (hw : a / 8 = b / 8) (hlo : 3 ≤ lo) : bits a hi lo = bits b hi lo := by
  obtain ⟨k, rfl⟩ := Nat.exists_eq_add_of_le hlo
  have hshift : ∀ x : Nat, x >>> (3 + k) = (x / 8) >>> k := fun x => by rw [Nat.shiftRight_add, x.shiftRight_eq_div_pow 3]
  rw [bits, bits, hshift, hshift, hw]

theorem lt_cushion_iff_of_word (hw : a / 8 = b / 8) : a < 0x10000000 ↔ b < 0x10000000 := by omega

theorem memRegion_eq_of_word (hw : a / 8 = b / 8) : memRegion a = memRegion b := by
  unfold memRegion
  simp only [lt_cushion_iff_of_word hw, bits_eq_of_word hw (show 3 ≤ 20 by decide), show a / 0x2000000 = b / 0x2000000 by omega]

theorem memBank_eq_of_word (hw : a / 8 = b / 8) : memBank a = memBank b := by
  unfold memBank
  simp only [lt_cushion_iff_of_word hw, bits_eq_of_word hw (Nat.le_refl 3)]

theorem bankKeyOf_eq_of_word (hw : a / 8 = b / 8) : bankKeyOf a = bankKeyOf b := by
  have hcush : decide (0x10000000 ≤ a) = decide (0x10000000 ≤ b) := decide_eq_decide.mpr (by omega)
  rw [bankKeyOf, bankKeyOf, memRegion_eq_of_word hw, memBank_eq_of_word hw, hcush]

end

theorem mem_rangeIncl {a b x : Nat} : x ∈ rangeIncl a b ↔ a ≤ x ∧ x ≤ b := by
  simp only [rangeIncl, List.mem_map, List.mem_range]
  constructor
  · rintro ⟨y, hy, rfl⟩
    omega
  · exact fun hx => ⟨x - a, by omega, by omega⟩

/-- The words of an access are the multiples of 8 from its first byte's to its last byte's. -/
theorem mem_wordsOf {a len w : Nat} : w ∈ wordsOf a len ↔ w % 8 = 0 ∧ a / 8 ≤ w / 8 ∧ w / 8 ≤ (a + len - 1) / 8 := by
  simp only [wordsOf, List.mem_map, mem_rangeIncl]
  constructor
  · rintro ⟨x, hx, rfl⟩
    omega
  · exact fun hw => ⟨w / 8, hw.2, by omega⟩

/-! ### A word written (R43, R50) -/

section
variable (h : Hw) {w : Nat} (hw : w % 8 = 0)

theorem isMarked_putWord_of_isMarked {a b : Nat} {bs : List Byte} (hm : isMarked (putWord h a bs) b = true) : isMarked h b = true := by
  by_cases hab : b / 8 = a / 8
  · simp [isMarked, putWord, hab, kvFind_kvDel_same] at hm
  · simpa [isMarked, putWord, kvFind_kvDel_other _ hab] using hm

theorem putWord_undefBank (a : Nat) (bs : List Byte) : (putWord h a bs).undefBank = h.undefBank := rfl

theorem putWord_defd (a : Nat) (bs : List Byte) :
    (putWord h a bs).defd = if h.undefBank.contains (bankKeyOf a) then kvIns h.defd (a / 8) () else h.defd := rfl

/-- A written word of a bank with undefined contents is defined; the other words stay as they are. -/
theorem isUndef_putWord (a b : Nat) (bs : List Byte) : isUndef (putWord h a bs) b = if b / 8 = a / 8 then false else isUndef h b := by
  rw [isUndef, isUndef, putWord_undefBank, putWord_defd]
  by_cases hab : b / 8 = a / 8
  · rw [if_pos hab, hab, bankKeyOf_eq_of_word hab]
    cases h.undefBank.contains (bankKeyOf a) with
    | false => rfl
    | true => rw [if_pos rfl, kvFind_kvIns_same, Bool.true_and, Option.isNone_some]
  · rw [if_neg hab]
    cases h.undefBank.contains (bankKeyOf a) with
    | false => rfl
    | true => rw [if_pos rfl, kvFind_kvIns_other _ _ hab]

include hw

theorem byteAt_putWord {bs : List Byte} (hbs : bs.length = 8) (b : Nat) :
    (putWord h w bs).byteAt b = if b / 8 = w / 8 then bs.getD (b - w) 0 else h.byteAt b := by
  have hmem : (putWord h w bs).mem = memSets h.mem w bs := by
    rw [putWord, List.take_of_length_le hbs.le, show w / 8 * 8 = w by omega]
  rw [Hw.byteAt, Hw.byteAt, isUndef_putWord, hmem, memGet_memSets, hbs]
  split
  next hb => rw [if_neg Bool.false_ne_true, if_pos (by omega)]
  next hb => rw [if_neg (show ¬ (w ≤ b ∧ b < w + 8) by omega)]

end

/-! ### The bytes of a write (R50) -/

/-- The byte that a write from `a` gives to the address `b`, if it gives one. -/
def givenByte (a : Nat) (data : List (Option Byte)) (b : Nat) : Option Byte := if b < a then none else (data[b - a]?).join

theorem wordBytes_nil (a : Nat) (data : List (Option Byte)) (ms : Master) (w : Nat) :
    wordBytes a data ms [] w = (List.range 8).map (fun i => givenByte a data (w + i)) := by
  simp only [wordBytes, givenByte, meetWins, List.all_nil, Bool.not_true, Bool.false_eq_true, if_false]

/-- The write of one word of an access that meets no failed check. -/
def writeStep (a : Nat) (data : List (Option Byte)) (h : Hw) (w : Nat) : Hw :=
  let bs := (List.range 8).map (fun i => givenByte a data (w + i))
  if bs.all (·.isNone) then h else putWord h w ((List.range 8).map (fun i => ((bs[i]?).join).getD ((h.bytesAt w 8).getD i 0)))

section
variable (a : Nat) (data : List (Option Byte)) (h : Hw)

theorem isMarked_of_isMarked_writeStep {w b : Nat} (hm : isMarked (writeStep a data h w) b = true) : isMarked h b = true := by
  unfold writeStep at hm
  extract_lets bs at hm
  split at hm
  · exact hm
  · exact isMarked_putWord_of_isMarked h hm

theorem writeStep_frame (w : Nat) : (writeStep a data h w).scratch = h.scratch ∧ (writeStep a data h w).fronds = h.fronds := by
  unfold writeStep
  extract_lets bs
  split <;> exact ⟨rfl, rfl⟩

/-- The bytes of the word take what the write gives, and no other byte changes. -/
theorem byteAt_writeStep {w : Nat} (hw : w % 8 = 0) (b : Nat) :
    (writeStep a data h w).byteAt b = if b / 8 = w / 8 then (givenByte a data b).getD (h.byteAt b) else h.byteAt b := by
  have hplace : b / 8 = w / 8 → b - w < 8 ∧ w + (b - w) = b := by omega
  unfold writeStep
  extract_lets bs
  split
  next hnone =>
    split
    next hb =>
      obtain ⟨hlt, heq⟩ := hplace hb
      have hgiven : (givenByte a data (w + (b - w))).isNone = true := List.all_eq_true.mp hnone _ (List.mem_map_of_mem (List.mem_range.mpr hlt))
      rw [← heq, Option.isNone_iff_eq_none.mp hgiven, Option.getD_none]
    next => rfl
  next =>
    rw [byteAt_putWord h hw (by simp)]
    split
    next hb =>
      obtain ⟨hlt, heq⟩ := hplace hb
      simp [bs, Hw.bytesAt, hlt, heq]
    next => rfl

/-- A write of any words gives the bytes of those words, and changes no other. -/
theorem byteAt_foldl_writeStep {l : List Nat} (hl : ∀ w ∈ l, w % 8 = 0) (b : Nat) :
    (l.foldl (writeStep a data) h).byteAt b = if b / 8 * 8 ∈ l then (givenByte a data b).getD (h.byteAt b) else h.byteAt b := by
  induction l generalizing h with
  | nil => simp
  | cons w l ih =>
    have hword : b / 8 = w / 8 ↔ b / 8 * 8 = w := by
      have := hl w List.mem_cons_self
      omega
    rw [List.foldl_cons, ih _ (fun x hx => hl x (List.mem_cons_of_mem w hx)), byteAt_writeStep a data h (hl w List.mem_cons_self)]
    simp only [List.mem_cons, hword]
    by_cases hb : b / 8 * 8 = w
    · simp only [hb, true_or, if_true]
      cases givenByte a data b <;> simp
    · simp only [hb, false_or, if_false]

theorem foldl_writeStep_frame (l : List Nat) : (l.foldl (writeStep a data) h).scratch = h.scratch ∧ (l.foldl (writeStep a data) h).fronds = h.fronds := by
  induction l generalizing h with
  | nil => exact ⟨rfl, rfl⟩
  | cons w l ih =>
    obtain ⟨hscratch, hfronds⟩ := writeStep_frame a data h w
    obtain ⟨hscratch', hfronds'⟩ := ih (writeStep a data h w)
    exact ⟨hscratch'.trans hscratch, hfronds'.trans hfronds⟩

end

/-! ### Checks (R51) -/

section
variable (h : Hw) (ms : Master)

theorem wordCheck_good {w : Nat} (hm : isMarked h w = false) : wordCheck h ms w .good = (h, false) := by
  simp [wordCheck, hm]

theorem wordCheck_failed (w : Nat) : wordCheck h ms w .failed = (perrLog h ms w, true) := by
  simp [wordCheck]

theorem parityRead_good {a len : Nat} (hm : ∀ w ∈ wordsOf a len, isMarked h w = false) : parityRead h ms a len .good = (h, false) := by
  unfold parityRead
  generalize wordsOf a len = l at hm
  induction l with
  | nil => rfl
  | cons w l ih =>
    obtain ⟨hw, hl⟩ := List.forall_mem_cons.mp hm
    rw [List.foldl_cons]
    simp only [Par.check, Par.good, List.getElem?_nil, Option.getD_none, wordCheck_good h ms hw, Bool.or_false]
    exact ih hl

theorem parityRead_failed {a len : Nat} (hl : wordsOf a len = [a / 8 * 8]) : parityRead h ms a len .failed = (perrLog h ms (a / 8 * 8), true) := by
  have hfirst : a / 8 * 8 / 8 - a / 8 = 0 := by omega
  simp only [parityRead, hl, List.foldl_cons, List.foldl_nil, hfirst, Par.check, Par.failed, List.getElem?_cons_zero, Option.getD_some, wordCheck_failed, Bool.or_true]

/-- A word whose check is good is merged and stored. -/
theorem wordWrite_good {w : Nat} (bs : List (Option Byte)) (partialW : Bool) (hm : isMarked h w = false) :
    wordWrite h ms w bs partialW .good = (putWord h w ((List.range 8).map (fun i => ((bs[i]?).join).getD ((h.bytesAt w 8).getD i 0))), false) := by
  cases partialW <;> simp [wordWrite, wordCheck_good h ms hm]

end

end Sys2Proof.Machine
end

section
/-!
SUPPORT. What the logs of an access leave: refused accesses (R58, R59), failed checks (R51, R52) and discarded beats (R25).
-/
namespace Sys2Proof.Machine

theorem Hw.rb_sb_same (h : Hw) (a : Nat) {f : Fld} (hf : fldInWord f = true) : (h.sb a f).rb a f = true := by
  rw [Hw.rb, Hw.sb, h.rf_wf_same a hf, Nat.mod_eq_of_lt (Nat.one_lt_two_pow (by simp [fldInWord] at hf; omega)), beq_self_eq_true]

theorem Hw.rb_wf_apart (h : Hw) (a : Nat) {f g : Fld} (hg : fldInWord g = true) (hfg : fldApart f g = true) (n : Nat) : (h.wf a f n).rb a g = h.rb a g :=
  congrArg (· == 1) (h.rf_wf_apart a hg hfg n)

theorem Hw.rb_wf_other (h : Hw) {a b : Nat} (f g : Fld) (n : Nat) (hne : b ≠ a) : (h.wf a f n).rb b g = h.rb b g :=
  congrArg (· == 1) (h.rf_wf_other f g n hne)

/-! ### A refused access (R59) -/

section
variable (h : Hw) (ms : Master) (a c : Nat) (write : Bool)

/-- The bits and the count of a refused access, which every one leaves. -/
def protCounted (h : Hw) (r : Nat) : Hw := (h.sb (MAT_STAT r) MAT_STAT_PROT).addSat (PROT_INFO r) PROT_INFO_COUNT 1

/-- The address, cause and master of a refused access, which a free PROT_INFO takes. -/
def protCaptured (h : Hw) (r m a c : Nat) (write : Bool) : Hw :=
  ((((h.wf (PROT_ADDR r) PROT_ADDR_ADDR a).wf (PROT_INFO r) PROT_INFO_WRITE (b2n write)).wf (PROT_INFO r) PROT_INFO_CAUSE c).wf
    (PROT_INFO r) PROT_INFO_MASTER m).sb (PROT_INFO r) PROT_INFO_VALID

theorem protLog_eq : protLog h ms a c write =
    if h.rb (PROT_INFO (protMaster ms).1) PROT_INFO_VALID then protCounted h (protMaster ms).1
    else protCaptured (protCounted h (protMaster ms).1) (protMaster ms).1 (protMaster ms).2 a c write := rfl

theorem protLog_frame : (protLog h ms a c write).mem = h.mem ∧ (protLog h ms a c write).marked = h.marked ∧ (protLog h ms a c write).fronds = h.fronds := by
  rw [protLog_eq]
  split <;> exact ⟨rfl, rfl, rfl⟩

theorem protCounted_prot (r : Nat) : (protCounted h r).rb (MAT_STAT r) MAT_STAT_PROT = true :=
  (Hw.rb_wf_other _ _ _ _ (by simp [MAT_STAT, PROT_INFO])).trans (h.rb_sb_same _ rfl)

theorem protCaptured_matStat (r m : Nat) (f : Fld) : (protCaptured h r m a c write).rb (MAT_STAT r) f = h.rb (MAT_STAT r) f := by
  have hinfo : MAT_STAT r ≠ PROT_INFO r := by simp [MAT_STAT, PROT_INFO]
  have haddr : MAT_STAT r ≠ PROT_ADDR r := by simp [MAT_STAT, PROT_ADDR]
  rw [protCaptured, Hw.sb, Hw.rb_wf_other _ _ _ _ hinfo, Hw.rb_wf_other _ _ _ _ hinfo, Hw.rb_wf_other _ _ _ _ hinfo, Hw.rb_wf_other _ _ _ _ hinfo,
    Hw.rb_wf_other _ _ _ _ haddr]

/-- PROT is set, whether PROT_INFO was free or not. -/
theorem protLog_prot : (protLog h ms a c write).rb (MAT_STAT (protMaster ms).1) MAT_STAT_PROT = true := by
  rw [protLog_eq]
  split
  · exact protCounted_prot h _
  · rw [protCaptured_matStat]
    exact protCounted_prot h _

/-- A free PROT_INFO takes the cause, the master and the direction of the access. -/
theorem protLog_info (hfree : h.rb (PROT_INFO (protMaster ms).1) PROT_INFO_VALID = false) :
    (protLog h ms a c write).rb (PROT_INFO (protMaster ms).1) PROT_INFO_VALID = true ∧
    (protLog h ms a c write).rf (PROT_INFO (protMaster ms).1) PROT_INFO_CAUSE = c % 4 ∧
    (protLog h ms a c write).rf (PROT_INFO (protMaster ms).1) PROT_INFO_MASTER = (protMaster ms).2 % 16 ∧
    (protLog h ms a c write).rb (PROT_INFO (protMaster ms).1) PROT_INFO_WRITE = write := by
  rw [protLog_eq, if_neg (by rw [hfree]; exact Bool.false_ne_true), protCaptured]
  refine ⟨Hw.rb_sb_same _ _ rfl, ?_, ?_, ?_⟩
  · rw [Hw.sb, Hw.rf_wf_apart _ _ rfl rfl, Hw.rf_wf_apart _ _ rfl rfl, Hw.rf_wf_same _ _ rfl]
    rfl
  · rw [Hw.sb, Hw.rf_wf_apart _ _ rfl rfl, Hw.rf_wf_same _ _ rfl]
    rfl
  · rw [Hw.sb, Hw.rb_wf_apart _ _ rfl rfl, Hw.rb_wf_apart _ _ rfl rfl, Hw.rb_wf_apart _ _ rfl rfl, Hw.rb, Hw.rf_wf_same _ _ rfl]
    cases write <;> rfl

/-- Protection masters are numbered in four bits (R57). -/
theorem protMaster_lt : (protMaster ms).2 < 16 := by
  cases ms <;> simp only [protMaster] <;> omega

end

/-! ### A failed check (R51, R52) -/

section
variable (h : Hw) (ms : Master) (a : Nat)

theorem suspectCount_frame : (suspectCount h a).mem = h.mem ∧ (suspectCount h a).fronds = h.fronds ∧ (suspectCount h a).marked = h.marked := by
  unfold suspectCount
  extract_lets r cush b key mr old new thr h1 h2 mr1
  split
  · split
    · exact ⟨rfl, rfl, rfl⟩
    · split <;> exact ⟨rfl, rfl, rfl⟩
  · exact ⟨rfl, rfl, rfl⟩

/-- A suspect bank is reported in other bits of MAT_STAT. -/
theorem suspectCount_perr : (suspectCount h a).rb (MAT_STAT (memRegion a)) MAT_STAT_PERR = h.rb (MAT_STAT (memRegion a)) MAT_STAT_PERR := by
  unfold suspectCount
  extract_lets r cush b key mr old new thr h1 h2 mr1
  have hsusp : h2.rb (MAT_STAT r) MAT_STAT_PERR = h.rb (MAT_STAT r) MAT_STAT_PERR := h1.rb_wf_apart _ rfl rfl 1
  split
  · split
    · exact hsusp
    · split
      · exact hsusp
      · exact (h2.rb_wf_apart _ rfl rfl 1).trans hsusp
  · rfl

theorem perrLog_frame : (perrLog h ms a).mem = h.mem ∧ (perrLog h ms a).fronds = h.fronds := by
  unfold perrLog
  extract_lets r cush h1 h2 h3 h4
  have h3_frame : h3.mem = h.mem ∧ h3.fronds = h.fronds := by
    unfold h3
    split <;> exact ⟨rfl, rfl⟩
  obtain ⟨hmem, hfronds, -⟩ := suspectCount_frame h4 a
  exact ⟨hmem.trans h3_frame.1, hfronds.trans h3_frame.2⟩

theorem isMarked_perrLog {b : Nat} (hb : b / 8 = a / 8) : isMarked (perrLog h ms a) b = true := by
  unfold perrLog
  extract_lets r cush h1 h2 h3 h4
  obtain ⟨-, -, hmarked⟩ := suspectCount_frame h4 a
  rw [isMarked, hmarked, hb, kvFind_kvIns_same, Option.isSome_some]

theorem perrLog_perr : (perrLog h ms a).rb (MAT_STAT (memRegion a)) MAT_STAT_PERR = true := by
  have hinfo : MAT_STAT (memRegion a) ≠ MAT_PERR_INFO (memRegion a) := by simp [MAT_STAT, MAT_PERR_INFO]
  have haddr : MAT_STAT (memRegion a) ≠ MAT_PERR_ADDR (memRegion a) := by simp [MAT_STAT, MAT_PERR_ADDR]
  unfold perrLog
  extract_lets r cush h1 h2 h3 h4
  have h2_perr : h2.rb (MAT_STAT r) MAT_STAT_PERR = true := (h1.rb_wf_other _ _ _ hinfo).trans (Hw.rb_sb_same _ _ rfl)
  have h3_perr : h3.rb (MAT_STAT r) MAT_STAT_PERR = true := by
    unfold h3
    split
    · exact h2_perr
    · rw [Hw.sb, Hw.rb_wf_other _ _ _ _ hinfo, Hw.rb_wf_other _ _ _ _ hinfo, Hw.rb_wf_other _ _ _ _ hinfo, Hw.rb_wf_other _ _ _ _ hinfo, Hw.rb_wf_other _ _ _ _ hinfo,
        Hw.rb_wf_other _ _ _ _ haddr]
      exact h2_perr
  exact (suspectCount_perr h4 a).trans h3_perr

theorem wordCheck_frame (w : Nat) (c : Check) : (wordCheck h ms w c).1.mem = h.mem ∧ (wordCheck h ms w c).1.fronds = h.fronds := by
  unfold wordCheck
  split
  · exact ⟨rfl, rfl⟩
  · exact ⟨rfl, rfl⟩
  · exact perrLog_frame h ms w

theorem parityRead_frame (len : Nat) (par : Par) : (parityRead h ms a len par).1.mem = h.mem ∧ (parityRead h ms a len par).1.fronds = h.fronds := by
  unfold parityRead
  refine List.foldlRecOn (motive := fun acc : Hw × Bool => acc.1.mem = h.mem ∧ acc.1.fronds = h.fronds) _ _ ⟨rfl, rfl⟩ fun acc hacc w _ => ?_
  obtain ⟨hmem, hfronds⟩ := wordCheck_frame acc.1 ms w (par.check (w / 8 - a / 8))
  exact ⟨hmem.trans hacc.1, hfronds.trans hacc.2⟩

/-! ### A discarded beat (R25, R428) -/

theorem meuLog_frame (cls r addr : Nat) : (meuLog h cls r addr).mem = h.mem ∧ (meuLog h cls r addr).fronds = h.fronds := by
  unfold meuLog
  extract_lets e
  split <;> exact ⟨rfl, rfl⟩

theorem meuLog_xbperr (cls r addr : Nat) : (meuLog h cls r addr).rb MEU_STAT MEU_STAT_XBPERR = h.rb MEU_STAT MEU_STAT_XBPERR := by
  unfold meuLog
  extract_lets e
  split
  · rfl
  · exact h.rb_wf_apart _ rfl rfl 1

theorem sideLog_frame : (sideLog h ms a).mem = h.mem ∧ (sideLog h ms a).fronds = h.fronds := by
  unfold sideLog
  extract_lets r
  split
  · obtain ⟨hmem, hfronds, -, -⟩ := rgnLog_frame h r 3 (arbIndex ms) (a / 8 * 8)
    exact ⟨hmem, hfronds⟩
  · exact meuLog_frame _ 2 r (a / 8 * 8)

/-- Between two regions MEU_STAT reports it. -/
theorem sideLog_xbperr (hne : (protMaster ms).1 ≠ memRegion a) : (sideLog h ms a).rb MEU_STAT MEU_STAT_XBPERR = true := by
  rw [sideLog, if_neg hne, meuLog_xbperr]
  exact h.rb_sb_same _ rfl

end

end Sys2Proof.Machine
end

section
/-!
SUPPORT. A read and a write of the mat or the cushion outside any cushion meeting (R25, R43 to R59).
-/
namespace Sys2Proof.Machine

section
variable (h : Hw) (m : Master) (a : Nat)

/-! ### The master (R47 to R49, R54) -/

/-- A master with nothing of its own waiting reads the array. -/
theorem matRead_of_plain {len : Nat} {par : Par} {meets : List Meet} (hp : plainMaster h m = true) (hr : matReach h m a par = true) :
    matRead m a len par meets h = matReadRaw h m a len par meets := by
  unfold Machine.matRead
  rw [hr, Bool.not_true, if_neg Bool.false_ne_true]
  cases m with
  | frond f =>
    simp only [plainMaster, Bool.and_eq_true, Option.isNone_iff_eq_none] at hp
    simp only [frondRead, hp.1]
  | fetchA | fetchB => cases hp
  | _ => rfl

/-- A master with nothing of its own waiting writes the array. -/
theorem matWrite_of_plain {data : List (Option Byte)} {par : Par} {meets : List Meet} (hp : plainMaster h m = true) (hr : matReach h m a par = true) :
    matWrite m a data par meets h = matWriteRaw h m a data par meets := by
  unfold Machine.matWrite
  rw [hr, Bool.not_true, if_neg Bool.false_ne_true]
  cases m with
  | frond f =>
    simp only [plainMaster, Bool.and_eq_true, List.isEmpty_iff] at hp
    simp only [frondWrite, hp.2, List.find?_nil]
  | store => cases hp
  | _ => rfl

/-! ### What the answer holds -/

theorem matReadRaw_refused {len c : Nat} {par : Par} (hcause : protCause h m a len false = some c) :
    matReadRaw h m a len par [] = { protLog h m a c false with matResp := some ⟨m, 1, false, List.replicate len 0⟩ } := by
  rw [matReadRaw, memRead, hcause]
  rfl

theorem matWriteRaw_refused {data : List (Option Byte)} {c : Nat} {par : Par} (hcause : protCause h m a (max 1 data.length) true = some c) :
    matWriteRaw h m a data par [] = { protLog h m a c true with matResp := some ⟨m, 1, false, []⟩ } := by
  rw [matWriteRaw, memWriteEn, hcause]
  rfl

/-- A permitted read answers what its beat brings. -/
theorem matReadRaw_permitted {len : Nat} {par : Par} (hcause : protCause h m a len false = none) :
    matReadRaw h m a len par [] =
      { (beatRead (h.idleLeave (memRegion a)) m a len par).1 with
        matResp := some ⟨m, if (beatRead (h.idleLeave (memRegion a)) m a len par).2 then 2 else 0, false,
          if sideHit m a par then [] else (beatRead (h.idleLeave (memRegion a)) m a len par).1.bytesAt a len⟩ } := by
  have hundef : ∀ w, meetUndef h a [] w = false := fun w => Bool.and_false _
  have hany : (wordsOf a len).any (meetUndef h a []) = false := List.any_eq_false.mpr fun w _ => by rw [hundef]; exact Bool.false_ne_true
  rw [matReadRaw, memRead, hcause]
  simp only [memReadAs, collLog, List.foldl_nil, hundef, hany, anyBusy, List.any_nil, Bool.false_eq_true, if_false]
  rfl

theorem idleLeave_frame (r : Nat) : (h.idleLeave r).mem = h.mem ∧ (h.idleLeave r).fronds = h.fronds ∧ (h.idleLeave r).scratch = h.scratch := by
  unfold Hw.idleLeave
  split <;> exact ⟨rfl, rfl, rfl⟩

theorem byteAt_idleLeave (r b : Nat) : (h.idleLeave r).byteAt b = h.byteAt b := by
  unfold Hw.idleLeave
  split <;> rfl

theorem isMarked_idleLeave (r b : Nat) : isMarked (h.idleLeave r) b = isMarked h b := by
  unfold Hw.idleLeave
  split <;> rfl

theorem beatRead_eq (len : Nat) (par : Par) :
    beatRead h m a len par = if sideHit m a par then (sideLog (parityRead h m a len par).1 m a, true) else parityRead h m a len par := rfl

theorem beatRead_frame (len : Nat) (par : Par) : (beatRead h m a len par).1.mem = h.mem ∧ (beatRead h m a len par).1.fronds = h.fronds := by
  obtain ⟨hmem, hfronds⟩ := parityRead_frame h m a len par
  obtain ⟨hmem', hfronds'⟩ := sideLog_frame (parityRead h m a len par).1 m a
  rw [beatRead_eq]
  split
  · exact ⟨hmem'.trans hmem, hfronds'.trans hfronds⟩
  · exact ⟨hmem, hfronds⟩

theorem sideHit_fine {par : Par} (hpar : par.beat = .fine) : sideHit m a par = false := by
  rw [sideHit, hpar]
  rfl

theorem beatRead_of_fine (len : Nat) {par : Par} (hpar : par.beat = .fine) : beatRead h m a len par = parityRead h m a len par := by
  rw [beatRead_eq, sideHit_fine m a hpar, if_neg Bool.false_ne_true]

theorem beatRead_of_sideHit (len : Nat) {par : Par} (hpar : sideHit m a par = true) : beatRead h m a len par = (sideLog (parityRead h m a len par).1 m a, true) := by
  rw [beatRead_eq, hpar, if_pos rfl]

/-! ### A write with good parity (R50) -/

/-- One word of a write outside any meeting: the block and whether a check has failed. -/
def writeWord (m : Master) (a : Nat) (data : List (Option Byte)) (par : Par) (acc : Hw × Bool) (w : Nat) : Hw × Bool :=
  let bs := wordBytes a data m [] w
  if bs.all (·.isNone) then acc
  else
    let p := wordWrite acc.1 m w bs (bs.any (·.isNone)) (par.check (w / 8 - a / 8))
    (p.1, acc.2 || p.2)

/-- A permitted write with a good beat goes word by word. -/
theorem memWriteAs_permitted (data : List (Option Byte)) {par : Par} (hside : sideHit m a par = false) :
    memWriteAs none h m a data par [] =
      let p := (wordsOf a (max 1 data.length)).foldl (writeWord m a data par) (h.idleLeave (memRegion a), false)
      (p.1, if p.2 then 2 else 0) := by
  rw [memWriteAs, hside, if_neg Bool.false_ne_true]
  rfl

/-- A word without a mark is stored in its turn. -/
theorem writeWord_good (data : List (Option Byte)) {w : Nat} (hw : isMarked h w = false) :
    writeWord m a data .good (h, false) w = (writeStep a data h w, false) := by
  have hgood : Par.good.check (w / 8 - a / 8) = .good := rfl
  simp only [writeWord, hgood, wordWrite_good h m _ _ hw, wordBytes_nil, writeStep]
  split <;> rfl

theorem foldl_writeWord_good (data : List (Option Byte)) {l : List Nat} (hl : ∀ w ∈ l, isMarked h w = false) :
    l.foldl (writeWord m a data .good) (h, false) = (l.foldl (writeStep a data) h, false) := by
  induction l generalizing h with
  | nil => rfl
  | cons w l ih =>
    obtain ⟨hw, hrest⟩ := List.forall_mem_cons.mp hl
    have hstep : ∀ x ∈ l, isMarked (writeStep a data h w) x = false := fun x hx =>
      Bool.eq_false_iff.mpr fun hm => Bool.eq_false_iff.mp (hrest x hx) (isMarked_of_isMarked_writeStep a data h hm)
    rw [List.foldl_cons, List.foldl_cons, writeWord_good h m a data hw, ih _ hstep]

/-- A permitted write with good parity stores its words and answers status 0. -/
theorem matWriteRaw_good {data : List (Option Byte)} (hlen : 0 < data.length) (hcause : protCause h m a data.length true = none)
    (hm : ∀ w ∈ wordsOf a data.length, isMarked h w = false) :
    matWriteRaw h m a data .good [] =
      { (wordsOf a data.length).foldl (writeStep a data) (h.idleLeave (memRegion a)) with matResp := some ⟨m, 0, false, []⟩ } := by
  have hmax : max 1 data.length = data.length := Nat.max_eq_right hlen
  have hm' : ∀ w ∈ wordsOf a data.length, isMarked (h.idleLeave (memRegion a)) w = false := fun w hw => (isMarked_idleLeave h _ w).trans (hm w hw)
  rw [matWriteRaw, memWriteEn, hmax, hcause, memWriteAs_permitted h m a data (sideHit_fine m a rfl), hmax, foldl_writeWord_good _ m a data hm']
  rfl

/-- The bytes after a write of `data` at `a`. -/
theorem givenByte_getD {data : List (Option Byte)} (hlen : 0 < data.length) (b : Nat) (x : Byte) :
    (if b / 8 * 8 ∈ wordsOf a data.length then (givenByte a data b).getD x else x) =
      if a ≤ b ∧ b < a + data.length then ((data[b - a]?).join).getD x else x := by
  by_cases hin : a ≤ b ∧ b < a + data.length
  · have hword : b / 8 * 8 ∈ wordsOf a data.length := mem_wordsOf.mpr (by omega)
    rw [if_pos hword, if_pos hin, givenByte, if_neg (by omega)]
  · have hnone : givenByte a data b = none := by
      unfold givenByte
      split
      · rfl
      · rw [List.getElem?_eq_none (by omega)]
        rfl
    rw [if_neg hin, hnone, Option.getD_none, ite_self]

end

end Sys2Proof.Machine

namespace Sys2Proof.Proofs.MatCushion
open Sys2Proof Sys2Proof.Machine

/-- Settles O22: the masters of the statement reach the array, and its answer is by cases on the cause that refuses the access, the checks of its words and its beat. -/
theorem matReadsAndWritesAnswerTheirMaster : Obligations.MatReadsAndWritesAnswerTheirMaster := by
  intro s m a hclk hplain hreach h log
  have hread : ∀ (len : Nat) (par : Par) (P : Hw → Prop), par.beat ≠ .stale → P (matReadRaw h m a len par []) → Gives (.matRead m a len par []) s P := by
    intro len par P hpar hP
    rw [gives_iff_of_onClock rfl hclk, matRead_of_plain s.hw m a hplain (hreach par hpar)]
    exact hP
  have hwrite : ∀ (data : List (Option Byte)) (par : Par) (P : Hw → Prop), par.beat ≠ .stale → P (matWriteRaw h m a data par []) →
      Gives (.matWrite m a data par []) s P := by
    intro data par P hpar hP
    rw [gives_iff_of_onClock rfl hclk, matWrite_of_plain s.hw m a hplain (hreach par hpar)]
    exact hP
  have hlog : ∀ c write, log c write (protLog h m a c write) := by
    intro c write
    refine ⟨protLog_prot h m a c write, fun hfree => ?_⟩
    obtain ⟨hvalid, hcause, hmaster, hdir⟩ := protLog_info h m a c write hfree
    exact ⟨hvalid, hcause, hmaster.trans (Nat.mod_eq_of_lt (protMaster_lt m)), hdir⟩
  obtain ⟨hidle_mem, hidle_fronds, hidle_scratch⟩ := idleLeave_frame h (memRegion a)
  refine ⟨fun len hcause hmark => ?_, fun len par c hpar hcause => ?_, fun len hcause hword => ?_, fun len hcause hside => ?_,
    fun data hlen hcause hmark => ?_, fun data par c hpar hlen hcause => ?_⟩
  · refine hread len .good _ (by decide) ?_
    have hgood := parityRead_good (h.idleLeave (memRegion a)) m fun w hw => (isMarked_idleLeave h _ w).trans (hmark w hw)
    rw [matReadRaw_permitted h m a hcause, sideHit_fine m a rfl, beatRead_of_fine _ m a len rfl, hgood]
    simp only [Bool.false_eq_true, if_false, Hw.bytesAt, byteAt_idleLeave]
  · refine hread len par _ hpar ?_
    rw [matReadRaw_refused h m a hcause]
    obtain ⟨hmem, hmarked, hfronds⟩ := protLog_frame h m a c false
    exact ⟨rfl, hlog c false, hmem, hmarked, hfronds⟩
  · refine hread len .failed _ (by decide) ?_
    rw [matReadRaw_permitted h m a hcause, beatRead_of_fine _ m a len rfl, parityRead_failed _ m hword]
    obtain ⟨hmem, hfronds⟩ := perrLog_frame (h.idleLeave (memRegion a)) m (a / 8 * 8)
    have hperr := perrLog_perr (h.idleLeave (memRegion a)) m (a / 8 * 8)
    rw [memRegion_eq_of_word (show a / 8 * 8 / 8 = a / 8 by omega)] at hperr
    exact ⟨⟨_, rfl⟩, hperr, isMarked_perrLog _ m _ (by omega), hmem.trans hidle_mem, hfronds.trans hidle_fronds⟩
  · refine hread len .sideband _ (by decide) ?_
    obtain ⟨hmem, hfronds⟩ := beatRead_frame (h.idleLeave (memRegion a)) m a len .sideband
    rw [matReadRaw_permitted h m a hcause, hside]
    refine ⟨?_, hmem.trans hidle_mem, hfronds.trans hidle_fronds, fun hne => ?_⟩
    · rw [beatRead_of_sideHit _ m a len hside]
      rfl
    · rw [beatRead_of_sideHit _ m a len hside]
      exact sideLog_xbperr _ m a hne
  · refine hwrite data .good _ (by decide) ?_
    rw [matWriteRaw_good h m a hlen hcause hmark]
    obtain ⟨hscratch, hfronds⟩ := foldl_writeStep_frame a data (h.idleLeave (memRegion a)) (wordsOf a data.length)
    refine ⟨rfl, hscratch.trans hidle_scratch, hfronds.trans hidle_fronds, fun b => ?_⟩
    rw [← givenByte_getD a hlen, ← byteAt_idleLeave h (memRegion a)]
    exact byteAt_foldl_writeStep a data _ (fun w hw => (mem_wordsOf.mp hw).1) b
  · refine hwrite data par _ hpar ?_
    rw [← Nat.max_eq_right hlen] at hcause
    rw [matWriteRaw_refused h m a hcause]
    obtain ⟨hmem, -, hfronds⟩ := protLog_frame h m a c true
    exact ⟨rfl, hlog c true, hmem, hfronds⟩

end Sys2Proof.Proofs.MatCushion
end

section
/-!
SUPPORT. The march engine and its logs (R66 to R74): how a run begins, what a failing word changes, which bytes a run leaves zero, and what the two pop registers answer.
-/
namespace Sys2Proof.Machine

/-! ### Gates and records -/

section
variable {i : Instr} {s : State} {f : Hw → Hw} {P : Hw → Prop} {w : Who} {a : Nat}

theorem gives_iff_of_onWrite (he : exec i s = onWrite s w a f) (hg : regGrant s.hw w a true = true) : Gives i s P ↔ P (f s.hw) := by
  rw [gives_iff_of_always he, if_pos hg]

theorem gives_iff_of_onRead (he : exec i s = onRead s w a f) (hg : regGrant s.hw w a false = true) : Gives i s P ↔ P (f s.hw) := by
  rw [gives_iff_of_always he, if_pos hg]

theorem whenSet_of_set {b : Fld} {v : W32} {h : Hw} (hb : fldGet b v = 1) : whenSet b v f h = f h := if_pos hb

end

@[simp] theorem Hw.mat_setMat_same (h : Hw) (r : Nat) (x : MatRgn) : (h.setMat r x).mat r = x := kvGet_kvIns_same _ _ _ _

theorem Hw.mat_wr (h : Hw) (a r : Nat) (v : W32) : (h.wr a v).mat r = h.mat r := rfl

/-! ### A run begins (R69, R70) -/

/-- The block in which the region's mat state is x and its march engine begins at a group. -/
def marchBegun (h : Hw) (r : Nat) (x : MatRgn) (g : Nat) : Hw :=
  ((((h.setMat r x).wr (MCH_FAIL r) 0).wf (MCH_STAT r) MCH_STAT_FAILS 0).wf (MCH_STAT r) MCH_STAT_GROUP g).sb (MCH_STAT r) MCH_STAT_BUSY

section
variable (h : Hw) (r : Nat) (x : MatRgn) {g : Nat}

theorem marchBegun_mat : (marchBegun h r x g).mat r = x := h.mat_setMat_same r x

theorem marchBegun_stat (hg : g < 32) : (marchBegun h r x g).rf (MCH_STAT r) MCH_STAT_GROUP = g ∧ (marchBegun h r x g).rb (MCH_STAT r) MCH_STAT_BUSY = true ∧
    (marchBegun h r x g).rf (MCH_STAT r) MCH_STAT_FAILS = 0 := by
  refine ⟨?_, Hw.rb_sb_same _ _ rfl, ?_⟩
  · rw [marchBegun, Hw.sb, Hw.rf_wf_apart _ _ rfl rfl, Hw.rf_wf_same _ _ rfl]
    exact Nat.mod_eq_of_lt hg
  · rw [marchBegun, Hw.sb, Hw.rf_wf_apart _ _ rfl rfl, Hw.rf_wf_apart _ _ rfl rfl, Hw.rf_wf_same _ _ rfl]
    rfl

end

section
variable {h : Hw} {r : Nat} {w : Who} {v : W32} {idle : Bool}

theorem LCH_MAINT_ne_MCH_CTL : LCH_MAINT ≠ MCH_CTL r := by
  unfold LCH_MAINT MCH_CTL
  omega

/-- A START that nothing refuses begins a run of its groups. -/
theorem mchCtlWrite_started (hw : w.keeperSup = true) (hs : fldGet MCH_CTL_START v = 1) (ha : fldGet MCH_CTL_ABORT v = 0) (ht : fldGet MCH_CTL_TARGET v = 0)
    (hm : fldGet MCH_CTL_MODE v < 2) (hfl : fldGet MCH_CTL_GFIRST v ≤ fldGet MCH_CTL_GLAST v) (hl : fldGet MCH_CTL_GLAST v ≤ 16) (hnone : (h.mat r).march = none)
    (hdes : fldGet MCH_CTL_MODE v = 0 → idle = true ∧ h.rb LCH_MAINT LCH_MAINT_CONSENT = true) :
    mchCtlWrite h r w v idle false =
      marchBegun (h.wr (MCH_CTL r) (v &&& 0x001F1FFC)) r { h.mat r with march := some ⟨fldGet MCH_CTL_MODE v == 0, fldGet MCH_CTL_REPAIR v == 1, 2, none,
        fldGet MCH_CTL_GFIRST v, fldGet MCH_CTL_GLAST v, false, fldGet MCH_CTL_BKG v, h.tb.toNat, []⟩ } (fldGet MCH_CTL_GFIRST v) := by
  have hconsent : (h.wr (MCH_CTL r) (v &&& 0x001F1FFC)).rb LCH_MAINT LCH_MAINT_CONSENT = h.rb LCH_MAINT LCH_MAINT_CONSENT :=
    congrArg (· == 1) (h.rf_wr_other _ _ LCH_MAINT_ne_MCH_CTL)
  have hfree : (fldGet MCH_CTL_MODE v == 0 && !(false || (idle && h.rb LCH_MAINT LCH_MAINT_CONSENT))) = false := by
    by_cases h0 : fldGet MCH_CTL_MODE v = 0
    · obtain ⟨hidle, hcons⟩ := hdes h0
      rw [hidle, hcons]
      exact Bool.and_false _
    · rw [beq_eq_false_iff_ne.mpr h0, Bool.false_and]
  have hmode : decide (2 ≤ fldGet MCH_CTL_MODE v) = false := decide_eq_false (by omega)
  have hrange : (decide (fldGet MCH_CTL_GLAST v < fldGet MCH_CTL_GFIRST v) || decide (16 < fldGet MCH_CTL_GLAST v)) = false := by
    rw [decide_eq_false (by omega), decide_eq_false (by omega), Bool.or_false]
  unfold mchCtlWrite
  simp only [hs, ha, ht, hw, Hw.mat_wr, hnone, hconsent, hfree, ge_iff_le, gt_iff_lt, hmode, hrange, beq_self_eq_true, Option.isSome_none, if_true, Bool.or_false,
    Bool.and_false, Bool.not_true, Bool.false_eq_true, if_false, show ((0 : Nat) == 1) = false from rfl]
  rfl

/-- A START while a run lasts is refused. -/
theorem mchCtlWrite_refused (hw : w.keeperSup = true) (hs : fldGet MCH_CTL_START v = 1) (ha : fldGet MCH_CTL_ABORT v = 0) (hsome : (h.mat r).march ≠ none) :
    mchCtlWrite h r w v idle false = (h.wr (MCH_CTL r) (v &&& 0x001F1FFC)).sb (MCH_STAT r) MCH_STAT_REFUSE := by
  unfold mchCtlWrite
  simp only [hs, ha, hw, Hw.mat_wr, Option.isSome_iff_ne_none.mpr hsome, beq_self_eq_true, if_true, Bool.true_or, Bool.true_and, Bool.false_eq_true, if_false,
    show ((0 : Nat) == 1) = false from rfl]

/-- An ABORT marks the run that lasts. -/
theorem mchCtlWrite_abort {run : MarchRun} (hw : w.keeperSup = true) (hs : fldGet MCH_CTL_START v = 0) (ha : fldGet MCH_CTL_ABORT v = 1)
    (hrun : (h.mat r).march = some run) :
    mchCtlWrite h r w v idle false = (h.wr (MCH_CTL r) (v &&& 0x001F1FFC)).setMat r { h.mat r with march := some { run with abortReq := true } } := by
  unfold mchCtlWrite
  simp only [hs, ha, hw, Hw.mat_wr, hrun, beq_self_eq_true, if_true, Bool.and_true, Bool.false_eq_true, if_false, show ((0 : Nat) == 1) = false from rfl]

/-- The suspect service takes the oldest suspect bank into a run of its own. -/
theorem suspectServiceRun_eq {c : Bool} {b : Nat} {rest : List (Bool × Nat)} (hsusp : (h.mat r).susp = (c, b) :: rest) (hnone : (h.mat r).march = none)
    (hsvc : h.rb (MAT_CTL r) MAT_CTL_SVC_REPAIR = true) (hserv : h.memServed r = true) :
    suspectServiceRun r h =
      marchBegun h r { h.mat r with susp := rest, march := some ⟨false, true, 3, some (c, b), 0, 0, false, 0, h.tb.toNat, []⟩ } (bankGroup c b) := by
  unfold suspectServiceRun
  simp only [hsusp, hnone, hsvc, hserv, Bool.and_self, if_true]
  rfl

end

/-! ### A failing word (R73) -/

section
variable (h : Hw) (r : Nat) (run : MarchRun) (f : MarchFail)

theorem rmapGet_rmapSet_same (c : Bool) (b k v : Nat) : rmapGet (rmapSet h r c b k v) r c b k = v := kvGet_kvIns_same _ _ _ _

theorem repairLog_rmap (c : Bool) (b p k src : Nat) : (repairLog h r c b p k src).rmap = h.rmap := by
  unfold repairLog
  extract_lets e mr
  split <;> rfl

theorem marchCopy_rmap : (marchCopy h r run f).rmap = h.rmap := by
  unfold marchCopy
  split <;> rfl

/-- What a march run never changes while it looks: the stored bytes, and which of them are undefined. -/
def StoreSame (h h' : Hw) : Prop := h'.mem = h.mem ∧ h'.undefBank = h.undefBank ∧ h'.defd = h.defd

theorem StoreSame.refl : StoreSame h h := ⟨rfl, rfl, rfl⟩

variable {h}

theorem StoreSame.trans {h1 h2 : Hw} (h01 : StoreSame h h1) (h12 : StoreSame h1 h2) : StoreSame h h2 := by
  obtain ⟨hmem, hundef, hdefd⟩ := h01
  obtain ⟨hmem', hundef', hdefd'⟩ := h12
  exact ⟨hmem'.trans hmem, hundef'.trans hundef, hdefd'.trans hdefd⟩

theorem StoreSame.byteAt {h' : Hw} (hs : StoreSame h h') (a : Nat) : h'.byteAt a = h.byteAt a := by
  obtain ⟨hmem, hundef, hdefd⟩ := hs
  rw [Hw.byteAt, Hw.byteAt, isUndef, isUndef, hmem, hundef, hdefd]

variable (h)

theorem repairLog_storeSame (c : Bool) (b p k src : Nat) : StoreSame h (repairLog h r c b p k src) := by
  unfold repairLog
  extract_lets e mr
  split <;> exact .refl h

theorem marchCopy_storeSame : StoreSame h (marchCopy h r run f) := by
  unfold marchCopy
  split <;> exact .refl h

/-- The count and the capture of a failing row. -/
def marchCounted (h : Hw) (r : Nat) (f : MarchFail) (b : Nat) : Hw :=
  let h1 := h.addSat (MCH_STAT r) MCH_STAT_FAILS 1
  if h1.rb (MCH_FAIL r) MCH_FAIL_VALID then h1
  else (((((h1.wf (MCH_FAIL r) MCH_FAIL_CUSH (b2n f.cush)).wf (MCH_FAIL r) MCH_FAIL_BANK f.bank).wf (MCH_FAIL r) MCH_FAIL_PROW f.prow).wf
    (MCH_FAIL r) MCH_FAIL_WORD f.word).wf (MCH_FAIL r) MCH_FAIL_BIT b).sb (MCH_FAIL r) MCH_FAIL_VALID

theorem marchCounted_storeSame (b : Nat) : StoreSame h (marchCounted h r f b) := by
  unfold marchCounted
  extract_lets h1
  split <;> exact .refl h

theorem marchCounted_rmap (b : Nat) : (marchCounted h r f b).rmap = h.rmap := by
  unfold marchCounted
  extract_lets h1
  split <;> rfl

theorem marchRow_storeSame (b : Nat) : StoreSame h (marchRow h r run f b).1 := by
  have hcount := marchCounted_storeSame h r f b
  unfold marchRow
  extract_lets h1 h2 s
  split
  · exact hcount
  · split
    · exact hcount
    · split
      · exact hcount
      next k _ => exact (hcount.trans (repairLog_storeSame (rmapSet h2 r f.cush f.bank k (2 ^ 15 + f.prow % 512)) r _ _ _ _ _)).trans (marchCopy_storeSame _ r run f)

theorem marchFail_storeSame (lo hi : Nat) (acc : Hw × MarchRun) : StoreSame acc.1 (marchFail r lo hi acc f).1 := by
  obtain ⟨g, mr⟩ := acc
  unfold marchFail
  dsimp only
  split
  · exact .refl g
  · split
    · exact .refl g
    · split
      · split
        · exact marchCopy_storeSame g r mr f
        · exact .refl g
      · exact marchRow_storeSame g r mr f _

theorem foldl_marchFail_storeSame (lo hi : Nat) (fails : List MarchFail) : StoreSame h (fails.foldl (marchFail r lo hi) (h, run)).1 :=
  List.foldlRecOn (motive := fun acc : Hw × MarchRun => StoreSame h acc.1) fails _ (.refl h) fun acc hacc f _ => hacc.trans (marchFail_storeSame r f lo hi acc)

theorem dataRows_le (c : Bool) : dataRows c ≤ 512 := by
  cases c <;> decide

/-- A data row under repair that no good spare serves takes the free spare. -/
theorem marchRow_repaired {b k : Nat} (hrow : f.prow < dataRows f.cush) (hrep : run.repair = true) (hserved : rowServed h r f.cush f.bank f.prow = false)
    (hspare : freeSpare h r f.cush f.bank = some k) : rmapGet (marchRow h r run f b).1 r f.cush f.bank k = 2 ^ 15 + f.prow := by
  have hsmall : f.prow % 512 = f.prow := Nat.mod_eq_of_lt (hrow.trans_le (dataRows_le f.cush))
  have hrmap := marchCounted_rmap h r f b
  have hserved2 : rowServed (marchCounted h r f b) r f.cush f.bank f.prow = false := by
    simpa only [rowServed, rmapGet, hrmap] using hserved
  have hspare2 : freeSpare (marchCounted h r f b) r f.cush f.bank = some k := by
    simpa only [freeSpare, rmapGet, hrmap] using hspare
  have heq : marchRow h r run f b =
      (marchCopy (repairLog (rmapSet (marchCounted h r f b) r f.cush f.bank k (2 ^ 15 + f.prow % 512)) r f.cush f.bank f.prow k run.src) r run f, true) := by
    unfold marchRow
    extract_lets h1 h2 s
    rw [if_neg (by omega), if_neg (by rw [hrep]; exact (Bool.eq_false_iff.mp hserved2))]
    show (match freeSpare (marchCounted h r f b) r f.cush f.bank with | none => _ | some s => _) = _
    rw [hspare2]
    rfl
  rw [heq, hsmall, rmapGet, marchCopy_rmap, repairLog_rmap]
  exact rmapGet_rmapSet_same _ r _ _ _ _

end

end Sys2Proof.Machine
end

section
/-!
SUPPORT. The banks of a march run and the bytes it leaves (R66, R67, R69), and the registers whose reads pop a log (R70, R74).
-/
namespace Sys2Proof.Machine

/-! ### Banks (R44, R53, R66) -/

theorem memBank_lt (a : Nat) : memBank a < 1024 := by
  unfold memBank
  extract_lets w
  split
  · exact Nat.xor_lt_two_pow (n := 10) (Nat.mod_lt _ (by decide)) (Nat.mod_lt _ (by decide))
  · exact Nat.lt_of_lt_of_le (Nat.mod_lt _ (by decide)) (by decide)

theorem memBank_lt_of_cushion {a : Nat} (ha : 0x10000000 ≤ a) : memBank a < 64 := by
  rw [memBank, if_neg (by omega)]
  exact Nat.mod_lt _ (by decide)

theorem b2n_lt (c : Bool) : b2n c < 2 := by
  cases c <;> decide

theorem b2n_inj {c e : Bool} : b2n c = b2n e ↔ c = e := by
  cases c <;> cases e <;> decide

/-- The key of a bank names its region, its memory and its number. -/
theorem bankKey_inj {r q b d : Nat} {c e : Bool} (hb : b < 1024) (hd : d < 1024) : bankKey r c b = bankKey q e d ↔ r = q ∧ c = e ∧ b = d := by
  have hc := b2n_lt c
  have he := b2n_lt e
  rw [← b2n_inj (c := c), bankKey, bankKey]
  omega

section
variable {run : MarchRun} {r lo hi a : Nat}

theorem runCovers_single {c : Bool} {b : Nat} (hs : run.single = some (c, b)) :
    runCovers run r lo hi a = true ↔ memRegion a = r ∧ c = decide (0x10000000 ≤ a) ∧ memBank a = b := by
  simp only [runCovers, hs, Bool.and_eq_true, beq_iff_eq]

theorem runCovers_groups (hs : run.single = none) : runCovers run r lo hi a = true ↔ memRegion a = r ∧ lo ≤ memGroup a ∧ memGroup a ≤ hi := by
  simp only [runCovers, hs, Bool.and_eq_true, beq_iff_eq, decide_eq_true_eq]

/-- Of the groups 0 to 16 the run's banks are those of its offsets. -/
theorem bankKeyOf_mem_groups (hhi : hi ≤ 16) (hs : run.single = none) :
    bankKeyOf a ∈ runBanks run r lo hi ↔ memRegion a = r ∧ lo ≤ memGroup a ∧ memGroup a ≤ hi := by
  have hbank := memBank_lt a
  simp only [runBanks, hs, List.mem_flatMap, List.mem_map, List.mem_range, mem_rangeIncl]
  constructor
  · rintro ⟨g, ⟨hlo, hg⟩, i, hi64, hkey⟩
    by_cases hg16 : g < 16
    · rw [if_pos hg16, bankKeyOf, bankKey_inj (by omega) hbank] at hkey
      obtain ⟨hr, hc, hb⟩ := hkey
      have hmat : a < 0x10000000 := by simpa using hc.symm
      rw [memGroup, if_pos hmat]
      omega
    · rw [if_neg hg16, bankKeyOf, bankKey_inj (by omega) hbank] at hkey
      obtain ⟨hr, hc, -⟩ := hkey
      have hcush : 0x10000000 ≤ a := by simpa using hc.symm
      rw [memGroup, if_neg (by omega)]
      omega
  · rintro ⟨hr, hlo, hg⟩
    refine ⟨memGroup a, ⟨hlo, hg⟩, ?_⟩
    by_cases hmat : a < 0x10000000
    · rw [memGroup, if_pos hmat]
      refine ⟨memBank a % 64, by omega, ?_⟩
      rw [if_pos (by omega), bankKeyOf, hr, decide_eq_false (by omega), show 64 * (memBank a / 64) + memBank a % 64 = memBank a by omega]
    · rw [memGroup, if_neg hmat]
      refine ⟨memBank a, memBank_lt_of_cushion (by omega), ?_⟩
      rw [if_neg (Nat.lt_irrefl 16), bankKeyOf, hr, decide_eq_true (by omega)]

/-- The run's banks are those of its offsets. -/
theorem bankKeyOf_mem_runBanks (hhi : hi ≤ 16) (hsingle : ∀ c b, run.single = some (c, b) → b < 1024) :
    bankKeyOf a ∈ runBanks run r lo hi ↔ runCovers run r lo hi a = true := by
  cases hs : run.single with
  | none => rw [bankKeyOf_mem_groups hhi hs, runCovers_groups hs]
  | some t =>
    obtain ⟨c, b⟩ := t
    simp only [runBanks, hs, List.mem_singleton]
    rw [bankKeyOf, bankKey_inj (memBank_lt a) (hsingle c b hs), runCovers_single hs, eq_comm (a := c)]

theorem runCovers_eq_of_word {b : Nat} (hw : a / 8 = b / 8) : runCovers run r lo hi a = runCovers run r lo hi b := by
  have hcush : decide (0x10000000 ≤ a) = decide (0x10000000 ≤ b) := decide_eq_decide.mpr (by omega)
  have hgroup : memGroup a = memGroup b := by simp only [memGroup, lt_cushion_iff_of_word hw, memBank_eq_of_word hw]
  simp only [runCovers, memRegion_eq_of_word hw, memBank_eq_of_word hw, hcush, hgroup]

/-- The clear pass leaves zeros in every place of the run and every other byte as it was (R67). -/
theorem byteAt_marchLeave (h : Hw) (hhi : hi ≤ 16) (hsingle : ∀ c b, run.single = some (c, b) → b < 1024) :
    (marchLeave h r run lo hi false).byteAt a = if runCovers run r lo hi a then 0 else h.byteAt a := by
  have hbanks := bankKeyOf_mem_runBanks (r := r) (lo := lo) (a := a) hhi hsingle
  have hword : runCovers run r lo hi (a / 8 * 8) = runCovers run r lo hi a := runCovers_eq_of_word (by omega)
  have hmem : memGet (marchLeave h r run lo hi false).mem a = if runCovers run r lo hi a then 0 else memGet h.mem a := by
    simp only [marchLeave, memGet, kvGet, kvFind_kvKeep]
    cases runCovers run r lo hi a <;> rfl
  have hundef : isUndef (marchLeave h r run lo hi false) a = (!runCovers run r lo hi a && isUndef h a) := by
    have hin : (runBanks run r lo hi).contains (bankKeyOf a) = runCovers run r lo hi a := by rw [Bool.eq_iff_iff, List.contains_iff_mem, hbanks]
    have hlist : (marchLeave h r run lo hi false).undefBank.contains (bankKeyOf a) = (h.undefBank.contains (bankKeyOf a) && !runCovers run r lo hi a) := by
      rw [← hin, Bool.eq_iff_iff, Bool.and_eq_true, List.contains_iff_mem, List.contains_iff_mem]
      exact List.mem_filter
    rw [isUndef, hlist, isUndef]
    simp only [marchLeave, kvFind_kvKeep, hword]
    cases runCovers run r lo hi a with
    | false => simp
    | true => simp
  rw [Hw.byteAt, hundef, hmem, Hw.byteAt]
  cases runCovers run r lo hi a <;> rfl

end

/-! ### A row, and the end of a run (R66, R67, R73) -/

section
variable {h : Hw} {r g : Nat} {run : MarchRun}

/-- A transparent run locks a row of a group at or past its own, within the groups of the run or the group of its bank. -/
theorem marchRowLock_eq (fails : List MarchFail) (hrun : (h.mat r).march = some run) (hdes : run.destructive = false) (hnow : h.rf (MCH_STAT r) MCH_STAT_GROUP ≤ g)
    (hin : match run.single with | some (c, b) => g = bankGroup c b | none => g ≤ run.glast) :
    marchRowLock r g fails h =
      let p := fails.foldl (marchFail r g g) (h.wf (MCH_STAT r) MCH_STAT_GROUP g, run)
      p.1.setMat r { p.1.mat r with march := some p.2 } := by
  unfold marchRowLock
  simp only [hrun, hdes, decide_eq_false (Nat.not_lt.mpr hnow), Bool.false_or]
  split at hin
  next c b hs =>
    simp only [hs, hin, bne_self_eq_false, Bool.false_eq_true, if_false]
  next hs =>
    simp only [hs, decide_eq_false (Nat.not_lt.mpr hin), Bool.false_eq_true, if_false]

/-- A word that fails in a row not seen before, in a place of the run. -/
theorem marchFail_first {lo hi : Nat} {f : MarchFail} (hbit : marchBit h r run f ≠ none) (hplace : marchPlace run lo hi f = true)
    (hnew : ∀ e ∈ run.rows, e.1 ≠ (f.cush, f.bank, f.prow)) : ∃ b, (marchFail r lo hi (h, run) f).1 = (marchRow h r run f b).1 := by
  obtain ⟨b, hb⟩ := Option.ne_none_iff_exists'.mp hbit
  have hfind : run.rows.find? (fun e => e.1 == (f.cush, f.bank, f.prow)) = none := List.find?_eq_none.mpr fun e he => by simpa using hnew e he
  refine ⟨b, ?_⟩
  simp only [marchFail, hb, hplace, hfind, Bool.not_true, Bool.false_eq_true, if_false]

/-- What a transparent run expects of a word hangs on the stored words, not on the registers. -/
theorem marchBit_wf (a : Nat) (fl : Fld) (n : Nat) (f : MarchFail) : marchBit (h.wf a fl n) r run f = marchBit h r run f := rfl

/-- The block at the end of a run, once its words are left as they are to be. -/
def marchEnded (h : Hw) (r : Nat) (run : MarchRun) : Hw :=
  let h3 := (h.wf (MCH_STAT r) MCH_STAT_BUSY 0).setMat r { h.mat r with march := none }
  let h4 := if run.single.isNone then h3.wf (MCH_STAT r) MCH_STAT_GROUP run.glast else h3
  let h5 := if h4.rf (MCH_STAT r) MCH_STAT_FAILS = 0 then h4 else h4.sb (MCH_STAT r) MCH_STAT_FAIL
  h5.sb (MCH_STAT r) MCH_STAT_DONE

/-- A run that nothing aborts ends with its failing words judged and, when it is destructive, with its places cleared. -/
theorem marchRunEnd_eq (spares fails : List MarchFail) (hrun : (h.mat r).march = some run) (habort : run.abortReq = false) :
    marchRunEnd r spares fails h =
      let h1 := ((spares ++ fails).foldl (marchFail r run.gfirst run.glast) (h, run)).1
      marchEnded (if run.destructive then marchLeave h1 r run (h.rf (MCH_STAT r) MCH_STAT_GROUP) run.glast false else h1) r run := by
  unfold marchRunEnd marchEnded
  simp only [hrun, habort, Bool.false_eq_true, if_false, Bool.not_false, Bool.and_true]
  cases run.destructive <;> rfl

theorem marchEnded_storeSame (h : Hw) (r : Nat) (run : MarchRun) : StoreSame h (marchEnded h r run) := by
  unfold marchEnded
  extract_lets m h3 h4 h5
  have hs4 : StoreSame h h4 := by
    unfold h4
    split <;> exact .refl h
  have hs5 : StoreSame h4 h5 := by
    unfold h5
    split <;> exact .refl h4
  exact hs4.trans hs5

theorem marchEnded_stat (h : Hw) (r : Nat) (run : MarchRun) : ((marchEnded h r run).mat r).march = none ∧ (marchEnded h r run).rb (MCH_STAT r) MCH_STAT_DONE = true ∧
    (marchEnded h r run).rb (MCH_STAT r) MCH_STAT_BUSY = false := by
  unfold marchEnded
  extract_lets m h3 h4 h5
  have hs3 : (h3.mat r).march = none ∧ h3.rb (MCH_STAT r) MCH_STAT_BUSY = false :=
    ⟨congrArg MatRgn.march (Hw.mat_setMat_same _ r _), congrArg (· == 1) (h.rf_wf_same _ rfl 0)⟩
  have hs4 : (h4.mat r).march = none ∧ h4.rb (MCH_STAT r) MCH_STAT_BUSY = false := by
    unfold h4
    split
    · exact ⟨hs3.1, (h3.rb_wf_apart _ rfl rfl _).trans hs3.2⟩
    · exact hs3
  have hs5 : (h5.mat r).march = none ∧ h5.rb (MCH_STAT r) MCH_STAT_BUSY = false := by
    unfold h5
    split
    · exact hs4
    · exact ⟨hs4.1, (h4.rb_wf_apart _ rfl rfl _).trans hs4.2⟩
  exact ⟨hs5.1, h5.rb_sb_same _ rfl, (h5.rb_wf_apart _ rfl rfl _).trans hs5.2⟩

end

/-! ### The registers of the two logs (R70, R74) -/

section
variable {h : Hw} {r : Nat} {w : Who}

/-- An offset of a region's memory registers. -/
theorem blockOf_mat (hr : h.hasRegion r = true) {o : Nat} (ho : o < 0x10000) : blockOf h (0x20100000 + 0x10000 * r + o) = some (.mat r, o) := by
  have hr4 := Hw.lt_four_of_hasRegion hr
  have hblk : (0x20100000 + 0x10000 * r + o) / 0x100000 = 0x201 := by omega
  have hrgn : (0x20100000 + 0x10000 * r + o) / 0x10000 % 16 = r := by omega
  have hoff : (0x20100000 + 0x10000 * r + o) % 0x10000 = o := by omega
  unfold blockOf
  simp only [hblk, hrgn, hoff, hr, if_true]

/-- A read of MAT_SUSP pops the suspect queue (R70). -/
theorem regRead_MAT_SUSP (hr : h.hasRegion r = true) : (regRead h w (MAT_SUSP r) 0).2 = { (suspPop r h).2 with busRd := (suspPop r h).1 } := by
  have hblk : blockOf h (MAT_SUSP r) = some (.mat r, 0x28) := blockOf_mat hr (by decide)
  have hinfo : infoOf h (.mat r) 0x28 = some ⟨0x0, 0x0, 0x0, false⟩ := rfl
  have heff : readEffect h w (MAT_SUSP r) 0 = (suspPop r h).2 := by
    unfold readEffect
    simp only [hblk, hinfo, if_true]
  have hval : regPeek h w (MAT_SUSP r) = (suspPop r h).1 := by
    unfold regPeek
    simp only [hblk, hinfo, computed, if_true, Option.getD_some]
    exact BitVec.and_allOnes
  unfold regRead
  simp only [hblk, heff, hval]
  rfl

/-- A read of RPL_DATA pops the repair log (R74). -/
theorem regRead_RPL_DATA (hr : h.hasRegion r = true) : (regRead h w (RPL_DATA r) 0).2 = { (repairPop r h).2 with busRd := (repairPop r h).1 } := by
  have hblk : blockOf h (RPL_DATA r) = some (.mat r, 0x54) := blockOf_mat hr (by decide)
  have hinfo : infoOf h (.mat r) 0x54 = some ⟨0x0, 0x0, 0x0, false⟩ := rfl
  have heff : readEffect h w (RPL_DATA r) 0 = (repairPop r h).2 := by
    unfold readEffect
    simp only [hblk, hinfo]
    rfl
  have hval : regPeek h w (RPL_DATA r) = (repairPop r h).1 := by
    unfold regPeek
    simp only [hblk, hinfo, computed]
    exact BitVec.and_allOnes
  unfold regRead
  simp only [hblk, heff, hval]
  rfl

/-- The word of a suspect bank (R70). -/
theorem suspWord (c : Bool) {b : Nat} (hb : b < 1024) :
    let v := fldSet MAT_SUSP_VALID (fldSet MAT_SUSP_CUSH (fldSet MAT_SUSP_BANK 0 b) (b2n c)) 1
    fldGet MAT_SUSP_VALID v = 1 ∧ fldGet MAT_SUSP_BANK v = b ∧ fldGet MAT_SUSP_CUSH v = b2n c := by
  refine ⟨fldGet_fldSet_same _ _ _ (by decide) (by decide), ?_, ?_⟩
  · rw [fldGet_fldSet_of_apart rfl rfl, fldGet_fldSet_of_apart rfl rfl, fldGet_fldSet_same _ _ _ (by decide) (by decide)]
    exact Nat.mod_eq_of_lt hb
  · rw [fldGet_fldSet_of_apart rfl rfl, fldGet_fldSet_same _ _ _ (by decide) (by decide)]
    cases c <;> rfl

theorem suspPop_eq {c : Bool} {b : Nat} {rest : List (Bool × Nat)} (hsusp : (h.mat r).susp = (c, b) :: rest) (hsvc : h.rb (MAT_CTL r) MAT_CTL_SVC_REPAIR = false) :
    suspPop r h = (fldSet MAT_SUSP_VALID (fldSet MAT_SUSP_CUSH (fldSet MAT_SUSP_BANK 0 b) (b2n c)) 1, h.setMat r { h.mat r with susp := rest }) := by
  unfold suspPop
  simp only [hsusp, hsvc, Bool.false_eq_true, if_false]

theorem repairPop_eq {e : W32} {rest : List W32} (hlog : (h.mat r).repLog = e :: rest) :
    repairPop r h = (e, (h.setMat r { h.mat r with repLog := rest }).wf (RPL_STAT r) RPL_STAT_COUNT rest.length) := by
  unfold repairPop
  simp only [hlog]

end

end Sys2Proof.Machine
end

section
/-!
SUPPORT. The march runs and their logs (R66, R67, R69, R70, R73, R74): what each command gives, and the statement on them (O23).
-/
namespace Sys2Proof.Proofs.MatCushion
open Sys2Proof Sys2Proof.Machine

section
variable {s : State} {r : Nat} {w : Who} {v : W32} {P : Hw → Prop}

theorem gives_mchStart_iff {busy : Bool} (hg : regGrant s.hw w (MCH_CTL r) true = true) (hs : fldGet MCH_CTL_START v = 1) :
    Gives (.mchStart w r v busy) s P ↔ P (mchCtlWrite s.hw r w v (marchIdle s.hw r && !busy) false) := by
  rw [gives_iff_of_onWrite rfl hg, whenSet_of_set hs]

theorem gives_mchAbort_iff (hg : regGrant s.hw w (MCH_CTL r) true = true) (ha : fldGet MCH_CTL_ABORT v = 1) :
    Gives (.mchAbort w r v) s P ↔ P (mchCtlWrite s.hw r w v false false) := by
  rw [gives_iff_of_onWrite rfl hg, whenSet_of_set ha]

theorem gives_matSuspPop_iff (hr : s.hw.hasRegion r = true) (hg : regGrant s.hw w (MAT_SUSP r) false = true) :
    Gives (.matSuspPop w r) s P ↔ P { (suspPop r s.hw).2 with busRd := (suspPop r s.hw).1 } := by
  rw [gives_iff_of_onRead (f := fun h => (regRead h w (MAT_SUSP r) 0).2) rfl hg, regRead_MAT_SUSP hr]

theorem gives_repairLogPop_iff (hr : s.hw.hasRegion r = true) (hg : regGrant s.hw w (RPL_DATA r) false = true) :
    Gives (.repairLogPop w r) s P ↔ P { (repairPop r s.hw).2 with busRd := (repairPop r s.hw).1 } := by
  rw [gives_iff_of_onRead (f := fun h => (regRead h w (RPL_DATA r) 0).2) rfl hg, regRead_RPL_DATA hr]

end

/-- R66, R68: locking a row without a failing word moves the group under test alone. -/
theorem marchRowLock_clean {h : Hw} {r g : Nat} {run : MarchRun} (hrun : (h.mat r).march = some run) (hdes : run.destructive = false) (hg : g < 32)
    (hnow : h.rf (MCH_STAT r) MCH_STAT_GROUP ≤ g) (hin : match run.single with | some (c, b) => g = bankGroup c b | none => g ≤ run.glast) :
    (marchRowLock r g [] h).rf (MCH_STAT r) MCH_STAT_GROUP = g ∧ (marchRowLock r g [] h).mat r = h.mat r ∧ (marchRowLock r g [] h).mem = h.mem ∧
      (marchRowLock r g [] h).rmap = h.rmap := by
  rw [marchRowLock_eq [] hrun hdes hnow hin]
  refine ⟨(h.rf_wf_same _ rfl g).trans (Nat.mod_eq_of_lt hg), ?_, rfl, rfl⟩
  rw [List.foldl_nil, Hw.mat_setMat_same, ← hrun]
  rfl

/-- R73: the first failing word of a data row under repair takes the free spare. -/
theorem marchRowLock_repairs {h : Hw} {r g k : Nat} {run : MarchRun} {f : MarchFail} (hrun : (h.mat r).march = some run) (hdes : run.destructive = false)
    (hnow : h.rf (MCH_STAT r) MCH_STAT_GROUP ≤ g) (hin : match run.single with | some (c, b) => g = bankGroup c b | none => g ≤ run.glast)
    (hrep : run.repair = true) (hrow : f.prow < dataRows f.cush) (hbit : marchBit h r run f ≠ none) (hplace : marchPlace run g g f = true)
    (hnew : ∀ e, e ∈ run.rows → e.1 ≠ (f.cush, f.bank, f.prow)) (hserved : rowServed h r f.cush f.bank f.prow = false)
    (hspare : freeSpare h r f.cush f.bank = some k) :
    rmapGet (marchRowLock r g [f] h) r f.cush f.bank k = 2 ^ 15 + f.prow ∧ (marchRowLock r g [f] h).mem = h.mem := by
  rw [marchRowLock_eq [f] hrun hdes hnow hin]
  obtain ⟨hmem, -, -⟩ := foldl_marchFail_storeSame (h.wf (MCH_STAT r) MCH_STAT_GROUP g) r run g g [f]
  refine ⟨?_, hmem⟩
  have hbit_wf : marchBit (h.wf (MCH_STAT r) MCH_STAT_GROUP g) r run f ≠ none := by
    rw [marchBit_wf]
    exact hbit
  obtain ⟨b, hb⟩ := marchFail_first hbit_wf hplace hnew
  have hspare_taken := marchRow_repaired (h.wf (MCH_STAT r) MCH_STAT_GROUP g) r run f (b := b) hrow hrep hserved hspare
  rw [← hb] at hspare_taken
  exact hspare_taken

/-- R67, R73: the bytes at the end of a run that nothing aborts. -/
theorem byteAt_marchRunEnd {h : Hw} {r : Nat} {run : MarchRun} (spares fails : List MarchFail) (hrun : (h.mat r).march = some run) (habort : run.abortReq = false)
    (hlast : run.glast ≤ 16) (hsingle : ∀ c b, run.single = some (c, b) → b < 1024) (a : Nat) :
    (marchRunEnd r spares fails h).byteAt a =
      if run.destructive && runCovers run r (h.rf (MCH_STAT r) MCH_STAT_GROUP) run.glast a then 0 else h.byteAt a := by
  have hjudged := (foldl_marchFail_storeSame h r run run.gfirst run.glast (spares ++ fails)).byteAt a
  rw [marchRunEnd_eq spares fails hrun habort]
  dsimp only
  rw [(marchEnded_storeSame _ r run).byteAt]
  cases run.destructive with
  | false => exact hjudged
  | true =>
    rw [if_pos rfl, byteAt_marchLeave _ hlast hsingle, hjudged]
    rfl

/-- Settles O23: each command of the march engine and its logs, by what its function leaves. -/
theorem marchRunsAndTheirLogs : Obligations.MarchRunsAndTheirLogs := by
  intro s r hr h
  refine ⟨fun w v busy hg hw hs ha ht hm hfl hl => ⟨fun hnone hdes => ?_, fun hsome => ?_⟩, fun w v run hg hw hs ha hrun => ?_,
    fun run g hclk hrun hdes hg hnow hin => ⟨?_, fun f k hrep hrow hbit hplace hnew hserved hspare => ?_⟩,
    fun run spares fails hclk hrun habort hlast hsingle => ?_, fun c b rest hsusp => ⟨fun hclk hnone hsvc hserv => ?_, fun w hg hsvc hb => ?_⟩,
    fun w e rest hg hlog hlen => ?_⟩
  · have hidle : fldGet MCH_CTL_MODE v = 0 → (marchIdle h r && !busy) = true ∧ h.rb LCH_MAINT LCH_MAINT_CONSENT = true := fun h0 => by
      obtain ⟨hbusy, hidle, hcons⟩ := hdes h0
      rw [hbusy, hidle]
      exact ⟨rfl, hcons⟩
    rw [gives_mchStart_iff hg hs, mchCtlWrite_started hw hs ha ht hm hfl hl hnone hidle]
    obtain ⟨hgroup, hbusy, hfails⟩ := marchBegun_stat (h.wr (MCH_CTL r) (v &&& 0x001F1FFC)) r
      { h.mat r with march := some ⟨fldGet MCH_CTL_MODE v == 0, fldGet MCH_CTL_REPAIR v == 1, 2, none, fldGet MCH_CTL_GFIRST v, fldGet MCH_CTL_GLAST v, false,
        fldGet MCH_CTL_BKG v, h.tb.toNat, []⟩ } (show fldGet MCH_CTL_GFIRST v < 32 by omega)
    exact ⟨congrArg MatRgn.march (marchBegun_mat _ r _), hgroup, hbusy, hfails, rfl⟩
  · rw [gives_mchStart_iff hg hs, mchCtlWrite_refused hw hs ha hsome]
    exact ⟨Hw.rb_sb_same _ _ rfl, rfl, rfl⟩
  · rw [gives_mchAbort_iff hg ha, mchCtlWrite_abort hw hs ha hrun]
    exact ⟨congrArg MatRgn.march (Hw.mat_setMat_same _ r _), rfl⟩
  · rw [gives_iff_of_onClock rfl hclk]
    exact marchRowLock_clean hrun hdes hg hnow hin
  · rw [gives_iff_of_onClock rfl hclk]
    exact marchRowLock_repairs hrun hdes hnow hin hrep hrow hbit hplace hnew hserved hspare
  · rw [gives_iff_of_onClock rfl hclk]
    have hstat : ((marchRunEnd r spares fails h).mat r).march = none ∧ (marchRunEnd r spares fails h).rb (MCH_STAT r) MCH_STAT_DONE = true ∧
        (marchRunEnd r spares fails h).rb (MCH_STAT r) MCH_STAT_BUSY = false := by
      rw [marchRunEnd_eq spares fails hrun habort]
      exact marchEnded_stat _ r run
    obtain ⟨hmarch, hdone, hbusy⟩ := hstat
    exact ⟨hmarch, hdone, hbusy, byteAt_marchRunEnd spares fails hrun habort hlast hsingle⟩
  · rw [gives_iff_of_onClock rfl hclk, suspectServiceRun_eq hsusp hnone hsvc hserv]
    exact ⟨congrArg MatRgn.susp (marchBegun_mat _ r _), congrArg MatRgn.march (marchBegun_mat _ r _), Hw.rb_sb_same _ _ rfl, rfl⟩
  · rw [gives_matSuspPop_iff hr hg, suspPop_eq hsusp hsvc]
    obtain ⟨hvalid, hbank, hcush⟩ := suspWord c hb
    exact ⟨congrArg MatRgn.susp (Hw.mat_setMat_same _ r _), hvalid, hbank, hcush, rfl⟩
  · rw [gives_repairLogPop_iff hr hg, repairPop_eq hlog]
    exact ⟨rfl, congrArg MatRgn.repLog (Hw.mat_setMat_same _ r _), (Hw.rf_wf_same _ _ rfl _).trans (Nat.mod_eq_of_lt (Nat.lt_trans hlen (by decide))), rfl⟩

end Sys2Proof.Proofs.MatCushion
end

section
/-!
SUPPORT. The chain family (chapters 3 and 10): the states that refute O24 and O25.
-/
namespace Sys2Proof.Machine

/-- With clocks the command PENDING_PROMOTE does what its row says (R78). -/
theorem gives_pendingPromote_iff {s : State} {ch : Nat} {P : Hw → Prop} (hc : s.hw.clocked = true) : Gives (.pendingPromote ch) s P ↔ P (pendingPromote ch s.hw) :=
  gives_iff_of_onClock rfl hc

/-- With clocks the command SEGMENT_REREAD does what its row says (R107). -/
theorem gives_segmentReread_iff {s : State} {ch : Nat} {side : Option Nat} {P : Hw → Prop} (hc : s.hw.clocked = true) :
    Gives (.segmentReread (ch, side)) s P ↔ P (segmentReread ch side s.hw) :=
  gives_iff_of_onClock rfl hc

end Sys2Proof.Machine

namespace Sys2Proof.Proofs.Chains
open Sys2Proof Sys2Proof.Machine Sys2Proof.Proofs.Scope

/-! ### A promotion that lets a frame land (O24)

The pending command starts as soon as it runs (R78, R84). In the state below it is a COPY whose first frame waits at the head of the receive buffer of link 1. It takes that frame out
(R97, R213), and the frame behind it, which belongs to a post, lands in the same tick (R175, R211): a byte of memory changes. -/

/-- The COPY of `copyWords` with operand A from step 2 of the context. -/
def copyStep2Words : List Nat := copyWords.set 2 (1 + 2 * 2 ^ 7)

/-- That COPY in the pending place: its descriptor has passed the checks, and it has not started. -/
def pendingCopy : Exec := { startedExec 2 copyStep2Words [] with started := false }

/-- A COPY that has issued its last fetch. -/
def lastFetchedCopy : Exec := { startedExec 1 copyWords [] with idx := 256 }

/-- Both on chain 0, and on link 1 a frame for the pending COPY ahead of a frame for a post. -/
def landsAtPromote : Hw :=
  { boundaryRegs with
    chains := [(0, { Chain.empty with act := [lastFetchedCopy], pend := some pendingCopy })]
    links := [(1, { LinkSt.empty with rbuf := [dataFrame 2 0 [0, 0, 0, 0], dataFrame 1 0 [1]], posts := [⟨0, 1, false, 0x100, 64, 0⟩] })] }

set_option maxRecDepth 20000 in
/-- The frame behind that of the promoted COPY has landed. -/
theorem mem_after_landsAtPromote : (pendingPromote 0 landsAtPromote).mem = [(0x100, 1)] := by decide

/-- Refutes O24: PENDING_PROMOTE in `landsAtPromote` writes the byte at 0x100. -/
theorem not_chainTriggersAndDescriptors : ¬ Obligations.ChainTriggersAndDescriptors := by
  unfold Obligations.ChainTriggersAndDescriptors
  rintro ⟨-, -, hpromote⟩
  have hgives := hpromote ⟨landsAtPromote, []⟩ 0 lastFetchedCopy pendingCopy rfl rfl rfl rfl
  obtain ⟨-, -, hmem⟩ := (gives_pendingPromote_iff rfl).mp hgives
  rw [mem_after_landsAtPromote] at hmem
  exact absurd hmem (by decide)

/-! ### A beat that fails in a segment already read again (O25)

R107 reads a segment again once: the second failure in it ends the command with PARITY. The statement's last clause about a link input does not ask, as the clause before it does, that
the segment has not been read again. In the state below it has, and the command does not wait for the rest of its segment with the failure marked: it ends. -/

/-- The COPY of `copyWords`, one element of its first segment arrived, with that segment read again before. -/
def rereadCopy : Exec := { startedExec 1 copyWords [[0, 0, 0, 0]] with rereads := [0] }

/-- That COPY alone on chain 0. -/
def failsAgain : Hw := { boundaryRegs with chains := [(0, { Chain.empty with act := [rereadCopy] })] }

set_option maxRecDepth 20000 in
/-- The command has its place and no failure marked. -/
theorem failsAgain_after_beat : ((segmentReread 0 (some 0) failsAgain).chain 0).act.map (fun y => (y.id, y.idx, y.fail)) = [(1, 0, none)] := by decide

/-- Refutes O25: in `failsAgain` a beat of the link input that fails ends the command, which is not left waiting with the failure marked. -/
theorem not_chainsStopAbortAndReread : ¬ Obligations.ChainsStopAbortAndReread := by
  unfold Obligations.ChainsStopAbortAndReread
  intro hall
  obtain ⟨-, hreread, -⟩ := hall ⟨failsAgain, []⟩ 0 rereadCopy (by decide)
  obtain ⟨-, hbeat⟩ := hreread rfl rfl rfl rfl rfl rfl rfl (by decide) rfl (by decide) (by decide) rfl (by decide) rfl rfl
  obtain ⟨hmarked, -⟩ := (gives_segmentReread_iff rfl).mp (hbeat rfl rfl (by decide) (by decide))
  rw [failsAgain_after_beat] at hmarked
  exact absurd hmarked (by decide)

end Sys2Proof.Proofs.Chains
end

section
/-!
SUPPORT. Contexts, posts and tokens (R164 to R185): a context becomes valid or HALTED, and microcode of a service frond raises CXE_ARDY, places posts and queues tokens.
-/
namespace Sys2Proof.Machine

/-! ### The gate of the service, and a field behind a mask -/

/-- With a frond that runs, a command of the vendor service does what its row says (R308). -/
theorem gives_iff_of_onService {i : Instr} {s : State} {f : Nat} {g : Hw → Hw} {P : Hw → Prop} (he : exec i s = onService s f g) (hlive : frondLive s.hw f = true)
    (hrun : (s.hw.frond f).run = .run) : Gives i s P ↔ P (g s.hw) := by
  rw [gives_iff_of_always he, hlive, hrun]
  rfl

/-- A mask that has every bit of a field leaves the field. -/
theorem fldGet_and_of_full {f : Fld} (hf : fldInWord f = true) {m : W32} (hm : fldGet f m = 2 ^ f.w - 1) (v : W32) : fldGet f (v &&& m) = fldGet f v := by
  simp only [fldInWord, Bool.and_eq_true, decide_eq_true_eq] at hf
  have hwidth : f.lo + f.w - 1 + 1 - f.lo = f.w := by omega
  simp only [fldGet, bits, hwidth] at hm ⊢
  rw [BitVec.toNat_and, Nat.shiftRight_and_distrib, Nat.and_mod_two_pow, hm, Nat.and_two_pow_sub_one_eq_mod, Nat.mod_mod]

/-! ### Registers of a context -/

theorem CXE_CTL_inj {m n : Nat} : CXE_CTL m = CXE_CTL n ↔ m = n := by
  unfold CXE_CTL
  omega

theorem CXE_CTL_ne_CX_SVC_STAT (n r : Nat) : CXE_CTL n ≠ CX_SVC_STAT r := by
  unfold CXE_CTL CX_SVC_STAT
  omega

/-! ### CONTEXT_VALIDATE (R166) -/

/-- The block in which the context n holds the control word v and is IDLE. -/
def cxValidated (h : Hw) (n : Nat) (v : W32) : Hw := (h.wr (CXE_CTL n) (v &&& 0xE0F10FFF)).wf (CXE_CTL n) CXE_CTL_STATE csIdle

section
variable {h : Hw} {w : Who} {n : Nat} {v : W32} (hctx : h.hasCtx n = true) (hw : w.keeperSup = true) (hfree : h.cxState n = csFree) (hv : fldGet CXE_CTL_V v = 1)
  (hagent : fldGet CXE_CTL_AGENT v = 0)
include hctx hw hfree hv hagent

theorem contextValidate_eq_of_legal (hworld : (h.frond (2 * (n / 1024) + fldGet CXE_CTL_FROND v)).world = (if fldGet CXE_CTL_WORLD v = 1 then World.tenant else World.keeper))
    (hpos : h.cxN n ≠ 0) (hmax : h.cxN n ≤ 1024) (hrank : h.cxRank n < h.cxN n) :
    contextValidate w n v h = cxValidated h n v := by
  simp [contextValidate, cxValidated, hctx, hw, hfree, hv, hagent, hworld, hpos, Nat.not_lt.mpr hmax, Nat.not_le.mpr hrank]

theorem contextValidate_eq_of_rank (hrank : h.cxN n ≤ h.cxRank n) : contextValidate w n v h = h.sb (CX_SVC_STAT (n / 1024)) CX_SVC_STAT_WREF := by
  simp [contextValidate, hctx, hw, hfree, hv, hagent, hrank]

end

theorem cxState_cxValidated_same (h : Hw) (n : Nat) (v : W32) : (cxValidated h n v).cxState n = csIdle := Hw.rf_wf_same _ _ rfl _

theorem cxState_cxValidated_other (h : Hw) {m n : Nat} (v : W32) (hne : m ≠ n) : (cxValidated h n v).cxState m = h.cxState m := by
  have haddr : CXE_CTL m ≠ CXE_CTL n := fun he => hne (CXE_CTL_inj.mp he)
  exact (Hw.rf_wf_other _ _ _ _ haddr).trans (h.rf_wr_other _ _ haddr)

theorem v_cxValidated (h : Hw) (n : Nat) {v : W32} (hv : fldGet CXE_CTL_V v = 1) : (cxValidated h n v).rb (CXE_CTL n) CXE_CTL_V = true := by
  rw [cxValidated, Hw.rb_wf_apart _ _ rfl rfl, Hw.rb, Hw.rf, Hw.rd_wr_same, fldGet_and_of_full rfl rfl, hv]
  rfl

/-! ### CX_HALT (R185) -/

theorem cxHalt_eq_of_idle {h : Hw} {w : Who} {r : Nat} {v : W32} (hr : h.hasRegion r = true) (hw : w.keeperSup = true) (hof : fldGet CX_HALT_CTX v / 1024 = r)
    (hctx : h.hasCtx (fldGet CX_HALT_CTX v) = true) (hidle : h.cxState (fldGet CX_HALT_CTX v) = csIdle) : cxHalt w r v h = cxHalted h (fldGet CX_HALT_CTX v) := by
  have hlive : h.cxLive (fldGet CX_HALT_CTX v) = false := by rw [Hw.cxLive, hidle]; rfl
  simp [cxHalt, hw, hr, hof, hctx, hlive, hidle]

theorem cxState_cxHalted (h : Hw) (n : Nat) : (cxHalted h n).cxState n = csHalted := by
  have hne := CXE_CTL_ne_CX_SVC_STAT n (n / 1024)
  exact (Hw.rf_wf_other _ _ _ _ hne).trans ((Hw.rf_wf_other _ _ _ _ hne).trans (h.rf_wf_same _ rfl _))

theorem halt_cxHalted (h : Hw) (n : Nat) : (cxHalted h n).rb (CX_SVC_STAT (n / 1024)) CX_SVC_STAT_HALT = true := Hw.rb_sb_same _ _ rfl

/-! ### Tokens (R174, R201) -/

/-- The class of a token: a FENCE travels in the one its payload byte names, the others in TC2. -/
def tokenClass (code : Nat) (payload : List Byte) : Nat := if code = 4 then min 2 (payload.headD 2).toNat else 2

/-- The payload a token of microcode carries: a FENCE has none. -/
def tokenBytes (code : Nat) (payload : List Byte) : List Byte := if code = 4 then [] else tokenPad code payload

theorem length_tokenPad (code : Nat) (payload : List Byte) : (tokenPad code payload).length = if code = 3 then 4 else if code = 6 then 12 else 0 := by
  simp [tokenPad]

theorem length_tokenBytes (code : Nat) (payload : List Byte) : (tokenBytes code payload).length = if code = 3 then 4 else if code = 6 then 12 else 0 := by
  rw [tokenBytes]
  split
  next hfence => subst hfence; rfl
  next => exact length_tokenPad code payload

theorem tokenSend_eq {h : Hw} {f lk n step code opid : Nat} {payload : List Byte} (hlk : lk / 32 = f / 2) (hlane : h.hasLane lk = true) (hof : n / 1024 = f / 2)
    (hctx : h.hasCtx n = true) (hfrond : h.rf (CXE_CTL n) CXE_CTL_FROND = f % 2) (hlow : 1 ≤ code) (hhigh : code ≤ 6) (hready : code = 1 → readyPosted h lk n step = true) :
    tokenSend f lk n step code opid payload h = linkSend h lk (tokenFrame n step code opid (tokenClass code payload) (tokenBytes code payload)) := by
  rw [tokenSend, if_pos ⟨hlk, hlane, hof, hctx, hfrond, hlow, hhigh, hready⟩]
  by_cases hfence : code = 4
  · simp [hfence, tokenClass, tokenBytes]
  · simp [hfence, tokenClass, tokenBytes]

end Sys2Proof.Machine

namespace Sys2Proof.Proofs.Contexts
open Sys2Proof Sys2Proof.Machine

/-- Settles O30: each command is its row function behind its gate, whose branch the hypotheses choose. -/
theorem contextsPostsAndTokens : Obligations.ContextsPostsAndTokens := by
  unfold Obligations.ContextsPostsAndTokens
  refine ⟨?_, ?_, ?_⟩
  · intro s w n v hctx hgrant hw h hfree hv hagent hworld
    refine ⟨fun hpos hmax hrank => ?_, fun hrank => ?_⟩
    · rw [gives_iff_of_onWrite rfl hgrant, whenSet_of_set hv, contextValidate_eq_of_legal hctx hw hfree hv hagent hworld hpos hmax hrank]
      exact ⟨cxState_cxValidated_same h n v, v_cxValidated h n hv, rfl, rfl, fun m _ hne => cxState_cxValidated_other h v hne⟩
    · rw [gives_iff_of_onWrite rfl hgrant, whenSet_of_set hv, contextValidate_eq_of_rank hctx hw hfree hv hagent hrank]
  · intro s w r v hr hgrant hw n hof hctx hidle
    rw [gives_iff_of_onWrite rfl hgrant, cxHalt_eq_of_idle hr hw hof hctx hidle]
    subst hof
    exact ⟨cxState_cxHalted s.hw n, halt_cxHalted s.hw n, rfl, rfl⟩
  · intro s f hlive hrun h
    refine ⟨fun n v hctx hof hfrond hrise hv => ?_, fun lk p hlk hlane hof hctx hok hroom => ?_, fun lk n step code opid payload hlk hlane hof hctx hfrond hlow hhigh hready => ?_⟩
    · rw [gives_iff_of_onService rfl hlive hrun]
      refine ⟨h.wf (CXE_ARDY n) CXE_ARDY_ARDY v, (h.rf_wf_same _ rfl v).trans (Nat.mod_eq_of_lt hv), fun a hne => h.rd_wf_other _ _ hne, rfl, ?_⟩
      exact if_pos (by simp [h, hctx, hof, hfrond, hrise])
    · rw [gives_iff_of_onService rfl hlive hrun]
      exact ⟨_, if_pos ⟨hlk, hlane, hof, hctx, hok, hroom⟩, rfl⟩
    · rw [gives_iff_of_onService rfl hlive hrun, tokenSend_eq hlk hlane hof hctx hfrond hlow hhigh hready]
      exact ⟨tokenFrame n step code opid (tokenClass code payload) (tokenBytes code payload), rfl, rfl, rfl, rfl, rfl, rfl, rfl, length_tokenBytes code payload, rfl⟩

end Sys2Proof.Proofs.Contexts
end

section
/-!
SUPPORT. What a firing source writes (R357, R370, R501, R505): the register file and the power states, and nothing else of the block.
-/
namespace Sys2Proof.Machine

/-- The blocks differ in the register file and the power states at most. -/
def RegsPwrOnly (h h' : Hw) : Prop := h' = { h with regs := h'.regs, pwr := h'.pwr }

namespace RegsPwrOnly

theorem refl (h : Hw) : RegsPwrOnly h h := rfl

theorem trans {h1 h2 h3 : Hw} (h12 : RegsPwrOnly h1 h2) (h23 : RegsPwrOnly h2 h3) : RegsPwrOnly h1 h3 := by
  unfold RegsPwrOnly at *
  rw [h23, h12]

theorem queues {h h' : Hw} (hs : RegsPwrOnly h h') : h'.queues = h.queues := by rw [hs]

theorem forEach {l : List Nat} {f : Hw → Nat → Hw} (hf : ∀ h i, RegsPwrOnly h (f h i)) (h : Hw) : RegsPwrOnly h (forEach l h f) := by
  induction l generalizing h with
  | nil => exact refl h
  | cons i l ih => exact (hf h i).trans (ih (f h i))

theorem wakeEvent (h : Hw) (r cause : Nat) : RegsPwrOnly h (wakeEvent h r cause) := by
  unfold Machine.wakeEvent
  extract_lets p
  split
  · rfl
  · split
    · rfl
    · split <;> rfl

theorem wakeOnIrq (h : Hw) (s : Nat) : RegsPwrOnly h (wakeOnIrq h s) := by
  unfold Machine.wakeOnIrq
  split
  · split
    · rfl
    · refine forEach (fun g r => ?_) h
      split
      · exact wakeEvent g r 1
      · rfl
  · rfl

theorem putSrcBit (h : Hw) (reg : Nat → Nat) (s : Nat) (v : Bool) : RegsPwrOnly h (putSrcBit h reg s v) := by
  unfold Machine.putSrcBit
  split <;> rfl

theorem deferApply (h : Hw) (g : Nat) : RegsPwrOnly h (deferApply h g) := by
  unfold Machine.deferApply
  extract_lets d h1
  split
  · rfl
  · refine trans (h2 := h1) rfl (forEach (fun g' k => ?_) h1)
    split
    · exact wakeOnIrq g' _
    · rfl

theorem irqSetPend (h : Hw) (s : Nat) : RegsPwrOnly h (irqSetPend h s) := by
  unfold Machine.irqSetPend
  split
  · rfl
  · split
    · exact putSrcBit h _ s true
    · exact ((deferApply h _).trans (putSrcBit _ _ s true)).trans (wakeOnIrq _ s)

theorem irqFire (h : Hw) (s : Nat) : RegsPwrOnly h (irqFire h s) := by
  unfold Machine.irqFire
  split
  · rfl
  · split
    · rfl
    · exact irqSetPend h s

end RegsPwrOnly

end Sys2Proof.Machine
end

section
/-!
SUPPORT. A write that gives every byte of its words (R50): no word of it is merged, so no check stands in its way.
-/
namespace Sys2Proof.Machine

section
variable (h : Hw) (m : Master) (a : Nat)

/-- A word whose eight bytes are all given is stored without a read. -/
theorem writeWord_whole (data : List (Option Byte)) (par : Par) {w : Nat} (hw : ∀ i, i < 8 → (givenByte a data (w + i)).isSome = true) :
    writeWord m a data par (h, false) w = (writeStep a data h w, false) := by
  have hany : ((List.range 8).map (fun i => givenByte a data (w + i))).any (·.isNone) = false := by
    simp only [List.any_map, List.any_eq_false, List.mem_range, Function.comp_apply, Bool.not_eq_true, Option.isNone_eq_false_iff]
    exact hw
  simp only [writeWord, wordBytes_nil, writeStep, hany, wordWrite, Bool.false_eq_true, if_false]
  split <;> rfl

theorem foldl_writeWord_whole (data : List (Option Byte)) (par : Par) {l : List Nat} (hl : ∀ w ∈ l, ∀ i, i < 8 → (givenByte a data (w + i)).isSome = true) :
    l.foldl (writeWord m a data par) (h, false) = (l.foldl (writeStep a data) h, false) := by
  induction l generalizing h with
  | nil => rfl
  | cons w l ih =>
    obtain ⟨hw, hrest⟩ := List.forall_mem_cons.mp hl
    rw [List.foldl_cons, List.foldl_cons, writeWord_whole h m a data par hw, ih _ hrest]

theorem foldl_writeStep_queues (data : List (Option Byte)) (l : List Nat) : (l.foldl (writeStep a data) h).queues = h.queues := by
  induction l generalizing h with
  | nil => rfl
  | cons w l ih =>
    refine (ih _).trans ?_
    unfold writeStep
    extract_lets bs
    split <;> rfl

theorem idleLeave_queues (r : Nat) : (h.idleLeave r).queues = h.queues := by
  unfold Hw.idleLeave
  split <;> rfl

theorem givenByte_some {data : List Byte} {b : Nat} (hlo : a ≤ b) (hhi : b < a + data.length) : givenByte a (data.map some) b = some (data.getD (b - a) 0) := by
  have hlt : b - a < data.length := by omega
  rw [givenByte, if_neg (by omega)]
  simp [hlt]

variable {a} {data : List Byte} (ha : a % 8 = 0) (hlen : data.length % 8 = 0) (hpos : 0 < data.length) (hcause : protCause h m a data.length true = none)
include ha hlen hpos hcause

/-- A permitted write of whole words is stored word by word, and answers without an error. -/
theorem memWrite_whole : memWrite h m a data .good [] = ((wordsOf a data.length).foldl (writeStep a (data.map some)) (h.idleLeave (memRegion a)), 0) := by
  have hmax : max 1 (data.map some).length = data.length := by
    rw [List.length_map]
    omega
  have hgiven : ∀ w ∈ wordsOf a data.length, ∀ i, i < 8 → (givenByte a (data.map some) (w + i)).isSome = true := by
    intro w hw i hi
    have hword := mem_wordsOf.mp hw
    rw [givenByte_some a (by omega) (by omega)]
    rfl
  rw [memWrite, memWriteEn, hmax, hcause, memWriteAs_permitted h m a _ (sideHit_fine m a rfl), hmax, foldl_writeWord_whole _ m a _ _ hgiven]
  rfl

theorem memWrite_whole_queues : (memWrite h m a data .good []).1.queues = h.queues := by
  rw [memWrite_whole h m ha hlen hpos hcause]
  exact (foldl_writeStep_queues _ a _ _).trans (idleLeave_queues h _)

/-- The bytes after that write. -/
theorem byteAt_memWrite_whole (b : Nat) :
    (memWrite h m a data .good []).1.byteAt b = if a ≤ b ∧ b < a + data.length then data.getD (b - a) 0 else h.byteAt b := by
  rw [memWrite_whole h m ha hlen hpos hcause, byteAt_foldl_writeStep a _ _ (fun w hw => (mem_wordsOf.mp hw).1), byteAt_idleLeave]
  have hgot := givenByte_getD a (data := data.map some) (by rwa [List.length_map]) b (h.byteAt b)
  rw [List.length_map] at hgot
  rw [hgot]
  split
  next hin =>
    have hlt : b - a < data.length := by omega
    simp [hlt]
  next => rfl

theorem bytesAt_memWrite_whole : (memWrite h m a data .good []).1.bytesAt a data.length = data := by
  refine List.ext_getElem (by simp [Hw.bytesAt]) fun i hi hlt => ?_
  simp only [Hw.bytesAt, List.getElem_map, List.getElem_range]
  rw [byteAt_memWrite_whole h m ha hlen hpos hcause, if_pos (by omega), Nat.add_sub_cancel_left, List.getD_eq_getElem _ _ hlt]

end

end Sys2Proof.Machine
end

section
/-!
SUPPORT. The completion order of a queue (R248 to R255): an entry is handed to the service, a record is written, and the write is answered.
-/
namespace Sys2Proof.Machine

@[simp] theorem Hw.queue_setQueue_same (h : Hw) (q : Nat) (x : QueueSt) : (h.setQueue q x).queue q = x := kvGet_kvIns_same _ _ _ _

theorem Hw.queue_congr {h h' : Hw} (hq : h'.queues = h.queues) (q : Nat) : h'.queue q = h.queue q := congrArg (kvGet QueueSt.empty · q) hq

/-- The doorbell registers lie apart from those that the queue engine keeps (R246, R248). -/
theorem SQ_STAT_ne_DB_CQ (q : Nat) : SQ_STAT q ≠ DB_CQ q := by
  unfold SQ_STAT DB_CQ
  omega

theorem SQ_FETCH_ne_SQ_STAT (q : Nat) : SQ_FETCH q ≠ SQ_STAT q := by
  unfold SQ_FETCH SQ_STAT
  omega

theorem not_irqOrPower_SQ_STAT {q : Nat} (hq : q < 1024) : ¬ irqOrPower (SQ_STAT q) := by
  unfold irqOrPower SQ_STAT
  omega

theorem not_irqOrPower_DB_CQ {q : Nat} (hq : q < 1024) : ¬ irqOrPower (DB_CQ q) := by
  unfold irqOrPower DB_CQ
  omega

theorem Hw.lt_of_hasQueue {h : Hw} {q : Nat} (hq : h.hasQueue q = true) : q < 1024 := by
  have hle : h.cfg.regions ≤ 4 := by cases h.cfg <;> decide
  have hlt : q < 256 * h.cfg.regions := of_decide_eq_true hq
  omega

/-! ### An entry for the service (R250) -/

theorem queueIssue_eq_of_service {h : Hw} {q : Nat} (hq : h.hasQueue q = true) (hready : sqReady h q = true) (hchosen : sqChosen h q = true) (hwork : h.working (q / 256) = true)
    (hrun : h.rgnState (q / 256) = 0) (hbind : h.rf (SQ_CFG q) SQ_CFG_BIND ≠ 1) :
    queueIssue q h =
      let i := h.rf (SQ_FETCH q) SQ_FETCH_FETCH
      let h1 := queueJoin (sqIssue h q i) q ⟨svcId q i, h.seq + 1, 0, some (q, i), false, none⟩
      { h1 with svcQ := kvIns h1.svcQ (q / 256) (kvGet [] h1.svcQ (q / 256) ++ [(q, i, h.rdPair (SQ_BASE_LO q) (SQ_BASE_HI q) + 64 * (i % 2 ^ h.rf (SQ_CFG q) SQ_CFG_SQSZ))]) } := by
  simp [queueIssue, hq, hready, hchosen, hwork, hrun, hbind]

theorem fetch_sqIssue (h : Hw) (q i : Nat) : (sqIssue h q i).rf (SQ_FETCH q) SQ_FETCH_FETCH = (i + 1) % 2 ^ 16 := by
  refine (Hw.rf_wf_other _ _ _ _ (SQ_FETCH_ne_SQ_STAT q)).trans ((Hw.rf_wf_same _ _ rfl _).trans ?_)
  exact Nat.mod_mod _ _

theorem ended_sqIssue (h : Hw) (q i : Nat) : ((sqIssue h q i).queue q).ended = (h.queue q).ended ++ [(i, false)] :=
  congrArg QueueSt.ended (h.queue_setQueue_same q _)

theorem ended_queueJoin (h : Hw) (q : Nat) (j : Join) : ((queueJoin h q j).queue q).ended = (h.queue q).ended := by
  rw [queueJoin, Hw.queue_setQueue_same]

/-! ### The front of the order (R252) -/

/-- The order stands when its front has not ended. -/
theorem queueTidy_eq_of_waiting {h : Hw} {q : Nat} {j : Join} {rest : List Join} (hjoins : (h.queue q).joins = j :: rest) (hdone : j.done = false) : queueTidy h q = h := by
  simp [queueTidy, queueSettle, hjoins, hdone]

/-- The order stands when the record of its front is to be written. -/
theorem queueTidy_eq_of_record {h : Hw} {q : Nat} {j : Join} {rc : Rec} {rest : List Join} (hjoins : (h.queue q).joins = j :: rest) (hrec : j.recd = some rc)
    (hmute : (h.queue q).mute = false) (hon : h.sqState q ≠ sqOff) : queueTidy h q = h := by
  simp [queueTidy, queueSettle, hjoins, hrec, hmute, hon]

theorem queueTidy_eq_of_empty {h : Hw} {q : Nat} (hjoins : (h.queue q).joins = []) (herr : (h.queue q).toErr = false) : queueTidy h q = h := by
  simp [queueTidy, queueSettle, hjoins, herr]

/-- The order stands when no command of it has ended and no discard awaits its end. -/
theorem queueTidy_eq_of_none_done {h : Hw} {q : Nat} (hdone : ∀ x, x ∈ (h.queue q).joins → x.done = false) (herr : (h.queue q).toErr = false) : queueTidy h q = h := by
  cases hjoins : (h.queue q).joins with
  | nil => exact queueTidy_eq_of_empty hjoins herr
  | cons j rest => exact queueTidy_eq_of_waiting hjoins (hdone j (hjoins ▸ List.mem_cons_self))

/-! ### A record is written (R252, R254) -/

theorem length_recBytes (rc : Rec) (i k : Nat) : (recBytes rc i k).length = 32 := by
  simp [recBytes, recWords, leBytes]

/-- The block in which the record rc of the queue is under way. -/
def recordTaken (h : Hw) (q : Nat) (rc : Rec) : Hw := h.setQueue q { h.queue q with writing := some rc }

section
variable {h : Hw} {q : Nat} {j : Join} {rc : Rec} {rest : List Join}
  (hq : h.hasQueue q = true) (hjoins : (h.queue q).joins = j :: rest) (hrec : j.recd = some rc)
include hq hjoins hrec

/-- The write of a record whose slot lies in the cushion. -/
theorem completionRecordWrite_eq_of_cushion {off : Nat} (hdone : j.done = true) (hidle : (h.queue q).writing = none) (hmute : (h.queue q).mute = false) (hon : h.sqState q = sqRun)
    (hnamed : allNamed h j.ord = true) (hrun : h.rgnState (q / 256) = 0)
    (hpa : paLocal (h.rdPair (CQ_BASE_LO q) (CQ_BASE_HI q) + 32 * (h.rf (DB_CQ q) DB_CQ_CQ_TAIL % 2 ^ h.rf (SQ_CFG q) SQ_CFG_CQSZ)) = some off) (hcush : h.inCush off = true)
    (hroom : (h.rf (DB_CQ q) DB_CQ_CQ_HEAD + 2 ^ h.rf (SQ_CFG q) SQ_CFG_CQSZ + 2 ^ 16 - h.rf (DB_CQ q) DB_CQ_CQ_TAIL) % 2 ^ 16 ≠ 0) :
    completionRecordWrite q [] h =
      let w := memWrite (recordTaken h q rc) (.queueEngine (q / 256)) off (recBytes rc (h.rf (DB_CQ q) DB_CQ_CQ_TAIL) (h.rf (SQ_CFG q) SQ_CFG_CQSZ)) .good []
      w.1.setQueue q { w.1.queue q with wrErr := w.2 != 0 } := by
  have hstands : queueTidy h q = h := queueTidy_eq_of_record hjoins hrec hmute (by rw [hon]; decide)
  have hcush' : ∀ x, (h.setQueue q x).inCush off = true := fun _ => hcush
  simp only [Nat.reducePow] at hroom
  simp [completionRecordWrite, hq, hstands, hjoins, hrec, hdone, hidle, hnamed, hrun, hroom, hpa, hcush', recordTaken]

end

/-! ### The write is answered (R255) -/

section
variable {h : Hw} {q : Nat} {j : Join} {rc : Rec} {rest : List Join}
  (hjoins : (h.queue q).joins = j :: rest) (hwriting : (h.queue q).writing = some rc) (hfrom : j.fromQ = none) (hrest : ∀ x, x ∈ rest → x.done = false)
  (herr : (h.queue q).toErr = false)

/-- The block in which the front of the order has left it. -/
def frontTaken (h : Hw) (q : Nat) (rest : List Join) : Hw := h.setQueue q { h.queue q with writing := none, wrErr := false, joins := rest }

/-- That block once CQ_TAIL has advanced. -/
def tailAdvanced (h : Hw) (q : Nat) (rest : List Join) : Hw := (frontTaken h q rest).wf (DB_CQ q) DB_CQ_CQ_TAIL ((h.rf (DB_CQ q) DB_CQ_CQ_TAIL + 1) % 2 ^ 16)

theorem queue_tailAdvanced (h : Hw) (q : Nat) (rest : List Join) :
    (tailAdvanced h q rest).queue q = { h.queue q with writing := none, wrErr := false, joins := rest } := h.queue_setQueue_same q _

theorem tail_tailAdvanced (h : Hw) (q : Nat) (rest : List Join) : (tailAdvanced h q rest).rf (DB_CQ q) DB_CQ_CQ_TAIL = (h.rf (DB_CQ q) DB_CQ_CQ_TAIL + 1) % 2 ^ 16 :=
  (Hw.rf_wf_same _ _ rfl _).trans (Nat.mod_mod _ _)

theorem head_tailAdvanced (h : Hw) (q : Nat) (rest : List Join) : (tailAdvanced h q rest).rf (DB_CQ q) DB_CQ_CQ_HEAD = h.rf (DB_CQ q) DB_CQ_CQ_HEAD :=
  Hw.rf_wf_apart _ _ rfl rfl _

theorem sqState_tailAdvanced (h : Hw) (q : Nat) (rest : List Join) : (tailAdvanced h q rest).sqState q = h.sqState q :=
  Hw.rf_wf_other _ _ _ _ (SQ_STAT_ne_DB_CQ q)

include hjoins hwriting hfrom hrest herr

/-- After a good response the front leaves the order, CQ_TAIL advances, and a source may fire. -/
theorem recordDone_good (hst : rc.status ≠ 4) :
    recordDone h q false = tailAdvanced h q rest ∨ recordDone h q false = irqFire (tailAdvanced h q rest) (rSrc (q / 256) (56 + q % 32)) := by
  have htidy : ∀ g : Hw, g.queue q = (tailAdvanced h q rest).queue q → queueTidy g q = g := by
    intro g hg
    rw [queue_tailAdvanced] at hg
    exact queueTidy_eq_of_none_done (by rw [hg]; exact hrest) (by rw [hg]; exact herr)
  have hdone : recordDone h q false = queueTidy (if j.cmode = 3 ∧ (tailAdvanced h q rest).rb (SQ_CFG q) SQ_CFG_IE then irqFire (tailAdvanced h q rest) (rSrc (q / 256) (56 + q % 32))
      else tailAdvanced h q rest) q := by
    simp only [recordDone, hwriting, hjoins, joinOver, hfrom, hst, Bool.false_eq_true, if_false]
    rfl
  rw [hdone]
  split
  · exact .inr (htidy _ (Hw.queue_congr (RegsPwrOnly.irqFire _ _).queues q))
  · exact .inl (htidy _ rfl)

theorem recordDone_good_keeps (hst : rc.status ≠ 4) :
    IrqKeeps (tailAdvanced h q rest) (recordDone h q false) ∧ (recordDone h q false).queue q = { h.queue q with writing := none, wrErr := false, joins := rest } := by
  obtain hd | hd := recordDone_good hjoins hwriting hfrom hrest herr hst
  · rw [hd]
    exact ⟨IrqKeeps.refl _, queue_tailAdvanced h q rest⟩
  · rw [hd]
    exact ⟨IrqKeeps.irqFire _ _, (Hw.queue_congr (RegsPwrOnly.irqFire _ _).queues q).trans (queue_tailAdvanced h q rest)⟩

/-- After an error response the front leaves the order, CQERR is set and the queue is in ERR. -/
theorem recordDone_error (hon : h.sqState q = sqRun) :
    recordDone h q true = (((frontTaken h q rest).sb (SQ_STAT q) SQ_STAT_CQERR).wf (SQ_STAT q) SQ_STAT_STATE sqErr).setQueue q
      { h.queue q with writing := none, wrErr := false, joins := rest, mute := true } := by
  have hstate : ((frontTaken h q rest).sb (SQ_STAT q) SQ_STAT_CQERR).sqState q = sqRun := (Hw.rf_wf_apart _ _ rfl rfl _).trans hon
  have hqueue : ((frontTaken h q rest).sb (SQ_STAT q) SQ_STAT_CQERR).queue q = { h.queue q with writing := none, wrErr := false, joins := rest } := h.queue_setQueue_same q _
  have hdone : recordDone h q true = queueTidy (queueErr ((frontTaken h q rest).sb (SQ_STAT q) SQ_STAT_CQERR) q) q := by
    simp only [recordDone, hwriting, hjoins, joinOver, hfrom, if_true]
    rfl
  rw [hdone, queueErr, if_pos (.inl hstate), hqueue]
  refine queueTidy_eq_of_none_done ?_ ?_ <;> rw [Hw.queue_setQueue_same]
  · exact hrest
  · exact herr

end

theorem completionRecordWriteDone_eq {h : Hw} {q : Nat} (hq : h.hasQueue q = true) (hlocal : ∀ m, m ∈ h.mreqs → m.use ≠ .record q) (hgood : (h.queue q).wrErr = false) (err : Bool) :
    completionRecordWriteDone q err h = recordDone h q err := by
  have hall : h.mreqs.all (fun m => m.use != .record q) = true := List.all_eq_true.mpr fun m hm => bne_iff_ne.mpr (hlocal m hm)
  simp [completionRecordWriteDone, hq, hall, hgood]

end Sys2Proof.Machine

namespace Sys2Proof.Proofs.QueueRecords
open Sys2Proof Sys2Proof.Machine

/-- Settles O28: entry FETCH joins the service queue; a record is 32 bytes of whole words, so its write merges nothing; the answer takes the front of the order. -/
theorem entriesAreIssuedAndRecordsWritten : Obligations.EntriesAreIssuedAndRecordsWritten := by
  unfold Obligations.EntriesAreIssuedAndRecordsWritten
  intro s q hclk hq h r
  have hlt : q < 1024 := Hw.lt_of_hasQueue hq
  refine ⟨?_, fun j rc rest hjoins hrec => ⟨?_, ?_⟩⟩
  · intro hready hchosen hwork hrun hbind i
    rw [gives_iff_of_onClock rfl hclk, queueIssue_eq_of_service hq hready hchosen hwork hrun hbind]
    exact ⟨kvGet_kvIns_same _ _ _ _, fetch_sqIssue h q i, (ended_queueJoin _ q _).trans (ended_sqIssue h q i), rfl, rfl⟩
  · intro hdone hidle hmute hon hnamed hrun k t pa off hpa halign hcush hcause hroom
    have hlen : (recBytes rc t k).length = 32 := length_recBytes rc t k
    have hcause' : protCause (recordTaken h q rc) (.queueEngine r) off (recBytes rc t k).length true = none := hlen.symm ▸ hcause
    have h8 : off % 8 = 0 := by omega
    have hlen8 : (recBytes rc t k).length % 8 = 0 := by rw [hlen]
    have hpos : 0 < (recBytes rc t k).length := by rw [hlen]; decide
    rw [gives_iff_of_onClock rfl hclk, completionRecordWrite_eq_of_cushion hq hjoins hrec hdone hidle hmute hon hnamed hrun hpa hcush hroom]
    refine ⟨?_, ?_, fun a ha => ?_⟩
    · have hqueue := Hw.queue_congr (memWrite_whole_queues (recordTaken h q rc) _ h8 hlen8 hpos hcause') q
      rw [Hw.queue_setQueue_same]
      exact congrArg QueueSt.writing (hqueue.trans (h.queue_setQueue_same q _))
    · rw [← hlen]
      exact bytesAt_memWrite_whole (recordTaken h q rc) _ h8 hlen8 hpos hcause'
    · refine (byteAt_memWrite_whole (recordTaken h q rc) _ h8 hlen8 hpos hcause' a).trans ?_
      rw [if_neg (by omega)]
      rfl
  · intro hwriting hgood hmute hlocal hfrom hrest herr hon hst
    constructor
    · rw [gives_iff_of_onClock rfl hclk, completionRecordWriteDone_eq hq hlocal hgood]
      obtain ⟨hirq, hqueue⟩ := recordDone_good_keeps hjoins hwriting hfrom hrest herr hst
      have hdb := hirq.rd _ (not_irqOrPower_DB_CQ hlt)
      have hstat := hirq.rd _ (not_irqOrPower_SQ_STAT hlt)
      exact ⟨(congrArg (fldGet DB_CQ_CQ_TAIL) hdb).trans (tail_tailAdvanced h q rest), (congrArg (fldGet DB_CQ_CQ_HEAD) hdb).trans (head_tailAdvanced h q rest),
        congrArg QueueSt.joins hqueue, congrArg QueueSt.writing hqueue, (congrArg (fldGet SQ_STAT_STATE) hstat).trans ((sqState_tailAdvanced h q rest).trans hon), hirq.mem⟩
    · rw [gives_iff_of_onClock rfl hclk, completionRecordWriteDone_eq hq hlocal hgood, recordDone_error hjoins hwriting hfrom hrest herr hon]
      refine ⟨?_, Hw.rf_wf_same _ _ rfl _, congrArg QueueSt.writing (Hw.queue_setQueue_same _ q _), rfl⟩
      exact (Hw.rb_wf_apart _ _ rfl rfl _).trans (Hw.rb_sb_same _ _ rfl)

end Sys2Proof.Proofs.QueueRecords
end

section
/-!
SUPPORT. What the completion order writes (R248 to R254): the register file from the queue engine's block on, the queues, and the power states of regions that a source wakes.
-/
namespace Sys2Proof.Machine

/-- No collective request runs, so no record of one ends a request. -/
def noRuns (h : Hw) : Prop := ∀ c, c ∈ h.ctxs → c.2.run = none

/-- The blocks differ in the register file from the block of the queue engine on, in the queues and in the power states at most. -/
structure RecordKeeps (h h' : Hw) : Prop where
  shape : h' = { h with regs := h'.regs, queues := h'.queues, pwr := h'.pwr }
  rd : ∀ a, a < 0x20500000 → h'.rd a = h.rd a

namespace RecordKeeps

theorem refl (h : Hw) : RecordKeeps h h := ⟨rfl, fun _ _ => rfl⟩

theorem trans {h1 h2 h3 : Hw} (h12 : RecordKeeps h1 h2) (h23 : RecordKeeps h2 h3) : RecordKeeps h1 h3 where
  shape := by rw [h23.shape, h12.shape]
  rd a ha := (h23.rd a ha).trans (h12.rd a ha)

section
variable {h h' : Hw} (hk : RecordKeeps h h')
include hk

theorem ctxs : h'.ctxs = h.ctxs := by rw [hk.shape]

theorem noRuns (hn : noRuns h) : noRuns h' := by
  unfold Machine.noRuns
  rw [hk.ctxs]
  exact hn

end

theorem setQueue (h : Hw) (q : Nat) (x : QueueSt) : RecordKeeps h (h.setQueue q x) := ⟨rfl, fun _ _ => rfl⟩

theorem wf {a : Nat} (ha : 0x20500000 ≤ a) (h : Hw) (f : Fld) (n : Nat) : RecordKeeps h (h.wf a f n) :=
  ⟨rfl, fun _ hb => h.rd_wf_other f n (by omega)⟩

theorem irqFire (h : Hw) (s : Nat) : RecordKeeps h (irqFire h s) where
  shape := by
    have hs := RegsPwrOnly.irqFire h s
    rw [RegsPwrOnly] at hs
    rw [hs]
  rd a ha := (IrqKeeps.irqFire h s).rd a (by unfold irqOrPower; omega)

theorem irqFire_ite (h : Hw) (s : Nat) (p : Prop) [Decidable p] : RecordKeeps h (if p then Machine.irqFire h s else h) := by
  split
  · exact irqFire h s
  · exact refl h

theorem inflSync (h : Hw) (q : Nat) : RecordKeeps h (inflSync h q) := wf (by unfold SQ_STAT; omega) h _ _

theorem queueErr (h : Hw) (q : Nat) : RecordKeeps h (queueErr h q) := by
  unfold Machine.queueErr
  split
  · exact (wf (by unfold SQ_STAT; omega) h _ _).trans (setQueue _ q _)
  · exact refl h

theorem entryOver (h : Hw) (q idx : Nat) : RecordKeeps h (entryOver h q idx) := by
  unfold Machine.entryOver
  extract_lets x marked
  split
  next rest hd _ =>
    extract_lets h1
    have hmoved : RecordKeeps h h1 := ((setQueue h q _).trans (wf (by unfold DB_SQ; omega) _ _ hd)).trans (inflSync _ q)
    split
    · exact hmoved.trans (wf (by unfold SQ_STAT; omega) h1 _ _)
    · exact hmoved

end RecordKeeps

theorem cxRelease_eq_of_noRuns {h : Hw} (hn : noRuns h) (q idx : Nat) : cxRelease h q idx = h := by
  unfold cxRelease
  split
  next n x hsome =>
    have hrun : x.run = none := hn (n, x) (List.mem_of_find?_eq_some hsome)
    have hmatch := List.find?_some hsome
    simp [hrun] at hmatch
  next => rfl

namespace RecordKeeps

theorem joinOver {h : Hw} (hn : Machine.noRuns h) (j : Join) : RecordKeeps h (joinOver h j) := by
  unfold Machine.joinOver
  split
  next q idx _ =>
    have hover := entryOver h q idx
    rwa [cxRelease_eq_of_noRuns (hover.noRuns hn)]
  next => exact refl h

theorem queueSettle {n : Nat} {h : Hw} (hn : Machine.noRuns h) (q : Nat) : RecordKeeps h (queueSettle n h q) := by
  induction n generalizing h with
  | zero => exact refl h
  | succ n ih =>
    unfold Machine.queueSettle
    extract_lets x
    split
    · split
      · exact (setQueue h q _).trans (queueErr _ q)
      · exact refl h
    next j rest _ =>
      split
      · exact refl h
      · split
        · have hstep := (setQueue h q { x with joins := rest }).trans (joinOver ((setQueue h q _).noRuns hn) j)
          exact hstep.trans (ih (hstep.noRuns hn))
        · exact refl h

theorem queueTidy {h : Hw} (hn : Machine.noRuns h) (q : Nat) : RecordKeeps h (queueTidy h q) := queueSettle hn q

/-- The end of a command that came from no queue (R252). -/
theorem queueEnded {h : Hw} (hn : Machine.noRuns h) (id qn cmode status : Nat) (rc : Rec) : RecordKeeps h (queueEnded h id qn none cmode status rc) := by
  unfold Machine.queueEnded
  extract_lets recd x h1
  split
  · have hjoin : RecordKeeps h h1 := by
      unfold h1
      split
      · exact setQueue h qn _
      · exact setQueue h qn _
    exact hjoin.trans (queueTidy (hjoin.noRuns hn) qn)
  · exact refl h

end RecordKeeps

end Sys2Proof.Machine
end

section
/-!
SUPPORT. A lone command leaves its chain (R78, R108): what the registers of the chain show, and why nothing else of the region goes on.
-/
namespace Sys2Proof.Machine

/-! ### Nothing goes on -/

theorem mem_of_kvFind {α : Type} {m : KV α} {k : Nat} {v : α} (hk : kvFind m k = some v) : (k, v) ∈ m := by
  induction m with
  | nil => cases hk
  | cons e m ih =>
    obtain ⟨j, x⟩ := e
    rw [kvFind] at hk
    split at hk
    next hj =>
      cases hk
      exact hj ▸ List.mem_cons_self
    next => exact List.mem_cons_of_mem _ (ih hk)

theorem kvGet_of_forall {α : Type} {p : α → Prop} {d : α} {m : KV α} (hd : p d) (hm : ∀ e, e ∈ m → p e.2) (k : Nat) : p (kvGet d m k) := by
  cases hk : kvFind m k with
  | none => rwa [kvGet, hk]
  | some v =>
    rw [kvGet, hk]
    exact hm _ (mem_of_kvFind hk)

/-- In a region whose chains are empty the chains do nothing. -/
theorem chainsAdvance_eq_of_idle {h : Hw} {r : Nat} (hidle : ∀ c, c < 8 → (h.chain (8 * r + c)).act = []) : chainsAdvance h r = h := by
  have hbusy : (List.range 8).filter (fun c => !(h.chain (8 * r + c)).act.isEmpty) = [] :=
    List.filter_eq_nil_iff.mpr fun c hc => by simp [hidle c (List.mem_range.mp hc)]
  rw [chainsAdvance, hbusy]
  rfl

section
variable {h : Hw} (hquiet : svcQuiet h = true)
include hquiet

theorem ctx_of_svcQuiet (n : Nat) : (h.ctx n).run = none ∧ (h.ctx n).gets = [] := by
  simp only [svcQuiet, Bool.and_eq_true, List.all_eq_true, Option.isNone_iff_eq_none, List.isEmpty_iff] at hquiet
  obtain ⟨hctxs, -⟩ := hquiet
  exact kvGet_of_forall (p := fun x : CtxSt => x.run = none ∧ x.gets = []) ⟨rfl, rfl⟩ hctxs n

theorem noRuns_of_svcQuiet : noRuns h := by
  simp only [svcQuiet, Bool.and_eq_true, List.all_eq_true, Option.isNone_iff_eq_none] at hquiet
  obtain ⟨hctxs, -⟩ := hquiet
  exact fun c hc => (hctxs c hc).1

theorem svcGo_eq_of_quiet (k r : Nat) : svcGo k h r = h := by
  cases k with
  | zero => rfl
  | succ k =>
    unfold svcGo
    split
    next hsome =>
      obtain ⟨e, -, hstep⟩ := List.exists_of_findSome?_eq_some hsome
      obtain ⟨hrun, hgets⟩ := ctx_of_svcQuiet hquiet e.1
      simp [svcAct, svcGet, hrun, hgets] at hstep
    next => rfl

theorem svcArm_eq_of_quiet (n : Nat) : svcArm h n = h := by
  rw [svcArm, (ctx_of_svcQuiet hquiet n).1]

/-- With no request, no held frame and no command in the region the service does nothing. -/
theorem svcAdvance_eq_of_quiet {r : Nat} (hidle : ∀ c, c < 8 → (h.chain (8 * r + c)).act = []) : svcAdvance h r = h := by
  have hlinks : (h.links.filter (fun e => e.1 / 32 == r && (!e.2.rbuf.isEmpty || !e.2.strays.isEmpty))) = [] := by
    simp only [svcQuiet, Bool.and_eq_true, List.all_eq_true] at hquiet
    obtain ⟨-, hl⟩ := hquiet
    exact List.filter_eq_nil_iff.mpr fun e he => by simp [hl e he]
  unfold svcAdvance
  split
  · rfl
  · simp only [svcGo_eq_of_quiet hquiet, hlinks, List.map_nil, List.foldl_nil, chainsAdvance_eq_of_idle hidle]
    exact List.foldl_fixed' (fun e => svcArm_eq_of_quiet hquiet e.1) _

end

/-! ### What the registers show -/

theorem RegsPwrOnly.wr {h h' : Hw} (hs : RegsPwrOnly h h') (a : Nat) (v : W32) : RegsPwrOnly h (h'.wr a v) := hs.trans (h3 := h'.wr a v) rfl

theorem RegsPwrOnly.wf {h h' : Hw} (hs : RegsPwrOnly h h') (a : Nat) (f : Fld) (n : Nat) : RegsPwrOnly h (h'.wf a f n) := hs.wr a _

theorem chainSync_regsPwrOnly (h : Hw) (ch : Nat) : RegsPwrOnly h (chainSync h ch) := by
  unfold chainSync
  extract_lets r c x h0
  have hpend : RegsPwrOnly h h0 := (RegsPwrOnly.refl h).wf _ _ _
  split
  · split
    · exact hpend
    · exact (((hpend.wf _ _ _).wf _ _ _).wf _ _ _).wf _ _ _
  · extract_lets s1 h1 h2
    have hshown : RegsPwrOnly h h2 := ((((hpend.wr _ _).wr _ _).wr _ _).wr _ _).wf _ _ _
    split
    · exact ((((hshown.wf _ _ _).wf _ _ _).wr _ _).wr _ _).wr _ _
    · exact hshown

theorem chnErr_regsPwrOnly (h : Hw) (ch : Nat) (en : Ending) : RegsPwrOnly h (chnErr h ch en) := by
  unfold chnErr
  extract_lets r c
  split <;> rfl

/-- The capture of an ending writes no CHN_STAT (R108). -/
theorem chnStat_chnErr (h : Hw) (ch : Nat) (en : Ending) : (chnErr h ch en).rd (CHN_STAT (ch / 8) (ch % 8)) = h.rd (CHN_STAT (ch / 8) (ch % 8)) := by
  unfold chnErr
  extract_lets r c
  split
  · rfl
  · have herr : CHN_STAT r c ≠ CHN_ERR r c := by unfold CHN_STAT CHN_ERR; omega
    have hlo : CHN_STAT r c ≠ CHN_ERRVA_LO r c := by unfold CHN_STAT CHN_ERRVA_LO; omega
    have hhi : CHN_STAT r c ≠ CHN_ERRVA_HI r c := by unfold CHN_STAT CHN_ERRVA_HI; omega
    rw [Hw.rd_wr_other _ _ hhi, Hw.rd_wr_other _ _ hlo, Hw.rd_wr_other _ _ herr]

section
variable {h : Hw} {ch : Nat} (hact : (h.chain ch).act = [])
include hact

/-- The registers of an empty chain: STATE is 0, and LAST and ENDED stay. -/
theorem chnStat_chainSync_of_empty :
    (chainSync h ch).rf (CHN_STAT (ch / 8) (ch % 8)) CHN_STAT_STATE = 0 ∧
      (chainSync h ch).rf (CHN_STAT (ch / 8) (ch % 8)) CHN_STAT_LAST = h.rf (CHN_STAT (ch / 8) (ch % 8)) CHN_STAT_LAST ∧
      (chainSync h ch).rb (CHN_STAT (ch / 8) (ch % 8)) CHN_STAT_ENDED = h.rb (CHN_STAT (ch / 8) (ch % 8)) CHN_STAT_ENDED := by
  unfold chainSync
  extract_lets r c x h0
  have hnone : x.act.getLast? = none := by rw [show x.act = [] from hact]; rfl
  rw [hnone]
  dsimp only
  split
  next hstate => exact ⟨(h.rf_wf_apart _ rfl rfl _).trans hstate, h.rf_wf_apart _ rfl rfl _, h.rb_wf_apart _ rfl rfl _⟩
  next =>
    refine ⟨?_, ?_, ?_⟩
    · rw [Hw.rf_wf_apart _ _ rfl rfl, Hw.rf_wf_apart _ _ rfl rfl, Hw.rf_wf_apart _ _ rfl rfl, Hw.rf_wf_same _ _ rfl]
      rfl
    · rw [Hw.rf_wf_apart _ _ rfl rfl, Hw.rf_wf_apart _ _ rfl rfl, Hw.rf_wf_apart _ _ rfl rfl, Hw.rf_wf_apart _ _ rfl rfl, Hw.rf_wf_apart _ _ rfl rfl]
    · rw [Hw.rb_wf_apart _ _ rfl rfl, Hw.rb_wf_apart _ _ rfl rfl, Hw.rb_wf_apart _ _ rfl rfl, Hw.rb_wf_apart _ _ rfl rfl, Hw.rb_wf_apart _ _ rfl rfl]

end

/-- The block once the ending of a command is shown: LAST, ENDED and the capture (R108). -/
def endShown (h : Hw) (ch : Nat) (e : Exec) (en : Ending) : Hw :=
  chnErr (((chainSync (putExec h ch { e with ending := some en }) ch).wf (CHN_STAT (ch / 8) (ch % 8)) CHN_STAT_LAST en.status).sb
    (CHN_STAT (ch / 8) (ch % 8)) CHN_STAT_ENDED) ch en

theorem endShown_regsPwrOnly (h : Hw) (ch : Nat) (e : Exec) (en : Ending) : RegsPwrOnly (putExec h ch { e with ending := some en }) (endShown h ch e en) :=
  (((chainSync_regsPwrOnly _ ch).wf _ _ _).wf _ _ _).trans (chnErr_regsPwrOnly _ ch en)

theorem last_endShown (h : Hw) (ch : Nat) (e : Exec) {en : Ending} (hen : en.status < 64) :
    (endShown h ch e en).rf (CHN_STAT (ch / 8) (ch % 8)) CHN_STAT_LAST = en.status := by
  rw [endShown, Hw.rf, chnStat_chnErr]
  exact (Hw.rf_wf_apart _ _ rfl rfl _).trans ((Hw.rf_wf_same _ _ rfl _).trans (Nat.mod_eq_of_lt hen))

theorem ended_endShown (h : Hw) (ch : Nat) (e : Exec) (en : Ending) : (endShown h ch e en).rb (CHN_STAT (ch / 8) (ch % 8)) CHN_STAT_ENDED = true := by
  rw [endShown, Hw.rb, Hw.rf, chnStat_chnErr]
  exact Hw.rb_sb_same _ _ rfl

/-! ### The chain event -/

/-- The fronds of the region see the chain event. -/
def chainEventSeen (h : Hw) (r : Nat) : Hw := (frondsOf r).foldl (fun h f => h.setFrond f { h.frond f with wevHit := (h.frond f).wevHit ||| 4 }) h

theorem wevHit_chainEventSeen (h : Hw) {r f : Nat} (hf : f ∈ frondsOf r) : ((chainEventSeen h r).frond f).wevHit.getLsbD 2 = true := by
  simp only [chainEventSeen, frondsOf, List.foldl_cons, List.foldl_nil]
  simp only [frondsOf, List.mem_cons, List.not_mem_nil, or_false] at hf
  obtain rfl | rfl := hf
  · rw [Hw.frond_setFrond_other _ _ (by omega), Hw.frond_setFrond_same]
    simp
  · rw [Hw.frond_setFrond_same]
    simp

/-! ### The memories, the links and the contexts -/

/-- The blocks agree in the memories, the links and the contexts. -/
structure MemLinksSame (h h' : Hw) : Prop where
  mem : h'.mem = h.mem
  scratch : h'.scratch = h.scratch
  links : h'.links = h.links
  ctxs : h'.ctxs = h.ctxs

theorem MemLinksSame.trans {h1 h2 h3 : Hw} (h12 : MemLinksSame h1 h2) (h23 : MemLinksSame h2 h3) : MemLinksSame h1 h3 :=
  ⟨h23.mem.trans h12.mem, h23.scratch.trans h12.scratch, h23.links.trans h12.links, h23.ctxs.trans h12.ctxs⟩

theorem MemLinksSame.svcQuiet {h h' : Hw} (hs : MemLinksSame h h') (hquiet : svcQuiet h = true) : svcQuiet h' = true := by
  rwa [Machine.svcQuiet, hs.ctxs, hs.links]

theorem RegsPwrOnly.memLinksSame {h h' : Hw} (hs : RegsPwrOnly h h') : MemLinksSame h h' := by
  constructor <;> rw [hs]

theorem RecordKeeps.memLinksSame {h h' : Hw} (hk : RecordKeeps h h') : MemLinksSame h h' := by
  constructor <;> rw [hk.shape]

theorem RegsPwrOnly.chain {h h' : Hw} (hs : RegsPwrOnly h h') (d : Nat) : h'.chain d = h.chain d := by
  rw [Hw.chain, hs, Hw.chain]

theorem RegsPwrOnly.fronds {h h' : Hw} (hs : RegsPwrOnly h h') : h'.fronds = h.fronds := by rw [hs]

theorem RecordKeeps.chain {h h' : Hw} (hk : RecordKeeps h h') (d : Nat) : h'.chain d = h.chain d := by
  rw [Hw.chain, hk.shape, Hw.chain]

theorem Hw.chain_setChain_other (h : Hw) {ch d : Nat} (x : Chain) (hne : d ≠ ch) : (h.setChain ch x).chain d = h.chain d := kvGet_kvIns_other _ _ _ hne

/-! ### The command leaves (R78, R108, R252) -/

theorem memLinksSame_endShown (h : Hw) (ch : Nat) (e : Exec) (en : Ending) : MemLinksSame h (endShown h ch e en) :=
  have hs := (endShown_regsPwrOnly h ch e en).memLinksSame
  ⟨hs.mem, hs.scratch, hs.links, hs.ctxs⟩

theorem chain_endShown_other (h : Hw) {ch d : Nat} (e : Exec) (en : Ending) (hne : d ≠ ch) : (endShown h ch e en).chain d = h.chain d :=
  ((endShown_regsPwrOnly h ch e en).chain d).trans (h.chain_setChain_other _ hne)

/-- The block in which the chain is empty, its registers show it, and the fronds of its region see the chain event. -/
def chainLeft (h : Hw) (ch : Nat) : Hw := chainSync (chainEventSeen (h.setChain ch { h.chain ch with act := [] }) (ch / 8)) ch

theorem chain_chainLeft_same (h : Hw) (ch : Nat) : (chainLeft h ch).chain ch = { h.chain ch with act := [] } :=
  ((chainSync_regsPwrOnly _ ch).chain ch).trans (h.chain_setChain_same ch _)

theorem chain_chainLeft_other (h : Hw) {ch d : Nat} (hne : d ≠ ch) : (chainLeft h ch).chain d = h.chain d :=
  ((chainSync_regsPwrOnly _ ch).chain d).trans (h.chain_setChain_other _ hne)

theorem memLinksSame_chainLeft (h : Hw) (ch : Nat) : MemLinksSame h (chainLeft h ch) :=
  MemLinksSame.trans (h2 := chainEventSeen (h.setChain ch { h.chain ch with act := [] }) (ch / 8)) ⟨rfl, rfl, rfl, rfl⟩ (chainSync_regsPwrOnly _ ch).memLinksSame

theorem wevHit_chainLeft (h : Hw) {ch f : Nat} (hf : f ∈ frondsOf (ch / 8)) : ((chainLeft h ch).frond f).wevHit.getLsbD 2 = true := by
  rw [chainLeft, Hw.frond, (chainSync_regsPwrOnly _ ch).fronds]
  exact wevHit_chainEventSeen _ hf

theorem chnStat_chainLeft (h : Hw) (ch : Nat) :
    (chainLeft h ch).rf (CHN_STAT (ch / 8) (ch % 8)) CHN_STAT_STATE = 0 ∧
      (chainLeft h ch).rf (CHN_STAT (ch / 8) (ch % 8)) CHN_STAT_LAST = h.rf (CHN_STAT (ch / 8) (ch % 8)) CHN_STAT_LAST ∧
      (chainLeft h ch).rb (CHN_STAT (ch / 8) (ch % 8)) CHN_STAT_ENDED = h.rb (CHN_STAT (ch / 8) (ch % 8)) CHN_STAT_ENDED :=
  chnStat_chainSync_of_empty (congrArg Chain.act (h.chain_setChain_same ch _))

theorem promote_eq_of_none {h : Hw} {ch : Nat} (hpend : (h.chain ch).pend = none) : promote h ch = h := by
  simp [promote, hpend]

section
variable {h : Hw} {ch : Nat} {e : Exec} (hact : (h.chain ch).act = [e]) (hpend : (h.chain ch).pend = none)
include hact hpend

theorem chain_endShown_same (en : Ending) :
    ((endShown h ch e en).chain ch).act = [{ e with ending := some en }] ∧ ((endShown h ch e en).chain ch).pend = none := by
  rw [(endShown_regsPwrOnly h ch e en).chain, putExec, Hw.chain_setChain_same]
  simp [hact, hpend]

/-- A lone command of no queue and not of the service leaves: its ending is shown, its record takes its place, interrupts may fire, and the chain is empty. -/
theorem execLeave_eq (hfrom : e.fromQ = none) (hsvc : e.svc = none) (hn : noRuns h) (ms : List (Nat × Exec)) (sch : Nat) :
    ∃ h4, RecordKeeps (endShown h ch e (endStatus e)) h4 ∧ execLeave h ch e ms sch = chainLeft h4 ch := by
  unfold execLeave
  extract_lets r c en h0 h1 rc h2 h3 h4 x h5
  have hshown : h1 = endShown h ch e en := rfl
  have hn1 : noRuns h1 := by
    unfold noRuns
    rw [hshown, (memLinksSame_endShown h ch e en).ctxs]
    exact hn
  have hrecord : RecordKeeps h1 h2 := by
    unfold h2
    split
    · split
      next q hsrc => simp [Exec.fromQ, hsrc] at hfrom
      next => exact RecordKeeps.refl h1
    · split
      · split
        next q hsrc => simp [Exec.fromQ, hsrc] at hfrom
        next =>
          split
          · exact RecordKeeps.wf (by unfold RGN_DISC; omega) h1 _ _
          · exact RecordKeeps.refl h1
      · rw [hsvc, hfrom]
        exact RecordKeeps.queueEnded hn1 _ _ _ _ rc
  have hfired : RecordKeeps h2 h4 := (RecordKeeps.irqFire_ite h2 _ _).trans (RecordKeeps.irqFire_ite h3 _ _)
  have hkeeps : RecordKeeps (endShown h ch e en) h4 := hrecord.trans hfired
  obtain ⟨hact1, hpend1⟩ := chain_endShown_same hact hpend en
  have hact4 : (h4.chain ch).act = [{ e with ending := some en }] := (congrArg Chain.act (hkeeps.chain ch)).trans hact1
  have hleft : h5 = chainEventSeen (h4.setChain ch { h4.chain ch with act := [] }) r := by
    unfold h5 x
    rw [hact4, List.filter_cons_of_neg (by simp), List.filter_nil]
    rfl
  have hpend5 : (h5.chain ch).pend = none := by
    rw [hleft]
    exact (congrArg Chain.pend (h4.chain_setChain_same ch _)).trans ((congrArg Chain.pend (hkeeps.chain ch)).trans hpend1)
  refine ⟨h4, hkeeps, ?_⟩
  rw [promote_eq_of_none hpend5, ite_self, hleft]
  rfl

end

/-- Of a lone command whose work is done the row ends that command alone (R100, R108). -/
theorem chainCommandEnd_eq_of_lone {h : Hw} {ch : Nat} {e : Exec} (hact : (h.chain ch).act = [e]) (hgid : e.gid = 0) (hending : e.ending.isSome = true) (hdrained : drained e = true)
    (hroom : recordRoom h ch [(ch, e)] = true) : chainCommandEnd ch h = chainsAdvance (execLeave h ch e [(ch, e)] ch) (ch / 8) := by
  have hmembers : members h ch e = [(ch, e)] := if_pos hgid
  have hsink : sinkOf h ch e = (ch, e) := by
    rw [sinkOf, hmembers, List.find?_singleton]
    split <;> rfl
  simp [chainCommandEnd, hact, hmembers, hsink, hdrained, hending, hroom]

/-- The other chains of the region of a lone command are empty. -/
theorem soleCmd_iff {h : Hw} {ch : Nat} {e : Exec} :
    soleCmd h ch e = true ↔ (h.chain ch).act = [e] ∧ e.gid = 0 ∧ ∀ c, c < 8 → 8 * (ch / 8) + c = ch ∨ (h.chain (8 * (ch / 8) + c)).act = [] := by
  simp [soleCmd, and_assoc]

/-- CHAIN_COMMAND_END of a lone command: the command leaves and the region waits. -/
theorem commandEnd_eq_of_lone {h : Hw} {ch : Nat} {e : Exec} (hsole : soleCmd h ch e = true) (hpend : (h.chain ch).pend = none) (hroom : recordRoom h ch [(ch, e)] = true)
    (hending : e.ending.isSome = true) (hdrained : drained e = true) (hfrom : e.fromQ = none) (hsvc : e.svc = none) (hquiet : svcQuiet h = true) :
    ∃ h4, RecordKeeps (endShown h ch e (endStatus e)) h4 ∧ commandEnd ch h = chainLeft h4 ch := by
  obtain ⟨hact, hgid, hothers⟩ := soleCmd_iff.mp hsole
  obtain ⟨h4, hkeeps, hleave⟩ := execLeave_eq hact hpend hfrom hsvc (noRuns_of_svcQuiet hquiet) [(ch, e)] ch
  have hsame : MemLinksSame h (chainLeft h4 ch) := ((memLinksSame_endShown h ch e _).trans hkeeps.memLinksSame).trans (memLinksSame_chainLeft h4 ch)
  have hidle : ∀ c, c < 8 → ((chainLeft h4 ch).chain (8 * (ch / 8) + c)).act = [] := by
    intro c hc
    by_cases hch : 8 * (ch / 8) + c = ch
    · rw [hch, chain_chainLeft_same]
    · rw [chain_chainLeft_other h4 hch, hkeeps.chain, chain_endShown_other h e _ hch]
      exact (hothers c hc).resolve_left hch
  refine ⟨h4, hkeeps, ?_⟩
  rw [commandEnd, chainCommandEnd_eq_of_lone hact hgid hending hdrained hroom, hleave, chainsAdvance_eq_of_idle hidle, svcAdvance_eq_of_quiet (hsame.svcQuiet hquiet) hidle]

end Sys2Proof.Machine

namespace Sys2Proof.Proofs.ChainEnds
open Sys2Proof Sys2Proof.Machine

/-- Settles O26: the command leaves an empty chain, whose registers keep LAST and ENDED through the record and the interrupts, and nothing else of the region can go on. -/
theorem commandsLeaveTheirChain : Obligations.CommandsLeaveTheirChain := by
  unfold Obligations.CommandsLeaveTheirChain
  intro s ch e en hclk hsole hpend hroom hending hdrained _ hfrom hsvc hch hstatus hquiet
  obtain ⟨h4, hkeeps, hend⟩ := commandEnd_eq_of_lone hsole hpend hroom (hending ▸ rfl) hdrained hfrom hsvc hquiet
  have hen : endStatus e = en := by rw [endStatus, hending]; rfl
  rw [hen] at hkeeps
  have hstat : h4.rd (CHN_STAT (ch / 8) (ch % 8)) = (endShown s.hw ch e en).rd (CHN_STAT (ch / 8) (ch % 8)) := by
    have hregion : ch / 8 < 4 := Hw.lt_four_of_hasRegion (h := s.hw) (decide_eq_true (show ch / 8 < s.hw.nRegions by omega))
    exact hkeeps.rd _ (by unfold CHN_STAT; omega)
  obtain ⟨hstate, hlast, hended⟩ := chnStat_chainLeft h4 ch
  have hsame := ((memLinksSame_endShown s.hw ch e en).trans hkeeps.memLinksSame).trans (memLinksSame_chainLeft h4 ch)
  rw [gives_iff_of_onClock rfl hclk, hend]
  refine ⟨congrArg Chain.act (chain_chainLeft_same h4 ch), ?_, ?_, hstate, fun f hf => wevHit_chainLeft h4 hf, hsame.mem, hsame.scratch, fun d hne => ?_⟩
  · exact hlast.trans ((congrArg (fldGet CHN_STAT_LAST) hstat).trans (last_endShown s.hw ch e hstatus))
  · exact hended.trans ((congrArg (fun v => fldGet CHN_STAT_ENDED v == 1) hstat).trans (ended_endShown s.hw ch e en))
  · rw [chain_chainLeft_other h4 hne, hkeeps.chain, chain_endShown_other s.hw e en hne]

end Sys2Proof.Proofs.ChainEnds
end

section
/-!
SUPPORT. The collective family (chapter 5): the states that refute O29 and O31.
-/
namespace Sys2Proof.Proofs.Collectives
open Sys2Proof Sys2Proof.Machine Sys2Proof.Proofs.Scope

/-! ### A step timeout that lets a frame land (O29)

TMO_STEP ends a request's chain commands (R183, R185), and other chains of the region may then go on. In the state below the next frame of link 1 belongs to the COMB of the request,
which waits for link 0. When the timeout ends that COMB, the COPY on chain 1 takes the frame out of the receive buffer (R97, R213), and the frame behind it, of another context, lands
in its post in the same tick (R175, R211): a byte of memory changes. -/

/-- A running ALLREDUCE with OPID 1, whose wait for its chain commands was armed at TB 0. -/
def combRun : CtxRun := ⟨[0x20 * 2 ^ 58, 0, 0, 0, 2 ^ 48, 0, 0, 0], 2 ^ 52, 0, 0, 0, 1, [.awaitChains], 0, some 0, 0, 0, 0, false, none, none, 0⟩

/-- The COMB of `combWords` as a command of that request, with the first item of operand A. -/
def requestComb : Exec := { startedExec 1 combWords [[0, 0, 0, 0]] with svc := some ⟨combWords, [], none, 0, none⟩ }

/-- The registers of `boundaryRegs`, with context 0 in RUN and its TMO_STEP at one beat. -/
def stepWaitRegs : Hw :=
  let h1 := (boundaryRegs.sb (CXE_CTL 0) CXE_CTL_V).wf (CXE_CTL 0) CXE_CTL_STATE csRun
  h1.wf (CXE_OPT 0) CXE_OPT_TMO_STEP 1

/-- The request's COMB on chain 0, a COPY on chain 1, and on link 1 the COMB's next frame ahead of a frame of context 5 for its post. -/
def stepLimitReached : Hw :=
  { stepWaitRegs with
    chains := [(0, { Chain.empty with act := [requestComb] }), (1, { Chain.empty with act := [startedExec 2 copyWords []] })]
    links := [(1, { LinkSt.empty with rbuf := [dataFrame 0 1 [0, 0, 0, 0], { dataFrame 1 0 [1] with ctx := 5 }], posts := [⟨5, 1, false, 0x100, 64, 0⟩] })]
    ctxs := [(0, { CtxSt.empty with run := some combRun })] }

set_option maxRecDepth 20000 in
/-- The frame of context 5 has landed. -/
theorem mem_after_stepLimitReached : (stepTimeout 0 stepLimitReached).mem = [(0x100, 1)] := by decide

/-- Refutes O29: STEP_TIMEOUT of context 0 in `stepLimitReached` writes the byte at 0x100. -/
theorem not_collectiveRequestsStartAndEnd : ¬ Obligations.CollectiveRequestsStartAndEnd := by
  unfold Obligations.CollectiveRequestsStartAndEnd
  rintro ⟨-, hends⟩
  obtain ⟨-, htimeouts⟩ := hends ⟨stepLimitReached, []⟩ 0 combRun rfl rfl rfl
  obtain ⟨hstep, -⟩ := htimeouts 0 rfl rfl rfl (by decide)
  obtain ⟨-, -, -, -, -, hmem, -⟩ := (gives_iff_of_onClock rfl rfl).mp (hstep rfl ⟨by decide, by decide⟩)
  rw [mem_after_stepLimitReached] at hmem
  exact absurd hmem (by decide)

/-! ### A CREDIT frame that lets a frame land (O31)

Returned credits let the chains go on (R202, R213). The statement's clause about CREDIT does not ask, as its clause about DATA and AREC does, that the chains of the region are empty.
In the state below a COPY waits for a credit of link 0. With one it sends its frame, processes the element it holds (R98) and takes its last one from link 1; the frame behind that lands
in its post in the same tick (R175, R211). -/

/-- A COPY of 66 FP32 elements from link 1 to step 1 of link 0. -/
def sendWords : List Nat := [2 ^ 58 + 2 * 2 ^ 52 + 2 * 2 ^ 40 + 2 ^ 36 + 2 ^ 22 + 3 * 2 ^ 20 + 2 ^ 18, 66 * 2 ^ 32, 1, 0, 2 ^ 7, 0, 0, 0]

/-- That COPY with a full frame of 64 elements to send, and the element after them. -/
def creditlessCopy : Exec := { startedExec 1 sendWords [[0, 0, 0, 0]] with idx := 64, frame := List.replicate 256 0 }

/-- That COPY on chain 0 without a credit, and on link 1 its last element ahead of a frame for a post. -/
def waitsForCredit : Hw :=
  { boundaryRegs.wf (LN_STAT 0) LN_STAT_DLN 2 with
    chains := [(0, { Chain.empty with act := [creditlessCopy] })]
    lanes := [(0, { LaneSt.zero with desk := true })]
    links := [(1, { LinkSt.empty with rbuf := [dataFrame 0 65 [0, 0, 0, 0], dataFrame 1 0 [1]], posts := [⟨0, 1, false, 0x100, 64, 0⟩] })] }

/-- A CREDIT frame that returns one credit of TC0. -/
def creditFrame : Frame := { Frame.blank with typ := ftCREDIT, len := 8, payload := leBytes 8 1 }

/-- The acknowledgement word of a good slot that acknowledges nothing. -/
def noAck : AckWord := ⟨true, false, false, 0, 0, 0, 0xFF, true, 16⟩

set_option maxRecDepth 20000 in
/-- The frame is the next in order of link 0. -/
theorem creditFrame_next : frameNext waitsForCredit 0 0 0 creditFrame noAck = true := by decide

set_option maxRecDepth 20000 in
/-- The frame behind the COPY's last has landed. -/
theorem mem_after_waitsForCredit : (typedFrame ftCREDIT none 0 0 creditFrame noAck waitsForCredit).mem = [(0x100, 1)] := by decide

/-- Refutes O31: CREDIT on link 0 in `waitsForCredit` writes the byte at 0x100. -/
theorem not_framesOfDataReachTheirPosts : ¬ Obligations.FramesOfDataReachTheirPosts := by
  unfold Obligations.FramesOfDataReachTheirPosts
  intro hall
  obtain ⟨-, -, hcredit, -⟩ := hall ⟨waitsForCredit, []⟩ 0 0 0 creditFrame noAck rfl rfl
  obtain ⟨-, -, hmem⟩ := (gives_iff_of_onClock rfl rfl).mp (hcredit creditFrame_next)
  rw [mem_after_waitsForCredit] at hmem
  exact absurd hmem (by decide)

end Sys2Proof.Proofs.Collectives
end

section
/-!
SUPPORT. What the service of region 0 does behind an ABORT of context 0 (R176, R183, R185): where the ABORT is still the last frame to send on link 0, the one command of the region, which
sends there, has sent nothing since, and no byte of memory has changed but by a frame whose element it has still to send. The walk follows the functions of Machine/Chains.lean and of the
service; the state that refutes O32 stands at the end.
-/
namespace Sys2Proof.Proofs.AbortOrder
open Sys2Proof Sys2Proof.Machine Sys2Proof.Proofs.Scope Sys2Proof.Proofs.Collectives

/-! ### The command, the token, and what holds of them -/

/-- A COPY of two FP32 elements of context 5 from step 0 of link 32 to step 1 of link 0. -/
def forwardWords : List Nat := [2 ^ 58 + 2 * 2 ^ 52 + 2 * 2 ^ 40 + 2 ^ 36 + 2 ^ 22 + 3 * 2 ^ 20 + 2 ^ 18, 2 * 2 ^ 32 + 5 * 2 ^ 20, 32, 0, 2 ^ 7, 0, 0, 0]

/-- ABORT of context 0 with OPID 1 and status PEER_ABORT. -/
def peerAbort : Frame := tokenFrame 0 0 3 1 2 (leBytes 2 0x22 ++ leBytes 2 0)

/-- The chains of region 0 hold one command, on chain 0. -/
def Lone (h : Hw) (y : Exec) : Prop := (h.chain 0).act = [y] ∧ ∀ c, 0 < c → c < 8 → (h.chain c).act = []

/-- A command of `forwardWords`, not of the service, that has an element to send yet or has sent but one. -/
def Forwards (y : Exec) : Prop := y.words = forwardWords ∧ y.svc = none ∧ y.frameIx < 2

/-- It is ending, or an element of it is still to be sent. -/
def Undone (y : Exec) : Prop := y.ending.isSome = true ∨ y.frame ≠ [] ∨ y.idx < 2

/-- Two states of one command that agree on what `Forwards` and `Undone` read. -/
def SameProgress (x y : Exec) : Prop := (y.words, y.svc, y.frameIx, y.ending, y.frame, y.idx) = (x.words, x.svc, x.frameIx, x.ending, x.frame, x.idx)

/-- The link unit of region 0 has no window (R57). -/
def WindowsOff (h : Hw) : Prop := ∀ i, i < 8 → h.rb (RWIN_LO 0 13 i) RWIN_LO_EN = false

/-- The invariant of the service of region 0, whose context 0 has had its ending decided: where the command on chain 0 is alone and link 0 has ABORT as its last frame to send, the
command has an element to send yet, or the memory is `m`. With none for `m` the first holds. -/
structure Sealed (m : Option (KV Byte)) (h : Hw) : Prop where
  ended : ∃ u, (h.ctx 0).run = some u ∧ u.ended.isSome = true
  mem : ∀ y, Lone h y → Forwards y → WindowsOff h → (h.link 0).txq.getLast? = some peerAbort → Undone y ∨ m = some h.mem

/-- An operation that may not come about keeps the invariant when it does. -/
def AllSealed (m : Option (KV Byte)) (o : Option Hw) : Prop := ∀ g ∈ o, Sealed m g

theorem SameProgress.symm {x y : Exec} (hs : SameProgress x y) : SameProgress y x := Eq.symm hs

theorem SameProgress.trans {x y z : Exec} (hxy : SameProgress x y) (hyz : SameProgress y z) : SameProgress x z := Eq.trans hyz hxy

theorem SameProgress.forwards {x y : Exec} (hs : SameProgress x y) (hy : Forwards y) : Forwards x := by
  simp only [SameProgress, Prod.mk.injEq] at hs
  simpa only [Forwards, hs] using hy

theorem SameProgress.undone {x y : Exec} (hs : SameProgress x y) (hx : Undone x) : Undone y := by
  simp only [SameProgress, Prod.mk.injEq] at hs
  simpa only [Undone, hs] using hx

/-! ### Branches, pairs and folds -/

section
variable {m : Option (KV Byte)} {a b : Hw}

theorem Sealed.ite {p : Prop} [Decidable p] (ha : Sealed m a) (hb : Sealed m b) : Sealed m (if p then a else b) := by
  split
  · exact ha
  · exact hb

theorem Sealed.fst_ite {α : Type} {p : Prop} [Decidable p] {x y : Hw × α} (hx : Sealed m x.1) (hy : Sealed m y.1) : Sealed m (if p then x else y).1 := by
  split
  · exact hx
  · exact hy

theorem Sealed.of_eq_fst {α : Type} {p : Hw × α} {x : α} (he : p = (a, x)) (hs : Sealed m p.1) : Sealed m a := by
  rw [he] at hs
  exact hs

theorem Sealed.foldl_of_mem {α : Type} {l : List α} {f : Hw → α → Hw} {h : Hw} (hf : ∀ x ∈ l, ∀ g, Sealed m g → Sealed m (f g x)) (hs : Sealed m h) :
    Sealed m (l.foldl f h) := by
  induction l generalizing h with
  | nil => exact hs
  | cons x l ih => exact ih (fun y hy => hf y (List.mem_cons_of_mem x hy)) (hf x List.mem_cons_self h hs)

theorem Sealed.foldl {α : Type} {l : List α} {f : Hw → α → Hw} {h : Hw} (hf : ∀ g x, Sealed m g → Sealed m (f g x)) (hs : Sealed m h) : Sealed m (l.foldl f h) :=
  .foldl_of_mem (fun x _ g => hf g x) hs

theorem Sealed.fst_foldl {α β : Type} {l : List α} {f : Hw × β → α → Hw × β} {p : Hw × β} (hf : ∀ p x, Sealed m p.1 → Sealed m (f p x).1) (hs : Sealed m p.1) :
    Sealed m (l.foldl f p).1 := by
  induction l generalizing p with
  | nil => exact hs
  | cons x l ih => exact ih (hf p x hs)

theorem AllSealed.none : AllSealed m Option.none := fun _ hg => nomatch hg

theorem AllSealed.some (ha : Sealed m a) : AllSealed m (Option.some a) := by
  rintro _ ⟨⟩
  exact ha

theorem AllSealed.ite {p : Prop} [Decidable p] {x y : Option Hw} (hx : AllSealed m x) (hy : AllSealed m y) : AllSealed m (if p then x else y) := by
  split
  · exact hx
  · exact hy

/-- An operation behind a guard. -/
theorem AllSealed.guard {p : Prop} [Decidable p] {x : Option Hw} (hx : ¬ p → AllSealed m x) : AllSealed m (if p then Option.none else x) := by
  split
  · exact .none
  next hp => exact hx hp

theorem AllSealed.findSome? {α : Type} {l : List α} {f : α → Option Hw} (hf : ∀ x ∈ l, AllSealed m (f x)) : AllSealed m (l.findSome? f) := by
  intro g hg
  obtain ⟨x, hx, hfx⟩ := List.exists_of_findSome?_eq_some hg
  exact hf x hx g hfx

end

/-! ### Registers, links, contexts and chains -/

section
variable {m : Option (KV Byte)} {h h' : Hw}

/-- An update that keeps what the invariant reads. -/
theorem Sealed.of_agree (hs : Sealed m h) (hrun : (h'.ctx 0).run = (h.ctx 0).run) (hact : ∀ c, c < 8 → (h'.chain c).act = (h.chain c).act)
    (htxq : (h'.link 0).txq = (h.link 0).txq) (hwin : ∀ i, i < 8 → h'.rd (RWIN_LO 0 13 i) = h.rd (RWIN_LO 0 13 i)) (hmem : m = none ∨ h'.mem = h.mem) : Sealed m h' := by
  refine ⟨hrun ▸ hs.ended, fun y ⟨hy, hempty⟩ hfwd hoff hlast => ?_⟩
  have hlone : Lone h y := ⟨hact 0 (by decide) ▸ hy, fun c hc0 hc8 => hact c hc8 ▸ hempty c hc0 hc8⟩
  have hoff' : WindowsOff h := fun i hi => by simpa only [Hw.rb, Hw.rf, hwin i hi] using hoff i hi
  obtain hu | hm := hs.mem y hlone hfwd hoff' (htxq ▸ hlast)
  · exact .inl hu
  · obtain rfl | hmem := hmem
    · exact nomatch hm
    · exact .inr (hmem ▸ hm)

/-- An update of any other part of the block. -/
theorem Sealed.update (hs : Sealed m h) (he : (h'.ctxs, h'.chains, h'.links, h'.regs, h'.cfg, h'.mem) = (h.ctxs, h.chains, h.links, h.regs, h.cfg, h.mem)) : Sealed m h' := by
  simp only [Prod.mk.injEq] at he
  obtain ⟨hctxs, hchains, hlinks, hregs, hcfg, hmem⟩ := he
  refine hs.of_agree ?_ (fun c _ => ?_) ?_ (fun i _ => ?_) (.inr hmem)
  · rw [Hw.ctx, hctxs, Hw.ctx]
  · rw [Hw.chain, hchains, Hw.chain]
  · rw [Hw.link, hlinks, Hw.link]
  · rw [Hw.rd, hregs, hcfg, Hw.rd]

/-- An address that is none of the link unit's window registers: a register of the mat below them, or of another unit. -/
def OffWindow (a : Nat) : Prop := a % 0x10000 < 0x400 ∨ 0x20200000 ≤ a

theorem Sealed.wr {a : Nat} {v : W32} (hs : Sealed m h) (ha : OffWindow a := by
    simp only [OffWindow, MAT_STAT, PROT_INFO, PROT_ADDR, MAT_ERRCNT, MAT_PERR_INFO, MAT_PERR_ADDR, CSH_COLL_INFO, CSH_COLL_ADDR, CHN_STAT, CHN_DESC_LO, CHN_DESC_HI, CHN_IDX, CHN_CTX,
      CHN_GROUP, CHN_FLAGS, CHN_ALOSS, CHN_ELEMS, RGN_STAT, XLT_FLT_INFO, XLT_FLT_VA_LO, XLT_FLT_VA_HI, XLT_FLT_EA_LO, XLT_FLT_EA_HI, XLT_STAT, PWR_STAT, CXE_CNT, CXE_LAST, CXE_CTL,
      CXE_RUN, CXE_ARDY, CX_SVC_STAT, HP_OUT, HP_CRED, HP_BYTES, MEU_STAT, LK_STAT] <;> omega) : Sealed m (h.wr a v) := by
  refine hs.of_agree rfl (fun _ _ => rfl) rfl (fun i hi => h.rd_wr_other v (fun he => ?_)) (.inr rfl)
  subst he
  unfold OffWindow RWIN_LO at ha
  omega

theorem Sealed.setCtx {n : Nat} {x : CtxSt} (hs : Sealed m h) (hx : n = 0 → x.run = (h.ctx 0).run) : Sealed m (h.setCtx n x) := by
  refine hs.of_agree ?_ (fun _ _ => rfl) rfl (fun _ _ => rfl) (.inr rfl)
  by_cases hn : n = 0
  · subst hn
    rw [Hw.ctx, Hw.setCtx, kvGet_kvIns_same]
    exact hx rfl
  · rw [Hw.ctx, Hw.setCtx, kvGet_kvIns_other _ _ _ (Ne.symm hn)]
    rfl

theorem Sealed.setRun {n : Nat} {u : CtxRun} (hs : Sealed m h) (hn : n ≠ 0) : Sealed m (setRun h n u) := hs.setCtx fun h0 => absurd h0 hn

theorem Sealed.setLink {lk : Nat} {x : LinkSt} (hs : Sealed m h) (hx : x.txq = (h.link lk).txq) : Sealed m (h.setLink lk x) := by
  refine hs.of_agree rfl (fun _ _ => rfl) ?_ (fun _ _ => rfl) (.inr rfl)
  by_cases hlk : lk = 0
  · subst hlk
    rw [Hw.link_setLink_same]
    exact hx
  · rw [h.link_setLink_other x (Ne.symm hlk)]

theorem getLast?_txq_linkSend (h : Hw) (lk : Nat) (f : Frame) : ((linkSend h lk f).link lk).txq.getLast? = some f := by
  rw [linkSend, Hw.link_setLink_same, List.getLast?_concat]

/-- Where another frame is the last to send on link 0 nothing else is asked. -/
theorem Sealed.of_last {f : Frame} (hended : ∃ u, (h.ctx 0).run = some u ∧ u.ended.isSome = true) (hlast : (h.link 0).txq.getLast? = some f) (hf : f ≠ peerAbort) : Sealed m h :=
  ⟨hended, fun _ _ _ _ habort => absurd (Option.some.inj (hlast.symm.trans habort)) hf⟩

/-- A frame other than that ABORT. -/
theorem Sealed.linkSend {lk : Nat} {f : Frame} (hs : Sealed m h) (hf : f ≠ peerAbort) : Sealed m (linkSend h lk f) := by
  by_cases hlk : lk = 0
  · subst hlk
    exact .of_last hs.ended (getLast?_txq_linkSend h 0 f) hf
  · refine hs.of_agree rfl (fun _ _ => rfl) ?_ (fun _ _ => rfl) (.inr rfl)
    rw [Machine.linkSend, h.link_setLink_other _ (Ne.symm hlk)]

theorem tokenFrame_ne_peerAbort {n step code opid tc : Nat} {payload : List Byte} (hne : n ≠ 0 ∨ code ≠ 3 ∨ payload.headD 0 ≠ 0x22) :
    tokenFrame n step code opid tc payload ≠ peerAbort := by
  intro he
  simp only [tokenFrame, peerAbort, Frame.mk.injEq] at he
  obtain ⟨-, -, hn, -, -, -, hcode, -, -, -, -, -, -, -, hpayload⟩ := he
  obtain hne | hne | hne := hne
  · exact hne hn
  · exact hne hcode
  · rw [hpayload] at hne
    exact hne rfl

theorem Sealed.setMat {r : Nat} {x : MatRgn} (hs : Sealed m h) : Sealed m (h.setMat r x) := hs.update rfl

theorem Sealed.idleLeave {r : Nat} (hs : Sealed m h) : Sealed m (h.idleLeave r) := .ite hs.wr hs

theorem Sealed.fresh (hs : Sealed m h) : Sealed m h.fresh.2 := hs.update rfl

theorem Sealed.rgnLog {r cls unit addr : Nat} (hs : Sealed m h) : Sealed m (rgnLog h r cls unit addr) := .ite (.wr (hs.update rfl)) hs.wr

theorem Sealed.meuLog {cls r addr : Nat} (hs : Sealed m h) : Sealed m (meuLog h cls r addr) := .ite (hs.update rfl) hs.wr

theorem Sealed.freePlace {lk : Nat} {f : Frame} (hs : Sealed m h) : Sealed m (freePlace h lk f) := .ite (hs.setLink rfl) hs

theorem Sealed.rbufFree {lk i : Nat} (hs : Sealed m h) : Sealed m (rbufFree h lk i) := by
  unfold Machine.rbufFree
  extract_lets
  split
  · refine Sealed.freePlace ?_
    exact hs.setLink rfl
  · exact hs

/-! ### Memory -/

theorem Sealed.protLog {ms : Master} {a cause : Nat} {write : Bool} (hs : Sealed m h) : Sealed m (protLog h ms a cause write) := .ite hs.wr.wr hs.wr.wr.wr.wr.wr.wr.wr

theorem Sealed.suspectCount {a : Nat} (hs : Sealed m h) : Sealed m (suspectCount h a) :=
  .ite (.ite hs.setMat.wr (.ite hs.setMat.wr.setMat hs.setMat.wr.wr)) hs.setMat

theorem Sealed.perrLog {ms : Master} {a : Nat} (hs : Sealed m h) : Sealed m (perrLog h ms a) := by
  unfold Machine.perrLog
  extract_lets _ _ h1 h2 h3 h4
  have hs2 : Sealed m h2 := hs.wr.wr.wr
  have hs3 : Sealed m h3 := .ite hs2 hs2.wr.wr.wr.wr.wr.wr
  have hs4 : Sealed m h4 := hs3.update rfl
  exact hs4.suspectCount

theorem Sealed.wordCheck {ms : Master} {w : Nat} {c : Check} (hs : Sealed m h) : Sealed m (wordCheck h ms w c).1 := by
  unfold Machine.wordCheck
  split
  · exact hs
  · exact hs.wr
  · exact hs.perrLog

theorem Sealed.collLog {ms : Master} {a : Nat} {write : Bool} {meets : List Meet} (hs : Sealed m h) : Sealed m (collLog h ms a write meets) :=
  .foldl (fun _ _ hg => .ite hg (.ite hg.wr.wr hg.wr.wr.wr.wr.wr.wr.wr.wr)) hs

end

section
variable {h : Hw}

theorem Sealed.putWord {a : Nat} {bs : List Byte} (hs : Sealed none h) : Sealed none (putWord h a bs) :=
  hs.of_agree rfl (fun _ _ => rfl) rfl (fun _ _ => rfl) (.inl rfl)

theorem Sealed.wordWrite {ms : Master} {w : Nat} {bs : List (Option Byte)} {partialW : Bool} {c : Check} (hs : Sealed none h) :
    Sealed none (wordWrite h ms w bs partialW c).1 := by
  unfold Machine.wordWrite
  split
  next h1 _ he =>
    have hs1 : Sealed none h1 := .of_eq_fst he (.fst_ite hs.wordCheck hs)
    exact .fst_ite hs1.wr hs1.putWord

theorem Sealed.memWrite_of_none {ms : Master} {a : Nat} {data : List Byte} {par : Par} {meets : List Meet} (hs : Sealed none h) :
    Sealed none (memWrite h ms a data par meets).1 := by
  unfold Machine.memWrite memWriteEn memWriteAs
  split
  · exact hs.protLog
  · refine .fst_ite (.ite hs.idleLeave.rgnLog hs.idleLeave.wr.meuLog) ?_
    extract_lets h0
    have hs0 : Sealed none h0 := hs.idleLeave.collLog
    split
    next h1 _ he =>
      refine .of_eq_fst he (.fst_foldl (fun _ _ hg => .fst_ite hg ?_) hs0)
      split
      next h2 _ he2 => exact .of_eq_fst he2 hg.wordWrite

/-- Without windows every access of a link of region 0 is refused (R57, R58). -/
theorem protCause_of_windowsOff {lk a len : Nat} {write : Bool} (hoff : WindowsOff h) (hlk : lk < 32) : ∃ c, protCause h (.rxWriter lk) a len write = some c := by
  have hno : ∀ p q, (List.range 8).any (fun n => winContains h (lk / 32) 13 n p q) = false := fun p q => by
    rw [List.any_eq_false]
    intro i hi
    simp [winContains, Nat.div_eq_of_lt hlk, hoff i (List.mem_range.mp hi)]
  have hnone : ∀ p q, (List.range 8).any (fun n => winContains h (lk / 32) 13 n p q && winAllows h (lk / 32) 13 n write) = false := fun p q => by
    rw [List.any_eq_false]
    intro i hi
    simp [winContains, Nat.div_eq_of_lt hlk, hoff i (List.mem_range.mp hi)]
  simp only [protCause, protMaster, hno, hnone, Bool.and_self, Bool.false_eq_true, if_false, Nat.reduceEqDiff]
  split
  · exact ⟨_, rfl⟩
  · split
    · exact ⟨_, rfl⟩
    · exact ⟨_, rfl⟩

end

section
variable {m : Option (KV Byte)} {h : Hw}

theorem Sealed.of_none (hs : Sealed none h) : Sealed m h := by
  refine ⟨hs.ended, fun y hlone hfwd hoff hlast => ?_⟩
  obtain hu | hm := hs.mem y hlone hfwd hoff hlast
  · exact .inl hu
  · exact nomatch hm

/-- A write of a link unit: on a link of region 0 it is refused, where the region's windows are off. -/
theorem Sealed.memWrite {lk a : Nat} {data : List Byte} {par : Par} {meets : List Meet} (hs : Sealed m h) (hlk : m = none ∨ lk < 32) :
    Sealed m (memWrite h (.rxWriter lk) a data par meets).1 := by
  obtain rfl | hlk := hlk
  · exact hs.memWrite_of_none
  · by_cases hoff : WindowsOff h
    · obtain ⟨c, hc⟩ := protCause_of_windowsOff (a := a) (len := max 1 (data.map some).length) (write := true) hoff hlk
      rw [Machine.memWrite, memWriteEn, hc]
      exact (hs.protLog : Sealed m (Machine.protLog h (.rxWriter lk) a c true))
    · have hnone : Sealed none h := ⟨hs.ended, fun y _ _ hon _ => absurd hon hoff⟩
      exact hnone.memWrite_of_none.of_none

end

/-! ### Commands put back, and endings -/

section
variable {m : Option (KV Byte)} {h : Hw} {ch : Nat} {e e' y : Exec}

theorem act_putExec (h : Hw) (ch : Nat) (e : Exec) (c : Nat) :
    ((putExec h ch e).chain c).act = if c = ch then (h.chain c).act.map (fun y => if y.id = e.id then e else y) else (h.chain c).act := by
  split
  next hc =>
    subst hc
    rw [putExec, Hw.chain_setChain_same]
  next hc => rw [putExec, h.chain_setChain_other _ hc]

/-- A command put back leaves a lone one alone, and takes its place if it has its number. -/
theorem lone_putExec (hl : Lone (putExec h ch e') y) : ∃ x, Lone h x ∧ y = if ch = 0 ∧ x.id = e'.id then e' else x := by
  obtain ⟨hy, hempty⟩ := hl
  have hothers : ∀ c, 0 < c → c < 8 → (h.chain c).act = [] := fun c hc0 hc8 => by
    have hc := hempty c hc0 hc8
    rw [act_putExec] at hc
    split at hc
    · exact List.map_eq_nil_iff.mp hc
    · exact hc
  rw [act_putExec] at hy
  split at hy
  next hch =>
    obtain ⟨x, hx, hxy⟩ := List.map_eq_singleton_iff.mp hy
    exact ⟨x, ⟨hx, hothers⟩, by simp [← hxy, ← hch]⟩
  next hch => exact ⟨y, ⟨hy, hothers⟩, by simp [Ne.symm hch]⟩

theorem Sealed.putExec (hs : Sealed m h) (hput : ∀ x, Lone h x → ch = 0 → x.id = e'.id → Forwards e' → Undone e' ∨ SameProgress x e') : Sealed m (putExec h ch e') := by
  refine ⟨hs.ended, fun y hlone hfwd hoff hlast => ?_⟩
  obtain ⟨x, hx, hy⟩ := lone_putExec hlone
  split at hy
  next hid =>
    subst hy
    obtain hu | hsame := hput x hx hid.1 hid.2 hfwd
    · exact .inl hu
    · exact (hs.mem x hx (hsame.forwards hfwd) hoff hlast).imp_left hsame.undone
  next =>
    subst hy
    exact hs.mem y hx hfwd hoff hlast

/-- A command that is ending. -/
theorem Sealed.putEnding (hs : Sealed m h) (hend : e'.ending.isSome = true) : Sealed m (Machine.putExec h ch e') := hs.putExec fun _ _ _ _ _ => .inl (.inl hend)

theorem Lone.eq_of_mem (hl : Lone h y) (hch : ch < 8) (he : e ∈ (h.chain ch).act) : ch = 0 ∧ e = y := by
  obtain ⟨hy, hempty⟩ := hl
  by_cases h0 : ch = 0
  · subst h0
    rw [hy] at he
    exact ⟨rfl, List.mem_singleton.mp he⟩
  · rw [hempty ch (by omega) hch] at he
    exact nomatch he

/-- A command of a chain with a part replaced that the invariant does not read. -/
theorem Sealed.putSame (hs : Sealed m h) (he : e ∈ (h.chain ch).act) (hsame : SameProgress e e') : Sealed m (Machine.putExec h ch e') := by
  refine hs.putExec fun x hx h0 _ _ => .inr ?_
  subst h0
  obtain ⟨-, rfl⟩ := hx.eq_of_mem (by decide) he
  exact hsame

theorem Sealed.setChain {x : Chain} (hs : Sealed m h) (hx : x.act = (h.chain ch).act) : Sealed m (h.setChain ch x) := by
  refine hs.of_agree rfl (fun c _ => ?_) rfl (fun _ _ => rfl) (.inr rfl)
  by_cases hc : c = ch
  · subst hc
    rw [Hw.chain_setChain_same]
    exact hx
  · rw [h.chain_setChain_other x hc]

theorem Sealed.endGroupAt {en : Ending} {lim : Nat} (hs : Sealed m h) : Sealed m (endGroupAt h ch e en lim) := by
  refine .foldl (fun g x hg => .ite hg (hg.putEnding ?_)) hs
  split
  · rfl
  · rfl

theorem Sealed.endGroup {en : Ending} (hs : Sealed m h) : Sealed m (endGroup h ch e en) := hs.endGroupAt

theorem Sealed.outFail {en : Ending} {seg : Nat} (hs : Sealed m h) : Sealed m (outFail h ch e en seg) := by
  unfold Machine.outFail
  split
  · exact hs.endGroupAt
  · exact hs.putEnding rfl

/-- Commands of which each, where it is the lone one, is put back with the same progress. -/
theorem Sealed.foldl_putExec {l : List (Nat × Exec)} {f : Nat × Exec → Exec} (hs : Sealed m h) (hf : ∀ x, SameProgress x.2 (f x))
    (hl : ∀ x ∈ l, ∀ y, Lone h y → x.1 = 0 → SameProgress y x.2) : Sealed m (l.foldl (fun g x => Machine.putExec g x.1 (f x)) h) := by
  suffices hfold : ∀ g, Sealed m g → (∀ y, Lone g y → ∃ z, Lone h z ∧ SameProgress z y) → Sealed m (l.foldl (fun g x => Machine.putExec g x.1 (f x)) g) from
    hfold h hs fun y hy => ⟨y, hy, rfl⟩
  induction l with
  | nil => exact fun g hg _ => hg
  | cons x l ih =>
    intro g hg hback
    have hx : ∀ z, Lone h z → x.1 = 0 → SameProgress z (f x) := fun z hz h0 => (hl x List.mem_cons_self z hz h0).trans (hf x)
    refine ih (fun x' hx' => hl x' (List.mem_cons_of_mem x hx')) _ (hg.putExec fun y hy h0 _ _ => ?_) fun y hy => ?_
    · obtain ⟨z, hz, hzy⟩ := hback y hy
      exact .inr (hzy.symm.trans (hx z hz h0))
    · obtain ⟨y0, hy0, hy⟩ := lone_putExec hy
      obtain ⟨z, hz, hzy⟩ := hback y0 hy0
      refine ⟨z, hz, ?_⟩
      rw [hy]
      split
      next hid => exact hx z hz hid.1
      next => exact hzy

/-- The members of a command's group. -/
theorem Sealed.foldl_members {f : Nat × Exec → Exec} (hs : Sealed m h) (hf : ∀ x, SameProgress x.2 (f x))
    (he : ∀ y, Lone h y → ch = 0 → e.words = forwardWords → SameProgress y e) : Sealed m ((members h ch e).foldl (fun g x => Machine.putExec g x.1 (f x)) h) := by
  by_cases hgid : e.gid = 0
  · rw [members, if_pos hgid]
    refine hs.putExec fun y hy h0 _ hfwd => .inr ?_
    exact (he y hy h0 ((hf (ch, e)).forwards hfwd).1).trans (hf (ch, e))
  · rw [members, if_neg hgid]
    refine hs.foldl_putExec hf fun x hx y hy h0 => ?_
    obtain ⟨c, -, hc⟩ := List.mem_filterMap.mp hx
    obtain ⟨z, hz, rfl⟩ := Option.map_eq_some_iff.mp hc
    obtain ⟨-, rfl⟩ := hy.eq_of_mem (ch := ch / 8 * 8 + c) (lt_of_eq_of_lt h0 (by decide)) (List.mem_of_find?_eq_some hz)
    rfl

end

/-! ### What a chain does without waiting -/

section
variable {m : Option (KV Byte)} {h : Hw} {ch : Nat} {e : Exec}

theorem Sealed.chainSync (hs : Sealed m h) : Sealed m (chainSync h ch) := by
  unfold Machine.chainSync
  extract_lets _ _ _ h0
  have hs0 : Sealed m h0 := hs.wr
  split
  · exact .ite hs0 hs0.wr.wr.wr.wr
  · exact .ite hs0.wr.wr.wr.wr.wr.wr.wr.wr.wr.wr hs0.wr.wr.wr.wr.wr

theorem Sealed.hpBytes {p : Nat} {outb : Bool} {n : Nat} (hs : Sealed m h) : Sealed m (hpBytes h p outb n) := .ite (hs.update rfl) (.wr (hs.update rfl))

theorem Sealed.mGrant {k p : Nat} (hs : Sealed m h) : Sealed m (mGrant k h p) := by
  induction k generalizing h with
  | zero => exact hs
  | succ k ih =>
    unfold Machine.mGrant
    split
    next q t _ _ =>
      have hout : ∀ g, Sealed m g → Sealed m (outReq g p t q) := fun g hg => hg.update rfl
      have htag : ∀ l, Sealed m { h with mreqs := l } := fun l => hs.update rfl
      exact .ite (ih (.ite (hout _ (htag _).wr.wr.wr) (hout _ (htag _).wr.wr.wr).hpBytes)) hs
    next => exact hs

theorem Sealed.mRegion {r cls op pa len : Nat} {data : List Byte} {se wlk : Bool} {use : MUse} (hs : Sealed m h) :
    Sealed m (mRegion h r cls op pa len data se wlk use) :=
  .mGrant (hs.update rfl)

theorem Sealed.xltFault {r cls level ea : Nat} {malf write : Bool} {w : World} {asid va : Nat} (hs : Sealed m h) :
    Sealed m (xltFault h r cls level ea malf write ch w asid va) :=
  .ite hs hs.wr.wr.wr.wr.wr.wr

theorem Sealed.ubTouch {us : List TcEnt} (hs : Sealed m h) : Sealed m (ubTouch h ch us) := hs.setChain rfl

theorem Sealed.pieceIssue {id : Nat} {a : Acc} (hs : Sealed m h) : Sealed m (pieceIssue h ch id a) := by
  unfold Machine.pieceIssue
  split
  · split
    · exact hs
    · split
      exact .ite hs.mRegion hs.mRegion
  · exact hs

theorem Sealed.permFault {s : Nat} {t : TcEnt} {va : Nat} {write : Bool} (hs : Sealed m h) : Sealed m (permFault h ch e s t va write) := by
  unfold Machine.permFault
  split
  exact hs.xltFault.endGroup

theorem forwardWords_not_chained : dChained forwardWords = false := by decide

theorem chained_of_mem_waitingWith {x : Nat × Exec} (hx : x ∈ waitingWith h ch) : dChained x.2.words = true := by
  obtain ⟨c, -, hc⟩ := List.mem_filterMap.mp hx
  obtain ⟨y, hy, rfl⟩ := Option.map_eq_some_iff.mp hc
  unfold waitingIn at hy
  split at hy
  · split at hy
    next hwaits =>
      obtain rfl := Option.some.inj hy
      simp only [Bool.and_eq_true] at hwaits
      obtain ⟨⟨⟨-, hchained⟩, -⟩, -⟩ := hwaits
      exact hchained
    next => exact nomatch hy
  · exact nomatch hy

/-- A command of `forwardWords` forms no group (R99). -/
theorem AllSealed.tryPair (hs : Sealed m h) : AllSealed m (tryPair h ch e) := by
  unfold Machine.tryPair
  extract_lets r cs es failAll sl sink prog g
  have hfail : ∀ sub, Sealed m (failAll sub) := fun sub => .foldl (fun _ _ hg => hg.putEnding rfl) hs
  have hwords : ∀ x ∈ es, x.2.words ≠ forwardWords := fun x hx hw => by
    obtain ⟨x0, hx0, rfl⟩ := List.mem_map.mp hx
    have hchained := chained_of_mem_waitingWith hx0
    rw [show x0.2.words = forwardWords from hw, forwardWords_not_chained] at hchained
    exact absurd hchained Bool.false_ne_true
  clear_value failAll sl sink prog g es
  refine .ite .none (.ite .none (.ite (.some (hfail _)) (.ite (.some (hfail _)) ?_)))
  refine .some (.foldl_of_mem (fun x hx g hg => hg.putExec fun y _ _ _ hfwd => ?_) hs)
  obtain ⟨hw, -⟩ := hfwd
  exact absurd (show x.2.words = forwardWords from hw) (hwords x hx)

theorem AllSealed.tryStart (hs : Sealed m h) (hch : ch < 8) (he : e ∈ (h.chain ch).act) : AllSealed m (tryStart h ch e) := by
  refine .ite .none (.ite (.ite (.some (hs.putEnding rfl)) (.some (hs.foldl_members (fun _ => rfl) fun y hy _ _ => ?_))) .none)
  obtain ⟨-, rfl⟩ := hy.eq_of_mem hch he
  rfl

theorem AllSealed.tryStop0 (hs : Sealed m h) : AllSealed m (tryStop0 h ch e) := .ite (.some hs.endGroup) .none

theorem AllSealed.tryFetch {s : Nat} (hs : Sealed m h) (he : e ∈ (h.chain ch).act) : AllSealed m (tryFetch h ch e s) := by
  unfold Machine.tryFetch
  split
  · exact .none
  · refine .ite .none ?_
    split
    · exact .none
    · exact .none
    · exact .some hs.permFault
    · exact .ite .none (.some (.pieceIssue (.ubTouch (hs.putSame he rfl))))

theorem AllSealed.tryRec (hs : Sealed m h) (he : e ∈ (h.chain ch).act) : AllSealed m (tryRec h ch e) := .ite (.some (hs.putSame he rfl)) .none

theorem sameProgress_of_popAcc {s : Nat} {e' : Exec} (hp : popAcc ch e s = some e') : SameProgress e e' := by
  unfold popAcc at hp
  split at hp
  · exact nomatch hp
  · extract_lets rest fmt items at hp
    split at hp
    · exact nomatch hp
    · split at hp
      · split at hp
        · cases hp
          rfl
        · exact nomatch hp
      · cases hp
        split
        · rfl
        · split
          · rfl
          · split
            · rfl
            · rfl

theorem AllSealed.tryPop (hs : Sealed m h) (he : e ∈ (h.chain ch).act) : AllSealed m (tryPop h ch e) := by
  intro g hg
  obtain ⟨e', he', rfl⟩ := Option.map_eq_some_iff.mp hg
  obtain ⟨s, -, hp⟩ := List.exists_of_findSome?_eq_some he'
  exact hs.putSame he (sameProgress_of_popAcc hp)

theorem AllSealed.tryFail (hs : Sealed m h) : AllSealed m (tryFail h ch e) := by
  unfold Machine.tryFail
  refine .ite .none ?_
  split
  · exact .ite (.some (.endGroup (.ite hs.rgnLog hs))) .none
  · split
    · exact .ite (.some (.endGroupAt (.ite hs.rgnLog hs))) .none
    · exact .none

theorem AllSealed.tryPages (hs : Sealed m h) (he : e ∈ (h.chain ch).act) : AllSealed m (tryPages h ch e) := by
  unfold Machine.tryPages
  refine .ite .none ?_
  split
  · extract_lets
    split
    exact .ite (.some (hs.putSame he rfl)) (.ite .none (.some (hs.putSame he rfl)))

theorem AllSealed.tryStore (hs : Sealed m h) (he : e ∈ (h.chain ch).act) : AllSealed m (tryStore h ch e) := by
  unfold Machine.tryStore
  split
  · exact .none
  · refine .ite .none ?_
    split
    · exact .none
    · exact .none
    · split
      exact .some hs.xltFault.outFail
    · refine .ite (.some (hs.putSame he ?_)) (.ite .none (.some (.pieceIssue (.ubTouch (hs.putSame he rfl)))))
      split
      · rfl
      · rfl

theorem forwardWords_link : opLINK (dOp forwardWords 2) = 0 := by decide

/-- A frame sent on link 0 follows the ABORT, and a command of `forwardWords` sends on no other link. -/
theorem AllSealed.trySend (hs : Sealed m h) : AllSealed m (trySend h ch e) := by
  unfold Machine.trySend
  extract_lets ws w cap last bs _ f
  have hf : f ≠ peerAbort := fun he => by
    have htyp : (if fmtKind (dFMTD ws) = .ancrec then ftAREC else ftDATA) = ftTOKEN := congrArg Frame.typ he
    split at htyp
    · exact absurd htyp (by decide)
    · exact absurd htyp (by decide)
  clear_value f
  refine .ite .none (.ite (.some ?_) .none)
  by_cases hlk : opLINK w = 0
  · rw [hlk]
    exact .of_last (f := f) hs.ended (getLast?_txq_linkSend h 0 f) hf
  · refine (hs.linkSend hf).putExec fun y _ _ _ hfwd => absurd ?_ hlk
    obtain ⟨hw, -⟩ := hfwd
    rw [show w = dOp forwardWords 2 from congrArg (dOp · 2) hw]
    exact forwardWords_link

end

/-! ### Frames that land -/

section
variable {m : Option (KV Byte)} {h : Hw} {lk : Nat}

theorem Sealed.putFrame {f : Frame} (hs : Sealed m h) (hlk : m = none ∨ lk < 32) : Sealed m (putFrame h lk f) := by
  unfold Machine.putFrame
  extract_lets n x len
  refine .ite (.ite (hs.setCtx fun hn => ?_) hs) (.ite ?_ ?_)
  · exact hn ▸ rfl
  · split
    next h1 _ he =>
      have hs1 : Sealed m h1 := .of_eq_fst he (hs.memWrite hlk)
      exact .ite (hs1.fresh.linkSend (tokenFrame_ne_peerAbort (.inr (.inl (by decide))))) hs1
  · have hsent : ∀ u : W64, Sealed m (Machine.linkSend h.fresh.2 lk (tokenFrame n 0 3 (u.toNat % 2 ^ 16) 2 (leBytes 2 0x20 ++ leBytes 2 (h.cxRank n)))) := fun u =>
      hs.fresh.linkSend (tokenFrame_ne_peerAbort (.inr (.inr (show (leBytes 2 0x20).headD 0 ≠ (0x22 : Byte) by decide))))
    exact .ite (hsent _) ((hsent _).setCtx fun hn => hn ▸ rfl)

theorem Sealed.landPosts {n step : Nat} {ps : List Post} {bs : List Byte} (hs : Sealed m h) (hlk : m = none ∨ lk < 32) : Sealed m (landPosts h lk n step ps bs).1 := by
  induction ps generalizing h bs with
  | nil => exact hs
  | cons p ps ih =>
    unfold Machine.landPosts
    refine .fst_ite ?_ ?_
    · extract_lets take
      split
      next h1 _ he =>
        have hs1 : Sealed m h1 := .of_eq_fst he (.fst_ite hs (hs.memWrite hlk))
        exact ih hs1
    · exact ih hs

theorem Sealed.landFrame {f : Frame} (hs : Sealed m h) (hlk : m = none ∨ lk < 32) : Sealed m (landFrame h lk f) := by
  unfold Machine.landFrame
  refine .ite (hs.putFrame hlk) ?_
  split
  next h1 _ _ he =>
    have hs1 : Sealed m h1 := .of_eq_fst he (hs.landPosts hlk)
    exact hs1.setLink rfl

theorem Sealed.landAll (hs : Sealed m h) (hlk : m = none ∨ lk < 32) : Sealed m (landAll h lk) := by
  suffices hheads : ∀ k h, Sealed m h → Sealed m (landHeads k h lk) from hheads _ h hs
  intro k
  induction k with
  | zero => exact fun h hs => hs
  | succ k ih =>
    intro h hs
    unfold landHeads
    extract_lets
    split
    · exact ih _ (hs.rbufFree.landFrame hlk)
    · exact hs

theorem Sealed.postTook {f : Frame} (hs : Sealed m h) : Sealed m (postTook h lk f) := by
  unfold Machine.postTook
  extract_lets
  split
  · exact hs.setLink rfl
  · exact hs

end

/-! ### The command takes an element and sends it -/

section
variable {m : Option (KV Byte)} {h : Hw} {ch : Nat} {e : Exec}

theorem Sealed.linkTake {s : Nat} {f : Frame} (hs : Sealed m h) (he : e ∈ (h.chain ch).act) : Sealed m (linkTake h ch e s f) := by
  refine .ite hs.endGroup (hs.putSame he ?_)
  split
  · rfl
  · rfl

/-- A link input that still expects frames is of a command with elements to come. -/
theorem undone_of_linkWaits {lk s : Nat} {f : Frame} (hw : e.words = forwardWords) (hwaits : linkWaits e lk f s = true) (hrs : (if s = 0 then e.rsA else e.rsB) = none) : Undone e := by
  simp only [linkWaits, linkExp, hrs, hw, Bool.and_eq_true, Bool.or_eq_true, decide_eq_true_eq, Option.isSome_none, Bool.false_eq_true, or_false] at hwaits
  obtain ⟨-, hexp⟩ := hwaits
  have hcount : dCOUNT forwardWords = 2 := by decide
  exact .inr (.inr (by omega))

theorem chain_freePlace (h : Hw) (lk : Nat) (f : Frame) (c : Nat) : (freePlace h lk f).chain c = h.chain c := by
  unfold freePlace
  split
  · rfl
  · rfl

theorem chain_rbufFree (h : Hw) (lk i c : Nat) : (rbufFree h lk i).chain c = h.chain c := by
  unfold rbufFree
  extract_lets
  split
  · exact chain_freePlace _ _ _ _
  · rfl

theorem chain_postTook (h : Hw) (lk : Nat) (f : Frame) (c : Nat) : (postTook h lk f).chain c = h.chain c := by
  unfold postTook
  extract_lets
  split
  · rfl
  · rfl

/-- What lands behind a frame that a command takes: the command still has that frame's elements to send. -/
theorem AllSealed.tryLink {s : Nat} (hs : Sealed m h) (hch : ch < 8) (he : e ∈ (h.chain ch).act) : AllSealed m (tryLink h ch e s) := by
  refine .guard fun hguard => ?_
  simp only [Bool.or_eq_true, not_or, Bool.not_eq_true, Option.isSome_eq_false_iff, Option.isNone_iff_eq_none] at hguard
  obtain ⟨⟨-, hrs⟩, -⟩ := hguard
  extract_lets lk x
  split
  next i f hfound =>
    obtain ⟨j, -, hj⟩ := List.exists_of_findSome?_eq_some hfound
    have hwaits : linkWaits e lk f s = true := by
      split at hj
      · split at hj
        next hcond =>
          cases hj
          simp only [Bool.and_eq_true] at hcond
          obtain ⟨⟨hwaits, -⟩, -⟩ := hcond
          exact hwaits
        next => exact nomatch hj
      · exact nomatch hj
    have hnone : Sealed Option.none h := by
      refine ⟨hs.ended, fun y hy hfwd _ _ => .inl ?_⟩
      obtain ⟨-, rfl⟩ := hy.eq_of_mem hch he
      exact undone_of_linkWaits hfwd.1 hwaits hrs
    have hact : e ∈ ((Machine.postTook (Machine.rbufFree h lk i) lk f).chain ch).act := by
      rw [chain_postTook, chain_rbufFree]
      exact he
    exact .ite (.some ((hnone.rbufFree.postTook.linkTake hact).landAll (.inl rfl)).of_none) .none
  next => exact .none

theorem Sealed.countElems {n : Nat} (hs : Sealed m h) : Sealed m (countElems h ch n) := .ite (hs.setChain rfl) (.wr (hs.setChain rfl))

theorem chain_foldl {α : Type} {l : List α} {f : Hw → α → Hw} (hf : ∀ g x c, (f g x).chain c = g.chain c) (h : Hw) (c : Nat) : (l.foldl f h).chain c = h.chain c := by
  induction l generalizing h with
  | nil => rfl
  | cons x l ih => exact (ih _).trans (hf h x c)

theorem chain_rgnLog (h : Hw) (r cls unit addr c : Nat) : (rgnLog h r cls unit addr).chain c = h.chain c := by
  unfold rgnLog
  extract_lets
  split
  · rfl
  · rfl

end

section
variable {m : Option (KV Byte)} {h : Hw} {ch : Nat} {e : Exec}

theorem members_congr {g : Hw} (hg : ∀ c, g.chain c = h.chain c) (ch : Nat) (e : Exec) : members g ch e = members h ch e := by
  simp only [members, hg]

/-- The end of a segment of a command that stands as it is passed, where it is the lone one. -/
theorem Sealed.boundary (hs : Sealed m h) (he : ∀ y, Lone h y → ch = 0 → e.words = forwardWords → SameProgress y e) : Sealed m (boundary h ch e) := by
  unfold Machine.boundary
  extract_lets ms seg b h0 h1
  have hs0 : Sealed m h0 := by
    refine .foldl (fun _ _ hg => ?_) hs
    split
    · exact hg.rgnLog
    · exact hg
  have hchain : ∀ c, h0.chain c = h.chain c := chain_foldl (fun g x c => by
    split
    · exact chain_rgnLog _ _ _ _ _ _
    · rfl) h
  have hs1 : Sealed m h1 := by
    unfold h1 ms
    rw [← members_congr hchain ch e]
    refine hs0.foldl_members (fun _ => rfl) fun y hy => he y ?_
    simpa only [Lone, hchain] using hy
  clear_value h1
  split
  · split
    · exact hs1.endGroup
    · exact hs1
  · refine .ite hs1 ?_
    split
    · split
      · exact hs1.endGroup
      · exact hs1
    · exact hs1

theorem packElem_ne_nil (i : Nat) (a : COut) : (packElem forwardWords i a).1 ≠ [] := by
  have hkind : fmtKind (dFMTD forwardWords) = .flt := by decide
  have hcont : fmtCont (dFMTD forwardWords) = 4 := by decide
  cases hv : a.v with
  | f x => simp [packElem, hkind, hcont, hv, leBytes]
  | i v => simp [packElem, hkind, hcont, hv, leBytes]
  | q v => simp [packElem, hkind, hcont, hv]
  | r v => simp [packElem, hkind, hcont, hv]

/-- An element of the command makes an item of bytes. -/
theorem items_forwardWords (i : Nat) (recAt : Nat → Nat) (as_ bs : List (List Byte)) : (computeGroup forwardWords i 1 recAt as_ bs).items.flatten ≠ [] := by
  have hop : dOPC forwardWords ≠ opANCREC := by decide
  have hkind : fmtKind (dFMTD forwardWords) ≠ .mx := by decide
  simp only [computeGroup, if_neg hop, if_neg hkind, List.range_one, List.map_cons, List.map_nil, List.zip_cons_cons, List.zip_nil_right, List.flatten_cons, List.flatten_nil,
    List.append_nil]
  exact packElem_ne_nil _ _

/-- The command with an element to come has, once it processes one, an element to come or a frame to send (R98). -/
theorem frame_processed {as_ bs : List (List Byte)} {recAt : Nat → Nat} (hw : e.words = forwardWords) (hidx : e.idx < 2) (hix : e.frameIx < 2) :
    (if dKD e.words = kLink ∧ e.frameIx + e.frame.length / fmtCont (dFMTD e.words) * fmtItem (dFMTD e.words) ≤ dElems e.words e.idx then
      e.frame ++ (computeGroup e.words e.idx e.next recAt as_ bs).items.flatten else e.frame) ≠ [] ∨ e.idx + e.next < 2 := by
  have hlen : groupLen forwardWords = 1 := by decide
  have hcount : dCOUNT forwardWords = 2 := by decide
  have hkd : dKD forwardWords = kLink := by decide
  have hop : dOPC forwardWords ≠ opANCREC := by decide
  have hnext : e.next = 1 := by
    rw [Exec.next, hw, hlen, hcount]
    omega
  rw [hw, hnext, dElems, if_neg hop]
  by_cases hmore : e.idx + 1 < 2
  · exact .inr hmore
  · refine .inl ?_
    by_cases hframe : e.frame = []
    · rw [hframe, if_pos ⟨hkd, by simp; omega⟩]
      exact items_forwardWords _ _ _ _
    · split
      · exact List.append_ne_nil_of_left_ne_nil hframe _
      · exact hframe

end

section
variable {m : Option (KV Byte)} {h : Hw} {ch : Nat} {e : Exec}

theorem mem_act_putExec {e' : Exec} (he : e ∈ (h.chain ch).act) (hid : e.id = e'.id) : e' ∈ ((putExec h ch e').chain ch).act := by
  rw [act_putExec, if_pos rfl]
  exact List.mem_map.mpr ⟨e, he, if_pos hid⟩

theorem act_countElems (h : Hw) (ch n c : Nat) : ((countElems h ch n).chain c).act = (h.chain c).act := by
  unfold countElems
  extract_lets x v h1
  have hact : (h1.chain c).act = (h.chain c).act := by
    by_cases hc : c = ch
    · subst hc
      rw [Hw.chain_setChain_same]
    · rw [h.chain_setChain_other _ hc]
  split
  · exact hact
  · exact hact

theorem AllSealed.tryProcess (hs : Sealed m h) (hch : ch < 8) (he : e ∈ (h.chain ch).act) : AllSealed m (tryProcess h ch e) := by
  unfold Machine.tryProcess
  extract_lets ws n ka kb g seg va outs made e1 h1 d h2
  split
  next sch sink _ =>
    refine .guard fun hguard => ?_
    simp only [Bool.or_eq_true, not_or, decide_eq_true_eq, not_le] at hguard
    obtain ⟨⟨⟨⟨⟨-, hidx⟩, -⟩, -⟩, -⟩, -⟩ := hguard
    have hput : Sealed m (putExec h ch e1) := hs.putExec fun y hy _ _ ⟨hw, _, hix⟩ => by
      have hw : e.words = forwardWords := hw
      have hidx2 : e.idx < 2 := by
        rw [show ws = forwardWords from hw] at hidx
        exact hidx
      exact .inl (.inr (frame_processed hw hidx2 hix))
    have hs1 : Sealed m h1 := hput.countElems
    have hmem1 : e1 ∈ (h1.chain ch).act := by
      rw [act_countElems]
      exact mem_act_putExec he rfl
    have hs2 : Sealed m h2 := by
      refine .ite ?_ hs1
      split
      next y hy =>
        refine hs1.putSame (List.mem_of_find?_eq_some hy) ?_
        split
        · rfl
        · rfl
      next => exact hs1
    have hback : ∀ y, Lone h2 y → ch = 0 → e1.words = forwardWords → SameProgress y e1 := fun y hy _ hw => by
      have hkd : dKD ws ≠ kChain := by
        rw [show ws = forwardWords from hw]
        decide
      have h21 : h2 = h1 := if_neg hkd
      obtain ⟨-, rfl⟩ := Lone.eq_of_mem (h21 ▸ hy) hch hmem1
      rfl
    clear_value h2 e1
    exact .some (.ite (hs2.boundary hback) hs2)

theorem AllSealed.chainStep (hs : Sealed m h) (hch : ch < 8) : AllSealed m (chainStep h ch) := by
  unfold Machine.chainStep
  split
  next hstore => exact .some (AllSealed.findSome? (fun _ he => .tryStore hs he) _ hstore)
  next =>
    refine .findSome? fun e he => .findSome? ?_
    simp only [List.forall_mem_append, List.forall_mem_map, List.forall_mem_cons]
    exact ⟨⟨⟨.tryPop hs he, .tryFail hs, .tryStop0 hs, .tryPair hs, .tryStart hs hch he, .tryPages hs he, .trySend hs, .tryProcess hs hch he, .tryRec hs he, nofun⟩,
      .tryLink hs hch he, .tryLink hs hch he, nofun⟩, .tryFetch hs he, .tryFetch hs he, .tryFetch hs he, nofun⟩

theorem Sealed.chainsAdvance (hs : Sealed m h) : Sealed m (chainsAdvance h 0) := by
  have hloop : ∀ k h, Sealed m h → Sealed m (chainsLoop k h 0) := by
    intro k
    induction k with
    | zero => exact fun h hs => hs
    | succ k ih =>
      intro h hs
      unfold chainsLoop
      split
      next hstep =>
        refine ih _ (AllSealed.findSome? (fun c hc => .chainStep hs ?_) _ hstep)
        rw [Nat.mul_zero, Nat.zero_add]
        exact List.mem_range.mp hc
      next => exact hs
  exact .ite hs (.foldl (fun _ _ hg => hg.chainSync) (.ite (hloop _ h hs) hs))

end

/-! ### The service of the region -/

section
variable {m : Option (KV Byte)} {h : Hw} {n : Nat}

theorem Sealed.chainAbortCtx (hs : Sealed m h) (hn : n < 1024) : Sealed m (chainAbortCtx h n) := by
  unfold Machine.chainAbortCtx
  rw [Nat.div_eq_of_lt hn]
  exact .chainsAdvance (.foldl (fun _ _ hg => .foldl (fun _ _ hg2 => .ite hg2.endGroup hg2) hg) hs)

theorem Sealed.tokenFlood {code opid tc : Nat} {payload : List Byte} (hs : Sealed m h) (hn : n ≠ 0) : Sealed m (tokenFlood h n code opid tc payload) :=
  .foldl (fun _ _ hg => hg.linkSend (tokenFrame_ne_peerAbort (.inl hn))) hs

/-- The ending of context 0 is decided already; another context of the region sends tokens of its own. -/
theorem Sealed.rqStop {st peer : Nat} (hs : Sealed m h) (hn : n < 1024) : Sealed m (rqStop h n st peer) := by
  unfold Machine.rqStop
  split
  next => exact hs
  next u hrun =>
    by_cases h0 : n = 0
    · subst h0
      obtain ⟨u', hrun', hended⟩ := hs.ended
      obtain rfl := Option.some.inj (hrun.symm.trans hrun')
      rw [if_pos hended]
      exact hs
    · refine .ite hs ?_
      extract_lets r status g0 g1 g2 g3
      have hs0 : Sealed m g0 := hs.setRun h0
      have hs1 : Sealed m g1 := .foldl (fun _ _ hg => .ite (hg.setLink rfl) hg) hs0
      have hs2 : Sealed m g2 := .ite hs1 ((hs1.chainAbortCtx hn).tokenFlood h0)
      have hs3 : Sealed m g3 := hs2.wr.wr.wr.wr.wr.wr.wr
      exact .ite hs3.wr hs3

theorem Sealed.strayFrame {lk : Nat} (hs : Sealed m h) (hlk : lk < 32) : Sealed m (strayFrame h lk n) := by
  unfold Machine.strayFrame
  split
  next => exact hs
  next hof =>
    have hn : n < 1024 := by omega
    exact .ite (Sealed.rqStop hs.wr hn) hs.wr

/-- A command that the service issues is not one of `Forwards`, and takes an empty chain. -/
theorem Sealed.setChain_issued {ch : Nat} {x : Chain} {e : Exec} (hs : Sealed m h) (hch : ch < 8) (hx : x.act = [e]) (hsvc : e.svc ≠ none) : Sealed m (h.setChain ch x) := by
  refine ⟨hs.ended, fun y ⟨hy, hempty⟩ ⟨_, hyf, _⟩ _ _ => absurd hyf ?_⟩
  by_cases h0 : ch = 0
  · subst h0
    rw [Hw.chain_setChain_same, hx] at hy
    obtain rfl := List.singleton_inj.mp hy
    exact hsvc
  · have hact := hempty ch (by omega) hch
    rw [Hw.chain_setChain_same, hx] at hact
    exact nomatch hact

theorem Sealed.svcExec {ch : Nat} {c : SvcCmd} {get : Bool} (hs : Sealed m h) (hch : ch < 8) : Sealed m (svcExec h n ch c get).1 := by
  have hseq : Sealed m { h with seq := h.seq + 1 } := hs.update rfl
  exact .fst_ite hs (.chainSync (hseq.idleLeave.setChain_issued hch rfl nofun))

theorem lt_of_svcChain {ch : Nat} (hc : svcChain h 0 = some ch) : ch < 8 := by
  obtain ⟨c, hc8, rfl⟩ := List.mem_map.mp (List.mem_of_find?_eq_some hc)
  rw [Nat.mul_zero, Nat.zero_add]
  exact List.mem_range.mp hc8

theorem AllSealed.svcDo {u : CtxRun} {a : SvcAct} (hs : Sealed m h) (hn : n < 1024) (h0 : n ≠ 0) : AllSealed m (svcDo h n u a) := by
  unfold Machine.svcDo
  have htoken : ∀ {step code opid tc : Nat} {payload : List Byte}, tokenFrame n step code opid tc payload ≠ peerAbort := tokenFrame_ne_peerAbort (.inl h0)
  split
  · extract_lets x h1
    have hs1 : Sealed m h1 := Sealed.setRun (hs.setLink rfl) h0
    exact .ite (.some (.ite (hs1.linkSend htoken) hs1)) .none
  · refine .ite .none ?_
    rw [Nat.div_eq_of_lt hn]
    split
    · exact .none
    next ch hch =>
      extract_lets x ready h1
      have hs1 : Sealed m h1 := Sealed.wr (hs.setCtx fun hn0 => absurd hn0 h0)
      split
      next h2 _ he =>
        have hs2 : Sealed m h2 := .of_eq_fst he (hs1.svcExec (lt_of_svcChain hch))
        exact .some (.ite hs2 (hs2.setRun h0))
  · exact .some (Sealed.linkSend (.wr (hs.setRun h0)) htoken)
  · exact .ite (.some (hs.setCtx fun hn0 => absurd hn0 h0)) .none
  · exact .ite .none (.some (hs.setRun h0))
  · exact .ite .none (.some (hs.setRun h0))
  · exact .ite (.some (hs.setRun h0)) .none
  · exact .some (.wr (hs.setRun h0))
  · exact .ite (.some (hs.setRun h0)) .none

theorem AllSealed.svcAct (hs : Sealed m h) (hn : n < 1024) : AllSealed m (svcAct h n) := by
  unfold Machine.svcAct
  split
  · exact .none
  next u hrun =>
    refine .guard fun hguard => ?_
    have h0 : n ≠ 0 := fun h0 => by
      subst h0
      obtain ⟨u', hrun', hended⟩ := hs.ended
      obtain rfl := Option.some.inj (hrun.symm.trans hrun')
      simp [hended] at hguard
    split
    · exact .some (hs.rqStop hn)
    · split
      · exact .svcDo hs hn h0
      · intro g hg
        obtain ⟨acts, -, rfl⟩ := Option.map_eq_some_iff.mp hg
        exact hs.setRun h0

theorem AllSealed.svcGet (hs : Sealed m h) (hn : n < 1024) : AllSealed m (svcGet h n) := by
  unfold Machine.svcGet
  extract_lets x r
  have hr : r = 0 := Nat.div_eq_of_lt hn
  clear_value r
  subst hr
  split
  · exact .none
  · refine .ite (.some (Sealed.linkSend (hs.setCtx fun hn0 => hn0 ▸ rfl) (tokenFrame_ne_peerAbort (.inr (.inl (by decide)))))) (.ite .none ?_)
    split
    · exact .none
    next ch hch =>
      split
      · exact .some (hs.svcExec (lt_of_svcChain hch))
      · exact .none

theorem Sealed.svcGo {k : Nat} (hs : Sealed m h) : Sealed m (svcGo k h 0) := by
  induction k generalizing h with
  | zero => exact hs
  | succ k ih =>
    unfold Machine.svcGo
    split
    next hstep =>
      refine ih (AllSealed.findSome? (fun e _ => ?_) _ hstep)
      split
      next hof =>
        have hn : e.1 < 1024 := by omega
        split
        next hact => exact .some (AllSealed.svcAct hs hn _ hact)
        next => exact .svcGet hs hn
      next => exact .none
    next => exact hs

theorem Sealed.sweepLink {k lk : Nat} (hs : Sealed m h) (hlk : lk < 32) : Sealed m (sweepLink k h lk) := by
  induction k generalizing h with
  | zero => exact hs
  | succ k ih =>
    unfold Machine.sweepLink
    split
    · exact ih (Sealed.strayFrame (hs.setLink rfl) hlk)
    · split
      · exact ih (hs.rbufFree.strayFrame hlk)
      · exact hs

theorem Sealed.svcArm (hs : Sealed m h) : Sealed m (svcArm h n) := by
  unfold Machine.svcArm
  split
  next u hrun =>
    by_cases h0 : n = 0
    · subst h0
      obtain ⟨u', hrun', hended⟩ := hs.ended
      obtain rfl := Option.some.inj (hrun.symm.trans hrun')
      rw [if_pos (.inr hended)]
      exact hs
    · exact .ite hs (.ite hs (hs.setRun h0))
  next => exact hs

theorem Sealed.svcAdvance (hs : Sealed m h) : Sealed m (svcAdvance h 0) := by
  unfold Machine.svcAdvance
  refine .ite hs ?_
  extract_lets lks pass h1 h2
  have hlks : ∀ g, ∀ lk ∈ lks g, lk < 32 := fun g lk hlk => by
    obtain ⟨e, he, rfl⟩ := List.mem_map.mp hlk
    have hcond := List.of_mem_filter he
    simp only [Bool.and_eq_true, beq_iff_eq] at hcond
    obtain ⟨hregion, -⟩ := hcond
    omega
  have hpass : ∀ g, Sealed m g → Sealed m (pass g) := fun g hg => .chainsAdvance (.foldl_of_mem (fun lk hlk _ hg1 => hg1.landAll (.inr (hlks _ lk hlk))) hg.svcGo)
  have hs1 : Sealed m h1 := hpass _ (hpass _ hs)
  have hs2 : Sealed m h2 := .foldl_of_mem (fun lk hlk _ hg => hg.sweepLink (hlks _ lk hlk)) hs1
  exact .foldl (fun _ _ hg => hg.svcArm) hs2

end

/-! ### The row that is read goes on -/

theorem Sealed.slotRead {m : Option (KV Byte)} {h : Hw} {lk l : Nat} {inSet : Bool} (hs : Sealed m h) : Sealed m (slotRead h lk l inSet) := by
  refine .ite (.ite (hs.setLink rfl) ?_) hs
  unfold rxRowEnd
  extract_lets x h1
  have hs1 : Sealed m h1 := hs.setLink rfl
  split
  · exact hs1.wr.wr
  · exact hs1

/-! ### An ABORT that lets a frame land (O32)

ABORT ends the chain commands of its context (R183, R185); the chains of the region then go on, and only after that the token goes to every link of the context. The statement allows
that in a second step, `svcAdvance`, from a state whose memory is still that before the token. In the state below that cannot be: link 0 is to send the last element of the COPY and
behind it the ABORT. The frame of context 5 lands only when the COPY takes that element from link 32, for the link unit of region 0 has no window of its own; were the ABORT in its place
before the COPY goes on, the element's frame would stand behind it. -/

/-- The largest configuration in RUN, with link 0 UP on lane 0, one credit of TC0 on it, context 0 in RUN with OPID 1 on link 0, and a window for the link unit of region 1 alone. -/
def abortRegs : Hw :=
  let h1 := { Hw.reset with cfg := .kn4L, porN := true }
  let h2 := (h1.wf (PWR_STAT 0) PWR_STAT_STATE psRun).wf BOOT_STAT BOOT_STAT_STEP 9
  let h3 := ((upOn h2 0 0).wf (LN_STAT 0) LN_STAT_DLN 2).wf (LK_CRED 0) (credFld 0) 1
  let h4 := (((h3.sb (CXE_CTL 0) CXE_CTL_V).wf (CXE_CTL 0) CXE_CTL_STATE csRun).wf (CXE_RUN 0) CXE_RUN_OPID 1).wr (CXE_ROLE_LO 0) 1
  (h4.wr (RWIN_LO 1 13 0) 0xE0000000).wr (RWIN_HI 1 13 0) 0x1FFFF

/-- A command of `forwardWords` with one element to come, and on link 32 that element ahead of a frame for a post. -/
def abortLands : Hw :=
  { abortRegs with
    chains := [(0, { Chain.empty with act := [{ startedExec 1 forwardWords [] with idx := 1 }] })]
    lanes := [(0, { LaneSt.zero with desk := true })]
    links := [(32, { LinkSt.empty with rbuf := [{ dataFrame 0 1 [0, 0, 0, 0] with ctx := 5 }, { dataFrame 1 0 [1] with ctx := 5 }], posts := [⟨5, 1, false, 0x100, 64, 0⟩] })]
    ctxs := [(0, { CtxSt.empty with run := some combRun })] }

/-- That state once the ABORT has come. -/
def abortLanded : Hw := typedFrame ftTOKEN (some 3) 0 0 peerAbort noAck abortLands

set_option maxRecDepth 20000 in
theorem abortLands_taken :
    (let h0 := slotTaken abortLands 0 0 noAck
     peerAbort.epoch = h0.rf (LK_STAT 0) LK_STAT_RXEP ∧ h0.hasCtx 0 = true ∧ h0.rb (CXE_CTL 0) CXE_CTL_V = true ∧ h0.cxState 0 = csRun ∧ inRecovery h0 0 = false ∧
       (h0.ctx 0).run = some combRun ∧ peerAbort.offset % 2 ^ 16 = h0.cxOpid 0 ∧ relayFor h0 0 peerAbort = none ∧ h0.mem = []) := by decide

set_option maxRecDepth 20000 in
theorem peerAbort_next : frameNext abortLands 0 0 0 peerAbort noAck = true := by decide

set_option maxRecDepth 20000 in
theorem mem_abortLanded : abortLanded.mem = [(0x100, 1)] := by decide

set_option maxRecDepth 20000 in
theorem txq_abortLanded : (abortLanded.link 0).txq.getLast? = some peerAbort := by decide

set_option maxRecDepth 20000 in
theorem windowsOff_abortLanded : ∀ i, i < 8 → abortLanded.rb (RWIN_LO 0 13 i) RWIN_LO_EN = false := by decide

set_option maxRecDepth 20000 in
theorem act_abortLanded : (abortLanded.chain 0).act.length = 1 ∧
    ∀ y ∈ (abortLanded.chain 0).act, y.words = forwardWords ∧ y.svc = none ∧ y.frameIx = 1 ∧ y.ending = none ∧ y.frame = [] ∧ y.idx = 2 := by decide

set_option maxRecDepth 20000 in
theorem idle_abortLanded : ∀ c, c < 8 → 0 < c → (abortLanded.chain c).act = [] := by decide

/-- In that state the command is alone and has sent its last element, and yet a byte has landed. -/
theorem not_sealed_abortLanded : ¬ Sealed (some []) abortLanded := by
  intro hs
  obtain ⟨hone, hall⟩ := act_abortLanded
  obtain ⟨y, hy⟩ := List.length_eq_one_iff.mp hone
  obtain ⟨hwords, hsvc, hix, hending, hframe, hidx⟩ := hall y (hy ▸ List.mem_singleton_self y)
  have hlone : Lone abortLanded y := ⟨hy, fun c hc0 hc8 => idle_abortLanded c hc8 hc0⟩
  have hfwd : Forwards y := ⟨hwords, hsvc, hix ▸ by decide⟩
  obtain hundone | hmem := hs.mem y hlone hfwd windowsOff_abortLanded txq_abortLanded
  · simp [Undone, hending, hframe, hidx] at hundone
  · rw [mem_abortLanded] at hmem
    exact absurd hmem (by decide)

/-- Refutes O32: ABORT in `abortLands` leaves a state that `svcAdvance` reaches from none with the memory as it was and the ending of context 0 decided. -/
theorem not_tokensReachTheirContext : ¬ Obligations.TokensReachTheirContext := by
  unfold Obligations.TokensReachTheirContext
  intro hall
  obtain ⟨hepoch, hctx, hvalid, hstate, hrecovery, hrun, hopid, hrelay, hmem0⟩ := abortLands_taken
  obtain ⟨-, hnotFence⟩ := hall ⟨abortLands, []⟩ 0 0 0 peerAbort noAck rfl rfl hepoch rfl hctx hvalid
  obtain ⟨-, -, habort, -⟩ := hnotFence (hstate ▸ by decide)
  obtain ⟨h1, -, ⟨hended, -, -, hmem⟩, hleft⟩ := (gives_iff_of_onClock rfl rfl).mp (habort combRun ⟨peerAbort_next, hrelay⟩ hrecovery hstate hrun rfl hopid)
  have hs1 : Sealed (some []) h1 := by
    obtain ⟨u, hu, hue⟩ := Option.map_eq_some_iff.mp hended
    exact ⟨⟨u, hu, Option.isSome_of_eq_some (Prod.mk.inj hue).2⟩, fun _ _ _ _ _ => .inr (congrArg some (hmem.trans hmem0).symm)⟩
  have hlanded : abortLanded = slotRead (svcAdvance h1 0) 0 0 true := hleft
  exact not_sealed_abortLanded (hlanded ▸ hs1.svcAdvance.slotRead)

end Sys2Proof.Proofs.AbortOrder
end

section
/-!
SUPPORT. The lane and link family (chapter 6): the states that refute O33, O34, O35 and O36.
-/
namespace Sys2Proof.Proofs.Links
open Sys2Proof Sys2Proof.Machine Sys2Proof.Proofs.Scope Sys2Proof.Proofs.Collectives

/-! ### A link that goes DOWN and lets a frame land (O33, O34, O35)

A link that goes DOWN ends the chain commands that use it LINK_DOWN (R98, R220), and the other chains of the region may then go on. In the state below the next frame of link 1 belongs
to a COMB that waits for link 0 too. When link 0 goes DOWN that COMB ends, the COPY on chain 1 takes the frame out of the receive buffer (R97, R213), and the frame behind it lands in its
post in the same tick (R175, R211): a byte of memory changes. The three statements say that the memory stays as it is, whichever way the link goes DOWN: by a DOWN frame (R220), by a
LANESET that has no answer for 10 µs (R224), or by LK_CTL.DOWN (R220). -/

/-- Link 0 in CHANGE on lane 0, with a LANESET that left at TB 0 and has had no answer; the COMB on chain 0, the COPY on chain 1, and on link 1 the COMB's next frame ahead of one for a post. -/
def landsAtLinkDown : Hw :=
  { (boundaryRegs.wf (LN_STAT 0) LN_STAT_DLN 2).wf (LK_STAT 0) LK_STAT_STATE lsChange with
    chains := [(0, { Chain.empty with act := [startedExec 1 combWords [[0, 0, 0, 0]]] }), (1, { Chain.empty with act := [startedExec 2 copyWords []] })]
    lanes := [(0, { LaneSt.zero with desk := true })]
    links := [(0, { LinkSt.empty with newSet := some 1, lsSent := true }),
      (1, { LinkSt.empty with rbuf := [dataFrame 0 1 [0, 0, 0, 0], dataFrame 1 0 [1]], posts := [⟨0, 1, false, 0x100, 64, 0⟩] })] }

/-- A DOWN frame. -/
def downFrame : Frame := { Frame.blank with typ := ftLCTL, fmt := 8 }

/-- Frond 0 as a supervisor of the keeper world. -/
def keeperSup0 : Who := { agent := .frond 0, world := .keeper, sup := true }

/-- The frame is the next in order of link 0. -/
theorem downFrame_next : frameNext landsAtLinkDown 0 0 0 downFrame noAck = true := by decide

theorem mem_before_downFrame : (slotTaken landsAtLinkDown 0 0 noAck).mem = [] := by decide

theorem lkCtl_granted : regGrant landsAtLinkDown keeperSup0 (LK_CTL 0) true = true := by decide

set_option maxRecDepth 20000 in
/-- The frame behind the COMB's has landed once link 0 has read DOWN. -/
theorem mem_after_downFrame : (typedFrame ftLCTL (some 8) 0 0 downFrame noAck landsAtLinkDown).mem = [(0x100, 1)] := by decide

set_option maxRecDepth 20000 in
/-- It has landed once the LANESET has timed out. -/
theorem mem_after_lanesetTimeout : (lanesetTimeout 0 landsAtLinkDown).mem = [(0x100, 1)] := by decide

set_option maxRecDepth 20000 in
/-- It has landed once LK_CTL.DOWN is written. -/
theorem mem_after_linkDownCmd : (linkDownCmd keeperSup0 0 2 landsAtLinkDown).mem = [(0x100, 1)] := by decide

/-- Refutes O33: a DOWN frame on link 0 in `landsAtLinkDown` writes the byte at 0x100. -/
theorem not_linkControlFramesActOnTheirLink : ¬ Obligations.LinkControlFramesActOnTheirLink := by
  unfold Obligations.LinkControlFramesActOnTheirLink
  intro hall
  obtain ⟨-, -, -, -, -, -, -, -, hdown⟩ := hall ⟨landsAtLinkDown, []⟩ 0 0 0 downFrame noAck rfl rfl
  obtain ⟨-, -, hmem⟩ := (gives_iff_of_onClock rfl rfl).mp (hdown downFrame_next)
  rw [mem_after_downFrame, mem_before_downFrame] at hmem
  exact absurd hmem (by decide)

/-- Refutes O34: LANESET_TIMEOUT of link 0 in `landsAtLinkDown` writes the byte at 0x100. -/
theorem not_framesAreSentAndTimeOut : ¬ Obligations.FramesAreSentAndTimeOut := by
  unfold Obligations.FramesAreSentAndTimeOut
  intro hall
  obtain ⟨-, -, -, hlate⟩ := hall ⟨landsAtLinkDown, []⟩ 0 rfl rfl
  obtain ⟨-, -, hmem⟩ := (gives_iff_of_onClock rfl rfl).mp (hlate rfl rfl rfl (by decide))
  rw [mem_after_lanesetTimeout] at hmem
  exact absurd hmem (by decide)

/-- Refutes O35: LINK_DOWN_CMD of link 0 in `landsAtLinkDown` writes the byte at 0x100. -/
theorem not_linksAreBroughtUpAndDown : ¬ Obligations.LinksAreBroughtUpAndDown := by
  unfold Obligations.LinksAreBroughtUpAndDown
  intro hall
  obtain ⟨hctl, -⟩ := hall ⟨landsAtLinkDown, []⟩ 0 rfl
  obtain ⟨-, hdown, -⟩ := hctl keeperSup0 2 lkCtl_granted rfl
  have hgives := hdown rfl rfl rfl (by decide)
  rw [gives_iff_of_onWrite rfl lkCtl_granted, whenSet_of_set rfl] at hgives
  obtain ⟨-, -, hmem⟩ := hgives
  rw [mem_after_linkDownCmd] at hmem
  exact absurd hmem (by decide)

/-! ### A scan started by a write that also clears (O36)

SCAN and CLR are two triggers of one register. The statement's clause about SCAN says that the lanes stay as they are, and does not ask that CLR = 0. A write of both starts the scan and
also clears the span of symbols compared (R226), of which the lane holds the part below the unit of LT_UI. -/

/-- Lane 2, of no link, whose test engine `keeperSup0` holds and whose checker has compared 5 quarter symbols. -/
def spanCounted : Hw := { boundaryRegs.wr (LT_CLAIM 2) 0x80020000 with lanes := [(2, { LaneSt.zero with ui := 5 })] }

theorem ltCtl_granted : regGrant spanCounted keeperSup0 (LT_CTL 2) true = true := by decide

/-- LT_CTL with SCAN and CLR clears the span. -/
theorem ui_after_scanAndClear : ((ltScan keeperSup0 2 3 spanCounted).lane 2).ui = 0 := by decide

/-- Refutes O36: LT_SCAN with CLR set in `spanCounted` changes lane 2. -/
theorem not_laneTestEngines : ¬ Obligations.LaneTestEngines := by
  unfold Obligations.LaneTestEngines
  intro hall
  obtain ⟨hctl, -⟩ := hall ⟨spanCounted, []⟩ 2 rfl
  obtain ⟨hscan, -⟩ := hctl keeperSup0 3 ltCtl_granted
  have hgives := hscan (by decide) rfl
  rw [gives_iff_of_onWrite rfl ltCtl_granted, whenSet_of_set rfl] at hgives
  obtain ⟨-, -, -, hlanes, -⟩ := hgives
  have hui : ((ltScan keeperSup0 2 3 spanCounted).lane 2).ui = (spanCounted.lane 2).ui := by rw [Hw.lane, hlanes, Hw.lane]
  rw [ui_after_scanAndClear] at hui
  exact absurd hui (by decide)

end Sys2Proof.Proofs.Links
end

section
/-!
SUPPORT. A queue is configured and its doorbells are rung (R246 to R251): the registers that a start, a refusal, a stop and a doorbell leave.
-/
namespace Sys2Proof.Machine

/-! ### The registers of the queues (R246, R515) -/

section
variable {p q : Nat}

theorem SQ_STAT_inj : SQ_STAT p = SQ_STAT q ↔ p = q := by
  unfold SQ_STAT
  omega

theorem SQ_STAT_ne_SQ_CFG : SQ_STAT p ≠ SQ_CFG q := by
  unfold SQ_STAT SQ_CFG
  omega

theorem SQ_STAT_ne_SQ_FETCH : SQ_STAT p ≠ SQ_FETCH q := by
  unfold SQ_STAT SQ_FETCH
  omega

theorem DB_SQ_ne_DB_CQ : DB_SQ p ≠ DB_CQ q := by
  unfold DB_SQ DB_CQ
  omega

/-- The registers of the queue engine lie below the doorbells. -/
theorem SQ_STAT_lt (hq : q < 1024) : SQ_STAT q < 0x21000000 := by
  unfold SQ_STAT
  omega

theorem SQ_FETCH_lt (hq : q < 1024) : SQ_FETCH q < 0x21000000 := by
  unfold SQ_FETCH
  omega

theorem le_DB_SQ : 0x21000000 ≤ DB_SQ q := by
  unfold DB_SQ
  omega

theorem le_DB_CQ : 0x21000000 ≤ DB_CQ q := by
  unfold DB_CQ
  omega

theorem doorbell_ne_PWR_STAT {r : Nat} (hq : q < 1024) : DB_SQ q ≠ PWR_STAT r ∧ DB_CQ q ≠ PWR_STAT r := by
  unfold DB_SQ DB_CQ PWR_STAT
  omega

end

/-! ### A start and a stop (R246 to R251) -/

section
variable (h : Hw) (q : Nat)

/-- A queue's registers as its start leaves them, the configuration being written before. -/
def startedRegs : Hw :=
  (((((h.sb (SQ_CFG q) SQ_CFG_EN).wr (DB_SQ q) 0).wr (DB_CQ q) 0).wr (SQ_FETCH q) 0).wf (SQ_STAT q) SQ_STAT_INFL 0).wf (SQ_STAT q) SQ_STAT_STATE sqRun

theorem startedRegs_stat : (startedRegs h q).sqState q = sqRun ∧ (startedRegs h q).rf (SQ_STAT q) SQ_STAT_INFL = 0 :=
  ⟨Hw.rf_wf_same _ _ rfl _, (Hw.rf_wf_apart _ _ rfl rfl _).trans (Hw.rf_wf_same _ _ rfl 0)⟩

theorem startedRegs_indices (hq : q < 1024) :
    (startedRegs h q).rd (DB_SQ q) = 0 ∧ (startedRegs h q).rd (DB_CQ q) = 0 ∧ (startedRegs h q).rd (SQ_FETCH q) = 0 := by
  have hstat := SQ_STAT_lt hq
  have hfetch := SQ_FETCH_lt hq
  have hsq := le_DB_SQ (q := q)
  have hcq := le_DB_CQ (q := q)
  have hfs : SQ_FETCH q ≠ SQ_STAT q := SQ_FETCH_ne_SQ_STAT q
  unfold startedRegs
  refine ⟨?_, ?_, ?_⟩
  · rw [Hw.rd_wf_other _ _ _ (by omega), Hw.rd_wf_other _ _ _ (by omega), Hw.rd_wr_other _ _ (by omega), Hw.rd_wr_other _ _ DB_SQ_ne_DB_CQ, Hw.rd_wr_same]
  · rw [Hw.rd_wf_other _ _ _ (by omega), Hw.rd_wf_other _ _ _ (by omega), Hw.rd_wr_other _ _ (by omega), Hw.rd_wr_same]
  · rw [Hw.rd_wf_other _ _ _ hfs, Hw.rd_wf_other _ _ _ hfs, Hw.rd_wr_same]

/-- The start of a queue leaves the states of the others. -/
theorem sqState_startedRegs_other {p : Nat} (hp : p < 1024) (hne : p ≠ q) : (startedRegs h q).sqState p = h.sqState p := by
  have hstat : SQ_STAT p ≠ SQ_STAT q := fun he => hne (SQ_STAT_inj.mp he)
  have hlt := SQ_STAT_lt hp
  have hsq := le_DB_SQ (q := q)
  have hcq := le_DB_CQ (q := q)
  unfold startedRegs Hw.sqState
  rw [Hw.rf_wf_other _ _ _ _ hstat, Hw.rf_wf_other _ _ _ _ hstat, Hw.rf_wr_other _ _ _ SQ_STAT_ne_SQ_FETCH, Hw.rf_wr_other _ _ _ (by omega),
    Hw.rf_wr_other _ _ _ (by omega), Hw.sb, Hw.rf_wf_other _ _ _ _ SQ_STAT_ne_SQ_CFG]

/-- A write of SQ_CFG leaves the states of all queues. -/
theorem sqState_wr_SQ_CFG (p : Nat) (v : W32) : (h.wr (SQ_CFG q) v).sqState p = h.sqState p := Hw.rf_wr_other _ _ _ SQ_STAT_ne_SQ_CFG

end

section
variable {h : Hw} {w : Who} {q : Nat} {v : W32} (hq : h.hasQueue q = true) (hw : sqWriter w = true)
include hq hw

/-- EN = 1 with a legal binding, sizes and rings starts a queue that is off. -/
theorem queueEnable_starts (hen : fldGet SQ_CFG_EN v = 1) (hoff : h.sqState q = sqOff) (hbind : fldGet SQ_CFG_BIND v = 1 ∨ fldGet SQ_CFG_BIND v = 2)
    (hsq4 : 4 ≤ fldGet SQ_CFG_SQSZ v) (hsq14 : fldGet SQ_CFG_SQSZ v ≤ 14) (hcq4 : 4 ≤ fldGet SQ_CFG_CQSZ v) (hcq14 : fldGet SQ_CFG_CQSZ v ≤ 14)
    (hsq : ringOk (h.wr (SQ_CFG q) (v &&& sqCfgMask)) (q / 256) ((h.wr (SQ_CFG q) (v &&& sqCfgMask)).rdPair (SQ_BASE_LO q) (SQ_BASE_HI q)) (64 * 2 ^ fldGet SQ_CFG_SQSZ v) = true)
    (hcq : ringOk (h.wr (SQ_CFG q) (v &&& sqCfgMask)) (q / 256) ((h.wr (SQ_CFG q) (v &&& sqCfgMask)).rdPair (CQ_BASE_LO q) (CQ_BASE_HI q)) (32 * 2 ^ fldGet SQ_CFG_CQSZ v) = true) :
    queueEnable w q v h = (startedRegs (h.wr (SQ_CFG q) (v &&& sqCfgMask)) q).setQueue q { QueueSt.empty with joins := (h.queue q).joins, stampTB := h.tb.toNat } := by
  have hbound : (fldGet SQ_CFG_BIND v == 1 || fldGet SQ_CFG_BIND v == 2) = true := by simpa using hbind
  simp only [queueEnable, hq, hw, hen, hoff, hbound, hsq4, hsq14, hcq4, hcq14, hsq, hcq, decide_true, Bool.and_self, bne_self_eq_false, Bool.not_true, Bool.or_self,
    show ((1 : Nat) == 0) = false from rfl, Bool.false_eq_true, if_false, if_true]
  rfl

/-- EN = 1 without a binding only reports it. -/
theorem queueEnable_unbound (hen : fldGet SQ_CFG_EN v = 1) (hoff : h.sqState q = sqOff) (hbind : fldGet SQ_CFG_BIND v = 0) :
    queueEnable w q v h = (h.wr (SQ_CFG q) (v &&& sqCfgMask)).sb (SQ_STAT q) SQ_STAT_CFGERR := by
  simp [queueEnable, hq, hw, hen, hoff, hbind]

/-- EN = 0 on a running queue without commands turns it off, or lets it drain. -/
theorem queueDisable_eq (hen : fldGet SQ_CFG_EN v = 0) (hrun : h.sqState q = sqRun) (hjoins : (h.queue q).joins = []) (herr : (h.queue q).toErr = false) :
    queueDisable w q v h =
      (h.wf (SQ_CFG q) SQ_CFG_EN 0).wf (SQ_STAT q) SQ_STAT_STATE (if (h.queue q).ended.all (fun x => x.2) then sqOff else sqDrain) := by
  have hissued : sqIssued (h.wf (SQ_CFG q) SQ_CFG_EN 0) q = 0 ↔ (h.queue q).ended.all (fun x => x.2) = true := by
    show ((h.queue q).ended.filter (fun e => !e.2)).length = 0 ↔ _
    simp [List.filter_eq_nil_iff]
  have hunfold : queueDisable w q v h = queueTidy ((h.wf (SQ_CFG q) SQ_CFG_EN 0).wf (SQ_STAT q) SQ_STAT_STATE
      (if sqIssued (h.wf (SQ_CFG q) SQ_CFG_EN 0) q = 0 then sqOff else sqDrain)) q := by
    simp [queueDisable, hq, hw, hen, hrun, sqRun, sqOff, sqDrain]
  rw [hunfold]
  refine (queueTidy_eq_of_empty ?_ ?_).trans ?_
  · exact hjoins
  · exact herr
  · simp only [hissued]

end

/-! ### The doorbells (R249, R251) -/

section
variable {h : Hw} {q : Nat} (hq : h.hasQueue q = true)
include hq

/-- Both doorbells of a queue lie in the window of its region. -/
theorem blockOf_doorbell {o : Nat} (ho : o < 0x1000) : (blockOf h (DB_SQ q + o)).map (·.1) = some (.db (q / 256)) := by
  have hlt := Hw.lt_of_hasQueue hq
  have hrgn : h.hasRegion (q / 256) = true := by
    have hn : q < 256 * h.nRegions := of_decide_eq_true hq
    exact decide_eq_true (by omega)
  have hblk : (DB_SQ q + o) / 0x100000 = 0x210 + q / 256 := by
    unfold DB_SQ
    omega
  obtain hr | hr | hr | hr : q / 256 = 0 ∨ q / 256 = 1 ∨ q / 256 = 2 ∨ q / 256 = 3 := by omega
  all_goals
    rw [hr] at hrgn hblk ⊢
    unfold blockOf
    simp only [hblk, hrgn, if_true]
    rfl

end

/-- A doorbell write goes through when its window is served and the agent may use it. -/
theorem gives_iff_of_onDoorbell {i : Instr} {s : State} {f : Hw → Hw} {P : Hw → Prop} {w : Who} {a : Nat} {b : Blk} (he : exec i s = onDoorbell s w a f)
    (hb : (blockOf s.hw a).map (·.1) = some b) (hg : (blkServed s.hw b && fabricRuns s.hw w b && whoValid s.hw w) = true) : Gives i s P ↔ P (f s.hw) := by
  obtain ⟨⟨b', o⟩, hblk, rfl⟩ := Option.map_eq_some_iff.mp hb
  rw [gives_iff_of_always he, hblk]
  simp only [hg, if_true]

section
variable {h : Hw} {w : Who} {q : Nat} {v : W32} (hq : h.hasQueue q = true) (hrun : h.sqState q = sqRun) (hlive : h.rgnState (q / 256) ≠ 5)
  (hworld : dbWorldOk h q w = true)
include hq

theorem rf_idleLeave_doorbell (r : Nat) (f : Fld) : (h.idleLeave r).rf (DB_SQ q) f = h.rf (DB_SQ q) f ∧ (h.idleLeave r).rf (DB_CQ q) f = h.rf (DB_CQ q) f := by
  obtain ⟨hsq, hcq⟩ := doorbell_ne_PWR_STAT (r := r) (Hw.lt_of_hasQueue hq)
  unfold Hw.idleLeave
  split
  · exact ⟨h.rf_wf_other _ _ _ hsq, h.rf_wf_other _ _ _ hcq⟩
  · exact ⟨rfl, rfl⟩

/-- DB_SQ beyond the ring only reports it. -/
theorem dbSq_refused (hbeyond : 2 ^ h.rf (SQ_CFG q) SQ_CFG_SQSZ < idxDiff (fldGet DB_SQ_TAIL v) (h.rf (DB_SQ q) DB_SQ_HEAD)) :
    dbSq w q v h = h.sb (SQ_STAT q) SQ_STAT_DBERR := by
  simp only [dbSq, hq, decide_eq_false (Nat.not_le.mpr hbeyond), Bool.and_false, Bool.false_and, Bool.not_true, Bool.false_eq_true, if_false]

include hrun hlive hworld

/-- DB_SQ within the ring moves TAIL. -/
theorem dbSq_taken (hhead : idxDiff (fldGet DB_SQ_TAIL v) (h.rf (DB_SQ q) DB_SQ_HEAD) ≤ 2 ^ h.rf (SQ_CFG q) SQ_CFG_SQSZ)
    (htail : idxDiff (fldGet DB_SQ_TAIL v) (h.rf (DB_SQ q) DB_SQ_TAIL) ≤ 2 ^ h.rf (SQ_CFG q) SQ_CFG_SQSZ) :
    ∃ qs n, dbSq w q v h = { (h.wf (DB_SQ q) DB_SQ_TAIL (fldGet DB_SQ_TAIL v)).idleLeave (q / 256) with queues := qs, seq := n } := by
  simp only [dbSq, hq, hrun, hworld, bne_iff_ne.mpr hlive, hhead, htail, beq_self_eq_true, decide_true, Bool.and_self, Bool.not_true, Bool.false_eq_true, if_false, if_true]
  split
  · exact ⟨_, _, rfl⟩
  · exact ⟨_, _, rfl⟩

/-- DB_CQ no further than the tail moves CQ_HEAD. -/
theorem dbCq_taken (hhead : idxDiff (h.rf (DB_CQ q) DB_CQ_CQ_TAIL) (fldGet DB_CQ_CQ_HEAD v) ≤ idxDiff (h.rf (DB_CQ q) DB_CQ_CQ_TAIL) (h.rf (DB_CQ q) DB_CQ_CQ_HEAD)) :
    dbCq w q v h = (h.wf (DB_CQ q) DB_CQ_CQ_HEAD (fldGet DB_CQ_CQ_HEAD v)).idleLeave (q / 256) := by
  simp only [dbCq, hq, hrun, hworld, bne_iff_ne.mpr hlive, hhead, beq_self_eq_true, Bool.true_or, decide_true, Bool.and_self, Bool.not_true, Bool.false_eq_true, if_false, if_true]

end

/-- A field read from a word fits its width. -/
theorem fldGet_mod (f : Fld) (hf : fldInWord f = true) (v : W32) : fldGet f v % 2 ^ f.w = fldGet f v := by
  simp only [fldInWord, Bool.and_eq_true, decide_eq_true_eq] at hf
  have hwidth : f.lo + f.w - 1 + 1 - f.lo = f.w := by omega
  rw [fldGet, bits, hwidth, Nat.mod_mod]

end Sys2Proof.Machine

namespace Sys2Proof.Proofs.Queues
open Sys2Proof Sys2Proof.Machine

/-- Settles O27: what each of the four writes leaves of the queue's registers, behind the grants of its window. -/
theorem queuesAreConfiguredAndRung : Obligations.QueuesAreConfiguredAndRung := by
  unfold Obligations.QueuesAreConfiguredAndRung
  intro s w q v hq h ring
  have hlt : q < 1024 := Hw.lt_of_hasQueue hq
  constructor
  · intro hg hw h1 k j
    refine ⟨?_, ?_, ?_⟩
    · intro hen hoff hbind hk4 hk14 hj4 hj14 hsq hcq
      have hx := queueEnable_starts hq hw hen hoff hbind hk4 hk14 hj4 hj14 hsq hcq
      obtain ⟨hstate, hinfl⟩ := startedRegs_stat h1 q
      obtain ⟨htail, hcqidx, hfetch⟩ := startedRegs_indices h1 q hlt
      rw [gives_iff_of_onWrite rfl hg, hx]
      exact ⟨hstate, htail, hcqidx, hfetch, hinfl, rfl, fun p hp hne => (sqState_startedRegs_other h1 q hp hne).trans (sqState_wr_SQ_CFG h q p _)⟩
    · intro hen hoff hbind
      rw [gives_iff_of_onWrite rfl hg, queueEnable_unbound hq hw hen hoff hbind]
      exact ⟨Hw.rb_sb_same _ _ rfl, (Hw.rf_wf_apart _ _ rfl rfl _).trans ((sqState_wr_SQ_CFG h q q _).trans hoff), rfl⟩
    · intro hen hrun hjoins herr
      rw [gives_iff_of_onWrite rfl hg, queueDisable_eq hq hw hen hrun hjoins herr]
      refine ⟨(Hw.rf_wf_same _ _ rfl _).trans ?_, ?_, rfl⟩
      · split <;> rfl
      · exact (Hw.rb_wf_other _ _ _ _ SQ_STAT_ne_SQ_CFG.symm).trans (congrArg (· == 1) (Hw.rf_wf_same _ _ rfl 0))
  · intro hring hrun hlive hworld t sz
    have hsqBlock : (blockOf h (DB_SQ q)).map (·.1) = some (.db (q / 256)) := blockOf_doorbell hq (o := 0) (by decide)
    have hcqBlock : (blockOf h (DB_CQ q)).map (·.1) = some (.db (q / 256)) := blockOf_doorbell hq (o := 4) (by decide)
    have hopen : (blkServed h (.db (q / 256)) && fabricRuns h w (.db (q / 256)) && whoValid h w) = true := by
      obtain ⟨⟨b, o⟩, hb, hfst⟩ := Option.map_eq_some_iff.mp hsqBlock
      simp only [ring, hb, Option.any_some] at hring
      exact hfst ▸ hring
    refine ⟨fun hhead htail => ?_, fun hbeyond => ?_, fun hhead => ?_⟩
    · obtain ⟨qs, n, hdb⟩ := dbSq_taken hq hrun hlive hworld hhead htail
      have hidle := fun f => (rf_idleLeave_doorbell (h := h.wf (DB_SQ q) DB_SQ_TAIL t) (q := q) hq (q / 256) f).1
      rw [gives_iff_of_onDoorbell rfl hsqBlock hopen, hdb]
      refine ⟨(hidle _).trans ((Hw.rf_wf_same _ _ rfl _).trans (fldGet_mod _ rfl v)), (hidle _).trans (Hw.rf_wf_apart _ _ rfl rfl _), ?_⟩
      exact (idleLeave_frame (h.wf (DB_SQ q) DB_SQ_TAIL t) (q / 256)).1
    · rw [gives_iff_of_onDoorbell rfl hsqBlock hopen]
      exact dbSq_refused hq hbeyond
    · have hidle := fun f => (rf_idleLeave_doorbell (h := h.wf (DB_CQ q) DB_CQ_CQ_HEAD (fldGet DB_CQ_CQ_HEAD v)) (q := q) hq (q / 256) f).2
      rw [gives_iff_of_onDoorbell rfl hcqBlock hopen, dbCq_taken hq hrun hlive hworld hhead]
      exact ⟨(hidle _).trans ((Hw.rf_wf_same _ _ rfl _).trans (fldGet_mod _ rfl v)), (hidle _).trans (Hw.rf_wf_apart _ _ rfl rfl _),
        (idleLeave_frame (h.wf (DB_CQ q) DB_CQ_CQ_HEAD (fldGet DB_CQ_CQ_HEAD v)) (q / 256)).1⟩

end Sys2Proof.Proofs.Queues
end

section
/-!
SUPPORT. Requests of the host (R229 to R243): what the port records of a request and its answer, and the access to the cushion behind it.
-/
namespace Sys2Proof.Machine

/-! ### The records of a port (R235, R239) -/

/-- The blocks differ in the register file and the byte counts of the host ports at most. -/
def HostRegsOnly (h h' : Hw) : Prop := h' = { h with regs := h'.regs, hpAcc := h'.hpAcc }

namespace HostRegsOnly

variable {h h1 h2 : Hw}

theorem refl (h : Hw) : HostRegsOnly h h := rfl

theorem trans (h01 : HostRegsOnly h h1) (h12 : HostRegsOnly h1 h2) : HostRegsOnly h h2 := by
  unfold HostRegsOnly at *
  rw [h12, h01]

theorem wf (h : Hw) (a : Nat) (f : Fld) (n : Nat) : HostRegsOnly h (h.wf a f n) := rfl

theorem hpBytes (h : Hw) (p : Nat) (outb : Bool) (n : Nat) : HostRegsOnly h (hpBytes h p outb n) := by
  unfold Machine.hpBytes
  extract_lets acc v h1
  split <;> rfl

theorem hpCapture (h : Hw) (p : Nat) (sdir : Bool) (st op cls tag addr : Nat) : HostRegsOnly h (hpCapture h p sdir st op cls tag addr) := by
  unfold Machine.hpCapture
  split <;> rfl

section
variable (hk : HostRegsOnly h h1)
include hk

theorem storeSame : StoreSame h h1 := by
  rw [hk]
  exact ⟨rfl, rfl, rfl⟩

theorem mem_fronds : h1.mem = h.mem ∧ h1.fronds = h.fronds := by
  rw [hk]
  exact ⟨rfl, rfl⟩

theorem isMarked (a : Nat) : isMarked h1 a = isMarked h a := by
  rw [hk]
  rfl

theorem inCush (a : Nat) : h1.inCush a = h.inCush a := by
  rw [hk]
  rfl

end

end HostRegsOnly

section
variable (h : Hw) (p : Nat)

theorem rd_hpBytes_other (outb : Bool) (n : Nat) {a : Nat} (hne : a ≠ HP_BYTES p) : (hpBytes h p outb n).rd a = h.rd a := by
  unfold hpBytes
  extract_lets acc v h1
  split
  · rfl
  · exact h1.rd_wf_other _ _ hne

theorem rd_hpCapture_stat (sdir : Bool) (st op cls tag addr : Nat) : (hpCapture h p sdir st op cls tag addr).rd (HP_STAT p) = h.rd (HP_STAT p) := by
  have hinfo : HP_STAT p ≠ HP_ERR_INFO p := by simp [HP_STAT, HP_ERR_INFO]
  have hlo : HP_STAT p ≠ HP_ERR_ADDR_LO p := by simp [HP_STAT, HP_ERR_ADDR_LO]
  have hhi : HP_STAT p ≠ HP_ERR_ADDR_HI p := by simp [HP_STAT, HP_ERR_ADDR_HI]
  unfold hpCapture
  split
  · rfl
  · rw [Hw.rd_wr_other _ _ hhi, Hw.rd_wr_other _ _ hlo, Hw.rd_wr_other _ _ hinfo]

end

/-! ### The answer (R230, R235, R239) -/

section
variable (h : Hw) (port addr tag op : Nat) (write : Bool) (st : Nat) (data : List Byte) (busy : List Bool)

/-- The block in which the answer has gone to the outbound side of the port. -/
def answered : Hw :=
  ({ h with sresp := kvIns h.sresp port ⟨tag, write, st, data, busy⟩ } : Hw).setPo port
    (if write then { h.po port with rsp := (h.po port).rsp ++ [(tag, st, busy.headD false)] } else { h.po port with rd := (h.po port).rd ++ sBeats addr tag st data busy })

/-- The bytes of a read are counted. -/
def answerCounted : Hw := if write then answered h port addr tag write st data busy else hpBytes (answered h port addr tag write st data busy) port true data.length

theorem sAnswer_eq : sAnswer h port addr tag op write st data busy =
    let h2 := answerCounted h port addr tag write st data busy
    let h3 := if st = 1 ∨ st = 2 then h2.sb (HP_STAT port) HP_STAT_SREF else h2
    if st = 0 then h3 else hpCapture h3 port true st op 0 tag addr := rfl

theorem answerCounted_keeps : HostRegsOnly (answered h port addr tag write st data busy) (answerCounted h port addr tag write st data busy) := by
  unfold answerCounted
  split
  · exact .refl _
  · exact .hpBytes _ port true _

theorem sAnswer_keeps : HostRegsOnly (answered h port addr tag write st data busy) (sAnswer h port addr tag op write st data busy) := by
  rw [sAnswer_eq]
  extract_lets h2 h3
  have hk2 : HostRegsOnly (answered h port addr tag write st data busy) h2 := answerCounted_keeps h port addr tag write st data busy
  have hk3 : HostRegsOnly (answered h port addr tag write st data busy) h3 := by
    unfold h3
    split
    · exact hk2.trans (.wf h2 _ _ _)
    · exact hk2
  split
  · exact hk3
  · exact hk3.trans (.hpCapture h3 port true st op 0 tag addr)

/-- The port presents the answer. -/
theorem sresp_sAnswer : kvFind (sAnswer h port addr tag op write st data busy).sresp port = some ⟨tag, write, st, data, busy⟩ := by
  rw [sAnswer_keeps h port addr tag op write st data busy]
  exact kvFind_kvIns_same _ _ _

theorem sAnswer_frame : (sAnswer h port addr tag op write st data busy).mem = h.mem ∧ (sAnswer h port addr tag op write st data busy).fronds = h.fronds :=
  (sAnswer_keeps h port addr tag op write st data busy).mem_fronds

theorem byteAt_sAnswer (b : Nat) : (sAnswer h port addr tag op write st data busy).byteAt b = h.byteAt b :=
  (sAnswer_keeps h port addr tag op write st data busy).storeSame.byteAt b

theorem rd_answerCounted_stat : (answerCounted h port addr tag write st data busy).rd (HP_STAT port) = h.rd (HP_STAT port) := by
  unfold answerCounted
  split
  · rfl
  · exact rd_hpBytes_other _ port true _ (by simp [HP_STAT, HP_BYTES])

/-- A request that is refused sets SREF. -/
theorem sAnswer_sref (hst : st = 1 ∨ st = 2) : (sAnswer h port addr tag op write st data busy).rb (HP_STAT port) HP_STAT_SREF = true := by
  have hne : st ≠ 0 := by omega
  rw [sAnswer_eq]
  simp only [if_pos hst, if_neg hne]
  rw [Hw.rb, Hw.rf, rd_hpCapture_stat]
  exact Hw.rb_sb_same _ _ rfl

/-- A parity error leaves HP_STAT to the check that found it. -/
theorem rd_sAnswer_stat_of_parity : (sAnswer h port addr tag op write 3 data busy).rd (HP_STAT port) = h.rd (HP_STAT port) := by
  rw [sAnswer_eq]
  simp only [show ¬ (3 = 1 ∨ 3 = 2) by decide, show ¬ 3 = 0 by decide, if_false]
  rw [rd_hpCapture_stat, rd_answerCounted_stat]

end

/-! ### Accesses of the host to the cushion (R50, R51, R57) -/

section
variable (h : Hw) (m : Master) (a : Nat)

/-- A permitted read of good words brings the stored bytes. -/
theorem memRead_good {len : Nat} (hcause : protCause h m a len false = none) (hm : ∀ w ∈ wordsOf a len, isMarked h w = false) :
    memRead h m a len .good [] = (h.idleLeave (memRegion a), 0, h.bytesAt a len) := by
  have hgood : beatRead (h.idleLeave (memRegion a)) m a len .good = (h.idleLeave (memRegion a), false) := by
    rw [beatRead_of_fine _ m a len rfl]
    exact parityRead_good _ m fun w hw => (isMarked_idleLeave h _ w).trans (hm w hw)
  have hundef : ∀ w, meetUndef h a [] w = false := fun w => Bool.and_false _
  have hany : (wordsOf a len).any (meetUndef h a []) = false := List.any_eq_false.mpr fun w _ => by rw [hundef]; exact Bool.false_ne_true
  rw [memRead, hcause]
  simp only [memReadAs, collLog, List.foldl_nil, hgood, hundef, hany, sideHit_fine m a (par := .good) rfl, Bool.false_eq_true, if_false, byteAt_idleLeave]
  rfl

/-- A permitted write of good words stores its bytes. -/
theorem memWriteEn_good {data : List (Option Byte)} (hlen : 0 < data.length) (hcause : protCause h m a data.length true = none)
    (hm : ∀ w ∈ wordsOf a data.length, isMarked h w = false) :
    memWriteEn h m a data .good [] = ((wordsOf a data.length).foldl (writeStep a data) (h.idleLeave (memRegion a)), 0) := by
  have hmax : max 1 data.length = data.length := Nat.max_eq_right hlen
  have hm' : ∀ w ∈ wordsOf a data.length, isMarked (h.idleLeave (memRegion a)) w = false := fun w hw => (isMarked_idleLeave h _ w).trans (hm w hw)
  rw [memWriteEn, hmax, hcause, memWriteAs_permitted h m a data (sideHit_fine m a rfl), hmax, foldl_writeWord_good _ m a data hm']
  rfl

theorem memRegion_lt : memRegion a < 8 := by
  unfold memRegion
  split
  · omega
  · exact Nat.lt_of_lt_of_le (Nat.mod_lt _ (by decide)) (by decide)

theorem any_congr_of_mem {α : Type} {l : List α} {f g : α → Bool} (hfg : ∀ x ∈ l, f x = g x) : l.any f = l.any g := by
  rw [List.any_eq, List.any_eq]
  exact decide_eq_decide.mpr (exists_congr fun x => and_congr_right fun hx => by rw [hfg x hx])

/-- The windows do not hang on the registers of the host ports. -/
theorem win_wf_host {r k i b : Nat} (hr : r < 16) (hk : k < 16) (hi : i < 8) (hb : b / 0x100000 = 0x206) (f : Fld) (n p q : Nat) (write : Bool) :
    winContains (h.wf b f n) r k i p q = winContains h r k i p q ∧ winAllows (h.wf b f n) r k i write = winAllows h r k i write := by
  have hlo : RWIN_LO r k i ≠ b := by
    unfold RWIN_LO
    omega
  have hhi : RWIN_HI r k i ≠ b := by
    unfold RWIN_HI
    omega
  simp only [winContains, winAllows, h.rb_wf_other f _ n hlo, h.rf_wf_other f _ n hlo, h.rf_wf_other f _ n hhi, and_self]

/-- The grants of an access do not hang on the registers of the host ports. -/
theorem protCause_wf_host (hm : (protMaster m).1 < 16) {b : Nat} (hb : b / 0x100000 = 0x206) (f : Fld) (n len : Nat) (write : Bool) :
    protCause (h.wf b f n) m a len write = protCause h m a len write := by
  have hrgn := memRegion_lt a
  have hserved : (h.wf b f n).memServed (memRegion a) = h.memServed (memRegion a) := by
    have hne : PWR_STAT (memRegion a) ≠ b := by
      unfold PWR_STAT
      omega
    simp only [Hw.memServed, Hw.pwrState, h.rf_wf_other f _ n hne]
    rfl
  have htest : underTest (h.wf b f n) a = underTest h a := by
    have hne : MCH_STAT (memRegion a) ≠ b := by
      unfold MCH_STAT
      omega
    unfold underTest
    rw [h.rf_wf_other f _ n hne]
    rfl
  have hmas := protMaster_lt m
  unfold protCause
  generalize protMaster m = rk at hm hmas ⊢
  obtain ⟨r, k⟩ := rk
  have hcontains : ∀ p q, (List.range 8).any (fun i => winContains (h.wf b f n) r k i p q) = (List.range 8).any (fun i => winContains h r k i p q) := fun p q =>
    any_congr_of_mem fun i hi => (win_wf_host h hm hmas (List.mem_range.mp hi) hb f n p q write).1
  have hallows : ∀ p q, (List.range 8).any (fun i => winContains (h.wf b f n) r k i p q && winAllows (h.wf b f n) r k i write) =
      (List.range 8).any (fun i => winContains h r k i p q && winAllows h r k i write) := fun p q =>
    any_congr_of_mem fun i hi => by
      obtain ⟨hin, hok⟩ := win_wf_host h hm hmas (List.mem_range.mp hi) hb f n p q write
      rw [hin, hok]
  simp only [hserved, htest, hcontains, hallows]

theorem protCause_hpBytes (hm : (protMaster m).1 < 16) {p : Nat} (hp : p < 8) (outb : Bool) (n len : Nat) (write : Bool) :
    protCause (hpBytes h p outb n) m a len write = protCause h m a len write := by
  unfold hpBytes
  extract_lets acc v h1
  split
  · rfl
  · refine (protCause_wf_host h1 m a hm ?_ _ _ len write).trans rfl
    unfold HP_BYTES
    omega

end

/-- R1, R229: a configuration has eight host ports at most. -/
theorem Hw.lt_of_hasPort {h : Hw} {p : Nat} (hp : h.hasPort p = true) : p < 8 := by
  have hle : h.cfg.regions ≤ 4 := by cases h.cfg <;> decide
  have hlt : p < 2 * h.cfg.regions := of_decide_eq_true hp
  omega

/-! ### The way of a request (R237, R239) -/

section
variable {h : Hw} {q : HeldReq}

/-- A request whose port has nothing in a fabric waits behind none. -/
theorem hostBehind_eq_none (hwait : ∀ r, r ∈ h.regionList → ∀ x, x ∈ (h.pw r).held → x.port ≠ q.port) : hostBehind h q = none := by
  refine List.find?_eq_none.mpr fun r hr hany => ?_
  obtain ⟨x, hx, hbehind⟩ := List.any_eq_true.mp hany
  have hport : x.port = q.port := by
    simp only [goesBehind, Bool.and_eq_true, beq_iff_eq] at hbehind
    exact hbehind.1
  exact hwait r hr x hx hport

theorem hostDo_of_cushion (hfree : hostBehind h q = none) (hcush : h.inCush q.addr = true) : hostDo h q = hostCush h q := by
  simp only [hostDo, hfree, hcush, if_true]

/-- An offset that is neither cushion nor register is unmapped. -/
theorem hostDo_of_unmapped (hfree : hostBehind h q = none) (hcush : h.inCush q.addr = false) (hpriv : inPriv q.addr = false) (hunpriv : inUnpriv q.addr = false) :
    hostDo h q = sRefuse h q.port q.addr q.len q.tag (b2n q.write) q.write (if q.write then wStat q.bad 2 else 2) := by
  simp only [hostDo, hfree, hcush, hpriv, hunpriv, Bool.or_self, Bool.false_eq_true, if_false]

/-- A READ of good cushion words is answered with the stored bytes, and no beat is busy without a meeting. -/
theorem hostCush_read {port tag addr len : Nat} {priv : Bool} (hcause : protCause h (.hostB port) addr len false = none)
    (hm : ∀ w ∈ wordsOf addr len, isMarked h w = false) :
    hostCush h ⟨port, tag, addr, len, false, priv, [], false, .good, []⟩ =
      sAnswer (h.idleLeave (memRegion addr)) port addr tag 0 false 0 (h.bytesAt addr len) (List.replicate (mBeats addr len) false) := by
  have hbusy : busyBeats addr len [] = List.replicate (mBeats addr len) false := by
    simp [busyBeats]
  simp only [hostCush, memRead_good h _ addr hcause hm, hbusy, Bool.false_eq_true, if_false, show ¬ (0 = 2) by decide, show ¬ (0 = 1) by decide]

theorem goodBytes_nil (addr : Nat) (data : List (Option Byte)) : goodBytes addr data [] = data := by
  refine List.ext_getElem (by simp [goodBytes]) fun i hi hlt => ?_
  simp [goodBytes, hlt]

/-- A WRITE of good cushion words stores its bytes. -/
theorem hostCush_write {port tag addr : Nat} {priv : Bool} {data : List (Option Byte)} (hlen : 0 < data.length)
    (hcause : protCause h (.hostB port) addr data.length true = none) (hm : ∀ w ∈ wordsOf addr data.length, isMarked h w = false) :
    hostCush h ⟨port, tag, addr, data.length, true, priv, data, false, .good, []⟩ =
      sAnswer ((wordsOf addr data.length).foldl (writeStep addr data) (h.idleLeave (memRegion addr))) port addr tag 1 true 0 [] [false] := by
  simp only [hostCush, memWriteEn_good h _ addr hlen hcause hm, if_true, show ¬ (0 = 2) by decide, if_false]
  rfl

end

/-! ### HOST_S_READ and HOST_S_WRITE -/

section
variable {h : Hw} {port : Nat} (hp : h.hasPort port = true) (hrun : hpRunning h port = true)
include hp hrun

theorem hostSRead_good (addr len tag : Nat) (priv : Bool) (par : Par) (meets : List Meet) :
    hostSRead port addr len tag priv false par meets h = hostDo h ⟨port, tag, addr, len, false, priv, [], false, par, meets⟩ := by
  simp only [hostSRead, hp, hrun, Bool.not_true, Bool.or_self, Bool.false_eq_true, if_false]

theorem hostSRead_parity (addr len tag : Nat) (priv : Bool) (par : Par) (meets : List Meet) :
    hostSRead port addr len tag priv true par meets h = sRefuse (h.sb (HP_STAT port) HP_STAT_SPERR) port addr len tag 0 false 3 := by
  simp only [hostSRead, hp, hrun, Bool.not_true, Bool.or_self, Bool.false_eq_true, if_false, if_true]

theorem hostSWrite_good (addr tag : Nat) (priv : Bool) (data : List (Option Byte)) (par : Par) (meets : List Meet) :
    hostSWrite port addr tag 1 priv false data [] par meets h =
      hostDo (hpBytes h port false data.length) ⟨port, tag, addr, data.length, true, priv, data, false, par, meets⟩ := by
  simp only [hostSWrite, hp, hrun, goodBytes_nil, List.isEmpty_nil, Bool.not_true, Bool.or_self, Bool.false_eq_true, if_false, ne_eq, not_true_eq_false]

theorem hostSWrite_cas (addr tag : Nat) (priv : Bool) (data : List (Option Byte)) (par : Par) (meets : List Meet) :
    hostSWrite port addr tag 2 priv false data [] par meets h = sRefuse (hpBytes h port false data.length) port addr 8 tag 2 false 1 := by
  simp only [hostSWrite, hp, hrun, List.isEmpty_nil, Bool.not_true, Bool.or_self, Bool.false_eq_true, if_false, ne_eq, show ¬ (2 = 1) by decide, not_false_eq_true, if_true]
  rfl

end

end Sys2Proof.Machine

namespace Sys2Proof.Proofs.HostRequests
open Sys2Proof Sys2Proof.Machine

/-- Settles O37: a request that waits behind none goes to the cushion, or is refused with its status, and the answer is presented. -/
theorem hostRequestsAreServedOrRefused : Obligations.HostRequestsAreServedOrRefused := by
  unfold Obligations.HostRequestsAreServedOrRefused
  intro s port addr tag priv hclk hp hrun hwait h answer
  have hp8 : port < 8 := Hw.lt_of_hasPort hp
  have hmas : (protMaster (.hostB port)).1 < 16 := by
    simp only [protMaster]
    omega
  refine ⟨fun len hcush hcause hm => ?_, fun len hcush hpriv hunpriv => ?_, fun len par meets => ?_, fun data hlen hcush hcause hm => ?_, fun data par meets => ?_⟩
  · obtain ⟨hmem, hfronds, -⟩ := idleLeave_frame h (memRegion addr)
    rw [gives_iff_of_onClock rfl hclk, hostSRead_good hp hrun, hostDo_of_cushion (hostBehind_eq_none hwait) hcush, hostCush_read hcause hm]
    obtain ⟨hmem', hfronds'⟩ := sAnswer_frame (h.idleLeave (memRegion addr)) port addr tag 0 false 0 (h.bytesAt addr len) (List.replicate (mBeats addr len) false)
    exact ⟨sresp_sAnswer _ port addr tag 0 false 0 _ _, hmem'.trans hmem, hfronds'.trans hfronds⟩
  · rw [gives_iff_of_onClock rfl hclk, hostSRead_good hp hrun, hostDo_of_unmapped (hostBehind_eq_none hwait) hcush hpriv hunpriv]
    obtain ⟨hmem, hfronds⟩ := sAnswer_frame h port addr tag 0 false 2 (List.replicate (beatLen addr len) 0) []
    exact ⟨sresp_sAnswer h port addr tag 0 false 2 _ _, sAnswer_sref h port addr tag 0 false 2 _ _ (.inr rfl), hmem, hfronds⟩
  · rw [gives_iff_of_onClock rfl hclk, hostSRead_parity hp hrun]
    obtain ⟨hmem, hfronds⟩ := sAnswer_frame (h.sb (HP_STAT port) HP_STAT_SPERR) port addr tag 0 false 3 (List.replicate (beatLen addr len) 0) []
    have hperr : (sRefuse (h.sb (HP_STAT port) HP_STAT_SPERR) port addr len tag 0 false 3).rb (HP_STAT port) HP_STAT_SPERR = true := by
      rw [Hw.rb, Hw.rf, sRefuse, rd_sAnswer_stat_of_parity]
      exact Hw.rb_sb_same _ _ rfl
    exact ⟨sresp_sAnswer _ port addr tag 0 false 3 _ _, hperr, hmem, hfronds⟩
  · have hk : HostRegsOnly h (hpBytes h port false data.length) := .hpBytes h port false _
    have hcush' : (hpBytes h port false data.length).inCush addr = true := (hk.inCush addr).trans hcush
    have hwait' : ∀ r, r ∈ (hpBytes h port false data.length).regionList → ∀ x, x ∈ ((hpBytes h port false data.length).pw r).held → x.port ≠ port := by
      rw [hk]
      exact hwait
    have hcause' := (protCause_hpBytes h (.hostB port) addr hmas hp8 false data.length data.length true).trans hcause
    have hm' : ∀ w ∈ wordsOf addr data.length, isMarked (hpBytes h port false data.length) w = false := fun w hw => (hk.isMarked w).trans (hm w hw)
    rw [gives_iff_of_onClock rfl hclk, hostSWrite_good hp hrun, hostDo_of_cushion (hostBehind_eq_none hwait') hcush', hostCush_write hlen hcause' hm']
    generalize hpBytes h port false data.length = h1 at hk
    obtain ⟨-, hfronds⟩ := sAnswer_frame ((wordsOf addr data.length).foldl (writeStep addr data) (h1.idleLeave (memRegion addr))) port addr tag 1 true 0 [] [false]
    obtain ⟨-, hfoldFronds⟩ := foldl_writeStep_frame addr data (h1.idleLeave (memRegion addr)) (wordsOf addr data.length)
    obtain ⟨-, hidleFronds, -⟩ := idleLeave_frame h1 (memRegion addr)
    refine ⟨sresp_sAnswer _ port addr tag 1 true 0 _ _, ((hfronds.trans hfoldFronds).trans hidleFronds).trans hk.mem_fronds.2, fun b => ?_⟩
    rw [byteAt_sAnswer, byteAt_foldl_writeStep addr data _ (fun w hw => (mem_wordsOf.mp hw).1), byteAt_idleLeave, hk.storeSame.byteAt]
    exact givenByte_getD addr hlen b _
  · have hk : HostRegsOnly h (hpBytes h port false data.length) := .hpBytes h port false _
    rw [gives_iff_of_onClock rfl hclk, hostSWrite_cas hp hrun]
    obtain ⟨hmem, hfronds⟩ := sAnswer_frame (hpBytes h port false data.length) port addr tag 2 false 1 (List.replicate (beatLen addr 8) 0) []
    obtain ⟨hmem', hfronds'⟩ := hk.mem_fronds
    exact ⟨⟨_, sresp_sAnswer _ port addr tag 2 false 1 _ _⟩, hmem.trans hmem', hfronds.trans hfronds'⟩

end Sys2Proof.Proofs.HostRequests
end

section
/-!
SUPPORT. The answers of licensee memory (R232 to R238, R496): the state that refutes O38.
-/
namespace Sys2Proof.Proofs.LicenseeMemory
open Sys2Proof Sys2Proof.Machine Sys2Proof.Proofs.Scope

/-! ### A request of a chain that no configuration has (O38)

The loss of the host clock retires the requests of the port (R496), and the chain of a retired request then shows its command in its registers (R76). The statement ranges over every
state and does not ask that a request comes from a chain of the configuration, of which there are 32 at most (R4). The offset at which CHN_DESC_LO of a chain 512 would stand is that
of HP_CRED of port 0 (R515). In the state below the retired request names that chain, whose command has its descriptor at 0x40, and HP_CRED of the port takes the 0x40 after it was
cleared. No configuration reaches such a state: what it refutes is the statement without that condition. -/

/-- Chain 512 with a command whose descriptor lies at 0x40. -/
def strayCopy : Exec := { startedExec 1 copyWords [] with descPA := 2 ^ 52 + 0x40 }

/-- The host clock of port 0 runs, and a progress word of that command is outstanding on it. -/
def strayRequest : Hw :=
  { boundaryRegs.wf CLK_STAT CLK_STAT_HCKP 1 with
    chains := [(512, { Chain.empty with act := [strayCopy] })]
    mreqs := [⟨0, some 0, 1, 0, 8, false, false, 5, [], [], [], 0, 0, 0, .prog 512 1⟩] }

/-- Where the two registers meet. -/
theorem CHN_DESC_LO_eq_HP_CRED : CHN_DESC_LO (512 / 8) (512 % 8) = HP_CRED 0 := rfl

theorem strayRequest_running : strayRequest.hasPort 0 = true ∧ strayRequest.clocked = true ∧ hpRunning strayRequest 0 = true := by decide

/-- After the loss HP_CRED of the port reads the address of the descriptor. -/
theorem cred_after_clockLoss : (hostClockLoss 0 strayRequest).rd (HP_CRED 0) = 0x40 := by decide

/-- Refutes O38: HOST_CLOCK_LOSS of port 0 in `strayRequest` leaves HP_CRED at 0x40, not at 0. -/
theorem not_licenseeMemoryAnswers : ¬ Obligations.LicenseeMemoryAnswers := by
  unfold Obligations.LicenseeMemoryAnswers
  intro hall
  obtain ⟨hport, hclk, hrunning⟩ := strayRequest_running
  obtain ⟨hserved, -, -⟩ := hall ⟨strayRequest, []⟩ 0 0 hclk hport
  obtain ⟨-, -, -, -, hloss⟩ := hserved hrunning
  obtain ⟨-, hcred, -⟩ := (gives_iff_of_onClock rfl hclk).mp hloss
  rw [cred_after_clockLoss] at hcred
  exact absurd hcred (by decide)

end Sys2Proof.Proofs.LicenseeMemory
end

section
/-!
SUPPORT. Address translation (R260 to R274): the state that refutes O39.
-/
namespace Sys2Proof.Proofs.Translation
open Sys2Proof Sys2Proof.Machine Sys2Proof.Proofs.Scope

/-! ### A walk without a directory that lets a frame land (O39)

A demand walk that finds no valid directory ends the command that needs its page TR_PAGE (R260, R263, R268), and the other chains of the region may then go on. In the state below a COMB
on chain 0 awaits its operand B from a page that is not translated, and the next frame of link 1 is one it expects for its operand A. When the walk ends the COMB, the COPY on chain 1
takes the frame out of the receive buffer (R97, R213), and the frame behind it lands in its post in the same step (R175, R211): a byte of memory changes. The statement says that the
memory stays as it is. -/

/-- A COMB of 256 FP32 elements with operand A from link 1 and operand B from memory, to memory. -/
def combMemoryWords : List Nat := [2 * 2 ^ 58 + 2 * 2 ^ 52 + 2 * 2 ^ 46 + 2 * 2 ^ 40 + 2 ^ 36 + 2 ^ 22, 2 ^ 40, 1, 2 ^ 48 + 0x40000, 2 ^ 48 + 0x10000, 0, 0, 0]

/-- The demand walk of the page of operand B, not yet started. -/
def waitingWalk : Walk := ⟨16, .chain 0 1, true, false, .keeper, 0, 0x40000, 4, 0, 0, false, 0, 0, 0, false, false, false, 0⟩

/-- The COMB on chain 0 with that walk waiting, the COPY on chain 1, and on link 1 the COMB's next frame ahead of one for a post; no directory is valid. -/
def landsAtWalkEnd : Hw :=
  { boundaryRegs with
    chains := [(0, { Chain.empty with act := [startedExec 1 combMemoryWords [[0, 0, 0, 0]]] }), (1, { Chain.empty with act := [startedExec 2 copyWords []] })]
    links := [(1, { LinkSt.empty with rbuf := [dataFrame 0 1 [0, 0, 0, 0], dataFrame 1 0 [1]], posts := [⟨0, 1, false, 0x100, 64, 0⟩] })]
    xlts := [(0, { XltSt.empty with walks := [waitingWalk] })] }

theorem landsAtWalkEnd_works : landsAtWalkEnd.working 0 = true ∧ landsAtWalkEnd.rgnState 0 = 0 ∧ dirBase landsAtWalkEnd 0 .keeper = none := by decide

set_option maxRecDepth 20000 in
/-- The frame behind the COMB's has landed once the walk is over. -/
theorem mem_after_translationWalk : (translationWalk 0 landsAtWalkEnd).mem = [(0x100, 1)] := by decide

/-- Refutes O39: TRANSLATION_WALK in `landsAtWalkEnd` writes the byte at 0x100. -/
theorem not_translationsAreLookedUpAndWalked : ¬ Obligations.TranslationsAreLookedUpAndWalked := by
  unfold Obligations.TranslationsAreLookedUpAndWalked
  intro hall
  obtain ⟨hworks, hrun, hdir⟩ := landsAtWalkEnd_works
  obtain ⟨-, hwalk, -⟩ := hall ⟨landsAtWalkEnd, []⟩ 0 rfl rfl
  obtain ⟨-, hnone⟩ := hwalk waitingWalk hworks hrun rfl (by decide) rfl rfl rfl
  obtain ⟨-, -, hmem⟩ := (gives_iff_of_onClock rfl rfl).mp (hnone hdir (by simp [waitingWalk]))
  rw [mem_after_translationWalk] at hmem
  exact absurd hmem (by decide)

end Sys2Proof.Proofs.Translation
end

section
/-!
SUPPORT. Invalidations, probes and the tenant directory (R260, R276 to R278, R282): what each command leaves, and O40.
-/
namespace Sys2Proof.Machine

/-! ### The moves to XLT.INV and XLT.PRB (R278, R282) -/

section
variable {h : Hw} {f p : Nat}

/-- A supervisor frond that transports its next word fires either trigger, and a barrier that held the word is spent (R307, R316). -/
theorem frondMove_xltTrigger (hp : p = 0x2C1 ∨ p = 0x2C4) (hready : frondReady h f = true) (hsup : stS (h.frond f).st = true) (v : W64) :
    frondMove h f p v = portFire (h.setFrond f (moving h f)) f p v := by
  simp only [frondReady, Bool.and_eq_true, Bool.not_eq_true', beq_iff_eq] at hready
  obtain ⟨⟨⟨⟨⟨hlive, hrun⟩, hhalt⟩, hheld⟩, hfp⟩, hstore⟩ := hready
  have hbad : movePortBad ⟨0, none, .imm v, p⟩ = false := by rcases hp with rfl | rfl <;> rfl
  have hpriv : movePriv ⟨0, none, .imm v, p⟩ (h.frond f).world true (vendorAddr (h.frond f).pc.toNat) = false := by rcases hp with rfl | rfl <;> rfl
  have hmis : lsuMisaligned p v = false := by rcases hp with rfl | rfl <;> rfl
  have htrig : isTrigger p = true := by rcases hp with rfl | rfl <;> rfl
  have hsys : p ≠ 0x380 ∧ p ≠ 0x384 ∧ p ≠ 0x386 ∧ p ≠ 0x320 := by omega
  have hlsu : p ≠ 0x201 ∧ p ≠ 0x202 ∧ p ≠ 0x203 ∧ p ≠ 0x204 ∧ p ≠ 0x206 ∧ p ≠ 0x207 ∧ ¬ p ≤ 0x204 := by omega
  simp [frondMove, hlive, hrun, hhalt, hheld, hfp, hstore, hbad, hsup, hpriv, hmis, htrig, hsys, hlsu, moving]

theorem exec_xltInv (f : Nat) (v : W64) (s : State) : exec (.xltInv f v) s = always s (fun h => frondMove h f 0x2C1 v) := rfl

theorem exec_xltPrb (f : Nat) (v : W64) (s : State) : exec (.xltPrb f v) s = always s (fun h => frondMove h f 0x2C4 v) := rfl

theorem portFire_xltInv (h : Hw) (f : Nat) (v : W64) : portFire h f 0x2C1 v = xltInvOp h f v := by simp [portFire]

theorem portFire_xltPrb (h : Hw) (f : Nat) (v : W64) : portFire h f 0x2C4 v = xltPrbOp h f v := by simp [portFire]

variable {s : State} {v : W64} {P : Hw → Prop}

theorem gives_xltInv_iff (hready : frondReady s.hw f = true) (hsup : stS (s.hw.frond f).st = true) :
    Gives (.xltInv f v) s P ↔ P (xltInvOp (s.hw.setFrond f (moving s.hw f)) f v) := by
  rw [gives_iff_of_always (exec_xltInv f v s), frondMove_xltTrigger (.inl rfl) hready hsup, portFire_xltInv]

theorem gives_xltPrb_iff (hready : frondReady s.hw f = true) (hsup : stS (s.hw.frond f).st = true) :
    Gives (.xltPrb f v) s P ↔ P (xltPrbOp (s.hw.setFrond f (moving s.hw f)) f v) := by
  rw [gives_iff_of_always (exec_xltPrb f v s), frondMove_xltTrigger (.inr rfl) hready hsup, portFire_xltPrb]

end

/-! ### The unit's figures -/

/-- XLT_STAT.WALKS, INVQ and INVBUSY follow the unit; nothing but registers changes. -/
theorem xltSync_frame (h : Hw) (r : Nat) :
    (xltSync h r).mem = h.mem ∧ (xltSync h r).fronds = h.fronds ∧ (xltSync h r).chains = h.chains ∧ (xltSync h r).xlts = h.xlts := ⟨rfl, rfl, rfl, rfl⟩

theorem xlt_xltSync (h : Hw) (r q : Nat) : (xltSync h r).xlt q = h.xlt q := by
  obtain ⟨-, -, -, hxlts⟩ := xltSync_frame h r
  rw [Hw.xlt, hxlts, Hw.xlt]

theorem xltSync_invdone (h : Hw) (r : Nat) : (xltSync h r).rb (XLT_STAT r) XLT_STAT_INVDONE = h.rb (XLT_STAT r) XLT_STAT_INVDONE := by
  rw [Hw.rb, xltSync, Hw.rf_wf_apart _ _ rfl rfl, Hw.rf_wf_apart _ _ rfl rfl, Hw.rf_wf_apart _ _ rfl rfl, Hw.rb]

theorem missCount_frame (h : Hw) (r : Nat) :
    (missCount h r).mem = h.mem ∧ (missCount h r).fronds = h.fronds ∧ ((missCount h r).xlt r).walks = (h.xlt r).walks := by
  unfold missCount
  extract_lets x m h1
  have hwalks : (h1.xlt r).walks = (h.xlt r).walks := by rw [Hw.xlt_setXlt_same]
  split
  · exact ⟨rfl, rfl, hwalks⟩
  · exact ⟨rfl, rfl, hwalks⟩

/-! ### An invalidation begins (R276, R277) -/

/-- An invalidation of the unit is the one named, it has begun, and no cached translation that an invalidation names is left. -/
def Purged (x : XltSt) (kind : Nat) (w : World) (asid va : Nat) : Prop :=
  x.inv.map (fun i => (i.kind, i.world, i.asid, i.va, i.begun)) = [(kind, w, asid, va, true)] ∧ ∀ k e, (k, e) ∈ x.tc → ∀ i, i ∈ x.inv → i.hits e = false

/-- The unit once its only invalidation has begun. -/
def unitPurged (x : XltSt) (i : Inval) (awaits : List (Nat × Nat × Nat × Nat)) : XltSt :=
  { x with
    tc := x.tc.filter (fun e => !i.hits e.2)
    root := if i.kind != 0 then x.root.filter (fun e => !i.names e.2.world e.2.asid) else x.root
    ptr := if i.kind != 0 then x.ptr.filter (fun e => !i.names e.2.world e.2.asid) else x.ptr
    walks := x.walks.map (fun w => if w.k < 16 && w.phase != 5 then { w with stale := true } else w)
    inv := [{ i with begun := true, awaits := awaits }] }

theorem unitPurged_purged (x : XltSt) (i : Inval) (awaits : List (Nat × Nat × Nat × Nat)) : Purged (unitPurged x i awaits) i.kind i.world i.asid i.va := by
  refine ⟨rfl, fun k e he j hj => ?_⟩
  obtain rfl := List.mem_singleton.mp hj
  have hkept : i.hits e = false := by simpa using (List.mem_filter.mp he).2
  exact hkept

/-- Micro-buffers of a region without what an invalidation names. -/
def ubufsPurged (l : List Nat) (r : Nat) (i : Inval) (h : Hw) : Hw :=
  forEach l h (fun h c =>
    let y := h.chain (8 * r + c)
    if y.ubuf.any i.hits then h.setChain (8 * r + c) { y with ubuf := y.ubuf.filter (fun e => !i.hits e) } else h)

theorem ubufsPurged_frame (l : List Nat) (r : Nat) (i : Inval) (h : Hw) :
    (ubufsPurged l r i h).mem = h.mem ∧ (ubufsPurged l r i h).fronds = h.fronds ∧ (ubufsPurged l r i h).xlts = h.xlts := by
  induction l generalizing h with
  | nil => exact ⟨rfl, rfl, rfl⟩
  | cons c l ih =>
    obtain ⟨hmem, hfronds, hxlts⟩ := ih (ubufsPurged [c] r i h)
    obtain ⟨hmem1, hfronds1, hxlts1⟩ : (ubufsPurged [c] r i h).mem = h.mem ∧ (ubufsPurged [c] r i h).fronds = h.fronds ∧ (ubufsPurged [c] r i h).xlts = h.xlts := by
      simp only [ubufsPurged, forEach, List.foldl_cons, List.foldl_nil]
      split <;> exact ⟨rfl, rfl, rfl⟩
    exact ⟨hmem.trans hmem1, hfronds.trans hfronds1, hxlts.trans hxlts1⟩

section
variable {h : Hw} {r : Nat}

theorem invBegin_eq {i : Inval} (hinv : (h.xlt r).inv = [i]) (hbegun : i.begun = false) :
    ∃ awaits, invBegin h r = ubufsPurged (List.range 8) r i (h.setXlt r (unitPurged (h.xlt r) i awaits)) := by
  unfold invBegin
  simp only [hinv, hbegun, Bool.false_eq_true, if_false]
  exact ⟨_, rfl⟩

theorem invBegin_of_empty (hinv : (h.xlt r).inv = []) : invBegin h r = h := by
  unfold invBegin
  simp only [hinv]

theorem invBegin_purges {i : Inval} (hinv : (h.xlt r).inv = [i]) (hbegun : i.begun = false) :
    Purged ((invBegin h r).xlt r) i.kind i.world i.asid i.va ∧ (invBegin h r).mem = h.mem ∧ (invBegin h r).fronds = h.fronds := by
  obtain ⟨awaits, hbegin⟩ := invBegin_eq hinv hbegun
  obtain ⟨hmem, hfronds, hxlts⟩ := ubufsPurged_frame (List.range 8) r i (h.setXlt r (unitPurged (h.xlt r) i awaits))
  rw [hbegin, Hw.xlt, hxlts, ← Hw.xlt, Hw.xlt_setXlt_same]
  exact ⟨unitPurged_purged _ i awaits, hmem, hfronds⟩

/-- An invalidation that joins an empty queue begins at once. -/
theorem invPut_purges {i : Inval} (hinv : (h.xlt r).inv = []) (hbegun : i.begun = false) :
    Purged ((invPut h r i).xlt r) i.kind i.world i.asid i.va ∧ (invPut h r i).mem = h.mem ∧ (invPut h r i).fronds = h.fronds := by
  have hput : invPut h r i = xltSync (invBegin (h.setXlt r { h.xlt r with inv := [i] }) r) r := by rw [invPut, hinv, List.nil_append]
  obtain ⟨hpurged, hmem, hfronds⟩ := invBegin_purges (h := h.setXlt r { h.xlt r with inv := [i] }) (by rw [Hw.xlt_setXlt_same]) hbegun
  obtain ⟨hmem', hfronds', -, -⟩ := xltSync_frame (invBegin (h.setXlt r { h.xlt r with inv := [i] }) r) r
  rw [hput, xlt_xltSync, hmem', hfronds']
  exact ⟨hpurged, hmem, hfronds⟩

theorem invFull_of_full (hfull : 8 ≤ (h.xlt r).inv.length) : invFull h r = true := by simp [invFull, hfull]

/-- Outside maintenance an invalidation concerns its own region alone (R279). -/
theorem invOthers_of_not_maint (hm : maint h = false) : invOthers h r = [] := by simp [invOthers, hm]

theorem invFull_of_empty (hm : maint h = false) (hinv : (h.xlt r).inv = []) : invFull h r = false := by simp [invFull, invOthers_of_not_maint hm, hinv]

theorem invIssue_purges (hm : maint h = false) (hinv : (h.xlt r).inv = []) (kind : Nat) (w : World) (asid va : Nat) (by_ : Option Nat) :
    Purged ((invIssue h r kind w asid va by_).xlt r) kind w asid va ∧ (invIssue h r kind w asid va by_).mem = h.mem ∧ (invIssue h r kind w asid va by_).fronds = h.fronds := by
  unfold invIssue
  simp only [invOthers_of_not_maint hm, List.foldl_nil]
  exact invPut_purges (h := { h with seq := h.seq + 1 }) hinv rfl

end

/-! ### XLT.INV (R278, R282) -/

section
variable {h : Hw} {f : Nat}

/-- XLT.IST takes its value; of the rest only the free counter advances (R7, R282). -/
theorem setIst_frame (h : Hw) (f : Nat) (v : W64) :
    ((setIst h f v).frond f).xIST = v ∧ (setIst h f v).xlts = h.xlts ∧ (setIst h f v).mem = h.mem ∧ maint (setIst h f v) = maint h := by
  refine ⟨?_, rfl, rfl, rfl⟩
  simp only [setIst, Hw.frond_setFrond_same]

/-- An invalidation beyond the eighth is refused with XLT.IST = 4. -/
theorem xltInvOp_refused (hfull : 8 ≤ (h.xlt (f / 2)).inv.length) (v : W64) :
    ((xltInvOp h f v).frond f).xIST = 4 ∧ (xltInvOp h f v).xlts = h.xlts ∧ (xltInvOp h f v).mem = h.mem := by
  obtain ⟨hist, hxlts, hmem, -⟩ := setIst_frame h f 4
  unfold xltInvOp
  simp only [invFull_of_full hfull, Bool.or_true, if_true]
  exact ⟨hist, hxlts, hmem⟩

/-- The space that a word of XLT.INV names. -/
def invWorld (v : W64) : World := if bit v.toNat 14 then .tenant else .keeper

theorem xltInvOp_eq (hm : maint h = false) (hinv : (h.xlt (f / 2)).inv = []) {v : W64} (hmine : (h.frond f).world = .keeper ∨ invWorld v = .tenant) :
    xltInvOp h f v = invIssue (setIst h f 1) (f / 2) (bits v.toNat 13 12) (invWorld v) (v.toNat % 4096) ((h.frond f).xIVA.toNat % 2 ^ 48) (some f) := by
  have hallowed : ((h.frond f).world == .tenant && invWorld v == .keeper) = false := by
    rcases hmine with hk | ht
    · rw [hk]
      rfl
    · rw [ht]
      exact Bool.and_false _
  unfold invWorld at hallowed ⊢
  unfold xltInvOp
  simp only [hallowed, invFull_of_empty hm hinv, Bool.or_self, Bool.false_eq_true, if_false]

/-- An invalidation of a space that the frond may name begins at once in an empty queue, with XLT.IST busy. -/
theorem xltInvOp_purges (hm : maint h = false) (hinv : (h.xlt (f / 2)).inv = []) {v : W64} (hmine : (h.frond f).world = .keeper ∨ invWorld v = .tenant) :
    ((xltInvOp h f v).frond f).xIST = 1 ∧
      Purged ((xltInvOp h f v).xlt (f / 2)) (bits v.toNat 13 12) (invWorld v) (v.toNat % 4096) ((h.frond f).xIVA.toNat % 2 ^ 48) ∧ (xltInvOp h f v).mem = h.mem := by
  obtain ⟨hist, hxlts, hmem, hmaint⟩ := setIst_frame h f 1
  have hqueue : ((setIst h f 1).xlt (f / 2)).inv = [] := by
    rw [Hw.xlt, hxlts]
    exact hinv
  obtain ⟨hpurged, hmem', hfronds⟩ := invIssue_purges (hmaint.trans hm) hqueue (bits v.toNat 13 12) (invWorld v) (v.toNat % 4096) ((h.frond f).xIVA.toNat % 2 ^ 48) (some f)
  rw [xltInvOp_eq hm hinv hmine, Hw.frond, hfronds]
  exact ⟨hist, hpurged, hmem'.trans hmem⟩

end

/-! ### XLT_INV_CTL.GO (R278) -/

section
variable {h : Hw} {r : Nat} {w : Who} {v : W32}

/-- The write itself, of the fields other than GO. -/
def invCtlWritten (h : Hw) (r : Nat) (v : W32) : Hw := h.wr (XLT_INV_CTL r) (v &&& 0x0E000FFF)

theorem invCtlWritten_maint (hr : h.hasRegion r = true) : maint (invCtlWritten h r v) = maint h := by
  have hlt := Hw.lt_four_of_hasRegion hr
  have hne : LCH_MAINT ≠ XLT_INV_CTL r := by
    unfold LCH_MAINT XLT_INV_CTL
    omega
  rw [maint, invCtlWritten, h.rd_wr_other _ hne, maint]

theorem invCtlWritten_va : (invCtlWritten h r v).rdPair (XLT_INV_VA_LO r) (XLT_INV_VA_HI r) = h.rdPair (XLT_INV_VA_LO r) (XLT_INV_VA_HI r) := by
  have hlo : XLT_INV_VA_LO r ≠ XLT_INV_CTL r := by
    unfold XLT_INV_VA_LO XLT_INV_CTL
    omega
  have hhi : XLT_INV_VA_HI r ≠ XLT_INV_CTL r := by
    unfold XLT_INV_VA_HI XLT_INV_CTL
    omega
  rw [Hw.rdPair, Hw.rdPair, invCtlWritten, h.rd_wr_other _ hlo, h.rd_wr_other _ hhi]

/-- The privileged host's GO is refused with INVREF when the queue is full, or when one of its own is under way. -/
theorem xltInvGo_host (hr : h.hasRegion r = true) (hhost : w.agent = .host) (hsup : w.sup = true) (hgo : fldGet XLT_INV_CTL_GO v = 1) :
    xltInvGo w r v h =
      if invFull (invCtlWritten h r v) r || (h.xlt r).inv.any (fun i => i.by_.isNone && i.home == r) then (invCtlWritten h r v).sb (XLT_STAT r) XLT_STAT_INVREF
      else invIssue (invCtlWritten h r v) r (fldGet XLT_INV_CTL_KIND v) (if fldGet XLT_INV_CTL_WORLD v = 1 then .tenant else .keeper) (fldGet XLT_INV_CTL_ASID v)
        (h.rdPair (XLT_INV_VA_LO r) (XLT_INV_VA_HI r)) none := by
  have hpriv : w.hostPriv = true := by simp [Who.hostPriv, hhost, hsup]
  have hxlt : (invCtlWritten h r v).xlt r = h.xlt r := rfl
  rw [← invCtlWritten_va (v := v), ← hxlt]
  simp [xltInvGo, hr, hpriv, hhost, hsup, hgo, invCtlWritten]

theorem xltInvGo_refused (hr : h.hasRegion r = true) (hhost : w.agent = .host) (hsup : w.sup = true) (hgo : fldGet XLT_INV_CTL_GO v = 1) (hfull : 8 ≤ (h.xlt r).inv.length) :
    xltInvGo w r v h = (invCtlWritten h r v).sb (XLT_STAT r) XLT_STAT_INVREF := by
  rw [xltInvGo_host hr hhost hsup hgo, invFull_of_full (h := invCtlWritten h r v) hfull, Bool.true_or, if_pos rfl]

theorem xltInvGo_taken (hr : h.hasRegion r = true) (hhost : w.agent = .host) (hsup : w.sup = true) (hgo : fldGet XLT_INV_CTL_GO v = 1) (hm : maint h = false)
    (hinv : (h.xlt r).inv = []) :
    xltInvGo w r v h = invIssue (invCtlWritten h r v) r (fldGet XLT_INV_CTL_KIND v) (if fldGet XLT_INV_CTL_WORLD v = 1 then .tenant else .keeper) (fldGet XLT_INV_CTL_ASID v)
        (h.rdPair (XLT_INV_VA_LO r) (XLT_INV_VA_HI r)) none := by
  have hroom : invFull (invCtlWritten h r v) r = false := invFull_of_empty ((invCtlWritten_maint hr).trans hm) hinv
  rw [xltInvGo_host hr hhost hsup hgo, hroom, hinv]
  rfl

end

/-! ### An invalidation completes (R277) -/

section
variable {h : Hw} {r : Nat} {i : Inval}

theorem invReport_host (hby : i.by_ = none) : invReport h i = h.sb (XLT_STAT i.home) XLT_STAT_INVDONE := by rw [invReport, hby]

/-- A frond that has no other invalidation queued sees done, and the event of WAIT is recorded (R322). -/
theorem invReport_frond {f : Nat} (hby : i.by_ = some f) (hlast : (h.xlt i.home).inv = []) (hbusy : (h.frond f).xIST = 1) :
    invReport h i = h.setFrond f { h.frond f with xIST := 2, wevHit := (h.frond f).wevHit ||| 0x10 } := by
  rw [invReport, hby]
  simp [hlast, hbusy]

theorem xlt_invReport (q : Nat) : (invReport h i).xlt q = h.xlt q := by
  unfold invReport
  split <;> rfl

/-- The block without the queue of invalidations of a region. -/
def invEmptied (h : Hw) (r : Nat) : Hw := h.setXlt r { h.xlt r with inv := [] }

theorem inv_invEmptied : ((invEmptied h r).xlt r).inv = [] := by rw [invEmptied, Hw.xlt_setXlt_same]

/-- The block once the only invalidation of a region is over. -/
def invOver (h : Hw) (r : Nat) (i : Inval) : Hw := xltSync (invReport (invEmptied h r) i) r

theorem inv_invOver : ((invOver h r i).xlt r).inv = [] := by rw [invOver, xlt_xltSync, xlt_invReport, inv_invEmptied]

/-- The only invalidation of a region, once it has begun and waits for no access, leaves the queue and is reported. -/
theorem invalidationDone_eq (hr : h.hasRegion r = true) (hinv : (h.xlt r).inv = [i]) (hbegun : i.begun = true) (hbcast : i.bcast = false) (hhome : i.home = r)
    (hawaits : i.awaits.any (accOut h) = false) : invalidationDone r h = invOver h r i := by
  have hdone : invalidationDone r h = xltSync (invBegin (invReport (invEmptied h r) i) r) r := by
    simp [invalidationDone, hinv, hr, hbegun, hbcast, hhome, hawaits, invEmptied]
  have hempty : ((invReport (invEmptied h r) i).xlt r).inv = [] := by rw [xlt_invReport, inv_invEmptied]
  rw [hdone, invBegin_of_empty hempty, invOver]

/-- The host sees INVDONE. -/
theorem invOver_host (hby : i.by_ = none) (hhome : i.home = r) :
    (invOver h r i).rb (XLT_STAT r) XLT_STAT_INVDONE = true ∧ (invOver h r i).mem = h.mem ∧ (invOver h r i).chains = h.chains := by
  rw [invOver, xltSync_invdone, invReport_host hby, hhome]
  exact ⟨Hw.rb_sb_same _ _ rfl, rfl, rfl⟩

/-- The frond that issued it sees done. -/
theorem invOver_frond {f : Nat} (hby : i.by_ = some f) (hhome : i.home = r) (hbusy : (h.frond f).xIST = 1) :
    ((invOver h r i).frond f).xIST = 2 ∧ (invOver h r i).mem = h.mem := by
  obtain ⟨hmem, hfronds, -, -⟩ := xltSync_frame (invReport (invEmptied h r) i) r
  rw [invOver, Hw.frond, hfronds, ← Hw.frond, hmem, invReport_frond (h := invEmptied h r) hby (hhome ▸ inv_invEmptied) hbusy, Hw.frond_setFrond_same]
  exact ⟨rfl, rfl⟩

end

/-! ### Probes (R282) -/

section
variable {h : Hw} {f : Nat}

/-- The unit of a region holds the walk of one probe: of frond f, with the address of XLT.PVA, and with the space and the kind of access of the word v. -/
def ProbeAlone (h : Hw) (f : Nat) (pva v : W64) (h' : Hw) : Prop :=
  (h'.frond f).xPR = 0 ∧ h'.mem = h.mem ∧
    (h'.xlt (f / 2)).walks.map (fun y => (y.who, y.va, y.asid, y.write)) = [(.probe f, pva.toNat % 2 ^ 48, v.toNat % 4096, bit v.toNat 13)]

theorem probePut_alone {h1 : Hw} {pva v : W64} (hpr : (h1.frond f).xPR = 0) (hmem : h1.mem = h.mem) (hwalks : (h1.xlt (f / 2)).walks = []) (w : World) (phase entry : Nat) :
    ProbeAlone h f pva v (probePut h1 (f / 2) f (bit v.toNat 13) w (v.toNat % 4096) (pva.toNat % 2 ^ 48) phase entry) := by
  refine ⟨hpr, hmem, ?_⟩
  rw [probePut, Hw.xlt_setXlt_same, hwalks]
  rfl

/-- A move to XLT.PRB with no walk in the unit: the answer of the tenant's refusal, of the cache, or of the walk to come. -/
theorem xltPrbOp_alone (hwalks : (h.xlt (f / 2)).walks = []) (v : W64) : ProbeAlone h f (h.frond f).xPVA v (xltPrbOp h f v) := by
  unfold xltPrbOp
  extract_lets r fr n w asid write va x0 old h1
  have hpr : (h1.frond f).xPR = 0 := by
    have hfrond : h1.frond f = { fr with xPR := 0 } := h.frond_setFrond_same f _
    rw [hfrond]
  have hold : (h1.xlt r).walks = [] := by
    have hunit : (h1.xlt r).walks = old := by rw [Hw.xlt_setXlt_same]
    rw [hunit]
    simp only [old, x0, r, hwalks, List.filter_nil, List.map_nil]
  split
  · exact probePut_alone hpr rfl hold w 5 _
  · split
    · have htouched : ∀ tc, ((h1.setXlt r { h1.xlt r with tc := tc }).xlt r).walks = [] := fun tc => by
        rw [Hw.xlt_setXlt_same]
        exact hold
      exact probePut_alone (h1 := h1.setXlt r _) hpr rfl (htouched _) w 5 _
    · obtain ⟨hmem, hfronds, hmiss⟩ := missCount_frame h1 r
      refine probePut_alone ?_ hmem (hmiss.trans hold) w 0 0
      rw [Hw.frond, hfronds]
      exact hpr

/-- A walk that is dropped leaves the unit's other walks. -/
theorem walkDrop_frame (h : Hw) (r k : Nat) : (walkDrop h r k).mem = h.mem ∧ ((walkDrop h r k).xlt r).walks = (h.xlt r).walks.filter (fun y => y.k != k) := by
  refine ⟨rfl, ?_⟩
  rw [walkDrop, xlt_xltSync, Hw.xlt_setXlt_same]

/-- The result of the only walk, a probe's that is over, reaches XLT.PR with bit 63, and the walk leaves. -/
theorem probeDone_leaves {y : Walk} (hwalks : (h.xlt (f / 2)).walks = [y]) (hwho : y.who = .probe f) (hphase : y.phase = 5) :
    ((probeDone f h).frond f).xPR = BitVec.ofNat 64 (2 ^ 63 + y.entry) ∧ ((probeDone f h).xlt (f / 2)).walks = [] ∧ (probeDone f h).mem = h.mem := by
  have hdone : probeDone f h = (walkDrop h (f / 2) y.k).setFrond f { (walkDrop h (f / 2) y.k).frond f with xPR := BitVec.ofNat 64 (2 ^ 63 + y.entry) } := by
    simp [probeDone, hwalks, hwho, hphase]
  obtain ⟨hmem, hleft⟩ := walkDrop_frame h (f / 2) y.k
  rw [hdone, Hw.frond_setFrond_same, Hw.xlt, Hw.setFrond_xlts, ← Hw.xlt, hleft, hwalks, Hw.setFrond_mem, hmem]
  simp

end

/-! ### The tenant directory (R260) -/

/-- XLT_TDIR_LO stands in one region's block and is no other register of a directory. -/
theorem tdirLo_owner {r q : Nat} (hq : XLT_TDIR_LO r = XLT_TDIR_LO q ∨ XLT_TDIR_LO r = XLT_TDIR_HI q ∨ XLT_TDIR_LO r = XLT_KDIR_LO q ∨ XLT_TDIR_LO r = XLT_KDIR_HI q) : q = r := by
  unfold XLT_TDIR_LO XLT_TDIR_HI XLT_KDIR_LO XLT_KDIR_HI at hq
  omega

/-- A register of a directory of region q stands at an offset. -/
def dirOwner (a q : Nat) : Bool := a == XLT_TDIR_LO q || a == XLT_TDIR_HI q || a == XLT_KDIR_LO q || a == XLT_KDIR_HI q

theorem find_dirOwner {h : Hw} {r : Nat} (hr : h.hasRegion r = true) : h.regionList.find? (dirOwner (XLT_TDIR_LO r)) = some r := by
  have hmem : r ∈ h.regionList := List.mem_range.mpr (of_decide_eq_true hr)
  obtain ⟨q, hq⟩ := Option.isSome_iff_exists.mp (List.find?_isSome.mpr ⟨r, hmem, show dirOwner (XLT_TDIR_LO r) r = true by simp [dirOwner]⟩)
  have howner := List.find?_some hq
  simp only [dirOwner, Bool.or_eq_true, beq_iff_eq, or_assoc] at howner
  rw [hq, tdirLo_owner howner]

/-- A supervisor of the keeper world writes the tenant directory. -/
theorem xltDirWrite_tdirLo {h : Hw} {r : Nat} {w : Who} (hr : h.hasRegion r = true) (hkeeper : w.keeperSup = true) (v : W32) :
    xltDirWrite w (XLT_TDIR_LO r) v h = h.wr (XLT_TDIR_LO r) (v &&& 0xFFFF8001) := by
  have hfind := find_dirOwner hr
  unfold dirOwner at hfind
  simp [xltDirWrite, hfind, hkeeper]

end Sys2Proof.Machine

namespace Sys2Proof.Proofs.Translation
open Sys2Proof Sys2Proof.Machine

/-- Settles O40: each command is the operation of its row, and the figures, the micro-buffers and the free counter that it touches beside leave what the statement names. -/
theorem invalidationsProbesAndDirectories : Obligations.InvalidationsProbesAndDirectories := by
  unfold Obligations.InvalidationsProbesAndDirectories
  intro s r hr
  refine ⟨fun f v hf hready hsup hm => ?_, fun w v hg hhost hsup hgo hm => ⟨fun hinv => ?_, fun hfull => ?_⟩, fun i hclk hinv hbegun hbcast hhome hawaits => ?_,
    fun f v hf hready hsup hwalks => ?_, fun f y hclk hf hwalks hwho hphase => ?_, fun w v hg hkeeper => ?_⟩
  · subst hf
    have hfrond : (s.hw.setFrond f (moving s.hw f)).frond f = moving s.hw f := s.hw.frond_setFrond_same f _
    refine ⟨fun hmine hinv => (gives_xltInv_iff hready hsup).mpr ?_, fun hfull => (gives_xltInv_iff hready hsup).mpr ?_⟩
    · have hpurges := xltInvOp_purges (h := s.hw.setFrond f (moving s.hw f)) (v := v) hm hinv (by rw [hfrond]; exact hmine)
      rw [hfrond] at hpurges
      exact hpurges
    · exact xltInvOp_refused (h := s.hw.setFrond f (moving s.hw f)) hfull v
  · rw [gives_iff_of_onWrite rfl hg, whenSet_of_set hgo, xltInvGo_taken hr hhost hsup hgo hm hinv]
    obtain ⟨hpurged, hmem, -⟩ := invIssue_purges (h := invCtlWritten s.hw r v) ((invCtlWritten_maint hr).trans hm) hinv (fldGet XLT_INV_CTL_KIND v)
      (if fldGet XLT_INV_CTL_WORLD v = 1 then .tenant else .keeper) (fldGet XLT_INV_CTL_ASID v) (s.hw.rdPair (XLT_INV_VA_LO r) (XLT_INV_VA_HI r)) none
    exact ⟨hpurged, hmem⟩
  · rw [gives_iff_of_onWrite rfl hg, whenSet_of_set hgo, xltInvGo_refused hr hhost hsup hgo hfull]
    exact ⟨Hw.rb_sb_same _ _ rfl, rfl, rfl⟩
  · have hdone := invalidationDone_eq hr hinv hbegun hbcast hhome hawaits
    refine ⟨fun hby => ?_, fun f hby hbusy => ?_⟩
    · rw [gives_iff_of_onClock rfl hclk, hdone]
      exact ⟨inv_invOver, invOver_host hby hhome⟩
    · rw [gives_iff_of_onClock rfl hclk, hdone]
      exact ⟨inv_invOver, invOver_frond hby hhome hbusy⟩
  · subst hf
    rw [gives_xltPrb_iff hready hsup]
    have halone := xltPrbOp_alone (h := s.hw.setFrond f (moving s.hw f)) (f := f) hwalks v
    rwa [s.hw.frond_setFrond_same f (moving s.hw f)] at halone
  · subst hf
    rw [gives_iff_of_onClock rfl hclk]
    exact probeDone_leaves hwalks hwho hphase
  · rw [gives_iff_of_onWrite rfl hg]
    exact xltDirWrite_tdirLo hr hkeeper v

end Sys2Proof.Proofs.Translation
end

section
/-!
SUPPORT. Moves of a frond that transports its next word (R307, R311 to R316): a trigger of a unit fires, and what the ALU, MSTEP and FPU triggers leave.
-/
namespace Sys2Proof.Machine

/-! ### A frond written twice -/

theorem kvIns_kvIns_same {α : Type} (m : KV α) (k : Nat) (u v : α) : kvIns (kvIns m k u) k v = kvIns m k v := by
  induction m with
  | nil => simp [kvIns]
  | cons e m ih =>
    obtain ⟨j, w⟩ := e
    rcases Nat.lt_trichotomy k j with hlt | rfl | hgt
    · simp [kvIns, hlt]
    · simp [kvIns]
    · have hnlt : ¬ k < j := by omega
      have hne : k ≠ j := by omega
      simp [kvIns, hnlt, hne, ih]

@[simp] theorem Hw.setFrond_setFrond_same (h : Hw) (f : Nat) (x y : Frond) : (h.setFrond f x).setFrond f y = h.setFrond f y := by
  rw [Hw.setFrond, Hw.setFrond, kvIns_kvIns_same, Hw.setFrond]

/-! ### A unit's trigger fires (R307, R317, R318) -/

/-- A trigger port that starts a load or a store waits in T for the unit (R318). -/
def lsuFull (x : Frond) (p : Nat) : Bool :=
  (x.load.isSome && (p == 0x201 || p == 0x202)) || (decide (4 ≤ x.stores.length) && (p == 0x203 || p == 0x204))

/-- The triggers that take a failed load which is owed (R319). -/
def lsuTrigger (p : Nat) : Bool := (decide (0x201 ≤ p) && decide (p ≤ 0x204)) || p == 0x206 || p == 0x207

/-- A trigger at user level of a unit that neither waits nor judges its operand (R311 to R316). -/
def unitPort (p : Nat) : Bool := portOf p == some (.t, .u, .u) && p != 0x384 && !lsuTrigger p

section
variable {h : Hw} {f p : Nat} {v : W64}

theorem clocked_of_frondLive (hlive : frondLive h f = true) : h.clocked = true := by
  simp only [frondLive, Bool.and_eq_true] at hlive
  exact hlive.1.1.2

/-- Four regions of two fronds (R284). -/
theorem lt_eight_of_frondLive (hlive : frondLive h f = true) : f < 8 := by
  simp only [frondLive, Hw.memServed, Bool.and_eq_true] at hlive
  have hrgn := Hw.lt_four_of_hasRegion hlive.1.2.1
  omega

/-- What a frond that transports its next word meets at its boundary (R316, R319, R338, R464). -/
theorem frondReady_iff : frondReady h f = true ↔
    frondLive h f = true ∧ (h.frond f).run = .run ∧ haltDue (h.frond f) = false ∧ heldInT h f = false ∧ (h.frond f).fpOwed = false ∧ (h.frond f).storeErr = false := by
  simp [frondReady, and_assoc]

/-- A trigger at user level of a unit that is free, on an operand it admits, fires, and a barrier that held the word is spent (R307, R316). -/
theorem frondMove_fires (hready : frondReady h f = true) (hport : portOf p = some (.t, .u, .u)) (hgate : p ≠ 0x384) (hfree : lsuFull (h.frond f) p = false)
    (haligned : lsuMisaligned p v = false) (hload : (h.frond f).loadErr = false ∨ lsuTrigger p = false) :
    frondMove h f p v = portFire (h.setFrond f (moving h f)) f p v := by
  obtain ⟨hlive, hrun, hhalt, hheld, hfp, hstore⟩ := frondReady_iff.mp hready
  have hsys : p ≠ 0x380 ∧ p ≠ 0x386 ∧ p ≠ 0x320 := by
    refine ⟨?_, ?_, ?_⟩ <;> rintro rfl <;> exact absurd hport (by decide)
  have hbad : movePortBad ⟨0, none, .imm v, p⟩ = false := by simp [movePortBad, hport, PKind.writable]
  have hpriv : movePriv ⟨0, none, .imm v, p⟩ (h.frond f).world (stS (h.frond f).st) (vendorAddr (h.frond f).pc.toNat) = false := by
    simp [movePriv, hport, levelOk]
  have htrigger : isTrigger p = true := by simp [isTrigger, hport]
  have howed : ((h.frond f).loadErr && ((0x201 ≤ p && p ≤ 0x204) || p == 0x206 || p == 0x207)) = false := by
    rcases hload with hnone | hother
    · rw [hnone, Bool.false_and]
    · exact Bool.and_eq_false_iff.mpr (.inr hother)
  unfold lsuFull at hfree
  simp [frondMove, hlive, hrun, hhalt, hheld, hfp, hstore, hbad, hpriv, hfree, haligned, howed, htrigger, hsys, hgate, moving]

/-- A unit port is none of the ports that wait for the LSU or judge their address (R317, R318). -/
theorem lsu_of_unitPort (hp : unitPort p = true) (x : Frond) (v : W64) : lsuFull x p = false ∧ lsuMisaligned p v = false ∧ lsuTrigger p = false := by
  have hlsu : lsuTrigger p = false := by simpa using (Bool.and_eq_true_iff.mp hp).2
  have hne : p ≠ 0x201 ∧ p ≠ 0x202 ∧ p ≠ 0x203 ∧ p ≠ 0x204 := by
    simp [lsuTrigger] at hlsu
    omega
  simp [lsuFull, lsuMisaligned, hlsu, hne]

variable {s : State} {i : Instr} {P : Hw → Prop}

/-- The command of a unit port does what the port does for the frond that transports its word. -/
theorem gives_iff_of_unitPort (hp : unitPort p = true) (he : exec i s = always s (fun h => frondMove h f p v)) (hready : frondReady s.hw f = true) :
    Gives i s P ↔ P (portFire (s.hw.setFrond f (moving s.hw f)) f p v) := by
  obtain ⟨hfree, haligned, hlsu⟩ := lsu_of_unitPort hp (s.hw.frond f) v
  simp only [unitPort, Bool.and_eq_true, beq_iff_eq, bne_iff_ne] at hp
  rw [gives_iff_of_always he, frondMove_fires hready hp.1.1 hp.1.2 hfree haligned (.inr hlsu)]

end

/-! ### The ALU (R311) -/

theorem aluFlags_bits (r : W64) (c v : Bool) :
    (aluFlags r c v).getLsbD 3 = (r == 0) ∧ (aluFlags r c v).getLsbD 2 = r.msb ∧ (aluFlags r c v).getLsbD 1 = c ∧ (aluFlags r c v).getLsbD 0 = v := by
  unfold aluFlags
  generalize (r == 0) = z
  generalize r.msb = n
  revert z n c v
  decide

theorem unitPort_alu : ∀ k, k < 16 → unitPort (0x101 + k) = true := by decide

theorem portFire_alu (h : Hw) (f : Nat) {k : Nat} (hk : k < 16) (t : W64) : portFire h f (0x101 + k) t =
    h.setFrond f { h.frond f with aluR := (aluCompute k (h.frond f).aluO t).1, aluF := (aluCompute k (h.frond f).aluO t).2 } := by
  have hrange : 0x101 ≤ 0x101 + k ∧ 0x101 + k ≤ 0x110 := by omega
  rw [portFire, if_pos hrange, Nat.add_sub_cancel_left]

/-- The k-th ALU trigger leaves the result and the flags that its operation computes of O and T. -/
theorem gives_alu {s : State} {f : Nat} {t : W64} {i : Instr} {k : Nat} (hk : k < 16) (he : exec i s = always s (fun h => frondMove h f (0x101 + k) t))
    (hready : frondReady s.hw f = true) {r : W64} {c v : Bool} (hcompute : aluCompute k (s.hw.frond f).aluO t = (r, aluFlags r c v)) : Gives i s (AluLeaves s.hw f r c v) := by
  rw [gives_iff_of_unitPort (unitPort_alu k hk) he hready, portFire_alu _ _ hk, Hw.frond_setFrond_same, Hw.setFrond_setFrond_same]
  exact ⟨_, by rw [show (moving s.hw f).aluO = (s.hw.frond f).aluO from rfl, hcompute], aluFlags_bits r c v⟩

/-- A sum overflows just where it is not the sum of the signed values. -/
theorem decide_toInt_add_ne (o t : W64) : decide ((o + t).toInt ≠ o.toInt + t.toInt) = o.saddOverflow t := by
  have hlt := (o + t).toInt_lt
  have hle := (o + t).le_toInt
  by_cases hover : o.saddOverflow t = true
  · rw [hover, decide_eq_true_eq]
    simp only [BitVec.saddOverflow, Bool.or_eq_true, decide_eq_true_eq] at hover
    omega
  · rw [BitVec.toInt_add_of_not_saddOverflow hover, Bool.eq_false_of_not_eq_true hover]
    simp

/-- Likewise a difference. -/
theorem decide_toInt_sub_ne (o t : W64) : decide ((o - t).toInt ≠ o.toInt - t.toInt) = o.ssubOverflow t := by
  have hlt := (o - t).toInt_lt
  have hle := (o - t).le_toInt
  by_cases hover : o.ssubOverflow t = true
  · rw [hover, decide_eq_true_eq]
    simp only [BitVec.ssubOverflow, Bool.or_eq_true, decide_eq_true_eq] at hover
    omega
  · rw [BitVec.toInt_sub_of_not_ssubOverflow hover, Bool.eq_false_of_not_eq_true hover]
    simp

theorem addOp_eq (o t : W64) :
    addOp o t = (o + t, aluFlags (o + t) (decide (2 ^ 64 ≤ o.toNat + t.toNat)) (decide ((o + t).toInt ≠ o.toInt + t.toInt))) := by
  have hsigns : (o.msb == t.msb && (o + t).msb != o.msb) = o.saddOverflow t := (BitVec.saddOverflow_eq o t).symm
  rw [addOp, hsigns, decide_toInt_add_ne]

theorem subOp_eq (o t : W64) :
    subOp o t = (o - t, aluFlags (o - t) (decide (t.toNat ≤ o.toNat)) (decide ((o - t).toInt ≠ o.toInt - t.toInt))) := by
  have hsigns : (o.msb != t.msb && (o - t).msb != o.msb) = o.ssubOverflow t := by
    rw [BitVec.ssubOverflow_eq]
    cases o.msb <;> cases t.msb <;> simp
  rw [subOp, hsigns, decide_toInt_sub_ne]

/-- A comparison gives 1 or 0 and clears C and V. -/
theorem cmpOp_eq {b c : Bool} (hbc : b = c) : cmpOp b = ((if c then 1 else 0 : W64), aluFlags (if c then 1 else 0) false false) := by
  rw [hbc, cmpOp, logicOp]

/-! ### MSTEP (R312) -/

/-- A multiply step shifts the 129-bit sum right by one. -/
theorem mulStep_toNat (m acc q : W64) :
    (mulStep m acc q).1.toNat * 2 ^ 64 + (mulStep m acc q).2.toNat = ((acc.toNat + (if q.toNat % 2 = 1 then m.toNat else 0)) * 2 ^ 64 + q.toNat) / 2 := by
  have hacc := acc.isLt
  have hm := m.isLt
  have hq := q.isLt
  simp only [mulStep, bit, Nat.shiftRight_zero, beq_iff_eq, BitVec.toNat_ofNat]
  split <;> omega

/-- A divide step whose shifted ACC is not below M. -/
theorem divStep_subtracts {m acc q : W64} (hle : m.toNat ≤ 2 * acc.toNat + q.toNat / 2 ^ 63) :
    (divStep m acc q).1.toNat = (2 * acc.toNat + q.toNat / 2 ^ 63 - m.toNat) % 2 ^ 64 ∧ (divStep m acc q).2.toNat = 2 * q.toNat % 2 ^ 64 + 1 := by
  rw [divStep, if_pos (by omega)]
  simp only [BitVec.toNat_ofNat]
  omega

/-- A divide step whose shifted ACC is below M. -/
theorem divStep_shifts {m acc q : W64} (hlt : 2 * acc.toNat + q.toNat / 2 ^ 63 < m.toNat) :
    (divStep m acc q).1.toNat = (2 * acc.toNat + q.toNat / 2 ^ 63) % 2 ^ 64 ∧ (divStep m acc q).2.toNat = 2 * q.toNat % 2 ^ 64 := by
  rw [divStep, if_neg (by omega)]
  simp only [BitVec.toNat_ofNat]
  omega

/-- The frond after a step that leaves ACC and Q. -/
def msLeft (x : Frond) (aq : W64 × W64) : Frond := { x with msACC := aq.1, msQ := aq.2 }

theorem portFire_mstepMul (h : Hw) (f : Nat) (v : W64) :
    portFire h f 0x143 v = h.setFrond f (msLeft (h.frond f) (mulStep (h.frond f).msM (h.frond f).msACC (h.frond f).msQ)) := by
  simp [portFire, msLeft]

theorem portFire_mstepDiv (h : Hw) (f : Nat) (v : W64) :
    portFire h f 0x144 v = h.setFrond f (msLeft (h.frond f) (divStep (h.frond f).msM (h.frond f).msACC (h.frond f).msQ)) := by
  simp [portFire, msLeft]

/-! ### The FPU (R314 to R316) -/

/-- The frond with one more operation of the FPU under way. -/
def fpuStarted (x : Frond) (k : Nat) (t : W64) : Frond :=
  let r := fpuCompute k x.fCtl x.fA x.fB t
  { x with fPend := x.fPend ++ [⟨x.fYN, r.1, BitVec.ofNat 5 r.2, 0⟩], fYN := (x.fYN + 1) % 4 }

theorem unitPort_fpu : ∀ k, k < 9 → unitPort (0x190 + k) = true := by decide

theorem portFire_fpu (h : Hw) (f : Nat) {k : Nat} (hk : k < 9) (t : W64) : portFire h f (0x190 + k) t = h.setFrond f (fpuStarted (h.frond f) k t) := by
  have hbelow : ¬ (0x190 + k ≤ 0x110) ∧ ¬ (0x190 + k = 0x143) ∧ ¬ (0x190 + k = 0x144) := by omega
  have hrange : 0x190 ≤ 0x190 + k ∧ 0x190 + k ≤ 0x198 := by omega
  rw [portFire, if_neg (fun hc => hbelow.1 hc.2), if_neg hbelow.2.1, if_neg hbelow.2.2, if_pos hrange, Nat.add_sub_cancel_left]
  rfl

/-- The k-th FPU trigger starts its operation. -/
theorem gives_fpu {s : State} {f : Nat} {t : W64} {i : Instr} {k : Nat} (hk : k < 9) (he : exec i s = always s (fun h => frondMove h f (0x190 + k) t))
    (hready : frondReady s.hw f = true) : Gives i s (fun h' => h' = s.hw.setFrond f (fpuStarted (moving s.hw f) k t)) := by
  rw [gives_iff_of_unitPort (unitPort_fpu k hk) he hready, portFire_fpu _ _ hk, Hw.frond_setFrond_same, Hw.setFrond_setFrond_same]

theorem fpuResultWrite_eq {h : Hw} {f : Nat} (hf : h.hasFrond f = true) {o : FpuOp} {rest : List FpuOp} (hpend : (h.frond f).fPend = o :: rest) :
    fpuResultWrite f h = h.setFrond f (fpuPut { h.frond f with fPend := rest } o) := by
  simp [fpuResultWrite, hf, hpend]

end Sys2Proof.Machine

namespace Sys2Proof.Proofs.Fronds
open Sys2Proof Sys2Proof.Machine

/-- Settles O1: each trigger leaves what its operation computes, and overflow of a sum or a difference shows in the signs. -/
theorem aluSumsAndLogicLeaveResultAndFlags : Obligations.AluSumsAndLogicLeaveResultAndFlags := by
  unfold Obligations.AluSumsAndLogicLeaveResultAndFlags
  intro s f t hready o
  exact ⟨gives_alu (k := 0) (by decide) rfl hready (addOp_eq o t), gives_alu (k := 1) (by decide) rfl hready (subOp_eq o t),
    gives_alu (k := 2) (by decide) rfl hready rfl, gives_alu (k := 3) (by decide) rfl hready rfl,
    gives_alu (k := 4) (by decide) rfl hready rfl, gives_alu (k := 5) (by decide) rfl hready rfl⟩

/-- Settles O2: the shifts take T modulo 64, and each comparison is that of the values. -/
theorem aluShiftsAndComparesLeaveResultAndFlags : Obligations.AluShiftsAndComparesLeaveResultAndFlags := by
  unfold Obligations.AluShiftsAndComparesLeaveResultAndFlags
  intro s f t hready o n one
  have hges : (!o.slt t) = decide (t.toInt ≤ o.toInt) := by rw [BitVec.slt, ← decide_not, decide_eq_decide, Int.not_lt]
  have hgeu : (!o.ult t) = decide (t.toNat ≤ o.toNat) := by rw [BitVec.ult, ← decide_not, decide_eq_decide, Nat.not_lt]
  have hne : (o != t) = decide (o ≠ t) := by simp [bne, BEq.beq]
  exact ⟨gives_alu (k := 6) (by decide) rfl hready rfl, gives_alu (k := 7) (by decide) rfl hready rfl,
    gives_alu (k := 8) (by decide) rfl hready rfl, gives_alu (k := 9) (by decide) rfl hready rfl,
    gives_alu (k := 10) (by decide) rfl hready (cmpOp_eq rfl), gives_alu (k := 11) (by decide) rfl hready (cmpOp_eq hne),
    gives_alu (k := 12) (by decide) rfl hready (cmpOp_eq rfl), gives_alu (k := 13) (by decide) rfl hready (cmpOp_eq rfl),
    gives_alu (k := 14) (by decide) rfl hready (cmpOp_eq hges), gives_alu (k := 15) (by decide) rfl hready (cmpOp_eq hgeu)⟩

/-- Settles O3: the steps' values as numbers. -/
theorem mstepStepsMultiplyAndDivide : Obligations.MstepStepsMultiplyAndDivide := by
  unfold Obligations.MstepStepsMultiplyAndDivide
  intro s f v hready x
  have hmul : unitPort 0x143 = true := by decide
  have hdiv : unitPort 0x144 = true := by decide
  refine ⟨(gives_iff_of_unitPort hmul rfl hready).mpr ?_, (gives_iff_of_unitPort hdiv rfl hready).mpr ?_⟩
  · rw [portFire_mstepMul, Hw.frond_setFrond_same, Hw.setFrond_setFrond_same]
    exact ⟨_, _, rfl, mulStep_toNat x.msM x.msACC x.msQ⟩
  · rw [portFire_mstepDiv, Hw.frond_setFrond_same, Hw.setFrond_setFrond_same]
    exact ⟨_, _, rfl, divStep_subtracts, divStep_shifts⟩

/-- Settles O4: a trigger queues its operation, and the oldest result is written with its flags. -/
theorem fpuTriggersQueueAndResultsAreWritten : Obligations.FpuTriggersQueueAndResultsAreWritten := by
  unfold Obligations.FpuTriggersQueueAndResultsAreWritten
  refine ⟨fun s f t hready => ?_, fun s f o rest hclk hf hpend => ?_⟩
  · exact ⟨gives_fpu (k := 0) (by decide) rfl hready, gives_fpu (k := 1) (by decide) rfl hready, gives_fpu (k := 2) (by decide) rfl hready,
      gives_fpu (k := 3) (by decide) rfl hready, gives_fpu (k := 4) (by decide) rfl hready, gives_fpu (k := 5) (by decide) rfl hready,
      gives_fpu (k := 6) (by decide) rfl hready, gives_fpu (k := 7) (by decide) rfl hready, gives_fpu (k := 8) (by decide) rfl hready⟩
  · rw [gives_iff_of_onClock rfl hclk, fpuResultWrite_eq hf hpend]
    exact ⟨_, rfl, by simp⟩

end Sys2Proof.Proofs.Fronds
end

section
/-!
SUPPORT. Loads, stores and line locks of a frond (R317 to R320): what a trigger records, what an answer delivers, and that the requests it sends on touch the host ports alone.
-/
namespace Sys2Proof.Machine

/-! ### Requests to licensee memory (R231, R241) -/

/-- The blocks differ in the register file and in what the host ports hold at most. -/
def PortsOnly (h h' : Hw) : Prop := h' = { h with regs := h'.regs, mreqs := h'.mreqs, out := h'.out, hpAcc := h'.hpAcc }

namespace PortsOnly
variable {h h1 h2 : Hw}

theorem refl (h : Hw) : PortsOnly h h := rfl

theorem trans (h01 : PortsOnly h h1) (h12 : PortsOnly h1 h2) : PortsOnly h h2 := by
  unfold PortsOnly at *
  rw [h12, h01]

theorem of_hostRegsOnly (hk : HostRegsOnly h h1) : PortsOnly h h1 := by
  unfold HostRegsOnly at hk
  rw [hk]
  rfl

theorem mGrant (n : Nat) (h : Hw) (p : Nat) : PortsOnly h (mGrant n h p) := by
  induction n generalizing h with
  | zero => exact refl h
  | succ n ih =>
    unfold Machine.mGrant
    split
    next q t _ _ =>
      extract_lets nb h1 h2 h3
      have hsent : PortsOnly h h3 := rfl
      split
      · refine trans ?_ (ih _)
        split
        · exact hsent
        · exact hsent.trans (of_hostRegsOnly (HostRegsOnly.hpBytes h3 p true _))
      · exact refl h
    next => exact refl h

theorem mRegion (h : Hw) (r cls op pa len : Nat) (data : List Byte) (se wlk : Bool) (use : MUse) : PortsOnly h (mRegion h r cls op pa len data se wlk use) := by
  unfold Machine.mRegion mIssue
  extract_lets q
  exact trans (h1 := { h with mreqs := h.mreqs ++ [q] }) rfl (mGrant _ _ _)

theorem lsuPump (h : Hw) (f : Nat) : PortsOnly h (lsuPump h f) := by
  unfold Machine.lsuPump
  extract_lets x st ld goLoad
  clear_value goLoad ld st
  split
  · split
    next l _ =>
      split
      · exact refl h
      · exact mRegion h _ _ _ _ _ _ _ _ _
    next => exact refl h
  · split
    next t _ =>
      split
      · exact refl h
      · exact mRegion h _ _ _ _ _ _ _ _ _
    next => exact refl h

section
variable (hk : PortsOnly h h1)
include hk

theorem mem : h1.mem = h.mem := by rw [hk]

theorem scratch : h1.scratch = h.scratch := by rw [hk]

theorem frond (f : Nat) : h1.frond f = h.frond f := by
  rw [hk]
  rfl

end

end PortsOnly

/-! ### Triggers (R317, R318) -/

section
variable {s : State} {f p : Nat} {v : W64} {i : Instr} {P : Hw → Prop}

theorem portOf_lsuTrigger (hp : lsuTrigger p = true) : portOf p = some (.t, .u, .u) ∧ p ≠ 0x384 := by
  simp only [lsuTrigger, Bool.or_eq_true, Bool.and_eq_true, decide_eq_true_eq, beq_iff_eq] at hp
  obtain rfl | rfl | rfl | rfl | rfl | rfl : p = 0x201 ∨ p = 0x202 ∨ p = 0x203 ∨ p = 0x204 ∨ p = 0x206 ∨ p = 0x207 := by omega
  all_goals decide

/-- The command of an LSU trigger on an aligned address does what the trigger does while the unit is free and no failed load is owed. -/
theorem gives_iff_of_lsuTrigger (hp : lsuTrigger p = true) (he : exec i s = always s (fun h => frondMove h f p v)) (hready : frondReady s.hw f = true)
    (hload : (s.hw.frond f).loadErr = false) (hfree : lsuFull (s.hw.frond f) p = false) (haligned : lsuMisaligned p v = false) :
    Gives i s P ↔ P (portFire (s.hw.setFrond f (moving s.hw f)) f p v) := by
  obtain ⟨hport, hgate⟩ := portOf_lsuTrigger hp
  rw [gives_iff_of_always he, frondMove_fires hready hport hgate hfree haligned (.inl hload)]

end

/-- The frond with a load of n bytes under way. -/
def loadBegun (x : Frond) (n : Nat) (pa : W64) : Frond :=
  { x with load := some ⟨pa.toNat % 2 ^ 53, n, x.world, stS x.st, x.lsuSeq, none⟩, lsuSeq := x.lsuSeq + 1 }

/-- The frond with one more store of n bytes of LSU.SD. -/
def storeBegun (x : Frond) (n : Nat) (pa : W64) : Frond :=
  { x with stores := x.stores ++ [⟨pa.toNat % 2 ^ 53, n, x.lsuSD, x.world, stS x.st, x.lsuSeq, none⟩], lsuSeq := x.lsuSeq + 1 }

/-- The frond f is y, the other fronds and the memories are as they were. -/
def FrondBecomes (h : Hw) (f : Nat) (y : Frond) (h' : Hw) : Prop := h'.frond f = y ∧ (∀ g, g ≠ f → h'.frond g = h.frond g) ∧ h'.mem = h.mem ∧ h'.scratch = h.scratch

theorem frondBecomes_lsuPump (h : Hw) (f : Nat) (y : Frond) : FrondBecomes h f y (lsuPump (h.setFrond f y) f) := by
  have hports := PortsOnly.lsuPump (h.setFrond f y) f
  exact ⟨(hports.frond f).trans (h.frond_setFrond_same f y), fun g hg => (hports.frond g).trans (h.frond_setFrond_other y hg), hports.mem, hports.scratch⟩

theorem lsuLoad_becomes (h : Hw) (f n : Nat) (x : Frond) (pa : W64) : FrondBecomes h f (loadBegun x n pa) (lsuLoad (h.setFrond f x) f n pa) := by
  rw [lsuLoad, Hw.frond_setFrond_same, Hw.setFrond_setFrond_same]
  exact frondBecomes_lsuPump h f (loadBegun x n pa)

theorem lsuStore_becomes (h : Hw) (f n : Nat) (x : Frond) (pa : W64) : FrondBecomes h f (storeBegun x n pa) (lsuStore (h.setFrond f x) f n pa) := by
  rw [lsuStore, Hw.frond_setFrond_same, Hw.setFrond_setFrond_same]
  exact frondBecomes_lsuPump h f (storeBegun x n pa)

theorem portFire_lsu (h : Hw) (f : Nat) (v : W64) : portFire h f 0x201 v = lsuLoad h f 8 v ∧ portFire h f 0x202 v = lsuLoad h f 4 v ∧
    portFire h f 0x203 v = lsuStore h f 8 v ∧ portFire h f 0x204 v = lsuStore h f 4 v ∧ portFire h f 0x206 v = lsuLockOp h f v ∧
    portFire h f 0x207 v = lsuUnlockOp h f := by
  simp [portFire]

/-! ### Line locks (R320) -/

/-- An address in the mat or the cushion of a frond's own region. -/
def lockable (h : Hw) (f pa : Nat) : Bool := match paLocal pa with
  | some off => h.inMem off && memRegion off == f / 2
  | none => false

theorem paLocal_some {pa off : Nat} (hlocal : paLocal pa = some off) : off = pa % 2 ^ 52 := by
  unfold paLocal at hlocal
  split at hlocal
  · exact (Option.some.inj hlocal).symm
  · cases hlocal

section
variable {h : Hw} {f : Nat} {v : W64}

theorem lockable_iff {pa : Nat} : lockable h f pa = true ↔ ∃ off, paLocal pa = some off ∧ (h.inMem off && memRegion off == f / 2) = true := by
  unfold lockable
  cases paLocal pa <;> simp

theorem lsuLockOp_waits (hhere : lockable h f (v.toNat % 2 ^ 53) = true) (hline : (h.frond f).lockLine = none) (hwait : (h.frond f).lockWait = none) :
    lsuLockOp h f v = h.setFrond f { h.frond f with lockWait := some (v.toNat % 2 ^ 52 / 64) } := by
  obtain ⟨off, hlocal, hown⟩ := lockable_iff.mp hhere
  have hoff : v.toNat % 2 ^ 52 = off := by
    rw [paLocal_some hlocal]
    omega
  have hadmitted : (h.inMem off && memRegion off == f / 2 && (h.frond f).lockLine.isNone && (h.frond f).lockWait.isNone) = true := by simp [hown, hline, hwait]
  unfold lsuLockOp
  extract_lets x pa
  rw [show paLocal pa = some off from hlocal, hoff]
  exact if_pos hadmitted

theorem lsuLockOp_fails (hbad : lockable h f (v.toNat % 2 ^ 53) = false ∨ (h.frond f).lockLine ≠ none) :
    lsuLockOp h f v = h.setFrond f { h.frond f with lsuErr := BitVec.ofNat 64 (6 * 2 ^ 61 + v.toNat % 2 ^ 53) } := by
  have herr : lsuErrWord 6 (v.toNat % 2 ^ 53) = BitVec.ofNat 64 (6 * 2 ^ 61 + v.toNat % 2 ^ 53) := by rw [lsuErrWord, Nat.mod_mod]
  rw [← herr]
  unfold lsuLockOp
  extract_lets x pa
  cases hlocal : paLocal pa with
  | none => rfl
  | some off =>
    have hrefused : ¬ (h.inMem off && memRegion off == f / 2 && x.lockLine.isNone && x.lockWait.isNone) = true := by
      rcases hbad with hout | hheld
      · rw [lockable, show paLocal (v.toNat % 2 ^ 53) = some off from hlocal] at hout
        simp only at hout
        simp [hout]
      · simp [x, hheld]
    exact if_neg hrefused

theorem lsuLockAcquired_eq {l : Nat} (hlive : frondLive h f = true) (hwait : (h.frond f).lockWait = some l)
    (halone : ∀ g, g < 8 → g ≠ f → (h.frond g).lockLine ≠ some l ∧ (g < f → (h.frond g).lockWait ≠ some l)) :
    lsuLockAcquired f h = h.setFrond f { h.frond f with lockWait := none, lockLine := some l, lockBrk := false, lockAt := h.tb.toNat, heldWas := false } := by
  have hfree : (List.range 8).any (fun g => g != f && ((h.frond g).lockLine == some l || (decide (g < f) && (h.frond g).lockWait == some l))) = false := by
    simp only [List.any_eq_false, List.mem_range, Bool.and_eq_true, bne_iff_ne, Bool.or_eq_true, beq_iff_eq, decide_eq_true_eq]
    rintro g hg ⟨hne, hholds | ⟨hlt, hwaits⟩⟩
    · exact (halone g hg hne).1 hholds
    · exact (halone g hg hne).2 hlt hwaits
  simp [lsuLockAcquired, hwait, hlive, hfree]

theorem stepEnd_of_no_step (hstep : (h.frond f).stepReq = false) : stepEnd h f = h := by simp [stepEnd, hstep]

theorem lsuLockBreak_eq {l : Nat} (hline : (h.frond f).lockLine = some l) (hlong : 25 ≤ (h.tb - BitVec.ofNat 64 (h.frond f).lockAt).toNat)
    (hhalt : (h.frond f).haltReq = false) (hstep : (h.frond f).stepReq = false) :
    lsuLockBreak f h = h.setFrond f { h.frond f with lockLine := none, lockBrk := true } := by
  unfold lsuLockBreak
  extract_lets x h1
  have hbreaks : (x.lockLine.isSome && decide (25 ≤ lockTicks h x)) = true := by
    rw [hline, lockTicks]
    simpa using hlong
  have hquiet : ¬ (x.haltReq || x.stepReq) = true := by simp [x, hhalt, hstep]
  rw [if_pos hbreaks, if_neg hquiet]
  exact stepEnd_of_no_step (by rw [h.frond_setFrond_same, hstep])

end

/-! ### Answers (R309, R317 to R319) -/

section
variable {h : Hw} {f : Nat} {par : Par} {meets : List Meet}

theorem lsuLoadDone_scratch {l : LsuLoad} (hload : (h.frond f).load = some l) (hserved : l.served = none) (htarget : lsuTarget h l.pa = 1)
    (hblocked : lsuBlocked h f l.seq 1 = false) (hline : lsuLineWaits h f l.pa = false) :
    lsuLoadDone f par meets h = lsuGive h f l (BitVec.ofNat 64 (leNat (memGets h.scratch (f * 65536 + l.pa % 2 ^ 52 % 65536) l.size))) 0 := by
  simp [lsuLoadDone, hload, hserved, htarget, hblocked, hline, lsuServeLoad]

theorem lsuLoadDone_served {l : LsuLoad} {v : W64} {c : Nat} (hload : (h.frond f).load = some l) (hserved : l.served = some (v, c)) :
    lsuLoadDone f par meets h = lsuGive h f l v c := by
  simp [lsuLoadDone, hload, hserved]

/-- The frond once a load has delivered. -/
def loadGiven (x : Frond) (l : LsuLoad) (v : W64) (c : Nat) : Frond :=
  { x with load := none, lsuD := if c = 0 then v else 0, lsuErr := if c = 0 then x.lsuErr else lsuErrWord c l.pa, loadErr := x.loadErr || c != 0 }

theorem lsuGive_becomes (h : Hw) (f : Nat) (l : LsuLoad) (v : W64) (c : Nat) : FrondBecomes h f (loadGiven (h.frond f) l v c) (lsuGive h f l v c) :=
  frondBecomes_lsuPump h f _

/-- The frond once a store has been acknowledged. -/
def storeTaken (x : Frond) (t : LsuStore) (c : Nat) : Frond :=
  { x with
    stores := x.stores.filter (fun u => u.seq != t.seq), lsuErr := if c = 0 then x.lsuErr else lsuErrWord c t.pa, storeErr := x.storeErr || c != 0 }

theorem lsuTake_becomes (h : Hw) (f : Nat) (t : LsuStore) (c : Nat) : FrondBecomes h f (storeTaken (h.frond f) t c) (lsuTake h f t c) :=
  frondBecomes_lsuPump h f _

/-- The block with the bytes of a store in the frond's scratch. -/
def scratchStored (h : Hw) (f : Nat) (t : LsuStore) : Hw :=
  { h with scratch := memSets h.scratch (f * 65536 + t.pa % 2 ^ 52 % 65536) ((leBytes 8 t.data.toNat).take t.size) }

theorem lsuStoreAck_scratch {t : LsuStore} (hready : lsuStoreReady h f = some t) (hserved : t.served = none) (htarget : lsuTarget h t.pa = 1) :
    lsuStoreAck f par meets h = lsuTake (scratchStored h f t) f t 0 := by
  simp [lsuStoreAck, hready, hserved, lsuServeStore, htarget, scratchStored]

end

end Sys2Proof.Machine

namespace Sys2Proof.Proofs.Fronds
open Sys2Proof Sys2Proof.Machine

/-- Settles O5: each trigger records its access, and what it sends on touches the host ports alone. -/
theorem lsuTriggersRecordTheAccess : Obligations.LsuTriggersRecordTheAccess := by
  unfold Obligations.LsuTriggersRecordTheAccess
  intro s f pa hready hload x keeps load store
  obtain ⟨hld8, hld4, hst8, hst4, -, -⟩ := portFire_lsu (s.hw.setFrond f x) f pa
  refine ⟨fun haligned hnone => ?_, fun haligned hnone => ?_, fun haligned hroom => ?_, fun haligned hroom => ?_⟩
  · have hfree : lsuFull (s.hw.frond f) 0x201 = false := by simp [lsuFull, show (s.hw.frond f).load = none from hnone]
    rw [gives_iff_of_lsuTrigger (p := 0x201) (by decide) rfl hready hload hfree (by simp [lsuMisaligned, haligned]), hld8]
    exact lsuLoad_becomes s.hw f 8 x pa
  · have hfree : lsuFull (s.hw.frond f) 0x202 = false := by simp [lsuFull, show (s.hw.frond f).load = none from hnone]
    rw [gives_iff_of_lsuTrigger (p := 0x202) (by decide) rfl hready hload hfree (by simp [lsuMisaligned, haligned]), hld4]
    exact lsuLoad_becomes s.hw f 4 x pa
  · have hfree : lsuFull (s.hw.frond f) 0x203 = false := by simp [lsuFull, show (s.hw.frond f).stores.length < 4 from hroom]
    rw [gives_iff_of_lsuTrigger (p := 0x203) (by decide) rfl hready hload hfree (by simp [lsuMisaligned, haligned]), hst8]
    exact lsuStore_becomes s.hw f 8 x pa
  · have hfree : lsuFull (s.hw.frond f) 0x204 = false := by simp [lsuFull, show (s.hw.frond f).stores.length < 4 from hroom]
    rw [gives_iff_of_lsuTrigger (p := 0x204) (by decide) rfl hready hload hfree (by simp [lsuMisaligned, haligned]), hst4]
    exact lsuStore_becomes s.hw f 4 x pa

/-- Settles O8: the lock's states are those of LSU.LOCK, the acquisition, LSU.UNLOCK and the break. -/
theorem lineLocksAreTakenReleasedAndBroken : Obligations.LineLocksAreTakenReleasedAndBroken := by
  unfold Obligations.LineLocksAreTakenReleasedAndBroken
  refine ⟨?_, fun s f l hlive hwait halone => ?_, fun s f l hclk hline hlong hhalt hstep => ?_⟩
  · intro s f pa hready hload x here
    obtain ⟨-, -, -, hheld, -, -⟩ := frondReady_iff.mp hready
    have hnowait : x.lockWait = none := by
      simp only [heldInT, Bool.or_eq_false_iff, Option.isSome_eq_false_iff, Option.isNone_iff_eq_none] at hheld
      exact hheld.2
    have hfrond : (s.hw.setFrond f x).frond f = x := s.hw.frond_setFrond_same f x
    obtain ⟨-, -, -, -, hlock, hunlock⟩ := portFire_lsu (s.hw.setFrond f x) f pa
    have hfree : ∀ p, p = 0x206 ∨ p = 0x207 → lsuFull (s.hw.frond f) p = false := by rintro p (rfl | rfl) <;> simp [lsuFull]
    refine ⟨?_, ?_⟩
    · rw [gives_iff_of_lsuTrigger (p := 0x206) (by decide) rfl hready hload (hfree _ (.inl rfl)) (by simp [lsuMisaligned]), hlock]
      refine ⟨fun ⟨hhere, hline⟩ => ?_, fun hbad => ?_⟩
      · rw [lsuLockOp_waits (h := s.hw.setFrond f x) hhere (by rw [hfrond, hline]) (by rw [hfrond, hnowait]), hfrond, Hw.setFrond_setFrond_same]
      · rw [lsuLockOp_fails (h := s.hw.setFrond f x) (by rw [hfrond]; exact hbad), hfrond, Hw.setFrond_setFrond_same]
    · rw [gives_iff_of_lsuTrigger (p := 0x207) (v := pa) (by decide) rfl hready hload (hfree _ (.inr rfl)) (by simp [lsuMisaligned]), hunlock, lsuUnlockOp, hfrond,
        Hw.setFrond_setFrond_same]
  · rw [gives_iff_of_onClock rfl (clocked_of_frondLive hlive), lsuLockAcquired_eq hlive hwait halone]
  · rw [gives_iff_of_onClock rfl hclk, lsuLockBreak_eq hline hlong hhalt hstep]

/-- Settles O9: a load's value or its failure reaches the frond, a store's bytes reach its scratch, and what follows touches the host ports alone. -/
theorem lsuAnswersDeliverAndStore : Obligations.LsuAnswersDeliverAndStore := by
  unfold Obligations.LsuAnswersDeliverAndStore
  refine ⟨fun s f x l hclk hload => ⟨fun hserved htarget hblocked hline => ?_, fun v c hserved hc => ?_⟩, fun s f par meets t hclk hready hserved htarget => ?_⟩
  · rw [gives_iff_of_onClock rfl hclk, lsuLoadDone_scratch hload hserved htarget hblocked hline]
    obtain ⟨hfrond, -, hmem, hscratch⟩ := lsuGive_becomes s.hw f l (BitVec.ofNat 64 (leNat (memGets s.hw.scratch (f * 65536 + l.pa % 2 ^ 52 % 65536) l.size))) 0
    rw [hfrond]
    exact ⟨rfl, rfl, Bool.or_false _, hmem, hscratch⟩
  · rw [gives_iff_of_onClock rfl hclk, lsuLoadDone_served hload hserved]
    obtain ⟨hfrond, -, hmem, -⟩ := lsuGive_becomes s.hw f l v c
    rw [hfrond]
    exact ⟨rfl, if_neg hc, by simp [loadGiven, hc], if_neg hc, hmem⟩
  · rw [gives_iff_of_onClock rfl hclk, lsuStoreAck_scratch hready hserved htarget]
    obtain ⟨hfrond, -, hmem, hscratch⟩ := lsuTake_becomes (scratchStored s.hw f t) f t 0
    refine ⟨by rw [hfrond]; rfl, hscratch, fun b hb => ?_, hmem⟩
    rw [hscratch]
    exact memGet_memSets_other _ _ _ _ hb

end Sys2Proof.Proofs.Fronds
end

section
/-!
SUPPORT. Faults, gates and the status word (R334 to R347): what an entry saves and where it goes, and the ports of the frond's own state.
-/
namespace Sys2Proof.Machine

/-! ### The frond without its units -/

/-- The frond with the registers of its units blank: what FPU results on their way, words that pass and ROM routines touch is gone, and its control state stands. -/
def Frond.control (x : Frond) : Frond :=
  { x with fY := [], fFlg := 0, fPend := [], fpOwed := false, resWait := 0, istWait := 0, heldWas := false, aluR := 0, aluF := 0, msM := 0, msACC := 0, msQ := 0, p := 0 }

theorem foldl_fpuPut_control (os : List FpuOp) (x : Frond) : (os.foldl fpuPut x).control = x.control := by
  induction os generalizing x with
  | nil => rfl
  | cons o os ih => exact ih (fpuPut x o)

theorem fpuPass_control (x : Frond) (n : Nat) : (fpuPass x n).control = x.control := by
  unfold fpuPass
  split
  · rfl
  · exact foldl_fpuPut_control _ _

/-- Cycles that pass leave the control state (R308, R315). -/
theorem Frond.pass_control (x : Frond) (n : Nat) : (x.pass n).control = x.control := fpuPass_control x n

/-! ### Fields of the status words (R334, R342) -/

theorem bit_eq (v i : Nat) : bit v i = decide (v / 2 ^ i % 2 = 1) := by rw [bit, Nat.shiftRight_eq_div_pow, Bool.beq_eq_decide_eq]

theorem bits_eq (v hi lo : Nat) : bits v hi lo = v / 2 ^ lo % 2 ^ (hi + 1 - lo) := by rw [bits, Nat.shiftRight_eq_div_pow]

theorem wIx_eq (w : World) : (w == .tenant) = decide (wIx w = 1) := by cases w <;> rfl

theorem wIx_le (w : World) : wIx w ≤ 1 := by cases w <;> decide

/-- The status of an entry: supervisor, the priority as ML, held off, no traps, and the world of the frond. -/
theorem stEntry_fields (x : Frond) {ml : Nat} (hml : ml < 16) : stS (stEntry x ml) = true ∧ stML (stEntry x ml) = ml ∧ stHOLD (stEntry x ml) = true ∧
    stFTE (stEntry x ml) = false ∧ bit (stEntry x ml).toNat 31 = (x.world == .tenant) := by
  have hw := wIx_le x.world
  have hnat : (stEntry x ml).toNat = wIx x.world * 2 ^ 31 + 2 ^ 30 + ml * 2 ^ 26 + 2 ^ 24 := by
    rw [stEntry, BitVec.toNat_ofNat]
    omega
  simp only [stS, stML, stHOLD, stFTE, bit_eq, bits_eq, wIx_eq, hnat, decide_eq_true_eq, decide_eq_false_iff_not, decide_eq_decide]
  omega

/-- A status taken from a written value: the value's fields and the world of the frond. -/
theorem stTake_fields (x : Frond) (v : W64) : bits (stTake x v).toNat 30 24 = bits v.toNat 30 24 ∧ bit (stTake x v).toNat 31 = (x.world == .tenant) := by
  have hw := wIx_le x.world
  have hv : bits v.toNat 30 24 < 128 := Nat.mod_lt _ (by decide)
  have hnat : (stTake x v).toNat = wIx x.world * 2 ^ 31 + bits v.toNat 30 24 * 2 ^ 24 := by
    rw [stTake, BitVec.toNat_ofNat]
    omega
  rw [hnat]
  generalize bits v.toNat 30 24 = b at hv
  simp only [bit_eq, bits_eq, wIx_eq, decide_eq_decide]
  omega

/-- The saved status of an entry: the old status above, the entry and its cause below. -/
theorem sstEntry_fields (x : Frond) {ent cause : Nat} (hent : ent < 4) (hcause : cause < 64) : bits (sstEntry x ent cause).toNat 31 24 = bits x.st.toNat 31 24 ∧
    bits (sstEntry x ent cause).toNat 15 14 = ent ∧ bits (sstEntry x ent cause).toNat 13 8 = cause := by
  unfold sstEntry
  extract_lets t q
  obtain ⟨a, ha, hta⟩ : ∃ a, a < 64 ∧ t = a * 2 ^ 18 := by
    unfold t
    split
    next z _ =>
      have hmw : (if z.nam = nMWAY then z.mw.toNat else 0) < 16 := by
        split
        · exact z.mw.isLt
        · decide
      have htaken := b2n_lt z.taken
      exact ⟨32 + b2n z.taken * 16 + (if z.nam = nMWAY then z.mw.toNat else 0), by omega, by omega⟩
    next => exact ⟨0, by decide, rfl⟩
  obtain ⟨b, hb, hqb⟩ : ∃ b, b < 4 ∧ q = b * 2 ^ 16 := by
    unfold q
    split
    next n _ =>
      have hn := b2n_lt n
      exact ⟨2 + b2n n, by omega, by omega⟩
    next => exact ⟨0, by decide, rfl⟩
  have hst : x.st.toNat / 2 ^ 24 % 256 < 256 := Nat.mod_lt _ (by decide)
  simp only [bits_eq, BitVec.toNat_ofNat, hta, hqb]
  omega

/-! ### Moves that fault or act on the frond's own state -/

section
variable {h : Hw} {f p : Nat} {v : W64}

/-- A misaligned trigger of a free unit takes LSU_ALIGN (R317). -/
theorem frondMove_misaligned (hready : frondReady h f = true) (hport : portOf p = some (.t, .u, .u)) (hgate : p ≠ 0x384) (hfree : lsuFull (h.frond f) p = false)
    (hmis : lsuMisaligned p v = true) : frondMove h f p v = faultTake h f ftALIGN := by
  obtain ⟨hlive, hrun, hhalt, hheld, hfp, hstore⟩ := frondReady_iff.mp hready
  have hst : p ≠ 0x380 := by
    rintro rfl
    exact absurd hport (by decide)
  have hbad : movePortBad ⟨0, none, .imm v, p⟩ = false := by simp [movePortBad, hport, PKind.writable]
  have hpriv : movePriv ⟨0, none, .imm v, p⟩ (h.frond f).world (stS (h.frond f).st) (vendorAddr (h.frond f).pc.toNat) = false := by
    simp [movePriv, hport, levelOk]
  unfold lsuFull at hfree
  simp [frondMove, hlive, hrun, hhalt, hheld, hfp, hstore, hbad, hpriv, hfree, hmis, hst, hgate]

/-- A move at user level to a port that the supervisor alone writes takes PRIV (R307). -/
theorem frondMove_priv (hready : frondReady h f = true) (huser : stS (h.frond f).st = false) {k : PKind} {l : PLevel} (hport : portOf p = some (k, l, .s))
    (hk : k.writable = true) (hst : p ≠ 0x380) : frondMove h f p v = faultTake h f ftPRIV := by
  obtain ⟨hlive, hrun, hhalt, hheld, hfp, hstore⟩ := frondReady_iff.mp hready
  have hbad : movePortBad ⟨0, none, .imm v, p⟩ = false := by simp [movePortBad, hport, hk]
  have hpriv : movePriv ⟨0, none, .imm v, p⟩ (h.frond f).world false (vendorAddr (h.frond f).pc.toNat) = true := by simp [movePriv, hport, levelOk]
  simp [frondMove, hlive, hrun, hhalt, hheld, hfp, hstore, hbad, huser, hpriv, hst]

/-- A write of SYS.GATE that R344 admits enters its gate. -/
theorem frondMove_gate (hready : frondReady h f = true) (hgate : gateBad h f v = false) (hdelay : (h.frond f).inDelay = false) (hrep : (h.frond f).rep = none) :
    frondMove h f 0x384 v = gateEnter (h.setFrond f (moving h f)) f (v.toNat % 64) := by
  obtain ⟨hlive, hrun, hhalt, hheld, hfp, hstore⟩ := frondReady_iff.mp hready
  have hbad : movePortBad ⟨0, none, .imm v, 0x384⟩ = false := rfl
  have hpriv : movePriv ⟨0, none, .imm v, 0x384⟩ (h.frond f).world (stS (h.frond f).st) (vendorAddr (h.frond f).pc.toNat) = false := rfl
  simp [frondMove, hlive, hrun, hhalt, hheld, hfp, hstore, hbad, hpriv, hgate, hdelay, hrep, lsuMisaligned, moving]

/-- A supervisor's write of SYS.ST that R336 admits, with none waiting, waits for its shadow word. -/
theorem frondMove_st (hready : frondReady h f = true) (hsup : stS (h.frond f).st = true) (hrep : (h.frond f).rep = none) (hgood : stBad v = false)
    (hnext : (h.frond f).stNext = none) : frondMove h f 0x380 v = h.setFrond f { moving h f with stNext := some v } := by
  obtain ⟨hlive, hrun, hhalt, hheld, hfp, hstore⟩ := frondReady_iff.mp hready
  have hbad : movePortBad ⟨0, none, .imm v, 0x380⟩ = false := rfl
  have hpriv : movePriv ⟨0, none, .imm v, 0x380⟩ (h.frond f).world true (vendorAddr (h.frond f).pc.toNat) = false := rfl
  have htrigger : isTrigger 0x380 = false := rfl
  simp [frondMove, hlive, hrun, hhalt, hheld, hfp, hstore, hbad, hpriv, hsup, hrep, hgood, hnext, htrigger, lsuMisaligned, moving]

/-- A supervisor's write of 1 to SYS.PFL empties the return-address stack. -/
theorem frondMove_pfl (hready : frondReady h f = true) (hsup : stS (h.frond f).st = true) : frondMove h f 0x386 1 = h.setFrond f { moving h f with ras := [] } := by
  obtain ⟨hlive, hrun, hhalt, hheld, hfp, hstore⟩ := frondReady_iff.mp hready
  have hbad : movePortBad ⟨0, none, .imm 1#64, 0x386⟩ = false := rfl
  have hpriv : movePriv ⟨0, none, .imm 1#64, 0x386⟩ (h.frond f).world true (vendorAddr (h.frond f).pc.toNat) = false := rfl
  simp [frondMove, hlive, hrun, hhalt, hheld, hfp, hstore, hbad, hpriv, hsup, lsuMisaligned, moving]

theorem portFire_fpbar (h : Hw) (f : Nat) (v : W64) : portFire h f 0x387 v = h.setFrond f { h.frond f with fpbar := true } := by simp [portFire]

end

/-! ### Entries (R341, R342, R344) -/

section
variable {h : Hw} {f : Nat}

theorem faultEntry_setFrond (h : Hw) (f ix : Nat) {y : Frond} (hy : y.xbase = (h.frond f).xbase) : faultEntry (h.setFrond f y) f ix = faultEntry h f ix := by
  simp [faultEntry, scratchWord, hy]

theorem gateEntry_setFrond (h : Hw) (f g : Nat) {y : Frond} (hy : y.xbase = (h.frond f).xbase) : gateEntry (h.setFrond f y) f g = gateEntry h f g := by
  simp [gateEntry, scratchWord, hy]

theorem handlerBad_setFrond (h : Hw) (f a : Nat) {y : Frond} (hy : y.world = (h.frond f).world) : handlerBad (h.setFrond f y) f a = handlerBad h f a := by
  rw [handlerBad, handlerBad, h.frond_setFrond_same, hy]
  rfl

theorem Hw.setFrond_wr (h : Hw) (f : Nat) (y : Frond) (a : Nat) (v : W32) : (h.setFrond f y).wr a v = (h.wr a v).setFrond f y := rfl

theorem Hw.setFrond_addSat (h : Hw) (f : Nat) (y : Frond) (a : Nat) (fl : Fld) (n : Nat) : (h.setFrond f y).addSat a fl n = (h.addSat a fl n).setFrond f y := rfl

/-- The frond as a fault leaves it, at an address. -/
def faulted (x : Frond) (idx : Nat) (a : BitVec 16) : Frond :=
  { x with
    sra := x.pc, sst := sstEntry x 1 idx, st := stEntry x (faultPrio idx), xfer := none, rep := none, repBusy := false, fpbar := false, run := .run,
    presented := none, pc := a }

/-- What the entry of a fault saves and sets stands in every frond with its control state. -/
theorem faulted_fields {x y : Frond} {idx : Nat} {a : BitVec 16} (hy : y.control = (faulted x idx a).control) :
    y.sra = x.pc ∧ y.pc = a ∧ y.sst = sstEntry x 1 idx ∧ y.st = stEntry x (faultPrio idx) ∧ y.run = .run ∧ y.load = x.load ∧ y.stores = x.stores ∧ y.ras = x.ras ∧
      y.pstack = x.pstack := by
  simp only [Frond.control, faulted, Frond.mk.injEq] at hy
  simp only [hy, and_self]

/-- The block with a fault that is not escalated counted and recorded. -/
def faultLogged (h : Hw) (f idx pc : Nat) : Hw :=
  ((h.addSat (FRN_FCNT f) FRN_FCNT_FAULTS 1).addSat (FRN_FCNT f) FRN_FCNT_ESC 0).wr (FRN_LASTF f) (BitVec.ofNat 32 (idx * 2 ^ 26 + 2 ^ 24 + pc))

/-- A frond with no status waiting is itself once the waiting status has taken effect (R336). -/
theorem Frond.settled {y : Frond} (hnext : y.stNext = none) : ({ y with st := y.st, stNext := none } : Frond) = y := by
  cases y
  cases hnext
  rfl

/-- A fault above the frond's ML whose table entry is valid and admitted, outside a RETX delay word, enters its handler (R341, R342, R345). -/
theorem faultEnter_handler {idx : Nat} (hretx : (h.frond f).retx = false) (hnext : (h.frond f).stNext = none) (hstep : (h.frond f).stepReq = false)
    (hml : stML (h.frond f).st < faultPrio idx) (hprio : faultPrio idx < 16) (hvalid : bit (faultEntry h f idx) 31 = true)
    (hgood : handlerBad h f (faultEntry h f idx % 65536) = false) :
    faultEnter h f idx = (faultLogged h f idx (h.frond f).pc.toNat).setFrond f ((faulted (h.frond f) idx (BitVec.ofNat 16 (faultEntry h f idx))).pass entryCycles) := by
  have h15 : stML (h.frond f).st ≠ 15 := by omega
  have hlow : ¬ faultPrio idx ≤ stML (h.frond f).st := by omega
  unfold faultEnter
  extract_lets y x h0 pc esc ent h1 h2 h3 z h4
  have hx : x = h.frond f := by
    simp only [x, y, hnext]
    exact Frond.settled hnext
  clear_value x
  subst hx
  have hesc : esc = false := decide_eq_false hlow
  clear_value esc
  subst hesc
  have hent : ent = faultEntry h f idx := faultEntry_setFrond h f idx rfl
  clear_value ent
  subst hent
  have hwritten : h1 = h.setFrond f (faulted (h.frond f) idx (h.frond f).pc) := by
    unfold h1 h0
    rw [Hw.setFrond_setFrond_same]
    rfl
  clear_value h1
  subst hwritten
  have hlogged : h3 = (faultLogged h f idx pc).setFrond f (faulted (h.frond f) idx (h.frond f).pc) := by
    unfold h3 h2
    rw [Hw.setFrond_addSat, Hw.setFrond_addSat, Hw.setFrond_wr]
    rfl
  rw [if_neg (by rw [hretx]; decide), if_neg h15, if_neg (by rw [hvalid, handlerBad_setFrond h f _ rfl, hgood]; decide), if_neg (by rw [hstep]; decide)]
  unfold h4 z
  rw [hlogged, Hw.frond_setFrond_same, Hw.setFrond_setFrond_same]
  rfl

/-- A fault that owes nothing and captures nothing is entered as it stands (R294, R316, R319). -/
theorem faultTake_eq {idx : Nat} (hidx : idx ≠ ftCSPAR ∧ idx ≠ ftFP ∧ idx ≠ ftLSU) : faultTake h f idx = faultEnter h f idx := by
  obtain ⟨hcs, hfp, hlsu⟩ := hidx
  simp [faultTake, hcs, hfp, hlsu]

/-- The frond in the handler of a gate. -/
def gated (x : Frond) (g : Nat) (a : BitVec 16) : Frond :=
  { x with sra := x.pc, sst := sstEntry x 3 g, st := stEntry x (stML x.st), presented := none, pc := a }

theorem gated_at (x : Frond) (g : Nat) (a b : BitVec 16) : ({ gated x g a with pc := b } : Frond) = gated x g b := by simp only [gated]

/-- What the entry of a gate saves and sets stands in every frond with its control state. -/
theorem gated_fields {x y : Frond} {g : Nat} {a : BitVec 16} (hy : y.control = (gated x g a).control) :
    y.sra = x.pc ∧ y.pc = a ∧ y.sst = sstEntry x 3 g ∧ y.st = stEntry x (stML x.st) ∧ y.ras = x.ras := by
  simp only [Frond.control, gated, Frond.mk.injEq] at hy
  simp only [hy, and_self]

/-- A gate whose handler is admitted, with no status waiting, is entered (R342, R344). -/
theorem gateEnter_handler {g : Nat} (hnext : (h.frond f).stNext = none) (hgood : handlerBad h f (gateEntry h f g % 65536) = false) :
    gateEnter h f g = (h.wr (FRN_LASTF f) (BitVec.ofNat 32 (g * 2 ^ 26 + 3 * 2 ^ 24 + (h.frond f).pc.toNat))).setFrond f
      ((gated (h.frond f) g (BitVec.ofNat 16 (gateEntry h f g))).pass entryCycles) := by
  unfold gateEnter
  extract_lets y x e h1 z
  have hx : x = h.frond f := by
    simp only [x, y, hnext]
    exact Frond.settled hnext
  clear_value x
  subst hx
  have hwritten : h1 = h.setFrond f (gated (h.frond f) g (h.frond f).pc) := rfl
  clear_value h1
  subst hwritten
  rw [if_neg (by rw [hgood]; decide)]
  unfold z
  rw [Hw.frond_setFrond_same, Hw.setFrond_setFrond_same, Hw.setFrond_wr, gated_at]

/-! ### Lockup (R347) -/

theorem bit_eq_true_iff (v : W32) (i : Nat) : bit v.toNat i = true ↔ fldGet ⟨i, 1⟩ v = 1 := by
  simp [bit, fldGet, bits]

/-- A locked-up frond that is not stepped shows the cause, the fault and its address, and its bit of SYS_LOCK. -/
theorem frondLockup_shows {why idx pc : Nat} (hf : f < 8) (hstep : (h.frond f).stepReq = false) :
    ((frondLockup h f why idx pc).frond f).run = .lockup ∧
    (frondLockup h f why idx pc).rd (FRN_LOCK f) = BitVec.ofNat 32 (2 ^ 31 + why * 2 ^ 28 + idx * 2 ^ 22 + pc) ∧
    bit ((frondLockup h f why idx pc).rd SYS_LOCK).toNat f = true := by
  have hsys : FRN_LOCK f ≠ SYS_LOCK := by
    unfold FRN_LOCK SYS_LOCK
    omega
  have hst : FRN_LOCK f ≠ FRN_LOCKST f := by
    unfold FRN_LOCK FRN_LOCKST
    omega
  unfold frondLockup
  extract_lets x h1 h2 h3
  rw [if_neg (by rw [hstep]; decide)]
  refine ⟨?_, ?_, ?_⟩
  · have hfrond : h3.frond f = h1.frond f := rfl
    rw [hfrond, Hw.frond_setFrond_same]
  · unfold h3 h2
    rw [Hw.rd_wf_other _ _ _ hsys, Hw.rd_wr_other _ _ hst, Hw.rd_wr_same]
  · have hfld : fldInWord ⟨f, 1⟩ = true := by
      simp only [fldInWord, Bool.and_eq_true, decide_eq_true_eq]
      omega
    rw [bit_eq_true_iff]
    exact Hw.rf_wf_same _ _ hfld 1

/-- At ML 15 a fault outside a RETX delay word locks the frond up with cause 1. -/
theorem faultEnter_lockup {idx : Nat} (hretx : (h.frond f).retx = false) (hnext : (h.frond f).stNext = none) (hml : stML (h.frond f).st = 15) :
    faultEnter h f idx = frondLockup (h.setFrond f (h.frond f)) f 1 idx (h.frond f).pc.toNat := by
  unfold faultEnter
  extract_lets y x h0 pc esc ent h1 h2 h3 z h4
  have hx : x = h.frond f := by
    simp only [x, y, hnext]
    exact Frond.settled hnext
  clear_value x
  subst hx
  rw [if_neg (by rw [hretx]; decide), if_pos hml]

end

end Sys2Proof.Machine

namespace Sys2Proof.Proofs.Fronds
open Sys2Proof Sys2Proof.Machine

/-- Settles O6: the trigger takes LSU_ALIGN, and the entry saves the word and the status and goes to the handler. -/
theorem misalignedLsuTriggerTakesItsFault : Obligations.MisalignedLsuTriggerTakesItsFault := by
  unfold Obligations.MisalignedLsuTriggerTakesItsFault
  intro s f pa hready hmis x hload hroom hretx hnext hstep hml e hvalid hgood i hi
  obtain ⟨p, hp, he⟩ : ∃ p, (p = 0x201 ∨ p = 0x203) ∧ exec i s = always s (fun h => frondMove h f p pa) := by
    simp only [List.mem_cons, List.not_mem_nil, or_false] at hi
    rcases hi with rfl | rfl
    · exact ⟨0x201, .inl rfl, rfl⟩
    · exact ⟨0x203, .inr rfl, rfl⟩
  have hport : portOf p = some (.t, .u, .u) ∧ p ≠ 0x384 := by rcases hp with rfl | rfl <;> decide
  have hfree : lsuFull (s.hw.frond f) p = false := by simp [lsuFull, show (s.hw.frond f).load = none from hload, show (s.hw.frond f).stores.length < 4 from hroom]
  have hodd : lsuMisaligned p pa = true := by rcases hp with rfl | rfl <;> simp [lsuMisaligned, hmis]
  rw [gives_iff_of_always he, frondMove_misaligned hready hport.1 hport.2 hfree hodd, faultTake_eq (by decide),
    faultEnter_handler (idx := ftALIGN) hretx hnext hstep hml (by decide) hvalid hgood]
  intro y
  have hy : y.control = (faulted x ftALIGN (BitVec.ofNat 16 e)).control := by
    unfold y
    rw [Hw.frond_setFrond_same]
    exact Frond.pass_control _ _
  obtain ⟨hsra, hpc, hysst, hyst, hrun, hyload, hstores, -, -⟩ := faulted_fields hy
  obtain ⟨hsst, hent, hcause⟩ := sstEntry_fields x (ent := 1) (cause := ftALIGN) (by decide) (by decide)
  obtain ⟨hS, hML, hHOLD, hFTE, hW⟩ := stEntry_fields x (ml := faultPrio ftALIGN) (by decide)
  rw [hysst, hyst]
  exact ⟨hsra, hpc, hyload.trans hload, hstores, hrun, hsst, hent, hcause, hS, hML, hHOLD, hFTE, hW, rfl, rfl, fun g hg => Hw.frond_setFrond_other _ _ hg⟩

/-- Settles O7: at user level each of the ports takes PRIV, whose entry changes the frond and the record of faults alone; at ML 15 the frond locks up. -/
theorem privilegedPortAtUserLevelRaisesPriv : Obligations.PrivilegedPortAtUserLevelRaisesPriv := by
  unfold Obligations.PrivilegedPortAtUserLevelRaisesPriv
  intro s f v hready x huser hretx hnext hstep i hi
  obtain ⟨p, k, l, hport, hk, hst, he⟩ : ∃ p k l, portOf p = some (k, l, .s) ∧ PKind.writable k = true ∧ p ≠ 0x380 ∧ exec i s = always s (fun h => frondMove h f p v) := by
    simp only [List.mem_cons, List.not_mem_nil, or_false] at hi
    rcases hi with rfl | rfl | rfl | rfl | rfl
    · exact ⟨0x390, .w, .s, rfl, rfl, by decide, rfl⟩
    · exact ⟨0x386, .t, .s, rfl, rfl, by decide, rfl⟩
    · exact ⟨0x320, .t, .s, rfl, rfl, by decide, rfl⟩
    · exact ⟨0x2C1, .t, .s, rfl, rfl, by decide, rfl⟩
    · exact ⟨0x2C4, .t, .s, rfl, rfl, by decide, rfl⟩
  rw [gives_iff_of_always he, gives_iff_of_always he, frondMove_priv hready huser hport hk hst, faultTake_eq (by decide)]
  refine ⟨fun hml hvalid hgood => ?_, fun hml => ?_⟩
  · rw [faultEnter_handler (idx := ftPRIV) hretx hnext hstep hml (by decide) hvalid hgood]
    rw [Hw.frond_setFrond_same]
    obtain ⟨hsra, hpc, hysst, hyst, -, -, -, hras, hpstack⟩ := faulted_fields (Frond.pass_control (faulted x ftPRIV (BitVec.ofNat 16 (faultEntry s.hw f 9))) entryCycles)
    obtain ⟨-, -, hcause⟩ := sstEntry_fields x (ent := 1) (cause := ftPRIV) (by decide) (by decide)
    obtain ⟨hS, hML, -, -, -⟩ := stEntry_fields x (ml := faultPrio ftPRIV) (by decide)
    rw [← hysst] at hcause
    rw [← hyst] at hS hML
    exact ⟨hsra, hcause, hS, hML, hpc, hras, hpstack, rfl, rfl, rfl⟩
  · have hf : f < 8 := lt_eight_of_frondLive (frondReady_iff.mp hready).1
    obtain ⟨hrun, hlock, hsys⟩ := frondLockup_shows (h := s.hw.setFrond f x) (why := 1) (idx := ftPRIV) (pc := x.pc.toNat) hf (by rw [Hw.frond_setFrond_same]; exact hstep)
    rw [faultEnter_lockup hretx hnext hml, hlock]
    have hpc := x.pc.isLt
    refine ⟨hrun, ?_, ?_, hsys⟩
    · simp only [bits_eq, BitVec.toNat_ofNat, ftPRIV]
      omega
    · simp only [bits_eq, BitVec.toNat_ofNat, ftPRIV]
      omega

/-- Settles O13: a gate enters its handler as a fault does, and the other ports change the frond alone. -/
theorem gateStatusFlushAndBarrierPorts : Obligations.GateStatusFlushAndBarrierPorts := by
  unfold Obligations.GateStatusFlushAndBarrierPorts
  intro s f v hready x e
  refine ⟨fun hgate hdelay hrep hnext hgood => ?_, fun hsup hrep hst hnext => ?_, fun hsup => ?_, ?_⟩
  · have hentry : gateEntry (s.hw.setFrond f (moving s.hw f)) f (v.toNat % 64) = e := gateEntry_setFrond s.hw f _ rfl
    have hfrond : (s.hw.setFrond f (moving s.hw f)).frond f = moving s.hw f := s.hw.frond_setFrond_same f _
    have hadmitted : handlerBad (s.hw.setFrond f (moving s.hw f)) f (e % 65536) = false := (handlerBad_setFrond s.hw f _ (y := moving s.hw f) rfl).trans hgood
    rw [gives_iff_of_always (f := fun h => frondMove h f 0x384 v) rfl, frondMove_gate hready hgate hdelay hrep, gateEnter_handler (by rw [hfrond]; exact hnext) (by rw [hentry]; exact hadmitted),
      hfrond, hentry]
    intro y
    have hy : y.control = (gated (moving s.hw f) (v.toNat % 64) (BitVec.ofNat 16 e)).control := by
      unfold y
      rw [Hw.frond_setFrond_same]
      exact Frond.pass_control _ _
    obtain ⟨hsra, hpc, hysst, hyst, hras⟩ := gated_fields hy
    obtain ⟨hsst, hent, hcause⟩ := sstEntry_fields (moving s.hw f) (ent := 3) (cause := v.toNat % 64) (by decide) (Nat.mod_lt _ (by decide))
    obtain ⟨hS, hML, hHOLD, hFTE, -⟩ := stEntry_fields (moving s.hw f) (ml := stML x.st) (Nat.mod_lt _ (by decide))
    rw [← hysst] at hsst hent hcause
    rw [show stML x.st = stML (moving s.hw f).st from rfl, ← hyst] at hS hML hHOLD hFTE
    exact ⟨hsra, hpc, hsst, hent, hcause, hS, hML, hHOLD, hFTE, hras, rfl, rfl⟩
  · rw [gives_iff_of_always (f := fun h => frondMove h f 0x380 v) rfl, frondMove_st hready hsup hrep hst hnext]
  · rw [gives_iff_of_always (f := fun h => frondMove h f 0x386 1) rfl, frondMove_pfl hready hsup]
  · have hport : unitPort 0x387 = true := by decide
    rw [gives_iff_of_unitPort hport rfl hready, portFire_fpbar, Hw.frond_setFrond_same, Hw.setFrond_setFrond_same]
    rfl

end Sys2Proof.Proofs.Fronds
end

section
/-!
SUPPORT. Words that execute no move (R285, R299 to R305, R322, R336, R350): what passes with them, and where the frond goes next.
-/
namespace Sys2Proof.Machine

/-! ### What the fetch and the counts of a word change (R293, R294, R304) -/

/-- The blocks differ in the fronds, the free values and the registers of the fronds' window at most. -/
structure WordKeeps (h h' : Hw) : Prop where
  shape : h' = { h with regs := h'.regs, fronds := h'.fronds, free := h'.free }
  rd : ∀ a, a < 0x20800000 ∨ 0x20900000 ≤ a → h'.rd a = h.rd a

namespace WordKeeps
variable {h h1 h2 : Hw} {f : Nat}

theorem refl (h : Hw) : WordKeeps h h := ⟨rfl, fun _ _ => rfl⟩

theorem trans (h01 : WordKeeps h h1) (h12 : WordKeeps h1 h2) : WordKeeps h h2 where
  shape := by rw [h12.shape, h01.shape]
  rd a ha := (h12.rd a ha).trans (h01.rd a ha)

theorem setFrond (h : Hw) (f : Nat) (x : Frond) : WordKeeps h (h.setFrond f x) := ⟨rfl, fun _ _ => rfl⟩

theorem wf {a : Nat} (ha : 0x20800000 ≤ a ∧ a < 0x20900000) (h : Hw) (fl : Fld) (n : Nat) : WordKeeps h (h.wf a fl n) :=
  ⟨rfl, fun _ hb => h.rd_wf_other fl n (by omega)⟩

section
variable (hk : WordKeeps h h1)
include hk

theorem mem : h1.mem = h.mem := by rw [hk.shape]

theorem scratch : h1.scratch = h.scratch := by rw [hk.shape]

theorem mbxTo (r : Nat) (w : World) : mbxTo h1 r w = mbxTo h r w := by
  rw [hk.shape]
  rfl

theorem svcQ : h1.svcQ = h.svcQ := by rw [hk.shape]

end

section
variable (hf : f < 8)
include hf

theorem countFetch (h : Hw) (as : List Nat) : WordKeeps h (countFetch h f as) ∧ (countFetch h f as).frond f = h.frond f :=
  ⟨(wf (by unfold FRN_FETCH; omega) h _ _).trans (wf (by unfold FRN_PMHIT; omega) _ _ _), rfl⟩

theorem countAhead (h : Hw) (as : List Nat) (e : FetchEnv) : WordKeeps h (countAhead h f as e) ∧ (countAhead h f as e).frond f = h.frond f :=
  ⟨(countFetch hf h _).1.trans (wf (by unfold FRN_CSPERR; omega) _ _ _), rfl⟩

end

theorem romLeave (h : Hw) (f a : Nat) : WordKeeps h (romLeave h f a) ∧ ((romLeave h f a).frond f).control = (h.frond f).control := by
  unfold Machine.romLeave
  split
  · refine ⟨⟨rfl, fun _ _ => rfl⟩, ?_⟩
    rw [Hw.frond_setFrond_same]
    rfl
  · exact ⟨refl h, rfl⟩

end WordKeeps

/-! ### A word without moves -/

/-- The status that stands as a word retires (R336). -/
def Frond.settledSt (x : Frond) : W64 := match x.stNext with | some v => stTake x v | none => x.st

/-- The frond once a word without moves has passed, before it goes to the next address. -/
def Frond.passed (x : Frond) : Frond := { x with stNext := none, fpbar := false, lastPc := x.pc, st := x.settledSt }

/-- The frond x past its WAIT word waits, unless an event is true already (R322). -/
def wordWaits (h : Hw) (f : Nat) (x : Frond) : Hw :=
  let g := h.setFrond f x
  if wevTrue g f then g else g.setFrond f { g.frond f with run := .wait }

/-- Where a frond goes after a word w without moves that retires with x0 before it and x2 behind it, when the transfer that it makes is xf (R285, R299, R305, R322, R350). -/
def wordNext (x0 : Frond) (w : CsWord) (xf : Xfer) (cost : Xfer → Nat) (f : Nat) (hE : Hw) (x2 : Frond) : Hw :=
  if x0.retx then returnNow (hE.setFrond f (x2.pass (if bit x2.sst.toNat 23 then 3 else 2))) f
  else match x0.xfer with
    | some t =>
      hE.setFrond f ({ x2 with
        ras := (match t.push with | some p => (p :: x2.ras).take 16 | none => if t.pop then x2.ras.drop 1 else x2.ras), xfer := none, pc := t.next }.pass (cost t))
    | none =>
      match x0.rep with
      | some _ =>
        hE.setFrond f (if x2.rptC - 1 = 0 then { x2 with rptC := 0, rep := none, repBusy := false, pc := x0.pc + 1 } else { x2 with rptC := x2.rptC - 1, repBusy := true })
      | none =>
        if wREP w then hE.setFrond f { x2 with rep := some (wNOINT w), repBusy := false, pc := x0.pc + 1 }
        else if wNAM w = nRETX then hE.setFrond f { x2 with retx := true, pc := x0.pc + 1 }
        else if isTransfer w then hE.setFrond f { x2 with xfer := some xf, pc := x0.pc + 1 }
        else if wNAM w = nWAIT then wordWaits hE f { x2 with pc := x0.pc + 1, wevHit := 0 }
        else if wNAM w = nHALT then hE.setFrond f { x2 with pc := x0.pc + 1, run := .halt, dfpc := x0.pc + 1, dfrpi := false }
        else hE.setFrond f { x2 with pc := x0.pc + 1 }

theorem wordNext_control (x0 : Frond) (w : CsWord) (xf : Xfer) (cost : Xfer → Nat) (f : Nat) (hE : Hw) (x2 : Frond) :
    wordNext x0.control w xf cost f hE x2 = wordNext x0 w xf cost f hE x2 := rfl

theorem stTake_of_control {x y : Frond} (hxy : y.control = x.control) (v : W64) : stTake y v = stTake x v := by
  have hworld : y.control.world = x.control.world := by rw [hxy]
  change y.world = x.world at hworld
  rw [stTake, stTake, hworld]

theorem transport_nil (h : Hw) (f : Nat) : transport h f [] = h.addSat (FRN_CLASH f) FRN_CLASH_CLASH 0 := rfl

/-- A word that executes no move passes and goes on; registers outside the fronds' window, memory and the other units are as before. -/
theorem retire_quiet {h0 : Hw} {f : Nat} {e : FetchEnv} (hf : f < 8) (hmoves : liveMoves (h0.frond f) (nextWord h0 f) = []) :
    ∃ hE x2, WordKeeps h0 hE ∧ x2.control = (h0.frond f).passed.control ∧
      retire h0 f e = stepEnd (wordNext (h0.frond f) (nextWord h0 f) (xferOf h0 f (nextWord h0 f)) (xferCost h0 f) f hE x2) f := by
  unfold retire
  extract_lets x0 a w xf wrong ms ks gate pfl bad hA hB hC hD old hE x1 x2 c g z h1 z1 h2 h3
  have hms : ms = [] := by
    unfold ms
    split
    · rfl
    · exact hmoves
  have hks : ks = [] := by
    unfold ks
    rw [hms]
    rfl
  have hgate : gate = none := by
    unfold gate
    rw [hks]
    rfl
  have hpfl : pfl = false := by
    unfold pfl
    rw [hks]
    rfl
  have hkA : WordKeeps h0 hA ∧ hA.frond f = x0 := by
    unfold hA
    split
    · exact WordKeeps.countFetch hf h0 _
    · exact ⟨.refl h0, rfl⟩
  have hkB : WordKeeps h0 hB ∧ hB.frond f = x0 := by
    unfold hB
    split
    · exact ⟨hkA.1.trans (.wf (by unfold FRN_CSPERR; omega) hA _ _), hkA.2⟩
    · exact hkA
  have hkC : WordKeeps h0 hC ∧ hC.frond f = x0 := by
    unfold hC
    rw [hgate, hpfl]
    split
    · exact ⟨hkB.1.trans (WordKeeps.countAhead hf hB _ e).1, hkB.2⟩
    · exact hkB
  have hkE : WordKeeps h0 hE ∧ (hE.frond f).control = ({ x0 with stNext := none, fpbar := false, lastPc := a } : Frond).control := by
    unfold hE
    rw [hms, transport_nil]
    have hkD : WordKeeps h0 hD := hkC.1.trans (.wf (by unfold FRN_RETIRE; omega) hC _ _)
    have hkP : WordKeeps h0 ((hD.setFrond f { x0 with stNext := none, fpbar := false, lastPc := a }).addSat (FRN_CLASH f) FRN_CLASH_CLASH 0) :=
      (hkD.trans (.setFrond hD f _)).trans (.wf (by unfold FRN_CLASH; omega) _ _ _)
    obtain ⟨hkL, hleft⟩ := WordKeeps.romLeave ((hD.setFrond f { x0 with stNext := none, fpbar := false, lastPc := a }).addSat (FRN_CLASH f) FRN_CLASH_CLASH 0) f a.toNat
    refine ⟨hkP.trans hkL, hleft.trans ?_⟩
    rw [Hw.setFrond_addSat, Hw.frond_setFrond_same]
  have hx1 : x1.control = ({ x0 with stNext := none, fpbar := false, lastPc := a } : Frond).control := hkE.2
  have hst : x2.st = x0.settledSt := by
    unfold x2 Frond.settledSt old
    cases x0.stNext with
    | none =>
      have h : x1.control.st = x0.st := by rw [hx1]; rfl
      exact h
    | some v => exact stTake_of_control hx1 v
  refine ⟨hE, x2, hkE.1, ?_, ?_⟩
  · change ({ x1.control with st := x2.st } : Frond) = _
    rw [hst, hx1]
    rfl
  · unfold h3 h2 h1 g
    rw [hgate, hpfl]
    rfl

/-! ### The block and the frond as a clean word finds them (R294, R315) -/

theorem foldl_fpuPut_p (os : List FpuOp) (x : Frond) : (os.foldl fpuPut x).p = x.p := by
  induction os generalizing x with
  | nil => rfl
  | cons o os ih => exact ih (fpuPut x o)

theorem fpuPass_p (x : Frond) (n : Nat) : (fpuPass x n).p = x.p := by
  unfold fpuPass
  split
  · rfl
  · exact foldl_fpuPut_p _ _

/-- The cycles of a fetch reach the results of the FPU alone: the block, the control state, the predicates and the word stand. -/
theorem wordAged_keeps (h : Hw) (f : Nat) (e : FetchEnv) : WordKeeps h (wordAged h f e) ∧ ((wordAged h f e).frond f).control = (h.frond f).control ∧
    ((wordAged h f e).frond f).p = (h.frond f).p ∧ ∀ r a, wordAt (wordAged h f e) r a = wordAt h r a := by
  unfold wordAged
  extract_lets x again
  split
  · exact ⟨.refl h, rfl, rfl, fun _ _ => rfl⟩
  · rw [Hw.frond_setFrond_same]
    exact ⟨.setFrond h f _, fpuPass_control _ _, fpuPass_p _ _, fun _ _ => rfl⟩

theorem pc_of_control {x y : Frond} (hxy : y.control = x.control) : y.pc = x.pc ∧ y.ras = x.ras :=
  ⟨(congrArg Frond.pc hxy : y.control.pc = x.control.pc), (congrArg Frond.ras hxy : y.control.ras = x.control.ras)⟩

theorem nextWord_wordAged (h : Hw) (f : Nat) (e : FetchEnv) : nextWord (wordAged h f e) f = nextWord h f := by
  obtain ⟨-, hctl, -, hword⟩ := wordAged_keeps h f e
  rw [nextWord, hword, (pc_of_control hctl).1, nextWord]

theorem liveMoves_of_p {x y : Frond} (hp : y.p = x.p) (w : CsWord) : liveMoves y w = liveMoves x w := by
  rw [liveMoves, hp, liveMoves]

theorem wordNext_of_control {x y : Frond} (hxy : y.control = x.control) : wordNext y = wordNext x := by
  funext w xf cost f hE x2
  rw [← wordNext_control, hxy, wordNext_control]

theorem passed_of_control {x y : Frond} (hxy : y.control = x.control) : y.passed.control = x.passed.control := by
  change y.control.passed.control = x.control.passed.control
  rw [hxy]

/-- What stands in a frond past a word without moves. -/
theorem passed_fields {x y : Frond} (hy : y.control = x.passed.control) :
    y.pc = x.pc ∧ y.lastPc = x.pc ∧ y.ras = x.ras ∧ y.run = x.run ∧ y.retx = x.retx ∧ y.xfer = x.xfer ∧ y.rep = x.rep ∧ y.rptC = x.rptC ∧ y.stepReq = x.stepReq := by
  simp only [Frond.control, Frond.passed, Frond.mk.injEq] at hy
  simp only [hy, and_self]

/-- The status of a frond past a word without moves. -/
theorem passed_status {x y : Frond} (hy : y.control = x.passed.control) :
    y.world = x.world ∧ y.st = x.settledSt ∧ y.stNext = none ∧ y.sra = x.sra ∧ y.sst = x.sst ∧ y.wev = x.wev ∧ y.load = x.load := by
  simp only [Frond.control, Frond.passed, Frond.mk.injEq] at hy
  simp only [hy, and_self]

section
variable {s : State} {i : Instr} {P : Hw → Prop} {f row : Nat} {e : FetchEnv}

/-- What a clean word meets. -/
theorem wordClean_iff {h : Hw} : wordClean h f e = true ↔
    frondReady h f = true ∧ dueFault (wordAged h f e) f e = none ∧ lsuStalls h f = false ∧ liveMoves (h.frond f) (nextWord h f) = [] ∧ (h.frond f).stepReq = false := by
  simp [wordClean, and_assoc]

/-- A clean word of its row retires, and the frond goes to the next address. -/
theorem gives_word {upd : Frond → Frond} (he : exec i s = onClock s (wordOfRow row f e)) (hclean : wordClean s.hw f e = true) (hrow : wordRow s.hw f = row)
    (hnext : ∀ hE x2, WordKeeps s.hw hE → x2.control = (s.hw.frond f).passed.control →
      wordNext (s.hw.frond f) (nextWord s.hw f) (xferOf (wordAged s.hw f e) f (nextWord s.hw f)) (xferCost (wordAged s.hw f e) f) f hE x2 = hE.setFrond f (upd x2))
    (hstep : ∀ x, (upd x).stepReq = x.stepReq)
    (hP : ∀ hE x2, WordKeeps s.hw hE → x2.control = (s.hw.frond f).passed.control → P (hE.setFrond f (upd x2))) : Gives i s P := by
  obtain ⟨hready, hdue, hstall, hmoves, hnostep⟩ := wordClean_iff.mp hclean
  obtain ⟨hlive, hrun, hhalt, hheld, -, -⟩ := frondReady_iff.mp hready
  obtain ⟨hkA, hctl, hp, -⟩ := wordAged_keeps s.hw f e
  have hretires : wordOfRow row f e s.hw = retire (wordAged s.hw f e) f e := by
    simp [wordOfRow, frondWord, hlive, hrun, hhalt, hheld, hrow, hdue, hstall]
  obtain ⟨hE, x2, hkE, hx2, hretire⟩ := retire_quiet (h0 := wordAged s.hw f e) (e := e) (lt_eight_of_frondLive hlive)
    (by rw [nextWord_wordAged, liveMoves_of_p hp, hmoves])
  have hx : x2.control = (s.hw.frond f).passed.control := hx2.trans (passed_of_control hctl)
  have hquiet : (upd x2).stepReq = false := by
    obtain ⟨-, -, -, -, -, -, -, -, hreq⟩ := passed_fields hx
    rw [hstep, hreq, hnostep]
  rw [gives_iff_of_onClock he (clocked_of_frondLive hlive), hretires, hretire, nextWord_wordAged, wordNext_of_control hctl, hnext hE x2 (hkA.trans hkE) hx,
    stepEnd_of_no_step (by rw [Hw.frond_setFrond_same, hquiet])]
  exact hP hE x2 (hkA.trans hkE) hx

end
/-! ### The rows of a word (R285, R305) -/

/-- A row from 1 to 8 is the NAM of a word that does not repeat. -/
theorem wNAM_of_wordRow {h : Hw} {f row : Nat} (hrow : wordRow h f = row) (hlow : 1 ≤ row) (hhigh : row ≤ 8) :
    wREP (nextWord h f) = false ∧ wNAM (nextWord h f) = row := by
  unfold wordRow at hrow
  extract_lets w at hrow
  split at hrow
  · omega
  split at hrow
  · omega
  next hrep =>
    split at hrow
    · exact ⟨Bool.eq_false_of_not_eq_true hrep, hrow⟩
    · omega

/-- Row 0 is a word that neither repeats nor is repeated and has the NAM of none of the others. -/
theorem wNAM_of_wordRow_zero {h : Hw} {f : Nat} (hrow : wordRow h f = 0) :
    (h.frond f).rep = none ∧ wREP (nextWord h f) = false ∧ (wNAM (nextWord h f) = 0 ∨ 8 < wNAM (nextWord h f)) := by
  unfold wordRow at hrow
  extract_lets w at hrow
  split at hrow
  · omega
  next hnone =>
    split at hrow
    · omega
    next hrep =>
      refine ⟨by simpa using hnone, Bool.eq_false_of_not_eq_true hrep, ?_⟩
      split at hrow
      · exact .inl hrow
      next hhigh => exact .inr (Nat.lt_of_not_le hhigh)

/-- Row 9 is a REP word. -/
theorem wREP_of_wordRow {h : Hw} {f : Nat} (hrow : wordRow h f = 9) : wREP (nextWord h f) = true := by
  unfold wordRow at hrow
  extract_lets w at hrow
  split at hrow
  · omega
  split at hrow
  · assumption
  · split at hrow <;> omega

theorem wordRow_of_rep {h : Hw} {f : Nat} {n : Bool} (hrep : (h.frond f).rep = some n) : wordRow h f = 10 := by simp [wordRow, hrep]

theorem wordAlone_iff {x : Frond} : wordAlone x = true ↔ x.retx = false ∧ x.xfer = none ∧ x.rep = none ∧ x.stNext = none := by
  simp [wordAlone, Frond.inDelay]
  tauto

/-! ### The next address of a word that stands outside a delay and a repeat -/

section
variable {x0 x2 : Frond} {w : CsWord} {xf : Xfer} {cost : Xfer → Nat} {f : Nat} {hE : Hw}

theorem wordNext_plain (hretx : x0.retx = false) (hxfer : x0.xfer = none) (hrep : x0.rep = none) (hREP : wREP w = false) (hnam : wNAM w = 0 ∨ 8 < wNAM w) :
    wordNext x0 w xf cost f hE x2 = hE.setFrond f { x2 with pc := x0.pc + 1 } := by
  have htransfer : isTransfer w = false := by
    simp [isTransfer]
    omega
  have hne : wNAM w ≠ nRETX ∧ wNAM w ≠ nWAIT ∧ wNAM w ≠ nHALT := by
    unfold nRETX nWAIT nHALT
    omega
  simp [wordNext, hretx, hxfer, hrep, hREP, htransfer, hne]

theorem wordNext_transfer (halone : wordAlone x0 = true) (hREP : wREP w = false) (hlow : 1 ≤ wNAM w) (hhigh : wNAM w ≤ 5) :
    wordNext x0 w xf cost f hE x2 = hE.setFrond f { x2 with xfer := some xf, pc := x0.pc + 1 } := by
  obtain ⟨hretx, hxfer, hrep, -⟩ := wordAlone_iff.mp halone
  have htransfer : isTransfer w = true := by
    simp [isTransfer]
    omega
  have hne : wNAM w ≠ nRETX := by
    unfold nRETX
    omega
  simp [wordNext, hretx, hxfer, hrep, hREP, htransfer, hne]

theorem wordNext_retx (halone : wordAlone x0 = true) (hREP : wREP w = false) (hnam : wNAM w = 6) :
    wordNext x0 w xf cost f hE x2 = hE.setFrond f { x2 with retx := true, pc := x0.pc + 1 } := by
  obtain ⟨hretx, hxfer, hrep, -⟩ := wordAlone_iff.mp halone
  simp [wordNext, hretx, hxfer, hrep, hREP, hnam, nRETX]

theorem wordNext_halt (halone : wordAlone x0 = true) (hREP : wREP w = false) (hnam : wNAM w = 8) :
    wordNext x0 w xf cost f hE x2 = hE.setFrond f { x2 with pc := x0.pc + 1, run := .halt, dfpc := x0.pc + 1, dfrpi := false } := by
  obtain ⟨hretx, hxfer, hrep, -⟩ := wordAlone_iff.mp halone
  simp [wordNext, hretx, hxfer, hrep, hREP, hnam, isTransfer, nRETX, nWAIT, nHALT]

theorem wordWaits_quiet {h : Hw} {x : Frond} (hevent : wevTrue (h.setFrond f x) f = false) : wordWaits h f x = h.setFrond f { x with run := .wait } := by
  rw [wordWaits]
  simp [hevent]

/-- A WAIT word with no enabled event true stops the frond (R322). -/
theorem wordNext_wait (halone : wordAlone x0 = true) (hREP : wREP w = false) (hnam : wNAM w = 7)
    (hevent : wevTrue (hE.setFrond f { x2 with pc := x0.pc + 1, wevHit := 0 }) f = false) :
    wordNext x0 w xf cost f hE x2 = hE.setFrond f { x2 with pc := x0.pc + 1, wevHit := 0, run := .wait } := by
  obtain ⟨hretx, hxfer, hrep, -⟩ := wordAlone_iff.mp halone
  simp [wordNext, hretx, hxfer, hrep, hREP, hnam, isTransfer, nRETX, nWAIT]
  exact wordWaits_quiet hevent

theorem wordNext_rep (halone : wordAlone x0 = true) (hREP : wREP w = true) :
    wordNext x0 w xf cost f hE x2 = hE.setFrond f { x2 with rep := some (wNOINT w), repBusy := false, pc := x0.pc + 1 } := by
  obtain ⟨hretx, hxfer, hrep, -⟩ := wordAlone_iff.mp halone
  simp [wordNext, hretx, hxfer, hrep, hREP]

theorem wordNext_iteration {n : Bool} (hdelay : x0.inDelay = false) (hrep : x0.rep = some n) (hmore : 1 < x2.rptC) :
    wordNext x0 w xf cost f hE x2 = hE.setFrond f { x2 with rptC := x2.rptC - 1, repBusy := true } := by
  simp [Frond.inDelay] at hdelay
  have hleft : x2.rptC - 1 ≠ 0 := by omega
  simp [wordNext, hdelay, hrep, hleft]

theorem wordNext_lastIteration {n : Bool} (hdelay : x0.inDelay = false) (hrep : x0.rep = some n) (hlast : x2.rptC = 1) :
    wordNext x0 w xf cost f hE x2 = hE.setFrond f { x2 with rptC := 0, rep := none, repBusy := false, pc := x0.pc + 1 } := by
  simp [Frond.inDelay] at hdelay
  simp [wordNext, hdelay, hrep, hlast]

/-- The return-address stack once a transfer is made (R299, R303). -/
def Xfer.stack (z : Xfer) (ras : List (BitVec 16)) : List (BitVec 16) :=
  match z.push with | some p => (p :: ras).take 16 | none => if z.pop then ras.drop 1 else ras

/-- The delay word of a transfer completes it. -/
theorem wordNext_delay {z : Xfer} (hretx : x0.retx = false) (hxfer : x0.xfer = some z) :
    wordNext x0 w xf cost f hE x2 = hE.setFrond f (({ x2 with ras := z.stack x2.ras, xfer := none, pc := z.next } : Frond).pass (cost z)) := by
  rw [wordNext, if_neg (by rw [hretx]; decide), hxfer]
  rfl

end

/-! ### Transfers (R299 to R301) -/

section
variable {h : Hw} {f : Nat} {w : CsWord}

theorem xferOf_jmp (hnam : wNAM w = 1) : xferOf h f w = ⟨1, BitVec.ofNat 16 (wTARGET w), none, false, true, 0, false⟩ := by
  simp [xferOf, hnam, nJMPC, nMWAY, nCALL, nRET]

theorem xferOf_jmpc_taken (hnam : wNAM w = 2) (hcond : condTrue h f (wCOND w) = true) :
    xferOf h f w = ⟨2, BitVec.ofNat 16 (wTARGET w), none, false, true, 0, false⟩ := by
  simp [xferOf, hnam, nJMPC, hcond]

theorem xferOf_jmpc_passed (hnam : wNAM w = 2) (hcond : condTrue h f (wCOND w) = false) :
    xferOf h f w = ⟨2, (h.frond f).pc + 2, none, false, false, 0, wANNUL w⟩ := by
  simp [xferOf, hnam, nJMPC, hcond]

theorem xferOf_mway (hnam : wNAM w = 3) : xferOf h f w =
    ⟨3, BitVec.ofNat 16 (wTARGET w) ||| BitVec.ofNat 16 (mwVector h f (wMWSRC w) % 2 ^ (wMWN w + 1)), none, false, true,
      BitVec.ofNat 4 (mwVector h f (wMWSRC w) % 2 ^ (wMWN w + 1)), false⟩ := by
  simp [xferOf, hnam, nJMPC, nMWAY]

theorem xferOf_call (hnam : wNAM w = 4) : xferOf h f w = ⟨4, BitVec.ofNat 16 (wTARGET w), some ((h.frond f).pc + 2), false, true, 0, false⟩ := by
  simp [xferOf, hnam, nJMPC, nMWAY, nCALL]

theorem xferOf_ret (hnam : wNAM w = 5) : xferOf h f w = ⟨5, (h.frond f).ras.headD 0, none, true, true, 0, false⟩ := by
  simp [xferOf, hnam, nJMPC, nMWAY, nCALL, nRET]

end

/-- The frond f of h' has gone past its word, with the return-address stack as it was, and owes a transfer or a return. -/
def GoesPast (h : Hw) (f : Nat) (o : Option (BitVec 16 × Option (BitVec 16) × Bool × Bool)) (back : Bool) (h' : Hw) : Prop :=
  (h'.frond f).pc = (h.frond f).pc + 1 ∧ (h'.frond f).lastPc = (h.frond f).pc ∧ (h'.frond f).ras = (h.frond f).ras ∧ (h'.frond f).retx = back ∧ (h'.frond f).run = .run ∧
    (h'.frond f).xfer.map (fun z => (z.next, z.push, z.pop, z.annul)) = o ∧ h'.mem = h.mem ∧ h'.scratch = h.scratch

section
variable {s : State} {i : Instr} {f row : Nat} {e : FetchEnv}

theorem run_of_wordClean {h : Hw} (hclean : wordClean h f e = true) : (h.frond f).run = .run := (frondReady_iff.mp (wordClean_iff.mp hclean).1).2.1

/-- A word that makes a transfer owes it to its delay word. -/
theorem gives_transfer (he : exec i s = onClock s (wordOfRow row f e)) (hclean : wordClean s.hw f e = true) (halone : wordAlone (s.hw.frond f) = true)
    (hrow : wordRow s.hw f = row) (hlow : 1 ≤ row) (hhigh : row ≤ 5) {z : Xfer} (hz : xferOf (wordAged s.hw f e) f (nextWord s.hw f) = z) :
    Gives i s (GoesPast s.hw f (some (z.next, z.push, z.pop, z.annul)) false) := by
  obtain ⟨hREP, hnam⟩ := wNAM_of_wordRow hrow hlow (by omega)
  refine gives_word (upd := fun x => { x with xfer := some z, pc := (s.hw.frond f).pc + 1 }) he hclean hrow (fun hE x2 _ _ => ?_) (fun _ => rfl) (fun hE x2 hkeeps hx2 => ?_)
  · rw [wordNext_transfer halone hREP (by omega) (by omega), hz]
  · obtain ⟨hretx, -, -, -⟩ := wordAlone_iff.mp halone
    obtain ⟨-, hlast, hras, hrun, hback, -, -, -, -⟩ := passed_fields hx2
    rw [GoesPast, Hw.frond_setFrond_same]
    exact ⟨rfl, hlast, hras, hback.trans hretx, hrun.trans (run_of_wordClean hclean), rfl, hkeeps.mem, hkeeps.scratch⟩

theorem gives_seq (he : exec i s = onClock s (wordOfRow 0 f e)) (hclean : wordClean s.hw f e = true) (halone : wordAlone (s.hw.frond f) = true)
    (hrow : wordRow s.hw f = 0) : Gives i s (GoesPast s.hw f none false) := by
  obtain ⟨hrep, hREP, hnam⟩ := wNAM_of_wordRow_zero hrow
  obtain ⟨hretx, hxfer, -, -⟩ := wordAlone_iff.mp halone
  refine gives_word (upd := fun x => { x with pc := (s.hw.frond f).pc + 1 }) he hclean hrow (fun hE x2 _ _ => ?_) (fun _ => rfl) (fun hE x2 hkeeps hx2 => ?_)
  · exact wordNext_plain hretx hxfer hrep hREP hnam
  · obtain ⟨-, hlast, hras, hrun, hback, howed, -, -, -⟩ := passed_fields hx2
    rw [GoesPast, Hw.frond_setFrond_same]
    exact ⟨rfl, hlast, hras, hback.trans hretx, hrun.trans (run_of_wordClean hclean), congrArg _ (howed.trans hxfer), hkeeps.mem, hkeeps.scratch⟩

theorem gives_retx (he : exec i s = onClock s (wordOfRow 6 f e)) (hclean : wordClean s.hw f e = true) (halone : wordAlone (s.hw.frond f) = true)
    (hrow : wordRow s.hw f = 6) : Gives i s (GoesPast s.hw f none true) := by
  obtain ⟨hREP, hnam⟩ := wNAM_of_wordRow hrow (by decide) (by decide)
  refine gives_word (upd := fun x => { x with retx := true, pc := (s.hw.frond f).pc + 1 }) he hclean hrow (fun hE x2 _ _ => ?_) (fun _ => rfl) (fun hE x2 hkeeps hx2 => ?_)
  · exact wordNext_retx halone hREP hnam
  · obtain ⟨-, hxfer, -, -⟩ := wordAlone_iff.mp halone
    obtain ⟨-, hlast, hras, hrun, -, howed, -, -, -⟩ := passed_fields hx2
    rw [GoesPast, Hw.frond_setFrond_same]
    exact ⟨rfl, hlast, hras, rfl, hrun.trans (run_of_wordClean hclean), congrArg _ (howed.trans hxfer), hkeeps.mem, hkeeps.scratch⟩

end

/-! ### Returns (R350, R372) -/

section
variable {h : Hw} {f : Nat}

theorem reqOrder_of_none_pending (hpend : ∀ n, n < 512 → srcBit h IRQ_PEND n = false) : reqOrder h = [] := by
  have hnone : (List.range 483).filter (srcRequests h) = [] := by
    rw [List.filter_eq_nil_iff]
    intro n hn
    have hlt := List.mem_range.mp hn
    simp [srcRequests, hpend n (by omega)]
  rw [reqOrder, hnone]
  rfl

/-- The frond back at the word and the status that it saved. -/
def Frond.returned (y : Frond) : Frond := { y with st := stTake y y.sst, retx := false, stNext := none, pc := y.sra }

theorem Frond.returned_fields (y : Frond) : y.returned.pc = y.sra ∧ y.returned.retx = false ∧ y.returned.sra = y.sra ∧ y.returned.sst = y.sst ∧
    y.returned.st = stTake y y.sst := ⟨rfl, rfl, rfl, rfl, rfl⟩

/-- A return to a word outside a delay and a repeat, with no source pending. -/
theorem returnNow_plain (hpend : ∀ n, n < 512 → srcBit h IRQ_PEND n = false) (hds : bit (h.frond f).sst.toNat 23 = false) (hrpi : bit (h.frond f).sst.toNat 17 = false) :
    returnNow h f = h.setFrond f (h.frond f).returned := by
  have hchain : chainedReq h f = none := by rw [chainedReq, reqOrder_of_none_pending hpend, List.find?_nil]
  unfold returnNow
  extract_lets y n x
  rw [hchain]
  simp only
  rw [if_neg (by rw [hds]; decide), if_neg (by rw [hrpi]; decide)]
  rfl

theorem WordKeeps.srcBit_pend {h' : Hw} (hkeeps : WordKeeps h h') (n : Nat) : srcBit h' IRQ_PEND n = srcBit h IRQ_PEND n := by
  rw [srcBit, hkeeps.rd _ (by unfold IRQ_PEND; omega), srcBit]

/-- A delay word of a RETX to a word outside a delay costs two cycles more (R302). -/
theorem wordNext_return {x0 x2 : Frond} {w : CsWord} {xf : Xfer} {cost : Xfer → Nat} {f : Nat} {hE : Hw} (hretx : x0.retx = true) (hds : bit x2.sst.toNat 23 = false) :
    wordNext x0 w xf cost f hE x2 = returnNow (hE.setFrond f (x2.pass 2)) f := by
  rw [wordNext, if_pos hretx, hds]
  rfl

theorem stepReq_pass (x : Frond) (n : Nat) : (x.pass n).stepReq = x.stepReq :=
  (congrArg Frond.stepReq (x.pass_control n) : (x.pass n).control.stepReq = x.control.stepReq)

theorem transfer_of_control {x y : Frond} (hxy : y.control = x.control) : y.pc = x.pc ∧ y.xfer = x.xfer ∧ y.ras = x.ras :=
  ⟨(congrArg Frond.pc hxy : y.control.pc = x.control.pc), (congrArg Frond.xfer hxy : y.control.xfer = x.control.xfer), (pc_of_control hxy).2⟩

/-! ### Waiting (R322) -/

theorem WordKeeps.wevLevels {h' : Hw} (hkeeps : WordKeeps h h') {y : Frond} (hworld : y.world = (h.frond f).world) (hload : y.load = (h.frond f).load) :
    wevLevels (h'.setFrond f y) f = wevLevels h f := by
  rw [Machine.wevLevels, Hw.frond_setFrond_same, hworld, hload, (hkeeps.trans (.setFrond h' f y)).mbxTo, (hkeeps.trans (.setFrond h' f y)).svcQ]
  rfl

/-- Past its WAIT word a frond has no event true when none of its enabled levels is. -/
theorem wevTrue_of_levels {h' : Hw} (hkeeps : WordKeeps h h') {y : Frond} (hworld : y.world = (h.frond f).world) (hload : y.load = (h.frond f).load) (hwev : y.wev = (h.frond f).wev)
    (hhit : y.wevHit = 0) (hnone : Nat.land (h.frond f).wev.toNat (Machine.wevLevels h f) = 0) : wevTrue (h'.setFrond f y) f = false := by
  rw [wevTrue, hkeeps.wevLevels hworld hload, Hw.frond_setFrond_same, hhit, hwev]
  have hor : Nat.lor (Machine.wevLevels h f) (0 : BitVec 6).toNat = Machine.wevLevels h f := Nat.or_zero _
  simp only [hor, hnone]
  rfl

theorem idleLeave_pwrState_ne (h : Hw) (r : Nat) : (h.idleLeave r).pwrState r ≠ psIdle := by
  unfold Hw.idleLeave
  split
  · rw [Hw.pwrState_wf_state h r r (by decide), if_pos rfl]
    decide
  · assumption

theorem frond_idleLeave (h : Hw) (r g : Nat) : (h.idleLeave r).frond g = h.frond g := by
  rw [Hw.frond, (idleLeave_frame h r).2.1, Hw.frond]

end

/-! ### Rows that wait, halt and repeat (R305, R322) -/

section
variable {s : State} {i : Instr} {f : Nat} {e : FetchEnv}

theorem gives_wait (he : exec i s = onClock s (wordOfRow 7 f e)) (hclean : wordClean s.hw f e = true) (halone : wordAlone (s.hw.frond f) = true)
    (hrow : wordRow s.hw f = 7) (hnone : Nat.land (s.hw.frond f).wev.toNat (wevLevels s.hw f) = 0) :
    Gives i s (fun h' => (h'.frond f).run = .wait ∧ (h'.frond f).pc = (s.hw.frond f).pc + 1 ∧ h'.mem = s.hw.mem) := by
  obtain ⟨hREP, hnam⟩ := wNAM_of_wordRow hrow (by decide) (by decide)
  refine gives_word (upd := fun y => { y with pc := (s.hw.frond f).pc + 1, wevHit := 0, run := .wait }) he hclean hrow (fun hE x2 hkeeps hx2 => ?_) (fun _ => rfl)
    (fun hE x2 hkeeps _ => ?_)
  · obtain ⟨hworld, -, -, -, -, hwev, hload⟩ := passed_status hx2
    exact wordNext_wait halone hREP hnam (wevTrue_of_levels hkeeps hworld hload hwev rfl hnone)
  · rw [Hw.frond_setFrond_same]
    exact ⟨rfl, rfl, hkeeps.mem⟩

theorem gives_halt (he : exec i s = onClock s (wordOfRow 8 f e)) (hclean : wordClean s.hw f e = true) (halone : wordAlone (s.hw.frond f) = true)
    (hrow : wordRow s.hw f = 8) : Gives i s (fun h' => (h'.frond f).run = .halt ∧ (h'.frond f).pc = (s.hw.frond f).pc + 1 ∧ h'.mem = s.hw.mem) := by
  obtain ⟨hREP, hnam⟩ := wNAM_of_wordRow hrow (by decide) (by decide)
  refine gives_word (upd := fun y => { y with pc := (s.hw.frond f).pc + 1, run := .halt, dfpc := (s.hw.frond f).pc + 1, dfrpi := false }) he hclean hrow
    (fun hE x2 _ _ => wordNext_halt halone hREP hnam) (fun _ => rfl) (fun hE x2 hkeeps _ => ?_)
  rw [Hw.frond_setFrond_same]
  exact ⟨rfl, rfl, hkeeps.mem⟩

theorem gives_rep (he : exec i s = onClock s (wordOfRow 9 f e)) (hclean : wordClean s.hw f e = true) (halone : wordAlone (s.hw.frond f) = true)
    (hrow : wordRow s.hw f = 9) :
    Gives i s (fun h' => (h'.frond f).rep = some (wNOINT (nextWord s.hw f)) ∧ (h'.frond f).pc = (s.hw.frond f).pc + 1 ∧ (h'.frond f).rptC = (s.hw.frond f).rptC) := by
  refine gives_word (upd := fun y => { y with rep := some (wNOINT (nextWord s.hw f)), repBusy := false, pc := (s.hw.frond f).pc + 1 }) he hclean hrow
    (fun hE x2 _ _ => wordNext_rep halone (wREP_of_wordRow hrow)) (fun _ => rfl) (fun hE x2 _ hx2 => ?_)
  obtain ⟨-, -, -, -, -, -, -, hcount, -⟩ := passed_fields hx2
  rw [Hw.frond_setFrond_same]
  exact ⟨rfl, rfl, hcount⟩

theorem gives_iteration (he : exec i s = onClock s (wordOfRow 10 f e)) (hclean : wordClean s.hw f e = true) {n : Bool} (hrep : (s.hw.frond f).rep = some n)
    (hdelay : (s.hw.frond f).inDelay = false) (hmore : 1 < (s.hw.frond f).rptC) :
    Gives i s (fun h' => (h'.frond f).rep = some n ∧ (h'.frond f).pc = (s.hw.frond f).pc ∧ (h'.frond f).rptC = (s.hw.frond f).rptC - 1) := by
  refine gives_word (upd := fun y => { y with rptC := y.rptC - 1, repBusy := true }) he hclean (wordRow_of_rep hrep) (fun hE x2 _ hx2 => ?_) (fun _ => rfl)
    (fun hE x2 _ hx2 => ?_)
  all_goals obtain ⟨hpc, -, -, -, -, -, hkept, hcount, -⟩ := passed_fields hx2
  · exact wordNext_iteration hdelay hrep (by rw [hcount]; exact hmore)
  · rw [Hw.frond_setFrond_same]
    exact ⟨hkept.trans hrep, hpc, congrArg (· - 1) hcount⟩

theorem gives_lastIteration (he : exec i s = onClock s (wordOfRow 10 f e)) (hclean : wordClean s.hw f e = true) {n : Bool} (hrep : (s.hw.frond f).rep = some n)
    (hdelay : (s.hw.frond f).inDelay = false) (hlast : (s.hw.frond f).rptC = 1) :
    Gives i s (fun h' => (h'.frond f).rep = none ∧ (h'.frond f).pc = (s.hw.frond f).pc + 1 ∧ (h'.frond f).rptC = 0) := by
  refine gives_word (upd := fun y => { y with rptC := 0, rep := none, repBusy := false, pc := (s.hw.frond f).pc + 1 }) he hclean (wordRow_of_rep hrep)
    (fun hE x2 _ hx2 => ?_) (fun _ => rfl) (fun hE x2 _ _ => ?_)
  · obtain ⟨-, -, -, -, -, -, -, hcount, -⟩ := passed_fields hx2
    exact wordNext_lastIteration hdelay hrep (hcount.trans hlast)
  · rw [Hw.frond_setFrond_same]
    exact ⟨rfl, rfl, rfl⟩

/-- A status word written before takes effect as a SEQ word retires (R336). -/
theorem gives_seq_settles (he : exec i s = onClock s (wordOfRow 0 f e)) (hclean : wordClean s.hw f e = true) {v : W64} (hst : (s.hw.frond f).stNext = some v)
    (hdelay : (s.hw.frond f).inDelay = false) (hrow : wordRow s.hw f = 0) :
    Gives i s (fun h' => (h'.frond f).stNext = none ∧ (h'.frond f).st = stTake (s.hw.frond f) v) := by
  obtain ⟨hrep, hREP, hnam⟩ := wNAM_of_wordRow_zero hrow
  obtain ⟨hxfer, hretx⟩ : (s.hw.frond f).xfer = none ∧ (s.hw.frond f).retx = false := by simpa [Frond.inDelay] using hdelay
  refine gives_word (upd := fun y => { y with pc := (s.hw.frond f).pc + 1 }) he hclean hrow (fun hE x2 _ _ => wordNext_plain hretx hxfer hrep hREP hnam) (fun _ => rfl)
    (fun hE x2 _ hx2 => ?_)
  obtain ⟨-, hsettled, hspent, -, -, -, -⟩ := passed_status hx2
  rw [Hw.frond_setFrond_same]
  exact ⟨hspent, by rw [hsettled, Frond.settledSt, hst]⟩

theorem waitWake_wakes {h : Hw} (hlive : frondLive h f = true) (hwait : (h.frond f).run = .wait) (hevent : wevTrue h f = true) :
    waitWake f h = (h.setFrond f { h.frond f with run := .run }).idleLeave (f / 2) := by
  simp [waitWake, hlive, hwait, hevent]

/-- What holds of the block when P does holds when a weaker Q does. -/
theorem Gives.mono {P Q : Hw → Prop} (hP : Gives i s P) (hPQ : ∀ h', P h' → Q h') : Gives i s Q := by
  obtain ⟨t, ht, hpend, hhw⟩ := hP
  exact ⟨t, ht, hpend, hPQ _ hhw⟩

end

end Sys2Proof.Machine

namespace Sys2Proof.Proofs.Fronds
open Sys2Proof Sys2Proof.Machine

/-- Settles O10: each row owes the transfer that its word decides. -/
theorem controlWordsDecideTheirTransfer : Obligations.ControlWordsDecideTheirTransfer := by
  unfold Obligations.ControlWordsDecideTheirTransfer
  intro s f e hclean halone x g w t goes
  have hpc : (g.frond f).pc = x.pc ∧ (g.frond f).ras = x.ras := pc_of_control (wordAged_keeps s.hw f e).2.1
  have hnam : ∀ {n}, wordRow s.hw f = n → 1 ≤ n → n ≤ 8 → wNAM w = n := fun hrow hlow hhigh => (wNAM_of_wordRow hrow hlow hhigh).2
  refine ⟨fun hrow => gives_seq rfl hclean halone hrow, fun hrow => ?_, fun hrow hcond => ?_, fun hrow hcond => ?_, fun hrow => ?_, fun hrow => ?_, fun hrow => ?_,
    fun hrow => gives_retx rfl hclean halone hrow⟩
  · exact gives_transfer rfl hclean halone hrow (by decide) (by decide) (xferOf_jmp (hnam hrow (by decide) (by decide)))
  · exact gives_transfer rfl hclean halone hrow (by decide) (by decide) (xferOf_jmpc_taken (hnam hrow (by decide) (by decide)) hcond)
  · rw [← hpc.1]
    exact gives_transfer rfl hclean halone hrow (by decide) (by decide) (xferOf_jmpc_passed (hnam hrow (by decide) (by decide)) hcond)
  · exact gives_transfer rfl hclean halone hrow (by decide) (by decide) (xferOf_mway (hnam hrow (by decide) (by decide)))
  · rw [← hpc.1]
    exact gives_transfer rfl hclean halone hrow (by decide) (by decide) (xferOf_call (hnam hrow (by decide) (by decide)))
  · rw [← hpc.2]
    exact gives_transfer rfl hclean halone hrow (by decide) (by decide) (xferOf_ret (hnam hrow (by decide) (by decide)))

/-- Settles O11: a delay word spends its transfer, and the one of a RETX takes the saved status. -/
theorem delayWordsCompleteTheirTransfer : Obligations.DelayWordsCompleteTheirTransfer := by
  unfold Obligations.DelayWordsCompleteTheirTransfer
  intro s f e hclean hrow x
  refine ⟨fun z hxfer hretx => ?_, fun hretx hds hrpi hpend => ?_⟩
  · refine gives_word (upd := fun y => ({ y with ras := z.stack y.ras, xfer := none, pc := z.next } : Frond).pass (xferCost (wordAged s.hw f e) f z)) rfl hclean hrow
      (fun hE x2 _ _ => wordNext_delay hretx hxfer) (fun y => stepReq_pass _ _) (fun hE x2 hkeeps hx2 => ?_)
    obtain ⟨-, -, hras, -, -, -, -, -, -⟩ := passed_fields hx2
    obtain ⟨hpc, hspent, hstack⟩ := transfer_of_control (Frond.pass_control { x2 with ras := z.stack x2.ras, xfer := none, pc := z.next } (xferCost (wordAged s.hw f e) f z))
    rw [Hw.frond_setFrond_same]
    exact ⟨hpc, hspent, hkeeps.mem, hstack.trans (congrArg z.stack hras)⟩
  · refine gives_word (upd := fun y => (y.pass 2).returned) rfl hclean hrow (fun hE x2 hkeeps hx2 => ?_) (fun y => stepReq_pass y 2) (fun hE x2 hkeeps hx2 => ?_)
    · obtain ⟨-, -, -, -, hsst, -, -⟩ := passed_status ((x2.pass_control 2).trans hx2)
      obtain ⟨-, -, -, -, hsst2, -, -⟩ := passed_status hx2
      rw [wordNext_return hretx (by rw [hsst2]; exact hds), returnNow_plain (fun n hn => ?_) (by rw [Hw.frond_setFrond_same, hsst]; exact hds)
        (by rw [Hw.frond_setFrond_same, hsst]; exact hrpi), Hw.frond_setFrond_same, Hw.setFrond_setFrond_same]
      rw [(hkeeps.trans (.setFrond hE f _)).srcBit_pend, hpend n hn]
    · obtain ⟨hworld, -, -, hsra, hsst, -, -⟩ := passed_status ((x2.pass_control 2).trans hx2)
      obtain ⟨hpc, hback, hsra', hsst', hst⟩ := (x2.pass 2).returned_fields
      obtain ⟨hfields, hbit⟩ := stTake_fields (x2.pass 2) (x2.pass 2).sst
      rw [Hw.frond_setFrond_same, hst, hfields, hbit, hworld, hsst, hsst', hsst, hpc, hsra', hsra]
      exact ⟨rfl, hback, rfl, rfl, rfl, rfl⟩

/-- Settles O12: each row leaves the frond where its word says, and a true event wakes a waiting frond and its region. -/
theorem waitHaltAndRepeatWords : Obligations.WaitHaltAndRepeatWords := by
  unfold Obligations.WaitHaltAndRepeatWords
  constructor
  · intro s f e hclean x w
    refine ⟨gives_wait rfl hclean, gives_halt rfl hclean, gives_rep rfl hclean, fun n => gives_iteration rfl hclean, fun n => gives_lastIteration rfl hclean, ?_⟩
    intro v hst hdelay hrow
    refine (gives_seq_settles rfl hclean hst hdelay hrow).mono (fun h' ⟨hspent, hstatus⟩ => ?_)
    rw [hstatus]
    exact ⟨hspent, stTake_fields x v⟩
  · intro s f hlive hwait hevent
    rw [gives_iff_of_onClock (f := waitWake f) rfl (clocked_of_frondLive hlive), waitWake_wakes hlive hwait hevent]
    refine ⟨?_, idleLeave_pwrState_ne _ _, (idleLeave_frame _ _).1, fun g hg => ?_⟩
    · rw [frond_idleLeave, Hw.frond_setFrond_same]
    · rw [frond_idleLeave, Hw.frond_setFrond_other _ _ hg]

end Sys2Proof.Proofs.Fronds
end

section
/-!
SUPPORT. Regions in service while interrupts fire (R357, R501, R505): the controller writes its own registers and raises wake events, and neither takes a region out of RUN or IDLE.
-/
namespace Sys2Proof.Machine

/-! ### What a firing source is made of -/

/-- A property that writes of the controller's registers and wake events leave. -/
structure IrqStable (P : Hw → Prop) : Prop where
  wr : ∀ {h : Hw} {a : Nat} (v : W32), a / 0x100000 = 0x20A → P h → P (h.wr a v)
  wakeEvent : ∀ {h : Hw} (r cause : Nat), P h → P (wakeEvent h r cause)

namespace IrqStable

variable {P : Hw → Prop} (hP : IrqStable P) {h : Hw}
include hP

theorem wakeOnIrq (s : Nat) (hh : P h) : P (wakeOnIrq h s) := by
  unfold Machine.wakeOnIrq
  split
  · split
    · exact hh
    · refine List.foldlRecOn (motive := P) _ _ hh fun g hg r _ => ?_
      split
      · exact hP.wakeEvent r 1 hg
      · exact hg
  · exact hh

theorem putSrcBit {reg : Nat → Nat} (hreg : ∀ g, g < 16 → reg g / 0x100000 = 0x20A) (s : Nat) (v : Bool) (hh : P h) : P (putSrcBit h reg s v) := by
  unfold Machine.putSrcBit
  split
  · exact hP.wr _ (hreg _ (by omega)) hh
  · exact hh

theorem deferApply {g : Nat} (hg : g < 16) (hh : P h) : P (deferApply h g) := by
  unfold Machine.deferApply
  extract_lets d h1
  split
  · exact hh
  · have hwrites : P h1 := hP.wr 0 (IRQ_DEFER_block hg) (hP.wr _ (IRQ_PEND_block hg) hh)
    refine List.foldlRecOn (motive := P) _ _ hwrites fun g' hg' k _ => ?_
    split
    · exact hP.wakeOnIrq _ hg'
    · exact hg'

theorem irqSetPend (s : Nat) (hh : P h) : P (irqSetPend h s) := by
  unfold Machine.irqSetPend
  split
  · exact hh
  next hs =>
    have hs483 : s < 483 := lt_of_srcExists (by simpa using hs)
    split
    · exact hP.putSrcBit (fun _ => IRQ_DEFER_block) s true hh
    · exact hP.wakeOnIrq s (hP.putSrcBit (fun _ => IRQ_PEND_block) s true (hP.deferApply (by omega) hh))

theorem irqFire (s : Nat) (hh : P h) : P (irqFire h s) := by
  unfold Machine.irqFire
  split
  · exact hh
  next hs =>
    simp only [Bool.or_eq_true, Bool.not_eq_true', not_or, Bool.not_eq_false] at hs
    split
    · exact hP.wr _ (IRQ_CNT_block (lt_of_srcExists hs.1)) hh
    · exact hP.irqSetPend s hh

end IrqStable

/-! ### Service -/

section
variable {h : Hw} {r : Nat}

/-- R501: a region in service is one in RUN or IDLE. -/
theorem Hw.inService_iff : h.inService r = true ↔ h.hasRegion r = true ∧ (h.pwrState r = psRun ∨ h.pwrState r = psIdle) := by
  simp only [Hw.inService, Bool.and_eq_true, Bool.or_eq_true, beq_iff_eq]

/-- Service is read from PWR_STAT.STATE alone. -/
theorem Hw.inService_congr {g : Hw} (hpwr : g.pwrState r = h.pwrState r) (hcfg : g.cfg = h.cfg) : g.inService r = h.inService r := by
  rw [Hw.inService, Hw.inService, Hw.hasRegion, Hw.hasRegion, Hw.nRegions, Hw.nRegions, hpwr, hcfg]

theorem Hw.inService_wr_other {a : Nat} (v : W32) (hne : PWR_STAT r ≠ a) : (h.wr a v).inService r = h.inService r :=
  Hw.inService_congr (h.rf_wr_other v _ hne) rfl

theorem Hw.inService_wf_other {a : Nat} (f : Fld) (n : Nat) (hne : PWR_STAT r ≠ a) : (h.wf a f n).inService r = h.inService r := Hw.inService_wr_other _ hne

theorem Hw.inService_wf_apart (q : Nat) {f : Fld} (hf : fldApart f PWR_STAT_STATE = true) (n : Nat) : (h.wf (PWR_STAT q) f n).inService r = h.inService r :=
  Hw.inService_congr (h.pwrState_wf_apart q r hf n) rfl

theorem Hw.inService_wf_psRun (q : Nat) (hs : h.inService r = true) : (h.wf (PWR_STAT q) PWR_STAT_STATE psRun).inService r = true := by
  obtain ⟨hr, hp⟩ := Hw.inService_iff.mp hs
  refine Hw.inService_iff.mpr ⟨hr, ?_⟩
  rw [h.pwrState_wf_state q r (by decide)]
  split
  · exact .inl rfl
  · exact hp

/-- R503, R505: a wake event takes a region from ENTER to RUN, and none out of service. -/
theorem inService_wakeEvent (q cause : Nat) (hs : h.inService r = true) : (wakeEvent h q cause).inService r = true := by
  have hpwr : ∀ (g : Hw) (x : KV PwrRgn), ({ g with pwr := x } : Hw).inService r = g.inService r := fun _ _ => rfl
  unfold wakeEvent
  extract_lets p
  split
  · refine (hpwr (((h.wf (PWR_STAT q) PWR_STAT_STATE psRun).wf (PWR_STAT q) PWR_STAT_TGT 0).sb (PWR_STAT q) PWR_STAT_SLPABT) _).trans ?_
    rw [Hw.sb, Hw.inService_wf_apart q rfl, Hw.inService_wf_apart q rfl]
    exact Hw.inService_wf_psRun q hs
  · split
    · exact (hpwr h _).trans hs
    · split
      · refine (hpwr (h.sb (PWR_STAT q) PWR_STAT_SLPABT) _).trans ?_
        rwa [Hw.sb, Hw.inService_wf_apart q rfl]
      · exact hs

theorem inService_irqStable (r : Nat) : IrqStable (fun h => h.inService r = true) where
  wr v ha hs := (Hw.inService_wr_other v (by unfold PWR_STAT; omega)).trans hs
  wakeEvent q cause hs := inService_wakeEvent q cause hs

end

/-! ### The start of a recovery, and the other regions (R420) -/

section
variable {h : Hw} {r : Nat}

theorem inService_linkSetState (lk st : Nat) (hs : h.inService r = true) : (linkSetState h lk st).inService r = true := by
  have hne : PWR_STAT r ≠ LK_STAT lk := by
    unfold PWR_STAT LK_STAT
    omega
  unfold linkSetState
  split
  · exact hs
  · extract_lets h1
    have hs1 : h1.inService r = true := (Hw.inService_wr_other _ hne).trans hs
    split
    · exact (inService_irqStable r).irqFire _ hs1
    · exact hs1

theorem inService_linkQuiesce (lk : Nat) (hs : h.inService r = true) : (linkQuiesce h lk).inService r = true := by
  unfold linkQuiesce
  extract_lets x h1
  split
  · exact inService_linkSetState lk lsQuiesce hs
  · exact hs

theorem linkSetState_recs (lk st : Nat) : (linkSetState h lk st).recs = h.recs := by
  unfold linkSetState
  split
  · rfl
  · extract_lets h1
    split
    · rw [RegsPwrOnly.irqFire h1]
      rfl
    · rfl

theorem linkQuiesce_recs (lk : Nat) : (linkQuiesce h lk).recs = h.recs := by
  unfold linkQuiesce
  extract_lets x h1
  split
  · exact linkSetState_recs lk lsQuiesce
  · rfl

/-- The registers of the block that the start of a recovery in region q writes. -/
theorem recoveryRegs_rd_other {q a : Nat} (cause : Nat) (hstat : a ≠ RGN_STAT q) (hpwr : a ≠ PWR_STAT q) (hdisc : a ≠ RGN_DISC q) (hmaint : a ≠ LCH_MAINT) :
    (recoveryRegs h q cause).rd a = h.rd a := by
  rw [recoveryRegs, Hw.sb, Hw.rd_wf_other _ _ _ hmaint, Hw.rd_wr_other _ _ hdisc, Hw.rd_wf_other _ _ _ hpwr, Hw.addSat, Hw.rd_wf_other _ _ _ hstat,
    Hw.rd_wf_other _ _ _ hstat, Hw.rd_wf_other _ _ _ hstat]

theorem recoveryStart_rd_other {q a : Nat} (hq : q < 4) (cause : Nat) (hirq : ¬ irqOrPower a) (hlink : a / 0x100000 ≠ 0x203) (hstat : a ≠ RGN_STAT q)
    (hdisc : a ≠ RGN_DISC q) (hmaint : a ≠ LCH_MAINT) : (recoveryStart h q cause).rd a = h.rd a := by
  have hlinks : ∀ lk ∈ linksOf q, lk < 128 := fun lk hlk => by
    have := mem_linksOf.mp hlk
    omega
  have hpwr : a ≠ PWR_STAT q := by
    rintro rfl
    exact hirq (.inr (by unfold PWR_STAT; omega))
  rw [recoveryStart_eq, (LinksQuiesced.foldl hlinks (linksOf_nodup q) _).rd a hirq hlink, recoveryMarked_rd]
  exact recoveryRegs_rd_other cause hstat hpwr hdisc hmaint

theorem Hw.setRec_recs (q : Nat) (x : RecSt) : (h.setRec q x).recs = kvIns h.recs q x := rfl

theorem recoveryRegs_recs (q cause : Nat) : (recoveryRegs h q cause).recs = h.recs := by
  rw [recoveryRegs, Hw.sb_recs, Hw.wr_recs, Hw.wf_recs, Hw.addSat_recs, Hw.wf_recs, Hw.wf_recs]

theorem recoveryStart_recs (q cause : Nat) : (recoveryStart h q cause).recs = kvIns h.recs q ⟨h.tb.toNat, cause == 5, 0, 0⟩ := by
  rw [recoveryStart_eq]
  refine List.foldlRecOn (motive := fun g : Hw => g.recs = kvIns h.recs q ⟨h.tb.toNat, cause == 5, 0, 0⟩) _ _ ?_ fun g hg lk _ => (linkQuiesce_recs lk).trans hg
  rw [recoveryMarked_eq, Hw.setRec_recs, Hw.setFrond_recs, Hw.setFrond_recs, recoveryRegs_recs]

theorem inService_recoveryRegs (q cause : Nat) (hs : h.inService r = true) : (recoveryRegs h q cause).inService r = true := by
  have hstat : PWR_STAT r ≠ RGN_STAT q := by
    unfold PWR_STAT RGN_STAT
    omega
  have hdisc : PWR_STAT r ≠ RGN_DISC q := by
    unfold PWR_STAT RGN_DISC
    omega
  have hmaint : PWR_STAT r ≠ LCH_MAINT := by
    unfold PWR_STAT LCH_MAINT
    omega
  rw [recoveryRegs, Hw.sb, Hw.inService_wf_other _ _ hmaint, Hw.inService_wr_other _ hdisc]
  refine Hw.inService_wf_psRun q ?_
  rwa [Hw.addSat, Hw.inService_wf_other _ _ hstat, Hw.inService_wf_other _ _ hstat, Hw.inService_wf_other _ _ hstat]

theorem inService_recoveryStart (q cause : Nat) (hs : h.inService r = true) : (recoveryStart h q cause).inService r = true := by
  rw [recoveryStart_eq]
  refine List.foldlRecOn (motive := fun g : Hw => g.inService r = true) _ _ ?_ fun g hg lk _ => inService_linkQuiesce lk hg
  refine (Hw.inService_congr ?_ ?_).trans (inService_recoveryRegs q cause hs)
  · exact recoveryMarked_rf h q cause _ _
  · rw [recoveryMarked_eq, Hw.setRec_cfg, Hw.setFrond_cfg, Hw.setFrond_cfg]

end

end Sys2Proof.Machine
end

section
/-!
SUPPORT. kn_fatal and the recovery that follows it (R348, R430).
-/
namespace Sys2Proof.Machine

/-! ### The error log of the whole block (R428) -/

/-- An entry, or its loss, writes MEU_STAT at most. -/
theorem meuLog_rd_other (h : Hw) (cls r addr : Nat) {a : Nat} (hne : a ≠ MEU_STAT) : (meuLog h cls r addr).rd a = h.rd a := by
  unfold meuLog
  extract_lets e
  split
  · rfl
  · exact h.rd_wf_other _ _ hne

theorem meuLog_recs (h : Hw) (cls r addr : Nat) : (meuLog h cls r addr).recs = h.recs := by
  unfold meuLog
  extract_lets e
  split <;> rfl

/-! ### KN_FATAL (R348) -/

/-- A frond of the configuration assigned to the keeper world. -/
def keeperFrondOf (h : Hw) (f : Nat) : Prop := f < 2 * h.nRegions ∧ (h.frond f).world = .keeper

section
variable {h : Hw}

theorem mem_keepers {f : Nat} : f ∈ (List.range (2 * h.nRegions)).filter (fun f => (h.frond f).world == .keeper) ↔ keeperFrondOf h f := by
  rw [List.mem_filter, List.mem_range, beq_iff_eq]
  rfl

/-- R1: a configuration has eight fronds at most. -/
theorem lt_eight_of_keeperFrondOf {f : Nat} (hf : keeperFrondOf h f) : f < 8 := by
  have hle : h.cfg.regions ≤ 4 := by cases h.cfg <;> decide
  have hlt : f < 2 * h.cfg.regions := hf.1
  omega

theorem knFatal_asserted (hclear : h.rb SYS_LOCK SYS_LOCK_FATAL = false) (hall : ∀ f, f < 8 → keeperFrondOf h f → countsLocked h f = true)
    (hsome : ∃ f, keeperFrondOf h f ∧ (h.frond f).run = .lockup) : knFatal h = meuLog (h.sb SYS_LOCK SYS_LOCK_FATAL) 4 0 0 := by
  have hlocked : ((List.range (2 * h.nRegions)).filter (fun f => (h.frond f).world == .keeper)).all (countsLocked h) = true :=
    List.all_eq_true.mpr fun f hf => hall f (lt_eight_of_keeperFrondOf (mem_keepers.mp hf)) (mem_keepers.mp hf)
  have hlockup : ((List.range (2 * h.nRegions)).filter (fun f => (h.frond f).world == .keeper)).any (fun f => (h.frond f).run == .lockup) = true := by
    obtain ⟨f, hf, hrun⟩ := hsome
    exact List.any_eq_true.mpr ⟨f, mem_keepers.mpr hf, beq_iff_eq.mpr hrun⟩
  simp only [knFatal, hclear, hlocked, hlockup, Bool.not_false, Bool.and_self, if_true]

theorem knFatal_flag_frame (hclear : h.rb SYS_LOCK SYS_LOCK_FATAL = false) (hall : ∀ f, f < 8 → keeperFrondOf h f → countsLocked h f = true)
    (hsome : ∃ f, keeperFrondOf h f ∧ (h.frond f).run = .lockup) :
    (knFatal h).rb SYS_LOCK SYS_LOCK_FATAL = true ∧ (knFatal h).fronds = h.fronds ∧ (knFatal h).recs = h.recs ∧ (knFatal h).mem = h.mem := by
  rw [knFatal_asserted hclear hall hsome]
  obtain ⟨hmem, hfronds⟩ := meuLog_frame (h := h.sb SYS_LOCK SYS_LOCK_FATAL) 4 0 0
  have hflag := meuLog_rd_other (h.sb SYS_LOCK SYS_LOCK_FATAL) 4 0 0 (a := SYS_LOCK) (by decide)
  exact ⟨(congrArg (fun v => fldGet SYS_LOCK_FATAL v == 1) hflag).trans (h.rb_sb_same SYS_LOCK rfl), hfronds, meuLog_recs _ 4 0 0, hmem⟩

theorem knFatal_of_unlocked (hsome : ∃ f, keeperFrondOf h f ∧ countsLocked h f = false) : knFatal h = h := by
  have hfree : ((List.range (2 * h.nRegions)).filter (fun f => (h.frond f).world == .keeper)).all (countsLocked h) = false := by
    obtain ⟨f, hf, hcount⟩ := hsome
    exact List.all_eq_false.mpr ⟨f, mem_keepers.mpr hf, by rw [hcount]; exact Bool.false_ne_true⟩
  simp only [knFatal, hfree, Bool.and_false, Bool.false_and, Bool.false_eq_true, if_false]

end

/-! ### FATAL_RECOVERY at one region (R430) -/

/-- What the tick after kn_fatal does to a region. -/
def fatalRegion (h : Hw) (r : Nat) : Hw :=
  if inRecovery h r then (rgnLog h r 7 0xFF 0).setRec r { h.recSt r with fatal := true }
  else if h.inService r && h.rgnState r == rpRun then recoveryStart h r 5
  else if h.rgnState r == rpRun && h.pwrState r != psSleep && h.pwrState r != psOff then h.setRec r { h.recSt r with want := 5 }
  else h

theorem fatalRecovery_eq {h : Hw} (hset : h.rb SYS_LOCK SYS_LOCK_FATAL = true) (hclear : h.rb MEU_STAT MEU_STAT_FATAL = false) :
    fatalRecovery h = h.regionList.foldl fatalRegion (h.sb MEU_STAT MEU_STAT_FATAL) := by
  unfold fatalRecovery
  rw [hset, hclear]
  rfl

theorem rgnLog_cfg (h : Hw) (r cls unit addr : Nat) : (rgnLog h r cls unit addr).cfg = h.cfg := by
  unfold rgnLog
  extract_lets log e
  split <;> rfl

/-- What decides the treatment of region r, in two blocks that agree on it. -/
structure RegionSame (r : Nat) (h h' : Hw) : Prop where
  stat : h'.rd (RGN_STAT r) = h.rd (RGN_STAT r)
  recSt : h'.recSt r = h.recSt r
  serves : h.inService r = true → h'.inService r = true

namespace RegionSame

theorem refl (r : Nat) (h : Hw) : RegionSame r h h := ⟨rfl, rfl, id⟩

theorem trans {r : Nat} {h1 h2 h3 : Hw} (h12 : RegionSame r h1 h2) (h23 : RegionSame r h2 h3) : RegionSame r h1 h3 where
  stat := h23.stat.trans h12.stat
  recSt := h23.recSt.trans h12.recSt
  serves hs := h23.serves (h12.serves hs)

section
variable {r : Nat} {h h' : Hw} (hk : RegionSame r h h')
include hk

theorem rf (f : Fld) : h'.rf (RGN_STAT r) f = h.rf (RGN_STAT r) f := congrArg (fldGet f) hk.stat

theorem rgnState : h'.rgnState r = h.rgnState r := hk.rf RGN_STAT_STATE

theorem inRecovery : inRecovery h' r = inRecovery h r := by simp only [Machine.inRecovery, hk.rgnState]

end

/-- A write of a register that belongs to no region. -/
theorem wr {r a : Nat} (hstat : RGN_STAT r ≠ a) (hpwr : PWR_STAT r ≠ a) (h : Hw) (v : W32) : RegionSame r h (h.wr a v) where
  stat := h.rd_wr_other v hstat
  recSt := rfl
  serves hs := (Hw.inService_wr_other v hpwr).trans hs

theorem setRec {q r : Nat} (hne : r ≠ q) (h : Hw) (x : RecSt) : RegionSame r h (h.setRec q x) where
  stat := rfl
  recSt := kvGet_kvIns_other _ _ _ hne
  serves hs := hs

theorem rgnLog {q r : Nat} (hne : r ≠ q) (h : Hw) (cls unit addr : Nat) : RegionSame r h (rgnLog h q cls unit addr) where
  stat := rgnLog_rd_other h q cls unit addr (by unfold RGN_STAT; omega)
  recSt := by
    obtain ⟨-, -, -, hrecs⟩ := rgnLog_frame h q cls unit addr
    rw [Hw.recSt, hrecs, Hw.recSt]
  serves hs := (Hw.inService_congr (congrArg (fldGet PWR_STAT_STATE) (rgnLog_rd_other h q cls unit addr (by unfold PWR_STAT RGN_STAT; omega)))
    (rgnLog_cfg h q cls unit addr)).trans hs

theorem recoveryStart {q r : Nat} (hq : q < 4) (hr : r < 4) (hne : r ≠ q) (h : Hw) (cause : Nat) : RegionSame r h (recoveryStart h q cause) where
  stat := by
    have hblock := RGN_STAT_block hr
    refine recoveryStart_rd_other hq cause (by simp [irqOrPower, hblock]) (by simp [hblock]) ?_ ?_ ?_
    · unfold RGN_STAT
      omega
    · unfold RGN_STAT RGN_DISC
      omega
    · unfold RGN_STAT LCH_MAINT
      omega
  recSt := by
    rw [Hw.recSt, recoveryStart_recs]
    exact kvGet_kvIns_other _ _ _ hne
  serves hs := inService_recoveryStart q cause hs

/-- The treatment of a region is its own. -/
theorem fatalRegion {q r : Nat} (hq : q < 4) (hr : r < 4) (hne : r ≠ q) (h : Hw) : RegionSame r h (fatalRegion h q) := by
  unfold Machine.fatalRegion
  split
  · exact (rgnLog hne h 7 0xFF 0).trans (setRec hne _ _)
  · split
    · exact recoveryStart hq hr hne h 5
    · split
      · exact setRec hne h _
      · exact refl r h

theorem foldl_fatalRegion {l : List Nat} {r : Nat} (hr : r < 4) (hl : ∀ q ∈ l, q < 4) (hnot : r ∉ l) (h : Hw) : RegionSame r h (l.foldl Machine.fatalRegion h) :=
  List.foldlRecOn (motive := RegionSame r h) _ _ (refl r h) fun g hg q hmem => hg.trans (fatalRegion (hl q hmem) hr (fun he => hnot (he ▸ hmem)) g)

end RegionSame

/-- Region r after the tick: it starts recovery with CAUSE FATAL from run or idle, and is marked to halt where it recovered already. -/
def FatalHandled (r : Nat) (h h' : Hw) : Prop :=
  (h.inService r = true → h.rgnState r = rpRun → h'.rgnState r = rpQuiesce ∧ h'.rf (RGN_STAT r) RGN_STAT_CAUSE = 5 ∧ (h'.recSt r).fatal = true) ∧
    (inRecovery h r = true → h'.rgnState r = h.rgnState r ∧ (h'.recSt r).fatal = true)

theorem fatalRegion_handled {r : Nat} (hr : r < 4) (h : Hw) : FatalHandled r h (fatalRegion h r) := by
  constructor
  · intro hserv hrun
    have hnot : inRecovery h r = false := by
      rw [inRecovery, hrun]
      decide
    have heq : fatalRegion h r = recoveryStart h r 5 := by simp [fatalRegion, hnot, hserv, hrun]
    have hrec : ((recoveryStart h r 5).recSt r).fatal = true := by
      rw [Hw.recSt, recoveryStart_recs, kvGet_kvIns_same]
      rfl
    obtain ⟨hstate, hcause, -⟩ := recoveryStart_started (h := h) hr (show 5 < 16 by decide)
    rw [heq]
    exact ⟨hstate, hcause, hrec⟩
  · intro hrec
    have heq : fatalRegion h r = (rgnLog h r 7 0xFF 0).setRec r { h.recSt r with fatal := true } := if_pos hrec
    rw [heq]
    exact ⟨rgnLog_rgnState h r 7 0xFF 0, congrArg RecSt.fatal (kvGet_kvIns_same _ _ _ _)⟩

/-- What was found before the tick reached the region, and what is left after it went on, is the same of the region. -/
theorem FatalHandled.of_same {r : Nat} {h h1 h2 h' : Hw} (hbefore : RegionSame r h h1) (hdone : FatalHandled r h1 h2) (hafter : RegionSame r h2 h') : FatalHandled r h h' := by
  obtain ⟨hstart, hmark⟩ := hdone
  rw [hbefore.rgnState] at hstart hmark
  rw [hbefore.inRecovery] at hmark
  unfold FatalHandled
  rw [hafter.rgnState, hafter.rf, hafter.recSt]
  exact ⟨fun hserv => hstart (hbefore.serves hserv), hmark⟩

/-- Each region of the list is handled, whatever the tick does to the others before and after it. -/
theorem foldl_fatalRegion_handled {l : List Nat} (hl : ∀ q ∈ l, q < 4) (hnd : l.Nodup) {r : Nat} (hr : r ∈ l) (h : Hw) : FatalHandled r h (l.foldl fatalRegion h) := by
  obtain ⟨l1, l2, rfl⟩ := List.append_of_mem hr
  have hr4 : r < 4 := hl r hr
  obtain ⟨-, hnd2, hdisj⟩ := List.nodup_append.mp hnd
  have hnot1 : r ∉ l1 := fun hmem => hdisj r hmem r List.mem_cons_self rfl
  have hnot2 : r ∉ l2 := (List.nodup_cons.mp hnd2).1
  rw [List.foldl_append, List.foldl_cons]
  exact .of_same (.foldl_fatalRegion hr4 (fun q hq => hl q (List.mem_append_left _ hq)) hnot1 h) (fatalRegion_handled hr4 _)
    (.foldl_fatalRegion hr4 (fun q hq => hl q (List.mem_append_right _ (List.mem_cons_of_mem _ hq))) hnot2 _)

/-- The tick leaves memory and MEU_STAT at every region. -/
theorem fatalRegion_mem_meuStat {q : Nat} (hq : q < 4) (h : Hw) : (fatalRegion h q).mem = h.mem ∧ (fatalRegion h q).rd MEU_STAT = h.rd MEU_STAT := by
  have hstat : MEU_STAT ≠ RGN_STAT q := by
    unfold MEU_STAT RGN_STAT
    omega
  have hdisc : MEU_STAT ≠ RGN_DISC q := by
    unfold MEU_STAT RGN_DISC
    omega
  unfold fatalRegion
  split
  · exact ⟨(rgnLog_frame h q 7 0xFF 0).1, rgnLog_rd_other h q 7 0xFF 0 hstat⟩
  · split
    · obtain ⟨-, -, -, -, -, -, -, hmem⟩ := recoveryStart_started (h := h) hq (show 5 < 16 by decide)
      exact ⟨hmem, recoveryStart_rd_other hq 5 (by simp [irqOrPower, MEU_STAT]) (by decide) hstat hdisc (by decide)⟩
    · split <;> exact ⟨rfl, rfl⟩

theorem foldl_fatalRegion_mem_meuStat {l : List Nat} (hl : ∀ q ∈ l, q < 4) (h : Hw) :
    (l.foldl fatalRegion h).mem = h.mem ∧ (l.foldl fatalRegion h).rd MEU_STAT = h.rd MEU_STAT := by
  refine List.foldlRecOn (motive := fun g : Hw => g.mem = h.mem ∧ g.rd MEU_STAT = h.rd MEU_STAT) _ _ ⟨rfl, rfl⟩ fun g ⟨hmem, hmeu⟩ q hq => ?_
  obtain ⟨hmem', hmeu'⟩ := fatalRegion_mem_meuStat (hl q hq) g
  exact ⟨hmem'.trans hmem, hmeu'.trans hmeu⟩

section
variable {h : Hw} (hset : h.rb SYS_LOCK SYS_LOCK_FATAL = true) (hclear : h.rb MEU_STAT MEU_STAT_FATAL = false)
include hset hclear

theorem fatalRecovery_flag_mem : (fatalRecovery h).rb MEU_STAT MEU_STAT_FATAL = true ∧ (fatalRecovery h).mem = h.mem := by
  rw [fatalRecovery_eq hset hclear]
  obtain ⟨hmem, hmeu⟩ := foldl_fatalRegion_mem_meuStat (l := h.regionList) (fun q hq => Hw.lt_four_of_hasRegion (h := h) (decide_eq_true (List.mem_range.mp hq)))
    (h.sb MEU_STAT MEU_STAT_FATAL)
  exact ⟨(congrArg (fun v => fldGet MEU_STAT_FATAL v == 1) hmeu).trans (h.rb_sb_same MEU_STAT rfl), hmem⟩

theorem fatalRecovery_handled {r : Nat} (hr : h.hasRegion r = true) : FatalHandled r h (fatalRecovery h) := by
  have hstat : RGN_STAT r ≠ MEU_STAT := by
    unfold RGN_STAT MEU_STAT
    have := Hw.lt_four_of_hasRegion hr
    omega
  have hpwr : PWR_STAT r ≠ MEU_STAT := by
    unfold PWR_STAT MEU_STAT
    omega
  rw [fatalRecovery_eq hset hclear]
  exact .of_same (.wr hstat hpwr h _)
    (foldl_fatalRegion_handled (fun q hq => Hw.lt_four_of_hasRegion (h := h) (decide_eq_true (List.mem_range.mp hq))) List.nodup_range
      (List.mem_range.mpr (of_decide_eq_true hr)) _) (.refl r _)

end

end Sys2Proof.Machine
end

section
/-!
SUPPORT. Parity errors of the register fabric (R428), and the two error logs as a read pops them (R428, R432).
-/
namespace Sys2Proof.Machine

/-! ### A parity error is logged (R428) -/

/-- The block with a parity error at address a logged. -/
def fabricLogged (h : Hw) (a : Nat) : Hw := meuLog (h.sb MEU_STAT MEU_STAT_RFPERR) 1 0 a

/-- What the log shows of a parity error at address a: the flag, and one more entry, which leaves memory. -/
def ShowsFabricError (a : Nat) (h h' : Hw) : Prop :=
  h'.rb MEU_STAT MEU_STAT_RFPERR = true ∧ (∃ e, h'.meuLogs = h.meuLogs ++ [(e, BitVec.ofNat 32 (a % 2 ^ 30))]) ∧ h'.mem = h.mem

theorem meuLog_cfg (h : Hw) (cls r addr : Nat) : (meuLog h cls r addr).cfg = h.cfg := by
  unfold meuLog
  extract_lets e
  split <;> rfl

theorem meuLog_room {h : Hw} (hroom : h.meuLogs.length < 16) (cls r addr : Nat) :
    ∃ e, meuLog h cls r addr = { h with meuLogs := h.meuLogs ++ [(e, BitVec.ofNat 32 (addr % 2 ^ 30))] } := ⟨_, if_pos hroom⟩

section
variable {h : Hw} {a : Nat}

/-- What is left of the block beside the flag and the entry. -/
theorem fabricLogged_eq (hroom : h.meuLogs.length < 16) :
    ∃ e, fabricLogged h a = { h.sb MEU_STAT MEU_STAT_RFPERR with meuLogs := h.meuLogs ++ [(e, BitVec.ofNat 32 (a % 2 ^ 30))] } :=
  meuLog_room (h := h.sb MEU_STAT MEU_STAT_RFPERR) hroom 1 0 a

theorem fabricLogged_shows (hroom : h.meuLogs.length < 16) : ShowsFabricError a h (fabricLogged h a) := by
  obtain ⟨e, heq⟩ := fabricLogged_eq (a := a) hroom
  rw [heq]
  exact ⟨h.rb_sb_same MEU_STAT rfl, ⟨e, rfl⟩, rfl⟩

theorem fabricLogged_fronds : (fabricLogged h a).fronds = h.fronds := (meuLog_frame _ 1 0 a).2

theorem fabricLogged_frond (f : Nat) : (fabricLogged h a).frond f = h.frond f := congrArg (kvGet Frond.zero · f) fabricLogged_fronds

theorem ShowsFabricError.of_same {g h' : Hw} (hs : ShowsFabricError a h g) (hstat : h'.rd MEU_STAT = g.rd MEU_STAT) (hlogs : h'.meuLogs = g.meuLogs) (hmem : h'.mem = g.mem) :
    ShowsFabricError a h h' := by
  unfold ShowsFabricError at *
  rwa [Hw.rb, Hw.rf, hstat, hlogs, hmem]

/-! ### The access that met it (R428) -/

variable {w : Who}

section
variable {f : Nat} (hw : w.agent = .frond f)
include hw

theorem registerFabricParityError_frond_read : registerFabricParityError w false a h =
    (fabricLogged h a).setFrond f { (fabricLogged h a).frond f with
      load := ((fabricLogged h a).frond f).load.map (fun l => if l.pa = 2 ^ 52 + a ∧ l.served.isNone then { l with served := some (0, 2) } else l) } := by
  unfold registerFabricParityError
  rw [hw]
  rfl

theorem registerFabricParityError_frond_write : registerFabricParityError w true a h =
    (fabricLogged h a).setFrond f { (fabricLogged h a).frond f with
      stores := ((fabricLogged h a).frond f).stores.map (fun x => if x.pa = 2 ^ 52 + a ∧ x.served.isNone then { x with served := some 2 } else x) } := by
  unfold registerFabricParityError
  rw [hw]
  rfl

end

/-- The block in which the free tag has been taken, and a read has been given zero. -/
def fabricRead (h : Hw) (write : Bool) (a : Nat) : Hw := if write then (fabricLogged h a).fresh.2 else { (fabricLogged h a).fresh.2 with busRd := 0 }

theorem fabricRead_shows (hroom : h.meuLogs.length < 16) (write : Bool) :
    ShowsFabricError a h (fabricRead h write a) ∧ (fabricRead h write a).fronds = h.fronds ∧ (fabricRead h write a).busRd = if write then h.busRd else 0 := by
  have hbus : (fabricLogged h a).busRd = h.busRd := by
    obtain ⟨e, heq⟩ := fabricLogged_eq (a := a) hroom
    rw [heq]
    rfl
  have hshows := fabricLogged_shows (a := a) hroom
  have hfronds := fabricLogged_fronds (h := h) (a := a)
  unfold fabricRead
  generalize fabricLogged h a = g at hbus hshows hfronds
  cases write with
  | false => exact ⟨hshows.of_same rfl rfl rfl, hfronds, rfl⟩
  | true => exact ⟨hshows.of_same rfl rfl rfl, hfronds, hbus⟩

/-- The tag of the host's request. -/
def fabricTag (h : Hw) (a : Nat) : Nat := (fabricLogged h a).fresh.1.toNat % 1024

theorem fabricLogged_cfg : (fabricLogged h a).cfg = h.cfg := meuLog_cfg _ 1 0 a

theorem hpRunning_fabricLogged (p : Nat) : hpRunning (fabricLogged h a) p = hpRunning h p := by
  have hclk : (fabricLogged h a).rd CLK_STAT = h.rd CLK_STAT :=
    (meuLog_rd_other _ 1 0 a (by decide)).trans (h.rd_wf_other MEU_STAT_RFPERR 1 (by decide))
  rw [hpRunning, hpRunning, Hw.rf, Hw.rf, hclk]

section
variable (hw : w.agent = .host) (hp : h.hasPort w.port = true) (hrun : hpRunning h w.port = true)
include hw hp hrun

theorem registerFabricParityError_host (write : Bool) : registerFabricParityError w write a h =
    sAnswer (fabricRead h write a) w.port a (fabricTag h a) (b2n write) write 1 (if write then [] else List.replicate 4 0) [] := by
  have hport : (fabricLogged h a).fresh.2.hasPort w.port = true := by
    rw [← hp, Hw.hasPort, Hw.hasPort, Hw.nRegions, Hw.nRegions, ← fabricLogged_cfg (h := h) (a := a)]
    rfl
  have hruns : hpRunning (fabricLogged h a).fresh.2 w.port = true := (hpRunning_fabricLogged w.port).trans hrun
  have hanswers : ((fabricLogged h a).fresh.2.hasPort w.port && hpRunning (fabricLogged h a).fresh.2 w.port) = true := by
    rw [hport, hruns]
    rfl
  unfold registerFabricParityError
  rw [hw]
  exact if_pos hanswers

end

end

/-! ### The answer of a host port, and the rest of the block (R235) -/

section
variable (h : Hw) {port a : Nat} (hport : port < 8) (ha : a / 0x100000 ≠ 0x206)
include hport ha

theorem rd_hpCapture_other (sdir : Bool) (st op cls tag addr : Nat) : (hpCapture h port sdir st op cls tag addr).rd a = h.rd a := by
  have hinfo : a ≠ HP_ERR_INFO port := by
    unfold HP_ERR_INFO
    omega
  have hlo : a ≠ HP_ERR_ADDR_LO port := by
    unfold HP_ERR_ADDR_LO
    omega
  have hhi : a ≠ HP_ERR_ADDR_HI port := by
    unfold HP_ERR_ADDR_HI
    omega
  unfold hpCapture
  split
  · rfl
  · rw [Hw.rd_wr_other _ _ hhi, Hw.rd_wr_other _ _ hlo, Hw.rd_wr_other _ _ hinfo]

/-- An answer writes no register but those of its port. -/
theorem rd_sAnswer_other (addr tag op : Nat) (write : Bool) (st : Nat) (data : List Byte) (busy : List Bool) :
    (sAnswer h port addr tag op write st data busy).rd a = h.rd a := by
  have hbytes : a ≠ HP_BYTES port := by
    unfold HP_BYTES
    omega
  have hstat : a ≠ HP_STAT port := by
    unfold HP_STAT
    omega
  have hcounted : (answerCounted h port addr tag write st data busy).rd a = h.rd a := by
    unfold answerCounted
    split
    · rfl
    · exact rd_hpBytes_other _ port true _ hbytes
  rw [sAnswer_eq]
  extract_lets h2 h3
  have hrefused : h3.rd a = h.rd a := by
    unfold h3
    split
    · exact (h2.rd_wf_other _ _ hstat).trans hcounted
    · exact hcounted
  split
  · exact hrefused
  · exact (rd_hpCapture_other h3 hport ha true st op 0 tag addr).trans hrefused

end

theorem sAnswer_meuLogs_busRd (h : Hw) (port addr tag op : Nat) (write : Bool) (st : Nat) (data : List Byte) (busy : List Bool) :
    (sAnswer h port addr tag op write st data busy).meuLogs = h.meuLogs ∧ (sAnswer h port addr tag op write st data busy).busRd = h.busRd := by
  rw [sAnswer_keeps h port addr tag op write st data busy]
  exact ⟨rfl, rfl⟩

/-- What a host sees of an access that met a parity error: the log, and an answer with ERR, with a word of zero to a read. -/
def HostAnsweredErr (w : Who) (write : Bool) (a : Nat) (h h' : Hw) : Prop :=
  ShowsFabricError a h h' ∧ h'.fronds = h.fronds ∧ h'.busRd = (if write then h.busRd else 0) ∧
    ∃ t, kvFind h'.sresp w.port = some ⟨t, write, 1, if write then [] else [0, 0, 0, 0], []⟩

theorem registerFabricParityError_host_answered {h : Hw} {a : Nat} {w : Who} (hw : w.agent = .host) (hp : h.hasPort w.port = true) (hrun : hpRunning h w.port = true)
    (hroom : h.meuLogs.length < 16) (write : Bool) : HostAnsweredErr w write a h (registerFabricParityError w write a h) := by
  obtain ⟨hshows, hfronds, hbusRd⟩ := fabricRead_shows (a := a) hroom write
  rw [registerFabricParityError_host hw hp hrun]
  generalize fabricRead h write a = g at hshows hfronds hbusRd ⊢
  obtain ⟨hmem', hfronds'⟩ := sAnswer_frame g w.port a (fabricTag h a) (b2n write) write 1 (if write then [] else List.replicate 4 0) []
  obtain ⟨hlogs', hbusRd'⟩ := sAnswer_meuLogs_busRd g w.port a (fabricTag h a) (b2n write) write 1 (if write then [] else List.replicate 4 0) []
  exact ⟨hshows.of_same (rd_sAnswer_other g (Hw.lt_of_hasPort hp) (by decide) _ _ _ _ _ _ _) hlogs' hmem', hfronds'.trans hfronds, hbusRd'.trans hbusRd, _,
    sresp_sAnswer g w.port a (fabricTag h a) (b2n write) write 1 _ _⟩

/-! ### The answer to a frond (R319) -/

section
variable {h : Hw} {a : Nat} {w : Who} {f : Nat} (hw : w.agent = .frond f) (hroom : h.meuLogs.length < 16)
include hw hroom

theorem registerFabricParityError_frond_load {l : LsuLoad} (hload : (h.frond f).load = some l) (hpa : l.pa = 2 ^ 52 + a) (hwaits : l.served = none) :
    ShowsFabricError a h (registerFabricParityError w false a h) ∧
      ((registerFabricParityError w false a h).frond f).load = some { l with served := some (0, 2) } := by
  rw [registerFabricParityError_frond_read hw]
  refine ⟨(fabricLogged_shows hroom).of_same rfl rfl rfl, ?_⟩
  rw [Hw.frond_setFrond_same, fabricLogged_frond, hload]
  simp [hpa, hwaits]

theorem registerFabricParityError_frond_stores : ShowsFabricError a h (registerFabricParityError w true a h) ∧
    ((registerFabricParityError w true a h).frond f).stores =
      (h.frond f).stores.map (fun x => if x.pa = 2 ^ 52 + a ∧ x.served = none then { x with served := some 2 } else x) := by
  rw [registerFabricParityError_frond_write hw]
  refine ⟨(fabricLogged_shows hroom).of_same rfl rfl rfl, ?_⟩
  rw [Hw.frond_setFrond_same, fabricLogged_frond]
  simp only [Option.isNone_iff_eq_none]

end

/-! ### The registers of the two logs (R428, R432, R515) -/

section
variable {h : Hw} {w : Who}

/-- An offset of a region's recovery registers. -/
theorem blockOf_rgn {r : Nat} (hr : r < 4) {o : Nat} (ho : o < 0x10000) :
    blockOf h (0x20D00000 + 0x10000 * r + o) = if h.hasRegion r then some (.rgn r, o) else none := by
  have hblk : (0x20D00000 + 0x10000 * r + o) / 0x100000 = 0x20D := by omega
  have hrgn : (0x20D00000 + 0x10000 * r + o) / 0x10000 % 16 = r := by omega
  have hoff : (0x20D00000 + 0x10000 * r + o) % 0x10000 = o := by omega
  unfold blockOf
  simp only [hblk, hrgn, hoff]

/-- The log of an absent region grants no access. -/
theorem hasRegion_of_regGrant_rgnLogInfo {r : Nat} (hr : r < 4) {write : Bool} (hg : regGrant h w (RGN_LOG_INFO r) write = true) : h.hasRegion r = true := by
  by_contra habsent
  have hblk : blockOf h (RGN_LOG_INFO r) = none := (blockOf_rgn hr (by decide)).trans (if_neg habsent)
  rw [regGrant, hblk] at hg
  exact Bool.false_ne_true hg

/-- A read of RGN_LOG_INFO pops the region's log (R432). -/
theorem regRead_RGN_LOG_INFO {r : Nat} (hr : r < 4) (hg : regGrant h w (RGN_LOG_INFO r) false = true) :
    (regRead h w (RGN_LOG_INFO r) 0).2 = { (rgnLogTake r h).2 with busRd := (rgnLogTake r h).1 } := by
  have hblk : blockOf h (RGN_LOG_INFO r) = some (.rgn r, 0xC) := (blockOf_rgn hr (by decide)).trans (if_pos (hasRegion_of_regGrant_rgnLogInfo hr hg))
  have hinfo : infoOf h (.rgn r) 0xC = some ⟨0x0, 0x0, 0x0, false⟩ := rfl
  have heff : readEffect h w (RGN_LOG_INFO r) 0 = (rgnLogTake r h).2 := by
    unfold readEffect
    simp only [hblk, hinfo, if_true]
  have hval : regPeek h w (RGN_LOG_INFO r) = (rgnLogTake r h).1 := by
    unfold regPeek
    simp only [hblk, hinfo, computed, if_true, Option.getD_some]
    exact BitVec.and_allOnes
  unfold regRead
  simp only [hblk, heff, hval]
  rfl

/-- A read of MEU_LOG_INFO pops the log of the whole block (R428). -/
theorem regRead_MEU_LOG_INFO : (regRead h w MEU_LOG_INFO 0).2 = { (meuLogTake h).2 with busRd := (meuLogTake h).1 } := by
  have hblk : blockOf h MEU_LOG_INFO = some (.meu, 8) := rfl
  have hinfo : infoOf h .meu 8 = some ⟨0x0, 0x0, 0x0, false⟩ := rfl
  have heff : readEffect h w MEU_LOG_INFO 0 = (meuLogTake h).2 := by
    unfold readEffect
    simp only [hblk, hinfo, if_true]
  have hval : regPeek h w MEU_LOG_INFO = (meuLogTake h).1 := by
    unfold regPeek
    simp only [hblk, hinfo, computed, if_true, Option.getD_some]
    exact BitVec.and_allOnes
  unfold regRead
  simp only [hblk, heff, hval]
  rfl

theorem gives_rgnLogPop_iff {s : State} {P : Hw → Prop} {r : Nat} (hr : r < 4) (hg : regGrant s.hw w (RGN_LOG_INFO r) false = true) :
    Gives (.rgnLogPop w r) s P ↔ P { (rgnLogTake r s.hw).2 with busRd := (rgnLogTake r s.hw).1 } := by
  rw [gives_iff_of_onRead (f := fun h => (regRead h w (RGN_LOG_INFO r) 0).2) rfl hg, regRead_RGN_LOG_INFO hr hg]

theorem gives_meuLogPop_iff {s : State} {P : Hw → Prop} (hg : regGrant s.hw w MEU_LOG_INFO false = true) :
    Gives (.meuLogPop w) s P ↔ P { (meuLogTake s.hw).2 with busRd := (meuLogTake s.hw).1 } := by
  rw [gives_iff_of_onRead (f := fun h => (regRead h w MEU_LOG_INFO 0).2) rfl hg, regRead_MEU_LOG_INFO]

theorem rgnLogTake_nil {r : Nat} (hlog : kvGet [] h.rgnLogs r = []) : rgnLogTake r h = (0, h) := by
  unfold rgnLogTake
  rw [hlog]

theorem rgnLogTake_cons {r : Nat} {i a : W32} {rest : List (W32 × W32)} (hlog : kvGet [] h.rgnLogs r = (i, a) :: rest) :
    rgnLogTake r h = (i, { h with rgnLogs := kvIns h.rgnLogs r rest }.wr (RGN_LOG_ADDR r) a) := by
  unfold rgnLogTake
  rw [hlog]

theorem meuLogTake_nil (hlog : h.meuLogs = []) : meuLogTake h = (0, h) := by
  unfold meuLogTake
  rw [hlog]

theorem meuLogTake_cons {i a : W32} {rest : List (W32 × W32)} (hlog : h.meuLogs = (i, a) :: rest) :
    meuLogTake h = (i, { h with meuLogs := rest }.wr MEU_LOG_ADDR a) := by
  unfold meuLogTake
  rw [hlog]

end

end Sys2Proof.Machine

namespace Sys2Proof.Proofs.FatalErrors
open Sys2Proof Sys2Proof.Machine

/-- Settles O46: kn_fatal is the conjunction over the keeper fronds; the tick after it goes through the regions one by one, and the treatment of one leaves what decides that of another,
for the interrupts its links fire take no region out of service; a parity error is logged before its access is answered; a read of a log takes its first entry. -/
theorem fatalErrorsAndTheErrorLogs : Obligations.FatalErrorsAndTheErrorLogs := by
  unfold Obligations.FatalErrorsAndTheErrorLogs
  intro s h
  refine ⟨fun hclk hclear => ?_, fun hclk hset hclear => ?_, fun hclk hroom w a => ?_, fun w r hr hg => ?_, fun w hg => ?_⟩
  · intro keepers
    refine ⟨fun hall hsome => ?_, fun hsome => ?_⟩
    · rw [gives_iff_of_onClock rfl hclk]
      exact knFatal_flag_frame hclear hall hsome
    · rw [gives_iff_of_onClock rfl hclk]
      exact knFatal_of_unlocked hsome
  · rw [gives_iff_of_onClock rfl hclk]
    obtain ⟨hflag, hmem⟩ := fatalRecovery_flag_mem hset hclear
    exact ⟨hflag, hmem, fun r hr => fatalRecovery_handled hset hclear hr⟩
  · intro logged
    refine ⟨fun hw hp hrun => ⟨?_, ?_⟩, fun f l hw hload hpa hwaits => ?_, fun f hw => ?_⟩
    · rw [gives_iff_of_onClock rfl hclk]
      exact registerFabricParityError_host_answered hw hp hrun hroom true
    · rw [gives_iff_of_onClock rfl hclk]
      exact registerFabricParityError_host_answered hw hp hrun hroom false
    · rw [gives_iff_of_onClock rfl hclk]
      exact registerFabricParityError_frond_load hw hroom hload hpa hwaits
    · rw [gives_iff_of_onClock rfl hclk]
      exact registerFabricParityError_frond_stores hw hroom
  · refine ⟨fun i a rest hlog => ?_, fun hlog => ?_⟩
    · rw [gives_rgnLogPop_iff hr hg, rgnLogTake_cons hlog]
      exact ⟨rfl, Hw.rd_wr_same _ _ a, kvGet_kvIns_same _ _ _ _, rfl⟩
    · rw [gives_rgnLogPop_iff hr hg, rgnLogTake_nil hlog]
  · refine ⟨fun i a rest hlog => ?_, fun hlog => ?_⟩
    · rw [gives_meuLogPop_iff hg, meuLogTake_cons hlog]
      exact ⟨rfl, Hw.rd_wr_same _ _ a, rfl, rfl⟩
    · rw [gives_meuLogPop_iff hg, meuLogTake_nil hlog]

end Sys2Proof.Proofs.FatalErrors
end

section
/-!
SUPPORT. The bits of the interrupt sources (R356 to R358, R374, R375): a read after a write, a source that becomes pending, and a write of IRQ_PEND bit by bit.
-/
namespace Sys2Proof.Machine

/-! ### A bit of a group register -/

section
variable {reg reg' : Nat → Nat} {n m : Nat}

theorem fldInWord_bit (n : Nat) : fldInWord ⟨n % 32, 1⟩ = true := by
  simp only [fldInWord, Bool.and_eq_true, decide_eq_true_eq]
  omega

theorem srcBit_eq_rb (h : Hw) (reg : Nat → Nat) (n : Nat) : srcBit h reg n = h.rb (reg (n / 32)) ⟨n % 32, 1⟩ := by
  rw [Bool.eq_iff_iff, srcBit, bit_eq_true_iff, Hw.rb, Hw.rf, beq_iff_eq]

theorem srcBit_congr {h h' : Hw} (hrd : h'.rd (reg (n / 32)) = h.rd (reg (n / 32))) : srcBit h' reg n = srcBit h reg n := by rw [srcBit, hrd, srcBit]

theorem srcBit_putSrcBit_same (h : Hw) (hn : n < 512) (v : Bool) : srcBit (putSrcBit h reg n v) reg n = v := by
  rw [putSrcBit, if_pos hn, srcBit_eq_rb, Hw.rb, h.rf_wf_same _ (fldInWord_bit n)]
  cases v <;> rfl

theorem rd_putSrcBit_other (h : Hw) (v : Bool) {a : Nat} (hne : a ≠ reg (n / 32)) : (putSrcBit h reg n v).rd a = h.rd a := by
  unfold putSrcBit
  split
  · exact h.rd_wf_other _ _ hne
  · rfl

/-- A bit in another register, or at another place of the same one, keeps its value. -/
theorem srcBit_putSrcBit_other (h : Hw) (v : Bool) (hne : reg' (m / 32) ≠ reg (n / 32) ∨ m % 32 ≠ n % 32) : srcBit (putSrcBit h reg n v) reg' m = srcBit h reg' m := by
  by_cases hreg : reg' (m / 32) = reg (n / 32)
  · have hplace : m % 32 ≠ n % 32 := hne.resolve_left (not_not_intro hreg)
    have hapart : fldApart ⟨n % 32, 1⟩ ⟨m % 32, 1⟩ = true := by
      simp only [fldApart, Bool.or_eq_true, decide_eq_true_eq]
      omega
    unfold putSrcBit
    split
    · rw [srcBit_eq_rb, srcBit_eq_rb, hreg, Hw.rb, h.rf_wf_apart _ (fldInWord_bit m) hapart, Hw.rb]
    · rfl
  · exact srcBit_congr (rd_putSrcBit_other h v hreg)

theorem putSrcBit_setFrond (h : Hw) (f : Nat) (x : Frond) (v : Bool) : putSrcBit (h.setFrond f x) reg n v = (putSrcBit h reg n v).setFrond f x := by
  unfold putSrcBit
  split <;> rfl

end

theorem IRQ_PEND_ne {g a : Nat} (ha : a / 0x40 ≠ 0x828004) (hg : g < 16) : a ≠ IRQ_PEND g := by
  unfold IRQ_PEND
  omega

theorem IRQ_DEFER_ne {g a : Nat} (ha : a / 0x40 ≠ 0x828007) (hg : g < 16) : a ≠ IRQ_DEFER g := by
  unfold IRQ_DEFER
  omega

/-! ### Wake events write the power controller alone (R501, R503, R505) -/

section
variable {h : Hw} {a : Nat} (hpwr : a / 0x100000 ≠ 0x219)
include hpwr

theorem rd_wakeEvent {r : Nat} (hr : r < 4) (cause : Nat) : (wakeEvent h r cause).rd a = h.rd a := by
  have hne : a ≠ PWR_STAT r := by
    unfold PWR_STAT
    omega
  have hpart : ∀ (g : Hw) (x : KV PwrRgn), ({ g with pwr := x } : Hw).rd a = g.rd a := fun _ _ => rfl
  unfold wakeEvent
  extract_lets p
  split
  · refine (hpart (((h.wf (PWR_STAT r) PWR_STAT_STATE psRun).wf (PWR_STAT r) PWR_STAT_TGT 0).sb (PWR_STAT r) PWR_STAT_SLPABT) _).trans ?_
    rw [Hw.sb, Hw.rd_wf_other _ _ _ hne, Hw.rd_wf_other _ _ _ hne, Hw.rd_wf_other _ _ _ hne]
  · split
    · rfl
    · split
      · refine (hpart (h.sb (PWR_STAT r) PWR_STAT_SLPABT) _).trans ?_
        rw [Hw.sb, Hw.rd_wf_other _ _ _ hne]
      · rfl

theorem rd_wakeOnIrq (n : Nat) : (wakeOnIrq h n).rd a = h.rd a := by
  unfold wakeOnIrq
  split
  · split
    · rfl
    · refine List.foldlRecOn (motive := fun g : Hw => g.rd a = h.rd a) _ _ rfl fun g hg r hr => ?_
      have hr4 : r < 4 := h.lt_four_of_hasRegion (decide_eq_true (List.mem_range.mp hr))
      split
      · exact (rd_wakeEvent hpwr hr4 1).trans hg
      · exact hg
  · rfl

theorem rd_deferApply {g : Nat} (hpend : a ≠ IRQ_PEND g) (hdefer : a ≠ IRQ_DEFER g) : (deferApply h g).rd a = h.rd a := by
  unfold deferApply
  extract_lets d h1
  split
  · rfl
  · have hwrites : h1.rd a = h.rd a := (Hw.rd_wr_other _ _ hdefer).trans (Hw.rd_wr_other _ _ hpend)
    refine List.foldlRecOn (motive := fun g' : Hw => g'.rd a = h.rd a) _ _ hwrites fun g' hg' k _ => ?_
    split
    · exact (rd_wakeOnIrq hpwr _).trans hg'
    · exact hg'

end

theorem srcBit_wakeOnIrq (h : Hw) {reg : Nat → Nat} {n : Nat} (hreg : reg (n / 32) / 0x100000 = 0x20A) (m : Nat) : srcBit (wakeOnIrq h m) reg n = srcBit h reg n :=
  srcBit_congr (rd_wakeOnIrq (by omega) m)

/-! ### A source becomes pending, or counts (R357, R370) -/

section
variable {h : Hw} {n : Nat}

/-- A hold that nobody claims is not in force (R375). -/
theorem grpHeld_of_unclaimed {g : Nat} (hfree : grpClaimed h g = false) : grpHeld h g = false := by rw [grpHeld, hfree, Bool.false_and]

/-- Outside a group hold a set reaches IRQ_PEND, and no source becomes active by it (R375). -/
theorem irqSetPend_pends (hex : srcExists h.cfg n = true) (hheld : grpHeld h (n / 32) = false) :
    srcBit (irqSetPend h n) IRQ_PEND n = true ∧ srcBit (irqSetPend h n) IRQ_ACT n = srcBit h IRQ_ACT n := by
  have hn : n < 483 := lt_of_srcExists hex
  have hpend : IRQ_PEND (n / 32) / 0x100000 = 0x20A := IRQ_PEND_block (by omega)
  have hact : IRQ_ACT (n / 32) / 0x40 = 0x828006 := by
    unfold IRQ_ACT
    omega
  have hne : IRQ_ACT (n / 32) ≠ IRQ_PEND (n / 32) := IRQ_PEND_ne (by omega) (by omega)
  have hset : irqSetPend h n = wakeOnIrq (putSrcBit (deferApply h (n / 32)) IRQ_PEND n true) n := by simp [irqSetPend, hex, hheld]
  rw [hset]
  constructor
  · rw [srcBit_wakeOnIrq _ hpend, srcBit_putSrcBit_same _ (by omega)]
  · rw [srcBit_wakeOnIrq _ (by omega), srcBit_putSrcBit_other _ _ (.inl hne)]
    exact srcBit_congr (rd_deferApply (by omega) hne (IRQ_DEFER_ne (by omega) (by omega)))

theorem irqFire_of_idle (hex : srcExists h.cfg n = true) (hevent : srcIsLevel h n = false) (hpend : srcBit h IRQ_PEND n = false) (hact : srcBit h IRQ_ACT n = false) :
    irqFire h n = irqSetPend h n := by simp [irqFire, hex, hevent, hpend, hact]

theorem irqFire_of_busy (hex : srcExists h.cfg n = true) (hevent : srcIsLevel h n = false) (hbusy : ¬ (srcBit h IRQ_PEND n = false ∧ srcBit h IRQ_ACT n = false)) :
    irqFire h n = h.addSat (IRQ_CNT n) IRQ_CNT_EVC 1 := by
  have hor : (srcBit h IRQ_PEND n || srcBit h IRQ_ACT n) = true := by
    rw [← Bool.not_eq_false, Bool.or_eq_false_iff]
    exact hbusy
  simp [irqFire, hex, hevent, hor]

theorem irqSample_of_true (hex : srcExists h.cfg n = true) (hlevel : srcIsLevel h n = true) (hcond : levelCond h n = true) (hpend : srcBit h IRQ_PEND n = false)
    (hact : srcBit h IRQ_ACT n = false) : irqSample h n = irqSetPend h n := by simp [irqSample, hex, hlevel, hcond, hpend, hact]

/-- A pin configured for edges is an event source (R358). -/
theorem srcIsLevel_of_edge {k : Nat} (hk : k < 32) (htrig : h.rf (IRQ_CFG (448 + k)) IRQ_CFG_TRIG = 1) : srcIsLevel h (448 + k) = false := by
  have hpin : 448 + k < 480 := by omega
  simp [srcIsLevel, hpin, htrig]

/-- A rising edge is seen as the new level of the pin, and its source fires (R358). -/
theorem knIrqInEdge_rising {k : Nat} (hk : k < 32) (htrig : h.rf (IRQ_CFG (448 + k)) IRQ_CFG_TRIG = 1) (hlow : bit h.irqIn k = false) :
    knIrqInEdge k true h = irqFire { h with irqIn := h.irqIn + 2 ^ k } (448 + k) := by simp [knIrqInEdge, hk, htrig, hlow]

theorem RegsPwrOnly.irqIn {h' : Hw} (hs : RegsPwrOnly h h') : h'.irqIn = h.irqIn := by rw [hs]

theorem RegsPwrOnly.mem {h' : Hw} (hs : RegsPwrOnly h h') : h'.mem = h.mem := by rw [hs]

/-- The end of a hold-off that may be over (R373). -/
theorem holdoffEnd_over {g t : Nat} (hsince : kvFind h.irqHoff g = some t) (hover : 2 * h.rf (IRQ_HOFF g) IRQ_HOFF_INT ≤ 5 * ((h.tb - BitVec.ofNat 64 t).toNat + 1)) :
    holdoffEnd g h = { h with irqHoff := kvDel h.irqHoff g } := by
  have hmay : hoffOver h g t 1 = true := decide_eq_true hover
  simp [holdoffEnd, hsince, hmay]

end

/-! ### A write of IRQ_PEND (R374) -/

/-- What a write of IRQ_PEND does at one place of the group. -/
def irqPendBit (g : Nat) (w : Who) (v : W32) (h : Hw) (k : Nat) : Hw :=
  let s := 32 * g + k
  if irqBitWritable h w s then
    (let on := bit v.toNat k
     let was := srcBit h IRQ_PEND s
     let h1 := putSrcBit h IRQ_PEND s on
     if on && !was then wakeOnIrq h1 s
     else if was && !on && srcRouted h s then irqRejudge h1 s
     else h1)
  else h

theorem irqPendWrite_eq (h : Hw) (g : Nat) (w : Who) (v : W32) : irqPendWrite h g w v = (List.range 32).foldl (irqPendBit g w v) h := rfl

/-- Ownership and route of a source are read from its own registers (R359, R361, R366). -/
theorem irqBitWritable_congr {h h' : Hw} {n : Nat} (hcfg : h'.cfg = h.cfg) (hclaim : h'.rd (IRQ_SCLAIM n) = h.rd (IRQ_SCLAIM n)) (hroute : h'.rd (IRQ_CFG n) = h.rd (IRQ_CFG n))
    (w : Who) : irqBitWritable h' w n = irqBitWritable h w n ∧ srcRouted h' n = srcRouted h n := by
  have hrouted : srcRouted h' n = srcRouted h n := by simp only [srcRouted, srcHostHeld, Hw.rf, hclaim, hroute]
  have hworld : srcWorld h' n = srcWorld h n := by rw [srcWorld, srcWorld, Hw.rf, Hw.rf, Hw.rf, hclaim, Hw.rf]
  exact ⟨by simp only [irqBitWritable, hcfg, hrouted, hworld], hrouted⟩

section
variable {g : Nat} {w : Who} {v : W32} {h : Hw} {k : Nat}

/-- A writable place of a source that is not routed out takes the written value, and what follows it is a wake event at most. -/
theorem irqPendBit_of_writable (hwr : irqBitWritable h w (32 * g + k) = true) (hroute : srcRouted h (32 * g + k) = false) :
    RegsPwrOnly h (irqPendBit g w v h k) ∧
      ∀ a, a / 0x100000 ≠ 0x219 → (irqPendBit g w v h k).rd a = (putSrcBit h IRQ_PEND (32 * g + k) (bit v.toNat k)).rd a := by
  have hput : RegsPwrOnly h (putSrcBit h IRQ_PEND (32 * g + k) (bit v.toNat k)) := .putSrcBit h _ _ _
  have hstep : irqPendBit g w v h k =
      if bit v.toNat k && !srcBit h IRQ_PEND (32 * g + k) then wakeOnIrq (putSrcBit h IRQ_PEND (32 * g + k) (bit v.toNat k)) (32 * g + k)
      else putSrcBit h IRQ_PEND (32 * g + k) (bit v.toNat k) := by simp [irqPendBit, hwr, hroute]
  rw [hstep]
  split
  · exact ⟨hput.trans (.wakeOnIrq _ _), fun a hpwr => rd_wakeOnIrq hpwr _⟩
  · exact ⟨hput, fun _ _ => rfl⟩

/-- One place of the write, of a source that is not routed out: its bit takes the written value where the agent may write it, and only registers of the group's pending bits and of the
power controller change. -/
theorem irqPendBit_writes (hg : g < 16) (hk : k < 32) (hroute : irqBitWritable h w (32 * g + k) = true → srcRouted h (32 * g + k) = false) :
    (∀ j, j < 32 → srcBit (irqPendBit g w v h k) IRQ_PEND (32 * g + j) =
      if j = k ∧ irqBitWritable h w (32 * g + k) = true then bit v.toNat k else srcBit h IRQ_PEND (32 * g + j)) ∧
    (∀ a, a / 0x100000 ≠ 0x219 → a ≠ IRQ_PEND g → (irqPendBit g w v h k).rd a = h.rd a) ∧ (irqPendBit g w v h k).cfg = h.cfg := by
  have hgroup : (32 * g + k) / 32 = g := by omega
  by_cases hwr : irqBitWritable h w (32 * g + k) = true
  · obtain ⟨honly, hrd⟩ := irqPendBit_of_writable (v := v) hwr (hroute hwr)
    refine ⟨fun j hj => ?_, fun a hpwr hne => ?_, by rw [honly]⟩
    · have hblock : IRQ_PEND ((32 * g + j) / 32) / 0x100000 = 0x20A := IRQ_PEND_block (by omega)
      rw [srcBit_congr (hrd _ (by omega))]
      by_cases hjk : j = k
      · rw [hjk, if_pos ⟨rfl, hwr⟩, srcBit_putSrcBit_same h (by omega)]
      · rw [if_neg (fun hc => hjk hc.1)]
        exact srcBit_putSrcBit_other h _ (.inr (by omega))
    · exact (hrd a hpwr).trans (rd_putSrcBit_other h _ (by rwa [hgroup]))
  · have hsame : irqPendBit g w v h k = h := if_neg hwr
    rw [hsame]
    exact ⟨fun j _ => (if_neg (fun hc => hwr hc.2)).symm, fun _ _ _ => rfl, rfl⟩

/-- The block with the first m places of the group written. -/
structure PendWritten (g : Nat) (w : Who) (v : W32) (m : Nat) (h h' : Hw) : Prop where
  bits : ∀ k, k < 32 → srcBit h' IRQ_PEND (32 * g + k) =
    if k < m ∧ irqBitWritable h w (32 * g + k) = true then bit v.toNat k else srcBit h IRQ_PEND (32 * g + k)
  rd : ∀ a, a / 0x100000 ≠ 0x219 → a ≠ IRQ_PEND g → h'.rd a = h.rd a
  cfg : h'.cfg = h.cfg

/-- What decides the writes of a group, the owner and the route of each source, stands while they are made. -/
theorem PendWritten.writable {m : Nat} {h' : Hw} (hw : PendWritten g w v m h h') (hg : g < 16) (hk : k < 32) :
    irqBitWritable h' w (32 * g + k) = irqBitWritable h w (32 * g + k) ∧ srcRouted h' (32 * g + k) = srcRouted h (32 * g + k) := by
  have hclaim : IRQ_SCLAIM (32 * g + k) / 0x40 ≠ 0x828004 ∧ IRQ_SCLAIM (32 * g + k) / 0x100000 = 0x20A := by
    unfold IRQ_SCLAIM
    omega
  have hconf : IRQ_CFG (32 * g + k) / 0x40 ≠ 0x828004 ∧ IRQ_CFG (32 * g + k) / 0x100000 = 0x20A := by
    unfold IRQ_CFG
    omega
  exact irqBitWritable_congr hw.cfg (hw.rd _ (by omega) (IRQ_PEND_ne (by omega) hg)) (hw.rd _ (by omega) (IRQ_PEND_ne (by omega) hg)) w

theorem foldl_irqPendBit (hg : g < 16) (hroute : ∀ k, k < 32 → irqBitWritable h w (32 * g + k) = true → srcRouted h (32 * g + k) = false) {m : Nat} (hm : m ≤ 32) :
    PendWritten g w v m h ((List.range m).foldl (irqPendBit g w v) h) := by
  induction m with
  | zero => exact ⟨fun k _ => by simp, fun _ _ _ => rfl, rfl⟩
  | succ m ih =>
    have hbefore := ih (by omega)
    rw [List.range_succ, List.foldl_append]
    obtain ⟨hwr, hrt⟩ := hbefore.writable hg (show m < 32 by omega)
    obtain ⟨hbits, hrd, hcfg⟩ := irqPendBit_writes (v := v) hg (show m < 32 by omega) (by rw [hwr, hrt]; exact hroute m (by omega))
    refine ⟨fun k hk => ?_, fun a hpwr hne => (hrd a hpwr hne).trans (hbefore.rd a hpwr hne), hcfg.trans hbefore.cfg⟩
    refine (hbits k hk).trans ?_
    rw [hbefore.bits k hk, hwr]
    by_cases hkm : k = m
    · subst hkm
      simp
    · have hlt : k < m + 1 ↔ k < m := by omega
      simp [hkm, hlt]

/-- A write of IRQ_PEND gives each writable bit the written value and leaves the others (R374). -/
theorem irqPendWrite_bits (hg : g < 16) (hroute : ∀ k, k < 32 → irqBitWritable h w (32 * g + k) = true → srcRouted h (32 * g + k) = false) (hk : k < 32) :
    srcBit (irqPendWrite h g w v) IRQ_PEND (32 * g + k) = if irqBitWritable h w (32 * g + k) then bit v.toNat k else srcBit h IRQ_PEND (32 * g + k) := by
  rw [irqPendWrite_eq, (foldl_irqPendBit hg hroute (Nat.le_refl 32)).bits k hk]
  simp only [hk, true_and]

end

end Sys2Proof.Machine

namespace Sys2Proof.Proofs.InterruptController
open Sys2Proof Sys2Proof.Machine

/-- Settles O16: an idle source becomes pending outside a group hold and a busy one counts; the places of a write of IRQ_PEND are written one after another, and none decides another. -/
theorem sourcesFireSampleAndAreWritten : Obligations.SourcesFireSampleAndAreWritten := by
  unfold Obligations.SourcesFireSampleAndAreWritten
  refine ⟨fun s n hclk hn hex hfree => ?_, fun s g t hclk hsince hover => ?_, fun s w g v hg hgrant hroute => ?_⟩
  · intro idle
    have hheld : grpHeld s.hw (n / 32) = false := grpHeld_of_unclaimed hfree
    obtain ⟨hset, hkept⟩ := irqSetPend_pends hex hheld
    refine ⟨fun hevent ⟨hpend, hact⟩ => ?_, fun hevent hbusy => ?_, fun hlevel hcond ⟨hpend, hact⟩ => ?_, fun k hnk hk htrig hlow ⟨hpend, hact⟩ => ?_⟩
    · rw [gives_iff_of_onClock (f := eventSourceFire n) rfl hclk, eventSourceFire, irqFire_of_idle hex hevent hpend hact]
      exact ⟨hset, hkept.trans hact, (IrqKeeps.irqSetPend s.hw n).mem⟩
    · rw [gives_iff_of_onClock (f := eventSourceFire n) rfl hclk, eventSourceFire, irqFire_of_busy hex hevent hbusy, Hw.addSat]
    · rw [gives_iff_of_onClock (f := levelSourceSample n) rfl hclk, levelSourceSample, irqSample_of_true hex hlevel hcond hpend hact]
      exact ⟨hset, (IrqKeeps.irqSetPend s.hw n).mem⟩
    · subst hnk
      have hevent : srcIsLevel s.hw (448 + k) = false := srcIsLevel_of_edge hk htrig
      rw [gives_iff_of_onClock (f := knIrqInEdge k true) rfl hclk, knIrqInEdge_rising hk htrig hlow]
      refine ⟨?_, (RegsPwrOnly.irqFire { s.hw with irqIn := s.hw.irqIn + 2 ^ k } (448 + k)).irqIn⟩
      rw [irqFire_of_idle (h := { s.hw with irqIn := s.hw.irqIn + 2 ^ k }) hex hevent hpend hact]
      exact (irqSetPend_pends (h := { s.hw with irqIn := s.hw.irqIn + 2 ^ k }) hex hheld).1
  · rw [gives_iff_of_onClock (f := holdoffEnd g) rfl hclk, holdoffEnd_over hsince hover]
  · rw [gives_iff_of_onWrite (f := fun h => irqPendWrite h g w v) rfl hgrant]
    exact fun k hk => irqPendWrite_bits hg hroute hk

end Sys2Proof.Proofs.InterruptController
end

section
/-!
SUPPORT. Presentation, entry and completion of an interrupt (R342, R364 to R370, R373).
-/
namespace Sys2Proof.Machine

/-! ### What a presentation changes of the fronds (R364) -/

/-- The blocks differ in the requests presented to the fronds at most. -/
structure PresentedOnly (h h' : Hw) : Prop where
  shape : h' = { h with fronds := h'.fronds }
  frond : ∀ g, h'.frond g = { h.frond g with presented := (h'.frond g).presented }

/-- A request presented to a frond, or none. -/
def Hw.present (h : Hw) (f : Nat) (p : Option Nat) : Hw := h.setFrond f { h.frond f with presented := p }

/-- The block with no request presented to the fronds below m. -/
def Hw.unpresented (h : Hw) (m : Nat) : Hw := (List.range m).foldl (fun h f => h.present f none) h

theorem presented_present (h : Hw) (f g : Nat) (p : Option Nat) : ((h.present f p).frond g).presented = if g = f then p else (h.frond g).presented := by
  unfold Hw.present
  split
  next hgf => rw [hgf, Hw.frond_setFrond_same]
  next hgf => rw [Hw.frond_setFrond_other _ _ hgf]

namespace PresentedOnly

theorem refl (h : Hw) : PresentedOnly h h := ⟨rfl, fun _ => rfl⟩

theorem trans {h1 h2 h3 : Hw} (h12 : PresentedOnly h1 h2) (h23 : PresentedOnly h2 h3) : PresentedOnly h1 h3 where
  shape := by rw [h23.shape, h12.shape]
  frond g := by rw [h23.frond g, h12.frond g]

theorem present (h : Hw) (f : Nat) (p : Option Nat) : PresentedOnly h (h.present f p) where
  shape := rfl
  frond g := by
    unfold Hw.present
    by_cases hgf : g = f
    · rw [hgf, Hw.frond_setFrond_same]
    · rw [Hw.frond_setFrond_other _ _ hgf]

theorem unpresented (h : Hw) (m : Nat) : PresentedOnly h (h.unpresented m) :=
  List.foldlRecOn (motive := PresentedOnly h) _ _ (refl h) fun g hg f _ => hg.trans (present g f none)

section
variable {h h' : Hw} (hp : PresentedOnly h h')
include hp

/-- What R363, R364 and R373 judge does not depend on what is presented. -/
theorem eligible (n f : Nat) : eligible h' n f = eligible h n f := by
  rw [Machine.eligible, hp.frond f, hp.shape]
  rfl

theorem bestFrond (n : Nat) (given : List Nat) : bestFrond h' n given = bestFrond h n given := by
  have hst : ∀ g, (h'.frond g).st = (h.frond g).st := fun g => by rw [hp.frond g]
  simp only [Machine.bestFrond, hp.eligible, hst]

theorem hoffBlocks (shown : List Nat) (n : Nat) : hoffBlocks h' shown n = hoffBlocks h shown n := by
  rw [hp.shape]
  rfl

end

end PresentedOnly

theorem presented_unpresented (h : Hw) {m g : Nat} (hg : g < m) : ((h.unpresented m).frond g).presented = none := by
  induction m with
  | zero => exact absurd hg (Nat.not_lt_zero g)
  | succ m ih =>
    rw [Hw.unpresented, List.range_succ, List.foldl_append]
    refine (presented_present (h.unpresented m) m g none).trans ?_
    split
    · rfl
    · exact ih (by omega)

/-- Hold-off starts in the list of hold-off intervals alone (R373). -/
theorem hoffStart_shape (h : Hw) (n : Nat) : hoffStart h n = { h with irqHoff := (hoffStart h n).irqHoff } := by
  unfold hoffStart
  split <;> rfl

theorem hoffStart_setFrond (h : Hw) (n f : Nat) (x : Frond) : hoffStart (h.setFrond f x) n = (hoffStart h n).setFrond f x := by
  rw [hoffStart, hoffStart, apply_ite (fun g : Hw => g.setFrond f x)]
  rfl

theorem hoffStart_frame (h : Hw) (n : Nat) : (hoffStart h n).fronds = h.fronds ∧ (hoffStart h n).mem = h.mem := by
  rw [hoffStart_shape]
  exact ⟨rfl, rfl⟩

/-! ### INTERRUPT_PRESENT (R364) -/

section
variable {h : Hw} {n f : Nat}

/-- A group with no collected firings has none to apply (R375). -/
theorem deferApply_of_none {g : Nat} (hnone : h.rd (IRQ_DEFER g) = 0) : deferApply h g = h := by
  unfold deferApply
  exact if_pos (.inl hnone)

theorem foldl_deferApply_of_none (hnone : ∀ g, g < 16 → h.rd (IRQ_DEFER g) = 0) : forEach (List.range 16) h deferApply = h :=
  List.foldlRecOn (motive := fun g : Hw => g = h) _ _ rfl fun g' hg' g hg => by rw [hg', deferApply_of_none (hnone g (List.mem_range.mp hg))]

/-- One request of the order in its turn: held off, without an eligible frond, or presented (R364, R373). -/
def presentStep (shown : List Nat) (acc : Hw × List Nat) (n : Nat) : Hw × List Nat :=
  if hoffBlocks acc.1 shown n then acc
  else match bestFrond acc.1 n acc.2 with
    | none => acc
    | some f => (hoffStart ((acc.1.present f (some n)).idleLeave (f / 2)) n, f :: acc.2)

/-- A presentation with no collected firings goes through the requests in their order. -/
theorem irqPresent_eq (hnone : ∀ g, g < 16 → h.rd (IRQ_DEFER g) = 0) : irqPresent h =
    { ((reqOrder h).foldl (presentStep ((List.range 8).filterMap (fun g => (h.frond g).presented))) (h.unpresented (2 * h.nRegions), [])).1 with
      irqAge := (reqOrder h).map (fun n => (n, min 255 (kvGet 0 h.irqAge n + 1))) |>.foldl (fun m e => kvIns m e.1 e.2) [] } := by
  unfold irqPresent
  rw [foldl_deferApply_of_none hnone]
  rfl

theorem presentStep_best {shown given : List Nat} (hfree : hoffBlocks h shown n = false) (hbest : bestFrond h n given = some f) :
    presentStep shown (h, given) n = (hoffStart ((h.present f (some n)).idleLeave (f / 2)) n, f :: given) := by simp [presentStep, hfree, hbest]

/-- The only request goes to its best frond, and no other frond keeps one. -/
theorem irqPresent_single (hnone : ∀ g, g < 16 → h.rd (IRQ_DEFER g) = 0) (horder : reqOrder h = [n])
    (hfree : hoffBlocks h ((List.range 8).filterMap (fun g => (h.frond g).presented)) n = false) (hbest : bestFrond h n [] = some f) :
    irqPresent h = { hoffStart (((h.unpresented (2 * h.nRegions)).present f (some n)).idleLeave (f / 2)) n with irqAge := [(n, min 255 (kvGet 0 h.irqAge n + 1))] } := by
  have hquiet : PresentedOnly h (h.unpresented (2 * h.nRegions)) := PresentedOnly.unpresented h _
  rw [irqPresent_eq hnone, horder, List.foldl_cons, List.foldl_nil, presentStep_best ((hquiet.hoffBlocks _ n).trans hfree) ((hquiet.bestFrond n []).trans hbest)]
  rfl

/-- What the presentation of the only request leaves. -/
theorem irqPresent_single_shows (hnone : ∀ g, g < 16 → h.rd (IRQ_DEFER g) = 0) (horder : reqOrder h = [n])
    (hfree : hoffBlocks h ((List.range 8).filterMap (fun g => (h.frond g).presented)) n = false) (hbest : bestFrond h n [] = some f) :
    (irqPresent h).mem = h.mem ∧ ∀ g, (irqPresent h).frond g = { h.frond g with presented := ((irqPresent h).frond g).presented } ∧
      (g = f → ((irqPresent h).frond g).presented = some n) ∧ (g < 2 * h.nRegions → g ≠ f → ((irqPresent h).frond g).presented = none) := by
  obtain ⟨h1, hh1⟩ : ∃ h1, h1 = (h.unpresented (2 * h.nRegions)).present f (some n) := ⟨_, rfl⟩
  have honly : PresentedOnly h h1 := hh1 ▸ (PresentedOnly.unpresented h _).trans (PresentedOnly.present _ f (some n))
  have hpres : irqPresent h = { hoffStart (h1.idleLeave (f / 2)) n with irqAge := [(n, min 255 (kvGet 0 h.irqAge n + 1))] } :=
    hh1 ▸ irqPresent_single hnone horder hfree hbest
  obtain ⟨hofronds, homem⟩ := hoffStart_frame (h1.idleLeave (f / 2)) n
  obtain ⟨hlmem, hlfronds, -⟩ := idleLeave_frame (h := h1) (f / 2)
  have hfrond : ∀ g, (irqPresent h).frond g = h1.frond g := fun g => by
    rw [hpres]
    exact congrArg (kvGet Frond.zero · g) (hofronds.trans hlfronds)
  have hmem : h1.mem = h.mem := by rw [honly.shape]
  refine ⟨?_, fun g => ?_⟩
  · rw [hpres]
    exact (homem.trans hlmem).trans hmem
  · rw [hfrond g]
    refine ⟨honly.frond g, fun hgf => ?_, fun hg hgf => ?_⟩
    · rw [hh1, presented_present, if_pos hgf]
    · rw [hh1, presented_present, if_neg hgf, presented_unpresented h hg]

end

/-! ### INTERRUPT_ENTRY (R342, R365, R367) -/

/-- The frond in the status of an interrupt of a priority, in no transfer and no repeat (R342, R365). -/
def requestStatus (x : Frond) (pri : Nat) : Frond :=
  { x with st := stEntry x pri, presented := none, rep := none, repBusy := false, xfer := none, retx := false, run := .run }

/-- The frond with a stack of sources at an address. -/
def vectored (x : Frond) (stack : List (Nat × Nat)) (a : BitVec 16) : Frond := { x with pstack := stack, pc := a }

/-- The frond with the request of source n on its stack, at its vector (R367). -/
def requestTaken (x : Frond) (n pri : Nat) (a : BitVec 16) : Frond := vectored (requestStatus x pri) ((n, pri) :: x.pstack) a

/-- The frond with its return address and status saved (R342). -/
def entrySaved (x : Frond) : Frond := { x with sra := x.pc, sst := sstEntry x 2 0 }

/-- What the entry of an interrupt saves and sets stands in every frond with its control state. -/
theorem requestTaken_fields {x y : Frond} {n pri : Nat} {a : BitVec 16} (hy : y.control = (requestTaken (entrySaved x) n pri a).control) :
    y.sra = x.pc ∧ y.pc = a ∧ y.pstack = (n, pri) :: x.pstack ∧ y.run = .run ∧ y.presented = none ∧ y.st = stEntry x pri ∧ y.sst = sstEntry x 2 0 :=
  ⟨(congrArg Frond.sra hy :), (congrArg Frond.pc hy :), (congrArg Frond.pstack hy :), (congrArg Frond.run hy :), (congrArg Frond.presented hy :), (congrArg Frond.st hy :),
    (congrArg Frond.sst hy :)⟩

section
variable {h : Hw} {f n : Nat}

/-- The fetch of a word leaves what admits a handler's address (R292, R345). -/
theorem WordKeeps.handlerBad {h' : Hw} (hk : WordKeeps h h') (hworld : (h'.frond f).world = (h.frond f).world) (a : Nat) : handlerBad h' f a = handlerBad h f a := by
  have hattr : h'.rd (CS_ATTR (f / 2) ((a - 0x8000) / 256)) = h.rd (CS_ATTR (f / 2) ((a - 0x8000) / 256)) := hk.rd _ (.inr (by unfold CS_ATTR; omega))
  simp only [Machine.handlerBad, attrRefuses, attrOf, Hw.rb, Hw.rf, hworld, hattr]

/-- A request whose vector is admitted is taken (R342, R367, R368). -/
theorem irqTake_admitted (hgood : handlerBad h f (h.rf (IRQ_VEC n) IRQ_VEC_VEC) = false) :
    irqTake h f n = (putSrcBit (putSrcBit h IRQ_PEND n false) IRQ_ACT n true).setFrond f
      ((requestTaken (h.frond f) n (h.rf (IRQ_CFG n) IRQ_CFG_PRI) (BitVec.ofNat 16 (h.rf (IRQ_VEC n) IRQ_VEC_VEC))).pass entryCycles) := by
  obtain ⟨g, hg⟩ : ∃ g, g = putSrcBit (putSrcBit (h.setFrond f (requestStatus (h.frond f) (h.rf (IRQ_CFG n) IRQ_CFG_PRI))) IRQ_PEND n false) IRQ_ACT n true := ⟨_, rfl⟩
  have htake : irqTake h f n = g.setFrond f
      ((vectored (g.frond f) ((n, h.rf (IRQ_CFG n) IRQ_CFG_PRI) :: (h.frond f).pstack) (BitVec.ofNat 16 (h.rf (IRQ_VEC n) IRQ_VEC_VEC))).pass entryCycles) := by
    rw [hg]
    exact if_neg (by rw [hgood]; decide)
  rw [putSrcBit_setFrond, putSrcBit_setFrond] at hg
  rw [htake, hg, Hw.frond_setFrond_same, Hw.setFrond_setFrond_same]
  rfl

/-- A fetch, the saved status and the start of a hold-off stand before a request that is taken: the vector and the priority are those of the block before. -/
theorem irqTake_saved {hF : Hw} (hkeeps : WordKeeps h hF) (hgood : handlerBad h f (h.rf (IRQ_VEC n) IRQ_VEC_VEC) = false) :
    irqTake (hoffStart (hF.setFrond f (entrySaved (h.frond f))) n) f n = (putSrcBit (putSrcBit (hoffStart hF n) IRQ_PEND n false) IRQ_ACT n true).setFrond f
      ((requestTaken (entrySaved (h.frond f)) n (h.rf (IRQ_CFG n) IRQ_CFG_PRI) (BitVec.ofNat 16 (h.rf (IRQ_VEC n) IRQ_VEC_VEC))).pass entryCycles) := by
  obtain ⟨g, hg⟩ : ∃ g, g = hoffStart (hF.setFrond f (entrySaved (h.frond f))) n := ⟨_, rfl⟩
  have hkeepS : WordKeeps h (hF.setFrond f (entrySaved (h.frond f))) := hkeeps.trans (.setFrond hF f _)
  have hfrond : g.frond f = entrySaved (h.frond f) := by rw [hg, hoffStart_setFrond, Hw.frond_setFrond_same]
  have hrf : ∀ a fl, 0x20900000 ≤ a → g.rf a fl = h.rf a fl := fun a fl ha => by
    rw [hg, hoffStart_shape]
    exact congrArg (fldGet fl) (hkeepS.rd a (.inr ha))
  have hvec : g.rf (IRQ_VEC n) IRQ_VEC_VEC = h.rf (IRQ_VEC n) IRQ_VEC_VEC := hrf _ _ (by unfold IRQ_VEC; omega)
  have hpri : g.rf (IRQ_CFG n) IRQ_CFG_PRI = h.rf (IRQ_CFG n) IRQ_CFG_PRI := hrf _ _ (by unfold IRQ_CFG; omega)
  have hadmitted : handlerBad g f (h.rf (IRQ_VEC n) IRQ_VEC_VEC) = false := by
    rw [hg, hoffStart_shape]
    exact (hkeepS.handlerBad (by rw [Hw.frond_setFrond_same]; rfl) _).trans hgood
  rw [← hg, irqTake_admitted (by rw [hvec]; exact hadmitted), hvec, hpri, hfrond, hg, hoffStart_setFrond, putSrcBit_setFrond, putSrcBit_setFrond, Hw.setFrond_setFrond_same]

/-- A standing request at a permitted boundary where neither a halt nor a fault is due is entered: the frond has taken it, and the source's bits are written on a block with the memory
of before. -/
theorem interruptEntry_enters {e : FetchEnv} (hlive : frondLive h f = true) (hshown : (h.frond f).presented = some n) (hbound : irqBoundary h f = true)
    (hhalt : haltDue (h.frond f) = false) (hstands : reqStands h f n = true) (hdue : dueFault h f e = none) (hgood : handlerBad h f (h.rf (IRQ_VEC n) IRQ_VEC_VEC) = false) :
    ∃ h1, h1.mem = h.mem ∧ interruptEntry f none e h = (putSrcBit (putSrcBit h1 IRQ_PEND n false) IRQ_ACT n true).setFrond f
      ((requestTaken (entrySaved (h.frond f)) n (h.rf (IRQ_CFG n) IRQ_CFG_PRI) (BitVec.ofNat 16 (h.rf (IRQ_VEC n) IRQ_VEC_VEC))).pass entryCycles) := by
  have hf : f < 8 := lt_eight_of_frondLive hlive
  obtain ⟨hF, hhF⟩ : ∃ hF, hF = if (h.frond f).run = .run && (h.frond f).fetched then countAhead (countFetch h f [(h.frond f).pc.toNat]) f (aheadOf h f) e else h := ⟨_, rfl⟩
  obtain ⟨hkeeps, hfrond⟩ : WordKeeps h hF ∧ hF.frond f = h.frond f := by
    rw [hhF]
    split
    · exact ⟨(WordKeeps.countFetch hf h _).1.trans (WordKeeps.countAhead hf _ _ e).1, rfl⟩
    · exact ⟨.refl h, rfl⟩
  have henters : interruptEntry f none e h = irqTake (hoffStart (hF.setFrond f { hF.frond f with sra := (h.frond f).pc, sst := sstEntry (h.frond f) 2 0 }) n) f n := by
    simp [interruptEntry, hlive, hshown, hbound, hhalt, hstands, hdue, hhF]
  refine ⟨hoffStart hF n, (hoffStart_frame hF n).2.trans hkeeps.mem, ?_⟩
  rw [henters, hfrond]
  exact irqTake_saved hkeeps hgood

end

/-! ### IRQ.EOI (R369, R370) -/

section
variable {h : Hw} {f n : Nat} {v : W64}

/-- A supervisor's IRQ.EOI that names the source on top of its stack completes it (R369). -/
theorem frondMove_eoi (hready : frondReady h f = true) (hsup : stS (h.frond f).st = true) {p : Nat} {rest : List (Nat × Nat)} (htop : (h.frond f).pstack = (n, p) :: rest)
    (hv : v.toNat % 512 = n) : frondMove h f 0x320 v = irqComplete (h.setFrond f { moving h f with pstack := rest }) n := by
  obtain ⟨hlive, hrun, hhalt, hheld, hfp, hstore⟩ := frondReady_iff.mp hready
  have hbad : movePortBad ⟨0, none, .imm v, 0x320⟩ = false := rfl
  have hpriv : movePriv ⟨0, none, .imm v, 0x320⟩ (h.frond f).world true (vendorAddr (h.frond f).pc.toNat) = false := rfl
  have htrigger : isTrigger 0x320 = true := rfl
  simp [frondMove, hlive, hrun, hhalt, hheld, hfp, hstore, hbad, hpriv, hsup, htop, hv, htrigger, lsuMisaligned, portFire, eoiOp, moving]

/-- The completion of an event source with no counted firing clears its active bit and sets nothing pending (R370). -/
theorem irqComplete_uncounted (hevent : srcIsLevel h n = false) (hcount : h.rf (IRQ_CNT n) IRQ_CNT_EVC = 0) : irqComplete h n = putSrcBit h IRQ_ACT n false := by
  have hcfg : IRQ_CFG n ≠ IRQ_ACT (n / 32) := by
    unfold IRQ_CFG IRQ_ACT
    omega
  have hcnt : IRQ_CNT n ≠ IRQ_ACT (n / 32) := by
    unfold IRQ_CNT IRQ_ACT
    omega
  have hevent' : srcIsLevel (putSrcBit h IRQ_ACT n false) n = false := by rwa [srcIsLevel, Hw.rf, rd_putSrcBit_other h false hcfg]
  have hcount' : (putSrcBit h IRQ_ACT n false).rf (IRQ_CNT n) IRQ_CNT_EVC = 0 := by rwa [Hw.rf, rd_putSrcBit_other h false hcnt]
  simp [irqComplete, irqRejudge, hevent', hcount']

end

end Sys2Proof.Machine

namespace Sys2Proof.Proofs.InterruptController
open Sys2Proof Sys2Proof.Machine

/-- Settles O15: presentation changes only what is presented, so the request's best frond before is its best frond then; an entry saves the frond and goes to the vector; the end of an
uncounted event only clears its active bit. -/
theorem interruptsArePresentedTakenAndEnded : Obligations.InterruptsArePresentedTakenAndEnded := by
  unfold Obligations.InterruptsArePresentedTakenAndEnded
  refine ⟨fun s n f hclk hnone horder hfree hbest => ?_, fun s f n e hclk hlive hn hshown hbound hhalt hstands hdue hgood => ?_,
    fun s f n p rest v hready hsup htop hv hevent hcount => ?_⟩
  · rw [gives_iff_of_onClock (f := irqPresent) rfl hclk]
    obtain ⟨hmem, hall⟩ := irqPresent_single_shows hnone horder hfree hbest
    refine ⟨(hall f).2.1 rfl, fun g hg hgf => (hall g).2.2 hg hgf, fun g => ?_, hmem⟩
    rw [(hall g).1]
    exact ⟨rfl, rfl⟩
  · obtain ⟨h1, hmem, henters⟩ := interruptEntry_enters hlive hshown hbound hhalt hstands hdue hgood
    rw [gives_iff_of_onClock (f := interruptEntry f none e) rfl hclk, henters]
    intro x y pri
    have hy : y.control = (requestTaken (entrySaved x) n pri (BitVec.ofNat 16 (s.hw.rf (IRQ_VEC n) IRQ_VEC_VEC))).control := by
      unfold y
      rw [Hw.frond_setFrond_same]
      exact Frond.pass_control _ _
    obtain ⟨hsra, hpc, hstack, hrun, hpresented, hst, hsst⟩ := requestTaken_fields hy
    have hpri : pri < 16 := Nat.mod_lt _ (by decide)
    obtain ⟨hS, hML, hHOLD, hFTE, -⟩ := stEntry_fields x hpri
    obtain ⟨-, hent, -⟩ := sstEntry_fields x (ent := 2) (cause := 0) (by decide) (by decide)
    have hne : IRQ_PEND (n / 32) ≠ IRQ_ACT (n / 32) := by
      unfold IRQ_PEND IRQ_ACT
      omega
    have hpend : srcBit (putSrcBit (putSrcBit h1 IRQ_PEND n false) IRQ_ACT n true) IRQ_PEND n = false :=
      (srcBit_putSrcBit_other _ true (.inl hne)).trans (srcBit_putSrcBit_same h1 hn false)
    rw [hst, hsst]
    exact ⟨hsra, hpc, hstack, hrun, hpresented, hS, hML, hHOLD, hFTE, hent, hpend, srcBit_putSrcBit_same _ hn true,
      ((RegsPwrOnly.putSrcBit h1 IRQ_PEND n false).trans (.putSrcBit _ IRQ_ACT n true)).mem.trans hmem⟩
  · rw [gives_iff_of_always (f := fun h => frondMove h f 0x320 v) rfl, frondMove_eoi hready hsup htop hv]
    exact irqComplete_uncounted hevent hcount

end Sys2Proof.Proofs.InterruptController
end

section
/-!
SUPPORT. The queue and power-on reset: every command answers, and under por_n low none but the reset pins acts (O55, O58, O59).
-/
namespace Sys2Proof.Machine

/-! ### Every command answers -/

/-- Each arm of the executor answers the state with another block and the same queue. -/
theorem exec_answers (i : Instr) (s : State) : ∃ h, exec i s = .next { s with hw := h } := by
  cases i <;> exact ⟨_, rfl⟩

theorem always_eq_of_same {s : State} {f : Hw → Hw} (hf : f s.hw = s.hw) : always s f = .next s := by
  rw [always, hf]

theorem gives_same_of_exec {i : Instr} {s : State} (he : exec i s = .next s) : Gives i s (fun h' => h' = s.hw) := ⟨s, he, rfl, rfl⟩

/-! ### The gates under por_n low (R490) -/

section
variable {s : State} {f : Hw → Hw} (hp : s.hw.porN = false)
include hp

theorem clocked_of_por : s.hw.clocked = false := by simp [Hw.clocked, hp]

theorem fabricRuns_of_por (w : Who) (b : Blk) : fabricRuns s.hw w b = false := by simp [fabricRuns, hp]

theorem regGrant_of_por (w : Who) (a : Nat) (write : Bool) : regGrant s.hw w a write = false := by
  unfold regGrant
  split
  · rfl
  · simp [fabricRuns_of_por hp]

theorem frondLive_of_por (g : Nat) : frondLive s.hw g = false := by simp [frondLive, clocked_of_por hp]

theorem onIsland_of_por : onIsland s f = .next s := always_eq_of_same (by simp [hp])

theorem onStart_of_por : onStart s f = .next s := always_eq_of_same (by simp [hp])

theorem onClock_of_por : onClock s f = .next s := always_eq_of_same (by simp [clocked_of_por hp])

theorem onWrite_of_por (w : Who) (a : Nat) : onWrite s w a f = .next s := always_eq_of_same (by simp [regGrant_of_por hp])

theorem onRead_of_por (w : Who) (a : Nat) : onRead s w a f = .next s := always_eq_of_same (by simp [regGrant_of_por hp])

theorem regRead_of_por (w : Who) (a : Nat) (sets : W32) : onRead s w a (fun h => (regRead h w a sets).2) = .next s := onRead_of_por hp w a

theorem onDoorbell_of_por (w : Who) (a : Nat) : onDoorbell s w a f = .next s := by
  refine always_eq_of_same ?_
  split
  · simp [fabricRuns_of_por hp]
  · rfl

theorem onService_of_por (g : Nat) : onService s g f = .next s := always_eq_of_same (by simp [frondLive_of_por hp])

theorem frondMove_of_por (g p : Nat) (v : W64) : always s (fun h => frondMove h g p v) = .next s :=
  always_eq_of_same (by simp [frondMove, frondLive_of_por hp])

theorem frondMove_ite_of_por {c : Prop} [Decidable c] (g p : Nat) (v : W64) : always s (fun h => if c then frondMove h g p v else h) = .next s :=
  always_eq_of_same (by simp [frondMove, frondLive_of_por hp])

theorem frondReadPort_of_por (g p : Nat) : always s (fun h => frondReadPort h g p) = .next s :=
  always_eq_of_same (by simp [frondReadPort, frondLive_of_por hp])

theorem registerWrite_of_por (w : Who) (a : Nat) (v : W32) : registerWrite w a v s.hw = s.hw := by
  unfold registerWrite
  rw [regGrant_of_por hp]
  cases blockOf s.hw (twin a) <;> simp [fabricRuns_of_por hp]

theorem rcFieldRead_of_por (w : Who) (a : Nat) (sets : W32) : rcFieldRead w a sets s.hw = s.hw := by
  unfold rcFieldRead
  rw [regGrant_of_por hp]
  cases blockOf s.hw (twin a) <;> simp [fabricRuns_of_por hp]

end

/-- While por_n is low a command that is no reset pin leaves the state: its gate is closed. -/
theorem exec_of_por {s : State} (hp : s.hw.porN = false) (i : Instr) (hpin : pinCommand i = false) : exec i s = .next s := by
  cases i with
  | porAssert | porRelease | rstAssert | rstRelease | testEnHigh => exact absurd hpin (by decide)
  | pllLock => exact always_eq_of_same (by simp [pllLock, hp])
  | pllLossOfLock => exact always_eq_of_same (by simp [pllLossOfLock, hp])
  | clockRestart => exact always_eq_of_same (by simp [clockRestart, clockDue, hp])
  | registerWrite w a v => exact always_eq_of_same (registerWrite_of_por hp w a v)
  | rcFieldRead w a sets => exact always_eq_of_same (rcFieldRead_of_por hp w a sets)
  | recover => exact always_eq_of_same (by simp [recGrant, fabricRuns_of_por hp])
  | dbgTpktPop => exact always_eq_of_same (by simp [dbgTpktPop, regGrant_of_por hp])
  | chainTrigger | stimWrite => exact frondMove_ite_of_por hp _ _ _
  | sysMbxr | cmdSqin | cmdMgq => exact frondReadPort_of_por hp _ _
  | dbSq | dbCq => exact onDoorbell_of_por hp _ _
  | collectiveRequest | cxeArdyUpdate | receivePost | tokenSend | cmdMgs => exact onService_of_por hp _
  | startupPowerHandshakeTimeout | flashCommandTimeout | bootLinkWaitExpire | boottmoExpire => exact onStart_of_por hp
  | debugNop | debugRd | debugWr | debugPrd | debugPwr | debugCrcFail | debugLineReset | chal | go | debugVerifyDone | close | debugIdleTimeout | debugHaltReq
  | debugHaltTaken | debugResume | debugStep | enterTimeout | wakeStart | pwrAckRise | pwrAckFall | wakeAckTimeout | sensorSample | tbWrap | timerMatch | timerWrap
  | timerLinkOperation | timerCapture | watchdogStage1Expire | watchdogStage2Expire | watchdogHaltRelease | beatBoundary | lichenHashDone | lichenVerifyDone
  | lichenApply | lichenWindowExpire => exact onIsland_of_por hp
  | chainStop | chainAbort | queueEnable | queueDisable | contextValidate | cxHalt | tsEnable | pwrSleep | pwrOff | pwrWake | xltInvGo | xltDirWrite
  | timerStart | timerStop | staggerGo | wdtSvc | wdtWinWrite | linkUp | linkDownCmd | linkRetrain | laneRetrain | ltScan | ltClr | beatTaskDone | claimReq
  | claimRel | mchStart | mchAbort | propose | withdraw | lchHgo | lchDgo | bootx => exact onWrite_of_por hp _ _
  | irqPendWrite w g v => exact onWrite_of_por (f := fun h => Machine.irqPendWrite h g w v) hp _ _
  | tmrCapRead | tbLoRead => exact onRead_of_por hp _ _
  | matSuspPop | repairLogPop | rgnLogPop | meuLogPop => exact regRead_of_por hp _ _ _
  | sysGate | sysStWrite | sysPfl | sysFpbar | sysMbxs | aluAdd | aluSub | aluAnd | aluOr | aluXor | aluAndn | aluShl | aluShr | aluSar | aluRor | aluEq | aluNe
  | aluLts | aluLtu | aluGes | aluGeu | mstepMul | mstepDiv | fpuFma | fpuAdd | fpuMul | fpuMax | fpuMin | fpuRcp | fpuCvw | fpuCvi | fpuCvf | lsuLd8 | lsuLd4
  | lsuSt8 | lsuSt4 | lsuLock | lsuUnlock | irqEoi | xltInv | xltPrb => exact frondMove_of_por hp _ _ _
  | _ => exact onClock_of_por hp

/-! ### A block held in power-on reset (R490) -/

/-- The values of power-on reset, but for the configuration, the pins and the counter of the free values. -/
def Hw.AtReset (h : Hw) : Prop := h = powerOnReset h

/-- Under por_n low the pins that do not end the reset leave a block at its reset values. -/
theorem exec_of_atReset {s : State} (hp : s.hw.porN = false) (hreset : s.hw.AtReset) {i : Instr} (htest : i ≠ .testEnHigh) (hrelease : i ≠ .porRelease) :
    exec i s = .next s := by
  by_cases hpin : pinCommand i = false
  · exact exec_of_por hp i hpin
  · cases i with
    | testEnHigh => exact absurd rfl htest
    | porRelease => exact absurd rfl hrelease
    | porAssert => exact always_eq_of_same hreset.symm
    | rstAssert => exact always_eq_of_same (by simp [rstAssert, hp])
    | rstRelease => exact always_eq_of_same (by simp [rstRelease, hp])
    | _ => exact absurd rfl hpin

/-- A step under por_n low with no command waiting is none. -/
theorem step_of_por {s : State} (hempty : s.pending = []) (hp : s.hw.porN = false) : step s = .next s := by
  obtain ⟨h, queue⟩ := s
  subst hempty
  simp_all [step, idleTick]

theorem step_cons (c : Instr) (rest : List Instr) (s : State) : step { s with pending := c :: rest } = exec c { s with pending := rest } := rfl

end Sys2Proof.Machine

namespace Sys2Proof.Proofs.PowerOnReset
open Sys2Proof Sys2Proof.Machine

/-- Settles O55: the step is defined by the front of the queue, and idle time under por_n low changes nothing. -/
theorem stepRunsTheFrontCommand : Obligations.StepRunsTheFrontCommand := ⟨step_cons, fun _ => step_of_por⟩

/-- Settles O58: every arm of the executor answers, and under por_n low every gate but those of the reset pins is closed. -/
theorem everyCommandAnswersAndPowerOnResetHoldsItOff : Obligations.EveryCommandAnswersAndPowerOnResetHoldsItOff := by
  refine ⟨fun i s => ?_, fun i s hp hpin => gives_same_of_exec (exec_of_por hp i hpin)⟩
  obtain ⟨h, he⟩ := exec_answers i s
  exact ⟨_, he, rfl, trivial⟩

/-- Settles O59: a step takes the front command without effect, so what held of the block and of the queue's rest still holds. -/
theorem powerOnResetHoldsTheBlockWhateverWaits : Obligations.PowerOnResetHoldsTheBlockWhateverWaits := by
  unfold Obligations.PowerOnResetHoldsTheBlockWhateverWaits
  intro atReset held s t hs hstep
  obtain ⟨h, queue⟩ := s
  obtain ⟨hp, hreset, hqueue⟩ := hs
  cases queue with
  | nil =>
    rw [step_of_por rfl hp] at hstep
    cases hstep
    exact ⟨⟨hp, hreset, hqueue⟩, rfl⟩
  | cons c rest =>
    obtain ⟨htest, hrelease⟩ := hqueue c List.mem_cons_self
    have hstill : exec c ⟨h, rest⟩ = .next ⟨h, rest⟩ := exec_of_atReset (s := ⟨h, rest⟩) hp hreset htest hrelease
    rw [step_cons c rest ⟨h, rest⟩, hstill] at hstep
    cases hstep
    exact ⟨⟨hp, hreset, fun d hd => hqueue d (List.mem_cons_of_mem c hd)⟩, rfl⟩

end Sys2Proof.Proofs.PowerOnReset
end

section
/-!
SUPPORT. States that refute O17, O45 and O56: a source completed at a reset, a count of records from an earlier recovery, and an item confirmed just before an idle tick.
-/

namespace Sys2Proof.Proofs.Refutations
open Sys2Proof Sys2Proof.Machine Sys2Proof.Proofs.Scope

/-! ### A source completed at a reset (O17)

The release of rst_n gives every frond the state of R310, which completes each source on its priority stack (R329, R368). A source whose event was counted while it was active is then
pending again (R366), and where it may wake its region it ends that region's entry to sleep (R501): the power state does not stay. -/

/-- Region 0 enters sleep, rst_n is low, and source 416 (channel 0 of the timers) stands on the stack of frond 0 with one event counted. -/
def entersWithStackedSource : Hw :=
  let h1 := { Hw.reset with cfg := .kn4S, porN := true, rstN := false }
  let h2 := ((h1.wf (PWR_STAT 0) PWR_STAT_STATE psEnter).wf (IRQ_CNT 416) IRQ_CNT_EVC 1).wr (IRQ_EN 13) 1
  h2.setFrond 0 { h2.frond 0 with pstack := [(416, 1)] }

theorem pwrState_entersWithStackedSource : entersWithStackedSource.pwrState 0 = psEnter := by decide

set_option maxRecDepth 20000 in
/-- The completed source has woken the region. -/
theorem pwrState_after_rstRelease : (rstRelease entersWithStackedSource).pwrState 0 = psRun := by decide

/-- Refutes O17: RST_RELEASE in `entersWithStackedSource` takes region 0 from ENTER to RUN. -/
theorem not_resetPinsHoldAndStartTheBlock : ¬ Obligations.ResetPinsHoldAndStartTheBlock := by
  unfold Obligations.ResetPinsHoldAndStartTheBlock
  intro hall
  obtain ⟨-, -, -, -, hrelease⟩ := hall ⟨entersWithStackedSource, []⟩
  obtain ⟨-, -, -, -, -, hregion, -⟩ := (gives_iff_of_always rfl).mp (hrelease rfl rfl rfl)
  obtain ⟨-, hpwr, -⟩ := hregion 0 rfl
  rw [pwrState_after_rstRelease, pwrState_entersWithStackedSource] at hpwr
  exact absurd hpwr (by decide)

/-! ### A count of records from an earlier recovery (O45)

RGN_DISC counts the records of a recovery and is cleared as one starts (R420). The statement asks for no more of a region in QUIESCE than that nothing is left to discard, and takes
RECS to be 0 after the drain; where the count stands already, DISCARD leaves it. -/

/-- Region 0 in QUIESCE with five records counted and nothing to drain. -/
def quiescesWithRecords : Hw := (boundaryRegs.wf (RGN_STAT 0) RGN_STAT_STATE rpQuiesce).wf (RGN_DISC 0) RGN_DISC_RECS 5

theorem rgnState_quiescesWithRecords : quiescesWithRecords.rgnState 0 = rpQuiesce := by decide

set_option maxRecDepth 20000 in
/-- The drain leaves the count. -/
theorem recs_after_quiesceDrainDone : (quiesceDrainDone 0 quiescesWithRecords).rf (RGN_DISC 0) RGN_DISC_RECS = 5 := by decide

/-- Refutes O45: after QUIESCE_DRAIN_DONE in `quiescesWithRecords` RGN_DISC.RECS reads 5, not 0. -/
theorem not_recoveryRunsThroughItsPhases : ¬ Obligations.RecoveryRunsThroughItsPhases := by
  unfold Obligations.RecoveryRunsThroughItsPhases
  intro hall
  obtain ⟨hquiesce, -⟩ := hall ⟨quiescesWithRecords, []⟩ 0 rfl rfl
  obtain ⟨hnothing, -⟩ := hquiesce rgnState_quiescesWithRecords rfl rfl rfl (fun c hc => absurd hc List.not_mem_nil)
  obtain ⟨-, -, hrecs, -⟩ := (gives_iff_of_onClock rfl rfl).mp (hnothing fun _ _ _ => ⟨rfl, rfl⟩)
  rw [recs_after_quiesceDrainDone] at hrecs
  exact absurd hrecs (by decide)

/-! ### An item confirmed just before an idle tick (O56)

In the tick after its confirmation a protected item is applied (R402, R405); item 2 resets a frond under another world (R329). The statement excludes a digest that is due, and not an
item that is. -/

/-- The lichen is about to make frond 0 a tenant; every region is off. -/
def appliesAtTheTick : Hw :=
  let h := { Hw.reset with cfg := .kn4S, porN := true }
  ((h.wf LCH_STAT LCH_STAT_STATE lcApply).wf LCH_PITEM LCH_PITEM_ITEM 2).wr (LCH_PVAL 0) 1

/-- Out of power-on reset a step with no command waiting is a tick of CK_A. -/
theorem step_of_released {s : State} (hempty : s.pending = []) (hp : s.hw.porN = true) : step s = .next { s with hw := clockTick s.hw } := by
  obtain ⟨h, queue⟩ := s
  subst hempty
  simp_all [step, idleTick]

theorem frond_appliesAtTheTick : (appliesAtTheTick.frond 0).world = .keeper := rfl

set_option maxRecDepth 20000 in
/-- Frond 0 is a tenant after the tick. -/
theorem frond_after_clockTick : ((clockTick appliesAtTheTick).frond 0).world = .tenant := by decide

/-- The regions are off, without a wake event, and nothing waits in the service. -/
theorem regions_appliesAtTheTick (r : Nat) (hr : r < 4) :
    (appliesAtTheTick.pwrState r = psRun ∨ appliesAtTheTick.pwrState r = psIdle ∨
      ((appliesAtTheTick.pwrState r = psSleep ∨ appliesAtTheTick.pwrState r = psOff) ∧ (appliesAtTheTick.pw r).wake = none)) ∧
    appliesAtTheTick.rgnState r = rpRun ∧ (appliesAtTheTick.mat r).march = none ∧ kvGet [] appliesAtTheTick.svcQ r = [] ∧
      kvGet [] appliesAtTheTick.svcTaken r = [] := by
  revert r
  decide

set_option maxRecDepth 20000 in
/-- Every channel is ungated and stopped. -/
theorem channels_appliesAtTheTick (c : Nat) (hc : c < 31) :
    appliesAtTheTick.rf (TMR_CTL c) TMR_CTL_GSEL = 0 ∧ appliesAtTheTick.tmrRun c = false := by
  revert c
  decide

/-- Refutes O56: an idle step of `appliesAtTheTick` changes the world of frond 0. -/
theorem not_idleStepsTickTheTimebaseAndTimers : ¬ Obligations.IdleStepsTickTheTimebaseAndTimers := by
  unfold Obligations.IdleStepsTickTheTimebaseAndTimers
  intro hall
  have hchannels : ∀ c, c < 31 → appliesAtTheTick.rf (TMR_CTL c) TMR_CTL_GSEL = 0 ∧ (appliesAtTheTick.tmrRun c = true →
      appliesAtTheTick.rd (TMR_CNT c) ≠ appliesAtTheTick.rd (TMR_CMP c) ∧ appliesAtTheTick.rd (TMR_CNT c) ≠ appliesAtTheTick.rd (TMR_PER c)) := by
    intro c hc
    obtain ⟨hgate, hstop⟩ := channels_appliesAtTheTick c hc
    exact ⟨hgate, fun hrun => absurd (hstop.symm.trans hrun) (by decide)⟩
  obtain ⟨t, hstep, -, -, -, hfronds, -⟩ := hall ⟨appliesAtTheTick, []⟩ rfl rfl rfl (by decide) (fun _ _ => rfl) (by decide) (by decide) (by decide) rfl
    regions_appliesAtTheTick (fun e he => absurd he List.not_mem_nil) (fun _ _ => ⟨rfl, rfl, rfl, rfl, rfl⟩) hchannels
  have ht : t.hw = clockTick appliesAtTheTick := by
    rw [step_of_released rfl rfl] at hstep
    injection hstep with hstep
    rw [← hstep]
  have hworld : (t.hw.frond 0).world = (appliesAtTheTick.frond 0).world := by rw [Hw.frond, hfronds, Hw.frond]
  rw [ht, frond_after_clockTick, frond_appliesAtTheTick] at hworld
  exact absurd hworld (by decide)

end Sys2Proof.Proofs.Refutations
end

section
/-!
SUPPORT. A start that fails with every link DOWN (R447, R448): every frond is put in reset, and of the register file only the start's own registers, SYS_LOCK, the interrupt controller
and the power controller are written.
-/
namespace Sys2Proof.Machine

/-! ### Commands behind the gates of the always-on island and of the start -/

section
variable {i : Instr} {s : State} {f : Hw → Hw} {P : Hw → Prop}

theorem gives_iff_of_onIsland (he : exec i s = onIsland s f) (hp : s.hw.porN = true) : Gives i s P ↔ P (f s.hw) := by rw [gives_iff_of_always he, if_pos hp]

theorem gives_iff_of_onStart (he : exec i s = onStart s f) (hp : s.hw.porN = true) (hr : s.hw.rstN = true) : Gives i s P ↔ P (f s.hw) := by
  rw [gives_iff_of_always he, if_pos (by rw [hp, hr, Bool.and_self])]

/-- With clocks neither reset is asserted, and the clocks are not stopped (R490, R491, R495). -/
theorem Hw.clocked_iff {h : Hw} : h.clocked = true ↔ h.porN = true ∧ h.rstN = true ∧ h.clkStop = false := by
  rw [Hw.clocked, Bool.and_eq_true, Bool.and_eq_true, Bool.not_eq_true', and_assoc]

end

/-! ### Completion of a source (R369, R370) -/

namespace RegsPwrOnly

theorem irqSample (h : Hw) (s : Nat) : RegsPwrOnly h (irqSample h s) := by
  unfold Machine.irqSample
  split
  · exact irqSetPend h s
  · exact refl h

theorem irqRejudge (h : Hw) (s : Nat) : RegsPwrOnly h (irqRejudge h s) := by
  unfold Machine.irqRejudge
  split
  · exact refl h
  · split
    · exact irqSample h s
    · split
      · exact refl h
      · exact ((refl h).wf _ _ _).trans (irqSetPend _ s)

theorem irqComplete (h : Hw) (s : Nat) : RegsPwrOnly h (irqComplete h s) := (putSrcBit h IRQ_ACT s false).trans (irqRejudge _ s)

end RegsPwrOnly

namespace IrqKeeps

theorem irqSample (h : Hw) (s : Nat) : IrqKeeps h (irqSample h s) := by
  unfold Machine.irqSample
  split
  · exact irqSetPend h s
  · exact refl h

theorem irqRejudge (h : Hw) (s : Nat) : IrqKeeps h (irqRejudge h s) := by
  unfold Machine.irqRejudge
  split
  · exact refl h
  next hs =>
    have hs483 : s < 483 := lt_of_srcExists (by simpa using hs)
    split
    · exact irqSample h s
    · split
      · exact refl h
      · exact (wr (IRQ_CNT_block hs483) h _).trans (irqSetPend _ s)

theorem irqComplete (h : Hw) (s : Nat) : IrqKeeps h (irqComplete h s) := by
  have hact : ∀ g, g < 16 → IRQ_ACT g / 0x100000 = 0x20A := fun g hg => by
    unfold IRQ_ACT
    omega
  exact (putSrcBit hact h s false).trans (irqRejudge _ s)

end IrqKeeps

/-! ### A frond put in reset (R310, R329, R368) -/

/-- What the resets of fronds leave: the memory, the links, the state of the start, and the registers outside the interrupt and power controllers but SYS_LOCK. -/
structure ResetKeeps (h h' : Hw) : Prop where
  mem : h'.mem = h.mem
  links : h'.links = h.links
  boot : h'.boot = h.boot
  cfg : h'.cfg = h.cfg
  rd : ∀ a, ¬ irqOrPower a → a ≠ SYS_LOCK → h'.rd a = h.rd a

namespace ResetKeeps

variable {h h1 h2 h3 : Hw}

theorem refl (h : Hw) : ResetKeeps h h := ⟨rfl, rfl, rfl, rfl, fun _ _ _ => rfl⟩

theorem trans (h12 : ResetKeeps h1 h2) (h23 : ResetKeeps h2 h3) : ResetKeeps h1 h3 where
  mem := h23.mem.trans h12.mem
  links := h23.links.trans h12.links
  boot := h23.boot.trans h12.boot
  cfg := h23.cfg.trans h12.cfg
  rd a ha hlock := (h23.rd a ha hlock).trans (h12.rd a ha hlock)

/-- A change of fields that the relation does not speak of, with the same register file. -/
theorem update (hmem : h2.mem = h1.mem) (hlinks : h2.links = h1.links) (hboot : h2.boot = h1.boot) (hcfg : h2.cfg = h1.cfg) (hregs : h2.regs = h1.regs) :
    ResetKeeps h1 h2 := ⟨hmem, hlinks, hboot, hcfg, fun a _ _ => Hw.rd_congr hregs hcfg a⟩

theorem irqComplete (h : Hw) (s : Nat) : ResetKeeps h (irqComplete h s) where
  mem := (IrqKeeps.irqComplete h s).mem
  links := (IrqKeeps.irqComplete h s).links
  boot := by rw [RegsPwrOnly.irqComplete h s]
  cfg := by rw [RegsPwrOnly.irqComplete h s]
  rd a ha _ := (IrqKeeps.irqComplete h s).rd a ha

theorem foldl {α : Type} {f : Hw → α → Hw} (hf : ∀ h x, ResetKeeps h (f h x)) (l : List α) (h : Hw) : ResetKeeps h (l.foldl f h) :=
  List.foldlRecOn (motive := ResetKeeps h) l f (refl h) fun g hg x _ => hg.trans (hf g x)

end ResetKeeps

/-- The frond's own part of its reset: the values of R310, its lock and the loads it waits for, before its sources are completed. -/
def frondZeroed (h : Hw) (f : Nat) (w : World) (keepStores : Bool) : Hw :=
  let z : Frond := { Frond.zero with
    world := w, st := BitVec.ofNat 64 (wIx w * 2 ^ 31 + 0x7D000000),
    stores := if keepStores then (h.frond f).stores else [], lsuSeq := (h.frond f).lsuSeq }
  let h1 := (h.setFrond f z).wf SYS_LOCK ⟨f, 1⟩ 0
  { h1 with mreqs := h1.mreqs.filter (fun q => match q.use with | .load g _ => g != f || q.tag.isSome | _ => true) }

section
variable (h : Hw) (f : Nat) (w : World) (keepStores : Bool)

theorem frondClear_eq : frondClear h f w keepStores = (h.frond f).pstack.foldl (fun g e => irqComplete g e.1) (frondZeroed h f w keepStores) := rfl

theorem frondZeroed_resetKeeps : ResetKeeps h (frondZeroed h f w keepStores) := ⟨rfl, rfl, rfl, rfl, fun _ _ hlock => Hw.rd_wf_other _ _ _ hlock⟩

theorem frondClear_resetKeeps : ResetKeeps h (frondClear h f w keepStores) := by
  rw [frondClear_eq]
  exact (frondZeroed_resetKeeps h f w keepStores).trans (ResetKeeps.foldl (fun g (e : Nat × Nat) => ResetKeeps.irqComplete g e.1) _ _)

theorem frondClear_fronds : (frondClear h f w keepStores).fronds = (frondZeroed h f w keepStores).fronds := by
  rw [frondClear_eq]
  exact List.foldlRecOn (motive := fun g : Hw => g.fronds = (frondZeroed h f w keepStores).fronds) _ _ rfl fun g hg e _ => (IrqKeeps.irqComplete g e.1).fronds.trans hg

theorem run_frondClear_same : ((frondClear h f w keepStores).frond f).run = .reset := by
  rw [Hw.frond, frondClear_fronds]
  exact congrArg Frond.run (h.frond_setFrond_same f _)

theorem frond_frondClear_other {g : Nat} (hne : g ≠ f) : (frondClear h f w keepStores).frond g = h.frond g := by
  rw [Hw.frond, frondClear_fronds]
  exact h.frond_setFrond_other _ hne

end

/-! ### Every frond held in reset (R447, R448) -/

/-- The first n fronds are put in reset, each in its world. -/
def frondsHeld (h : Hw) (n : Nat) : Hw := forEach (List.range n) h (fun h f => frondClear h f (h.frond f).world false)

theorem frondsHeld_succ (h : Hw) (n : Nat) : frondsHeld h (n + 1) = frondClear (frondsHeld h n) n ((frondsHeld h n).frond n).world false := by
  rw [frondsHeld, forEach, List.range_succ, List.foldl_concat, frondsHeld, forEach]

theorem frondsHeld_resetKeeps (h : Hw) (n : Nat) : ResetKeeps h (frondsHeld h n) := ResetKeeps.foldl (fun _ _ => frondClear_resetKeeps _ _ _ _) _ h

theorem run_frondsHeld (h : Hw) {n f : Nat} (hf : f < n) : ((frondsHeld h n).frond f).run = .reset := by
  induction n with
  | zero => omega
  | succ n ih =>
    rw [frondsHeld_succ]
    by_cases hfn : f = n
    · subst hfn
      exact run_frondClear_same _ _ _ _
    · rw [frond_frondClear_other _ _ _ _ hfn]
      exact ih (by omega)

theorem lt_128_of_link (h : Hw) {lk : Nat} (hlk : lk < 32 * h.nRegions) : lk < 128 := by
  have : h.nRegions ≤ 4 := by
    rw [Hw.nRegions]
    cases h.cfg <;> decide
  omega

theorem LK_STAT_plain {lk : Nat} (hlk : lk < 128) : ¬ irqOrPower (LK_STAT lk) ∧ LK_STAT lk ≠ SYS_LOCK ∧ LK_STAT lk ≠ BOOT_STAT := by
  unfold irqOrPower LK_STAT SYS_LOCK BOOT_STAT
  omega

theorem BOOT_STAT_plain : ¬ irqOrPower BOOT_STAT ∧ BOOT_STAT ≠ SYS_LOCK := by
  unfold irqOrPower BOOT_STAT SYS_LOCK
  omega

/-- With every link DOWN no link is taken down. -/
theorem holdAll_of_down {h : Hw} (hdown : ∀ lk, lk < 128 → h.lkState lk = lsDown) : holdAll h = frondsHeld h (2 * h.nRegions) := by
  have hkeeps := frondsHeld_resetKeeps h (2 * h.nRegions)
  change forEach (List.range (32 * h.nRegions)) (frondsHeld h (2 * h.nRegions)) _ = _
  refine List.foldlRecOn (motive := fun g : Hw => g = frondsHeld h (2 * h.nRegions)) _ _ rfl fun g hg lk hlk => ?_
  have hlk128 : lk < 128 := lt_128_of_link h (List.mem_range.mp hlk)
  have hstat : g.lkState lk = lsDown := by
    rw [hg, Hw.lkState, Hw.rf, hkeeps.rd _ (LK_STAT_plain hlk128).1 (LK_STAT_plain hlk128).2.1]
    exact hdown lk hlk128
  exact (if_pos hstat).trans hg

/-! ### The start fails (R447, R448) -/

/-- What the block shows once a start has failed. -/
structure StartFailed (code : Nat) (h h' : Hw) : Prop where
  step : h'.bootStep = 0xF
  code : h'.rf BOOT_STAT BOOT_STAT_CODE = code
  mem : h'.mem = h.mem
  fronds : ∀ f, f < 2 * h.nRegions → (h'.frond f).run = .reset

theorem bootFail_of_down {h : Hw} {code : Nat} (hcode : code < 256) (hdown : ∀ lk, lk < 128 → h.lkState lk = lsDown) : StartFailed code h (bootFail h code) := by
  have hplain : ¬ irqOrPower BOOT_STAT ∧ BOOT_STAT ≠ SYS_LOCK := BOOT_STAT_plain
  let hset := (bootTo h 0xF).wf BOOT_STAT BOOT_STAT_CODE code
  have hdown' : ∀ lk, lk < 128 → hset.lkState lk = lsDown := by
    intro lk hlk
    have hne : LK_STAT lk ≠ BOOT_STAT := (LK_STAT_plain hlk).2.2
    rw [Hw.lkState, Hw.rf_wf_other _ _ _ _ hne, bootTo, Hw.rf_wf_other _ _ _ _ hne]
    exact hdown lk hlk
  have hheld : holdAll hset = frondsHeld hset (2 * h.nRegions) := holdAll_of_down hdown'
  have hkeeps := frondsHeld_resetKeeps hset (2 * h.nRegions)
  have hboot : (bootFail h code).rd BOOT_STAT = hset.rd BOOT_STAT := by
    rw [← hkeeps.rd _ hplain.1 hplain.2, ← hheld]
    exact Hw.rd_wr_other _ _ (by decide)
  refine ⟨?_, ?_, ?_, ?_⟩
  · rw [Hw.bootStep, Hw.rf, hboot]
    exact (Hw.rf_wf_apart _ _ rfl rfl _).trans (Hw.rf_wf_same _ _ rfl _)
  · rw [Hw.rf, hboot]
    exact (Hw.rf_wf_same _ _ rfl _).trans (Nat.mod_eq_of_lt hcode)
  · change (holdAll hset).mem = h.mem
    rw [hheld, hkeeps.mem]
    rfl
  · intro f hf
    change ((holdAll hset).frond f).run = .reset
    rw [hheld]
    exact run_frondsHeld hset hf

end Sys2Proof.Machine

namespace Sys2Proof.Proofs.StartUp
open Sys2Proof Sys2Proof.Machine

/-! ### The PLL and the stopped clocks (R493, R495) -/

section
variable {h : Hw}

theorem pllLock_true (hp : h.porN = true) (hlock : h.rb CLK_STAT CLK_STAT_PLLLOCK = false) :
    pllLock true h = { h.sb CLK_STAT CLK_STAT_PLLLOCK with clkStop := h.pllLost, pllAt := h.tb.toNat } := by simp [pllLock, hp, hlock]

theorem pllLock_late (hp : h.porN = true) (hlock : h.rb CLK_STAT CLK_STAT_PLLLOCK = false) (hstep : h.bootStep = 1) (hlate : 10000 ≤ h.tb.toNat) :
    pllLock false h = bootFail h 0x11 := by simp [pllLock, hp, hlock, hstep, hlate]

theorem pllLossOfLock_locked (hp : h.porN = true) (hlock : h.rb CLK_STAT CLK_STAT_PLLLOCK = true) :
    pllLossOfLock h = { (h.sb CLK_STAT CLK_STAT_LOL).wf CLK_STAT CLK_STAT_PLLLOCK 0 with clkStop := true, pllLost := true } := by simp [pllLossOfLock, hp, hlock]

theorem clockRestart_due (hp : h.porN = true) (hstop : h.clkStop = true) (hlost : h.pllLost = true) (hlock : h.rb CLK_STAT CLK_STAT_PLLLOCK = true)
    (hlate : 1000 ≤ (h.tb - BitVec.ofNat 64 h.pllAt).toNat) : clockRestart h = { h with clkStop := false, pllLost := false } := by
  have hdue : clockDue h = true := by simp only [clockDue, hp, hstop, hlost, hlock, decide_eq_true hlate, Bool.and_self]
  rw [clockRestart, if_pos hdue]

end

/-- Settles O18: each command of the PLL writes CLK_STAT and the state of the clocks; the missing lock ends the start. -/
theorem pllAndTheStoppedClocks : Obligations.PllAndTheStoppedClocks := by
  unfold Obligations.PllAndTheStoppedClocks
  intro s h hp
  refine ⟨fun hlock => ?_, fun hlock hstep hlate hdown => ?_, fun hlock => ?_, fun hstop hlost hlock hlate => ?_⟩
  · refine (gives_iff_of_always rfl).mpr ?_
    rw [pllLock_true hp hlock]
    exact ⟨Hw.rb_sb_same _ _ rfl, rfl, rfl, rfl, rfl, rfl⟩
  · refine (gives_iff_of_always rfl).mpr ?_
    rw [pllLock_late hp hlock hstep hlate]
    have hfail := bootFail_of_down (code := 0x11) (by decide) hdown
    exact ⟨hfail.step, hfail.code, hfail.mem⟩
  · refine (gives_iff_of_always rfl).mpr ?_
    rw [pllLossOfLock_locked hp hlock]
    refine ⟨?_, ?_, rfl, rfl, rfl, rfl⟩
    · exact (Hw.rb_wf_apart _ _ rfl rfl _).trans (Hw.rb_sb_same _ _ rfl)
    · exact congrArg (· == 1) (Hw.rf_wf_same _ _ rfl _)
  · exact (gives_iff_of_always rfl).mpr (clockRestart_due hp hstop hlost hlock hlate)

end Sys2Proof.Proofs.StartUp
end

section
/-!
SUPPORT. The power states of a region (R498 to R506): what each transition writes in PWR_STAT and in the record of the region.
-/
namespace Sys2Proof.Machine

/-! ### The record of a region and its registers -/

section
variable (h : Hw) (r : Nat)

@[simp] theorem Hw.pw_setPw_same (x : PwrRgn) : (h.setPw r x).pw r = x := kvGet_kvIns_same _ _ _ _

theorem Hw.pw_setPw_other {q : Nat} (x : PwrRgn) (hne : q ≠ r) : (h.setPw r x).pw q = h.pw q := kvGet_kvIns_other _ _ _ hne

@[simp] theorem Hw.rd_setPw (x : PwrRgn) (a : Nat) : (h.setPw r x).rd a = h.rd a := rfl
@[simp] theorem Hw.rf_setPw (x : PwrRgn) (a : Nat) (f : Fld) : (h.setPw r x).rf a f = h.rf a f := rfl
@[simp] theorem Hw.rb_setPw (x : PwrRgn) (a : Nat) (f : Fld) : (h.setPw r x).rb a f = h.rb a f := rfl
@[simp] theorem Hw.pwrState_setPw (x : PwrRgn) (q : Nat) : (h.setPw r x).pwrState q = h.pwrState q := rfl

theorem Hw.rb_of_rf {a : Nat} {f : Fld} {n : Nat} (hf : h.rf a f = n) : h.rb a f = (n == 1) := congrArg (· == 1) hf

theorem Hw.rb_wf_zero (a : Nat) {f : Fld} (hf : fldInWord f = true) : (h.wf a f 0).rb a f = false := by
  rw [Hw.rb, h.rf_wf_same a hf, Nat.zero_mod]
  rfl

theorem pwrTo_state {st : Nat} (hst : st < 16) : (pwrTo h r st).pwrState r = st := (Hw.rf_wf_same _ _ rfl _).trans (Nat.mod_eq_of_lt hst)

/-- A field of PWR_STAT apart from STATE is left by a change of the state. -/
theorem rf_pwrTo_apart (st : Nat) {g : Fld} (hg : fldInWord g = true) (hapart : fldApart PWR_STAT_STATE g = true) :
    (pwrTo h r st).rf (PWR_STAT r) g = h.rf (PWR_STAT r) g := Hw.rf_wf_apart _ _ hg hapart _

end

/-- The registers of the power controller's other words. -/
theorem PWR_STAT_ne_others (r : Nat) : PWR_STAT r ≠ PWR_CTL r ∧ PWR_STAT r ≠ PWR_WLAST r ∧ PWR_STAT r ≠ PWR_TIME r := by
  unfold PWR_STAT PWR_CTL PWR_WLAST PWR_TIME
  omega

/-! ### Requests for SLEEP and OFF (R500) -/

section
variable {h : Hw} {r : Nat}

/-- A write of PWR_CTL keeps the power states, the records, and what makes a request wait. -/
theorem pwrCtl_keeps (hr : h.hasRegion r = true) (x : W32) :
    (h.wr (PWR_CTL r) x).pwrState r = h.pwrState r ∧ (h.wr (PWR_CTL r) x).inService r = h.inService r ∧
      pwrMustWait (h.wr (PWR_CTL r) x) r = pwrMustWait h r ∧ (h.wr (PWR_CTL r) x).rb SYS_LOCK SYS_LOCK_FATAL = h.rb SYS_LOCK SYS_LOCK_FATAL := by
  have hr4 : r < 4 := h.lt_four_of_hasRegion hr
  have hrgn : RGN_STAT r ≠ PWR_CTL r := by
    unfold RGN_STAT PWR_CTL
    omega
  have hlock : SYS_LOCK ≠ PWR_CTL r := by
    unfold SYS_LOCK PWR_CTL
    omega
  refine ⟨h.rf_wr_other _ _ (PWR_STAT_ne_others r).1, h.inService_wr_other _ (PWR_STAT_ne_others r).1, ?_, congrArg (· == 1) (h.rf_wr_other _ _ hlock)⟩
  rw [pwrMustWait, Hw.rgnState, h.rf_wr_other _ _ hrgn]
  rfl

/-- What an accepted request shows. -/
theorem pwrAccept_fields {tgt : Nat} (htgt : tgt < 4) :
    (pwrAccept h r tgt).pwrState r = psEnter ∧ (pwrAccept h r tgt).rf (PWR_STAT r) PWR_STAT_TGT = tgt ∧
      (pwrAccept h r tgt).pw r = { h.pw r with phase := 1, back := h.pwrState r, wait := none, since := h.tb } ∧
      (pwrAccept h r tgt).fronds = h.fronds ∧ (pwrAccept h r tgt).mem = h.mem := by
  refine ⟨?_, ?_, Hw.pw_setPw_same _ _ _, rfl, rfl⟩
  · exact (Hw.pwrState_wf_apart _ r r rfl _).trans (pwrTo_state h r (by decide))
  · exact (Hw.rf_wf_same _ _ rfl _).trans (Nat.mod_eq_of_lt htgt)

theorem pwrRequest_accepted {tgt : Nat} (hserv : h.inService r = true) (hwait : (h.pw r).wait = none) (hmust : pwrMustWait h r = false) :
    pwrRequest h r tgt = pwrAccept h r tgt := by simp [pwrRequest, hserv, hwait, hmust]

theorem pwrRequest_waits {tgt : Nat} (hserv : h.inService r = true) (hwait : (h.pw r).wait = none) (hmust : pwrMustWait h r = true) :
    pwrRequest h r tgt = h.setPw r { h.pw r with wait := some tgt } := by simp [pwrRequest, hserv, hwait, hmust]

theorem pwrRequest_refused {tgt : Nat} (hno : h.inService r = false ∨ (h.pw r).wait ≠ none) : pwrRequest h r tgt = h.sb (PWR_STAT r) PWR_STAT_REF := by
  have : (!h.inService r || (h.pw r).wait.isSome) = true := by
    rcases hno with hserv | hwait
    · rw [hserv]
      rfl
    · rw [Option.isSome_iff_ne_none.mpr hwait, Bool.or_true]
  rw [pwrRequest, if_pos this]

/-- What a refusal shows. -/
theorem sb_ref_fields : (h.sb (PWR_STAT r) PWR_STAT_REF).rb (PWR_STAT r) PWR_STAT_REF = true ∧ (h.sb (PWR_STAT r) PWR_STAT_REF).pwrState r = h.pwrState r :=
  ⟨Hw.rb_sb_same _ _ rfl, h.pwrState_wf_apart r r rfl _⟩

section
variable {w : Who} {v : W32} (hr : h.hasRegion r = true) (hmay : pwrMay w = true)
include hr hmay

/-- A write of PWR_CTL by a party that may: the register takes its plain fields, and CMD has its effect. -/
theorem pwrCtlWrite_eq : pwrCtlWrite h r w v =
    (let h1 := h.wr (PWR_CTL r) (v &&& 0x00FF0100)
     let c := fldGet PWR_CTL_CMD v
     if c = 1 then pwrRequest h1 r 1 else if c = 2 then pwrRequest h1 r 2 else if c = 3 then pwrWakeCmd h1 r else h1) := by
  simp only [pwrCtlWrite, hr, hmay, Bool.not_true, Bool.or_false, Bool.false_eq_true, if_false]

theorem pwrSleep_eq (hc : fldGet PWR_CTL_CMD v = 1) : pwrSleep w r v h = pwrRequest (h.wr (PWR_CTL r) (v &&& 0x00FF0100)) r 1 := by
  simp [pwrSleep, pwrCtlWrite_eq hr hmay, hc]

theorem pwrOff_eq (hc : fldGet PWR_CTL_CMD v = 2) : pwrOff w r v h = pwrRequest (h.wr (PWR_CTL r) (v &&& 0x00FF0100)) r 2 := by
  simp [pwrOff, pwrCtlWrite_eq hr hmay, hc]

theorem pwrWake_eq (hc : fldGet PWR_CTL_CMD v = 3) : pwrWake w r v h = pwrWakeCmd (h.wr (PWR_CTL r) (v &&& 0x00FF0100)) r := by
  simp [pwrWake, pwrCtlWrite_eq hr hmay, hc]

end

/-! ### WAKE as a command (R501, R505, R506) -/

theorem pwrWakeCmd_asleep (hasleep : h.pwrState r = psSleep ∨ h.pwrState r = psOff) (hfatal : h.rb SYS_LOCK SYS_LOCK_FATAL = false) :
    pwrWakeCmd h r = h.setPw r { h.pw r with wake := some 4 } := by
  have hne : h.pwrState r ≠ psEnter := by
    rcases hasleep with hs | hs <;> rw [hs] <;> decide
  simp only [pwrWakeCmd, wakeEvent, hasleep, hfatal, hne, Bool.false_eq_true, and_false, if_false, and_self, if_true, Hw.setPw, Hw.pw]

theorem pwrWakeCmd_fatal (hasleep : h.pwrState r = psSleep ∨ h.pwrState r = psOff) (hfatal : h.rb SYS_LOCK SYS_LOCK_FATAL = true) :
    pwrWakeCmd h r = h.sb (PWR_STAT r) PWR_STAT_REF := by rw [pwrWakeCmd, if_pos ⟨hasleep, hfatal⟩]

theorem pwrWakeCmd_entering (henter : h.pwrState r = psEnter) :
    pwrWakeCmd h r = ((((h.wf (PWR_STAT r) PWR_STAT_STATE psRun).wf (PWR_STAT r) PWR_STAT_TGT 0).sb (PWR_STAT r) PWR_STAT_SLPABT).setPw r { h.pw r with phase := 0 }) := by
  have hawake : ¬ ((h.pwrState r = psSleep ∨ h.pwrState r = psOff) ∧ h.rb SYS_LOCK SYS_LOCK_FATAL) := by
    rw [henter]
    rintro ⟨hs | hs, -⟩ <;> exact absurd hs (by decide)
  rw [pwrWakeCmd, if_neg hawake, wakeEvent, if_pos henter]
  rfl

/-! ### The entry (R500) -/

/-- With every link of the region DOWN the entry takes none down. -/
theorem enterBegin_of_down (hr : h.hasRegion r = true) (hdown : ∀ lk, lk < 128 → lk / 32 = r → h.lkState lk = lsDown) :
    enterBegin h r = h.setPw r { h.pw r with phase := 2, mark := h.tb } := by
  have hr4 : r < 4 := h.lt_four_of_hasRegion hr
  refine List.foldlRecOn (motive := fun g : Hw => g = h.setPw r { h.pw r with phase := 2, mark := h.tb }) _ _ rfl fun g hg lk hlk => ?_
  obtain ⟨hlt, hof⟩ := mem_linksOf.mp hlk
  have hstat : g.lkState lk = lsDown := by
    rw [hg]
    exact hdown lk (by omega) (by omega)
  rw [linkRequestDown, if_pos hstat, hg]

theorem enterConditionsMet_ready (hwait : (h.pw r).wait = none) (hstate : h.pwrState r = psEnter) (hphase : (h.pw r).phase = 1) (hready : enterReady h r = true) :
    enterConditionsMet r h = enterBegin h r := by simp [enterConditionsMet, hwait, hstate, hphase, hready]

theorem enterConditionsMet_unready (hwait : (h.pw r).wait = none) (hready : enterReady h r = false) : enterConditionsMet r h = h := by
  simp [enterConditionsMet, hwait, hready]

/-- A request that waited is accepted, and with a frond of the region running the drain does not begin yet. -/
theorem enterConditionsMet_waited {tgt : Nat} (hwait : (h.pw r).wait = some tgt) (hmust : pwrMustWait h r = false) (hserv : h.inService r = true)
    (hstill : frondsStill h r = false) : enterConditionsMet r h = pwrAccept h r tgt := by
  have hunready : enterReady (pwrAccept h r tgt) r = false := by
    have : frondsStill (pwrAccept h r tgt) r = false := hstill
    rw [enterReady, this, Bool.and_false]
  simp [enterConditionsMet, hwait, hmust, hserv, hunready]

/-- What a refused entry shows. -/
theorem enterRefuse_fields (hback : (h.pw r).back < 16) :
    (enterRefuse h r).pwrState r = (h.pw r).back ∧ (enterRefuse h r).rf (PWR_STAT r) PWR_STAT_TGT = 0 ∧ (enterRefuse h r).rb (PWR_STAT r) PWR_STAT_REF = true ∧
      (enterRefuse h r).pw r = { h.pw r with phase := 0 } ∧ (enterRefuse h r).mem = h.mem := by
  refine ⟨?_, ?_, Hw.rb_sb_same _ _ rfl, Hw.pw_setPw_same _ _ _, rfl⟩
  · exact (Hw.pwrState_wf_apart _ r r rfl _).trans ((Hw.pwrState_wf_apart _ r r rfl _).trans (pwrTo_state h r hback))
  · exact (Hw.rf_wf_apart _ _ rfl rfl _).trans (Hw.rf_wf_same _ _ rfl _)

/-- Without a queued invalidation the emptying of the caches tells no one. -/
theorem xltClear_eq (hinv : (h.xlt r).inv = []) : xltClear h r =
    forEach (List.range 8) (xltSync (h.setXlt r XltSt.empty) r) (fun h c =>
      if (h.chain (8 * r + c)).ubuf.isEmpty then h else h.setChain (8 * r + c) { h.chain (8 * r + c) with ubuf := [] }) := by
  rw [xltClear, hinv]
  rfl

/-- What the emptying of the caches of a region leaves. -/
theorem xltClear_fields (hr : h.hasRegion r = true) (hinv : (h.xlt r).inv = []) :
    (xltClear h r).xlt r = XltSt.empty ∧ (xltClear h r).pwr = h.pwr ∧ (xltClear h r).pwrState r = h.pwrState r ∧ (xltClear h r).fronds = h.fronds ∧
      (xltClear h r).mem = h.mem ∧ (xltClear h r).tb = h.tb := by
  have hr4 : r < 4 := h.lt_four_of_hasRegion hr
  rw [xltClear_eq hinv]
  refine List.foldlRecOn (motive := fun g : Hw => g.xlt r = XltSt.empty ∧ g.pwr = h.pwr ∧ g.pwrState r = h.pwrState r ∧ g.fronds = h.fronds ∧ g.mem = h.mem ∧ g.tb = h.tb)
    _ _ ?_ fun g hg c _ => ?_
  · have hne : PWR_STAT r ≠ XLT_STAT r := by
      unfold PWR_STAT XLT_STAT
      omega
    refine ⟨kvGet_kvIns_same _ _ _ _, rfl, ?_, rfl, rfl, rfl⟩
    exact (Hw.rf_wf_other _ _ _ _ hne).trans ((Hw.rf_wf_other _ _ _ _ hne).trans (Hw.rf_wf_other _ _ _ _ hne))
  · split
    · exact hg
    · exact hg

theorem enterDrain_idle (hphase : (h.pw r).phase ≠ 2) : enterDrain r h = h := by
  rw [enterDrain, if_neg]
  rintro ⟨-, h2, -⟩
  exact hphase h2

theorem enterTimeout_late (hlate : enterLate h r = true) : enterTimeout r h = enterRefuse h r := by rw [enterTimeout, if_pos hlate]

/-- Once the drain has begun, ENTER_TIMEOUT asks for the last answer. -/
theorem enterTimeout_draining (hphase : (h.pw r).phase = 2) : enterTimeout r h = enterDrain r h := by
  have hlate : enterLate h r = false := by simp [enterLate, hphase]
  rw [enterTimeout, hlate]
  rfl

theorem enterDrain_late (hstate : h.pwrState r = psEnter) (hphase : (h.pw r).phase = 2) (hdone : mDone h r = true) (hlate : 1000 < ticksSince h (h.pw r).mark) :
    enterDrain r h = enterRefuse h r := by rw [enterDrain, if_pos ⟨hstate, hphase, hdone⟩, if_pos hlate]

theorem enterDrain_inTime (hstate : h.pwrState r = psEnter) (hphase : (h.pw r).phase = 2) (hdone : mDone h r = true) (htime : ticksSince h (h.pw r).mark ≤ 1000) :
    enterDrain r h = (xltClear h r).setPw r { (xltClear h r).pw r with phase := 3, mark := h.tb } := by
  rw [enterDrain, if_pos ⟨hstate, hphase, hdone⟩, if_neg (by omega)]

end

/-! ### The commit (R62, R500) -/

section
variable {h : Hw} {r : Nat}

/-- The commit of an entry, once its arrays have been dealt with. -/
def committed (h g : Hw) (r st : Nat) : Hw :=
  let h3 := (((pwrTo g r st).wf (PWR_STAT r) PWR_STAT_TGT 0).wf (PWR_STAT r) PWR_STAT_PREQ 0).sb (PWR_STAT r) PWR_STAT_SDONE
  (h3.wf (PWR_TIME r) PWR_TIME_ENTER (ticksSince h (h.pw r).since)).setPw r { h3.pw r with phase := 0, wake := none }

theorem phase_of_commitDue (hdue : commitDue h r = true) : (h.pw r).phase = 3 := by
  simp only [commitDue, Bool.and_eq_true, beq_iff_eq] at hdue
  exact hdue.1.2

theorem sleepCommit_sleep (hdue : commitDue h r = true) (htgt : h.rf (PWR_STAT r) PWR_STAT_TGT = 1) : sleepCommit r h = committed h h r psSleep := by
  have hphase := phase_of_commitDue hdue
  rw [sleepCommit, enterDrain_idle (by omega)]
  simp only [hdue, if_true, htgt, show ¬ (1 : Nat) = 2 by decide, if_false]
  rfl

theorem sleepCommit_off (hdue : commitDue h r = true) (htgt : h.rf (PWR_STAT r) PWR_STAT_TGT = 2) : sleepCommit r h = committed h (arraysOff h r) r psOff := by
  have hphase := phase_of_commitDue hdue
  rw [sleepCommit, enterDrain_idle (by omega)]
  simp only [hdue, if_true, htgt]
  rfl

/-- What a committed entry shows. -/
theorem committed_fields (h g : Hw) (r : Nat) {st : Nat} (hst : st < 16) :
    (committed h g r st).pwrState r = st ∧ (committed h g r st).rf (PWR_STAT r) PWR_STAT_TGT = 0 ∧ (committed h g r st).rb (PWR_STAT r) PWR_STAT_PREQ = false ∧
      (committed h g r st).rb (PWR_STAT r) PWR_STAT_SDONE = true ∧ ((committed h g r st).pw r).phase = 0 := by
  have htime : PWR_STAT r ≠ PWR_TIME r := (PWR_STAT_ne_others r).2.2
  have hstat : (committed h g r st).rd (PWR_STAT r) =
      ((((pwrTo g r st).wf (PWR_STAT r) PWR_STAT_TGT 0).wf (PWR_STAT r) PWR_STAT_PREQ 0).sb (PWR_STAT r) PWR_STAT_SDONE).rd (PWR_STAT r) := Hw.rd_wf_other _ _ _ htime
  have hfld : ∀ f, (committed h g r st).rf (PWR_STAT r) f = _ := fun f => congrArg (fldGet f) hstat
  refine ⟨(hfld _).trans ?_, (hfld _).trans ?_, (congrArg (· == 1) (hfld _)).trans ?_, (congrArg (· == 1) (hfld _)).trans (Hw.rb_sb_same _ _ rfl), ?_⟩
  · exact (Hw.pwrState_wf_apart _ r r rfl _).trans ((Hw.pwrState_wf_apart _ r r rfl _).trans ((Hw.pwrState_wf_apart _ r r rfl _).trans (pwrTo_state g r hst)))
  · exact (Hw.rf_wf_apart _ _ rfl rfl _).trans ((Hw.rf_wf_apart _ _ rfl rfl _).trans (Hw.rf_wf_same _ _ rfl _))
  · exact (Hw.rb_wf_apart _ _ rfl rfl _).trans (Hw.rb_wf_zero _ _ rfl)
  · exact congrArg PwrRgn.phase (Hw.pw_setPw_same _ _ _)

/-! ### The arrays of a region that loses its supply (R62, R498) -/

theorem region_of_bankKeyOf (a : Nat) : bankKeyOf a / 2048 = memRegion a := by
  have hbank := memBank_lt a
  have hcush : b2n (decide (0x10000000 ≤ a)) ≤ 1 := by
    rw [b2n]
    split <;> omega
  rw [bankKeyOf, bankKey]
  omega

theorem isUndef_arraysOff (a : Nat) : isUndef (arraysOff h r) a = if memRegion a = r then false else isUndef h a := by
  have hword : memRegion (8 * (a / 8)) = memRegion a := memRegion_eq_of_word (by omega)
  have hlisted : (arraysOff h r).undefBank.contains (bankKeyOf a) = (h.undefBank.contains (bankKeyOf a) && memRegion a != r) := by
    change (h.undefBank.filter fun b => b / 2048 != r).contains (bankKeyOf a) = _
    rw [Bool.eq_iff_iff, Bool.and_eq_true, List.contains_iff_mem, List.contains_iff_mem, List.mem_filter, region_of_bankKeyOf]
  have hdefd : kvFind (arraysOff h r).defd (a / 8) = if memRegion a = r then none else kvFind h.defd (a / 8) := by
    refine (kvFind_kvKeep h.defd (fun k => !(memRegion (8 * k) == r)) (a / 8)).trans ?_
    simp only [hword, Bool.not_eq_true', beq_eq_false_iff_ne, ite_not]
  rw [isUndef, hlisted, hdefd]
  split
  next hr => simp [hr]
  next hr => simp only [bne_iff_ne.mpr hr, Bool.and_true, isUndef]

/-- Every byte of the region's mat and cushion reads 0, and no other has changed. -/
theorem byteAt_arraysOff (a : Nat) : (arraysOff h r).byteAt a = if memRegion a = r then 0 else h.byteAt a := by
  have hmem : memGet (arraysOff h r).mem a = if memRegion a = r then 0 else memGet h.mem a := by
    change (kvFind (kvKeep (fun a => !(memRegion a == r)) h.mem) a).getD 0 = _
    rw [kvFind_kvKeep]
    by_cases hr : memRegion a = r
    · simp [hr]
    · simp [hr, memGet, kvGet]
  rw [Hw.byteAt, isUndef_arraysOff, hmem]
  split
  · rfl
  · rfl

end

/-! ### Waking (R499, R503, R504) -/

section
variable {h : Hw} {r : Nat}

theorem wakeStart_eq {c : Nat} (hwake : (h.pw r).wake = some c) (hasleep : h.pwrState r = psSleep ∨ h.pwrState r = psOff)
    (hfatal : h.rb SYS_LOCK SYS_LOCK_FATAL = false) (hpack : h.rb (PWR_STAT r) PWR_STAT_PACK = false) : wakeStart r h = wakeBegin h r c := by
  simp only [wakeStart, hwake]
  rw [if_pos ⟨hasleep, hfatal, hpack⟩]

theorem wakeStart_held {c : Nat} (hwake : (h.pw r).wake = some c) (hheld : h.rb SYS_LOCK SYS_LOCK_FATAL = true ∨ h.rb (PWR_STAT r) PWR_STAT_PACK = true) :
    wakeStart r h = h := by
  simp only [wakeStart, hwake]
  refine if_neg ?_
  rintro ⟨-, hfatal, hpack⟩
  rcases hheld with hset | hset
  · exact absurd (hset.symm.trans hfatal) (by decide)
  · exact absurd (hset.symm.trans hpack) (by decide)

/-- What the beginning of a wake shows. -/
theorem wakeBegin_fields {c : Nat} (hc : c < 8) :
    (wakeBegin h r c).pwrState r = psWake ∧ (wakeBegin h r c).rb (PWR_STAT r) PWR_STAT_PREQ = true ∧ (wakeBegin h r c).rf (PWR_WLAST r) PWR_WLAST_CAUSE = c ∧
      (wakeBegin h r c).pw r = { h.pw r with since := h.tb, fromOff := h.pwrState r == psOff, acked := false, cleared := false, wake := none } := by
  have hlast : PWR_STAT r ≠ PWR_WLAST r := (PWR_STAT_ne_others r).2.1
  refine ⟨?_, ?_, (Hw.rf_wf_same _ _ rfl _).trans (Nat.mod_eq_of_lt hc), Hw.pw_setPw_same _ _ _⟩
  · refine (Hw.rf_wf_other _ _ _ _ hlast).trans ((Hw.rf_wf_other _ _ _ _ hlast).trans ?_)
    exact (Hw.pwrState_wf_apart _ r r rfl _).trans (pwrTo_state h r (by decide))
  · exact (Hw.rb_wf_other _ _ _ _ hlast).trans ((Hw.rb_wf_other _ _ _ _ hlast).trans (Hw.rb_sb_same _ _ rfl))

/-- pwr_ack as a wake sees it: PACK, ACKLATE where it comes late, and the tick of it. -/
theorem pwrAckSeen_wake (hreq : h.rb (PWR_STAT r) PWR_STAT_PREQ = true) (hpack : h.rb (PWR_STAT r) PWR_STAT_PACK = false) (hstate : h.pwrState r = psWake) :
    pwrAckSeen h r =
      (let g := if ticksSince h (h.pw r).since > 150 then (h.sb (PWR_STAT r) PWR_STAT_PACK).sb (PWR_STAT r) PWR_STAT_ACKLATE else h.sb (PWR_STAT r) PWR_STAT_PACK
       g.setPw r { h.pw r with acked := true, ackAt := h.tb }) := by
  have hpw : ∀ a : Bool, (if a then (h.sb (PWR_STAT r) PWR_STAT_PACK).sb (PWR_STAT r) PWR_STAT_ACKLATE else h.sb (PWR_STAT r) PWR_STAT_PACK).pw r = h.pw r := by
    intro a
    cases a <;> rfl
  simp only [pwrAckSeen, hreq, hpack, hstate, Bool.true_eq_false, Bool.false_eq_true, or_self, if_false, ne_eq, not_true_eq_false]
  split <;> rfl

/-- What an acknowledged wake shows. -/
theorem pwrAckSeen_fields (hreq : h.rb (PWR_STAT r) PWR_STAT_PREQ = true) (hpack : h.rb (PWR_STAT r) PWR_STAT_PACK = false) (hstate : h.pwrState r = psWake) :
    (pwrAckSeen h r).rb (PWR_STAT r) PWR_STAT_PACK = true ∧ (pwrAckSeen h r).pw r = { h.pw r with acked := true, ackAt := h.tb } ∧
      (∀ q, (pwrAckSeen h r).pwrState q = h.pwrState q) ∧
      (150 < ticksSince h (h.pw r).since → (pwrAckSeen h r).rb (PWR_STAT r) PWR_STAT_ACKLATE = true) ∧
      (∀ a, a ≠ PWR_STAT r → (pwrAckSeen h r).rd a = h.rd a) ∧ (pwrAckSeen h r).boot = h.boot ∧ (pwrAckSeen h r).fronds = h.fronds ∧
      (pwrAckSeen h r).mem = h.mem := by
  rw [pwrAckSeen_wake hreq hpack hstate]
  have hseen : (h.sb (PWR_STAT r) PWR_STAT_PACK).rb (PWR_STAT r) PWR_STAT_PACK = true := Hw.rb_sb_same _ _ rfl
  have hkept : ∀ q, (h.sb (PWR_STAT r) PWR_STAT_PACK).pwrState q = h.pwrState q := fun q => Hw.pwrState_wf_apart _ r q rfl _
  split
  · refine ⟨(Hw.rb_wf_apart _ _ rfl rfl _).trans hseen, Hw.pw_setPw_same _ _ _, fun q => (Hw.pwrState_wf_apart _ r q rfl _).trans (hkept q),
      fun _ => Hw.rb_sb_same _ _ rfl, fun a ha => (Hw.rd_wf_other _ _ _ ha).trans (Hw.rd_wf_other _ _ _ ha), rfl, rfl, rfl⟩
  next hlate => exact ⟨hseen, Hw.pw_setPw_same _ _ _, hkept, fun h150 => absurd h150 hlate, fun a ha => Hw.rd_wf_other _ _ _ ha, rfl, rfl, rfl⟩

/-- Outside step 2, or for a region that the start does not power, PWR_ACK_RISE does no more. -/
theorem pwrAckRise_eq (hr : h.hasRegion r = true) (hboot : (pwrAckSeen h r).bootStep ≠ 2 ∨ r ∉ (pwrAckSeen h r).boot.busy) : pwrAckRise r h = pwrAckSeen h r := by
  have hno : ¬ ((pwrAckSeen h r).bootStep = 2 ∧ (pwrAckSeen h r).boot.busy.contains r = true) := by
    rintro ⟨hstep, hbusy⟩
    rcases hboot with hne | hnot
    · exact hne hstep
    · exact hnot (List.contains_iff_mem.mp hbusy)
  simp only [pwrAckRise, hr, Bool.not_true, Bool.false_eq_true, if_false]
  rw [if_neg hno]

theorem wakeAckTimeout_eq (hlate : ackLate h r = true) (hbusy : r ∉ h.boot.busy) : wakeAckTimeout r h =
    ((pwrTo h r (if (h.pw r).fromOff then psOff else psSleep)).wf (PWR_STAT r) PWR_STAT_PREQ 0).sb (PWR_STAT r) PWR_STAT_HSTMO := by
  have hnot : (!h.boot.busy.contains r) = true := by simpa using hbusy
  rw [wakeAckTimeout, if_pos ⟨hlate, hnot⟩]

/-- What an abandoned wake shows. -/
theorem abandoned_fields {st : Nat} (hst : st < 16) (g : Hw) (hg : g = ((pwrTo h r st).wf (PWR_STAT r) PWR_STAT_PREQ 0).sb (PWR_STAT r) PWR_STAT_HSTMO) :
    g.pwrState r = st ∧ g.rb (PWR_STAT r) PWR_STAT_PREQ = false ∧ g.rb (PWR_STAT r) PWR_STAT_HSTMO = true := by
  subst hg
  refine ⟨?_, (Hw.rb_wf_apart _ _ rfl rfl _).trans (Hw.rb_wf_zero _ _ rfl), Hw.rb_sb_same _ _ rfl⟩
  exact (Hw.pwrState_wf_apart _ r r rfl _).trans ((Hw.pwrState_wf_apart _ r r rfl _).trans (pwrTo_state h r hst))

/-- The clear begins, and is not over yet (R503). -/
theorem powerupClearDone_begins (hstate : h.pwrState r = psWake) (hack : (h.pw r).acked = true) (hoff : (h.pw r).fromOff = true) (hclear : (h.pw r).cleared = false)
    (hmin : 200 ≤ ticksSince h (h.pw r).ackAt) (hmax : ticksSince h (h.pw r).ackAt < 6959) : powerupClearDone r h = pwrTo h r psPowerup := by
  have hbegin : clearBegin r h = pwrTo h r psPowerup := by
    rw [clearBegin, if_pos ⟨hstate, hack, hoff, by simp [hclear], hmin⟩]
  rw [powerupClearDone, hbegin]
  refine if_neg ?_
  rintro ⟨-, -, hover⟩
  exact absurd hmax (Nat.not_lt.mpr hover)

/-- The clear ends, and the wake goes on (R64, R503). -/
theorem powerupClearDone_ends (hstate : h.pwrState r = psPowerup) (hack : (h.pw r).acked = true) (hmin : 6959 ≤ ticksSince h (h.pw r).ackAt) :
    powerupClearDone r h = (pwrTo h r psWake).setPw r { h.pw r with cleared := true } := by
  have hbegin : clearBegin r h = h := by
    refine if_neg ?_
    rintro ⟨hwake, -⟩
    exact absurd (hstate.symm.trans hwake) (by decide)
  rw [powerupClearDone, hbegin]
  exact if_pos ⟨hstate, hack, hmin⟩

/-- Without a request held for the region none is released. -/
theorem heldRelease_none (hheld : (h.pw r).held = []) : heldRelease h r = h ∨ heldRelease h r = h.setPw r { h.pw r with held := [] } := by
  unfold heldRelease
  split
  · exact .inl rfl
  · rw [hheld]
    exact .inr rfl

theorem bootStep3_other (hstep : h.bootStep ≠ 3) : bootStep3 h = h := if_neg fun hall => hstep hall.1

/-- What the end of a wake shows. -/
theorem wakeDone_fields : (wakeDone h r).pwrState r = psRun ∧ (wakeDone h r).rb (PWR_STAT r) PWR_STAT_WDONE = true ∧
    (wakeDone h r).rf (PWR_TIME r) PWR_TIME_WAKE = min 65535 (h.tb - (h.pw r).since).toNat ∧
    (wakeDone h r).pw r = { h.pw r with acked := false, fromOff := false, cleared := false } := by
  have htime : PWR_STAT r ≠ PWR_TIME r := (PWR_STAT_ne_others r).2.2
  refine ⟨?_, (Hw.rb_wf_other _ _ _ _ htime).trans (Hw.rb_sb_same _ _ rfl), (Hw.rf_wf_same _ _ rfl _).trans (Nat.mod_eq_of_lt ?_), Hw.pw_setPw_same _ _ _⟩
  · exact (Hw.rf_wf_other _ _ _ _ htime).trans ((Hw.pwrState_wf_apart _ r r rfl _).trans (pwrTo_state h r (by decide)))
  · exact Nat.lt_of_le_of_lt (Nat.min_le_left _ _) (by decide)

/-- A wake that ends outside step 3, with no request held: the region's own part, and the lists of what waited are shorter. -/
theorem wakeComplete_fields (hready : wakeReady h r = true) (hheld : (h.pw r).held = []) (hstep : h.bootStep ≠ 3) :
    ∃ x b, (wakeComplete r h) = { wakeDone h r with pwr := x, boot := b } ∧ (kvGet PwrRgn.zero x r).acked = false := by
  let g : Hw := { wakeDone h r with boot := { (wakeDone h r).boot with busy := (wakeDone h r).boot.busy.filter (· != r) } }
  have hpw : g.pw r = { h.pw r with acked := false, fromOff := false, cleared := false } := wakeDone_fields.2.2.2
  have hgheld : (g.pw r).held = [] := by
    rw [hpw]
    exact hheld
  have hne : BOOT_STAT ≠ PWR_STAT r ∧ BOOT_STAT ≠ PWR_TIME r := by
    unfold BOOT_STAT PWR_STAT PWR_TIME
    omega
  have hgstep : g.bootStep = h.bootStep :=
    (Hw.rf_wf_other _ _ _ _ hne.2).trans ((Hw.rf_wf_other _ _ _ _ hne.1).trans (Hw.rf_wf_other _ _ _ _ hne.1))
  have heq : wakeComplete r h = bootStep3 (heldRelease g r) := by
    rw [wakeComplete, hready]
    rfl
  rw [heq]
  have hnone : ∀ g' : Hw, g'.bootStep = h.bootStep → bootStep3 g' = g' := fun g' hg' => bootStep3_other fun h3 => hstep (hg'.symm.trans h3)
  rcases heldRelease_none hgheld with hsame | hsame <;> rw [hsame]
  · rw [hnone g hgstep]
    exact ⟨g.pwr, g.boot, rfl, congrArg PwrRgn.acked hpw⟩
  · rw [hnone (g.setPw r _) hgstep]
    refine ⟨_, g.boot, rfl, ?_⟩
    refine (congrArg PwrRgn.acked (Hw.pw_setPw_same g r _)).trans ?_
    exact congrArg PwrRgn.acked hpw

/-! ### Automatic idle and the sensors (R502, R527) -/

theorem idleEntry_eq (hmay : mayIdle h r = true) (hdelay : idleDelay h r = true) : idleEntry r h = (pwrTo h r psIdle).setPw r { h.pw r with still := 0 } := by
  simp [idleEntry, hmay, hdelay, pwrTo, Hw.wf, Hw.wr, Hw.pw]

theorem idleEntry_none (hno : mayIdle h r = false ∨ idleDelay h r = false) : idleEntry r h = h := by
  rcases hno with hno | hno <;> simp [idleEntry, hno]

/-- The sample is shown, and TMAX keeps the highest temperature. -/
theorem sensorSample_fields (hr : h.hasRegion r = true) (v : W32) :
    (sensorSample r v h).rd (WR_SENS r) = v ∧
      (sensorSample r v h).rf (WR_TMAX r) WR_TMAX_TMAX = max (h.rf (WR_TMAX r) WR_TMAX_TMAX) (fldGet WR_SENS_TEMP v) ∧
      (sensorSample r v h).fronds = h.fronds ∧ (sensorSample r v h).mem = h.mem := by
  have hr4 : r < 4 := h.lt_four_of_hasRegion hr
  have hne : WR_SENS r ≠ WR_TMAX r ∧ WR_TMAX r ≠ WR_SENS r := by
    unfold WR_SENS WR_TMAX
    omega
  have hmax : (h.wr (WR_SENS r) v).rf (WR_TMAX r) WR_TMAX_TMAX = h.rf (WR_TMAX r) WR_TMAX_TMAX := Hw.rf_wr_other _ _ _ hne.2
  have htemp : fldGet WR_SENS_TEMP v < 2 ^ 12 := Nat.mod_lt _ (by decide)
  have heq : sensorSample r v h =
      if fldGet WR_SENS_TEMP v > h.rf (WR_TMAX r) WR_TMAX_TMAX then (h.wr (WR_SENS r) v).wf (WR_TMAX r) WR_TMAX_TMAX (fldGet WR_SENS_TEMP v)
      else h.wr (WR_SENS r) v := by
    rw [sensorSample, if_neg (by omega), if_pos hr]
  rw [heq]
  split
  · refine ⟨(Hw.rd_wf_other _ _ _ hne.1).trans (Hw.rd_wr_same _ _ _), ?_, rfl, rfl⟩
    rw [Hw.rf_wf_same _ _ rfl, Nat.mod_eq_of_lt (b := 2 ^ WR_TMAX_TMAX.w) htemp]
    omega
  · refine ⟨Hw.rd_wr_same _ _ _, ?_, rfl, rfl⟩
    rw [hmax]
    omega

end

end Sys2Proof.Machine

namespace Sys2Proof.Proofs.Power
open Sys2Proof Sys2Proof.Machine

/-- The command of a write of PWR_CTL is a request for its target (R500). -/
theorem gives_pwrRequest {s : State} {w : Who} {r cmd : Nat} {v : W32} {P : Hw → Prop} (hr : s.hw.hasRegion r = true) (hmay : pwrMay w = true)
    (hg : regGrant s.hw w (PWR_CTL r) true = true) (hcmd : fldGet PWR_CTL_CMD v = cmd)
    (hP : cmd < 4 → P (pwrRequest (s.hw.wr (PWR_CTL r) (v &&& 0x00FF0100)) r cmd)) :
    (cmd = 1 → Gives (.pwrSleep w r v) s P) ∧ (cmd = 2 → Gives (.pwrOff w r v) s P) := by
  refine ⟨fun hone => ?_, fun htwo => ?_⟩
  · subst hone
    refine (gives_iff_of_onWrite rfl hg).mpr ?_
    rw [pwrSleep_eq hr hmay hcmd]
    exact hP (by decide)
  · subst htwo
    refine (gives_iff_of_onWrite rfl hg).mpr ?_
    rw [pwrOff_eq hr hmay hcmd]
    exact hP (by decide)

/-- Settles O53: each command of an entry is one transition of the region's record, by the lemma of its case. -/
theorem regionsGoToSleep : Obligations.RegionsGoToSleep := by
  unfold Obligations.RegionsGoToSleep
  intro s r hr h p slept
  refine ⟨fun w v hg hmay => ⟨?_, fun hcmd hasleep => ?_, fun hcmd henter => ?_⟩, fun hc => ?_, ?_, fun hc hdue => ?_, fun hp hreq => ?_⟩
  · intro cmd hcmd enters waits refused
    obtain ⟨hstate, hserv, hmust, -⟩ := pwrCtl_keeps hr (v &&& 0x00FF0100)
    refine ⟨fun hs hw hm => gives_pwrRequest hr hmay hg hcmd fun hlt => ?_, fun hs hw hm => gives_pwrRequest hr hmay hg hcmd fun _ => ?_,
      fun hno => gives_pwrRequest hr hmay hg hcmd fun _ => ?_⟩
    · rw [pwrRequest_accepted (hserv.trans hs) hw (hmust.trans hm)]
      obtain ⟨hst, htgt, hpw, hfronds, hmem⟩ := pwrAccept_fields (h := h.wr (PWR_CTL r) (v &&& 0x00FF0100)) (r := r) hlt
      rw [hstate] at hpw
      exact ⟨hst, htgt, hpw, hfronds, hmem⟩
    · rw [pwrRequest_waits (hserv.trans hs) hw (hmust.trans hm)]
      exact ⟨hstate, Hw.pw_setPw_same _ _ _, rfl, rfl⟩
    · rw [pwrRequest_refused (hno.imp_left hserv.trans)]
      exact ⟨sb_ref_fields.1, sb_ref_fields.2.trans hstate, rfl, rfl⟩
  · obtain ⟨hstate, -, -, hlock⟩ := pwrCtl_keeps hr (v &&& 0x00FF0100)
    rw [← hstate] at hasleep
    constructor <;> intro hfatal <;> refine (gives_iff_of_onWrite rfl hg).mpr ?_ <;> rw [pwrWake_eq hr hmay hcmd]
    · rw [pwrWakeCmd_asleep hasleep (hlock.trans hfatal)]
      exact ⟨Hw.pw_setPw_same _ _ _, hstate, rfl⟩
    · rw [pwrWakeCmd_fatal hasleep (hlock.trans hfatal)]
      exact ⟨sb_ref_fields.1, rfl, rfl⟩
  · obtain ⟨hstate, -, -, -⟩ := pwrCtl_keeps hr (v &&& 0x00FF0100)
    refine (gives_iff_of_onWrite rfl hg).mpr ?_
    rw [pwrWake_eq hr hmay hcmd, pwrWakeCmd_entering (hstate.trans henter)]
    refine ⟨?_, Hw.rb_sb_same _ _ rfl, congrArg PwrRgn.phase (Hw.pw_setPw_same _ _ _), rfl⟩
    exact (Hw.pwrState_wf_apart _ r r rfl _).trans ((Hw.pwrState_wf_apart _ r r rfl _).trans (pwrTo_state _ r (st := psRun) (by decide)))
  · refine ⟨fun hwait hstate hphase => ⟨fun hready hdown => ?_, fun hready => ?_⟩, fun tgt hwait htgt hmust hserv hstill => ?_⟩
    · refine (gives_iff_of_onClock rfl hc).mpr ?_
      rw [enterConditionsMet_ready hwait hstate hphase hready, enterBegin_of_down hr hdown]
    · exact (gives_iff_of_onClock rfl hc).mpr (enterConditionsMet_unready hwait hready)
    · refine (gives_iff_of_onClock rfl hc).mpr ?_
      rw [enterConditionsMet_waited hwait hmust hserv hstill]
      obtain ⟨hst, htgt, hpw, -, hmem⟩ := pwrAccept_fields (h := h) (r := r) htgt
      rw [hpw]
      exact ⟨hst, htgt, rfl, rfl, hmem⟩
  · intro hp hstate refused
    have hback : ∀ {n : Nat}, n = psRun ∨ n = psIdle → n < 16 := by
      rintro n (hn | hn) <;> rw [hn] <;> decide
    refine ⟨fun hb hlate => ?_, fun hb hphase hdone hlate => ?_, fun hphase hdone htime hinv => ?_⟩ <;> refine (gives_iff_of_onIsland rfl hp).mpr ?_
    · rw [enterTimeout_late hlate]
      exact enterRefuse_fields (hback hb)
    · rw [enterTimeout_draining hphase, enterDrain_late hstate hphase hdone hlate]
      exact enterRefuse_fields (hback hb)
    · rw [enterTimeout_draining hphase, enterDrain_inTime hstate hphase hdone htime]
      obtain ⟨hxlt, hpwr, hst, hfronds, hmem, -⟩ := xltClear_fields hr hinv
      generalize xltClear h r = g at hxlt hpwr hst hfronds hmem ⊢
      refine ⟨hst.trans hstate, ?_, hxlt, hfronds, hmem⟩
      rw [Hw.pw_setPw_same, Hw.pw, hpwr]
      rfl
  · refine ⟨fun htgt => ?_, fun htgt => ?_⟩ <;> refine (gives_iff_of_onClock rfl hc).mpr ?_
    · rw [sleepCommit_sleep hdue htgt]
      obtain ⟨hst, ht0, hreq, hsdone, hphase⟩ := committed_fields h h r (st := psSleep) (by decide)
      exact ⟨⟨hst, ht0, hreq, hsdone, rfl, rfl, hphase⟩, rfl⟩
    · rw [sleepCommit_off hdue htgt]
      obtain ⟨hst, ht0, hreq, hsdone, hphase⟩ := committed_fields h (arraysOff h r) r (st := psOff) (by decide)
      exact ⟨⟨hst, ht0, hreq, hsdone, rfl, rfl, hphase⟩, fun a _ => byteAt_arraysOff a⟩
  · refine (gives_iff_of_onIsland rfl hp).mpr ?_
    rw [pwrAckFall, if_pos (by simp [hr, hreq, h])]

/-- Settles O54: each command of a wake and of automatic idle is one transition, by the lemma of its case. -/
theorem regionsWakeAndIdle : Obligations.RegionsWakeAndIdle := by
  unfold Obligations.RegionsWakeAndIdle
  intro s r hr h p still asleep
  refine ⟨fun hp => ⟨fun c hwake hc hasleep => ⟨fun hfatal hpack => ?_, fun hheld => ?_⟩, fun hstate hreq hpack hbusy => ⟨?_, fun hlate => ?_⟩, fun v => ?_⟩, fun hc => ⟨?_, ?_, ?_, ?_, ?_, ?_⟩⟩
  · refine (gives_iff_of_onIsland rfl hp).mpr ?_
    rw [wakeStart_eq hwake hasleep hfatal hpack]
    obtain ⟨hst, hreq, hcause, hpw⟩ := wakeBegin_fields (h := h) (r := r) hc
    exact ⟨hst, hreq, hcause, hpw, rfl, rfl⟩
  · exact (gives_iff_of_onIsland rfl hp).mpr (wakeStart_held hwake hheld)
  · refine (gives_iff_of_onIsland rfl hp).mpr ?_
    obtain ⟨hseen, hpw, hst, hlate, -, hboot, hfronds, hmem⟩ := pwrAckSeen_fields hreq hpack hstate
    rw [pwrAckRise_eq hr (.inr (by rwa [hboot]))]
    refine ⟨hseen, hpw, (hst r).trans hstate, fun h150 => hlate ?_, hfronds, hmem⟩
    exact Nat.lt_min.mpr ⟨by decide, h150⟩
  · refine (gives_iff_of_onIsland rfl hp).mpr ?_
    rw [wakeAckTimeout_eq hlate hbusy]
    obtain ⟨hst, hlow, htmo⟩ := abandoned_fields (st := if (h.pw r).fromOff then psOff else psSleep) (by split <;> decide) _ rfl
    exact ⟨hst, hlow, htmo, rfl, rfl, rfl⟩
  · exact (gives_iff_of_onIsland rfl hp).mpr (sensorSample_fields hr v)
  · intro hstate hack hoff hclear hmin hmax
    refine (gives_iff_of_onClock rfl hc).mpr ?_
    rw [powerupClearDone_begins hstate hack hoff hclear hmin hmax]
    exact ⟨pwrTo_state h r (by decide), rfl, rfl, rfl⟩
  · intro hstate hack hmin
    refine (gives_iff_of_onClock rfl hc).mpr ?_
    rw [powerupClearDone_ends hstate hack hmin]
    exact ⟨pwrTo_state h r (by decide), Hw.pw_setPw_same _ _ _, rfl, rfl⟩
  · intro hready hheld hstep
    refine (gives_iff_of_onClock rfl hc).mpr ?_
    obtain ⟨x, b, heq, hacked⟩ := wakeComplete_fields hready hheld hstep
    obtain ⟨hst, hdone, htime, -⟩ := wakeDone_fields (h := h) (r := r)
    rw [heq]
    exact ⟨hst, hdone, htime, hacked, rfl, rfl⟩
  · intro hmay hdelay
    refine (gives_iff_of_onClock rfl hc).mpr ?_
    rw [idleEntry_eq hmay hdelay]
    exact ⟨pwrTo_state h r (by decide), Hw.pw_setPw_same _ _ _, rfl, rfl⟩
  · exact fun hno => (gives_iff_of_onClock rfl hc).mpr (idleEntry_none hno)
  · intro hidle
    refine (gives_iff_of_onClock rfl hc).mpr ?_
    rw [idleExit, if_pos hr, Hw.idleLeave, if_pos hidle]
    exact ⟨pwrTo_state h r (st := psRun) (by decide), rfl, rfl, rfl⟩

end Sys2Proof.Proofs.Power
end

section
/-!
SUPPORT. The loader (R434 to R445): its slots, the image it accepts, the start-up march, and the powering of regions with which step 3 begins.
-/
namespace Sys2Proof.Machine

/-! ### Slots (R435, R447) -/

section
variable {h : Hw} {code : Nat}

/-- A fault in slot A leaves its code in CODEA and goes to slot B. -/
theorem slotFail_first (hslot : h.rf BOOT_STAT BOOT_STAT_SLOT = 0) : slotFail h code = (h.wf BOOT_STAT BOOT_STAT_CODEA code).wf BOOT_STAT BOOT_STAT_SLOT 1 := if_pos hslot

theorem slotFail_first_fields (hcode : code < 256) (hslot : h.rf BOOT_STAT BOOT_STAT_SLOT = 0) (hstep : h.bootStep = 1) :
    (slotFail h code).rf BOOT_STAT BOOT_STAT_CODEA = code ∧ (slotFail h code).rf BOOT_STAT BOOT_STAT_SLOT = 1 ∧ (slotFail h code).bootStep = 1 ∧
      (slotFail h code).mem = h.mem ∧ (slotFail h code).fronds = h.fronds ∧ (slotFail h code).boot = h.boot := by
  rw [slotFail_first hslot]
  refine ⟨?_, Hw.rf_wf_same _ _ rfl _, ?_, rfl, rfl, rfl⟩
  · exact (Hw.rf_wf_apart _ _ rfl rfl _).trans ((Hw.rf_wf_same _ _ rfl _).trans (Nat.mod_eq_of_lt hcode))
  · exact (Hw.rf_wf_apart _ _ rfl rfl _).trans ((Hw.rf_wf_apart _ _ rfl rfl _).trans hstep)

/-- A fault in slot B ends the start. -/
theorem slotFail_second (hcode : code < 256) (hslot : h.rf BOOT_STAT BOOT_STAT_SLOT = 1) (hdown : ∀ lk, lk < 128 → h.lkState lk = lsDown) :
    StartFailed code (keysNone h) (slotFail h code) := by
  have hne : h.rf BOOT_STAT BOOT_STAT_SLOT ≠ 0 := by
    rw [hslot]
    decide
  rw [slotFail, if_neg hne]
  refine bootFail_of_down hcode fun lk hlk => ?_
  have hboot : LK_STAT lk ≠ BOOT_STAT := (LK_STAT_plain hlk).2.2
  have hdbg : LK_STAT lk ≠ DBG_STAT := by
    unfold LK_STAT DBG_STAT
    omega
  exact (Hw.rf_wf_other _ _ _ _ hboot).trans ((Hw.rf_wf_other _ _ _ _ hboot).trans ((Hw.rf_wf_other _ _ _ _ hdbg).trans (hdown lk hlk)))

theorem flashCommandTimeout_step1 (hstep : h.bootStep = 1) : flashCommandTimeout h = slotFail h 0x12 := if_pos hstep

theorem flashCommandDone_eq (octal : Bool) (hstep : h.bootStep = 1) (hflash : h.boot.flash = 0) :
    flashCommandDone octal h = { h.wf BOOT_STAT BOOT_STAT_OCT (b2n octal) with boot := { h.boot with flash := if octal then 2 else 1 } } := if_pos ⟨hstep, hflash⟩

end

/-! ### Step 3 powers the regions that are not up (R442) -/

section
variable {h : Hw} {r : Nat}

theorem Hw.memServed_congr {g : Hw} (hpwr : g.pwrState r = h.pwrState r) (hcfg : g.cfg = h.cfg) : g.memServed r = h.memServed r := by
  rw [Hw.memServed, Hw.memServed, Hw.hasRegion, Hw.hasRegion, Hw.nRegions, Hw.nRegions, hpwr, hcfg]

theorem startPower_regsPwrOnly (h : Hw) (r : Nat) : RegsPwrOnly h (startPower h r) := by
  unfold startPower
  split <;> rfl

/-- The powering of a region writes registers of the power controller alone. -/
theorem rd_startPower {a : Nat} (ha : a / 0x100000 ≠ 0x219) (hr : r < 4) : (startPower h r).rd a = h.rd a := by
  have hne : a ≠ PWR_STAT r ∧ a ≠ PWR_WLAST r := by
    unfold PWR_STAT PWR_WLAST
    omega
  unfold startPower
  split
  · exact (Hw.rd_wf_other _ _ _ hne.2).trans ((Hw.rd_wf_other _ _ _ hne.2).trans ((Hw.rd_wf_other _ _ _ hne.1).trans (Hw.rd_wf_other _ _ _ hne.1)))
  · rfl

/-- Step 3 as it begins, before any region is powered. -/
def step3Begun (h : Hw) : Hw := { bootTo h 3 with boot := { h.boot with busy := notUp h h.regionList } }

/-- While a region is not up, step 3 powers what is not up and waits. -/
structure PowersUp (h h' : Hw) : Prop where
  step : h'.bootStep = 3
  only : RegsPwrOnly (step3Begun h) h'
  rd : ∀ a, a ≠ BOOT_STAT → a / 0x100000 ≠ 0x219 → h'.rd a = h.rd a

theorem bootBegin3_waits (hr : h.hasRegion r = true) (hdown : h.memServed r = false) : PowersUp h (bootBegin3 h) := by
  let g := (notUp h h.regionList).foldl startPower (step3Begun h)
  have hmem : r ∈ notUp h h.regionList := by
    rw [notUp, List.mem_filter, hdown]
    exact ⟨List.mem_range.mpr (of_decide_eq_true hr), rfl⟩
  have honly : RegsPwrOnly (step3Begun h) g :=
    List.foldlRecOn (motive := RegsPwrOnly (step3Begun h)) _ _ (.refl _) fun g' hg' q _ => hg'.trans (startPower_regsPwrOnly g' q)
  have hrd : ∀ a, a / 0x100000 ≠ 0x219 → g.rd a = (step3Begun h).rd a := fun a ha =>
    List.foldlRecOn (motive := fun g' : Hw => g'.rd a = (step3Begun h).rd a) _ _ rfl fun g' hg' q hq =>
      (rd_startPower ha (h.lt_four_of_hasRegion (decide_eq_true (List.mem_range.mp (List.mem_of_mem_filter hq))))).trans hg'
  have hbusy : g.boot.busy ≠ [] := by
    rw [honly]
    exact List.ne_nil_of_mem hmem
  have heq : bootBegin3 h = g := if_neg fun hall => hbusy hall.2.1
  rw [heq]
  refine ⟨?_, honly, fun a hboot ha => (hrd a ha).trans (Hw.rd_wf_other _ _ _ hboot)⟩
  exact (congrArg (fldGet BOOT_STAT_STEP) (hrd BOOT_STAT (by decide))).trans (Hw.rf_wf_same _ _ rfl _)

end

/-! ### The image is judged and accepted (R442) -/

section
variable {h : Hw} {img : List Byte}

theorem imageFirstReadDone_fault {code : Nat} (hstep : h.bootStep = 1) (hflash : h.boot.flash ≠ 0) (hlock : h.rb CLK_STAT CLK_STAT_PLLLOCK = true)
    (hfault : imgFault h img = some code) : imageFirstReadDone img h = slotFail h code := by
  simp only [imageFirstReadDone, hstep, hflash, hlock, hfault, ne_eq, not_true_eq_false, Bool.true_eq_false, or_self, if_false]

theorem imageFirstReadDone_good (hstep : h.bootStep = 1) (hflash : h.boot.flash ≠ 0) (hlock : h.rb CLK_STAT CLK_STAT_PLLLOCK = true)
    (hfault : imgFault h img = none) : imageFirstReadDone img h = bootAfter1 (imgAccept h img) := by
  simp only [imageFirstReadDone, hstep, hflash, hlock, hfault, ne_eq, not_true_eq_false, Bool.true_eq_false, or_self, if_false]

/-- The repair map alone takes an entry of the image. -/
theorem repairFill_eq (h : Hw) (e : RepEnt) : ∃ m, repairFill h e = { h with rmap := m } := by
  unfold repairFill
  split
  · exact ⟨h.rmap, rfl⟩
  · split
    · exact ⟨_, rfl⟩
    · exact ⟨h.rmap, rfl⟩

theorem foldl_repairFill_eq (l : List RepEnt) (h : Hw) : ∃ m, l.foldl repairFill h = { h with rmap := m } := by
  induction l generalizing h with
  | nil => exact ⟨h.rmap, rfl⟩
  | cons e l ih =>
    obtain ⟨m, hm⟩ := repairFill_eq h e
    obtain ⟨m', hm'⟩ := ih { h with rmap := m }
    exact ⟨m', by rw [List.foldl_cons, hm, hm']⟩

/-- The registers that an accepted image writes. -/
def acceptRegs (h : Hw) (img : List Byte) : Hw :=
  let s := shadowOf img
  let h2 := ((h.wf BOOT_STAT BOOT_STAT_LCHK (b2n ((imgSect img 8).map (fun bs => imgBytes bs 0 97)).isSome)).wf BOOT_STAT BOOT_STAT_DBGK (b2n (imgSect img 9).isSome)).wf
    DBG_STAT DBG_STAT_KEYV (b2n (imgSect img 9).isSome)
  let h3 := ((h2.wr BOOT_IMG (BitVec.ofNat 32 (imgLE img 0x14 4))).wr BOOT_LIC_LO (BitVec.ofNat 32 (imgLE img 0x161 4))).wr BOOT_LIC_HI (BitVec.ofNat 32 (imgLE img 0x165 4))
  ((h3.wf BOOT_SHD BOOT_SHD_RECS s.recs.length).wf BOOT_SHD BOOT_SHD_CTXS s.ctxs.length).wf BOOT_SHD BOOT_SHD_LINKS s.lanes.length

/-- An accepted image writes registers, the repair map, the keys and the shadow. -/
theorem imgAccept_eq (h : Hw) (img : List Byte) : ∃ m, imgAccept h img = { acceptRegs h img with
    rmap := m
    lchKey := (imgSect img 8).map (fun bs => imgBytes bs 0 97)
    dbg := { h.dbg with key := imgSect img 9 }
    boot := { h.boot with shadow := some (shadowOf img) } } := by
  obtain ⟨m, hm⟩ := foldl_repairFill_eq (repEnts ((imgSect img 1).getD [])) h
  refine ⟨m, ?_⟩
  rw [imgAccept, hm]
  rfl

theorem rd_imgAccept {a : Nat} (ha : a / 0x100000 ≠ 0x20F ∧ a / 0x100000 ≠ 0x218) : (imgAccept h img).rd a = h.rd a := by
  have hne : a ≠ BOOT_STAT ∧ a ≠ DBG_STAT ∧ a ≠ BOOT_IMG ∧ a ≠ BOOT_LIC_LO ∧ a ≠ BOOT_LIC_HI ∧ a ≠ BOOT_SHD := by
    unfold BOOT_STAT DBG_STAT BOOT_IMG BOOT_LIC_LO BOOT_LIC_HI BOOT_SHD
    omega
  obtain ⟨hstat, hdbg, himg, hlo, hhi, hshd⟩ := hne
  obtain ⟨m, hm⟩ := imgAccept_eq h img
  rw [hm]
  change (acceptRegs h img).rd a = h.rd a
  unfold acceptRegs
  dsimp only
  rw [Hw.rd_wf_other _ _ _ hshd, Hw.rd_wf_other _ _ _ hshd, Hw.rd_wf_other _ _ _ hshd, Hw.rd_wr_other _ _ hhi, Hw.rd_wr_other _ _ hlo, Hw.rd_wr_other _ _ himg,
    Hw.rd_wf_other _ _ _ hdbg, Hw.rd_wf_other _ _ _ hstat, Hw.rd_wf_other _ _ _ hstat]

theorem rd_imgAccept_img : (imgAccept h img).rd BOOT_IMG = BitVec.ofNat 32 (imgLE img 0x14 4) := by
  obtain ⟨m, hm⟩ := imgAccept_eq h img
  rw [hm]
  change (acceptRegs h img).rd BOOT_IMG = _
  unfold acceptRegs
  dsimp only
  rw [Hw.rd_wf_other _ _ _ (by decide), Hw.rd_wf_other _ _ _ (by decide), Hw.rd_wf_other _ _ _ (by decide), Hw.rd_wr_other _ _ (by decide), Hw.rd_wr_other _ _ (by decide),
    Hw.rd_wr_same]

/-- An image without a march goes on to step 3. -/
theorem bootAfter1_noMarch (hmarch : (shadowOf img).march = false) : bootAfter1 (imgAccept h img) = bootBegin3 (imgAccept h img) := by
  have hnone : marchRegions (imgAccept h img) = [] := by
    obtain ⟨m, hm⟩ := imgAccept_eq h img
    rw [marchRegions, hm]
    simp only [hmarch, Bool.false_eq_true, if_false]
  exact if_pos hnone

theorem memServed_imgAccept (r : Nat) (hr : r < 4) : (imgAccept h img).memServed r = h.memServed r := by
  have hne : PWR_STAT r / 0x100000 ≠ 0x20F ∧ PWR_STAT r / 0x100000 ≠ 0x218 := by
    unfold PWR_STAT
    omega
  refine Hw.memServed_congr (congrArg (fldGet PWR_STAT_STATE) (rd_imgAccept hne)) ?_
  obtain ⟨m, hm⟩ := imgAccept_eq h img
  rw [hm]
  rfl

end

/-! ### The start-up march (R67, R444) -/

section
variable {h : Hw} {run : MarchRun} {r : Nat}

theorem rd_marchEnded {a : Nat} (ha : a ≠ MCH_STAT r) : (marchEnded h r run).rd a = h.rd a := by
  unfold marchEnded
  extract_lets m h3 h4 h5
  have hrd3 : h3.rd a = h.rd a := Hw.rd_wf_other _ _ _ ha
  have hrd4 : h4.rd a = h.rd a := by
    unfold h4
    split
    · exact (Hw.rd_wf_other _ _ _ ha).trans hrd3
    · exact hrd3
  have hrd5 : h5.rd a = h.rd a := by
    unfold h5
    split
    · exact hrd4
    · exact (Hw.rd_wf_other _ _ _ ha).trans hrd4
  exact (Hw.rd_wf_other _ _ _ ha).trans hrd5

theorem marchEnded_rest : (marchEnded h r run).cfg = h.cfg ∧ (marchEnded h r run).boot = h.boot := by
  unfold marchEnded
  extract_lets m h3 h4 h5
  have hrest4 : h4.cfg = h.cfg ∧ h4.boot = h.boot := by
    unfold h4
    split <;> exact ⟨rfl, rfl⟩
  have hrest5 : h5.cfg = h.cfg ∧ h5.boot = h.boot := by
    unfold h5
    split <;> exact hrest4
  exact hrest5

/-- A region whose start-up march is about to end without a failing row. -/
def marchReady (run : MarchRun) (h : Hw) (r : Nat) : Hw := (h.setMat r { h.mat r with march := some run }).wf (MCH_STAT r) MCH_STAT_GROUP 0

/-- A region as its start-up march leaves it. -/
def marchedClean (run : MarchRun) (h : Hw) (r : Nat) : Hw := marchEnded (marchLeave (marchReady run h r) r run 0 run.glast false) r run

/-- A march of groups without a failing row runs its clear pass over all of them, and the region runs. -/
theorem startMarch_clean (habort : run.abortReq = false) (hdes : run.destructive = true) (hrows : run.rows = []) (bad : Bool) :
    startMarch run [] (h, bad) r =
      (if (marchedClean run h r).pwrState r = psPowerup ∨ (marchedClean run h r).pwrState r = psWake then wakeDone (marchedClean run h r) r else marchedClean run h r,
        bad) := by
  have hrun : ((marchReady run h r).mat r).march = some run := congrArg MatRgn.march (Hw.mat_setMat_same _ r _)
  have hgroup : (marchReady run h r).rf (MCH_STAT r) MCH_STAT_GROUP = 0 := Hw.rf_wf_same _ _ rfl _
  have hend : marchRunEnd r [] [] (marchReady run h r) = marchedClean run h r := by
    rw [marchRunEnd_eq [] [] hrun habort]
    simp only [List.append_nil, List.foldl_nil, hdes, if_true, hgroup]
    rfl
  have hno : (bad || run.rows.any fun e => rowUnrepaired h r e.1) = bad := by rw [hrows, List.any_nil, Bool.or_false]
  change (let h2 := marchRunEnd r [] [] (marchReady run h r)
    ((if h2.pwrState r = psPowerup ∨ h2.pwrState r = psWake then wakeDone h2 r else h2), bad || run.rows.any fun e => rowUnrepaired h r e.1)) = _
  rw [hend, hno]

/-- The clear pass over the groups 0 to 16 zeroes the region and no other. -/
theorem memGet_marchedClean (hsingle : run.single = none) (hlast : run.glast = 16) (a : Nat) :
    memGet (marchedClean run h r).mem a = if memRegion a = r then 0 else memGet h.mem a := by
  have hgroup : memGroup a ≤ 16 := by
    have hbank := memBank_lt a
    unfold memGroup
    split <;> omega
  have hcovers : runCovers run r 0 16 a = (memRegion a == r) := by
    rw [Bool.eq_iff_iff, runCovers_groups hsingle, beq_iff_eq]
    exact ⟨fun hc => hc.1, fun hr => ⟨hr, Nat.zero_le _, hgroup⟩⟩
  obtain ⟨hmem, -, -⟩ := marchEnded_storeSame (marchLeave (marchReady run h r) r run 0 run.glast false) r run
  rw [marchedClean, hmem, hlast]
  change (kvFind (kvKeep (fun a => !runCovers run r 0 16 a) h.mem) a).getD 0 = _
  rw [kvFind_kvKeep, hcovers]
  by_cases hr : memRegion a = r
  · simp [hr]
  · simp [hr, memGet, kvGet]

/-- What the start-up march of a region leaves: the configuration, and the power state of the other regions. -/
theorem pwrState_marched {q : Nat} (hq : q < 4) (hr : r < 4) (hne : q ≠ r) (g : Hw)
    (hg : g = if (marchedClean run h r).pwrState r = psPowerup ∨ (marchedClean run h r).pwrState r = psWake then wakeDone (marchedClean run h r) r else marchedClean run h r) :
    g.pwrState q = h.pwrState q ∧ g.cfg = h.cfg ∧ g.mem = (marchedClean run h r).mem := by
  have hmch : PWR_STAT q ≠ MCH_STAT r := by
    unfold PWR_STAT MCH_STAT
    omega
  have hown : PWR_STAT q ≠ PWR_STAT r := fun hsame => hne (PWR_STAT_inj.mp hsame)
  have htime : PWR_STAT q ≠ PWR_TIME r := by
    unfold PWR_STAT PWR_TIME
    omega
  have hclean : (marchedClean run h r).pwrState q = h.pwrState q :=
    (congrArg (fldGet PWR_STAT_STATE) (rd_marchEnded hmch)).trans (Hw.rf_wf_other _ _ _ _ hmch)
  have hcfg : (marchedClean run h r).cfg = h.cfg := marchEnded_rest.1
  subst hg
  split
  · refine ⟨?_, hcfg, rfl⟩
    exact (Hw.rf_wf_other _ _ _ _ htime).trans ((Hw.rf_wf_other _ _ _ _ hown).trans ((Hw.rf_wf_other _ _ _ _ hown).trans hclean))
  · exact ⟨hclean, hcfg, rfl⟩

/-- What the start-up march of the regions l leaves. -/
structure RegionsMarched (l : List Nat) (h h' : Hw) : Prop where
  cfg : h'.cfg = h.cfg
  pwrState : ∀ q, q < 4 → q ∉ l → h'.pwrState q = h.pwrState q
  mem : ∀ a, memGet h'.mem a = if memRegion a ∈ l then 0 else memGet h.mem a

theorem foldl_startMarch_clean (habort : run.abortReq = false) (hdes : run.destructive = true) (hrows : run.rows = []) (hsingle : run.single = none)
    (hlast : run.glast = 16) {l : List Nat} (hl : ∀ q ∈ l, q < 4) (h : Hw) :
    (l.foldl (startMarch run []) (h, false)).2 = false ∧ RegionsMarched l h (l.foldl (startMarch run []) (h, false)).1 := by
  induction l generalizing h with
  | nil => exact ⟨rfl, rfl, fun _ _ _ => rfl, fun a => by simp⟩
  | cons r l ih =>
    have hr : r < 4 := hl r List.mem_cons_self
    rw [List.foldl_cons, startMarch_clean habort hdes hrows]
    generalize hg : (if (marchedClean run h r).pwrState r = psPowerup ∨ (marchedClean run h r).pwrState r = psWake then wakeDone (marchedClean run h r) r
      else marchedClean run h r) = g
    have hcfg : g.cfg = h.cfg ∧ g.mem = (marchedClean run h r).mem := by
      subst hg
      split <;> exact ⟨marchEnded_rest.1, rfl⟩
    obtain ⟨hbad, hkeep⟩ := ih (fun q hq => hl q (List.mem_cons_of_mem r hq)) g
    refine ⟨hbad, hkeep.cfg.trans hcfg.1, fun q hq hnot => ?_, fun a => ?_⟩
    · rw [List.mem_cons, not_or] at hnot
      exact (hkeep.pwrState q hq hnot.2).trans (pwrState_marched hq hr hnot.1 g hg.symm).1
    · rw [hkeep.mem, hcfg.2, memGet_marchedClean hsingle hlast]
      by_cases hlist : memRegion a ∈ l
      · simp [hlist]
      · simp [hlist]

/-- The march of the start-up, with no failing row, is followed by step 3. -/
theorem startupMarchDone_clean {sh : Shadow} (hshadow : h.boot.shadow = some sh) (hstep : h.bootStep = 2)
    (hpack : ∀ r, r ∈ marchRegions h → h.rb (PWR_STAT r) PWR_STAT_PACK = true) :
    ∃ g, startupMarchDone [] h = bootBegin3 g ∧ RegionsMarched (marchRegions h) h g := by
  have hl : ∀ q ∈ marchRegions h, q < 4 := by
    intro q hq
    unfold marchRegions at hq
    rw [hshadow] at hq
    dsimp only at hq
    split at hq
    · exact h.lt_four_of_hasRegion (decide_eq_true (List.mem_range.mp (List.mem_of_mem_filter hq)))
    · exact absurd hq List.not_mem_nil
  have hready : ¬ (h.bootStep ≠ 2 ∨ ((marchRegions h).any fun r => !h.rb (PWR_STAT r) PWR_STAT_PACK) = true) := by
    rintro (hne | hany)
    · exact hne hstep
    · obtain ⟨r, hr, hlow⟩ := List.any_eq_true.mp hany
      rw [hpack r hr] at hlow
      exact absurd hlow (by decide)
  obtain ⟨hbad, hmarched⟩ := foldl_startMarch_clean (run := ⟨true, sh.repair, 1, none, 0, 16, false, 0, h.tb.toNat, []⟩) rfl rfl rfl rfl rfl hl h
  refine ⟨_, ?_, hmarched⟩
  simp only [startupMarchDone, hshadow]
  rw [if_neg hready]
  simp only [hbad, Bool.false_and, Bool.false_eq_true, if_false]

end

/-! ### The second read (R442) -/

section
variable {h : Hw} {sh : Shadow} {p c : List Byte}

theorem imageSecondReadDone_differs (hshadow : h.boot.shadow = some sh) (hstep : h.bootStep = 3) (hread : h.boot.read2 = false)
    (hhas : sh.hasP = true) (hdig : Config.sha384 p ≠ sh.digP) : imageSecondReadDone p c h = bootFail h 0x32 := by
  have hdiff : (Config.sha384 p != sh.digP) = true := bne_iff_ne.mpr hdig
  simp only [imageSecondReadDone, hshadow, hstep, hread, hhas, hdiff, ne_eq, not_true_eq_false, Bool.false_eq_true, or_self, if_false, Bool.and_self, Bool.true_or, if_true]

/-- With the digests as they were, and a region still powering, the second read is complete and step 3 waits. -/
theorem imageSecondReadDone_agrees (hshadow : h.boot.shadow = some sh) (hstep : h.bootStep = 3) (hread : h.boot.read2 = false)
    (hp : sh.hasP = true → Config.sha384 p = sh.digP) (hc : sh.hasC = true → Config.sha384 c = sh.digC) (hbusy : h.boot.busy ≠ []) :
    imageSecondReadDone p c h = { h with boot := { h.boot with read2 := true, secsP := (if sh.hasP then p else []), secs := (if sh.hasC then c else []) } } := by
  have hsame : ∀ {b : Bool} {x y : List Byte}, (b = true → x = y) → (b && (x != y)) = false := by
    intro b x y hxy
    cases b with
    | false => rfl
    | true => simp [hxy rfl]
  simp only [imageSecondReadDone, hshadow, hstep, hread, hsame hp, hsame hc, ne_eq, not_true_eq_false, Bool.false_eq_true, or_self, if_false, Bool.or_self]
  exact if_neg fun hall => hbusy hall.2.1

end

end Sys2Proof.Machine

namespace Sys2Proof.Proofs.StartUp
open Sys2Proof Sys2Proof.Machine

/-- Settles O19: the loader's commands, each by the lemma of its case; a region that is not up keeps step 3 waiting. -/
theorem loaderReadsAndJudgesTheImage : Obligations.LoaderReadsAndJudgesTheImage := by
  unfold Obligations.LoaderReadsAndJudgesTheImage
  intro s hc h
  obtain ⟨hp, hr, -⟩ := Hw.clocked_iff.mp hc
  refine ⟨fun octal hstep hflash => ?_, fun hstep hslot => ?_, fun hstep hslot hdown => ?_, fun img code hcode hstep hflash hlock hfault hslot => ?_,
    fun img hstep hflash hlock hslot hmarch hpower => ?_, fun sh p c hshadow hstep hread => ⟨fun hhas hdig hdown => ?_, fun hP hC hbusy => ?_⟩,
    fun sh hshadow hstep hpack hpower => ?_⟩
  · refine (gives_iff_of_onClock rfl hc).mpr ?_
    rw [flashCommandDone_eq octal hstep hflash]
    refine ⟨?_, rfl, (Hw.rf_wf_apart _ _ rfl rfl _).trans hstep, rfl, rfl⟩
    exact (Hw.rb_of_rf _ (Hw.rf_wf_same _ _ rfl _)).trans (by cases octal <;> rfl)
  · refine (gives_iff_of_onStart rfl hp hr).mpr ?_
    rw [flashCommandTimeout_step1 hstep]
    obtain ⟨hcodea, hslotb, hstep1, hmem, -, -⟩ := slotFail_first_fields (code := 0x12) (by decide) hslot hstep
    exact ⟨hcodea, hslotb, hstep1, hmem⟩
  · refine (gives_iff_of_onStart rfl hp hr).mpr ?_
    rw [flashCommandTimeout_step1 hstep]
    have hfail := slotFail_second (code := 0x12) (by decide) hslot hdown
    exact ⟨hfail.step, hfail.code, hfail.mem⟩
  · refine (gives_iff_of_onClock rfl hc).mpr ?_
    rw [imageFirstReadDone_fault hstep hflash hlock hfault]
    obtain ⟨hcodea, hslotb, hstep1, hmem, -, -⟩ := slotFail_first_fields hcode hslot hstep
    exact ⟨hcodea, hslotb, hstep1, hmem⟩
  · refine (gives_iff_of_onClock rfl hc).mpr ?_
    obtain ⟨r, hreg, hserved⟩ := hpower
    cases hfault : imgFault h img with
    | some code =>
      rw [imageFirstReadDone_fault hstep hflash hlock hfault, slotFail_first hslot]
      refine ⟨rfl, rfl, ?_⟩
      rw [if_neg (by simp)]
      exact ⟨(Hw.rf_wf_apart _ _ rfl rfl _).trans ((Hw.rf_wf_apart _ _ rfl rfl _).trans hstep), Hw.rf_wf_same _ _ rfl _, rfl⟩
    | none =>
      rw [imageFirstReadDone_good hstep hflash hlock hfault, bootAfter1_noMarch hmarch]
      have haccept := imgAccept_eq h img
      obtain ⟨m, hm⟩ := haccept
      have hup := bootBegin3_waits (h := imgAccept h img) (r := r) (by rw [hm]; exact hreg)
        ((memServed_imgAccept r (h.lt_four_of_hasRegion hreg)).trans hserved)
      have himg := (hup.rd BOOT_IMG (by decide) (by decide)).trans rd_imgAccept_img
      rw [if_pos rfl]
      refine ⟨?_, ?_, hup.step, ?_, himg, ?_, ?_⟩ <;> rw [hup.only, hm] <;> rfl
  · refine (gives_iff_of_onClock rfl hc).mpr ?_
    rw [imageSecondReadDone_differs hshadow hstep hread hhas hdig]
    have hfail := bootFail_of_down (code := 0x32) (by decide) hdown
    exact ⟨hfail.step, hfail.code, hfail.mem⟩
  · exact (gives_iff_of_onClock rfl hc).mpr (imageSecondReadDone_agrees hshadow hstep hread hP hC hbusy)
  · refine (gives_iff_of_onClock rfl hc).mpr ?_
    obtain ⟨r, hreg, hserved, hnot⟩ := hpower
    obtain ⟨g, heq, hmarched⟩ := startupMarchDone_clean hshadow hstep hpack
    have hregg : g.hasRegion r = true := by
      rw [Hw.hasRegion, Hw.nRegions, hmarched.cfg]
      exact hreg
    have hup := bootBegin3_waits hregg ((Hw.memServed_congr (hmarched.pwrState r (h.lt_four_of_hasRegion hreg) hnot) hmarched.cfg).trans hserved)
    have hmem : (bootBegin3 g).mem = g.mem := by
      rw [hup.only]
      rfl
    rw [heq]
    refine ⟨hup.step, fun a ha _ => ?_, fun a ha => ?_⟩ <;> rw [hmem, hmarched.mem]
    · exact if_pos ha
    · exact if_neg ha

end Sys2Proof.Proofs.StartUp
end

section
/-!
SUPPORT. The limits of a start and its end (R442, R412): the power handshake, the wait for the links, BOOTTMO, and BOOTX.
-/
namespace Sys2Proof.Machine

section
variable {h : Hw}

/-- A power handshake that is late ends a start in step 2 or 3. -/
theorem startupPowerHandshakeTimeout_eq {r : Nat} (hbusy : h.boot.busy.contains r = true) (hlate : ackLate h r = true) :
    startupPowerHandshakeTimeout r h = if h.bootStep = 2 then bootFail h 0x22 else if h.bootStep = 3 then bootFail h 0x31 else h := by
  rw [startupPowerHandshakeTimeout, hbusy, hlate]
  rfl

theorem ackLate_of {r : Nat} (hstate : h.pwrState r = psWake) (hpack : h.rb (PWR_STAT r) PWR_STAT_PACK = false) (hlate : 10000 ≤ ticksSince h (h.pw r).since) :
    ackLate h r = true := by simp only [ackLate, hstate, hpack, decide_eq_true hlate, beq_self_eq_true, Bool.not_false, Bool.and_self]

/-- The wait for the links ends with step 7. -/
theorem bootLinkWaitExpire_eq {sh : Shadow} (hshadow : h.boot.shadow = some sh) (hstep : h.bootStep = 6) (hover : h.beatsOver h.boot.step5.toNat (4 * sh.lwait) = true) :
    bootLinkWaitExpire h = { bootTo h 7 with boot := { h.boot with waitEnd := true } } := by
  rw [bootLinkWaitExpire, hshadow]
  exact if_pos ⟨hstep, hover⟩

theorem boottmoExpire_over {sh : Shadow} (hshadow : h.boot.shadow = some sh) (hstep : h.bootStep = 6 ∨ h.bootStep = 7) (hset : sh.bootT ≠ 0)
    (hover : h.beatsOver h.boot.step5.toNat (4 * sh.bootT) = true) : boottmoExpire h = bootFail h 0x71 := by
  simp only [boottmoExpire, hshadow]
  exact if_pos ⟨hstep, hset, hover⟩

theorem boottmoExpire_unset {sh : Shadow} (hshadow : h.boot.shadow = some sh) (hset : sh.bootT = 0) : boottmoExpire h = h := by
  simp only [boottmoExpire, hshadow]
  exact if_neg fun hall => hall.2.1 hset

/-- BOOTX, once armed, from a keeper supervisor. -/
theorem bootx_armed {w : Who} (hsup : w.keeperSup = true) (harmed : h.boot.bootx = true) : bootx w h =
    { (((h.wf LCH_MAINT LCH_MAINT_LOADER 0).wf BOOT_STAT BOOT_STAT_STEP 9).wr BOOT_TIME (bootTicks h)) with boot := { h.boot with bootx := false, waitEnd := true } } := by
  simp only [bootx, bootxWrite, hsup, harmed, Bool.not_true, Bool.or_self, Bool.false_eq_true, if_false]

/-- What the end of a start shows. -/
theorem bootx_fields {w : Who} (hsup : w.keeperSup = true) (harmed : h.boot.bootx = true) :
    (bootx w h).rb LCH_MAINT LCH_MAINT_LOADER = false ∧ (bootx w h).bootStep = 9 ∧ (bootx w h).rd BOOT_TIME = bootTicks h := by
  rw [bootx_armed hsup harmed]
  refine ⟨?_, ?_, Hw.rd_wr_same _ _ _⟩
  · refine (Hw.rb_of_rf _ (Hw.rf_wr_other _ _ _ (by decide))).trans ?_
    exact (Hw.rb_wf_other _ _ _ _ (by decide)).trans (Hw.rb_wf_zero _ _ rfl)
  · exact (Hw.rf_wr_other _ _ _ (by decide)).trans (Hw.rf_wf_same _ _ rfl _)

end

end Sys2Proof.Machine

namespace Sys2Proof.Proofs.StartUp
open Sys2Proof Sys2Proof.Machine

/-- Settles O20: the handshake, the limits and the end of a start, each by the lemma of its case. -/
theorem loaderPowersWaitsAndHandsOver : Obligations.LoaderPowersWaitsAndHandsOver := by
  unfold Obligations.LoaderPowersWaitsAndHandsOver
  intro s hc h
  obtain ⟨hp, hr, -⟩ := Hw.clocked_iff.mp hc
  refine ⟨fun r hreg hreq hpack hstate hoff hstep => ?_, fun r hbusy hstate hpack hlate hdown => ?_, fun sh hshadow hstep hover => ?_,
    fun sh hshadow hstep => ⟨fun hset hover hdown => ?_, fun hset => ?_⟩, fun w hg hsup harmed => ?_⟩
  · refine (gives_iff_of_onIsland rfl hp).mpr ?_
    have hne : BOOT_STAT ≠ PWR_STAT r := by
      unfold BOOT_STAT PWR_STAT
      omega
    obtain ⟨hseen, hpw, hst, -, hrd, -, hfronds, hmem⟩ := pwrAckSeen_fields hreq hpack hstate
    have hboot : (pwrAckSeen h r).bootStep = h.bootStep := congrArg (fldGet BOOT_STAT_STEP) (hrd BOOT_STAT hne)
    rw [pwrAckRise_eq hreg (.inl (by rwa [hboot])), hpw]
    exact ⟨hseen, rfl, rfl, hmem, hfronds, fun q _ _ => hst q⟩
  · have heq := startupPowerHandshakeTimeout_eq hbusy (ackLate_of hstate hpack hlate)
    refine ⟨fun hstep => ?_, fun hstep => ?_⟩ <;> refine (gives_iff_of_onStart rfl hp hr).mpr ?_ <;> rw [heq]
    · rw [if_pos hstep]
      have hfail := bootFail_of_down (code := 0x22) (by decide) hdown
      exact ⟨hfail.step, hfail.code, hfail.mem⟩
    · rw [if_neg (ne_of_eq_of_ne hstep (by decide)), if_pos hstep]
      have hfail := bootFail_of_down (code := 0x31) (by decide) hdown
      exact ⟨hfail.step, hfail.code, hfail.mem⟩
  · refine (gives_iff_of_onStart rfl hp hr).mpr ?_
    rw [bootLinkWaitExpire_eq hshadow hstep hover]
    exact ⟨Hw.rf_wf_same _ _ rfl _, rfl, rfl, rfl⟩
  · refine (gives_iff_of_onStart rfl hp hr).mpr ?_
    rw [boottmoExpire_over hshadow hstep hset hover]
    have hfail := bootFail_of_down (code := 0x71) (by decide) hdown
    exact ⟨hfail.step, hfail.code, hfail.fronds, hfail.mem⟩
  · exact (gives_iff_of_onStart rfl hp hr).mpr (boottmoExpire_unset hshadow hset)
  · refine (gives_iff_of_onWrite rfl hg).mpr ?_
    obtain ⟨hloader, hnine, htime⟩ := bootx_fields hsup harmed
    refine ⟨hloader, hnine, htime, ?_⟩
    rw [bootx_armed hsup harmed]
    exact ⟨rfl, rfl, rfl⟩

end Sys2Proof.Proofs.StartUp
end

section
/-!
SUPPORT. The timer channels (R377 to R390): their registers, captures, actions, and the counting tick.
-/
namespace Sys2Proof.Machine

/-! ### The registers of a channel -/

/-- A register that is no channel's status or capture register. -/
def tmrPlain (a : Nat) : Prop := ∀ d, d < 32 → a ≠ TMR_STAT d ∧ a ≠ TMR_CAP d

theorem tmrPlain_regs (c : Nat) : tmrPlain (TMR_CNT c) ∧ tmrPlain (TMR_CMP c) ∧ tmrPlain (TMR_PER c) ∧ tmrPlain (TMR_PRE c) ∧ tmrPlain (TMR_CTL c) ∧
    tmrPlain (TMR_ACT c) ∧ tmrPlain (TMR_ADR_HI c) ∧ tmrPlain (TMR_CLAIM c) := by
  refine ⟨fun d _ => ?_, fun d _ => ?_, fun d _ => ?_, fun d _ => ?_, fun d _ => ?_, fun d _ => ?_, fun d _ => ?_, fun d _ => ?_⟩ <;>
    simp only [TMR_CNT, TMR_CMP, TMR_PER, TMR_PRE, TMR_CTL, TMR_ACT, TMR_ADR_HI, TMR_CLAIM, TMR_STAT, TMR_CAP] <;> omega

theorem tmrPlain_of_block {a : Nat} (ha : a / 0x100000 = 0x20A) : tmrPlain a := by
  intro d _
  unfold TMR_STAT TMR_CAP
  omega

/-- The timers are no registers of the interrupt or power controller. -/
theorem not_irqOrPower_of_timer {a : Nat} (ha : a / 0x1000 = 0x20B00) : ¬ irqOrPower a := by
  unfold irqOrPower
  omega

theorem TMR_page {c : Nat} (hc : c < 32) : TMR_CNT c / 0x1000 = 0x20B00 ∧ TMR_CMP c / 0x1000 = 0x20B00 ∧ TMR_PER c / 0x1000 = 0x20B00 ∧ TMR_PRE c / 0x1000 = 0x20B00 ∧
    TMR_CTL c / 0x1000 = 0x20B00 ∧ TMR_ACT c / 0x1000 = 0x20B00 ∧ TMR_ADR_HI c / 0x1000 = 0x20B00 ∧ TMR_CLAIM c / 0x1000 = 0x20B00 ∧ TMR_STAT c / 0x1000 = 0x20B00 ∧
    TMR_CAP c / 0x1000 = 0x20B00 := by
  unfold TMR_CNT TMR_CMP TMR_PER TMR_PRE TMR_CTL TMR_ACT TMR_ADR_HI TMR_CLAIM TMR_STAT TMR_CAP
  omega

theorem TMR_STAT_inj {c d : Nat} : TMR_STAT d = TMR_STAT c ↔ d = c := by
  unfold TMR_STAT
  omega

theorem TMR_CAP_ne_STAT (c d : Nat) : TMR_CAP d ≠ TMR_STAT c := by
  unfold TMR_CAP TMR_STAT
  omega

/-- A field of TMR_STAT that no capture and no refused action writes. -/
def tmrLevel (f : Fld) : Bool := fldInWord f && fldApart ⟨0, 5⟩ f

theorem fldApart_of_within {b e f : Fld} (hf : fldApart b f = true) (hlo : b.lo ≤ e.lo) (hhi : e.lo + e.w ≤ b.lo + b.w) : fldApart e f = true := by
  simp only [fldApart, Bool.or_eq_true, decide_eq_true_eq] at hf ⊢
  omega

theorem Hw.rf_stat_wf_other (h : Hw) {c d : Nat} (hne : d ≠ c) (f g : Fld) (n : Nat) : (h.wf (TMR_STAT c) f n).rf (TMR_STAT d) g = h.rf (TMR_STAT d) g :=
  h.rf_wf_other f g n fun heq => hne (TMR_STAT_inj.mp heq)

/-- A write of a field of a channel's status keeps the fields apart from it, of every channel. -/
theorem Hw.rf_stat_wf_apart (h : Hw) (c d : Nat) {f g : Fld} (hg : fldInWord g = true) (hfg : fldApart f g = true) (n : Nat) :
    (h.wf (TMR_STAT c) f n).rf (TMR_STAT d) g = h.rf (TMR_STAT d) g := by
  by_cases hd : d = c
  · subst hd
    exact h.rf_wf_apart _ hg hfg n
  · exact h.rf_stat_wf_other hd f g n

/-! ### Captures (R388) -/

section
variable (h : Hw) (c : Nat) (v : W32)

theorem tmrCapture_regsPwrOnly : RegsPwrOnly h (tmrCapture h c v) := by
  unfold tmrCapture
  split <;> rfl

theorem rd_tmrCapture_other {a : Nat} (hstat : a ≠ TMR_STAT c) (hcap : a ≠ TMR_CAP c) : (tmrCapture h c v).rd a = h.rd a := by
  unfold tmrCapture
  split
  · exact (Hw.rd_wf_other _ _ _ hstat).trans ((Hw.rd_wr_other _ _ hcap).trans (Hw.rd_wf_other _ _ _ hstat))
  · exact (Hw.rd_wf_other _ _ _ hstat).trans (Hw.rd_wr_other _ _ hcap)

theorem rd_cap_tmrCapture : (tmrCapture h c v).rd (TMR_CAP c) = v := (Hw.rd_wf_other _ _ _ (TMR_CAP_ne_STAT c c)).trans (Hw.rd_wr_same _ _ _)

/-- TMR_STAT after a capture: CAPOVR is set where CAPF stood, and CAPF is set. -/
def capStat (x : W32) : W32 := fldSet TMR_STAT_CAPF (if fldGet TMR_STAT_CAPF x = 1 then fldSet TMR_STAT_CAPOVR x 1 else x) 1

theorem rd_stat_tmrCapture : (tmrCapture h c v).rd (TMR_STAT c) = capStat (h.rd (TMR_STAT c)) := by
  have hput : ∀ g : Hw, ((g.wr (TMR_CAP c) v).sb (TMR_STAT c) TMR_STAT_CAPF).rd (TMR_STAT c) = fldSet TMR_STAT_CAPF (g.rd (TMR_STAT c)) 1 := fun g => by
    rw [Hw.sb, Hw.wf, Hw.rd_wr_same, Hw.rd_wr_other _ _ (TMR_CAP_ne_STAT c c).symm]
  unfold tmrCapture capStat
  split
  next hset =>
    rw [hput, Hw.sb, Hw.wf, Hw.rd_wr_same]
    exact congrArg (fldSet TMR_STAT_CAPF · 1) (if_pos (beq_iff_eq.mp hset)).symm
  next hclear =>
    rw [hput]
    exact congrArg (fldSet TMR_STAT_CAPF · 1) (if_neg fun hset => hclear (beq_iff_eq.mpr hset)).symm

/-- A capture keeps the fields of TMR_STAT apart from CAPF and CAPOVR. -/
theorem fldGet_capStat (x : W32) {f : Fld} (hf : fldInWord f = true) (hapart : fldApart ⟨0, 2⟩ f = true) : fldGet f (capStat x) = fldGet f x := by
  have hcapf : fldApart TMR_STAT_CAPF f = true := fldApart_of_within hapart (by decide) (by decide)
  have hcapovr : fldApart TMR_STAT_CAPOVR f = true := fldApart_of_within hapart (by decide) (by decide)
  rw [capStat, fldGet_fldSet_of_apart hf hcapf]
  split
  · exact fldGet_fldSet_of_apart hf hcapovr _ _
  · rfl

theorem fldGet_capf_capStat (x : W32) : fldGet TMR_STAT_CAPF (capStat x) = 1 := fldGet_fldSet_same _ _ _ (by decide) (by decide)

theorem fldGet_capovr_capStat (x : W32) : (fldGet TMR_STAT_CAPOVR (capStat x) == 1) = (fldGet TMR_STAT_CAPF x == 1 || fldGet TMR_STAT_CAPOVR x == 1) := by
  rw [capStat, fldGet_fldSet_of_apart rfl rfl]
  split
  next hset => rw [fldGet_fldSet_same _ _ _ (by decide) (by decide), hset]; rfl
  next hclear => rw [beq_eq_false_iff_ne.mpr hclear, Bool.false_or]

theorem rf_stat_tmrCapture (d : Nat) {f : Fld} (hf : fldInWord f = true) (hapart : fldApart ⟨0, 2⟩ f = true) :
    (tmrCapture h c v).rf (TMR_STAT d) f = h.rf (TMR_STAT d) f := by
  by_cases hd : d = c
  · subst hd
    rw [Hw.rf, rd_stat_tmrCapture, fldGet_capStat _ hf hapart, Hw.rf]
  · exact congrArg (fldGet f) (rd_tmrCapture_other h c v (fun heq => hd (TMR_STAT_inj.mp heq)) (TMR_CAP_ne_STAT d c).symm)

end

/-- What the captures of an event write: the capture registers and CAPF and CAPOVR of the channels. -/
structure CapturesOnly (h g : Hw) : Prop where
  only : RegsPwrOnly h g
  rd : ∀ a, tmrPlain a → g.rd a = h.rd a
  stat : ∀ d f, fldInWord f = true → fldApart ⟨0, 2⟩ f = true → g.rf (TMR_STAT d) f = h.rf (TMR_STAT d) f

namespace CapturesOnly

variable {h g k : Hw}

theorem refl (h : Hw) : CapturesOnly h h := ⟨.refl h, fun _ _ => rfl, fun _ _ _ _ => rfl⟩

theorem trans (h1 : CapturesOnly h g) (h2 : CapturesOnly g k) : CapturesOnly h k where
  only := h1.only.trans h2.only
  rd a ha := (h2.rd a ha).trans (h1.rd a ha)
  stat d f hf hapart := (h2.stat d f hf hapart).trans (h1.stat d f hf hapart)

theorem tmrCapture {c : Nat} (hc : c < 32) (h : Hw) (v : W32) : CapturesOnly h (tmrCapture h c v) where
  only := tmrCapture_regsPwrOnly h c v
  rd _ ha := rd_tmrCapture_other h c v (ha c hc).1 (ha c hc).2
  stat d _ hf hapart := rf_stat_tmrCapture h c v d hf hapart

end CapturesOnly

/-- One channel of `capOn`. -/
def capStep (h0 : Hw) (sel : Nat) (h : Hw) (c : Nat) : Hw := if h.rf (TMR_CTL c) TMR_CTL_CAPSEL = sel then tmrCapture h c (h0.rd (TMR_CNT c)) else h

theorem capOn_eq (h0 h : Hw) (sel : Nat) : capOn h0 h sel = (List.range 31).foldl (capStep h0 sel) h := rfl

theorem capStep_capturesOnly (h0 : Hw) (sel : Nat) {c : Nat} (hc : c < 31) (h : Hw) : CapturesOnly h (capStep h0 sel h c) := by
  unfold capStep
  split
  · exact .tmrCapture (by omega) h _
  · exact .refl h

theorem foldl_capStep_capturesOnly (h0 : Hw) (sel : Nat) {n : Nat} (hn : n ≤ 31) (h : Hw) : CapturesOnly h ((List.range n).foldl (capStep h0 sel) h) :=
  List.foldlRecOn (motive := CapturesOnly h) _ _ (.refl h) fun g hg c hc => hg.trans (capStep_capturesOnly h0 sel (by have := List.mem_range.mp hc; omega) g)

theorem capOn_capturesOnly (h0 h : Hw) (sel : Nat) : CapturesOnly h (capOn h0 h sel) := foldl_capStep_capturesOnly h0 sel (Nat.le_refl 31) h

theorem TMR_CAP_inj {c d : Nat} : TMR_CAP d = TMR_CAP c ↔ d = c := by
  unfold TMR_CAP
  omega

/-- Each channel captures where it selects the event, and keeps its registers otherwise. -/
theorem foldl_capStep_channel (h0 h : Hw) (sel d : Nat) {n : Nat} (hn : n ≤ 31) :
    ((List.range n).foldl (capStep h0 sel) h).rd (TMR_STAT d) =
        (if d < n ∧ h.rf (TMR_CTL d) TMR_CTL_CAPSEL = sel then capStat (h.rd (TMR_STAT d)) else h.rd (TMR_STAT d)) ∧
      ((List.range n).foldl (capStep h0 sel) h).rd (TMR_CAP d) =
        (if d < n ∧ h.rf (TMR_CTL d) TMR_CTL_CAPSEL = sel then h0.rd (TMR_CNT d) else h.rd (TMR_CAP d)) := by
  induction n with
  | zero => simp
  | succ n ih =>
    have hkeep := foldl_capStep_capturesOnly h0 sel (n := n) (by omega) h
    obtain ⟨hstat, hcap⟩ := ih (by omega)
    have hctl : ((List.range n).foldl (capStep h0 sel) h).rf (TMR_CTL n) TMR_CTL_CAPSEL = h.rf (TMR_CTL n) TMR_CTL_CAPSEL :=
      congrArg (fldGet TMR_CTL_CAPSEL) (hkeep.rd _ (tmrPlain_regs n).2.2.2.2.1)
    rw [List.range_succ, List.foldl_concat, capStep, hctl]
    by_cases hd : d = n
    · subst hd
      rw [if_neg (by omega)] at hstat hcap
      by_cases hsel : h.rf (TMR_CTL d) TMR_CTL_CAPSEL = sel
      · simp only [hsel, if_true, Nat.lt_succ_self, and_self]
        exact ⟨(rd_stat_tmrCapture _ _ _).trans (congrArg capStat hstat), rd_cap_tmrCapture _ _ _⟩
      · simp only [hsel, if_false, and_false]
        exact ⟨hstat, hcap⟩
    · have hlt : d < n + 1 ↔ d < n := by omega
      simp only [hlt]
      rw [← hstat, ← hcap]
      split
      · exact ⟨rd_tmrCapture_other _ _ _ (fun heq => hd (TMR_STAT_inj.mp heq)) (TMR_CAP_ne_STAT d n).symm,
          rd_tmrCapture_other _ _ _ (TMR_CAP_ne_STAT n d) (fun heq => hd (TMR_CAP_inj.mp heq))⟩
      · exact ⟨rfl, rfl⟩

theorem rd_cap_capOn (h0 h : Hw) (sel : Nat) {d : Nat} (hd : d < 31) :
    (capOn h0 h sel).rd (TMR_CAP d) = if h.rf (TMR_CTL d) TMR_CTL_CAPSEL = sel then h0.rd (TMR_CNT d) else h.rd (TMR_CAP d) := by
  rw [capOn_eq, (foldl_capStep_channel h0 h sel d (Nat.le_refl 31)).2]
  simp only [hd, true_and]

theorem rd_stat_capOn (h0 h : Hw) (sel : Nat) {d : Nat} (hd : d < 31) :
    (capOn h0 h sel).rd (TMR_STAT d) = if h.rf (TMR_CTL d) TMR_CTL_CAPSEL = sel then capStat (h.rd (TMR_STAT d)) else h.rd (TMR_STAT d) := by
  rw [capOn_eq, (foldl_capStep_channel h0 h sel d (Nat.le_refl 31)).1]
  simp only [hd, true_and]

/-! ### Actions (R383 to R386) -/

/-- What a channel's actions and captures keep: the memory, the registers but those of captures and of the interrupt and power controllers, and the levels in the channels' status. -/
structure TickKeeps (h g : Hw) : Prop where
  mem : g.mem = h.mem
  rd : ∀ a, ¬ irqOrPower a → tmrPlain a → g.rd a = h.rd a
  stat : ∀ d, d < 32 → ∀ f, tmrLevel f = true → g.rf (TMR_STAT d) f = h.rf (TMR_STAT d) f

namespace TickKeeps

variable {h g k : Hw}

theorem refl (h : Hw) : TickKeeps h h := ⟨rfl, fun _ _ _ => rfl, fun _ _ _ _ => rfl⟩

theorem trans (h1 : TickKeeps h g) (h2 : TickKeeps g k) : TickKeeps h k where
  mem := h2.mem.trans h1.mem
  rd a hirq ha := (h2.rd a hirq ha).trans (h1.rd a hirq ha)
  stat d hd f hf := (h2.stat d hd f hf).trans (h1.stat d hd f hf)

theorem of_irqKeeps (hk : IrqKeeps h g) : TickKeeps h g where
  mem := hk.mem
  rd a hirq _ := hk.rd a hirq
  stat _ hd f _ := congrArg (fldGet f) (hk.rd _ (not_irqOrPower_of_timer (TMR_page hd).2.2.2.2.2.2.2.2.1))

theorem of_captures (hk : CapturesOnly h g) : TickKeeps h g where
  mem := hk.only.mem
  rd a _ ha := hk.rd a ha
  stat d _ f hf := by
    rw [tmrLevel, Bool.and_eq_true] at hf
    exact hk.stat d f hf.1 (fldApart_of_within hf.2 (by decide) (by decide))

/-- A refused action is marked in one of the low bits of its channel's status. -/
theorem sb {c : Nat} (hc : c < 32) (h : Hw) {e : Fld} (he : e.lo + e.w ≤ 5) : TickKeeps h (h.sb (TMR_STAT c) e) where
  mem := rfl
  rd a _ ha := h.rd_wf_other _ _ (ha c hc).1
  stat d _ f hf := by
    rw [tmrLevel, Bool.and_eq_true] at hf
    exact h.rf_stat_wf_apart c d hf.1 (fldApart_of_within hf.2 (Nat.zero_le _) (by omega)) 1

theorem link (h : Hw) (l : List (Nat × Nat)) : TickKeeps h { h with tmrLink := l } := ⟨rfl, fun _ _ _ => rfl, fun _ _ _ _ => rfl⟩

/-- The fields of the status that a level names, for one channel. -/
theorem tmrRun (hk : TickKeeps h g) {d : Nat} (hd : d < 32) : g.tmrRun d = h.tmrRun d := congrArg (· == 1) (hk.stat d hd TMR_STAT_RUN rfl)

theorem out (hk : TickKeeps h g) {d : Nat} (hd : d < 32) : g.rb (TMR_STAT d) TMR_STAT_OUT = h.rb (TMR_STAT d) TMR_STAT_OUT :=
  congrArg (· == 1) (hk.stat d hd TMR_STAT_OUT rfl)

/-- The registers of a channel that set it up. -/
theorem regs (hk : TickKeeps h g) {d : Nat} (hd : d < 32) : g.rd (TMR_CNT d) = h.rd (TMR_CNT d) ∧ g.rd (TMR_CMP d) = h.rd (TMR_CMP d) ∧
    g.rd (TMR_PRE d) = h.rd (TMR_PRE d) ∧ g.rd (TMR_CTL d) = h.rd (TMR_CTL d) ∧ g.rd (TMR_ACT d) = h.rd (TMR_ACT d) ∧ g.rd (TMR_ADR_HI d) = h.rd (TMR_ADR_HI d) := by
  obtain ⟨pcnt, pcmp, -, ppre, pctl, pact, padr, -, -, -⟩ := TMR_page hd
  obtain ⟨lcnt, lcmp, -, lpre, lctl, lact, ladr, -⟩ := tmrPlain_regs d
  have hplain : ∀ {a}, a / 0x1000 = 0x20B00 → tmrPlain a → g.rd a = h.rd a := fun hp ha => hk.rd _ (not_irqOrPower_of_timer hp) ha
  exact ⟨hplain pcnt lcnt, hplain pcmp lcmp, hplain ppre lpre, hplain pctl lctl, hplain pact lact, hplain padr ladr⟩

end TickKeeps

/-! ### One action set (R383 to R386) -/

section
variable {h : Hw} {c : Nat}

/-- The interrupt action. -/
def actIrq (h : Hw) (c acts : Nat) : Hw := if bit acts 0 then irqFire h (416 + c) else h

/-- The link action: it is applied in the tick after. -/
def actLink (h : Hw) (acts lop lch : Nat) : Hw := if bit acts 3 then { h with tmrLink := h.tmrLink ++ [(lop, lch)] } else h

theorem actIrq_regsPwrOnly (h : Hw) (c acts : Nat) : RegsPwrOnly h (actIrq h c acts) := by
  unfold actIrq
  split
  · exact .irqFire h _
  · exact .refl h

theorem actIrq_irqKeeps (h : Hw) (c acts : Nat) : IrqKeeps h (actIrq h c acts) := by
  unfold actIrq
  split
  · exact .irqFire h _
  · exact .refl h

theorem actLink_tickKeeps (h : Hw) (acts lop lch : Nat) : TickKeeps h (actLink h acts lop lch) := by
  unfold actLink
  split
  · exact .link h _
  · exact .refl h

/-- An action set without a conversion and without a timestamp (R383). -/
theorem tmrActs_inner {acts : Nat} (hconv : bit acts 1 = false) (hmove : bit acts 2 = false) (lop lch : Nat) :
    tmrActs h c acts lop lch = actLink (actIrq h c acts) acts lop lch := by
  simp only [tmrActs, hconv, hmove, Bool.false_eq_true, if_false]
  rfl

/-- An action set whose conversion names a chain of an absent region (R384). -/
theorem tmrActs_tref (hc : c < 32) {acts : Nat} (hconv : bit acts 1 = true) (hmove : bit acts 2 = false) (lop lch : Nat)
    (hchain : h.hasChain (h.rf (TMR_ADR_HI c) TMR_ADR_HI_TGT) = false) :
    tmrActs h c acts lop lch = actLink ((actIrq h c acts).sb (TMR_STAT c) TMR_STAT_TREF) acts lop lch := by
  have hkeep := TickKeeps.of_irqKeeps (actIrq_irqKeeps h c acts)
  have hcfg : (actIrq h c acts).cfg = h.cfg := by rw [actIrq_regsPwrOnly h c acts]
  have htgt : (actIrq h c acts).rf (TMR_ADR_HI c) TMR_ADR_HI_TGT = h.rf (TMR_ADR_HI c) TMR_ADR_HI_TGT := congrArg (fldGet TMR_ADR_HI_TGT) (hkeep.regs hc).2.2.2.2.2
  have habsent : (actIrq h c acts).hasChain ((actIrq h c acts).rf (TMR_ADR_HI c) TMR_ADR_HI_TGT) = false := by
    rw [htgt, Hw.hasChain, Hw.nRegions, hcfg]
    exact hchain
  have href : tmrConv (actIrq h c acts) c = (actIrq h c acts).sb (TMR_STAT c) TMR_STAT_TREF := by
    simp only [tmrConv, habsent, Bool.not_false, if_true]
  simp only [tmrActs, hconv, hmove, Bool.false_eq_true, if_false, if_true]
  change actLink (tmrConv (actIrq h c acts) c) acts lop lch = _
  rw [href]

/-- An action set whose timestamp finds one outstanding (R385). -/
theorem tmrActs_movovf {acts : Nat} (hconv : bit acts 1 = false) (hmove : bit acts 2 = true) (lop lch : Nat) (hbusy : (h.tmr c).mover = true) :
    tmrActs h c acts lop lch = actLink ((actIrq h c acts).sb (TMR_STAT c) TMR_STAT_MOVOVF) acts lop lch := by
  have htmr : (actIrq h c acts).tmr c = h.tmr c := by rw [Hw.tmr, actIrq_regsPwrOnly h c acts, Hw.tmr]
  have href : tmrMover (actIrq h c acts) c = (actIrq h c acts).sb (TMR_STAT c) TMR_STAT_MOVOVF := by
    simp only [tmrMover, htmr, hbusy, if_true]
  simp only [tmrActs, hconv, hmove, Bool.false_eq_true, if_false, if_true]
  change actLink (tmrMover (actIrq h c acts) c) acts lop lch = _
  rw [href]

/-- An action set whose timestamp is for an absent region (R385). -/
theorem tmrActs_merr (hc : c < 32) {acts : Nat} (hconv : bit acts 1 = false) (hmove : bit acts 2 = true) (lop lch : Nat) (hfree : (h.tmr c).mover = false)
    (hregion : h.hasRegion (h.rf (TMR_ADR_HI c) TMR_ADR_HI_TGT % 8 / 2) = false) :
    tmrActs h c acts lop lch = actLink ((actIrq h c acts).sb (TMR_STAT c) TMR_STAT_MERR) acts lop lch := by
  have hkeep := TickKeeps.of_irqKeeps (actIrq_irqKeeps h c acts)
  have htmr : (actIrq h c acts).tmr c = h.tmr c := by rw [Hw.tmr, actIrq_regsPwrOnly h c acts, Hw.tmr]
  have hcfg : (actIrq h c acts).cfg = h.cfg := by rw [actIrq_regsPwrOnly h c acts]
  have htgt : (actIrq h c acts).rf (TMR_ADR_HI c) TMR_ADR_HI_TGT = h.rf (TMR_ADR_HI c) TMR_ADR_HI_TGT := congrArg (fldGet TMR_ADR_HI_TGT) (hkeep.regs hc).2.2.2.2.2
  have hout : (actIrq h c acts).inService ((actIrq h c acts).rf (TMR_ADR_HI c) TMR_ADR_HI_TGT % 8 / 2) = false := by
    have hno : (actIrq h c acts).hasRegion (h.rf (TMR_ADR_HI c) TMR_ADR_HI_TGT % 8 / 2) = false := by
      rw [Hw.hasRegion, Hw.nRegions, hcfg]
      exact hregion
    rw [htgt, Hw.inService, hno, Bool.false_and]
  have href : tmrMover (actIrq h c acts) c = (actIrq h c acts).sb (TMR_STAT c) TMR_STAT_MERR := by
    simp only [tmrMover, htmr, hfree, hout, Bool.false_eq_true, if_false, Bool.not_false, Bool.true_or, if_true]
  simp only [tmrActs, hconv, hmove, Bool.false_eq_true, if_false, if_true]
  change actLink (tmrMover (actIrq h c acts) c) acts lop lch = _
  rw [href]

/-- Source 416 + c is an event source of every configuration (R356). -/
theorem timerSource (hc : c < 31) : srcExists h.cfg (416 + c) = true ∧ srcIsLevel h (416 + c) = false := by
  have hex : srcExists h.cfg (416 + c) = true := by
    rw [srcExists, if_neg (by omega)]
    exact decide_eq_true (by omega)
  refine ⟨hex, ?_⟩
  have hfix : srcLevelFixed (416 + c) = false := by
    rw [srcLevelFixed, if_neg (by omega), Bool.or_eq_false_iff]
    exact ⟨beq_false_of_ne (by omega), beq_false_of_ne (by omega)⟩
  have hpin : ¬ ((decide (448 ≤ 416 + c) && decide (416 + c < 480)) = true) := by
    simp only [Bool.and_eq_true, decide_eq_true_eq]
    omega
  rw [srcIsLevel, if_neg hpin, hfix]

/-- A source that neither waits nor is active, in a group that nobody holds, is pending once it has fired. -/
theorem irqFire_pends {n : Nat} (hex : srcExists h.cfg n = true) (hevent : srcIsLevel h n = false) (hheld : grpClaimed h (n / 32) = false)
    (hpend : srcBit h IRQ_PEND n = false) (hact : srcBit h IRQ_ACT n = false) : srcBit (irqFire h n) IRQ_PEND n = true := by
  rw [irqFire_of_idle hex hevent hpend hact]
  exact (irqSetPend_pends hex (grpHeld_of_unclaimed hheld)).1

/-- The interrupt action makes source 416 + c pending. -/
theorem actIrq_pends (hc : c < 31) {acts : Nat} (hirq : bit acts 0 = true) (hheld : grpClaimed h ((416 + c) / 32) = false)
    (hpend : srcBit h IRQ_PEND (416 + c) = false) (hact : srcBit h IRQ_ACT (416 + c) = false) : srcBit (actIrq h c acts) IRQ_PEND (416 + c) = true := by
  obtain ⟨hex, hevent⟩ := timerSource (h := h) hc
  rw [actIrq, if_pos hirq]
  exact irqFire_pends hex hevent hheld hpend hact

theorem tmrLink_actLink (h : Hw) (acts lop lch : Nat) : (actLink h acts lop lch).tmrLink = h.tmrLink ++ if bit acts 3 then [(lop, lch)] else [] := by
  unfold actLink
  split
  next hset => simp
  next hclear => simp

end

/-! ### The counting tick (R378, R380, R382) -/

section
variable {h g : Hw} {c : Nat}

/-- The output after a tick. -/
def outNext (mode : Nat) (old m wrap : Bool) : Bool :=
  match mode with
  | 1 => m || (old && !wrap)
  | 2 => old != m
  | 3 => m
  | _ => false

theorem tmrOut_eq (h : Hw) (c : Nat) (m wrap : Bool) :
    tmrOut h c m wrap = h.wf (TMR_STAT c) TMR_STAT_OUT (b2n (outNext (h.rf (TMR_CTL c) TMR_CTL_OMODE) (h.rb (TMR_STAT c) TMR_STAT_OUT) m wrap)) := rfl

theorem rb_out_tmrOut (h : Hw) (c : Nat) (m wrap : Bool) :
    (tmrOut h c m wrap).rb (TMR_STAT c) TMR_STAT_OUT = outNext (h.rf (TMR_CTL c) TMR_CTL_OMODE) (h.rb (TMR_STAT c) TMR_STAT_OUT) m wrap := by
  rw [tmrOut_eq, Hw.rb, Hw.rf_wf_same _ _ rfl]
  cases outNext (h.rf (TMR_CTL c) TMR_CTL_OMODE) (h.rb (TMR_STAT c) TMR_STAT_OUT) m wrap <;> rfl

theorem rd_tmrOut_other (h : Hw) (m wrap : Bool) {a : Nat} (ha : a ≠ TMR_STAT c) : (tmrOut h c m wrap).rd a = h.rd a := Hw.rd_wf_other _ _ _ ha

theorem rf_tmrOut_apart (h : Hw) (m wrap : Bool) {f : Fld} (hf : fldInWord f = true) (hapart : fldApart TMR_STAT_OUT f = true) :
    (tmrOut h c m wrap).rf (TMR_STAT c) f = h.rf (TMR_STAT c) f := Hw.rf_wf_apart _ _ hf hapart _

theorem outNext_match (mode : Nat) (old : Bool) : outNext mode old true false = (mode == 1 || (mode == 2 && !old) || mode == 3) := by
  unfold outNext
  split
  · rfl
  · cases old <;> rfl
  · rfl
  next h1 h2 h3 => rw [beq_false_of_ne h1, beq_false_of_ne h2, beq_false_of_ne h3]; rfl

/-- A counting tick of a running channel past its gate, from its actions g (R380). -/
def counted (g : Hw) (c : Nat) (cnt : W32) : Hw := tmrOut (g.wr (TMR_CNT c) (cnt + 1)) c true false

theorem TMR_CNT_ne (c : Nat) : TMR_CMP c ≠ TMR_CNT c ∧ TMR_STAT c ≠ TMR_CNT c ∧ TMR_CTL c ≠ TMR_CNT c ∧ TMR_CNT c ≠ TMR_STAT c ∧ TMR_CMP c ≠ TMR_STAT c ∧
    TMR_CNT c ≠ TMR_CMP c ∧ TMR_STAT c ≠ TMR_CMP c ∧ TMR_CTL c ≠ TMR_CMP c ∧ TMR_CTL c ≠ TMR_STAT c := by
  unfold TMR_CMP TMR_CNT TMR_STAT TMR_CTL
  omega

/-- What a matching tick shows of its channel. -/
theorem counted_fields (hc : c < 32) (hk : TickKeeps h g) :
    (counted g c (h.rd (TMR_CNT c))).rd (TMR_CNT c) = h.rd (TMR_CNT c) + 1 ∧ (counted g c (h.rd (TMR_CNT c))).rd (TMR_CMP c) = h.rd (TMR_CMP c) ∧
      (counted g c (h.rd (TMR_CNT c))).tmrRun c = h.tmrRun c ∧
      (counted g c (h.rd (TMR_CNT c))).rb (TMR_STAT c) TMR_STAT_OUT =
        (h.rf (TMR_CTL c) TMR_CTL_OMODE == 1 || (h.rf (TMR_CTL c) TMR_CTL_OMODE == 2 && !h.rb (TMR_STAT c) TMR_STAT_OUT) || h.rf (TMR_CTL c) TMR_CTL_OMODE == 3) := by
  obtain ⟨hcmp, hstat, hctl, hcnt, hcmps, -⟩ := TMR_CNT_ne c
  obtain ⟨-, hkcmp, -, hkctl, -⟩ := hk.regs hc
  refine ⟨(rd_tmrOut_other _ _ _ hcnt).trans (Hw.rd_wr_same _ _ _), (rd_tmrOut_other _ _ _ hcmps).trans ((Hw.rd_wr_other _ _ hcmp).trans hkcmp), ?_, ?_⟩
  · exact (congrArg (· == 1) ((rf_tmrOut_apart _ _ _ rfl rfl).trans (Hw.rf_wr_other _ _ _ hstat))).trans (hk.tmrRun hc)
  · have hmode : (g.wr (TMR_CNT c) (h.rd (TMR_CNT c) + 1)).rf (TMR_CTL c) TMR_CTL_OMODE = h.rf (TMR_CTL c) TMR_CTL_OMODE :=
      (Hw.rf_wr_other _ _ _ hctl).trans (congrArg (fldGet TMR_CTL_OMODE) hkctl)
    have hout : (g.wr (TMR_CNT c) (h.rd (TMR_CNT c) + 1)).rb (TMR_STAT c) TMR_STAT_OUT = h.rb (TMR_STAT c) TMR_STAT_OUT :=
      (congrArg (· == 1) (Hw.rf_wr_other _ _ _ hstat)).trans (hk.out hc)
    rw [counted, rb_out_tmrOut, hmode, hout, outNext_match]

/-- The actions of a match, and the captures that it brings (R383, R388). -/
def matchActs (h : Hw) (c : Nat) : Hw :=
  capOn h (tmrActs h c (h.rf (TMR_ACT c) TMR_ACT_MACT) (h.rf (TMR_ACT c) TMR_ACT_MLOP) (h.rf (TMR_ACT c) TMR_ACT_MLCH)) (0x20 + c)

/-- The matching tick of a channel that does not wrap. -/
theorem timerMatch_counts (hc : c < 31) (hrun : h.tmrRun c = true) (hgate : tmrGate h c = true) (hmatch : h.rd (TMR_CMP c) = h.rd (TMR_CNT c))
    (hwrap : h.rd (TMR_CNT c) ≠ h.rd (TMR_PER c)) :
    timerMatch c h = counted (matchActs h c) c (h.rd (TMR_CNT c)) := by
  have hm : (h.rd (TMR_CNT c) == h.rd (TMR_CMP c)) = true := beq_iff_eq.mpr hmatch.symm
  have hw : (h.rd (TMR_CNT c) == h.rd (TMR_PER c)) = false := beq_eq_false_iff_ne.mpr hwrap
  rw [timerMatch, if_pos hmatch, tmrTick]
  simp only [tmrTickAt, hc, decide_true, hrun, hgate, Bool.and_self, if_true, hm, hw, Bool.false_eq_true, if_false, Bool.false_and]
  rfl

/-- The actions of a wrap (R383). -/
def wrapActs (h : Hw) (c : Nat) : Hw := tmrActs h c (h.rf (TMR_ACT c) TMR_ACT_OACT) (h.rf (TMR_ACT c) TMR_ACT_OLOP) (h.rf (TMR_ACT c) TMR_ACT_OLCH)

/-- A channel as its wrap leaves it, before a one-shot stops (R380). -/
def wrappedBy (g : Hw) (c : Nat) (m : Bool) : Hw := tmrOut ((g.wr (TMR_CNT c) 0).wr (TMR_CMP c) (g.rd (TMR_PRE c))) c m true

/-- The wrapping tick of a channel: the actions of its match come before those of the wrap. -/
theorem timerWrap_wraps (hc : c < 31) (hrun : h.tmrRun c = true) (hgate : tmrGate h c = true) (hwrap : h.rd (TMR_CNT c) = h.rd (TMR_PER c)) {m : Bool}
    (hm : (h.rd (TMR_CNT c) == h.rd (TMR_CMP c)) = m) :
    timerWrap c h =
      (let w := wrappedBy (wrapActs (if m then matchActs h c else h) c) c m
       if w.rb (TMR_CTL c) TMR_CTL_OS then tmrStop w c else w) := by
  have hw : (h.rd (TMR_CNT c) == h.rd (TMR_PER c)) = true := beq_iff_eq.mpr hwrap
  rw [timerWrap, if_pos hwrap, tmrTick]
  simp only [tmrTickAt, hc, decide_true, hrun, hgate, Bool.and_self, if_true, hm, hw, Bool.true_and]
  rfl

/-- What a wrap shows of its channel. -/
theorem wrappedBy_fields (hc : c < 32) (hk : TickKeeps h g) (m : Bool) :
    (wrappedBy g c m).rd (TMR_CNT c) = 0 ∧ (wrappedBy g c m).rd (TMR_CMP c) = h.rd (TMR_PRE c) ∧ (wrappedBy g c m).tmrRun c = h.tmrRun c ∧
      (wrappedBy g c m).rd (TMR_CTL c) = h.rd (TMR_CTL c) ∧ (wrappedBy g c m).mem = h.mem := by
  obtain ⟨-, hstat, hctl, hcnt, hcmps, hcntcmp, hstatcmp, hctlcmp, hctls⟩ := TMR_CNT_ne c
  obtain ⟨-, -, hkpre, hkctl, -⟩ := hk.regs hc
  refine ⟨?_, ?_, ?_, ?_, hk.mem⟩
  · exact (rd_tmrOut_other _ _ _ hcnt).trans ((Hw.rd_wr_other _ _ hcntcmp).trans (Hw.rd_wr_same _ _ _))
  · exact (rd_tmrOut_other _ _ _ hcmps).trans ((Hw.rd_wr_same _ _ _).trans hkpre)
  · exact (congrArg (· == 1) ((rf_tmrOut_apart _ _ _ rfl rfl).trans ((Hw.rf_wr_other _ _ _ hstatcmp).trans (Hw.rf_wr_other _ _ _ hstat)))).trans (hk.tmrRun hc)
  · exact (rd_tmrOut_other _ _ _ hctls).trans ((Hw.rd_wr_other _ _ hctlcmp).trans ((Hw.rd_wr_other _ _ hctl).trans hkctl))

/-- What a stopped channel shows (R381, R382): the count stays, and the output is low but where it toggles. -/
theorem tmrStop_fields (h : Hw) (c : Nat) :
    (tmrStop h c).tmrRun c = false ∧
      (tmrStop h c).rb (TMR_STAT c) TMR_STAT_OUT = (h.rf (TMR_CTL c) TMR_CTL_OMODE == 2 && h.rb (TMR_STAT c) TMR_STAT_OUT) ∧
      (∀ a, a ≠ TMR_STAT c → (tmrStop h c).rd a = h.rd a) ∧ (tmrStop h c).mem = h.mem := by
  have hmode : (h.wf (TMR_STAT c) TMR_STAT_RUN 0).rf (TMR_CTL c) TMR_CTL_OMODE = h.rf (TMR_CTL c) TMR_CTL_OMODE := Hw.rf_wf_other _ _ _ _ (TMR_CNT_ne c).2.2.2.2.2.2.2.2
  have hlow : (h.wf (TMR_STAT c) TMR_STAT_RUN 0).tmrRun c = false := Hw.rb_wf_zero _ _ rfl
  unfold tmrStop
  simp only [hmode]
  split
  next h2 =>
    refine ⟨hlow, ?_, fun a ha => Hw.rd_wf_other _ _ _ ha, rfl⟩
    rw [Hw.rb_wf_apart _ _ rfl rfl, h2]
    rfl
  next h2 =>
    refine ⟨(Hw.rb_wf_apart _ _ rfl rfl _).trans hlow, ?_, fun a ha => (Hw.rd_wf_other _ _ _ ha).trans (Hw.rd_wf_other _ _ _ ha), rfl⟩
    rw [Hw.rb_wf_zero _ _ rfl, beq_false_of_ne h2, Bool.false_and]

end

end Sys2Proof.Machine

namespace Sys2Proof.Proofs.Timers
open Sys2Proof Sys2Proof.Machine

section
variable {h : Hw} {c n : Nat}

/-- A source's pending bit is left by what keeps the controller's registers. -/
theorem srcBit_counted (g : Hw) (hc : c < 31) (hn : n < 512) (cnt : W32) : srcBit (counted g c cnt) IRQ_PEND n = srcBit g IRQ_PEND n := by
  have hpend : IRQ_PEND (n / 32) / 0x100000 = 0x20A := IRQ_PEND_block (by omega)
  have hcnt : IRQ_PEND (n / 32) ≠ TMR_CNT c := by
    intro heq
    rw [heq] at hpend
    unfold TMR_CNT at hpend
    omega
  exact srcBit_congr ((rd_tmrOut_other _ _ _ (tmrPlain_of_block hpend c (by omega)).1).trans (Hw.rd_wr_other _ _ hcnt))

theorem srcBit_captures {g k : Hw} (hk : CapturesOnly g k) (hn : n < 512) : srcBit k IRQ_PEND n = srcBit g IRQ_PEND n :=
  srcBit_congr (hk.rd _ (tmrPlain_of_block (IRQ_PEND_block (by omega))))

/-- The link action writes the queue of link operations alone. -/
theorem actLink_eq (g : Hw) (acts lop lch : Nat) : ∃ l, actLink g acts lop lch = { g with tmrLink := l } := by
  unfold actLink
  split
  · exact ⟨_, rfl⟩
  · exact ⟨g.tmrLink, rfl⟩

theorem counted_regsPwrOnly (g : Hw) (c : Nat) (cnt : W32) : RegsPwrOnly g (counted g c cnt) := rfl

/-- The tick of a match keeps the chains and the requests to licensee memory as its actions leave them. -/
theorem counted_captured_rest (h0 g : Hw) (sel : Nat) (cnt : W32) :
    (counted (capOn h0 g sel) c cnt).chains = g.chains ∧ (counted (capOn h0 g sel) c cnt).mreqs = g.mreqs ∧ (counted (capOn h0 g sel) c cnt).tmrLink = g.tmrLink := by
  rw [(capOn_capturesOnly h0 g sel).only.trans (counted_regsPwrOnly _ c cnt)]
  exact ⟨rfl, rfl, rfl⟩

/-- A mark in the channel's status outlives the captures and the count of the tick. -/
theorem rb_counted_mark (g h0 : Hw) (sel : Nat) (cnt : W32) {e : Fld} (he : fldInWord e = true) (hlow : fldApart ⟨0, 2⟩ e = true) (hout : fldApart TMR_STAT_OUT e = true) :
    (counted (capOn h0 g sel) c cnt).rb (TMR_STAT c) e = g.rb (TMR_STAT c) e := by
  have hcnt : TMR_STAT c ≠ TMR_CNT c := (TMR_CNT_ne c).2.1
  exact congrArg (· == 1) ((rf_tmrOut_apart _ _ _ he hout).trans ((Hw.rf_wr_other _ _ _ hcnt).trans ((capOn_capturesOnly h0 g sel).stat c e he hlow)))

/-- An action set that is refused for one of its actions leaves that mark, and neither chains nor requests. -/
theorem refused_rest (h : Hw) (c acts lop lch : Nat) {e : Fld} (he : fldInWord e = true) :
    (actLink ((actIrq h c acts).sb (TMR_STAT c) e) acts lop lch).chains = h.chains ∧ (actLink ((actIrq h c acts).sb (TMR_STAT c) e) acts lop lch).mreqs = h.mreqs ∧
      (actLink ((actIrq h c acts).sb (TMR_STAT c) e) acts lop lch).rb (TMR_STAT c) e = true := by
  obtain ⟨l, hl⟩ := actLink_eq ((actIrq h c acts).sb (TMR_STAT c) e) acts lop lch
  have honly := actIrq_regsPwrOnly h c acts
  have hset : ((actIrq h c acts).sb (TMR_STAT c) e).rb (TMR_STAT c) e = true := Hw.rb_sb_same _ _ he
  rw [hl]
  refine ⟨?_, ?_, hset⟩
  · change (actIrq h c acts).chains = h.chains
    rw [honly]
  · change (actIrq h c acts).mreqs = h.mreqs
    rw [honly]

theorem refused_tickKeeps (h : Hw) (hc : c < 32) (acts lop lch : Nat) {e : Fld} (he : e.lo + e.w ≤ 5) :
    TickKeeps h (actLink ((actIrq h c acts).sb (TMR_STAT c) e) acts lop lch) :=
  ((TickKeeps.of_irqKeeps (actIrq_irqKeeps h c acts)).trans (.sb hc _ he)).trans (actLink_tickKeeps _ acts lop lch)

theorem inner_tickKeeps (h : Hw) (c acts lop lch : Nat) : TickKeeps h (actLink (actIrq h c acts) acts lop lch) :=
  (TickKeeps.of_irqKeeps (actIrq_irqKeeps h c acts)).trans (actLink_tickKeeps _ acts lop lch)

/-- The registers of an inner action set outside the interrupt and power controllers are those before it. -/
theorem rd_inner (h : Hw) (acts lop lch : Nat) {a : Nat} (ha : ¬ irqOrPower a) : (actLink (actIrq h c acts) acts lop lch).rd a = h.rd a := by
  obtain ⟨l, hl⟩ := actLink_eq (actIrq h c acts) acts lop lch
  rw [hl]
  exact (actIrq_irqKeeps h c acts).rd a ha

theorem tickKeeps_capOn {g : Hw} (hk : TickKeeps h g) (h0 : Hw) (sel : Nat) : TickKeeps h (capOn h0 g sel) := hk.trans (.of_captures (capOn_capturesOnly h0 g sel))

/-- The interrupt of an inner action set is pending after its tick (R357, R383). -/
theorem inner_fires (hc : c < 31) {acts : Nat} (lop lch : Nat) (hirq : bit acts 0 = true) (hheld : grpClaimed h ((416 + c) / 32) = false)
    (hpend : srcBit h IRQ_PEND (416 + c) = false) (hact : srcBit h IRQ_ACT (416 + c) = false) :
    srcBit (actLink (actIrq h c acts) acts lop lch) IRQ_PEND (416 + c) = true := by
  obtain ⟨l, hl⟩ := actLink_eq (actIrq h c acts) acts lop lch
  rw [hl]
  exact actIrq_pends hc hirq hheld hpend hact

theorem srcBit_wrappedBy (g : Hw) (hc : c < 31) (hn : n < 512) (m : Bool) : srcBit (wrappedBy g c m) IRQ_PEND n = srcBit g IRQ_PEND n := by
  have hpend : IRQ_PEND (n / 32) / 0x100000 = 0x20A := IRQ_PEND_block (by omega)
  have hne : IRQ_PEND (n / 32) ≠ TMR_CNT c ∧ IRQ_PEND (n / 32) ≠ TMR_CMP c := by
    unfold IRQ_PEND TMR_CNT TMR_CMP
    omega
  exact srcBit_congr ((rd_tmrOut_other _ _ _ (tmrPlain_of_block hpend c (by omega)).1).trans ((Hw.rd_wr_other _ _ hne.2).trans (Hw.rd_wr_other _ _ hne.1)))

theorem srcBit_tmrStop (g : Hw) (hc : c < 31) (hn : n < 512) : srcBit (tmrStop g c) IRQ_PEND n = srcBit g IRQ_PEND n :=
  srcBit_congr ((tmrStop_fields g c).2.2.1 _ (tmrPlain_of_block (IRQ_PEND_block (by omega)) c (by omega)).1)

/-- The block that the actions of a wrapping tick leave, when none of them reaches beyond the timers (R380, R383). -/
theorem wrapActs_inner (hc : c < 31) {m : Bool}
    (hmatch : m = true → bit (h.rf (TMR_ACT c) TMR_ACT_MACT) 1 = false ∧ bit (h.rf (TMR_ACT c) TMR_ACT_MACT) 2 = false)
    (hwrap : bit (h.rf (TMR_ACT c) TMR_ACT_OACT) 1 = false ∧ bit (h.rf (TMR_ACT c) TMR_ACT_OACT) 2 = false) :
    TickKeeps h (wrapActs (if m then matchActs h c else h) c) ∧
      (m = false → bit (h.rf (TMR_ACT c) TMR_ACT_OACT) 0 = true → grpClaimed h ((416 + c) / 32) = false → srcBit h IRQ_PEND (416 + c) = false →
        srcBit h IRQ_ACT (416 + c) = false → srcBit (wrapActs (if m then matchActs h c else h) c) IRQ_PEND (416 + c) = true) := by
  have hfirst : TickKeeps h (if m then matchActs h c else h) := by
    split
    next hset =>
      obtain ⟨h1, h2⟩ := hmatch hset
      rw [matchActs, tmrActs_inner h1 h2]
      exact tickKeeps_capOn (inner_tickKeeps h c _ _ _) h _
    · exact .refl h
  have hact : (if m then matchActs h c else h).rd (TMR_ACT c) = h.rd (TMR_ACT c) := (hfirst.regs (by omega)).2.2.2.2.1
  have hfld : ∀ f, (if m then matchActs h c else h).rf (TMR_ACT c) f = h.rf (TMR_ACT c) f := fun f => congrArg (fldGet f) hact
  rw [wrapActs, hfld, hfld, hfld, tmrActs_inner hwrap.1 hwrap.2]
  refine ⟨hfirst.trans (inner_tickKeeps _ c _ _ _), fun hno hirq hheld hpend hactive => ?_⟩
  rw [hno]
  exact inner_fires hc _ _ hirq hheld hpend hactive

end

/-- Settles O41: a match is one count from its actions, and a wrap one return to zero from its own. -/
theorem timersMatchAndWrap : Obligations.TimersMatchAndWrap := by
  unfold Obligations.TimersMatchAndWrap
  intro s c hp hc hrun hgate h m o mode out inner fired
  refine ⟨?_, ?_⟩
  · intro hmatch hwrap counted'
    have hcounted : ∀ {g : Hw}, TickKeeps h g → counted' (counted (capOn h g (0x20 + c)) c (h.rd (TMR_CNT c))) := by
      intro g hk
      obtain ⟨hcnt, hcmp, hkrun, hout⟩ := counted_fields (c := c) (by omega) (tickKeeps_capOn hk h (0x20 + c))
      exact ⟨hcnt, hcmp, hkrun.trans hrun, hout⟩
    have heq := timerMatch_counts hc hrun hgate hmatch hwrap
    rw [matchActs] at heq
    refine ⟨fun hinner => ?_, fun hconv hmove hchain => ?_, fun hconv hmove hbusy => ?_, fun hconv hmove hfree hregion => ?_⟩ <;>
      refine (gives_iff_of_onIsland rfl hp).mpr ?_ <;> rw [heq]
    · rw [tmrActs_inner hinner.1 hinner.2]
      have hk := inner_tickKeeps h c m (h.rf (TMR_ACT c) TMR_ACT_MLOP) (h.rf (TMR_ACT c) TMR_ACT_MLCH)
      obtain ⟨-, -, hlink⟩ := counted_captured_rest (c := c) h (actLink (actIrq h c m) m (h.rf (TMR_ACT c) TMR_ACT_MLOP) (h.rf (TMR_ACT c) TMR_ACT_MLCH)) (0x20 + c)
        (h.rd (TMR_CNT c))
      refine ⟨hcounted hk, (tickKeeps_capOn hk h (0x20 + c)).mem, fun hirq hheld hpend hact => ?_, ?_, fun d hd => ?_⟩
      · rw [srcBit_counted _ hc (by omega), srcBit_captures (capOn_capturesOnly h _ _) (by omega)]
        exact inner_fires hc _ _ hirq hheld hpend hact
      · refine hlink.trans ((tmrLink_actLink _ _ _ _).trans ?_)
        rw [actIrq_regsPwrOnly h c m]
      · have hcap : TMR_CAP d ≠ TMR_STAT c ∧ TMR_CAP d ≠ TMR_CNT c := by
          unfold TMR_CAP TMR_STAT TMR_CNT
          omega
        obtain ⟨-, -, -, -, hctl, -, -, -, -, hpage⟩ := TMR_page (c := d) (by omega)
        have hsel : (actLink (actIrq h c m) m (h.rf (TMR_ACT c) TMR_ACT_MLOP) (h.rf (TMR_ACT c) TMR_ACT_MLCH)).rf (TMR_CTL d) TMR_CTL_CAPSEL =
            h.rf (TMR_CTL d) TMR_CTL_CAPSEL := congrArg (fldGet TMR_CTL_CAPSEL) (rd_inner h m _ _ (not_irqOrPower_of_timer hctl))
        refine (rd_tmrOut_other _ _ _ hcap.1).trans ((Hw.rd_wr_other _ _ hcap.2).trans ((rd_cap_capOn h _ _ hd).trans ?_))
        rw [hsel, rd_inner h m _ _ (not_irqOrPower_of_timer hpage)]
    · rw [tmrActs_tref (by omega) hconv hmove _ _ hchain]
      obtain ⟨hchains, -, hmark⟩ := refused_rest h c m (h.rf (TMR_ACT c) TMR_ACT_MLOP) (h.rf (TMR_ACT c) TMR_ACT_MLCH) (e := TMR_STAT_TREF) rfl
      exact ⟨hcounted (refused_tickKeeps h (by omega) _ _ _ (by decide)), (rb_counted_mark _ h _ _ rfl rfl rfl).trans hmark, (counted_captured_rest h _ _ _).1.trans hchains⟩
    · rw [tmrActs_movovf hconv hmove _ _ hbusy]
      obtain ⟨-, hreqs, hmark⟩ := refused_rest h c m (h.rf (TMR_ACT c) TMR_ACT_MLOP) (h.rf (TMR_ACT c) TMR_ACT_MLCH) (e := TMR_STAT_MOVOVF) rfl
      exact ⟨hcounted (refused_tickKeeps h (by omega) _ _ _ (by decide)), (rb_counted_mark _ h _ _ rfl rfl rfl).trans hmark, (counted_captured_rest h _ _ _).2.1.trans hreqs⟩
    · rw [tmrActs_merr (by omega) hconv hmove _ _ hfree hregion]
      obtain ⟨-, hreqs, hmark⟩ := refused_rest h c m (h.rf (TMR_ACT c) TMR_ACT_MLOP) (h.rf (TMR_ACT c) TMR_ACT_MLCH) (e := TMR_STAT_MERR) rfl
      exact ⟨hcounted (refused_tickKeeps h (by omega) _ _ _ (by decide)), (rb_counted_mark _ h _ _ rfl rfl rfl).trans hmark, (counted_captured_rest h _ _ _).2.1.trans hreqs⟩
  · intro hwrap hinner hmatch wrapped
    obtain ⟨hk, hfire⟩ := wrapActs_inner hc (m := h.rd (TMR_CNT c) == h.rd (TMR_CMP c)) (fun hset => hmatch (beq_iff_eq.mp hset).symm) hinner
    have heq := timerWrap_wraps hc hrun hgate hwrap (m := h.rd (TMR_CNT c) == h.rd (TMR_CMP c)) rfl
    generalize hg : wrapActs (if (h.rd (TMR_CNT c) == h.rd (TMR_CMP c)) then matchActs h c else h) c = g at hk hfire heq
    obtain ⟨hcnt, hcmp, hkrun, hctl, hmem⟩ := wrappedBy_fields (c := c) (by omega) hk (h.rd (TMR_CNT c) == h.rd (TMR_CMP c))
    have hfired : bit o 0 = true → h.rd (TMR_CMP c) ≠ h.rd (TMR_CNT c) → fired (416 + c) g := fun hirq hne hheld hpend hact =>
      hfire (beq_eq_false_iff_ne.mpr hne.symm) hirq hheld hpend hact
    have hkeep := fun n hn => srcBit_wrappedBy (n := n) g hc hn (h.rd (TMR_CNT c) == h.rd (TMR_CMP c))
    generalize wrappedBy g c (h.rd (TMR_CNT c) == h.rd (TMR_CMP c)) = w at heq hcnt hcmp hkrun hctl hmem hkeep
    have hos : w.rb (TMR_CTL c) TMR_CTL_OS = h.rb (TMR_CTL c) TMR_CTL_OS := congrArg (fun x => fldGet TMR_CTL_OS x == 1) hctl
    dsimp only at heq
    rw [hos] at heq
    refine ⟨fun hperiodic => ?_, fun honce => ?_⟩ <;> refine (gives_iff_of_onIsland rfl hp).mpr ?_
    · rw [heq, hperiodic, if_neg Bool.false_ne_true]
      refine ⟨⟨hcnt, hcmp, fun hirq hne hheld hpend hact => ?_, hmem⟩, hkrun.trans hrun⟩
      exact (hkeep _ (by omega)).trans (hfired hirq hne hheld hpend hact)
    · rw [heq, honce, if_pos rfl]
      obtain ⟨hstop, hout, hrd, hsmem⟩ := tmrStop_fields w c
      obtain ⟨-, -, -, hcnts, hcmps, -⟩ := TMR_CNT_ne c
      refine ⟨⟨(hrd _ hcnts).trans hcnt, (hrd _ hcmps).trans hcmp, fun hirq hne hheld hpend hact => ?_, hsmem.trans hmem⟩, hstop, fun hmode => ?_⟩
      · exact (srcBit_tmrStop w hc (by omega)).trans ((hkeep _ (by omega)).trans (hfired hirq hne hheld hpend hact))
      · have hm2 : w.rf (TMR_CTL c) TMR_CTL_OMODE = mode := congrArg (fldGet TMR_CTL_OMODE) hctl
        rw [hout, hm2, beq_false_of_ne hmode, Bool.false_and]

end Sys2Proof.Proofs.Timers
end

section
/-!
SUPPORT. Commands of the timer channels (R381, R385 to R389): START and STOP, link operations, staggers, the edges of tgate, and a read of TMR_CAP.
-/
namespace Sys2Proof.Machine

section
variable {h : Hw} {c : Nat}

/-! ### START, STOP and their grants (R381) -/

theorem tmrStart_permitted (hcfg : tmrCfgErr h c = false) : tmrStart h c = ((h.wr (TMR_CNT c) 0).wr (TMR_CMP c) (h.rd (TMR_PRE c))).sb (TMR_STAT c) TMR_STAT_RUN := by
  rw [tmrStart, hcfg]
  rfl

theorem tmrStart_refused (hcfg : tmrCfgErr h c = true) : tmrStart h c = h.sb (TMR_STAT c) TMR_STAT_CFGERR := if_pos hcfg

/-- What a started channel shows. -/
theorem tmrStart_fields (hcfg : tmrCfgErr h c = false) : (tmrStart h c).rd (TMR_CNT c) = 0 ∧ (tmrStart h c).rd (TMR_CMP c) = h.rd (TMR_PRE c) ∧
    (tmrStart h c).tmrRun c = true ∧ (∀ a, a ≠ TMR_CNT c → a ≠ TMR_CMP c → a ≠ TMR_STAT c → (tmrStart h c).rd a = h.rd a) ∧
    RegsPwrOnly h (tmrStart h c) := by
  obtain ⟨-, -, -, hcnts, hcmps, hcntcmp, -, -, -⟩ := TMR_CNT_ne c
  rw [tmrStart_permitted hcfg]
  refine ⟨?_, ?_, Hw.rb_sb_same _ _ rfl, fun a h1 h2 h3 => ?_, rfl⟩
  · exact (Hw.rd_wf_other _ _ _ hcnts).trans ((Hw.rd_wr_other _ _ hcntcmp).trans (Hw.rd_wr_same _ _ _))
  · exact (Hw.rd_wf_other _ _ _ hcmps).trans (Hw.rd_wr_same _ _ _)
  · exact (Hw.rd_wf_other _ _ _ h3).trans ((Hw.rd_wr_other _ _ h2).trans (Hw.rd_wr_other _ _ h1))

theorem tmrStop_regsPwrOnly (h : Hw) (c : Nat) : RegsPwrOnly h (tmrStop h c) := by
  unfold tmrStop
  extract_lets h1
  split <;> rfl

section
variable {w : Who} {v : W32} (hc : c < 31)
include hc

theorem tmrCmdWrite_start (hheld : h.holds (TMR_CLAIM c) w = true) (hstart : fldGet TMR_CMD_START v = 1) (hstop : fldGet TMR_CMD_STOP v = 0) :
    tmrCmdWrite h c w v = tmrStart h c := by simp [tmrCmdWrite, show ¬ c ≥ 32 by omega, hheld, hstart, hstop]

theorem tmrCmdWrite_stop (hheld : h.holds (TMR_CLAIM c) w = true) (hstart : fldGet TMR_CMD_START v = 0) (hstop : fldGet TMR_CMD_STOP v = 1) :
    tmrCmdWrite h c w v = tmrStop h c := by simp [tmrCmdWrite, show ¬ c ≥ 32 by omega, hheld, hstart, hstop]

theorem tmrCmdWrite_foreign (hheld : h.holds (TMR_CLAIM c) w = false) : tmrCmdWrite h c w v = h.sb (TMR_STAT c) TMR_STAT_CLAIM := by
  simp [tmrCmdWrite, show ¬ c ≥ 32 by omega, hheld]

end

/-! ### A link operation (R386) -/

theorem timerLinkOperation_cons {op : Nat} {rest : List (Nat × Nat)} (hlink : h.tmrLink = (op, c) :: rest) :
    timerLinkOperation h = tmrLinkOp { h with tmrLink := rest } op c := by rw [timerLinkOperation, hlink]

theorem tmrLinkOp_channel (hc : c < 31) (op : Nat) : tmrLinkOp h op c =
    match op with
    | 0 => tmrStart h c
    | 1 => tmrStop h c
    | 2 => tmrCapture h c (h.rd (TMR_CNT c))
    | _ => h := if_neg (by omega)

/-! ### Edges of tgate (R388) -/

/-- The capture event of an edge of tgate[i], if it has one. -/
def edgeSel (levels old i : Nat) : Option Nat :=
  if bit levels i && !bit old i then some (i + 1) else if !bit levels i && bit old i then some (i + 9) else none

/-- One synchronised input. -/
def edgeStep (h0 : Hw) (levels old : Nat) (g : Hw) (i : Nat) : Hw :=
  match edgeSel levels old i with
  | some sel => capOn h0 g sel
  | none => g

theorem timerCapture_eq (levels : Nat) (hsel : h.rf (TMR_CTL c) TMR_CTL_CAPSEL < 0x20) :
    timerCapture c levels h = (List.range 8).foldl (edgeStep h levels h.tgate) { h with tgate := levels % 256 } := by
  have hstep : (fun (g : Hw) i => if bit levels i && !bit h.tgate i then capOn h g (i + 1) else if !bit levels i && bit h.tgate i then capOn h g (i + 9) else g) =
      edgeStep h levels h.tgate := by
    funext g i
    unfold edgeStep edgeSel
    split
    · rfl
    · split <;> rfl
  have hno : ¬ (c < 31 ∧ 0x20 ≤ h.rf (TMR_CTL c) TMR_CTL_CAPSEL ∧ h.rf (TMR_CTL c) TMR_CTL_CAPSEL ≤ 0x3F) := by omega
  rw [timerCapture]
  simp only [hno, if_false, hstep]

theorem foldl_edgeStep_capturesOnly (h0 : Hw) (levels old n : Nat) (h : Hw) : CapturesOnly h ((List.range n).foldl (edgeStep h0 levels old) h) :=
  List.foldlRecOn (motive := CapturesOnly h) _ _ (.refl h) fun g hg i _ => by
    unfold edgeStep
    split
    · exact hg.trans (capOn_capturesOnly h0 g _)
    · exact hg

/-- A channel captures at the one edge that it selects, and at no other. -/
theorem foldl_edgeStep_channel (h0 h : Hw) {levels old k : Nat} (hc : c < 31)
    (hother : ∀ i, i < 8 → i ≠ k → edgeSel levels old i ≠ some (h.rf (TMR_CTL c) TMR_CTL_CAPSEL)) {n : Nat} (hn : n ≤ 8) :
    ((List.range n).foldl (edgeStep h0 levels old) h).rd (TMR_STAT c) =
        (if k < n ∧ edgeSel levels old k = some (h.rf (TMR_CTL c) TMR_CTL_CAPSEL) then capStat (h.rd (TMR_STAT c)) else h.rd (TMR_STAT c)) ∧
      ((List.range n).foldl (edgeStep h0 levels old) h).rd (TMR_CAP c) =
        (if k < n ∧ edgeSel levels old k = some (h.rf (TMR_CTL c) TMR_CTL_CAPSEL) then h0.rd (TMR_CNT c) else h.rd (TMR_CAP c)) := by
  induction n with
  | zero => simp
  | succ n ih =>
    obtain ⟨hstat, hcap⟩ := ih (by omega)
    have hctl : ((List.range n).foldl (edgeStep h0 levels old) h).rf (TMR_CTL c) TMR_CTL_CAPSEL = h.rf (TMR_CTL c) TMR_CTL_CAPSEL :=
      congrArg (fldGet TMR_CTL_CAPSEL) ((foldl_edgeStep_capturesOnly h0 levels old n h).rd _ (tmrPlain_regs c).2.2.2.2.1)
    rw [List.range_succ, List.foldl_concat]
    have hnone : edgeSel levels old n ≠ some (h.rf (TMR_CTL c) TMR_CTL_CAPSEL) →
        (edgeStep h0 levels old ((List.range n).foldl (edgeStep h0 levels old) h) n).rd (TMR_STAT c) = ((List.range n).foldl (edgeStep h0 levels old) h).rd (TMR_STAT c) ∧
          (edgeStep h0 levels old ((List.range n).foldl (edgeStep h0 levels old) h) n).rd (TMR_CAP c) = ((List.range n).foldl (edgeStep h0 levels old) h).rd (TMR_CAP c) := by
      intro hsel
      unfold edgeStep
      split
      next sel hs =>
        have hne : ((List.range n).foldl (edgeStep h0 levels old) h).rf (TMR_CTL c) TMR_CTL_CAPSEL ≠ sel := fun heq => hsel (hs.trans (congrArg some (heq.symm.trans hctl)))
        exact ⟨(rd_stat_capOn h0 _ sel hc).trans (if_neg hne), (rd_cap_capOn h0 _ sel hc).trans (if_neg hne)⟩
      next => exact ⟨rfl, rfl⟩
    by_cases hk : n = k
    · subst hk
      rw [if_neg (by omega)] at hstat hcap
      by_cases hsel : edgeSel levels old n = some (h.rf (TMR_CTL c) TMR_CTL_CAPSEL)
      · have hedge : edgeStep h0 levels old ((List.range n).foldl (edgeStep h0 levels old) h) n =
            capOn h0 ((List.range n).foldl (edgeStep h0 levels old) h) (h.rf (TMR_CTL c) TMR_CTL_CAPSEL) := by rw [edgeStep, hsel]
        rw [hedge, rd_stat_capOn h0 _ _ hc, rd_cap_capOn h0 _ _ hc, if_pos hctl, if_pos hctl, if_pos ⟨Nat.lt_succ_self n, hsel⟩, if_pos ⟨Nat.lt_succ_self n, hsel⟩, hstat]
        exact ⟨rfl, rfl⟩
      · obtain ⟨h1, h2⟩ := hnone hsel
        rw [h1, h2, hstat, hcap, if_neg (fun hall => hsel hall.2), if_neg (fun hall => hsel hall.2)]
        exact ⟨rfl, rfl⟩
    · obtain ⟨h1, h2⟩ := hnone (hother n (by omega) hk)
      have hlt : k < n + 1 ↔ k < n := by omega
      simp only [hlt]
      exact ⟨h1.trans hstat, h2.trans hcap⟩

/-- Without an edge no channel captures. -/
theorem foldl_edgeStep_level (h0 h : Hw) {levels old : Nat} (hsame : ∀ i, i < 8 → bit levels i = bit old i) : (List.range 8).foldl (edgeStep h0 levels old) h = h :=
  List.foldlRecOn (motive := fun g : Hw => g = h) _ _ rfl fun g hg i hi => by
    have hnone : edgeSel levels old i = none := by
      rw [edgeSel, hsame i (List.mem_range.mp hi)]
      cases bit old i <;> rfl
    rw [edgeStep, hnone]
    exact hg

/-- What a capture shows of its channel, in its registers. -/
theorem captured_of_regs {g : Hw} (hstat : g.rd (TMR_STAT c) = capStat (h.rd (TMR_STAT c))) :
    g.rb (TMR_STAT c) TMR_STAT_CAPF = true ∧
      g.rb (TMR_STAT c) TMR_STAT_CAPOVR = (h.rb (TMR_STAT c) TMR_STAT_CAPF || h.rb (TMR_STAT c) TMR_STAT_CAPOVR) := by
  rw [Hw.rb, Hw.rb, Hw.rf, Hw.rf, hstat, fldGet_capf_capStat, fldGet_capovr_capStat]
  exact ⟨rfl, rfl⟩

/-! ### A stagger (R387) -/

/-- One channel of a stagger. -/
def stagStep (f n p : Nat) (h : Hw) (m : Nat) : Hw :=
  (((h.wr (TMR_PER (f + m)) (BitVec.ofNat 32 (p - 1))).wr (TMR_CMP (f + m)) (h.rd (TMR_PRE (f + m)))).wr (TMR_CNT (f + m)) (BitVec.ofNat 32 ((p - m * p / n) % p))).sb
    (TMR_STAT (f + m)) TMR_STAT_RUN

/-- What a stagger of the channels f to f + m - 1 leaves. -/
structure Staggered (f n p m : Nat) (h g : Hw) : Prop where
  pre : ∀ d, g.rd (TMR_PRE d) = h.rd (TMR_PRE d)
  per : ∀ k, k < m → g.rd (TMR_PER (f + k)) = BitVec.ofNat 32 (p - 1)
  cmp : ∀ k, k < m → g.rd (TMR_CMP (f + k)) = h.rd (TMR_PRE (f + k))
  cnt : ∀ k, k < m → g.rd (TMR_CNT (f + k)) = BitVec.ofNat 32 ((p - k * p / n) % p)
  run : ∀ k, k < m → g.tmrRun (f + k) = true
  other : ∀ d, d < f ∨ f + m ≤ d → g.rd (TMR_CNT d) = h.rd (TMR_CNT d) ∧ g.rd (TMR_STAT d) = h.rd (TMR_STAT d)

/-- A step of a stagger keeps the registers but four of its own channel. -/
theorem rd_stagStep_other (f n p m : Nat) {a : Nat} (hper : a ≠ TMR_PER (f + m)) (hcmp : a ≠ TMR_CMP (f + m)) (hcnt : a ≠ TMR_CNT (f + m)) (hstat : a ≠ TMR_STAT (f + m)) :
    (stagStep f n p h m).rd a = h.rd a :=
  (Hw.rd_wf_other _ _ _ hstat).trans ((Hw.rd_wr_other _ _ hcnt).trans ((Hw.rd_wr_other _ _ hcmp).trans (Hw.rd_wr_other _ _ hper)))

/-- A step of a stagger keeps every register of the other channels. -/
theorem rd_stagStep_channel (f n p m : Nat) {d : Nat} (hd : d ≠ f + m) : (stagStep f n p h m).rd (TMR_PER d) = h.rd (TMR_PER d) ∧
    (stagStep f n p h m).rd (TMR_CMP d) = h.rd (TMR_CMP d) ∧ (stagStep f n p h m).rd (TMR_CNT d) = h.rd (TMR_CNT d) ∧
    (stagStep f n p h m).rd (TMR_STAT d) = h.rd (TMR_STAT d) := by
  refine ⟨rd_stagStep_other _ _ _ _ ?_ ?_ ?_ ?_, rd_stagStep_other _ _ _ _ ?_ ?_ ?_ ?_, rd_stagStep_other _ _ _ _ ?_ ?_ ?_ ?_, rd_stagStep_other _ _ _ _ ?_ ?_ ?_ ?_⟩ <;>
    simp only [TMR_PER, TMR_CMP, TMR_CNT, TMR_STAT, ne_eq] <;> omega

/-- What a step of a stagger sets in its own channel. -/
theorem rd_stagStep_own (f n p m : Nat) : (stagStep f n p h m).rd (TMR_PER (f + m)) = BitVec.ofNat 32 (p - 1) ∧
    (stagStep f n p h m).rd (TMR_CMP (f + m)) = h.rd (TMR_PRE (f + m)) ∧ (stagStep f n p h m).rd (TMR_CNT (f + m)) = BitVec.ofNat 32 ((p - m * p / n) % p) ∧
    (stagStep f n p h m).tmrRun (f + m) = true := by
  have hne : TMR_PER (f + m) ≠ TMR_CMP (f + m) ∧ TMR_PER (f + m) ≠ TMR_CNT (f + m) ∧ TMR_PER (f + m) ≠ TMR_STAT (f + m) := by
    unfold TMR_PER TMR_CMP TMR_CNT TMR_STAT
    omega
  obtain ⟨hcmpcnt, -, -, hcnts, hcmps, -⟩ := TMR_CNT_ne (f + m)
  refine ⟨?_, ?_, (Hw.rd_wf_other _ _ _ hcnts).trans (Hw.rd_wr_same _ _ _), Hw.rb_sb_same _ _ rfl⟩
  · exact (Hw.rd_wf_other _ _ _ hne.2.2).trans ((Hw.rd_wr_other _ _ hne.2.1).trans ((Hw.rd_wr_other _ _ hne.1).trans (Hw.rd_wr_same _ _ _)))
  · exact (Hw.rd_wf_other _ _ _ hcmps).trans ((Hw.rd_wr_other _ _ hcmpcnt).trans (Hw.rd_wr_same _ _ _))

theorem TMR_PRE_ne (d c : Nat) : TMR_PRE d ≠ TMR_PER c ∧ TMR_PRE d ≠ TMR_CMP c ∧ TMR_PRE d ≠ TMR_CNT c ∧ TMR_PRE d ≠ TMR_STAT c := by
  unfold TMR_PRE TMR_PER TMR_CMP TMR_CNT TMR_STAT
  omega

theorem foldl_stagStep (f n p m : Nat) (h : Hw) : Staggered f n p m h ((List.range m).foldl (stagStep f n p) h) := by
  induction m with
  | zero => exact ⟨fun _ => rfl, fun _ hk => absurd hk (Nat.not_lt_zero _), fun _ hk => absurd hk (Nat.not_lt_zero _), fun _ hk => absurd hk (Nat.not_lt_zero _),
      fun _ hk => absurd hk (Nat.not_lt_zero _), fun _ _ => ⟨rfl, rfl⟩⟩
  | succ m ih =>
    rw [List.range_succ, List.foldl_concat]
    generalize (List.range m).foldl (stagStep f n p) h = g at ih
    obtain ⟨hper, hcmp, hcnt, hrun⟩ := rd_stagStep_own (h := g) f n p m
    have hsplit : ∀ k, k < m + 1 → k < m ∨ k = m := fun k hk => by omega
    have hkeep : ∀ k, k < m → f + k ≠ f + m := fun k hk => by omega
    refine ⟨fun d => ?_, fun k hk => ?_, fun k hk => ?_, fun k hk => ?_, fun k hk => ?_, fun d hd => ?_⟩
    · obtain ⟨h1, h2, h3, h4⟩ := TMR_PRE_ne d (f + m)
      exact (rd_stagStep_other f n p m h1 h2 h3 h4).trans (ih.pre d)
    · rcases hsplit k hk with hlt | rfl
      · exact (rd_stagStep_channel f n p m (hkeep k hlt)).1.trans (ih.per k hlt)
      · exact hper
    · rcases hsplit k hk with hlt | rfl
      · exact (rd_stagStep_channel f n p m (hkeep k hlt)).2.1.trans (ih.cmp k hlt)
      · exact hcmp.trans (ih.pre _)
    · rcases hsplit k hk with hlt | rfl
      · exact (rd_stagStep_channel f n p m (hkeep k hlt)).2.2.1.trans (ih.cnt k hlt)
      · exact hcnt
    · rcases hsplit k hk with hlt | rfl
      · exact (congrArg (fun x => fldGet TMR_STAT_RUN x == 1) (rd_stagStep_channel f n p m (hkeep k hlt)).2.2.2).trans (ih.run k hlt)
      · exact hrun
    · obtain ⟨-, -, h3, h4⟩ := rd_stagStep_channel (h := g) f n p m (d := d) (by omega)
      obtain ⟨i3, i4⟩ := ih.other d (by omega)
      exact ⟨h3.trans i3, h4.trans i4⟩

/-- A write of TMR_STG leaves every other register. -/
theorem rd_wr_stg {a : Nat} (x : W32) (ha : a ≠ TMR_STG) : (h.wr TMR_STG x).rd a = h.rd a := Hw.rd_wr_other _ _ ha

theorem TMR_below_STG {c : Nat} (hc : c < 32) : TMR_CNT c ≠ TMR_STG ∧ TMR_STAT c ≠ TMR_STG ∧ TMR_PRE c ≠ TMR_STG ∧ TMR_CLAIM c ≠ TMR_STG ∧ TMR_CTL c ≠ TMR_STG := by
  unfold TMR_CNT TMR_STAT TMR_PRE TMR_CLAIM TMR_CTL TMR_STG
  omega

/-- The conditions of a stagger (R387). -/
def stagOk (h : Hw) (w : Who) (f n p : Nat) : Bool :=
  decide (2 ≤ n) && decide (f + n ≤ 31) && decide (n ≤ p) &&
    ((List.range n).map (· + f)).all (fun c => h.holds (TMR_CLAIM c) w && h.rf (TMR_CLAIM c) cFEAT == h.rf (TMR_CLAIM f) cFEAT && !h.tmrRun c && h.rf (TMR_CTL c) TMR_CTL_GSEL == 0)

theorem staggerGo_eq {w : Who} {v : W32} (hgo : fldGet TMR_STG_GO v = 1) : staggerGo w v h =
    (let h1 := h.wr TMR_STG (v &&& 0x1F1F)
     let f := fldGet TMR_STG_FIRST v
     let n := fldGet TMR_STG_N v
     let p := (h.rd STG_PER).toNat
     if stagOk h1 w f n p then (List.range n).foldl (stagStep f n p) h1 else h1.sb (TMR_STAT f) TMR_STAT_WREF) := by
  have hper : (h.wr TMR_STG (v &&& 0x1F1F)).rd STG_PER = h.rd STG_PER := rd_wr_stg _ (by decide)
  have hne : fldGet TMR_STG_GO v ≠ 0 := by
    rw [hgo]
    decide
  simp only [staggerGo, hne, if_false, hper]
  change (if (!stagOk (h.wr TMR_STG (v &&& 0x1F1F)) w (fldGet TMR_STG_FIRST v) (fldGet TMR_STG_N v) (h.rd STG_PER).toNat) = true then _ else _) = _
  cases stagOk (h.wr TMR_STG (v &&& 0x1F1F)) w (fldGet TMR_STG_FIRST v) (fldGet TMR_STG_N v) (h.rd STG_PER).toNat <;> rfl

theorem stagOk_of {w : Who} {f n p : Nat} (x : W32) (hn : 2 ≤ n) (hf : f + n ≤ 31) (hp : n ≤ p)
    (hall : ∀ k, k < n → h.holds (TMR_CLAIM (f + k)) w = true ∧ h.rf (TMR_CLAIM (f + k)) cFEAT = h.rf (TMR_CLAIM f) cFEAT ∧ h.tmrRun (f + k) = false ∧
      h.rf (TMR_CTL (f + k)) TMR_CTL_GSEL = 0) : stagOk (h.wr TMR_STG x) w f n p = true := by
  simp only [stagOk, decide_eq_true hn, decide_eq_true hf, decide_eq_true hp, Bool.true_and, List.all_map, List.all_eq_true, List.mem_range, Function.comp_apply]
  intro k hk
  obtain ⟨hheld, hfeat, hrun, hgate⟩ := hall k hk
  obtain ⟨-, hstat, -, hclaim, hctl⟩ := TMR_below_STG (c := k + f) (by omega)
  obtain ⟨-, -, -, hclaimf, -⟩ := TMR_below_STG (c := f) (by omega)
  rw [Nat.add_comm f k] at hheld hfeat hrun hgate
  have hheld' : (h.wr TMR_STG x).holds (TMR_CLAIM (k + f)) w = true := by
    rw [← hheld]
    simp only [Hw.holds, Hw.rf, rd_wr_stg x hclaim]
  have hrun' : (h.wr TMR_STG x).tmrRun (k + f) = false := (congrArg (fun y => fldGet TMR_STAT_RUN y == 1) (rd_wr_stg x hstat)).trans hrun
  rw [hheld', hrun', Hw.rf, Hw.rf, Hw.rf, rd_wr_stg x hclaim, rd_wr_stg x hclaimf, rd_wr_stg x hctl]
  exact Bool.and_eq_true_iff.mpr ⟨Bool.and_eq_true_iff.mpr ⟨Bool.and_eq_true_iff.mpr ⟨rfl, beq_iff_eq.mpr hfeat⟩, rfl⟩, beq_iff_eq.mpr hgate⟩

theorem stagOk_false {w : Who} {f n p : Nat} (hno : n < 2 ∨ 31 < f + n ∨ p < n) : stagOk h w f n p = false := by
  rw [stagOk, Bool.and_eq_false_iff, Bool.and_eq_false_iff, Bool.and_eq_false_iff]
  rcases hno with hn | hf | hp
  · exact .inl (.inl (.inl (decide_eq_false (by omega))))
  · exact .inl (.inl (.inr (decide_eq_false (by omega))))
  · exact .inl (.inr (decide_eq_false (by omega)))

/-! ### A read of TMR_CAP, and the response to a mover write (R385, R389) -/

theorem tmrCapRead_plain (hc : c < 31) : tmrCapRead c false h = { h with busRd := h.rd (TMR_CAP c) }.wf (TMR_STAT c) TMR_STAT_CAPF 0 := by
  simp only [tmrCapRead, show ¬ c ≥ 32 by omega, if_false, Bool.false_eq_true]

theorem tmrCapRead_capture (hc : c < 31) : tmrCapRead c true h = tmrCapture { h with busRd := h.rd (TMR_CAP c) } c (h.rd (TMR_CNT c)) := by
  simp only [tmrCapRead, show ¬ c ≥ 32 by omega, if_false, if_true]
  rfl

/-- The response to a mover write ends it; an error is marked. -/
theorem timerMoverResponse_fields (hmove : (h.tmr c).mover = true) (err : Bool) : ((timerMoverResponse c err h).tmr c).mover = false ∧
    (timerMoverResponse c err h).mreqs = h.mreqs ∧
    (timerMoverResponse c err h).rb (TMR_STAT c) TMR_STAT_MERR = (err || h.rb (TMR_STAT c) TMR_STAT_MERR) := by
  have hidle : ((h.setTmr c { h.tmr c with mover := false }).tmr c).mover = false := congrArg TmrSt.mover (kvGet_kvIns_same _ _ _ _)
  rw [timerMoverResponse, if_pos hmove]
  cases err with
  | false => exact ⟨hidle, rfl, rfl⟩
  | true => exact ⟨hidle, rfl, Hw.rb_sb_same _ _ rfl⟩

end

end Sys2Proof.Machine

namespace Sys2Proof.Proofs.Timers
open Sys2Proof Sys2Proof.Machine

section
variable {h : Hw} {c levels k : Nat}

/-- A capture of one channel, on the tick in which tgate takes new levels. -/
theorem timerCapture_edge (hc : c < 31) (hsel : h.rf (TMR_CTL c) TMR_CTL_CAPSEL < 0x20) (hk : k < 8)
    (hother : ∀ i, i < 8 → i ≠ k → edgeSel levels h.tgate i ≠ some (h.rf (TMR_CTL c) TMR_CTL_CAPSEL)) :
    (timerCapture c levels h).rd (TMR_STAT c) =
        (if edgeSel levels h.tgate k = some (h.rf (TMR_CTL c) TMR_CTL_CAPSEL) then capStat (h.rd (TMR_STAT c)) else h.rd (TMR_STAT c)) ∧
      (timerCapture c levels h).rd (TMR_CAP c) =
        (if edgeSel levels h.tgate k = some (h.rf (TMR_CTL c) TMR_CTL_CAPSEL) then h.rd (TMR_CNT c) else h.rd (TMR_CAP c)) ∧
      (timerCapture c levels h).rd (TMR_CNT c) = h.rd (TMR_CNT c) ∧ (timerCapture c levels h).tgate = levels % 256 := by
  have hcaps := foldl_edgeStep_capturesOnly h levels h.tgate 8 { h with tgate := levels % 256 }
  obtain ⟨hstat, hcap⟩ := foldl_edgeStep_channel h { h with tgate := levels % 256 } (old := h.tgate) hc hother (Nat.le_refl 8)
  simp only [hk, true_and] at hstat hcap
  rw [timerCapture_eq levels hsel]
  refine ⟨hstat, hcap, hcaps.rd _ (tmrPlain_regs c).1, ?_⟩
  rw [hcaps.only]

/-- A channel that selects the rise of tgate[k] selects no other edge. -/
theorem edgeSel_rise_other (old : Nat) (hk : k < 8) {i : Nat} (_ : i < 8) (hi : i ≠ k) : edgeSel levels old i ≠ some (1 + k) := by
  unfold edgeSel
  split
  · simp only [ne_eq, Option.some.injEq]
    omega
  · split
    · simp only [ne_eq, Option.some.injEq]
      omega
    · exact (Option.some_ne_none _).symm

/-- A channel that selects the fall of tgate[k] selects no other edge. -/
theorem edgeSel_fall_other (old : Nat) {i : Nat} (hi8 : i < 8) (hi : i ≠ k) : edgeSel levels old i ≠ some (9 + k) := by
  unfold edgeSel
  split
  · simp only [ne_eq, Option.some.injEq]
    omega
  · split
    · simp only [ne_eq, Option.some.injEq]
      omega
    · exact (Option.some_ne_none _).symm

theorem edgeSel_of_rise {old : Nat} (hnew : bit levels k = true) (hold : bit old k = false) : edgeSel levels old k = some (1 + k) := by
  rw [edgeSel, hnew, hold, Nat.add_comm]
  rfl

theorem edgeSel_of_fall {old : Nat} (hnew : bit levels k = false) (hold : bit old k = true) : edgeSel levels old k = some (9 + k) := by
  rw [edgeSel, hnew, hold, Nat.add_comm 9 k]
  rfl

theorem edgeSel_not_rise {old : Nat} (hno : bit levels k = false ∨ bit old k = true) : edgeSel levels old k ≠ some (1 + k) := by
  have hlow : (bit levels k && !bit old k) = false := by
    rcases hno with h | h <;> rw [h]
    · rfl
    · exact Bool.and_false _
  rw [edgeSel, hlow, if_neg Bool.false_ne_true]
  split
  · simp only [ne_eq, Option.some.injEq]
    omega
  · exact (Option.some_ne_none _).symm

end

/-- Settles O42: each command of a channel by what its function leaves; a stagger channel by channel, and an edge of tgate input by input. -/
theorem timersAreCommandedAndCaptured : Obligations.TimersAreCommandedAndCaptured := by
  unfold Obligations.TimersAreCommandedAndCaptured
  intro s c hc h started stopped captured
  have hstarted : ∀ {g : Hw}, tmrCfgErr g c = false → g.regs = h.regs → g.cfg = h.cfg → g.mem = h.mem → started c (tmrStart g c) := by
    intro g hcfg hregs hcfg' hmem
    obtain ⟨hcnt, hcmp, hrun, -, honly⟩ := tmrStart_fields hcfg
    exact ⟨hcnt, hcmp.trans (Hw.rd_congr hregs hcfg' _), hrun, honly.mem.trans hmem⟩
  have hstopped : ∀ {g : Hw}, g.regs = h.regs → g.cfg = h.cfg → g.mem = h.mem → stopped c (tmrStop g c) := by
    intro g hregs hcfg' hmem
    obtain ⟨hrun, hout, hrd, hsmem⟩ := tmrStop_fields g c
    have hsame : ∀ a, g.rd a = h.rd a := Hw.rd_congr hregs hcfg'
    refine ⟨(hrd _ (TMR_CNT_ne c).2.2.2.1).trans (hsame _), hrun, ?_, hsmem.trans hmem⟩
    rw [hout, Hw.rb, Hw.rb, Hw.rf, Hw.rf, Hw.rf, Hw.rf, hsame, hsame]
  have hcaptured : ∀ {g : Hw}, g.rd (TMR_STAT c) = capStat (h.rd (TMR_STAT c)) → g.rd (TMR_CAP c) = h.rd (TMR_CNT c) → g.rd (TMR_CNT c) = h.rd (TMR_CNT c) → captured c g := by
    intro g hstat hcap hcnt
    obtain ⟨hcapf, hcapovr⟩ := captured_of_regs hstat
    exact ⟨hcap, hcapf, hcapovr, hcnt⟩
  have hcapture : ∀ {g : Hw}, (∀ a, g.rd a = h.rd a) → captured c (tmrCapture g c (h.rd (TMR_CNT c))) := by
    intro g hsame
    refine hcaptured ((rd_stat_tmrCapture _ _ _).trans (congrArg capStat (hsame _))) (rd_cap_tmrCapture _ _ _) ?_
    exact (rd_tmrCapture_other _ _ _ (TMR_CNT_ne c).2.2.2.1 ((tmrPlain_regs c).1 c (by omega)).2).trans (hsame _)
  refine ⟨fun w v hg => ⟨fun hstart hstop hheld => ⟨fun hcfg => ?_, fun hcfg => ?_⟩, fun hstart hstop hheld => ?_, fun hheld => ⟨fun hset => ?_, fun hset => ?_⟩⟩,
    fun hp rest => ⟨fun hlink hcfg => ?_, fun hlink => ?_, fun hlink => ?_, fun op hlink => ?_⟩, ?_, fun hp levels k hk => ⟨fun hsel => ?_, fun hsel hnew hold => ?_⟩,
    fun w hg => ⟨?_, ?_⟩, fun hclk hmove err => ?_⟩
  · rw [gives_iff_of_onWrite rfl hg, whenSet_of_set hstart, tmrCmdWrite_start hc hheld hstart hstop]
    exact hstarted hcfg rfl rfl rfl
  · rw [gives_iff_of_onWrite rfl hg, whenSet_of_set hstart, tmrCmdWrite_start hc hheld hstart hstop]
    exact tmrStart_refused hcfg
  · rw [gives_iff_of_onWrite rfl hg, whenSet_of_set hstop, tmrCmdWrite_stop hc hheld hstart hstop]
    exact hstopped rfl rfl rfl
  · rw [gives_iff_of_onWrite rfl hg, whenSet_of_set hset]
    exact tmrCmdWrite_foreign hc hheld
  · rw [gives_iff_of_onWrite rfl hg, whenSet_of_set hset]
    exact tmrCmdWrite_foreign hc hheld
  · rw [gives_iff_of_onIsland rfl hp, timerLinkOperation_cons hlink, tmrLinkOp_channel hc]
    refine ⟨hstarted (g := { h with tmrLink := rest }) hcfg rfl rfl rfl, ?_⟩
    change (tmrStart { h with tmrLink := rest } c).tmrLink = rest
    rw [(tmrStart_fields (h := { h with tmrLink := rest }) hcfg).2.2.2.2]
  · rw [gives_iff_of_onIsland rfl hp, timerLinkOperation_cons hlink, tmrLinkOp_channel hc]
    refine ⟨hstopped (g := { h with tmrLink := rest }) rfl rfl rfl, ?_⟩
    change (tmrStop { h with tmrLink := rest } c).tmrLink = rest
    rw [tmrStop_regsPwrOnly { h with tmrLink := rest } c]
  · rw [gives_iff_of_onIsland rfl hp, timerLinkOperation_cons hlink, tmrLinkOp_channel hc]
    refine ⟨hcapture (g := { h with tmrLink := rest }) fun _ => rfl, ?_⟩
    change (tmrCapture { h with tmrLink := rest } c (h.rd (TMR_CNT c))).tmrLink = rest
    rw [tmrCapture_regsPwrOnly { h with tmrLink := rest } c]
  · rw [gives_iff_of_onIsland rfl hp, timerLinkOperation_cons hlink]
    exact if_pos (by decide)
  · intro w v hg hgo f n p
    have hlim : p < 2 ^ 32 := (h.rd STG_PER).isLt
    have heq := staggerGo_eq (h := h) (w := w) hgo
    dsimp only at heq
    refine ⟨fun hn hf hp hall => ?_, fun hno => ?_⟩ <;> rw [gives_iff_of_onWrite rfl hg, whenSet_of_set hgo, heq]
    · rw [if_pos (stagOk_of _ hn hf hp hall)]
      have hst := foldl_stagStep f n p n (h.wr TMR_STG (v &&& 0x1F1F))
      refine ⟨fun k hk => ⟨?_, ?_, ?_, hst.run k hk⟩, fun d hd hout => ?_⟩
      · rw [hst.per k hk, BitVec.toNat_ofNat]
        exact Nat.mod_eq_of_lt (by omega)
      · exact (hst.cmp k hk).trans (rd_wr_stg _ (TMR_below_STG (c := f + k) (by omega)).2.2.1)
      · have hlt : (p - k * p / n) % p < p := Nat.mod_lt _ (by omega)
        rw [hst.cnt k hk, BitVec.toNat_ofNat]
        exact Nat.mod_eq_of_lt (by omega)
      · obtain ⟨hcnt, hstat⟩ := hst.other d hout
        obtain ⟨hncnt, hnstat, -⟩ := TMR_below_STG (c := d) (by omega)
        exact ⟨hcnt.trans (rd_wr_stg _ hncnt), hstat.trans (rd_wr_stg _ hnstat)⟩
    · rw [stagOk_false hno, if_neg Bool.false_ne_true]
      refine ⟨Hw.rb_sb_same _ _ rfl, fun d hd => ?_⟩
      obtain ⟨hncnt, hnstat, -⟩ := TMR_below_STG (c := d) (by omega)
      have hne : TMR_CNT d ≠ TMR_STAT f := by
        unfold TMR_CNT TMR_STAT
        omega
      refine ⟨(Hw.rd_wf_other _ _ _ hne).trans (rd_wr_stg _ hncnt), ?_⟩
      exact congrArg (· == 1) ((Hw.rf_stat_wf_apart _ f d rfl rfl 1).trans (congrArg (fldGet TMR_STAT_RUN) (rd_wr_stg _ hnstat)))
  · have hrise : ∀ i, i < 8 → i ≠ k → edgeSel levels h.tgate i ≠ some (h.rf (TMR_CTL c) TMR_CTL_CAPSEL) := fun i hi hne => by
      rw [hsel]
      exact edgeSel_rise_other _ hk hi hne
    obtain ⟨hstat, hcap, hcnt, hgate⟩ := timerCapture_edge (levels := levels) (k := k) hc (by omega) hk hrise
    rw [hsel] at hstat hcap
    refine ⟨fun hnew hold => ?_, fun hno => ?_, fun hsame => ?_⟩ <;> rw [gives_iff_of_onIsland rfl hp]
    · rw [if_pos (edgeSel_of_rise hnew hold)] at hstat hcap
      exact ⟨hcaptured hstat hcap hcnt, hgate⟩
    · rw [if_neg (edgeSel_not_rise hno)] at hstat hcap
      exact ⟨hcap, hstat, hgate⟩
    · exact (timerCapture_eq (h := h) levels (by omega)).trans (foldl_edgeStep_level h _ hsame)
  · have hfall : ∀ i, i < 8 → i ≠ k → edgeSel levels h.tgate i ≠ some (h.rf (TMR_CTL c) TMR_CTL_CAPSEL) := fun i hi hne => by
      rw [hsel]
      exact edgeSel_fall_other _ hi hne
    obtain ⟨hstat, hcap, hcnt, hgate⟩ := timerCapture_edge (levels := levels) (k := k) hc (by omega) hk hfall
    rw [hsel, if_pos (edgeSel_of_fall hnew hold)] at hstat hcap
    rw [gives_iff_of_onIsland rfl hp]
    exact ⟨hcaptured hstat hcap hcnt, hgate⟩
  · rw [gives_iff_of_onRead rfl hg, tmrCapRead_plain hc]
    exact ⟨rfl, Hw.rb_wf_zero _ _ rfl, Hw.rd_wf_other _ _ _ (TMR_CAP_ne_STAT c c), rfl⟩
  · rw [gives_iff_of_onRead rfl hg, tmrCapRead_capture hc]
    refine ⟨?_, hcapture (g := { h with busRd := h.rd (TMR_CAP c) }) fun _ => rfl, (tmrCapture_regsPwrOnly _ _ _).mem⟩
    rw [tmrCapture_regsPwrOnly { h with busRd := h.rd (TMR_CAP c) } c]
  · rw [gives_iff_of_onClock rfl hclk]
    exact timerMoverResponse_fields hmove err

end Sys2Proof.Proofs.Timers
end

section
/-!
SUPPORT. The timebase and the watchdog (R391 to R398): the snapshot of TB, the mark of a wrap, a stage that begins, a service, and window mode.
-/
namespace Sys2Proof.Machine

/-! ### The timebase (R392, R473) -/

section
variable {h : Hw}

/-- Where TB[47:0] has not wrapped, or no frond traces, the mark alone is cleared. -/
theorem tbWrap_quiet (hquiet : h.dbg.wrap = false ∨ ∀ f, f < 2 * h.nRegions → h.rb (DBG_TCTL f) DBG_TCTL_EN = false) :
    tbWrap h = { h with dbg := { h.dbg with wrap := false } } := by
  unfold tbWrap
  split
  next hset =>
    have hnone : ∀ f, f < 2 * h.nRegions → h.rb (DBG_TCTL f) DBG_TCTL_EN = false := hquiet.resolve_left (by simp [hset])
    refine List.foldlRecOn (motive := fun g : Hw => g = { h with dbg := { h.dbg with wrap := false } }) _ _ rfl fun g hg f hf => ?_
    have hoff : g.rb (DBG_TCTL f) DBG_TCTL_EN = false := by
      rw [hg]
      exact hnone f (List.mem_range.mp hf)
    rw [hoff, hg]
    rfl
  next hclear =>
    have hmark : h.dbg.wrap = false := Bool.eq_false_iff.mpr hclear
    rw [← hmark]

end

/-! ### A stage of the watchdog begins (R394) -/

/-- The stage k has begun, with a full count of its period in h, and REQ is as it was. -/
structure StageBegun (k : Nat) (h g : Hw) : Prop where
  stage : g.rf WDT_STAT WDT_STAT_STAGE = k
  cnt : g.rd (TMR_CNT 31) = 0
  lim : g.wdtLim = (h.rd (if k = 1 then WDT_T1 else WDT_T2)).toNat
  req : g.rb WDT_STAT WDT_STAT_REQ = h.rb WDT_STAT WDT_STAT_REQ

section
variable {h g : Hw}

theorem WDT_plain : WDT_STAT ≠ TMR_CNT 31 ∧ TMR_CNT 31 ≠ WDT_STAT ∧ WDT_T1 ≠ WDT_STAT ∧ WDT_T2 ≠ WDT_STAT ∧ WDT_CTL ≠ WDT_STAT ∧ ¬ irqOrPower WDT_STAT ∧
    ¬ irqOrPower WDT_T2 ∧ ¬ irqOrPower WDT_T1 := by
  unfold irqOrPower
  decide

/-- A field of WDT_STAT apart from STAGE is left by a stage that begins. -/
theorem rf_stat_wdtStage (g : Hw) (k : Nat) {f : Fld} (hf : fldInWord f = true) (hapart : fldApart WDT_STAT_STAGE f = true) :
    (wdtStage g k).rf WDT_STAT f = g.rf WDT_STAT f := (Hw.rf_wr_other _ _ _ WDT_plain.1).trans (Hw.rf_wf_apart _ _ hf hapart _)

theorem rd_wdtStage_other (g : Hw) (k : Nat) {a : Nat} (hstat : a ≠ WDT_STAT) (hcnt : a ≠ TMR_CNT 31) : (wdtStage g k).rd a = g.rd a :=
  (Hw.rd_wr_other _ _ hcnt).trans (Hw.rd_wf_other _ _ _ hstat)

theorem wdtStage_begins {k : Nat} (hk : k < 4) (ht1 : g.rd WDT_T1 = h.rd WDT_T1) (ht2 : g.rd WDT_T2 = h.rd WDT_T2)
    (hreq : g.rb WDT_STAT WDT_STAT_REQ = h.rb WDT_STAT WDT_STAT_REQ) : StageBegun k h (wdtStage g k) where
  stage := (Hw.rf_wr_other _ _ _ WDT_plain.1).trans ((Hw.rf_wf_same _ _ rfl _).trans (Nat.mod_eq_of_lt hk))
  cnt := Hw.rd_wr_same _ _ _
  lim := by
    change (g.rd (if k = 1 then WDT_T1 else WDT_T2)).toNat = _
    split
    · rw [ht1]
    · rw [ht2]
  req := (congrArg (· == 1) (rf_stat_wdtStage g k rfl rfl)).trans hreq

/-- A mark in WDT_STAT is no part of what a source's firing is judged on. -/
theorem srcBit_wf_wdtStat (h : Hw) (f : Fld) (x : Nat) {reg : Nat → Nat} {n : Nat} (hreg : reg (n / 32) / 0x100000 = 0x20A) :
    srcBit (h.wf WDT_STAT f x) reg n = srcBit h reg n := by
  refine srcBit_congr (Hw.rd_wf_other _ _ _ ?_)
  unfold WDT_STAT
  omega

/-- Source 447 is an event source of every configuration (R356). -/
theorem watchdogSource (h : Hw) : srcExists h.cfg 447 = true ∧ srcIsLevel h 447 = false := by
  constructor <;> rfl

/-- Source 447 is pending once it has fired, and stays so through a later write of WDT_STAT and a stage that begins. -/
theorem watchdog_fires (f e : Fld) (x y k : Nat) (hheld : grpClaimed h (447 / 32) = false) (hpend : srcBit h IRQ_PEND 447 = false) (hact : srcBit h IRQ_ACT 447 = false) :
    srcBit (wdtStage ((irqFire (h.wf WDT_STAT f x) 447).wf WDT_STAT e y) k) IRQ_PEND 447 = true ∧ srcBit (wdtStage (irqFire (h.wf WDT_STAT f x) 447) k) IRQ_PEND 447 = true := by
  have hstage : ∀ g : Hw, srcBit (wdtStage g k) IRQ_PEND 447 = srcBit g IRQ_PEND 447 := fun g => srcBit_congr (rd_wdtStage_other g k (by decide) (by decide))
  have hfree : grpClaimed (h.wf WDT_STAT f x) (447 / 32) = false := (congrArg (fun v => fldGet cHELD v == 1) (Hw.rd_wf_other _ _ _ (by decide))).trans hheld
  have hfired : srcBit (irqFire (h.wf WDT_STAT f x) 447) IRQ_PEND 447 = true :=
    irqFire_pends (watchdogSource _).1 (watchdogSource _).2 hfree ((srcBit_wf_wdtStat h f x (by decide)).trans hpend) ((srcBit_wf_wdtStat h f x (by decide)).trans hact)
  rw [hstage, hstage, srcBit_wf_wdtStat _ e y (by decide)]
  exact ⟨hfired, hfired⟩

/-- What a firing source leaves of the watchdog. -/
theorem rd_irqFire_plain (h : Hw) (n : Nat) {a : Nat} (ha : ¬ irqOrPower a) : (irqFire h n).rd a = h.rd a := (IrqKeeps.irqFire h n).rd a ha

/-! ### The service (R395, R397) -/

/-- The agent may write WDT_SVC. -/
def wdtMay (h : Hw) (w : Who) : Bool :=
  match w.agent with
  | .frond _ => w.keeperFrond
  | .loader => true
  | .host => w.hostPriv && h.rb WDT_CTL WDT_CTL_HSVC
  | _ => false

theorem wdtMay_iff {w : Who} : wdtMay h w = true ↔
    (∃ f, w.agent = .frond f ∧ w.keeperFrond = true) ∨ w.agent = .loader ∨ (w.agent = .host ∧ w.hostPriv = true ∧ h.rb WDT_CTL WDT_CTL_HSVC = true) := by
  unfold wdtMay
  cases hagent : w.agent with
  | frond f => simp
  | host => simp
  | debugger => simp
  | hw => simp
  | loader => simp

theorem wdtSvc_bad {w : Who} {v : W32} (hbad : v ≠ 0xA55A ∨ wdtMay h w = false) : wdtSvc w v h = h.sb WDT_STAT WDT_STAT_BADKEY := if_pos hbad

/-- The window channel runs: the service is early. -/
theorem wdtSvc_early {w : Who} (hmay : wdtMay h w = true) (hen : h.rb WDT_CTL WDT_CTL_EN = true) (hwin : h.rb WDT_CTL WDT_CTL_WIN = true)
    (hrun : h.tmrRun (28 + h.rf WDT_CTL WDT_CTL_WCH) = true) :
    wdtSvc w 0xA55A h = wdtStage ((irqFire (h.sb WDT_STAT WDT_STAT_EARLY) 447).wf WDT_STAT WDT_STAT_HALTL 0) 2 := by
  have hgood : ¬ ((0xA55A : W32) ≠ 0xA55A ∨ wdtMay h w = false) := by simp [hmay]
  change (if (0xA55A : W32) ≠ 0xA55A ∨ wdtMay h w = false then _ else _) = _
  rw [if_neg hgood, hen, hwin, hrun]
  rfl

/-- A service in time. -/
theorem wdtSvc_inTime {w : Who} (hmay : wdtMay h w = true) (hno : (h.rb WDT_CTL WDT_CTL_WIN && h.tmrRun (28 + h.rf WDT_CTL WDT_CTL_WCH)) = false) :
    wdtSvc w 0xA55A h = wdtService h := by
  have hgood : ¬ ((0xA55A : W32) ≠ 0xA55A ∨ wdtMay h w = false) := by simp [hmay]
  change (if (0xA55A : W32) ≠ 0xA55A ∨ wdtMay h w = false then _ else _) = _
  rw [if_neg hgood, Bool.and_assoc, hno, Bool.and_false, if_neg Bool.false_ne_true]

/-- The watchdog back at the start of stage one. -/
def wdtServed (h : Hw) : Hw := (wdtStage h 1).wf WDT_STAT WDT_STAT_HALTL 0

theorem wdtServed_begins (h : Hw) : StageBegun 1 h (wdtServed h) ∧ (wdtServed h).rb WDT_STAT WDT_STAT_HALTL = false ∧
    ∀ a, a ≠ WDT_STAT → a ≠ TMR_CNT 31 → (wdtServed h).rd a = h.rd a := by
  have hb := wdtStage_begins (h := h) (g := h) (k := 1) (by decide) rfl rfl rfl
  refine ⟨⟨?_, ?_, hb.lim, ?_⟩, Hw.rb_wf_zero _ _ rfl, fun a hs hc => (Hw.rd_wf_other _ _ _ hs).trans (rd_wdtStage_other h 1 hs hc)⟩
  · exact (Hw.rf_wf_apart _ _ rfl rfl _).trans hb.stage
  · exact (Hw.rd_wf_other _ _ _ WDT_plain.2.1).trans hb.cnt
  · exact (Hw.rb_wf_apart _ _ rfl rfl _).trans hb.req

theorem wdtService_plain (hen : h.rb WDT_CTL WDT_CTL_EN = true) (hwin : h.rb WDT_CTL WDT_CTL_WIN = false) : wdtService h = wdtServed h := by
  have hkept : (wdtServed h).rb WDT_CTL WDT_CTL_WIN = false := (congrArg (fun v => fldGet WDT_CTL_WIN v == 1) ((wdtServed_begins h).2.2 WDT_CTL (by decide) (by decide))).trans hwin
  have hen' : (!h.rb WDT_CTL WDT_CTL_EN) = false := by rw [hen]; rfl
  rw [wdtService, hen', if_neg Bool.false_ne_true]
  change (if (wdtServed h).rb WDT_CTL WDT_CTL_WIN then _ else wdtServed h) = _
  rw [hkept, if_neg Bool.false_ne_true]

/-- In window mode a service starts the window channel as a one-shot. -/
theorem wdtService_window (hen : h.rb WDT_CTL WDT_CTL_EN = true) (hwin : h.rb WDT_CTL WDT_CTL_WIN = true) :
    wdtService h = tmrStart ((wdtServed h).sb (TMR_CTL (28 + h.rf WDT_CTL WDT_CTL_WCH)) TMR_CTL_OS) (28 + h.rf WDT_CTL WDT_CTL_WCH) := by
  have hctl : (wdtServed h).rd WDT_CTL = h.rd WDT_CTL := (wdtServed_begins h).2.2 WDT_CTL (by decide) (by decide)
  have hkept : (wdtServed h).rb WDT_CTL WDT_CTL_WIN = true := (congrArg (fun v => fldGet WDT_CTL_WIN v == 1) hctl).trans hwin
  have hwch : (wdtServed h).rf WDT_CTL WDT_CTL_WCH = h.rf WDT_CTL WDT_CTL_WCH := congrArg (fldGet WDT_CTL_WCH) hctl
  have hen' : (!h.rb WDT_CTL WDT_CTL_EN) = false := by rw [hen]; rfl
  rw [wdtService, hen', if_neg Bool.false_ne_true]
  change (if (wdtServed h).rb WDT_CTL WDT_CTL_WIN then tmrStart ((wdtServed h).sb (TMR_CTL (28 + (wdtServed h).rf WDT_CTL WDT_CTL_WCH)) TMR_CTL_OS)
    (28 + (wdtServed h).rf WDT_CTL WDT_CTL_WCH) else wdtServed h) = _
  rw [hkept, if_pos rfl, hwch]

/-- What START judges of a channel hangs on fields that neither the watchdog nor OS touches. -/
theorem tmrCfgErr_congr {c : Nat} (hctl : ∀ f, fldInWord f = true → fldApart TMR_CTL_OS f = true → g.rf (TMR_CTL c) f = h.rf (TMR_CTL c) f)
    (hact : g.rd (TMR_ACT c) = h.rd (TMR_ACT c)) (hclaim : g.rd (TMR_CLAIM c) = h.rd (TMR_CLAIM c)) : tmrCfgErr g c = tmrCfgErr h c := by
  have hfld : ∀ f, g.rf (TMR_ACT c) f = h.rf (TMR_ACT c) f := fun f => congrArg (fldGet f) hact
  have hfeat : g.rf (TMR_CLAIM c) cFEAT = h.rf (TMR_CLAIM c) cFEAT := congrArg (fldGet cFEAT) hclaim
  simp only [tmrCfgErr, hfld, hfeat, hctl TMR_CTL_GSEL rfl rfl, hctl TMR_CTL_CAPSEL rfl rfl]

/-- The window channel after a service. -/
theorem wdtService_window_fields {c : Nat} (hc : c < 31) (hcfg : tmrCfgErr h c = false) (g : Hw) (hg : g = tmrStart ((wdtServed h).sb (TMR_CTL c) TMR_CTL_OS) c) :
    StageBegun 1 h g ∧ g.rb WDT_STAT WDT_STAT_HALTL = false ∧ g.tmrRun c = true ∧ g.rb (TMR_CTL c) TMR_CTL_OS = true ∧ g.rd (TMR_CNT c) = 0 := by
  obtain ⟨hb, hhalt, hrd⟩ := wdtServed_begins h
  have hctls : TMR_CTL c ≠ WDT_STAT ∧ TMR_CTL c ≠ TMR_CNT 31 ∧ TMR_ACT c ≠ WDT_STAT ∧ TMR_ACT c ≠ TMR_CNT 31 ∧ TMR_ACT c ≠ TMR_CTL c ∧ TMR_CLAIM c ≠ WDT_STAT ∧
      TMR_CLAIM c ≠ TMR_CNT 31 ∧ TMR_CLAIM c ≠ TMR_CTL c := by
    unfold TMR_CTL TMR_ACT TMR_CLAIM WDT_STAT TMR_CNT
    omega
  obtain ⟨hctl1, hctl2, hact1, hact2, hact3, hclaim1, hclaim2, hclaim3⟩ := hctls
  have hcfg' : tmrCfgErr ((wdtServed h).sb (TMR_CTL c) TMR_CTL_OS) c = false := by
    refine (tmrCfgErr_congr (fun f hf hapart => ?_) ((Hw.rd_wf_other _ _ _ hact3).trans (hrd _ hact1 hact2)) ((Hw.rd_wf_other _ _ _ hclaim3).trans (hrd _ hclaim1 hclaim2))).trans hcfg
    exact (Hw.rf_wf_apart _ _ hf hapart _).trans (congrArg (fldGet f) (hrd _ hctl1 hctl2))
  obtain ⟨hcnt, -, hrun, hother, honly⟩ := tmrStart_fields hcfg'
  have hne : WDT_STAT ≠ TMR_CNT c ∧ WDT_STAT ≠ TMR_CMP c ∧ WDT_STAT ≠ TMR_STAT c ∧ WDT_STAT ≠ TMR_CTL c ∧ TMR_CNT 31 ≠ TMR_CNT c ∧ TMR_CNT 31 ≠ TMR_CMP c ∧
      TMR_CNT 31 ≠ TMR_STAT c ∧ TMR_CNT 31 ≠ TMR_CTL c ∧ TMR_CTL c ≠ TMR_CNT c ∧ TMR_CTL c ≠ TMR_CMP c ∧ TMR_CTL c ≠ TMR_STAT c := by
    unfold WDT_STAT TMR_CNT TMR_CMP TMR_STAT TMR_CTL
    omega
  obtain ⟨s1, s2, s3, s4, n1, n2, n3, n4, c1, c2, c3⟩ := hne
  subst hg
  have hstat : (tmrStart ((wdtServed h).sb (TMR_CTL c) TMR_CTL_OS) c).rd WDT_STAT = (wdtServed h).rd WDT_STAT := (hother _ s1 s2 s3).trans (Hw.rd_wf_other _ _ _ s4)
  refine ⟨⟨?_, ?_, ?_, ?_⟩, ?_, hrun, ?_, hcnt⟩
  · exact (congrArg (fldGet WDT_STAT_STAGE) hstat).trans hb.stage
  · exact (hother _ n1 n2 n3).trans ((Hw.rd_wf_other _ _ _ n4).trans hb.cnt)
  · rw [honly]
    exact hb.lim
  · exact (congrArg (fun v => fldGet WDT_STAT_REQ v == 1) hstat).trans hb.req
  · exact (congrArg (fun v => fldGet WDT_STAT_HALTL v == 1) hstat).trans hhalt
  · exact (congrArg (fun v => fldGet TMR_CTL_OS v == 1) (hother _ c1 c2 c3)).trans (Hw.rb_sb_same _ _ rfl)

/-! ### Expiries (R394, R398) -/

theorem wdtDue_of {k : Nat} (hen : h.rb WDT_CTL WDT_CTL_EN = true) (hhalt : h.rb WDT_STAT WDT_STAT_HALTL = false) (hlim : h.wdtLim ≤ (h.rd (TMR_CNT 31)).toNat)
    (hstage : h.rf WDT_STAT WDT_STAT_STAGE = k) : wdtDue h k = true := by
  simp only [wdtDue, hen, hhalt, hstage, decide_eq_true hlim, beq_self_eq_true, Bool.not_false, Bool.and_self]

/-- The actions at the end of stage one, on a block whose WDT_STAT has had a bit written. -/
theorem wdtStage1Act_begins (h0 : Hw) (hreq : h.rb WDT_STAT WDT_STAT_REQ = h0.rb WDT_STAT WDT_STAT_REQ) (ht1 : h.rd WDT_T1 = h0.rd WDT_T1) (ht2 : h.rd WDT_T2 = h0.rd WDT_T2) :
    StageBegun 2 h0 (wdtStage1Act h) := by
  obtain ⟨-, -, hne1, hne2, -, hstat, hp2, hp1⟩ := WDT_plain
  refine wdtStage_begins (by decide) ?_ ?_ ?_
  · exact (rd_irqFire_plain _ _ hp1).trans ((Hw.rd_wf_other _ _ _ hne1).trans ht1)
  · exact (rd_irqFire_plain _ _ hp2).trans ((Hw.rd_wf_other _ _ _ hne2).trans ht2)
  · exact (congrArg (fun v => fldGet WDT_STAT_REQ v == 1) (rd_irqFire_plain _ _ hstat)).trans ((Hw.rb_wf_apart _ _ rfl rfl _).trans hreq)

/-- A field of WDT_STAT that the end of stage one leaves. -/
theorem rf_stat_wdtStage1Act {f : Fld} (hf : fldInWord f = true) (hstage : fldApart WDT_STAT_STAGE f = true) :
    (wdtStage1Act h).rf WDT_STAT f = (h.sb WDT_STAT WDT_STAT_S1).rf WDT_STAT f :=
  (rf_stat_wdtStage _ 2 hf hstage).trans (congrArg (fldGet f) (rd_irqFire_plain _ _ WDT_plain.2.2.2.2.2.1))

theorem wdtStage2Act_fields : (wdtStage2Act h).rb WDT_STAT WDT_STAT_REQ = true ∧ (wdtStage2Act h).rf WDT_STAT WDT_STAT_STAGE = 3 ∧
    (wdtStage2Act h).rb WDT_STAT WDT_STAT_HALTL = h.rb WDT_STAT WDT_STAT_HALTL :=
  ⟨Hw.rb_sb_same _ _ rfl, (Hw.rf_wf_apart _ _ rfl rfl _).trans (Hw.rf_wf_same _ _ rfl _), (Hw.rb_wf_apart _ _ rfl rfl _).trans (Hw.rb_wf_apart _ _ rfl rfl _)⟩

/-! ### Window mode (R397) -/

section
variable {w : Who} {v : W32} (hsup : w.keeperSup = true)
include hsup

theorem wdtWinWrite_refused (hset : fldGet WDT_CTL_WIN v = 1) (hheld : winHeld h (fldGet WDT_CTL_WCH v) = false) : wdtWinWrite w v h = h.sb WDT_STAT WDT_STAT_CLAIM := by
  rw [wdtWinWrite, wdtCtlWrite, if_neg (by simp [hsup]), if_pos ⟨hset, hheld⟩]

/-- A write of WIN for a channel held under feature 0x04, with the watchdog on. -/
theorem wdtWinWrite_taken (hheld : winHeld h (fldGet WDT_CTL_WCH v) = true) (hen : h.rb WDT_CTL WDT_CTL_EN = true) :
    wdtWinWrite w v h =
      (((if fldGet WDT_CTL_EN v = 1 then h.sb WDT_CTL WDT_CTL_EN else h).wf WDT_CTL WDT_CTL_HSVC (fldGet WDT_CTL_HSVC v)).wf WDT_CTL WDT_CTL_WIN (fldGet WDT_CTL_WIN v)).wf
        WDT_CTL WDT_CTL_WCH (fldGet WDT_CTL_WCH v) := by
  have hno : ¬ (fldGet WDT_CTL_WIN v = 1 ∧ winHeld h (fldGet WDT_CTL_WCH v) = false) := by simp [hheld]
  rw [wdtWinWrite, wdtCtlWrite, if_neg (by simp [hsup]), if_neg hno, hen]
  rfl

end

theorem winHeld_iff {wch : Nat} : winHeld h wch = true ↔ wch < 3 ∧ h.rf (TMR_CLAIM (28 + wch)) cHELD = 1 ∧ h.rf (TMR_CLAIM (28 + wch)) cFEAT = 4 := by
  simp only [winHeld, Bool.and_eq_true, decide_eq_true_eq, beq_iff_eq, and_assoc]

/-- What window mode shows. -/
theorem wdtCtl_window_fields {v : W32} (hset : fldGet WDT_CTL_WIN v = 1) (hen : h.rb WDT_CTL WDT_CTL_EN = true) (g : Hw)
    (hg : g = ((((if fldGet WDT_CTL_EN v = 1 then h.sb WDT_CTL WDT_CTL_EN else h).wf WDT_CTL WDT_CTL_HSVC (fldGet WDT_CTL_HSVC v)).wf WDT_CTL WDT_CTL_WIN
      (fldGet WDT_CTL_WIN v)).wf WDT_CTL WDT_CTL_WCH (fldGet WDT_CTL_WCH v))) :
    g.rb WDT_CTL WDT_CTL_WIN = true ∧ g.rf WDT_CTL WDT_CTL_WCH = fldGet WDT_CTL_WCH v ∧ g.rb WDT_CTL WDT_CTL_EN = true ∧
      g.rb WDT_CTL WDT_CTL_HSVC = (fldGet WDT_CTL_HSVC v == 1) ∧ g.mem = h.mem := by
  have hen' : (if fldGet WDT_CTL_EN v = 1 then h.sb WDT_CTL WDT_CTL_EN else h).rb WDT_CTL WDT_CTL_EN = true := by
    split
    · exact Hw.rb_sb_same _ _ rfl
    · exact hen
  have hmem : (if fldGet WDT_CTL_EN v = 1 then h.sb WDT_CTL WDT_CTL_EN else h).mem = h.mem := by
    split <;> rfl
  have hbit : fldGet WDT_CTL_HSVC v % 2 ^ WDT_CTL_HSVC.w = fldGet WDT_CTL_HSVC v := fldGet_mod _ rfl _
  subst hg
  refine ⟨?_, ?_, ?_, ?_, hmem⟩
  · rw [hset]
    exact (Hw.rb_wf_apart _ _ rfl rfl _).trans (Hw.rb_sb_same _ _ rfl)
  · exact (Hw.rf_wf_same _ _ rfl _).trans (fldGet_mod _ rfl _)
  · exact (Hw.rb_wf_apart _ _ rfl rfl _).trans ((Hw.rb_wf_apart _ _ rfl rfl _).trans ((Hw.rb_wf_apart _ _ rfl rfl _).trans hen'))
  · refine (Hw.rb_wf_apart _ _ rfl rfl _).trans ((Hw.rb_wf_apart _ _ rfl rfl _).trans ?_)
    exact congrArg (· == 1) ((Hw.rf_wf_same _ _ rfl _).trans hbit)

end

end Sys2Proof.Machine

namespace Sys2Proof.Proofs.Timers
open Sys2Proof Sys2Proof.Machine

/-- Settles O43: a service, an expiry and a release each begin the next stage with a full count; in halt the expiry is only latched, and WIN asks for a held window channel. -/
theorem timebaseAndWatchdog : Obligations.TimebaseAndWatchdog := by
  unfold Obligations.TimebaseAndWatchdog
  intro s h stage fired begins win
  obtain ⟨hstatcnt, -, hstat1, hstat2, hctlstat, hstatp, hp2, hp1⟩ := WDT_plain
  refine ⟨?readLow, ?wrap, ?service, ?expire, ?release, ?window⟩
  case readLow =>
    intro w hg
    rw [gives_iff_of_onRead rfl hg]
    exact ⟨rfl, kvGet_kvIns_same _ _ _ _, fun k hk => kvGet_kvIns_other _ _ _ hk⟩
  case wrap =>
    intro hp hquiet
    rw [gives_iff_of_onIsland rfl hp]
    exact tbWrap_quiet hquiet
  case service =>
    intro w v hg may
    refine ⟨?_, fun hbad => ?_⟩
    · intro hkey hmay hen
      subst hkey
      have hmay' : wdtMay h w = true := wdtMay_iff.mpr hmay
      rw [gives_iff_of_onWrite rfl hg, gives_iff_of_onWrite rfl hg, gives_iff_of_onWrite rfl hg]
      refine ⟨fun hwin => ?_, fun hwin hch hidle hcfg => ?_, fun hwin hrun => ?_⟩
      · rw [wdtSvc_inTime hmay' (by rw [hwin]; rfl), wdtService_plain hen hwin]
        obtain ⟨hb, hhalt, -⟩ := wdtServed_begins h
        exact ⟨⟨hb.stage, hb.cnt, hb.lim, hb.req⟩, hhalt⟩
      · have hno : (h.rb WDT_CTL WDT_CTL_WIN && h.tmrRun win) = false := by rw [hidle, Bool.and_false]
        rw [wdtSvc_inTime hmay' hno, wdtService_window hen hwin]
        obtain ⟨hb, hrest⟩ := wdtService_window_fields hch hcfg _ rfl
        exact ⟨⟨hb.stage, hb.cnt, hb.lim, hb.req⟩, hrest⟩
      · rw [wdtSvc_early hmay' hen hwin hrun]
        have hb : StageBegun 2 h (wdtStage ((irqFire (h.sb WDT_STAT WDT_STAT_EARLY) 447).wf WDT_STAT WDT_STAT_HALTL 0) 2) := by
          refine wdtStage_begins (by decide) ?_ ?_ ?_
          · exact (Hw.rd_wf_other _ _ _ hstat1).trans ((rd_irqFire_plain _ _ hp1).trans (Hw.rd_wf_other _ _ _ hstat1))
          · exact (Hw.rd_wf_other _ _ _ hstat2).trans ((rd_irqFire_plain _ _ hp2).trans (Hw.rd_wf_other _ _ _ hstat2))
          · exact (Hw.rb_wf_apart _ _ rfl rfl _).trans ((congrArg (fun x => fldGet WDT_STAT_REQ x == 1) (rd_irqFire_plain _ _ hstatp)).trans (Hw.rb_wf_apart _ _ rfl rfl _))
        refine ⟨⟨hb.stage, hb.cnt, hb.lim, hb.req⟩, ?_, fun hheld hpend hact => (watchdog_fires _ _ _ _ _ hheld hpend hact).1⟩
        refine (congrArg (· == 1) (rf_stat_wdtStage _ 2 rfl rfl)).trans ((Hw.rb_wf_apart _ _ rfl rfl _).trans ?_)
        exact (congrArg (fun x => fldGet WDT_STAT_EARLY x == 1) (rd_irqFire_plain _ _ hstatp)).trans (Hw.rb_sb_same _ _ rfl)
    · rw [gives_iff_of_onWrite rfl hg]
      exact wdtSvc_bad (hbad.imp_right fun hno => Bool.eq_false_iff.mpr fun hyes => hno (wdtMay_iff.mp hyes))
  case expire =>
    intro hp hen hhaltl hlim
    refine ⟨fun hrun => ⟨fun hst => ?_, fun hst => ?_⟩, fun hhalt => ⟨fun hst => ?_, fun hst => ?_⟩⟩
    · rw [gives_iff_of_onIsland rfl hp, watchdogStage1Expire, if_pos (wdtDue_of hen hhaltl hlim hst), hrun, if_neg Bool.false_ne_true]
      have hb : StageBegun 2 h (wdtStage1Act h) := wdtStage1Act_begins h rfl rfl rfl
      exact ⟨⟨hb.stage, hb.cnt, hb.lim, hb.req⟩, (congrArg (· == 1) (rf_stat_wdtStage1Act rfl rfl)).trans (Hw.rb_sb_same _ _ rfl),
        fun hheld hpend hact => (watchdog_fires _ WDT_STAT_S1 _ 1 _ hheld hpend hact).2⟩
    · rw [gives_iff_of_onIsland rfl hp, watchdogStage2Expire, if_pos (wdtDue_of hen hhaltl hlim hst), hrun, if_neg Bool.false_ne_true]
      exact ⟨wdtStage2Act_fields.1, wdtStage2Act_fields.2.1⟩
    · rw [gives_iff_of_onIsland rfl hp, watchdogStage1Expire, if_pos (wdtDue_of hen hhaltl hlim hst), hhalt, if_pos rfl]
    · rw [gives_iff_of_onIsland rfl hp, watchdogStage2Expire, if_pos (wdtDue_of hen hhaltl hlim hst), hhalt, if_pos rfl]
  case release =>
    intro hp hhaltl hrun
    have hdue : (h.rb WDT_STAT WDT_STAT_HALTL && !wdtHalt h) = true := by rw [hhaltl, hrun]; rfl
    have hstageKept : (h.wf WDT_STAT WDT_STAT_HALTL 0).rf WDT_STAT WDT_STAT_STAGE = stage := Hw.rf_wf_apart _ _ rfl rfl _
    have hclear : (h.wf WDT_STAT WDT_STAT_HALTL 0).rb WDT_STAT WDT_STAT_HALTL = false := Hw.rb_wf_zero _ _ rfl
    refine ⟨fun hst => ?_, fun hst => ?_⟩
    · rw [gives_iff_of_onIsland rfl hp, watchdogHaltRelease, if_pos hdue]
      rw [if_pos (hstageKept.trans hst)]
      have hb : StageBegun 2 h (wdtStage1Act (h.wf WDT_STAT WDT_STAT_HALTL 0)) :=
        wdtStage1Act_begins h (Hw.rb_wf_apart _ _ rfl rfl _) (Hw.rd_wf_other _ _ _ hstat1) (Hw.rd_wf_other _ _ _ hstat2)
      refine ⟨⟨hb.stage, hb.cnt, hb.lim, hb.req⟩, ?_, fun hheld hpend hact => ?_⟩
      · exact (congrArg (· == 1) (rf_stat_wdtStage1Act rfl rfl)).trans ((Hw.rb_wf_apart _ _ rfl rfl _).trans hclear)
      · have hsame := fun {reg : Nat → Nat} (hreg : reg (447 / 32) / 0x100000 = 0x20A) => srcBit_wf_wdtStat h WDT_STAT_HALTL 0 hreg
        exact (watchdog_fires _ WDT_STAT_S1 _ 1 _ ((congrArg (fun x => fldGet cHELD x == 1) (Hw.rd_wf_other _ _ _ (by decide))).trans hheld)
          ((hsame (by decide)).trans hpend) ((hsame (by decide)).trans hact)).2
    · rw [gives_iff_of_onIsland rfl hp, watchdogHaltRelease, if_pos hdue]
      rw [if_neg (by rw [hstageKept, hst]; decide)]
      exact ⟨wdtStage2Act_fields.1, wdtStage2Act_fields.2.2.trans hclear⟩
  case window =>
    intro w v hg hsup hset hen c
    refine ⟨fun hc hheld hfeat => ?_, fun hheld => ?_⟩
    · rw [gives_iff_of_onWrite rfl hg, whenSet_of_set hset, wdtWinWrite_taken hsup (winHeld_iff.mpr ⟨by omega, hheld, hfeat⟩) hen]
      exact wdtCtl_window_fields hset hen _ rfl
    · have hfree : winHeld h (fldGet WDT_CTL_WCH v) = false :=
        Bool.eq_false_iff.mpr fun hyes => absurd ((winHeld_iff.mp hyes).2.1.symm.trans hheld) (by decide)
      rw [gives_iff_of_onWrite rfl hg, whenSet_of_set hset, wdtWinWrite_refused hsup hset hfree]
      exact ⟨congrArg (fun x => fldGet WDT_CTL_WIN x == 1) (Hw.rd_wf_other _ _ _ hctlstat), Hw.rb_sb_same _ _ rfl, rfl⟩

end Sys2Proof.Proofs.Timers
end

section
/-!
SUPPORT. The lichen's proposals (R403 to R410): what the end of a proposal and a failed confirmation write, the digest shown, and the cases of each command.
-/
namespace Sys2Proof.Machine

/-! ### A row of registers written one after the other -/

section
variable {h : Hw} {reg : Nat → Nat} {val : Nat → W32}

/-- The first n registers of a row take their values. -/
def Hw.wrRow (h : Hw) (reg : Nat → Nat) (val : Nat → W32) (n : Nat) : Hw := forEach (List.range n) h (fun h k => h.wr (reg k) (val k))

theorem Hw.wrRow_succ (h : Hw) (reg : Nat → Nat) (val : Nat → W32) (n : Nat) : h.wrRow reg val (n + 1) = (h.wrRow reg val n).wr (reg n) (val n) := by
  rw [wrRow, forEach, List.range_succ, List.foldl_concat]
  rfl

/-- Writing a row changes registers alone. -/
theorem Hw.wrRow_regs (h : Hw) (reg : Nat → Nat) (val : Nat → W32) (n : Nat) : h.wrRow reg val n = { h with regs := (h.wrRow reg val n).regs } := by
  induction n with
  | zero => rfl
  | succ n ih =>
    rw [wrRow_succ, ih]
    rfl

theorem Hw.rd_wrRow_other (h : Hw) (val : Nat → W32) {a n : Nat} (hne : ∀ k, k < n → a ≠ reg k) : (h.wrRow reg val n).rd a = h.rd a := by
  induction n with
  | zero => rfl
  | succ n ih =>
    rw [wrRow_succ, rd_wr_other _ _ (hne n (Nat.lt_succ_self n)), ih fun k hk => hne k (Nat.lt_succ_of_lt hk)]

theorem Hw.rd_wrRow (h : Hw) (val : Nat → W32) {k n : Nat} (hinj : ∀ i j, reg i = reg j → i = j) (hk : k < n) : (h.wrRow reg val n).rd (reg k) = val k := by
  induction n with
  | zero => exact absurd hk (Nat.not_lt_zero k)
  | succ n ih =>
    rw [wrRow_succ]
    rcases Nat.lt_succ_iff_lt_or_eq.mp hk with hlt | rfl
    · rw [rd_wr_other _ _ fun heq => absurd (hinj k n heq) (Nat.ne_of_lt hlt), ih hlt]
    · exact rd_wr_same _ _ _

end

/-! ### The end of a proposal, a failed confirmation, a change of state -/

section
variable {h : Hw}

theorem lcState_wf (h : Hw) {st : Nat} (hst : st < 16) : (h.wf LCH_STAT LCH_STAT_STATE st).lcState = st :=
  (Hw.rf_wf_same _ _ rfl _).trans (Nat.mod_eq_of_lt hst)

/-- The end of a proposal (R410). -/
theorem lchEnd_fields (h : Hw) {last : Nat} (hlast : last < 16) :
    (lchEnd h last).lcState = lcIdle ∧ (lchEnd h last).rf LCH_STAT LCH_STAT_LAST = last ∧ (lchEnd h last).rb LCH_STAT LCH_STAT_DONE = true ∧
      (∀ a, a ≠ LCH_STAT → (lchEnd h last).rd a = h.rd a) ∧ (∀ f, fldInWord f = true → fldApart LCH_STAT_STATE f = true → fldApart LCH_STAT_LAST f = true →
        fldApart LCH_STAT_DONE f = true → (lchEnd h last).rf LCH_STAT f = h.rf LCH_STAT f) := by
  refine ⟨?_, ?_, Hw.rb_sb_same _ _ rfl, fun a ha => ?_, fun f hf hst hl hd => ?_⟩
  · exact (Hw.rf_wf_apart _ _ rfl rfl _).trans ((Hw.rf_wf_apart _ _ rfl rfl _).trans (Hw.rf_wf_same _ _ rfl _))
  · exact (Hw.rf_wf_apart _ _ rfl rfl _).trans ((Hw.rf_wf_same _ _ rfl _).trans (Nat.mod_eq_of_lt hlast))
  · exact (Hw.rd_wf_other _ _ _ ha).trans ((Hw.rd_wf_other _ _ _ ha).trans (Hw.rd_wf_other _ _ _ ha))
  · exact (Hw.rf_wf_apart _ _ hf hd _).trans ((Hw.rf_wf_apart _ _ hf hl _).trans (Hw.rf_wf_apart _ _ hf hst _))

/-- What a failed confirmation shows of its agent and code. -/
structure ConfirmFailed (agent code : Nat) (h g : Hw) : Prop where
  agent : g.rf LCH_CFAIL LCH_CFAIL_AGENT = agent
  code : g.rf LCH_CFAIL LCH_CFAIL_CODE = code
  count : g.rf LCH_CNT LCH_CNT_CFAILS = min 65535 (h.rf LCH_CNT LCH_CNT_CFAILS + 1)
  flag : g.rb LCH_STAT LCH_STAT_CFAIL = true
  mem : g.mem = h.mem

theorem LCH_ne : LCH_CFAIL ≠ LCH_STAT ∧ LCH_CFAIL ≠ LCH_CNT ∧ LCH_CNT ≠ LCH_STAT ∧ LCH_CNT ≠ LCH_CFAIL ∧ LCH_STAT ≠ LCH_CNT ∧ LCH_STAT ≠ LCH_CFAIL := by decide

theorem lchFail_failed (h : Hw) {agent code : Nat} (hagent : agent < 16) (hcode : code < 16) : ConfirmFailed agent code h (lchFail h agent code) := by
  obtain ⟨hfs, hfc, hcs, hcf, -, -⟩ := LCH_ne
  refine ⟨?_, ?_, ?_, Hw.rb_sb_same _ _ rfl, rfl⟩
  · refine (Hw.rf_wf_other _ _ _ _ hfs).trans ((Hw.rf_wf_other _ _ _ _ hfc).trans ((Hw.rf_wf_apart _ _ rfl rfl _).trans ?_))
    exact (Hw.rf_wf_same _ _ rfl _).trans (Nat.mod_eq_of_lt hagent)
  · refine (Hw.rf_wf_other _ _ _ _ hfs).trans ((Hw.rf_wf_other _ _ _ _ hfc).trans ?_)
    exact (Hw.rf_wf_same _ _ rfl _).trans (Nat.mod_eq_of_lt hcode)
  · have hcnt : ((h.wf LCH_CFAIL LCH_CFAIL_AGENT agent).wf LCH_CFAIL LCH_CFAIL_CODE code).rf LCH_CNT LCH_CNT_CFAILS = h.rf LCH_CNT LCH_CNT_CFAILS :=
      (Hw.rf_wf_other _ _ _ _ hcf).trans (Hw.rf_wf_other _ _ _ _ hcf)
    refine (Hw.rf_wf_other _ _ _ _ hcs).trans ((Hw.rf_wf_same _ _ rfl _).trans ?_)
    rw [hcnt]
    exact Nat.mod_eq_of_lt (Nat.lt_of_le_of_lt (Nat.min_le_left _ _) (by decide))

theorem lcState_lchFail (h : Hw) (agent code : Nat) : (lchFail h agent code).lcState = h.lcState := by
  obtain ⟨-, -, -, -, hsc, hsf⟩ := LCH_ne
  exact (Hw.rf_wf_apart _ _ rfl rfl _).trans ((Hw.rf_wf_other _ _ _ _ hsc).trans ((Hw.rf_wf_other _ _ _ _ hsf).trans (Hw.rf_wf_other _ _ _ _ hsf)))

/-- A failure stays visible while only the state of the lichen moves on. -/
theorem ConfirmFailed.of_stat {agent code : Nat} {g g' : Hw} (hfail : ConfirmFailed agent code h g) (hrd : ∀ a, a ≠ LCH_STAT → g'.rd a = g.rd a)
    (hflag : g'.rf LCH_STAT LCH_STAT_CFAIL = g.rf LCH_STAT LCH_STAT_CFAIL) (hmem : g'.mem = g.mem) : ConfirmFailed agent code h g' where
  agent := (congrArg (fldGet _) (hrd _ LCH_ne.1)).trans hfail.agent
  code := (congrArg (fldGet _) (hrd _ LCH_ne.1)).trans hfail.code
  count := (congrArg (fldGet _) (hrd _ LCH_ne.2.2.1)).trans hfail.count
  flag := (congrArg (· == 1) hflag).trans hfail.flag
  mem := hmem.trans hfail.mem

/-! ### PROPOSE and WITHDRAW (R403, R405, R410) -/

section
variable {w : Who} {v : W32}

theorem lchCmdWrite_stranger (hw : w.keeperFrond = false) : lchCmdWrite h w v = h.sb LCH_STAT LCH_STAT_PREF := by
  rw [lchCmdWrite, hw]
  rfl

theorem lchCmdWrite_busy (hw : w.keeperFrond = true) (hp : fldGet LCH_CMD_PROPOSE v = 1) (hnw : fldGet LCH_CMD_WITHDRAW v = 0) (hst : h.lcState ≠ lcIdle) :
    lchCmdWrite h w v = h.sb LCH_STAT LCH_STAT_PREF := by
  simp [lchCmdWrite, hw, hp, hnw, hst]

/-- A proposal made: two draws of the random source give its salt. -/
theorem lchCmdWrite_proposed (hw : w.keeperFrond = true) (hp : fldGet LCH_CMD_PROPOSE v = 1) (hnw : fldGet LCH_CMD_WITHDRAW v = 0) (hst : h.lcState = lcIdle) :
    lchCmdWrite h w v =
      { (({ h with free := h.free + 2 }.wr LCH_PSEQ (h.rd LCH_PSEQ + 1)).wf LCH_STAT LCH_STAT_STATE lcHash).wf LCH_STAT LCH_STAT_ITEM (h.rf LCH_PITEM LCH_PITEM_ITEM) with
        lchSalt := leBytes 8 (Config.freeValue h.free).toNat ++ leBytes 8 (Config.freeValue (h.free + 1)).toNat
        lchArm := h.tb.toNat } := by
  have hno : ¬ (fldGet LCH_CMD_WITHDRAW v = 1 ∧ (h.lcState = lcHash ∨ h.lcState = lcPending)) := by simp [hnw]
  have hyes : (!w.keeperFrond) = false := by rw [hw]; rfl
  unfold lchCmdWrite
  rw [hyes, if_neg Bool.false_ne_true]
  dsimp only
  rw [if_neg hno, if_pos hp, if_pos hst]
  rfl

theorem lchCmdWrite_proposed_fields (hw : w.keeperFrond = true) (hp : fldGet LCH_CMD_PROPOSE v = 1) (hnw : fldGet LCH_CMD_WITHDRAW v = 0) (hst : h.lcState = lcIdle) :
    (lchCmdWrite h w v).lcState = lcHash ∧ (lchCmdWrite h w v).rd LCH_PSEQ = h.rd LCH_PSEQ + 1 ∧
      (lchCmdWrite h w v).rf LCH_STAT LCH_STAT_ITEM = h.rf LCH_PITEM LCH_PITEM_ITEM := by
  rw [lchCmdWrite_proposed hw hp hnw hst]
  refine ⟨?_, ?_, ?_⟩
  · exact (Hw.rf_wf_apart _ _ rfl rfl _).trans (Hw.rf_wf_same _ _ rfl _)
  · exact (Hw.rd_wf_other _ _ _ (by decide)).trans ((Hw.rd_wf_other _ _ _ (by decide)).trans (Hw.rd_wr_same _ _ _))
  · exact (Hw.rf_wf_same _ _ rfl _).trans (fldGet_mod LCH_PITEM_ITEM rfl _)

theorem lchCmdWrite_withdrawn (hw : w.keeperFrond = true) (hp : fldGet LCH_CMD_PROPOSE v = 0) (hwd : fldGet LCH_CMD_WITHDRAW v = 1) :
    lchCmdWrite h w v = if h.lcState = lcHash ∨ h.lcState = lcPending then lchEnd h 3 else h := by
  simp [lchCmdWrite, hw, hp, hwd]

end

/-! ### The digest shown (R405, R406, R409) -/

/-- The digest of the proposal record. -/
def lchDigest (h : Hw) : List Byte := padTo 48 (Config.sha384 (lchRecord h))

/-- Word k of the digest, most significant byte first. -/
def digWord (h : Hw) (k : Nat) : W32 := BitVec.ofNat 32 (beNat (((lchDigest h).drop (4 * k)).take 4))
/-- Word k of the salt, least significant byte first. -/
def saltWord (h : Hw) (k : Nat) : W32 := BitVec.ofNat 32 (leNat ((h.lchSalt.drop (4 * k)).take 4))

/-- The registers of a finished hash. -/
def lchShown (h : Hw) : Hw := (h.wrRow LCH_DIG (digWord h) 12).wrRow LCH_SALT (saltWord h) 4

/-- The salt is no register, so each word of the row finds it as the first did. -/
theorem saltRow_eq (g : Hw) (hg : g.lchSalt = h.lchSalt) :
    forEach (List.range 4) g (fun h k => h.wr (LCH_SALT k) (BitVec.ofNat 32 (leNat ((h.lchSalt.drop (4 * k)).take 4)))) = g.wrRow LCH_SALT (saltWord h) 4 := by
  unfold Hw.wrRow saltWord
  rw [← hg]
  rfl

theorem lichenHashDone_eq (hdue : lchHashDue h = true) :
    lichenHashDone h = { ((lchShown h).wf LCH_STAT LCH_STAT_STATE lcPending) with lchArm := (lchShown h).tb.toNat, lchExp := false } := by
  have hno : (!lchHashDue h) = false := by rw [hdue]; rfl
  have hsalt : forEach (List.range 4) (h.wrRow LCH_DIG (digWord h) 12) (fun h k => h.wr (LCH_SALT k) (BitVec.ofNat 32 (leNat ((h.lchSalt.drop (4 * k)).take 4)))) = lchShown h :=
    saltRow_eq _ (by rw [Hw.wrRow_regs h])
  rw [lichenHashDone, hno, if_neg Bool.false_ne_true, ← hsalt]
  unfold Hw.wrRow digWord lchDigest
  dsimp only

theorem lchShown_regs (h : Hw) : ∃ R, lchShown h = { h with regs := R } := by
  rw [lchShown, Hw.wrRow_regs (h.wrRow LCH_DIG (digWord h) 12), Hw.wrRow_regs h]
  exact ⟨_, rfl⟩

theorem rd_lchShown (h : Hw) : (∀ k, k < 12 → (lchShown h).rd (LCH_DIG k) = digWord h k) ∧ ∀ k, k < 4 → (lchShown h).rd (LCH_SALT k) = saltWord h k := by
  refine ⟨fun k hk => ?_, fun k hk => ?_⟩
  · have hne : ∀ j, j < 4 → LCH_DIG k ≠ LCH_SALT j := fun j hj => by
      unfold LCH_DIG LCH_SALT
      omega
    exact (Hw.rd_wrRow_other _ _ hne).trans (Hw.rd_wrRow _ _ (fun i j => by unfold LCH_DIG; omega) hk)
  · exact Hw.rd_wrRow _ _ (fun i j => by unfold LCH_SALT; omega) hk

/-- What the end of the hash shows. -/
theorem lichenHashDone_fields (hdue : lchHashDue h = true) :
    (lichenHashDone h).lcState = lcPending ∧ (lichenHashDone h).lchArm = h.tb.toNat ∧ (lichenHashDone h).lchExp = false ∧
      (∀ k, k < 12 → (lichenHashDone h).rd (LCH_DIG k) = digWord h k) ∧ (∀ k, k < 4 → (lichenHashDone h).rd (LCH_SALT k) = saltWord h k) ∧
      (lichenHashDone h).mem = h.mem := by
  obtain ⟨R, hR⟩ := lchShown_regs h
  obtain ⟨hdig, hsalt⟩ := rd_lchShown h
  have htb : (lchShown h).tb = h.tb := by rw [hR]
  have hmem : (lchShown h).mem = h.mem := by rw [hR]
  rw [lichenHashDone_eq hdue]
  generalize lchShown h = g at *
  refine ⟨lcState_wf _ (by decide), congrArg BitVec.toNat htb, rfl, fun k hk => ?_, fun k hk => ?_, hmem⟩
  · exact (Hw.rd_wf_other g LCH_STAT_STATE lcPending (by unfold LCH_DIG LCH_STAT; omega)).trans (hdig k hk)
  · exact (Hw.rd_wf_other g LCH_STAT_STATE lcPending (by unfold LCH_SALT LCH_STAT; omega)).trans (hsalt k hk)

/-! ### Confirmations (R404, R408, R409) -/

theorem digestEq_iff {reg : Nat → Nat} : digestEq h reg = true ↔ ∀ k, k < 12 → h.rd (reg k) = h.rd (LCH_DIG k) := by
  simp only [digestEq, List.all_eq_true, List.mem_range, beq_iff_eq]

section
variable {w : Who} {v : W32} (hgo : fldGet LCH_HGO_GO v = 1) (hw : w.hostPriv = true)
include hgo hw

theorem lchHgo_eq : lchHgo w v h =
    if h.lcState ≠ lcPending then lchFail h 8 1 else if !digestEq h LCH_HDIG then lchFail h 8 2 else if h.lchKey.isNone then lchFail h 8 4
    else h.wf LCH_STAT LCH_STAT_STATE lcVerify := by
  rw [lchHgo, if_neg (by simp [hgo, hw])]

end

section
variable {w : Who} {v : W32} (hgo : fldGet LCH_DGO_GO v = 1) (hw : w.agent = .debugger) (hkeep : w.world = .keeper)
include hgo hw hkeep

theorem lchDgo_eq : lchDgo w v h =
    if h.lcState ≠ lcPending then lchFail h 9 1 else if !digestEq h LCH_DDIG then lchFail h 9 2 else if h.rf LCH_PITEM LCH_PITEM_ITEM = 7 then lchFail h 9 3
    else h.wf LCH_STAT LCH_STAT_STATE lcApply := by
  rw [lchDgo, if_neg (by simp [hgo, hw, hkeep])]

end

/-- The signature does not verify: the failure is counted, and the proposal waits on or has expired. -/
theorem lichenVerifyDone_failed (hst : h.lcState = lcVerify)
    (hbad : Config.ecdsaVerify (h.lchKey.getD []) (wordsBe h LCH_DIG 12) (wordsBe h LCH_HSIG 24) = false) :
    lichenVerifyDone h = if h.lchExp then lchEnd (lchFail h 8 5) 2 else (lchFail h 8 5).wf LCH_STAT LCH_STAT_STATE lcPending := by
  rw [lichenVerifyDone, if_neg (not_not.mpr hst), hbad, if_neg Bool.false_ne_true]
  rfl

theorem lichenVerifyDone_good (hst : h.lcState = lcVerify)
    (hgood : Config.ecdsaVerify (h.lchKey.getD []) (wordsBe h LCH_DIG 12) (wordsBe h LCH_HSIG 24) = true) :
    lichenVerifyDone h = h.wf LCH_STAT LCH_STAT_STATE lcApply := by
  rw [lichenVerifyDone, if_neg (not_not.mpr hst), hgood, if_pos rfl]

theorem lichenWindowExpire_eq (hdue : lchWindowDue h = true) : lichenWindowExpire h = if h.lcState = lcPending then lchEnd h 2 else { h with lchExp := true } := by
  have hno : (!lchWindowDue h) = false := by rw [hdue]; rfl
  rw [lichenWindowExpire, hno, if_neg Bool.false_ne_true]

end

end Sys2Proof.Machine

namespace Sys2Proof.Proofs.Lichen
open Sys2Proof Sys2Proof.Machine

/-- Settles O47: each command of the lichen moves LCH_STAT.STATE by one step, and a failed confirmation leaves it. -/
theorem proposalsAreMadeAndConfirmed : Obligations.ProposalsAreMadeAndConfirmed := by
  unfold Obligations.ProposalsAreMadeAndConfirmed
  intro s h ends fails stays
  have hends : ∀ last, last < 16 → ends last (lchEnd h last) := fun last hlast => by
    obtain ⟨hst, hl, hd, -⟩ := lchEnd_fields h hlast
    exact ⟨hst, hl, hd, rfl⟩
  have hfails : ∀ agent code, agent < 16 → code < 16 → fails agent code (lchFail h agent code) ∧ stays (lchFail h agent code) := fun agent code ha hc => by
    obtain ⟨hagent, hcode, hcount, hflag, hmem⟩ := lchFail_failed h ha hc
    exact ⟨⟨hagent, hcode, hcount, hflag, hmem⟩, lcState_lchFail h agent code⟩
  refine ⟨?command, ?island, ?host, ?debugger⟩
  case command =>
    intro w v hg
    refine ⟨fun hw hp hnw => ⟨fun hst => ?_, fun hst => ?_⟩, fun hw hp hwd => ⟨fun hst => ?_, fun hst1 hst2 => ?_⟩, fun hw => ⟨fun hp => ?_, fun hwd => ?_⟩⟩
    · rw [gives_iff_of_onWrite rfl hg, whenSet_of_set hp]
      obtain ⟨hstate, hseq, hitem⟩ := lchCmdWrite_proposed_fields hw hp hnw hst
      refine ⟨hstate, hseq, hitem, ?_⟩
      rw [propose, lchCmdWrite_proposed hw hp hnw hst]
      exact ⟨rfl, rfl, rfl⟩
    · rw [gives_iff_of_onWrite rfl hg, whenSet_of_set hp]
      exact lchCmdWrite_busy hw hp hnw hst
    · rw [gives_iff_of_onWrite rfl hg, whenSet_of_set hwd, withdraw, lchCmdWrite_withdrawn hw hp hwd, if_pos hst]
      exact hends 3 (by decide)
    · rw [gives_iff_of_onWrite rfl hg, whenSet_of_set hwd, withdraw, lchCmdWrite_withdrawn hw hp hwd, if_neg (not_or.mpr ⟨hst1, hst2⟩)]
    · rw [gives_iff_of_onWrite rfl hg, whenSet_of_set hp]
      exact lchCmdWrite_stranger hw
    · rw [gives_iff_of_onWrite rfl hg, whenSet_of_set hwd]
      exact lchCmdWrite_stranger hw
  case island =>
    intro hp
    refine ⟨fun hdue => ?_, fun hst => ⟨?_, fun hdue => ?_⟩, fun hst hdue => ?_⟩
    · intro d
      rw [gives_iff_of_onIsland rfl hp]
      exact lichenHashDone_fields hdue
    · rw [gives_iff_of_onIsland rfl hp]
      split
      next hgood => exact lichenVerifyDone_good hst hgood
      next hbad =>
        have hfailed := lchFail_failed h (agent := 8) (code := 5) (by decide) (by decide)
        rw [lichenVerifyDone_failed hst (Bool.eq_false_iff.mpr hbad)]
        split
        next hexp =>
          obtain ⟨hstate, hlast, hdone, hrd, hrf⟩ := lchEnd_fields (lchFail h 8 5) (last := 2) (by decide)
          obtain ⟨hagent, hcode, hcount, hflag, hmem⟩ := hfailed.of_stat hrd (hrf _ rfl rfl rfl rfl) rfl
          exact ⟨⟨hagent, hcode, hcount, hflag, hmem⟩, hstate, hlast, hdone, hmem⟩
        next hexp =>
          obtain ⟨hagent, hcode, hcount, hflag, hmem⟩ := hfailed.of_stat (fun a ha => Hw.rd_wf_other _ LCH_STAT_STATE lcPending ha) (Hw.rf_wf_apart _ _ rfl rfl _) rfl
          exact ⟨⟨hagent, hcode, hcount, hflag, hmem⟩, lcState_wf _ (by decide)⟩
    · rw [gives_iff_of_onIsland rfl hp, lichenWindowExpire_eq hdue, if_neg (by rw [hst]; decide)]
    · rw [gives_iff_of_onIsland rfl hp, lichenWindowExpire_eq hdue, if_pos hst]
      exact hends 2 (by decide)
  case host =>
    intro w v hg hw hgo same
    have hyes : same → (!digestEq h LCH_HDIG) = false := fun heq => by rw [digestEq_iff.mpr heq]; rfl
    have hno : ¬ same → (!digestEq h LCH_HDIG) = true := fun hdiff => by rw [Bool.eq_false_iff.mpr (mt digestEq_iff.mp hdiff)]; rfl
    rw [gives_iff_of_onWrite rfl hg, gives_iff_of_onWrite rfl hg, gives_iff_of_onWrite rfl hg, gives_iff_of_onWrite rfl hg, lchHgo_eq hgo hw]
    refine ⟨fun hst => ?_, fun hst hdiff => ?_, fun hst heq hkey => ?_, fun hst heq hkey => ?_⟩
    · rw [if_pos hst]
      exact hfails 8 1 (by decide) (by decide)
    · rw [if_neg (not_not.mpr hst), hno hdiff, if_pos rfl]
      exact hfails 8 2 (by decide) (by decide)
    · rw [if_neg (not_not.mpr hst), hyes heq, if_neg Bool.false_ne_true, if_pos (by rw [hkey]; rfl)]
      exact hfails 8 4 (by decide) (by decide)
    · rw [if_neg (not_not.mpr hst), hyes heq, if_neg Bool.false_ne_true, if_neg (by simpa using hkey)]
  case debugger =>
    intro w v hg hw hkeep hgo same item
    have hyes : same → (!digestEq h LCH_DDIG) = false := fun heq => by rw [digestEq_iff.mpr heq]; rfl
    have hno : ¬ same → (!digestEq h LCH_DDIG) = true := fun hdiff => by rw [Bool.eq_false_iff.mpr (mt digestEq_iff.mp hdiff)]; rfl
    rw [gives_iff_of_onWrite rfl hg, gives_iff_of_onWrite rfl hg, gives_iff_of_onWrite rfl hg, gives_iff_of_onWrite rfl hg, lchDgo_eq hgo hw hkeep]
    refine ⟨fun hst => ?_, fun hst hdiff => ?_, fun hst heq hitem => ?_, fun hst heq hitem => ?_⟩
    · rw [if_pos hst]
      exact hfails 9 1 (by decide) (by decide)
    · rw [if_neg (not_not.mpr hst), hno hdiff, if_pos rfl]
      exact hfails 9 2 (by decide) (by decide)
    · rw [if_neg (not_not.mpr hst), hyes heq, if_neg Bool.false_ne_true, if_pos hitem]
      exact hfails 9 3 (by decide) (by decide)
    · rw [if_neg (not_not.mpr hst), hyes heq, if_neg Bool.false_ne_true, if_neg hitem]

end Sys2Proof.Proofs.Lichen
end

section
/-!
SUPPORT. Debug sessions (R455 to R467, R35): a session's write of DBG_FCTL, and what the end of a session releases and leaves.
-/
namespace Sys2Proof.Machine

/-! ### Halt, step and resume (R464, R466, R467) -/

section
variable {h : Hw} {f : Nat}

theorem DBG_FCTL_ne (f : Nat) : DBG_FCTL f ≠ DBG_STAT ∧ DBG_STAT ≠ DBG_FCTL f ∧ DBG_STAT ≠ DBG_FSTAT f := by
  unfold DBG_FCTL DBG_FSTAT DBG_STAT
  omega

/-- A session that may control the frond is open. -/
theorem sess_open_of_sessMay (hmay : sessMay h f = true) : (h.rf DBG_STAT DBG_STAT_SESS == 0) = false := by
  unfold sessMay at hmay
  simp only [Bool.or_eq_true, Bool.and_eq_true, beq_iff_eq] at hmay
  rw [beq_eq_false_iff_ne]
  omega

theorem fctlWrite_refused {v : W32} (hf : h.hasFrond f = true) (hopen : h.rf DBG_STAT DBG_STAT_SESS ≠ 0) (hmay : sessMay h f = false) :
    fctlWrite h f v = h.sb (DBG_FSTAT f) DBG_FSTAT_REFUSE := by
  simp [fctlWrite, hf, hopen, hmay]

section
variable {v : W32} (hf : h.hasFrond f = true) (hmay : sessMay h f = true)
include hf hmay

theorem fctlWrite_halt (hhalt : fldGet DBG_FCTL_HALT v = 1) (hresume : fldGet DBG_FCTL_RESUME v = 0) (hstep : fldGet DBG_FCTL_STEP v = 0) :
    fctlWrite h f v = haltAsk (h.wr (DBG_FCTL f) (v &&& 0x18)) f := by
  simp [fctlWrite, hf, hmay, sess_open_of_sessMay hmay, hhalt, hresume, hstep]

theorem fctlWrite_resume (hhalt : fldGet DBG_FCTL_HALT v = 0) (hresume : fldGet DBG_FCTL_RESUME v = 1) (hstep : fldGet DBG_FCTL_STEP v = 0) :
    fctlWrite h f v = frondGo (h.wr (DBG_FCTL f) (v &&& 0x18)) f false := by
  simp [fctlWrite, hf, hmay, sess_open_of_sessMay hmay, hhalt, hresume, hstep]

theorem fctlWrite_step (hhalt : fldGet DBG_FCTL_HALT v = 0) (hstep : fldGet DBG_FCTL_STEP v = 1) :
    fctlWrite h f v = frondGo (h.wr (DBG_FCTL f) (v &&& 0x18)) f true := by
  simp [fctlWrite, hf, hmay, sess_open_of_sessMay hmay, hhalt, hstep]

end

/-- A frond that goes on. -/
theorem frondGo_goes (step : Bool) (hrun : (h.frond f).run = .debugHalt ∨ (h.frond f).run = .halt) :
    (frondGo h f step).frond f = { h.frond f with run := .run, pc := (h.frond f).dfpc, haltReq := false, stepReq := step } ∧
      (∀ e, e ≠ f → (frondGo h f step).frond e = h.frond e) ∧ (frondGo h f step).mem = h.mem := by
  have hlock : (h.frond f).run ≠ .lockup := by
    rcases hrun with hr | hr <;> simp [hr]
  have heq : frondGo h f step = (h.setFrond f { h.frond f with run := .run, pc := (h.frond f).dfpc, haltReq := false, stepReq := step }).idleLeave (f / 2) := by
    rw [frondGo, if_neg hlock, if_pos hrun]
  obtain ⟨hmem, hfronds, -⟩ := idleLeave_frame (h := h.setFrond f { h.frond f with run := .run, pc := (h.frond f).dfpc, haltReq := false, stepReq := step }) (f / 2)
  rw [heq]
  have hframe : ∀ e, ((h.setFrond f { h.frond f with run := .run, pc := (h.frond f).dfpc, haltReq := false, stepReq := step }).idleLeave (f / 2)).frond e =
      (h.setFrond f { h.frond f with run := .run, pc := (h.frond f).dfpc, haltReq := false, stepReq := step }).frond e := fun e => congrArg (fun l => kvGet Frond.zero l e) hfronds
  exact ⟨(hframe f).trans (Hw.frond_setFrond_same _ _ _), fun e he => (hframe e).trans (Hw.frond_setFrond_other _ _ he), hmem⟩

theorem frondGo_lockup (step : Bool) (hrun : (h.frond f).run = .lockup) : frondGo h f step = h.sb (DBG_FSTAT f) DBG_FSTAT_REFUSE := by
  rw [frondGo, if_pos hrun]

/-- A frond that has entered debug halt. -/
theorem debugHaltNow_halts (h : Hw) (f : Nat) :
    (debugHaltNow h f).frond f =
        { h.frond f with run := .debugHalt, dfpc := (h.frond f).pc, dfrpi := (h.frond f).rep.isSome, haltReq := false, stepReq := false, presented := none } ∧
      (∀ e, e ≠ f → (debugHaltNow h f).frond e = h.frond e) ∧ (debugHaltNow h f).mem = h.mem ∧
      ((h.frond f).stepReq = true → (debugHaltNow h f).rb (DBG_FSTAT f) DBG_FSTAT_SDONE = true) := by
  rw [debugHaltNow]
  split
  next hstep => exact ⟨Hw.frond_setFrond_same _ _ _, fun e he => Hw.frond_setFrond_other _ _ he, rfl, fun _ => Hw.rb_sb_same _ _ rfl⟩
  next hno => exact ⟨Hw.frond_setFrond_same _ _ _, fun e he => Hw.frond_setFrond_other _ _ he, rfl, fun hstep => absurd hstep hno⟩

end

/-! ### The release of a session's claims (R35, R375, R390, R476) -/

/-- The part of the block that a claim's release leaves to a session: memory, fronds and DBG_STAT. -/
structure SessKeeps (h g : Hw) : Prop where
  mem : g.mem = h.mem
  fronds : g.fronds = h.fronds
  stat : g.rd DBG_STAT = h.rd DBG_STAT

namespace SessKeeps

theorem refl (h : Hw) : SessKeeps h h := ⟨rfl, rfl, rfl⟩

theorem trans {h1 h2 h3 : Hw} (h12 : SessKeeps h1 h2) (h23 : SessKeeps h2 h3) : SessKeeps h1 h3 :=
  ⟨h23.mem.trans h12.mem, h23.fronds.trans h12.fronds, h23.stat.trans h12.stat⟩

theorem of_irqKeeps {h g : Hw} (hk : IrqKeeps h g) : SessKeeps h g :=
  ⟨hk.mem, hk.fronds, hk.rd _ (by unfold irqOrPower; decide)⟩

section
variable {a : Nat} (ha : a ≠ DBG_STAT)
include ha

theorem wr (h : Hw) (v : W32) : SessKeeps h (h.wr a v) := ⟨rfl, rfl, Hw.rd_wr_other _ _ ha.symm⟩
theorem wf (h : Hw) (f : Fld) (n : Nat) : SessKeeps h (h.wf a f n) := wr ha h _

end

theorem setTq (h : Hw) (f : Nat) (x : TraceQ) : SessKeeps h (h.setTq f x) := ⟨rfl, rfl, rfl⟩

theorem traceLost (h : Hw) (f n : Nat) : SessKeeps h (traceLost h f n) := by
  rw [Machine.traceLost]
  split
  · exact refl h
  · exact (setTq h f _).trans (wf (by unfold DBG_TCTL DBG_STAT; omega) _ _ _)

/-- A sink that stops, and the packets that fall with it (R476). -/
theorem tsDrop (h : Hw) (r : Nat) : SessKeeps h (tsDrop h r) := by
  refine List.foldlRecOn (motive := SessKeeps h) _ _ (refl h) fun g hg f _ => hg.trans ?_
  split
  · exact refl g
  · exact (setTq g f _).trans (traceLost _ f _)

theorem tsStop (h : Hw) (r : Nat) : SessKeeps h (tsStop h r) :=
  (wf (by unfold TS_CTL DBG_STAT; omega) h _ _).trans (wf (by unfold TS_STAT DBG_STAT; omega) _ _ _)

/-- A timer channel released (R390, R397). -/
theorem tmrRelease {c : Nat} (hc : c < 32) (h : Hw) : SessKeeps h (tmrRelease h c) := by
  have hctl : TMR_CTL c ≠ DBG_STAT ∧ TMR_ACT c ≠ DBG_STAT ∧ TMR_STAT c ≠ DBG_STAT ∧ WDT_CTL ≠ DBG_STAT := by
    unfold TMR_CTL TMR_ACT TMR_STAT WDT_CTL DBG_STAT
    omega
  obtain ⟨h1, h2, h3, h4⟩ := hctl
  have hbase := (((wr h1 h 0).trans (wr h2 _ 0)).trans (wf h3 _ TMR_STAT_RUN 0)).trans (wf h3 _ TMR_STAT_OUT 0)
  rw [Machine.tmrRelease]
  split
  · exact hbase.trans ((wf h4 _ _ _).trans (wf h4 _ _ _))
  · exact hbase

end SessKeeps

/-- The resource is one the block has: its claim register is none of the debug port's own. -/
def ClaimOf.onBlock : ClaimOf → Prop
  | .source s => s < 483
  | .group g => g < 16
  | .timer c => c < 32
  | .sink r => r < 4
  | .laneTest l => l < 128
  | .window r n => r < 4 ∧ n < 16

/-- What the address of a claim register names is a resource of the block. -/
theorem claimOf_onBlock {h : Hw} {a : Nat} {k : ClaimOf} (hk : claimOf h a = some k) : k.onBlock := by
  have hreg : ∀ r, h.hasRegion r = true → r < 4 := fun r hr => h.lt_four_of_hasRegion hr
  unfold claimOf at hk
  dsimp only at hk
  split at hk
  · split at hk
    next hgrp =>
      cases hk
      exact (by omega : (a % 0x10000 - 0x240) / 4 < 16)
    next =>
      split at hk
      next hsrc =>
        cases hk
        exact lt_of_srcExists hsrc.2.2
      next => cases hk
  · split at hk
    · split at hk
      next htmr =>
        cases hk
        exact (by omega : a % 0x1000 / 0x40 < 32)
      next => cases hk
    · split at hk
      · split at hk
        next hsink =>
          cases hk
          exact hreg _ hsink.2.2.2
        next => cases hk
      · split at hk
        · split at hk
          next hlane =>
            cases hk
            have hr := hreg _ hlane.1
            exact (by omega : 32 * (a / 0x10000 % 16) + a % 0x10000 / 0x40 < 128)
          next => cases hk
        · split at hk
          · split at hk
            next hwin =>
              cases hk
              exact ⟨hreg _ hwin.1, (by omega : (a % 0x10000 - 0x100) / 16 < 16)⟩
            next => cases hk
          · cases hk

theorem claimAddr_ne_stat {k : ClaimOf} (hk : k.onBlock) : claimAddr k ≠ DBG_STAT := by
  cases k with
  | source s =>
    change IRQ_SCLAIM s ≠ DBG_STAT
    have hs : s < 483 := hk
    unfold IRQ_SCLAIM DBG_STAT
    omega
  | group g =>
    change IRQ_GRPHOLD g ≠ DBG_STAT
    have hg : g < 16 := hk
    unfold IRQ_GRPHOLD DBG_STAT
    omega
  | timer c =>
    change TMR_CLAIM c ≠ DBG_STAT
    have hc : c < 32 := hk
    unfold TMR_CLAIM DBG_STAT
    omega
  | sink r =>
    change TS_CLAIM r ≠ DBG_STAT
    unfold TS_CLAIM DBG_STAT
    omega
  | laneTest l =>
    change LT_CLAIM l ≠ DBG_STAT
    have hl : l < 128 := hk
    unfold LT_CLAIM DBG_STAT
    omega
  | window r n =>
    change CSH_WCLAIM r n ≠ DBG_STAT
    obtain ⟨hr, hn⟩ := hk
    unfold CSH_WCLAIM DBG_STAT
    omega

/-- A claim released leaves memory, fronds and DBG_STAT. -/
theorem claimDrop_sessKeeps {k : ClaimOf} (hk : k.onBlock) (h : Hw) : SessKeeps h (claimDrop h k) := by
  have hfree : SessKeeps h (claimFree h (claimAddr k)) := .wr (claimAddr_ne_stat hk) h _
  cases k with
  | source s => exact hfree
  | group g => exact hfree.trans (.of_irqKeeps (.deferApply hk _))
  | timer c => exact hfree.trans (.tmrRelease hk _)
  | sink r => exact hfree.trans ((SessKeeps.tsStop _ r).trans (.tsDrop _ r))
  | laneTest l =>
    have hl : l < 128 := hk
    have hlane : LN_STAT l ≠ DBG_STAT ∧ LT_CTL l ≠ DBG_STAT := by
      unfold LN_STAT LT_CTL DBG_STAT
      omega
    exact hfree.trans ((SessKeeps.wf hlane.1 _ _ _).trans (.wr hlane.2 _ _))
  | window r n => exact hfree

theorem releaseClaims_sessKeeps (h : Hw) (p : Nat → Bool) : SessKeeps h (releaseClaims h p) := by
  refine List.foldlRecOn (motive := SessKeeps h) _ _ (.refl h) fun g hg e _ => ?_
  split
  · exact hg
  next k hk =>
    split
    · exact hg.trans (claimDrop_sessKeeps (claimOf_onBlock hk) g)
    · exact hg

/-! ### The end of a session (R458) -/

/-- A frond after the end of a session. -/
def Frond.letGo (x : Frond) : Frond :=
  { x with
    run := if x.run = .debugHalt then .run else x.run
    pc := if x.run = .debugHalt then x.dfpc else x.pc
    haltReq := false
    stepReq := false }

/-- One frond is let go. -/
def frondLetGo (h : Hw) (f : Nat) : Hw := (h.setFrond f (h.frond f).letGo).wf (DBG_FCTL f) DBG_FCTL_RHALT 0

/-- The first n fronds are let go. -/
def frondsLetGo (h : Hw) (n : Nat) : Hw := forEach (List.range n) h frondLetGo

theorem frondsLetGo_succ (h : Hw) (n : Nat) : frondsLetGo h (n + 1) = frondLetGo (frondsLetGo h n) n := by
  rw [frondsLetGo, forEach, List.range_succ, List.foldl_concat]
  rfl

theorem frondsLetGo_keeps (h : Hw) (n : Nat) : (frondsLetGo h n).mem = h.mem ∧ (frondsLetGo h n).rd DBG_STAT = h.rd DBG_STAT := by
  induction n with
  | zero => exact ⟨rfl, rfl⟩
  | succ n ih =>
    rw [frondsLetGo_succ]
    exact ⟨ih.1, (Hw.rd_wf_other _ _ _ (DBG_FCTL_ne n).2.1).trans ih.2⟩

theorem frondsLetGo_frond (h : Hw) (n f : Nat) : (frondsLetGo h n).frond f = if f < n then (h.frond f).letGo else h.frond f := by
  induction n with
  | zero => rfl
  | succ n ih =>
    rw [frondsLetGo_succ]
    by_cases hfn : f = n
    · subst hfn
      rw [if_pos (Nat.lt_succ_self f)]
      refine (Hw.frond_setFrond_same (frondsLetGo h f) f _).trans ?_
      rw [ih, if_neg (Nat.lt_irrefl f)]
    · have hiff : f < n + 1 ↔ f < n := by omega
      simp only [hiff]
      rw [← ih]
      exact Hw.frond_setFrond_other (frondsLetGo h n) _ hfn

theorem frondsLetGo_rhalt (h : Hw) {n f : Nat} (hf : f < n) : (frondsLetGo h n).rb (DBG_FCTL f) DBG_FCTL_RHALT = false := by
  induction n with
  | zero => exact absurd hf (Nat.not_lt_zero f)
  | succ n ih =>
    rw [frondsLetGo_succ]
    by_cases hfn : f = n
    · rw [hfn]
      exact Hw.rb_wf_zero _ _ rfl
    · have hne : DBG_FCTL f ≠ DBG_FCTL n := by
        unfold DBG_FCTL
        omega
      exact (Hw.rb_wf_other _ _ _ _ hne).trans (ih (by omega))

/-- What the end of a session shows. -/
structure SessClosed (h g : Hw) : Prop where
  sess : g.rf DBG_STAT DBG_STAT_SESS = 0
  mem : g.mem = h.mem
  frond : ∀ f, h.hasFrond f = true → g.frond f = (h.frond f).letGo
  rhalt : ∀ f, h.hasFrond f = true → g.rb (DBG_FCTL f) DBG_FCTL_RHALT = false

/-- The status of an ended session, and SEND where the idle limit or a reset ended it. -/
def sessMarked (h : Hw) (setSend : Bool) : Hw := (if setSend then h.sb DBG_STAT DBG_STAT_SEND else h).wf DBG_STAT DBG_STAT_SESS 0

theorem sessMarked_fields (h : Hw) (setSend : Bool) :
    (sessMarked h setSend).rf DBG_STAT DBG_STAT_SESS = 0 ∧ (sessMarked h setSend).rb DBG_STAT DBG_STAT_SEND = (setSend || h.rb DBG_STAT DBG_STAT_SEND) ∧
      (sessMarked h setSend).mem = h.mem ∧ (sessMarked h setSend).fronds = h.fronds := by
  cases setSend with
  | false => exact ⟨Hw.rf_wf_same _ _ rfl _, Hw.rb_wf_apart _ _ rfl rfl _, rfl, rfl⟩
  | true => exact ⟨Hw.rf_wf_same _ _ rfl _, (Hw.rb_wf_apart _ _ rfl rfl _).trans (Hw.rb_sb_same _ _ rfl), rfl, rfl⟩

theorem sessionEnd_closed {h : Hw} (setSend : Bool) (hopen : h.rf DBG_STAT DBG_STAT_SESS ≠ 0) :
    SessClosed h (sessionEnd h setSend) ∧ (sessionEnd h setSend).rb DBG_STAT DBG_STAT_SEND = (setSend || h.rb DBG_STAT DBG_STAT_SEND) := by
  obtain ⟨hsess, hsend, hmem, hfronds⟩ := sessMarked_fields h setSend
  have hkeeps := releaseClaims_sessKeeps (sessMarked h setSend) (· == 9)
  have heq : sessionEnd h setSend =
      frondsLetGo { releaseClaims (sessMarked h setSend) (· == 9) with snaps := kvDel (sessMarked h setSend).snaps 32 } (2 * h.nRegions) := if_neg hopen
  rw [heq]
  generalize releaseClaims (sessMarked h setSend) (· == 9) = g at hkeeps
  generalize hg' : ({ g with snaps := kvDel (sessMarked h setSend).snaps 32 } : Hw) = g'
  have hstat : g'.rd DBG_STAT = (sessMarked h setSend).rd DBG_STAT := by
    rw [← hg']
    exact hkeeps.stat
  have hmem' : g'.mem = h.mem := by
    rw [← hg']
    exact hkeeps.mem.trans hmem
  have hfronds' : g'.fronds = h.fronds := by
    rw [← hg']
    exact hkeeps.fronds.trans hfronds
  obtain ⟨hm, hrd⟩ := frondsLetGo_keeps g' (2 * h.nRegions)
  refine ⟨⟨(congrArg (fldGet DBG_STAT_SESS) (hrd.trans hstat)).trans hsess, hm.trans hmem', fun f hf => ?_, fun f hf => frondsLetGo_rhalt g' (of_decide_eq_true hf)⟩,
    (congrArg (fun v => fldGet DBG_STAT_SEND v == 1) (hrd.trans hstat)).trans hsend⟩
  rw [frondsLetGo_frond, if_pos (of_decide_eq_true hf)]
  exact congrArg (fun l => (kvGet Frond.zero l f).letGo) hfronds'

/-! ### A challenge, and a signature to verify (R456, R457) -/

/-- Word k of the nonce: the low half of a draw of the random source at even k, its high half at odd k. -/
def nonceAt (h : Hw) (k : Nat) : W32 := nonceWord (Config.freeValue (h.free + k / 2)) (k % 2 == 1)

/-- Showing a nonce draws nothing by itself, so each word of the row is cut from the same draws. -/
theorem nonceRow_eq (h : Hw) : forEach (List.range 8) h (fun h k => h.wr (DBG_NONCE k) (nonceWord (Config.freeValue (h.free + k / 2)) (k % 2 == 1))) = h.wrRow DBG_NONCE (nonceAt h) 8 := by
  unfold Hw.wrRow nonceAt
  generalize Config.freeValue = draw
  rfl

theorem chalDo_eq {h : Hw} (hfree : h.dbg.hold = none) (hast : h.rf DBG_STAT DBG_STAT_AST ≠ 2) :
    chalDo h = { h.wrRow DBG_NONCE (nonceAt h) 8 with free := (h.wrRow DBG_NONCE (nonceAt h) 8).free + 4 }.wf DBG_STAT DBG_STAT_AST 1 := by
  have hno : ¬ (h.dbg.hold.isSome = true ∨ h.rf DBG_STAT DBG_STAT_AST = 2) := by simp [hfree, hast]
  rw [chalDo, if_neg hno, nonceRow_eq]

theorem chalDo_held {h : Hw} (hheld : h.dbg.hold ≠ none ∨ h.rf DBG_STAT DBG_STAT_AST = 2) : chalDo h = h :=
  if_pos (hheld.imp_left Option.isSome_iff_ne_none.mpr)

/-- A challenge shown. -/
theorem chalDo_fields {h : Hw} (hfree : h.dbg.hold = none) (hast : h.rf DBG_STAT DBG_STAT_AST ≠ 2) :
    (chalDo h).rf DBG_STAT DBG_STAT_AST = 1 ∧ (chalDo h).free = h.free + 4 ∧ (∀ k, k < 8 → (chalDo h).rd (DBG_NONCE k) = nonceAt h k) ∧ (chalDo h).dbg = h.dbg ∧
      (chalDo h).mem = h.mem := by
  rw [chalDo_eq hfree hast]
  have hrow : ∀ k, k < 8 → (h.wrRow DBG_NONCE (nonceAt h) 8).rd (DBG_NONCE k) = nonceAt h k := fun k hk => Hw.rd_wrRow h _ (fun i j => by unfold DBG_NONCE; omega) hk
  have hregs := Hw.wrRow_regs h DBG_NONCE (nonceAt h) 8
  generalize h.wrRow DBG_NONCE (nonceAt h) 8 = g at hrow hregs
  have hdbg : g.dbg = h.dbg ∧ g.mem = h.mem ∧ g.free = h.free := by
    rw [hregs]
    exact ⟨rfl, rfl, rfl⟩
  obtain ⟨hd, hm, hn⟩ := hdbg
  exact ⟨Hw.rf_wf_same _ _ rfl _, congrArg (· + 4) hn, fun k hk => (Hw.rd_wf_other _ _ _ (by unfold DBG_NONCE DBG_STAT; omega)).trans (hrow k hk), hd, hm⟩

/-- A write of DBG_AUTH notes LEVEL, which no status hangs on. -/
theorem rf_stat_auth (h : Hw) (n : Nat) (f : Fld) : (h.wf DBG_AUTH DBG_AUTH_LEVEL n).rf DBG_STAT f = h.rf DBG_STAT f := Hw.rf_wf_other _ _ _ _ (by decide)

theorem debugVerifyDone_good {h : Hw} (hast : h.rf DBG_STAT DBG_STAT_AST = 2) (hgood : dbgVerified h = true) :
    debugVerifyDone h = { ((h.wf DBG_STAT DBG_STAT_AST 0).wf DBG_STAT DBG_STAT_SESS h.dbg.goLevel) with dbg := { h.dbg with last := h.tb.toNat } } := by
  rw [debugVerifyDone, if_neg (not_not.mpr hast), hgood]
  rfl

theorem debugVerifyDone_failed {h : Hw} (hast : h.rf DBG_STAT DBG_STAT_AST = 2) (hbad : dbgVerified h = false) :
    debugVerifyDone h =
      { (((h.wf DBG_STAT DBG_STAT_AST 0).sb DBG_STAT DBG_STAT_AFAIL).sb DBG_STAT DBG_STAT_AHOLD) with dbg := { h.dbg with hold := some h.tb.toNat } } := by
  rw [debugVerifyDone, if_neg (not_not.mpr hast), hbad]
  rfl

/-- A signature that verifies was given for LEVEL 1 or 2. -/
theorem goLevel_lt_of_verified {h : Hw} (hgood : dbgVerified h = true) : h.dbg.goLevel < 4 := by
  simp only [dbgVerified, Bool.and_eq_true, Bool.or_eq_true, beq_iff_eq] at hgood
  obtain ⟨⟨⟨-, hlevel⟩, -⟩, -⟩ := hgood
  omega

end Sys2Proof.Machine

namespace Sys2Proof.Proofs.Sessions
open Sys2Proof Sys2Proof.Machine

/-- Settles O51: a session's write of DBG_FCTL notes a halt, halts, or sends the frond on at DBG_FPC. -/
theorem frondsHaltStepAndResume : Obligations.FrondsHaltStepAndResume := by
  unfold Obligations.FrondsHaltStepAndResume
  intro s f hp hf h x halts goes
  have hhalts : ∀ g : Hw, (∀ e, g.frond e = h.frond e) → g.mem = h.mem → halts (debugHaltNow g f) := fun g hg hmem => by
    obtain ⟨hsame, hother, hm, -⟩ := debugHaltNow_halts g f
    rw [hg f] at hsame
    change (_ ∧ _ ∧ _ ∧ _ ∧ _ ∧ _ ∧ _ ∧ _)
    rw [hsame]
    exact ⟨rfl, rfl, rfl, rfl, rfl, rfl, fun e he => (hother e he).trans (hg e), hm.trans hmem⟩
  refine ⟨?_, fun v hopen hmay hhalt => ?_, fun hdue => ?_, fun hnot => ?_⟩
  · intro v hmay one
    refine ⟨?halt, ?haltWait, fun hrun => ⟨?resume, ?step⟩, fun hlock => ⟨?resumeLockup, ?stepLockup⟩⟩
    case halt =>
      rintro ⟨h1, h2, h3⟩ hrun
      rw [gives_iff_of_onIsland rfl hp, debugHaltReq, if_pos h1, fctlWrite_halt hf hmay h1 h2 h3]
      have hask : haltAsk (h.wr (DBG_FCTL f) (v &&& 0x18)) f = (h.wr (DBG_FCTL f) (v &&& 0x18)).setFrond f { x with haltReq := true } := by
        have hnw : ¬ (x.run = .wait ∧ haltBoundary x = true) := by simp [hrun]
        have hnd : ¬ x.run = .debugHalt := by simp [hrun]
        exact (if_neg hnw).trans (if_neg hnd)
      rw [hask]
      exact ⟨Hw.frond_setFrond_same _ _ _, rfl⟩
    case haltWait =>
      rintro ⟨h1, h2, h3⟩ hwait hbound
      rw [gives_iff_of_onIsland rfl hp, debugHaltReq, if_pos h1, fctlWrite_halt hf hmay h1 h2 h3]
      have hask : haltAsk (h.wr (DBG_FCTL f) (v &&& 0x18)) f = debugHaltNow (h.wr (DBG_FCTL f) (v &&& 0x18)) f := if_pos (c := x.run = .wait ∧ haltBoundary x = true) ⟨hwait, hbound⟩
      rw [hask]
      exact hhalts _ (fun _ => rfl) rfl
    case resume =>
      rintro ⟨h1, h2, h3⟩
      rw [gives_iff_of_onIsland rfl hp, debugResume, if_pos h2, fctlWrite_resume hf hmay h1 h2 h3]
      exact frondGo_goes false hrun
    case step =>
      rintro ⟨h1, h2, h3⟩
      rw [gives_iff_of_onIsland rfl hp, debugStep, if_pos h3, fctlWrite_step hf hmay h1 h3]
      exact frondGo_goes true hrun
    case resumeLockup =>
      rintro ⟨h1, h2, h3⟩
      rw [gives_iff_of_onIsland rfl hp, debugResume, if_pos h2, fctlWrite_resume hf hmay h1 h2 h3, frondGo_lockup (h := h.wr (DBG_FCTL f) (v &&& 0x18)) false hlock]
      exact ⟨Hw.rb_sb_same _ _ rfl, rfl⟩
    case stepLockup =>
      rintro ⟨h1, h2, h3⟩
      rw [gives_iff_of_onIsland rfl hp, debugStep, if_pos h3, fctlWrite_step hf hmay h1 h3, frondGo_lockup (h := h.wr (DBG_FCTL f) (v &&& 0x18)) true hlock]
      exact ⟨Hw.rb_sb_same _ _ rfl, rfl⟩
  · rw [gives_iff_of_onIsland rfl hp, debugHaltReq, if_pos hhalt]
    exact fctlWrite_refused hf hopen hmay
  · have htaken : debugHaltTaken f h = debugHaltNow h f := if_pos (by rw [hf, hdue]; rfl)
    rw [gives_iff_of_onIsland rfl hp]
    change halts (debugHaltTaken f h) ∧ _
    rw [htaken]
    exact ⟨hhalts h (fun _ => rfl) rfl, (debugHaltNow_halts h f).2.2.2⟩
  · rw [gives_iff_of_onIsland rfl hp]
    exact if_neg (by rw [hf, hnot]; decide)

/-- Settles O50: CHAL and GO move AST on, the end of verification opens the session or holds CHAL off, and the end of a session lets every frond go. -/
theorem debugSessionsOpenAndClose : Obligations.DebugSessionsOpenAndClose := by
  unfold Obligations.DebugSessionsOpenAndClose
  intro s hp h nonce closes
  have hcloses : ∀ g g' : Hw, g.mem = h.mem → g.fronds = h.fronds → g.cfg = h.cfg → SessClosed g g' → closes g' := fun g g' hmem hfronds hcfg hc => by
    have hfrond : ∀ f, g.frond f = h.frond f := fun f => congrArg (fun l => kvGet Frond.zero l f) hfronds
    refine ⟨hc.sess, hc.mem.trans hmem, fun f hf => ?_⟩
    have hf' : g.hasFrond f = true := by
      rw [Hw.hasFrond, Hw.nRegions, hcfg]
      exact hf
    have hlet : g'.frond f = (h.frond f).letGo := (hc.frond f hf').trans (congrArg Frond.letGo (hfrond f))
    refine ⟨hc.rhalt f hf', congrArg Frond.haltReq hlet, ?_⟩
    split
    next hrun => exact ⟨(congrArg Frond.run hlet).trans (if_pos hrun), (congrArg Frond.pc hlet).trans (if_pos hrun)⟩
    next hrun => exact ⟨(congrArg Frond.run hlet).trans (if_neg hrun), (congrArg Frond.pc hlet).trans (if_neg hrun)⟩
  refine ⟨?challenge, ?go, ?verified, fun hopen => ⟨?close, fun hover => ?idle⟩, fun hnot => ?_⟩
  case challenge =>
    intro v hchal hgo hclose
    have hdo : chal v h = chalDo (h.wf DBG_AUTH DBG_AUTH_LEVEL (fldGet DBG_AUTH_LEVEL v)) := by
      simp [chal, authWrite, hchal, hgo, hclose]
    rw [gives_iff_of_onIsland rfl hp, gives_iff_of_onIsland rfl hp, hdo]
    refine ⟨fun hfree hast => ?_, fun hheld => ?_⟩
    · obtain ⟨hst, hn, hrow, hdbg, hmem⟩ := chalDo_fields (h := h.wf DBG_AUTH DBG_AUTH_LEVEL (fldGet DBG_AUTH_LEVEL v)) hfree (by rwa [rf_stat_auth])
      refine ⟨hst, hn, fun k hk => (hrow k hk).trans ?_, hdbg, hmem⟩
      simp only [nonceAt, nonceWord, beq_iff_eq]
      rfl
    · exact chalDo_held (hheld.imp_right fun hast => (rf_stat_auth _ _ _).trans hast)
  case go =>
    intro v hchal hgo hclose hast
    have hdo : go v h = goDo (h.wf DBG_AUTH DBG_AUTH_LEVEL (fldGet DBG_AUTH_LEVEL v)) (fldGet DBG_AUTH_LEVEL v) := by
      simp [go, authWrite, hchal, hgo, hclose]
    rw [gives_iff_of_onIsland rfl hp, hdo, goDo, rf_stat_auth, if_neg hast]
    exact ⟨Hw.rf_wf_same _ _ rfl _, rfl, rfl, (Hw.rf_wf_apart _ _ rfl rfl _).trans (rf_stat_auth _ _ _), rfl⟩
  case verified =>
    intro hast
    rw [gives_iff_of_onIsland rfl hp]
    split
    next hgood =>
      rw [debugVerifyDone_good hast hgood]
      exact ⟨(Hw.rf_wf_apart _ _ rfl rfl _).trans (Hw.rf_wf_same _ _ rfl _), rfl, rfl, (Hw.rf_wf_same _ _ rfl _).trans (Nat.mod_eq_of_lt (goLevel_lt_of_verified hgood)), rfl⟩
    next hbad =>
      rw [debugVerifyDone_failed hast (Bool.eq_false_iff.mpr hbad)]
      refine ⟨?_, rfl, rfl, ?_, Hw.rb_sb_same _ _ rfl, ?_, rfl⟩
      · exact (Hw.rf_wf_apart _ _ rfl rfl _).trans ((Hw.rf_wf_apart _ _ rfl rfl _).trans (Hw.rf_wf_same _ _ rfl _))
      · exact (Hw.rb_wf_apart _ _ rfl rfl _).trans (Hw.rb_sb_same _ _ rfl)
      · exact (Hw.rf_wf_apart _ _ rfl rfl _).trans ((Hw.rf_wf_apart _ _ rfl rfl _).trans (Hw.rf_wf_apart _ _ rfl rfl _))
  case close =>
    intro v hchal hgo hclose
    have hdo : close v h = sessionEnd (h.wf DBG_AUTH DBG_AUTH_LEVEL (fldGet DBG_AUTH_LEVEL v)) false := by
      simp [close, authWrite, hchal, hgo, hclose]
    rw [gives_iff_of_onIsland rfl hp, hdo]
    obtain ⟨hc, hsend⟩ := sessionEnd_closed false (h := h.wf DBG_AUTH DBG_AUTH_LEVEL (fldGet DBG_AUTH_LEVEL v)) (by rwa [rf_stat_auth])
    exact ⟨hcloses (h.wf DBG_AUTH DBG_AUTH_LEVEL (fldGet DBG_AUTH_LEVEL v)) _ rfl rfl rfl hc, hsend.trans (congrArg (· == 1) (rf_stat_auth _ _ _))⟩
  case idle =>
    have hdo : debugIdleTimeout h = sessionEnd h true := if_pos hover
    rw [gives_iff_of_onIsland rfl hp, hdo]
    obtain ⟨hc, hsend⟩ := sessionEnd_closed true hopen
    exact ⟨hcloses _ _ rfl rfl rfl hc, hsend⟩
  · rw [gives_iff_of_onIsland rfl hp]
    exact if_neg (by rw [hnot]; decide)

end Sys2Proof.Proofs.Sessions
end

section
/-!
SUPPORT. The frames of the debug port (R452 to R463): what a frame reaches, and the four bytes that RD and WR move.
-/
namespace Sys2Proof.Machine

/-! ### The halves of a port (R461) -/

theorem hi32_join64 (a b : W32) : hi32 (join64 a b) = a := by
  ext i hi
  have hlt : 32 + i < 64 ∧ i < 64 := by omega
  simp [hi32, join64, hlt, BitVec.getLsbD_eq_getElem hi]

theorem lo32_join64 (a b : W32) : lo32 (join64 a b) = b := by
  ext i hi
  simp [lo32, join64]

theorem portRead_general (g : Hw) (f : Nat) {k : Nat} (hk : k < 64) : portRead g f (0x40 + k) = kvGet 0 (g.frond f).g k := by
  rw [portRead, if_pos (by omega), Nat.add_sub_cancel_left]

section
variable {h : Hw} {frn a : Nat}

/-! ### Targets (R459, R460) -/

theorem dbgHears_of (hp : h.porN = true) (hline : h.dbg.ignore = false) : (!dbgHears h) = false := by
  rw [dbgHears, hp, hline]
  rfl

theorem dbgTarget_closed (hsess : sessLevel h = 0) (write : Bool) : dbgTarget h frn a write = if openReg a then .reg else .ack ackAUTH := by
  rw [dbgTarget]
  exact if_pos hsess

section
variable (hsess : sessLevel h ≠ 0)
include hsess

theorem dbgTarget_mem (hmem : h.inMem a = true) (write : Bool) :
    dbgTarget h frn a write = if regionAck h (memRegion a) frn = ackOK then .mem else .ack (regionAck h (memRegion a) frn) := by
  rw [dbgTarget]
  exact (if_neg hsess).trans (if_pos hmem)

theorem dbgTarget_scratch (hmem : h.inMem a = false) (hlo : 0x30000000 ≤ a) (hhi : a < 0x30010000) (hack : regionAck h (frn / 2) frn = ackOK) (write : Bool) :
    dbgTarget h frn a write = .scratch := by
  rw [dbgTarget]
  exact (if_neg hsess).trans ((if_neg (Bool.eq_false_iff.mp hmem)).trans ((if_pos ⟨hlo, hhi⟩).trans (if_pos hack)))

end

/-- A tenant session that names a keeper frond. -/
theorem regionAck_prot {r : Nat} (hsess : sessLevel h = 2) (hworld : (h.frond frn).world = .keeper) : regionAck h r frn = ackPROT :=
  if_pos ⟨hsess, by rw [hworld]; decide⟩

/-- A frond of the region that runs. -/
theorem regionAck_running {r : Nat} (hrun : (h.frond frn).run = .run) (hr : frn / 2 = r) (hmay : sessLevel h ≠ 2 ∨ (h.frond frn).world = .tenant) : regionAck h r frn = ackSTATE := by
  have hno : ¬ (sessLevel h = 2 ∧ (h.frond frn).world ≠ .tenant) := fun hc => hmay.elim (fun hs => hs hc.1) hc.2
  have hshut : frondOpen h (h.frond frn) = false := by rw [frondOpen, hrun]; rfl
  have hmem : frn ∈ frondsOf r := by
    simp only [frondsOf, List.mem_cons, List.not_mem_nil, or_false]
    omega
  have hall : (frondsOf r).all (fun f => frondOpen h (h.frond f)) = false := List.all_eq_false.mpr ⟨frn, hmem, by rw [hshut]; exact Bool.false_ne_true⟩
  rw [regionAck, if_neg hno, hall]
  exact ite_self _

/-- Memory lies below the register windows. -/
theorem blockOf_none_of_inMem (hmem : h.inMem a = true) : blockOf h a = none := by
  have hlt : a < 0x20000000 := by
    have hcfg : h.cfg.regions ≤ 4 := by cases h.cfg <;> decide
    rcases (Bool.or_eq_true _ _).mp hmem with hmat | hcush
    · have hlt : a < h.cfg.regions * 0x2000000 := of_decide_eq_true hmat
      omega
    · have hlt : a < 0x10000000 + h.cfg.regions * 0x100000 := of_decide_eq_true ((Bool.and_eq_true _ _).mp hcush).2
      omega
  have hb : a / 0x100000 < 0x200 := by omega
  unfold blockOf
  extract_lets b r k small o reg
  have hb' : b < 0x200 := hb
  clear_value b
  split
  case h_23 => rfl
  all_goals exact absurd hb' (by omega)

/-! ### RD and WR of memory (R460) -/

theorem idleLeave_tb (h : Hw) (r : Nat) : (h.idleLeave r).tb = h.tb := by
  unfold Hw.idleLeave
  split <;> rfl

theorem foldl_writeStep_tb (h : Hw) (a : Nat) (data : List (Option Byte)) (l : List Nat) : (l.foldl (writeStep a data) h).tb = h.tb := by
  induction l generalizing h with
  | nil => rfl
  | cons w l ih =>
    refine (ih _).trans ?_
    unfold writeStep
    extract_lets bs
    split <;> rfl

/-- The words of four aligned bytes are one word. -/
theorem isMarked_of_wordsOf_four (ha : a % 4 = 0) (hm : isMarked h a = false) : ∀ w ∈ wordsOf a 4, isMarked h w = false := fun w hw => by
  have hword := mem_wordsOf.mp hw
  have hsame : w / 8 = a / 8 := by omega
  rw [← hm, isMarked, isMarked, hsame]

section
variable {v : W32} {m : Master} (ha : a % 4 = 0) (hm : isMarked h a = false)
include ha hm

theorem memRead_four (hcause : protCause h m a 4 false = none) : memRead h m a 4 .good [] = (h.idleLeave (memRegion a), 0, h.bytesAt a 4) :=
  memRead_good h m a hcause (isMarked_of_wordsOf_four ha hm)

/-- A permitted write of four good bytes answers without an error, stores them and leaves the fronds and the timebase. -/
theorem memWrite_four (hcause : protCause h m a 4 true = none) :
    (memWrite h m a (leBytes 4 v.toNat) .good []).2 = 0 ∧ (memWrite h m a (leBytes 4 v.toNat) .good []).1.fronds = h.fronds ∧
      (memWrite h m a (leBytes 4 v.toNat) .good []).1.tb = h.tb ∧
      ∀ b, (memWrite h m a (leBytes 4 v.toNat) .good []).1.byteAt b = if a ≤ b ∧ b < a + 4 then (leBytes 4 v.toNat).getD (b - a) 0 else h.byteAt b := by
  have heq : memWrite h m a (leBytes 4 v.toNat) .good [] =
      ((wordsOf a 4).foldl (writeStep a ((leBytes 4 v.toNat).map some)) (h.idleLeave (memRegion a)), 0) :=
    memWriteEn_good (data := (leBytes 4 v.toNat).map some) h m a (Nat.succ_pos 3) hcause (isMarked_of_wordsOf_four ha hm)
  rw [heq]
  refine ⟨rfl, ?_, (foldl_writeStep_tb _ _ _ _).trans (idleLeave_tb h _), fun b => ?_⟩
  · exact (foldl_writeStep_frame a _ _ _).2.trans (idleLeave_frame (h := h) _).2.1
  · refine (byteAt_foldl_writeStep a _ _ (fun w hw => (mem_wordsOf.mp hw).1) b).trans ?_
    rw [byteAt_idleLeave]
    have hgot := givenByte_getD a (data := (leBytes 4 v.toNat).map some) (Nat.succ_pos 3) b (h.byteAt b)
    refine hgot.trans ?_
    split
    next hin =>
      have hlt : b - a < (leBytes 4 v.toNat).length := by
        have hlen : (leBytes 4 v.toNat).length = 4 := rfl
        have hlen' : ((leBytes 4 v.toNat).map some).length = 4 := rfl
        omega
      exact (by simp [hlt] : _ = (leBytes 4 v.toNat).getD (b - a) 0).trans (if_pos hin).symm
    next hout => exact (if_neg hout).symm

end

/-! ### RD and WR (R452, R459 to R463) -/

section
variable {par : Par} {meets : List Meet} (hears : (!dbgHears h) = false)
include hears

theorem debugRd_ack {n : Nat} (eff : Bool) (htgt : dbgTarget h frn a false = .ack n) : debugRd frn eff a par meets h = dbgAns h n false 0 := by
  rw [debugRd, hears, if_neg Bool.false_ne_true, htgt]

theorem debugRd_reg (htgt : dbgTarget h frn a false = .reg) : debugRd frn false a par meets h = dbgAns h ackOK (readActs h a) (regPeek h (dbgWho h) a) := by
  rw [debugRd, hears, if_neg Bool.false_ne_true, htgt]
  rfl

theorem debugRd_scratch (eff : Bool) (htgt : dbgTarget h frn a false = .scratch) :
    debugRd frn eff a par meets h = dbgAns h ackOK false (BitVec.ofNat 32 (scratchWord h frn (a % 65536))) := by
  rw [debugRd, hears, if_neg Bool.false_ne_true, htgt]

/-- A frame's read of permitted memory is a read without an effect but the region's return from IDLE. -/
theorem debugRd_mem (ha : a % 4 = 0) (htgt : dbgTarget h frn a false = .mem) (hfree : lineWaits h (.debugger frn) a = false) (hm : isMarked h a = false)
    (hcause : protCause h (.debugger frn) a 4 false = none) :
    debugRd frn false a .good [] h = dbgAns { h.idleLeave (memRegion a) with free := (h.idleLeave (memRegion a)).free } ackOK false (BitVec.ofNat 32 (leNat (h.bytesAt a 4))) := by
  have hnone : (protCause h (.debugger frn) a 4 false).isSome = false := by rw [hcause]; rfl
  rw [debugRd, hears, if_neg Bool.false_ne_true, htgt]
  dsimp only
  rw [hfree, if_neg Bool.false_ne_true, dbgMemRead, hnone, if_neg Bool.false_ne_true, memRead_four ha hm hcause]
  rfl

/-- A refused write answers its code; a HALT request is noted where a tenant session writes DBG_FCTL alone. -/
theorem debugWr_ack {v : W32} {n : Nat} (htgt : dbgTarget h frn a true = .ack n) (hplain : sessLevel h ≠ 2 ∨ blockOf h a = none) :
    debugWr frn a v par meets h = dbgAns h n false 0 := by
  rw [debugWr, hears, if_neg Bool.false_ne_true, htgt]
  dsimp only
  split
  next b o hblock =>
    rcases hplain with hlevel | hnone
    · rw [if_neg fun hc => hlevel hc.1]
    · cases hnone.symm.trans hblock
  next => rfl

theorem debugWr_scratch {v : W32} (htgt : dbgTarget h frn a true = .scratch) :
    debugWr frn a v par meets h = dbgAns { h with scratch := memSets h.scratch (frn * 65536 + a % 65536) (leBytes 4 v.toNat) } ackOK false 0 := by
  rw [debugWr, hears, if_neg Bool.false_ne_true, htgt]

theorem debugWr_mem {v : W32} (ha : a % 4 = 0) (htgt : dbgTarget h frn a true = .mem) (hfree : lineWaits h (.debugger frn) a = false) (hm : isMarked h a = false)
    (hcause : protCause h (.debugger frn) a 4 true = none) :
    debugWr frn a v .good [] h = dbgAns (memWrite h (.debugger frn) a (leBytes 4 v.toNat) .good []).1 ackOK false 0 := by
  have hnone : (protCause h (.debugger frn) a 4 true).isSome = false := by rw [hcause]; rfl
  rw [debugWr, hears, if_neg Bool.false_ne_true, htgt]
  dsimp only
  rw [hfree, if_neg Bool.false_ne_true, dbgMemWrite, hnone, if_neg Bool.false_ne_true]
  dsimp only
  rw [(memWrite_four ha hm hcause).1]
  rfl

/-! ### PRD and PWR (R461, R462) -/

variable {hi : Bool} {port : Nat}

theorem debugPrd_refused (eff : Bool) (hno : portAck h frn port false ≠ ackOK) : debugPrd frn eff hi port h = dbgAns h (portAck h frn port false) false 0 := by
  rw [debugPrd, hears, if_neg Bool.false_ne_true]
  exact if_pos hno

theorem debugPrd_taken (hok : portAck h frn port false = ackOK) (hplain : port ≠ 0x38A) :
    debugPrd frn false hi port h = dbgAns h ackOK (portActs port) (if hi then hi32 (portRead h frn port) else lo32 (portRead h frn port)) := by
  have heff : (false || port == 0x38A) = false := by simp [hplain]
  rw [debugPrd, hears, if_neg Bool.false_ne_true]
  dsimp only
  rw [if_neg (not_not.mpr hok), heff, if_neg Bool.false_ne_true]
  rfl

theorem debugPwr_refused {v : W32} (hno : portAck h frn port true ≠ ackOK) : debugPwr frn hi port v h = dbgAns h (portAck h frn port true) false 0 := by
  rw [debugPwr, hears, if_neg Bool.false_ne_true]
  exact if_pos hno

/-- A general register with one half replaced. -/
def halfPut (old : W64) (hi : Bool) (v : W32) : W64 := if hi then join64 v (lo32 old) else join64 (hi32 old) v

theorem debugPwr_general {v : W32} {k : Nat} (hk : k < 64) (hok : portAck h frn (0x40 + k) true = ackOK) :
    debugPwr frn hi (0x40 + k) v h =
      dbgAns (h.setFrond frn { h.frond frn with g := kvIns (h.frond frn).g k (halfPut (portRead h frn (0x40 + k)) hi v) }) ackOK false 0 := by
  have hheld : portHeld h frn (0x40 + k) = portRead h frn (0x40 + k) := by
    simp only [portHeld]
    rw [if_neg (by omega), if_neg (by omega), if_neg (by omega), if_neg (by omega), if_neg (by omega), if_neg (by omega), if_neg (by omega), if_neg (by omega),
      if_neg (by omega), if_neg (by omega)]
  have hwrite : ∀ x, portWrite h frn (0x40 + k) x = h.setFrond frn { h.frond frn with g := kvIns (h.frond frn).g k x } := fun x => by
    rw [portWrite]
    dsimp only
    rw [if_pos (by omega), Nat.add_sub_cancel_left]
  rw [debugPwr, hears, if_neg Bool.false_ne_true]
  dsimp only
  rw [if_neg (not_not.mpr hok), if_neg (by omega), hheld, hwrite]
  rfl

end

end

end Sys2Proof.Machine

namespace Sys2Proof.Proofs.DebugPort
open Sys2Proof Sys2Proof.Machine

/-- Settles O49: a frame is judged by its target, and a refused one only answers its code. -/
theorem debugFramesAreAnswered : Obligations.DebugFramesAreAnswered := by
  unfold Obligations.DebugFramesAreAnswered
  intro s hp h answers only
  have hans : ∀ ack peek data, answers ack peek data (dbgAns h ack peek data) ∧ only (dbgAns h ack peek data) := fun ack peek data => ⟨⟨rfl, rfl⟩, rfl⟩
  refine ⟨?reset, fun hline => ?_⟩
  case reset =>
    rw [gives_iff_of_onIsland rfl hp, debugLineReset, if_pos hp]
    exact ⟨rfl, rfl⟩
  have hears : (!dbgHears h) = false := dbgHears_of hp hline
  have hhears : dbgHears h = true := by simpa using hears
  refine ⟨?nop, ?crc, fun hsess frn a v x => ⟨fun hopen => ?openRead, fun hopen => ⟨?closedRead, ?closedWrite⟩⟩, fun hsess frn a v ha => ⟨?memory, ?running, ?keeper, ?scratch⟩,
    fun frn hi port v => ⟨fun hok hplain => ?prd, fun hno => ?prdNo, fun hno => ?pwrNo, ?pwr⟩⟩
  case nop =>
    rw [gives_iff_of_onIsland rfl hp, debugNop, if_pos hhears]
    exact hans _ _ _
  case crc =>
    rw [gives_iff_of_onIsland rfl hp, debugCrcFail, if_pos hhears]
    exact ⟨rfl, rfl, Hw.rb_sb_same _ _ rfl, rfl, rfl⟩
  case openRead =>
    rw [gives_iff_of_onIsland rfl hp, debugRd_reg hears ((dbgTarget_closed hsess _).trans (if_pos hopen))]
    exact hans _ _ _
  case closedRead =>
    rw [gives_iff_of_onIsland rfl hp, debugRd_ack hears false ((dbgTarget_closed hsess _).trans (if_neg (Bool.eq_false_iff.mp hopen)))]
    exact hans _ _ _
  case closedWrite =>
    rw [gives_iff_of_onIsland rfl hp, debugWr_ack hears ((dbgTarget_closed hsess _).trans (if_neg (Bool.eq_false_iff.mp hopen))) (.inl (by rw [hsess]; decide))]
    exact hans _ _ _
  case memory =>
    intro hmem hack hfree hm
    have htgt : ∀ write, dbgTarget h frn a write = .mem := fun write => (dbgTarget_mem hsess hmem write).trans (if_pos hack)
    refine ⟨fun hcause => ?_, fun hcause => ?_⟩
    · rw [gives_iff_of_onIsland rfl hp, debugRd_mem hears ha (htgt _) hfree hm hcause]
      exact ⟨⟨rfl, congrArg BitVec.toNat (idleLeave_tb h _)⟩, rfl⟩
    · obtain ⟨-, hfronds, htb, hbytes⟩ := memWrite_four (v := v) ha hm hcause
      rw [gives_iff_of_onIsland rfl hp, debugWr_mem hears ha (htgt _) hfree hm hcause]
      exact ⟨⟨rfl, congrArg BitVec.toNat htb⟩, hfronds, hbytes⟩
  case running =>
    intro hmem hrun hr hmay
    have hstate : regionAck h (memRegion a) frn = ackSTATE := regionAck_running hrun hr (hmay.imp_left fun hone => by rw [hone]; decide)
    have htgt : dbgTarget h frn a true = .ack ackSTATE := by
      rw [dbgTarget_mem hsess hmem, hstate]
      rfl
    rw [gives_iff_of_onIsland rfl hp, debugWr_ack hears htgt (.inr (blockOf_none_of_inMem hmem))]
    exact hans _ _ _
  case keeper =>
    intro hmem hlevel hworld
    have htgt : ∀ write, dbgTarget h frn a write = .ack ackPROT := fun write => by
      rw [dbgTarget_mem hsess hmem, regionAck_prot hlevel hworld]
      rfl
    refine ⟨?_, ?_⟩
    · rw [gives_iff_of_onIsland rfl hp, debugRd_ack hears false (htgt _)]
      exact hans _ _ _
    · rw [gives_iff_of_onIsland rfl hp, debugWr_ack hears (htgt _) (.inr (blockOf_none_of_inMem hmem))]
      exact hans _ _ _
  case scratch =>
    intro hmem hlo hhi hack
    have htgt : ∀ write, dbgTarget h frn a write = .scratch := dbgTarget_scratch hsess hmem hlo hhi hack
    refine ⟨?_, ?_⟩
    · have hword : scratchWord h frn (a % 65536) = leNat (memGets h.scratch (frn * 65536 + a % 65536) 4) := by
        rw [scratchWord, Nat.mod_mod]
      rw [gives_iff_of_onIsland rfl hp, debugRd_scratch hears false (htgt _), hword]
      exact hans _ _ _
    · rw [gives_iff_of_onIsland rfl hp, debugWr_scratch hears (htgt _)]
      exact ⟨⟨rfl, rfl⟩, rfl, fun b => memGet_memSets _ _ _ _⟩
  case prd =>
    rw [gives_iff_of_onIsland rfl hp, debugPrd_taken hears hok hplain]
    exact hans _ _ _
  case prdNo =>
    rw [gives_iff_of_onIsland rfl hp, debugPrd_refused hears false hno]
    exact hans _ _ _
  case pwrNo =>
    rw [gives_iff_of_onIsland rfl hp, debugPwr_refused hears hno]
    exact hans _ _ _
  case pwr =>
    intro k hk hport hok
    subst hport
    have hnew : portRead (dbgAns (h.setFrond frn { h.frond frn with g := kvIns (h.frond frn).g k (halfPut (portRead h frn (0x40 + k)) hi v) }) ackOK false 0) frn (0x40 + k) =
        halfPut (portRead h frn (0x40 + k)) hi v := by
      refine (portRead_general _ _ hk).trans ?_
      have hfrond := Hw.frond_setFrond_same h frn { h.frond frn with g := kvIns (h.frond frn).g k (halfPut (portRead h frn (0x40 + k)) hi v) }
      exact (congrArg (fun x : Frond => kvGet 0 x.g k) hfrond).trans (kvGet_kvIns_same _ _ _ _)
    rw [gives_iff_of_onIsland rfl hp, debugPwr_general hears hk hok, hnew]
    refine ⟨⟨rfl, rfl⟩, ?_, rfl, fun f hf => Hw.frond_setFrond_other _ _ hf⟩
    cases hi with
    | false => exact ⟨lo32_join64 _ _, hi32_join64 _ _⟩
    | true => exact ⟨hi32_join64 _ _, lo32_join64 _ _⟩

end Sys2Proof.Proofs.DebugPort
end

section
/-!
SUPPORT. Trace (R472 to R477): what filling the debug FIFO leaves, a carry of TB at a frond with room, the pop of the FIFO, and one packet written by a sink.
-/
namespace Sys2Proof.Machine

/-! ### The trace queues and the debug FIFO (R474, R475) -/

section
variable {h : Hw} {f : Nat}

theorem Hw.tq_setTq_same (h : Hw) (f : Nat) (x : TraceQ) : (h.setTq f x).tq f = x := kvGet_kvIns_same _ _ _ _
theorem Hw.tq_setTq_other (h : Hw) {f e : Nat} (x : TraceQ) (hne : e ≠ f) : (h.setTq f x).tq e = h.tq e := kvGet_kvIns_other _ _ _ hne

/-- A frond has no packet for the debug FIFO. -/
def fifoQuiet (h : Hw) (f : Nat) : Prop := traceToFifo h f = false ∨ (h.tq f).pkts = []

theorem traceNext_of_nil (hnil : (h.tq f).pkts = []) : traceNext h f = none := by
  simp [traceNext, hnil]

theorem fifoFrom_quiet (n : Nat) (hquiet : fifoQuiet h f) : fifoFrom n h f = h := by
  cases n with
  | zero => rfl
  | succ n =>
    rcases hquiet with hsink | hnil
    · simp [fifoFrom, hsink]
    · simp [fifoFrom, traceNext_of_nil hnil]

/-- With no packet for it the FIFO keeps its contents; its count is shown. -/
theorem fifoFill_quiet (hquiet : ∀ f, f < 2 * h.nRegions → fifoQuiet h f) : fifoFill h = h.wf DBG_TCNT DBG_TCNT_COUNT h.dbg.fifo.length := by
  have hsame : forEach (List.range (2 * h.nRegions)) h (fifoFrom 17) = h :=
    List.foldlRecOn (motive := (· = h)) _ _ rfl fun g hg e he => by
      rw [hg]
      exact fifoFrom_quiet 17 (hquiet e (List.mem_range.mp he))
  rw [fifoFill, hsame]

/-- Moving packets to the FIFO changes the trace queues of the fronds that deliver to it and the FIFO alone. -/
structure FifoKeeps (h g : Hw) : Prop where
  only : g = { h with trace := g.trace, dbg := { h.dbg with fifo := g.dbg.fifo } }
  sink : ∀ f, traceToFifo h f = false → g.tq f = h.tq f

namespace FifoKeeps

theorem refl (h : Hw) : FifoKeeps h h := ⟨rfl, fun _ _ => rfl⟩

theorem dest {h g : Hw} (hk : FifoKeeps h g) (f : Nat) : traceToFifo g f = traceToFifo h f := by
  rw [hk.only]
  rfl

theorem trans {h1 h2 h3 : Hw} (h12 : FifoKeeps h1 h2) (h23 : FifoKeeps h2 h3) : FifoKeeps h1 h3 where
  only := by
    rw [h23.only, h12.only]
  sink f hf := (h23.sink f ((h12.dest f).trans hf)).trans (h12.sink f hf)

/-- One packet taken. -/
theorem traceNext {h g : Hw} {f : Nat} {p : Pkt} (hdest : traceToFifo h f = true) (hnext : traceNext h f = some (p, g)) (q : List Pkt) :
    FifoKeeps h { g with dbg := { g.dbg with fifo := q } } := by
  have hset : ∃ x, g = h.setTq f x := by
    unfold Machine.traceNext at hnext
    dsimp only at hnext
    split at hnext
    · cases hnext
    · split at hnext <;> cases hnext <;> exact ⟨_, rfl⟩
  obtain ⟨x, rfl⟩ := hset
  refine ⟨rfl, fun e he => ?_⟩
  have hne : e ≠ f := fun heq => by
    rw [heq, hdest] at he
    cases he
  exact Hw.tq_setTq_other h x hne

theorem fifoFrom (n : Nat) (h : Hw) (f : Nat) : FifoKeeps h (fifoFrom n h f) := by
  induction n generalizing h with
  | zero => exact refl h
  | succ n ih =>
    unfold Machine.fifoFrom
    split
    next hroom =>
      split
      next p g hnext => exact (traceNext ((Bool.and_eq_true _ _).mp hroom).1 hnext _).trans (ih _)
      next => exact refl h
    next => exact refl h

theorem forEach (l : List Nat) (h : Hw) : FifoKeeps h (forEach l h (Machine.fifoFrom 17)) :=
  List.foldlRecOn (motive := FifoKeeps h) _ _ (refl h) fun g hg f _ => hg.trans (fifoFrom 17 g f)

end FifoKeeps

end

/-! ### A carry of TB (R473) -/

/-- The part of the block that the packets of other fronds leave to a frond f that delivers to a sink. -/
structure SyncKeeps (f : Nat) (h g : Hw) : Prop where
  tb : g.tb = h.tb
  mem : g.mem = h.mem
  fronds : g.fronds = h.fronds
  wrap : g.dbg.wrap = h.dbg.wrap
  tctl : g.rd (DBG_TCTL f) = h.rd (DBG_TCTL f)
  queue : traceToFifo h f = false → g.tq f = h.tq f

namespace SyncKeeps

variable {f : Nat} {h : Hw}

theorem refl (f : Nat) (h : Hw) : SyncKeeps f h h := ⟨rfl, rfl, rfl, rfl, rfl, fun _ => rfl⟩

theorem dest {g : Hw} (hk : SyncKeeps f h g) : traceToFifo g f = traceToFifo h f := congrArg (fun v => fldGet DBG_TCTL_DEST v == 1) hk.tctl

theorem trans {h1 h2 h3 : Hw} (h12 : SyncKeeps f h1 h2) (h23 : SyncKeeps f h2 h3) : SyncKeeps f h1 h3 where
  tb := h23.tb.trans h12.tb
  mem := h23.mem.trans h12.mem
  fronds := h23.fronds.trans h12.fronds
  wrap := h23.wrap.trans h12.wrap
  tctl := h23.tctl.trans h12.tctl
  queue hf := (h23.queue (h12.dest.trans hf)).trans (h12.queue hf)

theorem setTq {e : Nat} (hne : f ≠ e) (h : Hw) (x : TraceQ) : SyncKeeps f h (h.setTq e x) := ⟨rfl, rfl, rfl, rfl, rfl, fun _ => Hw.tq_setTq_other h x hne⟩

theorem wf {a : Nat} (hne : DBG_TCTL f ≠ a) (h : Hw) (fl : Fld) (n : Nat) : SyncKeeps f h (h.wf a fl n) := ⟨rfl, rfl, rfl, rfl, Hw.rd_wf_other _ _ _ hne, fun _ => rfl⟩

theorem of_fifoKeeps {g : Hw} (hk : FifoKeeps h g) : SyncKeeps f h g := by
  have hsink := hk.sink f
  rw [hk.only] at hsink ⊢
  exact ⟨rfl, rfl, rfl, rfl, rfl, hsink⟩

theorem fifoFill (f : Nat) (h : Hw) : SyncKeeps f h (fifoFill h) :=
  (of_fifoKeeps (.forEach _ h)).trans (wf (by unfold DBG_TCTL DBG_TCNT; omega) _ _ _)

/-- Another frond's SYNC packet, queued or dropped. -/
theorem traceSync {e : Nat} (hne : f ≠ e) (h : Hw) : SyncKeeps f h (traceSync h e) := by
  rw [Machine.traceSync, traceEmit]
  split
  · rw [traceLost, if_neg (Nat.succ_ne_zero 0)]
    exact (setTq hne h _).trans (wf (by unfold DBG_TCTL; omega) _ _ _)
  · exact (setTq hne h _).trans (fifoFill f _)

end SyncKeeps

/-- The SYNC packet of a frond. -/
def syncPkt (h : Hw) (f : Nat) : Pkt := ⟨h.tb, pktWord1 h 3 f 0⟩

/-- A frond with room that delivers to a sink queues its SYNC packet. -/
theorem traceSync_queues {h : Hw} {f : Nat} (hsink : traceToFifo h f = false) (hroom : (h.tq f).pkts.length < 16) :
    ((traceSync h f).tq f).pkts = (h.tq f).pkts ++ [syncPkt h f] ∧ (traceSync h f).mem = h.mem ∧ (traceSync h f).fronds = h.fronds ∧
      (traceSync h f).dbg.wrap = h.dbg.wrap ∧ traceToFifo (traceSync h f) f = false := by
  have heq : traceSync h f = fifoFill (h.setTq f { h.tq f with pkts := (h.tq f).pkts ++ [syncPkt h f] }) := if_neg (Nat.not_le.mpr hroom)
  have hk := SyncKeeps.fifoFill f (h.setTq f { h.tq f with pkts := (h.tq f).pkts ++ [syncPkt h f] })
  rw [heq]
  refine ⟨?_, hk.mem, hk.fronds, hk.wrap, hk.dest.trans hsink⟩
  rw [hk.queue hsink, Hw.tq_setTq_same]

/-- One frond at a carry of TB. -/
def syncStep (h : Hw) (f : Nat) : Hw := if h.rb (DBG_TCTL f) DBG_TCTL_EN then traceSync h f else h

theorem syncStep_keeps {f e : Nat} (hne : f ≠ e) (h : Hw) : SyncKeeps f h (syncStep h e) := by
  unfold syncStep
  split
  · exact .traceSync hne h
  · exact .refl f h

theorem foldl_syncStep_keeps {f : Nat} {l : List Nat} (hl : f ∉ l) (h : Hw) : SyncKeeps f h (l.foldl syncStep h) :=
  List.foldlRecOn (motive := SyncKeeps f h) _ _ (.refl f h) fun _ hg e he => hg.trans (syncStep_keeps (fun heq : f = e => hl (heq ▸ he)) _)

/-- The carry of TB at a tracing frond: the fronds before it and after it leave its queue. -/
theorem foldl_syncStep_queues {h : Hw} {f n : Nat} (hf : f < n) (hen : h.rb (DBG_TCTL f) DBG_TCTL_EN = true) (hsink : traceToFifo h f = false)
    (hroom : (h.tq f).pkts.length < 16) :
    (((List.range n).foldl syncStep h).tq f).pkts = (h.tq f).pkts ++ [syncPkt h f] ∧ ((List.range n).foldl syncStep h).dbg.wrap = h.dbg.wrap ∧
      ((List.range n).foldl syncStep h).mem = h.mem ∧ ((List.range n).foldl syncStep h).fronds = h.fronds := by
  have hnodup : (List.range n).Nodup := List.nodup_range
  obtain ⟨l1, l2, hl⟩ := List.append_of_mem (List.mem_range.mpr hf)
  rw [hl] at hnodup ⊢
  obtain ⟨-, hnd2, hdisj⟩ := List.nodup_append.mp hnodup
  have hn1 : f ∉ l1 := fun hm => hdisj f hm f List.mem_cons_self rfl
  have hn2 : f ∉ l2 := (List.nodup_cons.mp hnd2).1
  rw [List.foldl_append, List.foldl_cons]
  have h1 := foldl_syncStep_keeps hn1 h
  generalize l1.foldl syncStep h = g at h1
  have hsink1 : traceToFifo g f = false := h1.dest.trans hsink
  have hstep : syncStep g f = traceSync g f := if_pos ((congrArg (fun v => fldGet DBG_TCTL_EN v == 1) h1.tctl).trans hen)
  have hpkt : syncPkt g f = syncPkt h f := by
    rw [syncPkt, syncPkt, pktWord1, pktWord1, h1.tb]
  obtain ⟨hq, hmem, hfronds, hwrap, hdest⟩ := traceSync_queues hsink1 (by rw [h1.queue hsink]; exact hroom)
  rw [hstep]
  have h2 := foldl_syncStep_keeps hn2 (traceSync g f)
  refine ⟨?_, h2.wrap.trans (hwrap.trans h1.wrap), h2.mem.trans (hmem.trans h1.mem), h2.fronds.trans (hfronds.trans h1.fronds)⟩
  rw [h2.queue hdest, hq, h1.queue hsink, hpkt]

/-! ### The pop of the debug FIFO (R475) -/

section
variable {h : Hw}

theorem infoOf_tpkt (h : Hw) : blockOf h (DBG_TPKT 0) = some (.dbg, 0x300) ∧ infoOf h .dbg 0x300 = some info_DBG_TPKT := ⟨rfl, rfl⟩

theorem regRead_tpkt (h : Hw) (w : Who) : regRead h w (DBG_TPKT 0) 0 = ((tpktPop h).rd (DBG_TPKT 0), { tpktPop h with busRd := (tpktPop h).rd (DBG_TPKT 0) }) := by
  have heff : readEffect h w (DBG_TPKT 0) 0 = tpktPop h := by
    rw [readEffect, (infoOf_tpkt h).1]
    dsimp only
    rw [(infoOf_tpkt h).2]
    rfl
  rw [regRead, heff, (infoOf_tpkt h).1]
  rfl

/-- The packet at the head of the debug FIFO, or zero. -/
def fifoHead (h : Hw) : Pkt := h.dbg.fifo.headD ⟨0, 0⟩

/-- The head packet shown in DBG_TPKT0 to DBG_TPKT3. -/
def tpktShown (h : Hw) : Hw :=
  { ((((h.wr (DBG_TPKT 0) (lo32 (fifoHead h).w0)).wr (DBG_TPKT 1) (hi32 (fifoHead h).w0)).wr (DBG_TPKT 2) (lo32 (fifoHead h).w1)).wr (DBG_TPKT 3) (hi32 (fifoHead h).w1)) with
    dbg := { h.dbg with fifo := h.dbg.fifo.tail }
    busRd := lo32 (fifoHead h).w0 }

theorem tpktPop_eq (h : Hw) : tpktPop h = fifoFill (tpktShown h) := by
  unfold tpktPop tpktShown fifoHead
  cases h.dbg.fifo <;> rfl

theorem DBG_TPKT_ne {j k : Nat} (hjk : j ≠ k) : DBG_TPKT j ≠ DBG_TPKT k := by
  unfold DBG_TPKT
  omega

theorem rd_tpktShown (h : Hw) :
    (tpktShown h).rd (DBG_TPKT 0) = lo32 (fifoHead h).w0 ∧ (tpktShown h).rd (DBG_TPKT 1) = hi32 (fifoHead h).w0 ∧ (tpktShown h).rd (DBG_TPKT 2) = lo32 (fifoHead h).w1 ∧
      (tpktShown h).rd (DBG_TPKT 3) = hi32 (fifoHead h).w1 := by
  refine ⟨?_, ?_, ?_, Hw.rd_wr_same _ _ _⟩
  · exact (Hw.rd_wr_other _ _ (DBG_TPKT_ne (by decide))).trans ((Hw.rd_wr_other _ _ (DBG_TPKT_ne (by decide))).trans
      ((Hw.rd_wr_other _ _ (DBG_TPKT_ne (by decide))).trans (Hw.rd_wr_same _ _ _)))
  · exact (Hw.rd_wr_other _ _ (DBG_TPKT_ne (by decide))).trans ((Hw.rd_wr_other _ _ (DBG_TPKT_ne (by decide))).trans (Hw.rd_wr_same _ _ _))
  · exact (Hw.rd_wr_other _ _ (DBG_TPKT_ne (by decide))).trans (Hw.rd_wr_same _ _ _)

theorem rd_tpktShown_other (h : Hw) {a : Nat} (ha : ∀ k, k < 4 → a ≠ DBG_TPKT k) : (tpktShown h).rd a = h.rd a :=
  (Hw.rd_wr_other _ _ (ha 3 (by decide))).trans ((Hw.rd_wr_other _ _ (ha 2 (by decide))).trans
    ((Hw.rd_wr_other _ _ (ha 1 (by decide))).trans (Hw.rd_wr_other _ _ (ha 0 (by decide)))))

/-- The pop shows the head packet and takes it, while no frond delivers another. -/
theorem tpktPop_quiet (hquiet : ∀ f, f < 2 * h.nRegions → fifoQuiet h f) : tpktPop h = (tpktShown h).wf DBG_TCNT DBG_TCNT_COUNT h.dbg.fifo.tail.length := by
  have hq : ∀ f, f < 2 * (tpktShown h).nRegions → fifoQuiet (tpktShown h) f := fun f hf => by
    have hlt : f < 8 := by
      have hcfg : h.cfg.regions ≤ 4 := by cases h.cfg <;> decide
      have hf' : f < 2 * h.cfg.regions := hf
      omega
    have hne : ∀ k, k < 4 → DBG_TCTL f ≠ DBG_TPKT k := fun k hk => by
      unfold DBG_TCTL DBG_TPKT
      omega
    exact (hquiet f hf).imp_left (congrArg (fun v => fldGet DBG_TCTL_DEST v == 1) (rd_tpktShown_other h hne)).trans
  rw [tpktPop_eq, fifoFill_quiet hq]
  rfl

end

/-! ### The sink (R476, R477) -/

section
variable {h : Hw} {r : Nat}

theorem TS_ne (r : Nat) : TS_CTL r ≠ TS_WR r ∧ TS_CTL r ≠ TS_STAT r ∧ TS_WR r ≠ TS_STAT r ∧ TS_STAT r ≠ TS_WR r ∧ TS_STAT r ≠ TS_CTL r ∧ TS_WR r ≠ TS_CTL r := by
  unfold TS_CTL TS_WR TS_STAT
  omega

theorem tsEnable_stranger {w : Who} {v : W32} (hr : h.hasRegion r = true) (hw : h.holds (TS_CLAIM r) w = false) : tsEnable w r v h = h.sb (TS_STAT r) TS_STAT_CLAIM := by
  simp [tsEnable, hr, hw]

/-- The ring of a write of TS_CTL is legal. -/
def tsLegal (h : Hw) (r : Nat) (v : W32) : Bool :=
  decide (8 ≤ fldGet TS_CTL_SIZE v) && decide (fldGet TS_CTL_SIZE v ≤ 20) && ringOk h r (tsBase h r) (2 ^ fldGet TS_CTL_SIZE v * 16)

theorem tsLegal_iff {v : W32} : tsLegal h r v = true ↔
    8 ≤ fldGet TS_CTL_SIZE v ∧ fldGet TS_CTL_SIZE v ≤ 20 ∧ ringOk h r (tsBase h r) (2 ^ fldGet TS_CTL_SIZE v * 16) = true := by
  simp only [tsLegal, Bool.and_eq_true, decide_eq_true_eq, and_assoc]

section
variable {w : Who} {v : W32} (hr : h.hasRegion r = true) (hw : h.holds (TS_CLAIM r) w = true)
include hr hw

theorem tsEnable_off (hen : fldGet TS_CTL_EN v = 0) : tsEnable w r v h = (h.wr (TS_CTL r) (v &&& 0x4000001F)).wf (TS_STAT r) TS_STAT_ACT 0 := by
  simp [tsEnable, hr, hw, hen]

theorem tsEnable_on (hen : fldGet TS_CTL_EN v = 1) : tsEnable w r v h =
    if tsLegal h r v then
      (if h.rb (TS_CTL r) TS_CTL_EN then h.wr (TS_CTL r) (v &&& 0xC000001F) else ((h.wr (TS_CTL r) (v &&& 0xC000001F)).wr (TS_WR r) 0).sb (TS_STAT r) TS_STAT_ACT)
    else h.sb (TS_STAT r) TS_STAT_CFGERR := by
  have hr' : (!h.hasRegion r) = false := by rw [hr]; rfl
  have hw' : (!h.holds (TS_CLAIM r) w) = false := by rw [hw]; rfl
  rw [tsEnable, hr', hw', if_neg Bool.false_ne_true, if_neg Bool.false_ne_true]
  dsimp only
  rw [if_neg (by rw [hen]; decide)]
  rfl

end

/-- A value that is masked with 0x4000001F has EN clear. -/
theorem tsCtl_masked_en (v : W32) : fldGet TS_CTL_EN (v &&& 0x4000001F) = 0 := by
  have hle : (v &&& 0x4000001F).toNat ≤ 0x4000001F := by
    rw [BitVec.toNat_and]
    exact Nat.and_le_right
  change (v &&& 0x4000001F).toNat >>> 31 % 2 ^ 1 = 0
  rw [Nat.shiftRight_eq_div_pow]
  omega

theorem tsDrain_off (n : Nat) (ok : Bool) (meets : List Meet) (hoff : h.rb (TS_CTL r) TS_CTL_EN = false) : tsDrain n h r ok meets = h := by
  cases n with
  | zero => rfl
  | succ n => simp [tsDrain, hoff]

theorem tsDrain_empty (n : Nat) (ok : Bool) (meets : List Meet) (hnone : tsFrond h r = none) : tsDrain n h r ok meets = h := by
  cases n with
  | zero => rfl
  | succ n => simp [tsDrain, hnone]

/-- A sink that writes takes one packet of its next frond, and goes on. -/
theorem tsDrain_one {f : Nat} {p : Pkt} (n : Nat) (ok : Bool) (meets : List Meet) (hen : h.rb (TS_CTL r) TS_CTL_EN = true) (hact : h.rb (TS_STAT r) TS_STAT_ACT = true)
    (hnext : tsFrond h r = some f) (hworld : (h.frond f).world = .tenant ∨ h.rf (TS_CLAIM r) cWORLD = 0) (hq : h.tq f = ⟨[p], 0⟩) :
    tsDrain (n + 1) h r ok meets = tsDrain n (tsWriteOne (h.setTq f ⟨[], 0⟩) r p ok meets) r ok [] := by
  have hkept : (((h.frond f).world == .keeper && h.rf (TS_CLAIM r) cWORLD == 1) || !h.rb (TS_STAT r) TS_STAT_ACT) = false := by
    rcases hworld with ht | hc
    · simp [ht, hact]
    · simp [hc, hact]
  have htake : traceNext h f = some (p, h.setTq f ⟨[], 0⟩) := by
    rw [traceNext, hq]
    rfl
  have hen' : (!h.rb (TS_CTL r) TS_CTL_EN) = false := by rw [hen]; rfl
  rw [tsDrain, hen', if_neg Bool.false_ne_true, hnext]
  dsimp only
  rw [hkept, if_neg Bool.false_ne_true, htake]

/-- The frond f of the region has the only packet for the sink. -/
theorem tsFrond_only {f g : Nat} (hfg : f = 2 * r ∧ g = 2 * r + 1 ∨ f = 2 * r + 1 ∧ g = 2 * r) (hsink : traceToFifo h f = false) (hg : (h.tq g).pkts = []) :
    tsFrond h r = if (h.tq f).pkts = [] then none else some f := by
  have hgn : (!traceToFifo h g && !(h.tq g).pkts.isEmpty) = false := by rw [hg]; exact Bool.and_false _
  have hfn : (!traceToFifo h f && !(h.tq f).pkts.isEmpty) = !(h.tq f).pkts.isEmpty := by rw [hsink]; rfl
  rcases hfg with ⟨rfl, rfl⟩ | ⟨rfl, rfl⟩ <;>
    · simp only [tsFrond, frondsOf, List.find?_cons, List.find?_nil, hgn, hfn]
      cases hp : (h.tq _).pkts <;> simp

/-- What a sink's registers do not hang on: a memory write and the region's return from IDLE. -/
theorem rd_idleLeave_ts (h : Hw) {q a : Nat} (ha : a / 0x1000 = 0x21800) : (h.idleLeave q).rd a = h.rd a := by
  have hne : a ≠ PWR_STAT q := by
    unfold PWR_STAT
    omega
  unfold Hw.idleLeave
  split
  · exact Hw.rd_wf_other _ _ _ hne
  · rfl

theorem foldl_writeStep_regs (h : Hw) (a : Nat) (data : List (Option Byte)) (l : List Nat) :
    (l.foldl (writeStep a data) h).regs = h.regs ∧ (l.foldl (writeStep a data) h).cfg = h.cfg ∧ (l.foldl (writeStep a data) h).trace = h.trace := by
  induction l generalizing h with
  | nil => exact ⟨rfl, rfl, rfl⟩
  | cons w l ih =>
    have hone : (writeStep a data h w).regs = h.regs ∧ (writeStep a data h w).cfg = h.cfg ∧ (writeStep a data h w).trace = h.trace := by
      unfold writeStep
      extract_lets bs
      split <;> exact ⟨rfl, rfl, rfl⟩
    obtain ⟨hr1, hc1, ht1⟩ := ih (writeStep a data h w)
    exact ⟨hr1.trans hone.1, hc1.trans hone.2.1, ht1.trans hone.2.2⟩

theorem idleLeave_trace (h : Hw) (q : Nat) : (h.idleLeave q).trace = h.trace := by
  unfold Hw.idleLeave
  split <;> rfl

/-- The sixteen bytes of a packet. -/
def pktBytes (p : Pkt) : List Byte := leBytes 8 p.w0.toNat ++ leBytes 8 p.w1.toNat

theorem length_pktBytes (p : Pkt) : (pktBytes p).length = 16 := rfl

section
variable {p : Pkt} {off : Nat} (halign : off % 16 = 0) (hcause : protCause h (.traceSink r) off 16 true = none)
include halign hcause

/-- The write of a packet stores its sixteen bytes and leaves the sink's registers and the trace queues. -/
theorem memWrite_pkt :
    (memWrite h (.traceSink r) off (pktBytes p) .good []).2 = 0 ∧
      (∀ a, a / 0x1000 = 0x21800 → (memWrite h (.traceSink r) off (pktBytes p) .good []).1.rd a = h.rd a) ∧
      (memWrite h (.traceSink r) off (pktBytes p) .good []).1.trace = h.trace ∧
      ∀ b, (memWrite h (.traceSink r) off (pktBytes p) .good []).1.byteAt b = if off ≤ b ∧ b < off + 16 then (pktBytes p).getD (b - off) 0 else h.byteAt b := by
  have hbytes := byteAt_memWrite_whole h (.traceSink r) (a := off) (data := pktBytes p) (by omega) (by rw [length_pktBytes]) (by rw [length_pktBytes]; decide) hcause
  have heq := memWrite_whole h (.traceSink r) (a := off) (data := pktBytes p) (by omega) (by rw [length_pktBytes]) (by rw [length_pktBytes]; decide) hcause
  obtain ⟨hregs, hcfg, htrace⟩ := foldl_writeStep_regs (h.idleLeave (memRegion off)) off ((pktBytes p).map some) (wordsOf off (pktBytes p).length)
  refine ⟨?_, fun a ha => ?_, ?_, hbytes⟩
  · rw [heq]
  · rw [heq]
    exact (Hw.rd_congr hregs hcfg a).trans (rd_idleLeave_ts h ha)
  · rw [heq]
    exact htrace.trans (idleLeave_trace h _)

/-- One packet written to a local ring that does not stop when full. -/
theorem tsWriteOne_stored (hmode : h.rb (TS_CTL r) TS_CTL_MODE = false)
    (hpa : paLocal (tsBase h r + 16 * ((h.rd (TS_WR r)).toNat % 2 ^ h.rf (TS_CTL r) TS_CTL_SIZE)) = some off) (hr : r < 4) :
    tsWriteOne h r p true [] = (memWrite h (.traceSink r) off (pktBytes p) .good []).1.wr (TS_WR r) (h.rd (TS_WR r) + 1) := by
  obtain ⟨hst, hrd, -, -⟩ := memWrite_pkt (p := p) halign hcause
  have hpage : TS_CTL r / 0x1000 = 0x21800 ∧ TS_WR r / 0x1000 = 0x21800 := by
    unfold TS_CTL TS_WR
    omega
  rw [tsWriteOne]
  dsimp only
  rw [if_neg (by decide), hpa]
  change (if (memWrite h (.traceSink r) off (pktBytes p) .good []).2 = 0 then _ else _) = _
  rw [if_pos hst, ← pktBytes]
  generalize (memWrite h (.traceSink r) off (pktBytes p) .good []).1 = g at hrd
  have hoff : (g.wr (TS_WR r) (g.rd (TS_WR r) + 1)).rb (TS_CTL r) TS_CTL_MODE = false :=
    (congrArg (fun v => fldGet TS_CTL_MODE v == 1) ((Hw.rd_wr_other _ _ (TS_ne r).1).trans (hrd _ hpage.1))).trans hmode
  rw [hoff, Bool.false_and, if_neg Bool.false_ne_true, hrd _ hpage.2]

end

/-- A failed write stops the sink. -/
theorem tsWriteOne_failed {p : Pkt} (meets : List Meet) : tsWriteOne h r p false meets = tsFail h r := by
  rw [tsWriteOne]
  rfl

theorem tsFail_fields (h : Hw) (r : Nat) :
    (tsFail h r).rb (TS_CTL r) TS_CTL_EN = false ∧ (tsFail h r).rb (TS_STAT r) TS_STAT_ACT = false ∧ (tsFail h r).rb (TS_STAT r) TS_STAT_ERR = true := by
  obtain ⟨-, hcs, -, -, -, -⟩ := TS_ne r
  refine ⟨?_, (Hw.rb_wf_apart _ _ rfl rfl _).trans (Hw.rb_wf_zero _ _ rfl), Hw.rb_sb_same _ _ rfl⟩
  exact (Hw.rb_wf_other _ _ _ _ hcs).trans ((Hw.rb_wf_other _ _ _ _ hcs).trans (Hw.rb_wf_zero _ _ rfl))

theorem traceSinkWrite_of_served (hr : h.hasRegion r = true) (hserv : h.inService r = true) (hrun : h.rgnState r = rpRun) (ok : Bool) (meets : List Meet) :
    traceSinkWrite r ok meets h = tsDrain 40 h r ok meets :=
  if_pos (by rw [hr, hserv, hrun]; rfl)

end

end Sys2Proof.Machine

namespace Sys2Proof.Proofs.Trace
open Sys2Proof Sys2Proof.Machine

/-- Settles O52: the packets of the other fronds leave a frond's queue, and a sink with one packet writes it, or stops. -/
theorem tracePacketsReachTheirSink : Obligations.TracePacketsReachTheirSink := by
  unfold Obligations.TracePacketsReachTheirSink
  intro s h
  refine ⟨?carry, ?pop, ?enable, fun r hclk hr => ⟨fun x hoff => ?idle, ?sink⟩⟩
  case carry =>
    intro f hp hwrap hf hen hsink hroom
    have heq : tbWrap h = (List.range (2 * h.nRegions)).foldl syncStep { h with dbg := { h.dbg with wrap := false } } := if_pos hwrap
    rw [gives_iff_of_onIsland rfl hp, heq]
    exact foldl_syncStep_queues (h := { h with dbg := { h.dbg with wrap := false } }) (of_decide_eq_true hf) hen hsink hroom
  case pop =>
    intro w hg hquiet shows
    have hq : ∀ f, f < 2 * h.nRegions → fifoQuiet h f := fun f hf => hquiet f (by
      have hcfg : h.cfg.regions ≤ 4 := by cases h.cfg <;> decide
      have hf' : f < 2 * h.cfg.regions := hf
      omega) (decide_eq_true hf)
    have heq : dbgTpktPop w h = { tpktPop h with busRd := (tpktPop h).rd (DBG_TPKT 0) } := (if_pos hg).trans (congrArg Prod.snd (regRead_tpkt h w))
    have hshown : shows (fifoHead h).w0 (fifoHead h).w1 (dbgTpktPop w h) ∧ (dbgTpktPop w h).dbg.fifo = h.dbg.fifo.tail ∧ (dbgTpktPop w h).trace = h.trace ∧
        (dbgTpktPop w h).mem = h.mem := by
      have hne : ∀ k, k < 4 → DBG_TPKT k ≠ DBG_TCNT := fun k hk => by
        unfold DBG_TPKT DBG_TCNT
        omega
      have hrd : ∀ k, k < 4 → ((tpktShown h).wf DBG_TCNT DBG_TCNT_COUNT h.dbg.fifo.tail.length).rd (DBG_TPKT k) = (tpktShown h).rd (DBG_TPKT k) := fun k hk =>
        Hw.rd_wf_other _ _ _ (hne k hk)
      obtain ⟨h0, h1, h2, h3⟩ := rd_tpktShown h
      rw [heq, tpktPop_quiet hq]
      exact ⟨⟨(hrd 0 (by decide)).trans h0, (hrd 1 (by decide)).trans h1, (hrd 2 (by decide)).trans h2, (hrd 3 (by decide)).trans h3, (hrd 0 (by decide)).trans h0⟩, rfl, rfl, rfl⟩
    refine ⟨fun p rest hfifo => ?_, fun hfifo => ?_⟩
    · rw [gives_iff_of_always (f := dbgTpktPop w) rfl]
      rw [fifoHead, hfifo] at hshown
      exact hshown
    · rw [gives_iff_of_always (f := dbgTpktPop w) rfl]
      rw [fifoHead, hfifo] at hshown
      exact hshown
  case enable =>
    intro w r v hg hr size legal
    refine ⟨fun hw => ⟨fun hen hlegal hwas => ?_, fun hen hno => ?_, fun hen => ?_⟩, fun hw => ?_⟩
    · obtain ⟨hcw, hcs, hws, hsw, hsc, hwc⟩ := TS_ne r
      rw [gives_iff_of_onWrite rfl hg, tsEnable_on hr hw hen, if_pos (tsLegal_iff.mpr hlegal), hwas, if_neg Bool.false_ne_true]
      refine ⟨?_, ?_, Hw.rb_sb_same _ _ rfl, rfl⟩
      · exact (Hw.rd_wf_other _ _ _ hcs).trans ((Hw.rd_wr_other _ _ hcw).trans (Hw.rd_wr_same _ _ _))
      · exact (Hw.rd_wf_other _ _ _ hws).trans (Hw.rd_wr_same _ _ _)
    · rw [gives_iff_of_onWrite rfl hg, tsEnable_on hr hw hen, if_neg (mt tsLegal_iff.mp hno)]
    · rw [gives_iff_of_onWrite rfl hg, tsEnable_off hr hw hen]
      refine ⟨?_, Hw.rb_wf_zero _ _ rfl, rfl⟩
      have hrd : ((h.wr (TS_CTL r) (v &&& 0x4000001F)).wf (TS_STAT r) TS_STAT_ACT 0).rd (TS_CTL r) = v &&& 0x4000001F :=
        (Hw.rd_wf_other _ _ _ (TS_ne r).2.1).trans (Hw.rd_wr_same _ _ _)
      exact (congrArg (fun x => fldGet TS_CTL_EN x == 1) hrd).trans (by rw [tsCtl_masked_en]; rfl)
    · rw [gives_iff_of_onWrite rfl hg]
      exact tsEnable_stranger hr hw
  case idle =>
    rw [gives_iff_of_onClock rfl hclk, traceSinkWrite, tsDrain_off 40 x.1 x.2 hoff]
    exact ite_self _
  case sink =>
    intro f g p off hfg hserv hrun hen hact hq hsink hg hworld slot hpa halign hmem hm1 hm2 hcause
    have hr4 : r < 4 := h.lt_four_of_hasRegion hr
    have hnext : tsFrond h r = some f := by
      rw [tsFrond_only hfg hsink hg, hq]
      rfl
    have hdrain := fun ok => (traceSinkWrite_of_served hr hserv hrun ok []).trans (tsDrain_one 39 ok [] hen hact hnext hworld hq)
    refine ⟨fun hmode => ?_, ?_⟩
    · rw [gives_iff_of_onClock rfl hclk]
      obtain ⟨-, hrd, htrace, hbytes⟩ := memWrite_pkt (h := h.setTq f ⟨[], 0⟩) (r := r) (p := p) halign hcause
      rw [hdrain, tsWriteOne_stored (h := h.setTq f ⟨[], 0⟩) halign hcause hmode hpa hr4]
      generalize (memWrite (h.setTq f ⟨[], 0⟩) (.traceSink r) off (pktBytes p) .good []).1 = g' at hrd htrace hbytes
      have hqf : g'.tq f = ⟨[], 0⟩ := (congrArg (fun l => kvGet TraceQ.empty l f) htrace).trans (Hw.tq_setTq_same h f _)
      have hqg : g'.tq g = h.tq g := (congrArg (fun l => kvGet TraceQ.empty l g) htrace).trans (Hw.tq_setTq_other h _ (by omega))
      have hpages : DBG_TCTL f / 0x1000 = 0x21800 ∧ DBG_TCTL f ≠ TS_WR r ∧ TS_STAT r / 0x1000 = 0x21800 := by
        unfold DBG_TCTL TS_WR TS_STAT
        omega
      obtain ⟨htctl, htne, hstat⟩ := hpages
      have hsink' : traceToFifo (g'.wr (TS_WR r) ((h.setTq f ⟨[], 0⟩).rd (TS_WR r) + 1)) f = false :=
        (congrArg (fun v => fldGet DBG_TCTL_DEST v == 1) ((Hw.rd_wr_other _ _ htne).trans (hrd _ htctl))).trans hsink
      have hempty : tsFrond (g'.wr (TS_WR r) ((h.setTq f ⟨[], 0⟩).rd (TS_WR r) + 1)) r = none := by
        rw [tsFrond_only hfg hsink' (hqg ▸ hg)]
        exact if_pos (congrArg TraceQ.pkts hqf)
      rw [tsDrain_empty 39 _ [] hempty]
      obtain ⟨-, -, -, hsw, -, -⟩ := TS_ne r
      exact ⟨congrArg TraceQ.pkts hqf, Hw.rd_wr_same _ _ _, (congrArg (fun v => fldGet TS_STAT_ACT v == 1) ((Hw.rd_wr_other _ _ hsw).trans (hrd _ hstat))).trans hact, hbytes⟩
    · rw [gives_iff_of_onClock rfl hclk, hdrain, tsWriteOne_failed, tsDrain_off 39 _ _ (tsFail_fields _ r).1]
      obtain ⟨he, ha, herr⟩ := tsFail_fields (h.setTq f ⟨[], 0⟩) r
      exact ⟨he, ha, herr, rfl⟩

end Sys2Proof.Proofs.Trace
end
